-- ==== Sys2Proof/Word.lean ====
section
/-! DEFINITION. The words of the block: 32-bit register words (R7), bytes, and the 48-bit native word (R28). -/
namespace Sys2Proof

/-- A register word (R7): 32 bits, bit 0 the least significant. -/
abbrev Word := BitVec 32

/-- One byte of a frame, of a message or of the flash. -/
abbrev Byte := BitVec 8

/-- The native data word (R28): statistics, distance counters, seconds, host addresses. -/
abbrev W48 := BitVec 48

end Sys2Proof
end

