-- ==== Sys2Proof/Config.lean ====
section
/-! DEFINITION. What the spec leaves open: free values, as constants without a body, and the cryptographic primitives that
the spec names by their standard and does not define. Nothing can be proved about their values. -/
namespace Sys2Proof.Config

open Sys2Proof

/-- A value that the spec leaves open, by the number of free values taken before it (`Chip.free`) (log entry 4). -/
opaque freeWord : Nat → BitVec 64

/-- SHA-384 (log entry 5): the digest as 48 bytes. -/
opaque sha384 : List Byte → List Byte

/-- HMAC-SHA-384: key, message (log entry 5). -/
opaque hmac384 : List Byte → List Byte → List Byte

/-- AES-256-GCM encryption: key, nonce, additional data, plaintext; ciphertext and 16-byte tag (log entry 5). -/
opaque gcmSeal : List Byte → List Byte → List Byte → List Byte → List Byte × List Byte

/-- AES-256-GCM decryption: key, nonce, additional data, ciphertext, tag; the plaintext when the tag verifies (log entry 5). -/
opaque gcmOpen : List Byte → List Byte → List Byte → List Byte → List Byte → Option (List Byte)

/-- The plaintext of the first bytes of a ciphertext, before its tag is known (log entry 5). -/
opaque gcmStream : List Byte → List Byte → List Byte → List Byte

/-- AES key unwrap (RFC 3394): wrapping key, wrapped key; the key when the integrity check holds (log entry 5). -/
opaque keyUnwrap : List Byte → List Byte → Option (List Byte)

/-- ECDSA verification of the vendor key over P-384: public key, digest, signature (log entry 5). -/
opaque ecdsaVerify : List Byte → List Byte → List Byte → Bool

/-- The regeneration of the PUF root from a Grain reading and helper data (log entry 5): the root when the decoder succeeds. -/
opaque regenerate : List Byte → List Byte → Option (List Byte)

/-- The share of flipped Grain cells that the decoder counts, in 0.1 % units (log entry 5): Grain reading, helper data. -/
opaque flipped : List Byte → List Byte → Nat

/-- The helper data of a fresh enrolment, by the number of free values taken before it (R385; log entry 5). -/
opaque enrolment : Nat → List Byte

/-- What 11 bits show of the data length 2,048 of a CAN XL message (R190; log entry 124). -/
opaque xlLength : BitVec 11

/-- The clockIdentity of the device's gPTP instances and the offsetScaledLogVariance that they advertise (R129, R132): the spec gives
neither (log entry 104). -/
opaque clockIdentity : BitVec 64
opaque clockVariance : BitVec 16

/-- Where a capability of the PCI Express configuration space begins, in words from 0x40 on, by its ID (R248; log entry 106). -/
opaque capAt : Nat → BitVec 6

/-- The ROM version, 4 bytes (R387): the spec does not give it (log entry 5). -/
opaque romVersion : BitVec 32

end Sys2Proof.Config
end

