-- ==== Sys2Proof/Machine/Bits.lean ====
section
/-! DEFINITION. Bit fields of register words, byte order, and the canonical maps that hold sparse state. -/
namespace Sys2Proof.Machine

open Sys2Proof

/-- The field of `width` bits at bit `lo` of a word. -/
def bitsAt (w : Word) (lo width : Nat) : Nat := (w.toNat >>> lo) % 2 ^ width

/-- The mask of a field of `width` bits at `lo`. -/
def maskAt (lo width : Nat) : Word := BitVec.ofNat 32 ((2 ^ width - 1) <<< lo)

/-- `w` with the field of `width` bits at `lo` replaced by the low bits of `v`. -/
def putBits (w : Word) (lo width v : Nat) : Word :=
  (w &&& ~~~ maskAt lo width) ||| BitVec.ofNat 32 ((v % 2 ^ width) <<< lo)

/-- Is bit `i` of `n` 1? -/
def bitOf (n i : Nat) : Bool := n.testBit i

/-- `n` with bit `i` set. -/
def setBit (n i : Nat) : Nat := n ||| 2 ^ i

/-- `n` with bit `i` cleared. -/
def clearBit (n i : Nat) : Nat := if n.testBit i then n - 2 ^ i else n

/-- The 48-bit value of a _LO and a _HI register (R7). -/
def w48Of (lo hi : Word) : Nat := lo.toNat + 2 ^ 32 * (hi.toNat % 2 ^ 16)

/-- The number an unsigned field of `width` bits spells when read as two's complement. -/
def signedOf (v width : Nat) : Int := if v < 2 ^ (width - 1) then (v : Int) else (v : Int) - 2 ^ width

/-- The field of `width` bits that holds an integer in two's complement. -/
def unsignedOf (v : Int) (width : Nat) : Nat := (v % (2 ^ width : Nat)).toNat

/-- The number a list of bytes spells, first byte most significant (network order). -/
def beNat (bs : List Byte) : Nat := bs.foldl (fun a b => a * 256 + b.toNat) 0

/-- The number a list of bytes spells, first byte least significant. -/
def leNat : List Byte → Nat
  | [] => 0
  | b :: bs => b.toNat + 256 * leNat bs

/-- `n` bytes of a number, most significant first. -/
def beBytes : Nat → Nat → List Byte
  | 0, _ => []
  | k + 1, v => BitVec.ofNat 8 (v / 256 ^ k) :: beBytes k v

/-- `n` bytes of a number, least significant first. -/
def leBytes : Nat → Nat → List Byte
  | 0, _ => []
  | k + 1, v => BitVec.ofNat 8 v :: leBytes k (v / 256)

/-- Byte `i` of a list, 0 beyond its end. -/
def byteAt (bs : List Byte) (i : Nat) : Nat := (bs.getD i 0).toNat

/-- `n` bytes from `i` on, most significant first; bytes beyond the end count as 0. -/
def beAt (bs : List Byte) (i n : Nat) : Nat := (List.range n).foldl (fun a k => a * 256 + byteAt bs (i + k)) 0

/-- `n` bytes from `i` on, least significant first. -/
def leAt (bs : List Byte) (i n : Nat) : Nat := (List.range n).foldr (fun k a => byteAt bs (i + k) + 256 * a) 0

/-- The words of a byte string, four bytes a word, byte 0 in bits [7:0] of word 0. -/
def wordsOf (bs : List Byte) (n : Nat) : List Word := (List.range n).map fun i => BitVec.ofNat 32 (leAt bs (4 * i) 4)

/-- The number of bits of `n`, among its low `k`, that are 1. -/
def popCount (n k : Nat) : Nat := ((List.range k).filter fun i => n.testBit i).length

/-- The lowest bit of `n`, among its low `k`, that is 1. -/
def lowestBit (n k : Nat) : Option Nat := (List.range k).find? fun i => n.testBit i

/-- The positions of the 1 bits of `n` among its low `k`. -/
def bitList (n k : Nat) : List Nat := (List.range k).filter fun i => n.testBit i

/-! ## Sparse maps

State that has one value per number (registers, table words, counters, per-instance records) is a list of pairs in one
canonical form: keys strictly rising, and no entry equal to what an unlisted key reads as. -/

/-- What `m` holds at `k`; `d` where nothing is listed. -/
def lookupD {α : Type} (d : α) : List (Nat × α) → Nat → α
  | [], _ => d
  | (a, v) :: m, k => if a = k then v else lookupD d m k

/-- `m` without its entry at `k`. -/
def erase {α : Type} : List (Nat × α) → Nat → List (Nat × α)
  | [], _ => []
  | (a, v) :: m, k => if a = k then erase m k else (a, v) :: erase m k

/-- `m` with `v` at `k`, keys kept rising. -/
def insert {α : Type} : List (Nat × α) → Nat → α → List (Nat × α)
  | [], k, v => [(k, v)]
  | (a, w) :: m, k, v => if a = k then (k, v) :: m else if k < a then (k, v) :: (a, w) :: m else (a, w) :: insert m k v

/-- `m` with `v` at `k`, where `d` is what an unlisted `k` reads as: the one write of the canonical form. -/
def store {α : Type} [DecidableEq α] (d : α) (m : List (Nat × α)) (k : Nat) (v : α) : List (Nat × α) :=
  if v = d then erase m k else insert m k v

/-- The keys rise strictly, all above `k`. -/
def risingFrom {α : Type} : Nat → List (Nat × α) → Bool
  | _, [] => true
  | k, (a, _) :: m => decide (k ≤ a) && risingFrom (a + 1) m

/-- The canonical form: keys strictly rising, no entry equal to its default. -/
def canonical {α : Type} [DecidableEq α] (d : Nat → α) (m : List (Nat × α)) : Bool :=
  risingFrom 0 m && m.all fun e => decide (e.2 ≠ d e.1)

/-- Every entry whose key fails `keep` dropped. -/
def keepKeys {α : Type} (keep : Nat → Bool) (m : List (Nat × α)) : List (Nat × α) := m.filter fun e => keep e.1

end Sys2Proof.Machine
end

