-- ==== Sys2Proof/Machine/Names.lean ====
section
/-! DEFINITION. The things that commands and state name: register pages, requesters, window sides. -/
namespace Sys2Proof

/-- The kinds of 4 KiB register page (R33). -/
inductive PageKind where
  | sys | clk | pwr | rst | aon | xmem | boot | upd | prisil | trestle | perf | wear | evio
  | time | gptp | story | storyTbl | cinch
  | fab | buf | spill | rseq | fdb | frer | bridle | units | macsec
  | port | phy | gw | can | lin | uart | pulse | host | dma | dxlt | qspis | tenon | tring
  deriving DecidableEq, Repr

/-- A page: its kind and, for the numbered pages, its number (R33). -/
structure Page where
  kind : PageKind
  inst : Nat := 0
  deriving DecidableEq, Repr

/-- The requesters of register accesses, with the codes of `ERR_CAUSE.REQUESTER` (R36). -/
inductive Requester where
  | pcie | qspi | trestle | peer | bootRom
  deriving DecidableEq, Repr

/-- The size of a bus access (R253): 32 bits, 64 bits, or another number of bytes. -/
inductive AccSize where
  | word | double
  | other (bytes : Nat)
  deriving DecidableEq, Repr

/-- What a write carries (R253): its size, its first 32 bits, and the upper 32 of a 64-bit write. -/
structure BusData where
  size : AccSize := .word
  lo : Word
  hi : Word := 0
  deriving DecidableEq, Repr

/-- How an access reaches an address: as a read or as a write, and its size. -/
structure BusAccess where
  write : Bool
  size : AccSize := .word
  deriving DecidableEq, Repr

/-- BOOT_MODE and TEST_EN as power-on reset samples them (R317, R350, R428). -/
structure PorPins where
  bootMode : Nat
  testEn : Bool := false
  deriving DecidableEq, Repr

/-- What a received Announce says besides its grandmaster's priorities, clockQuality and identity (R129): stepsRemoved, the port identity
of its sender, timeSource. -/
structure AnnouncePath where
  steps : Nat
  sender : Nat
  timeSource : Nat := 0xA0
  deriving DecidableEq, Repr

/-- The two windows of a page with tables (R54): the host's and the firmware's. -/
inductive Side where
  | host | fw
  deriving DecidableEq, Repr

/-- What the test of one copy of Scribe found (R368): the injections, 0 to 584, at which it did not flag exactly the injected leg and group;
whether it flagged something in the clean cycle; whether the two copies disagreed at a step. -/
structure ScribeTest where
  wrong : List Nat := []
  noisy : Bool := false
  disagrees : Bool := false
  deriving DecidableEq, Repr

/-- The outputs of the three legs as a copy of Scribe compares them in a cycle: of each the values of groups G0 to G6 (R364). -/
structure LegOutputs where
  tc0 : List Nat
  tc1 : List Nat
  tc2 : List Nat
  deriving DecidableEq, Repr

/-- A self-test of the agreement exchange (R366): whether the majority won while the sample of each leg in turn was forced to differ. -/
structure SampleTest where
  tc0 : Bool := true
  tc1 : Bool := true
  tc2 : Bool := true
  deriving DecidableEq, Repr

/-- What an error-correcting memory read finds (R94, R98). -/
inductive EccResult where
  | good | corrected | uncorrectable
  deriving DecidableEq, Repr

/-- The end of a transmission: its egress port, and what the memory showed of the cells read after its start (R94). -/
structure TxEnd where
  port : Nat
  ecc : EccResult := .good
  deriving DecidableEq, Repr

/-- The queue of a port from which a spilled copy is read back: its class, and whether the write buffer still holds the copy (R96). -/
structure SpillQueue where
  cls : Nat
  buffered : Bool := false
  deriving DecidableEq, Repr

/-- The kinds of legacy message (R218): the bus on which it travels. -/
inductive MsgKind where
  | can | lin | uart
  deriving DecidableEq, Repr

/-- A CAN, LIN or UART message: its kind, its identifier, what its CAN frame says of it, its data (R190, R218). -/
structure Msg where
  kind : MsgKind
  id : Nat := 0
  ide : Bool := false
  fdf : Bool := false
  brs : Bool := false
  xl : Bool := false
  rtr : Bool := false
  data : List Byte := []
  deriving DecidableEq, Repr

/-- How the reception of an Ethernet frame ends at the PCS and the preemption layer (R73, R75); a bad FCS. -/
inductive RxEnd where
  | good | badFcs | codeError | assyError
  deriving DecidableEq, Repr

/-- What a frame on a T port carries: its origin ring ID, its origin logical port, its hop count (R290). -/
structure RingOrigin where
  ring : Nat := 0
  port : Nat := 0
  hops : Nat := 0
  deriving DecidableEq, Repr

/-- What a port receives: a whole frame (DMAC first, without FCS); of a frame that may cut through (R103) its first 128 bytes
or more, and later its remaining bytes; a verify response of the partner (R74). -/
inductive Rx where
  | whole (bytes : List Byte) (ending : RxEnd)
  | head (bytes : List Byte)
  | tail (bytes : List Byte) (ending : RxEnd)
  | verifyResponse
  deriving DecidableEq, Repr

/-- What becomes of a frame that a CAN channel has started (R231, R232). -/
inductive CanResult where
  | sent | arbitrationLost
  | bitError | stuffError | formError | ackError | crcError
  deriving DecidableEq, Repr

/-- The errors of a frame being received on CAN (R232). -/
inductive CanError where
  | bit | stuff | form | crc | ack
  deriving DecidableEq, Repr

/-- What a LIN master or slave sees of a response (R233, R235). -/
inductive LinResponse where
  | data (bytes : List Byte)
  | checksumError | framingError | bitError | none
  deriving DecidableEq, Repr

/-- What arrives on a legacy channel: a CAN message; a LIN frame's response; UART characters, with an error in one of them, and the
bit times of idle line that follow (R215, R236). -/
inductive LegacyRx where
  | can (msg : Msg)
  | lin (id : Nat) (resp : LinResponse)
  | uart (chars : List Byte) (parity framing : Bool) (idle : Nat)
  deriving DecidableEq, Repr

/-- What firmware finds for a network interconnect instance on a channel (R239): it claims, holds or loses its address; a network
message from an address queries its ports or its filter, with the data of the answer; one that writes a filter entry. -/
inductive NiuEvent where
  | claim | won | lost
  | query (from' : Nat) (answer : List Byte)
  | filter (entry : Nat) (words : List Word)
  deriving DecidableEq, Repr

/-- A piece of host memory as the host answers reads of it (R266, R275): a byte address, bytes. A read of bytes that no piece holds
completes in error. -/
structure MemSeg where
  addr : Nat
  bytes : List Byte
  deriving DecidableEq, Repr

/-- A flit from a Tenon partner (R287): content that other commands deliver; one that fails its CRC; an acknowledgement of so many more
flits; a request to replay, so many more being good; link control that names the ring IDs reachable through the partner (R289), or a
device of the ring that has been reset or has flushed its crossing (R291). -/
inductive Flit where
  | content | bad
  | ack (n : Nat)
  | replay (good : Nat)
  | reach (ids : Nat)
  | peerReset (dev : Nat)
  deriving DecidableEq, Repr

/-- The resets of the PCI Express side (R251). -/
inductive PcieReset where
  | flr | hotReset | linkLoss | perst | bmeClear
  deriving DecidableEq, Repr

/-- The memories of the supervisor cluster (R374). -/
inductive TrMem where
  | activeBank | inactiveBank | checkpoint | data
  deriving DecidableEq, Repr

/-- What firmware has counted or measured for the lifetime record (R421): days of trend history, erase cycles of the most-erased
sectors, the worst margin's port and value in 0.01 dB, the mean FLIP. -/
structure LifeInput where
  history : Nat
  eraseJournal : Nat
  eraseLog : Nat
  eraseOther : Nat
  marginPort : Nat
  margin : Nat
  flip : Nat
  deriving DecidableEq, Repr

/-- A mechanism of the remaining-life estimate as firmware has projected it (R423): code, whether it is valid, days at the three
percentiles, days of history. -/
structure Mech where
  code : Nat
  valid : Bool
  p10 : Nat
  p50 : Nat
  p90 : Nat
  history : Nat
  deriving DecidableEq, Repr

/-- What a Tenon partner asks or answers with register flits (R291): a write or a read of this device by the ring peer behind the link;
the answer of a peer, with the cause of a refusal (0 none); a request between two other devices. -/
inductive RemoteOp where
  | write (addr : Nat) (value : Word)
  | read (addr : Nat)
  | confirm (dev cause : Nat) (data : Word)
  | relay
  deriving DecidableEq, Repr

/-- Source device ID and sequence number of an Ehruz request (R295). -/
structure EhruzSource where
  id : Nat
  seq : Nat := 0
  deriving DecidableEq, Repr

/-- The operation of an Ehruz request (R295), up to 64 words; a block address has its ring ID in bits 25:24. -/
inductive EhruzOp where
  | read (addrs : List Nat)
  | write (words : List (Nat × Word))
  | fence
  | subscribe
  deriving DecidableEq, Repr

end Sys2Proof
end

