-- ==== Sys2Proof/Machine/Page.lean ====
section
/-! DEFINITION. The address map of R33: base addresses, summary indices, TYPE codes, instances. -/
namespace Sys2Proof.Machine

open Sys2Proof

/-- Is this instance of the page kind in the map of R33? PHY6 and PHY7 are not (R34). -/
def pageValid (p : Page) : Bool :=
  match p.kind with
  | .gptp => decide (p.inst < 4)
  | .port => decide (p.inst < 31)
  | .phy => decide (p.inst < 6) || (decide (8 ≤ p.inst) && decide (p.inst < 28))
  | .can => decide (p.inst < 16)
  | .lin => decide (p.inst < 8)
  | .uart => decide (p.inst < 4)
  | .tenon => decide (p.inst < 2)
  | _ => decide (p.inst = 0)

/-- The page number (base / 4 KiB) of a page (R33). -/
def pageNo (p : Page) : Nat :=
  match p.kind with
  | .sys => 0 | .clk => 1 | .pwr => 2 | .rst => 3 | .aon => 4 | .xmem => 5 | .boot => 6 | .upd => 7
  | .prisil => 8 | .trestle => 9 | .perf => 0xA | .wear => 0xB | .evio => 0xC
  | .time => 0x10 | .gptp => 0x11 + p.inst | .story => 0x18 | .storyTbl => 0x19 | .cinch => 0x1A
  | .fab => 0x20 | .buf => 0x21 | .spill => 0x22 | .rseq => 0x23 | .fdb => 0x24 | .frer => 0x25
  | .bridle => 0x30 | .units => 0x31 | .macsec => 0x32
  | .port => 0x40 + p.inst | .phy => 0x60 + p.inst
  | .gw => 0x80 | .can => 0x81 + p.inst | .lin => 0x91 + p.inst | .uart => 0x99 + p.inst | .pulse => 0x9D
  | .host => 0xA0 | .dma => 0xA1 | .dxlt => 0xA2 | .qspis => 0xA3
  | .tenon => 0xB0 + p.inst | .tring => 0xB2

/-- The base address of a page (R33). -/
def pageBase (p : Page) : Nat := pageNo p * 0x1000

/-- The summary index of a page (R33). -/
def pageIdx (p : Page) : Nat :=
  match p.kind with
  | .sys => 0 | .clk => 1 | .pwr => 2 | .rst => 3 | .aon => 4 | .xmem => 5 | .boot => 6 | .upd => 7
  | .prisil => 8 | .trestle => 9 | .perf => 10 | .wear => 11 | .evio => 12
  | .time => 13 | .gptp => 14 + p.inst | .story => 18 | .storyTbl => 19 | .cinch => 20
  | .fab => 21 | .buf => 22 | .spill => 23 | .rseq => 24 | .fdb => 25 | .frer => 26
  | .bridle => 27 | .units => 28 | .macsec => 29
  | .port => 30 + p.inst | .phy => 61 + p.inst
  | .gw => 89 | .can => 90 + p.inst | .lin => 106 + p.inst | .uart => 114 + p.inst | .pulse => 118
  | .host => 119 | .dma => 120 | .dxlt => 121 | .qspis => 122
  | .tenon => 123 + p.inst | .tring => 125

/-- The TYPE code of a page (R33). -/
def pageType (p : Page) : Nat :=
  match p.kind with
  | .sys => 1 | .clk => 2 | .pwr => 3 | .rst => 4 | .aon => 5 | .xmem => 6 | .boot => 7 | .upd => 8
  | .prisil => 9 | .trestle => 0xA | .perf => 0xB | .wear => 0xC | .evio => 0xD
  | .time => 0x10 | .gptp => 0x11 | .story => 0x12 | .storyTbl => 0x13 | .cinch => 0x14
  | .fab => 0x20 | .buf => 0x21 | .spill => 0x22 | .rseq => 0x23 | .fdb => 0x24 | .frer => 0x25
  | .bridle => 0x30 | .units => 0x31 | .macsec => 0x32 | .port => 0x40 | .phy => 0x60
  | .gw => 0x80 | .can => 0x81 | .lin => 0x82 | .uart => 0x83 | .pulse => 0x84
  | .host => 0xA0 | .dma => 0xA1 | .dxlt => 0xA2 | .qspis => 0xA3 | .tenon => 0xB0 | .tring => 0xB1

/-- The page that a page number names, where the map lists it (R33, R34). -/
def pageOfNo (n : Nat) : Option Page :=
  let p : Option Page :=
    if n < 0xD then
      some ⟨([.sys, .clk, .pwr, .rst, .aon, .xmem, .boot, .upd, .prisil, .trestle, .perf, .wear, .evio].getD n .sys), 0⟩
    else if n < 0x10 then none
    else if n = 0x10 then some ⟨.time, 0⟩
    else if n < 0x15 then some ⟨.gptp, n - 0x11⟩
    else if n < 0x18 then none
    else if n < 0x1B then some ⟨([.story, .storyTbl, .cinch].getD (n - 0x18) .story), 0⟩
    else if n < 0x20 then none
    else if n < 0x26 then some ⟨([.fab, .buf, .spill, .rseq, .fdb, .frer].getD (n - 0x20) .fab), 0⟩
    else if n < 0x30 then none
    else if n < 0x33 then some ⟨([.bridle, .units, .macsec].getD (n - 0x30) .bridle), 0⟩
    else if n < 0x40 then none
    else if n < 0x5F then some ⟨.port, n - 0x40⟩
    else if n < 0x60 then none
    else if n < 0x7C then some ⟨.phy, n - 0x60⟩
    else if n < 0x80 then none
    else if n = 0x80 then some ⟨.gw, 0⟩
    else if n < 0x91 then some ⟨.can, n - 0x81⟩
    else if n < 0x99 then some ⟨.lin, n - 0x91⟩
    else if n < 0x9D then some ⟨.uart, n - 0x99⟩
    else if n = 0x9D then some ⟨.pulse, 0⟩
    else if n < 0xA0 then none
    else if n < 0xA4 then some ⟨([.host, .dma, .dxlt, .qspis].getD (n - 0xA0) .host), 0⟩
    else if n < 0xB0 then none
    else if n < 0xB2 then some ⟨.tenon, n - 0xB0⟩
    else if n = 0xB2 then some ⟨.tring, 0⟩
    else none
  match p with
  | some q => if pageValid q then some q else none
  | none => none

/-- The page that a byte address of the 16 MiB space falls in. -/
def pageOfAddr (a : Nat) : Option Page := pageOfNo (a / 0x1000)

/-- The page with a summary index. -/
def pageOfIdx (i : Nat) : Option Page :=
  let p : Option Page :=
    if i < 13 then pageOfNo i
    else if i < 18 then pageOfNo (0x10 + (i - 13))
    else if i < 21 then pageOfNo (0x18 + (i - 18))
    else if i < 27 then pageOfNo (0x20 + (i - 21))
    else if i < 30 then pageOfNo (0x30 + (i - 27))
    else if i < 61 then pageOfNo (0x40 + (i - 30))
    else if i < 89 then pageOfNo (0x60 + (i - 61))
    else if i < 118 then pageOfNo (0x80 + (i - 89))
    else if i = 118 then pageOfNo 0x9D
    else if i < 123 then pageOfNo (0xA0 + (i - 119))
    else if i < 126 then pageOfNo (0xB0 + (i - 123))
    else none
  p

/-- Every page of the map, in the order of the summary indices. -/
def allPages : List Page := (List.range 126).filterMap pageOfIdx

end Sys2Proof.Machine
end

