-- ==== Sys2Proof/Machine/RegMap.lean ====
section
/-! DEFINITION. The register tables of the spec as data: for each page its registers (offset, repetition, access, writable
bits, reset value), and the fields, events and counters by the names the spec gives them. Written from the register and
field tables of the page chapters (R36, R54, R56, R57, R80, R83, R108 to R112, R134, R136, R164 to R169, R185, R209, R211,
R213, R243, R245, R246, R281 to R283, R297, R299, R323, R324, R339, R340, R355, R356, R380, R399, R414, R425, R426). -/
namespace Sys2Proof.Machine

open Sys2Proof

/-- The access types of R38. -/
inductive Acc where
  | ro | rw | rws | w1c | w1s | wo
  deriving DecidableEq, Repr

/-- One row of a register table: `count` registers, `stride` bytes apart, from `off` on. -/
structure RegRow where
  off : Nat
  stride : Nat
  count : Nat
  acc : Acc
  mask : Nat
  reset : Nat
  deriving DecidableEq, Repr

/-- One field of a register: its register's offset, its lowest bit, its width, whether the register is staged (RWS). -/
structure Fld where
  off : Nat
  lo : Nat
  width : Nat
  rws : Bool := false
  deriving DecidableEq, Repr

/-- The same field of the `i`-th of registers `stride` bytes apart. -/
def Fld.idx (f : Fld) (stride i : Nat) : Fld := { f with off := f.off + stride * i }

/-- The common header (R36). Offset 0x00C, which R36 lists as RSV, has no row: a write there logs RSV_WRITE, not RO_WRITE (R40 names both a
reserved offset and a register all of whose fields are RSV; DEDUCED, log entry 107). -/
def rowsHeader : List RegRow :=
  [⟨0x000, 0, 1, .ro, 0x00000000, 0x00000000⟩,
   ⟨0x004, 0, 1, .ro, 0x00000000, 0x00000100⟩,
   ⟨0x008, 0, 1, .ro, 0x00000000, 0x00000000⟩,
   ⟨0x010, 0, 1, .rw, 0x00000001, 0x00000000⟩,
   ⟨0x014, 0, 1, .ro, 0x00000000, 0x00000000⟩,
   ⟨0x018, 0, 1, .w1c, 0xFFFFFFFF, 0x00000000⟩,
   ⟨0x01C, 0, 1, .rw, 0xFFFFFFFF, 0x00000000⟩,
   ⟨0x020, 0, 1, .ro, 0x00000000, 0x00000000⟩,
   ⟨0x024, 0, 1, .rw, 0x0000033F, 0x00000200⟩,
   ⟨0x028, 0, 1, .wo, 0x00000000, 0x00000000⟩,
   ⟨0x02C, 0, 1, .ro, 0x00000000, 0x00000000⟩,
   ⟨0x030, 0, 1, .w1s, 0x00000000, 0x00000000⟩,
   ⟨0x034, 0, 1, .ro, 0x00000000, 0x00000000⟩,
   ⟨0x038, 0, 1, .ro, 0x00000000, 0x00000000⟩,
   ⟨0x03C, 0, 1, .rw, 0xFFFFFFFF, 0x00000000⟩]
/-- The table window (R54). -/
def rowsWindow : List RegRow :=
  [⟨0x100, 0, 1, .rw, 0x0FFFFFFF, 0x00000000⟩,
   ⟨0x104, 4, 8, .rw, 0xFFFFFFFF, 0x00000000⟩,
   ⟨0x124, 0, 1, .wo, 0x00000000, 0x00000000⟩,
   ⟨0x128, 0, 1, .ro, 0x00000000, 0x00000000⟩]
/-- The snapshot control (R56). -/
def rowsSnap : List RegRow :=
  [⟨0x130, 0, 1, .w1s, 0xFFFFFFFF, 0x00000000⟩,
   ⟨0x134, 0, 1, .ro, 0x00000000, 0x00000000⟩]
/-- The own registers of SYS; the bits of the group masks that name no page read 0 (R34). -/
def rowsSys : List RegRow :=
  [⟨0x140, 0, 1, .ro, 0x00000000, 0x00964800⟩,
   ⟨0x144, 0, 1, .ro, 0x00000000, 0x00000000⟩,
   ⟨0x150, 4, 4, .ro, 0x00000000, 0x00000000⟩,
   ⟨0x160, 0, 1, .rw, 0x0000003F, 0x00000000⟩,
   ⟨0x170, 4, 2, .rw, 0xFFFFFFFF, 0x00000000⟩,
   ⟨0x178, 0, 1, .rw, 0xFFFFFFE7, 0x00000000⟩,
   ⟨0x17C, 0, 1, .rw, 0x3FFFFFFF, 0x00000000⟩,
   ⟨0x180, 0, 1, .wo, 0x00000000, 0x00000000⟩,
   ⟨0x184, 0, 1, .ro, 0x00000000, 0x00000000⟩,
   ⟨0x188, 0, 1, .rw, 0x0000FFFF, 0x00002710⟩,
   ⟨0x190, 0, 1, .w1s, 0x00000000, 0x00000000⟩,
   ⟨0x194, 0, 1, .ro, 0x00000000, 0x00000000⟩]
/-- The own registers of CLK. -/
def rowsClk : List RegRow :=
  [⟨0x140, 0, 1, .rw, 0x0000070F, 0x00000000⟩,
   ⟨0x144, 0, 1, .ro, 0x00000000, 0x00000000⟩,
   ⟨0x148, 0, 1, .rw, 0x03FF0007, 0x00000007⟩,
   ⟨0x14C, 0, 1, .ro, 0x00000000, 0x00000000⟩,
   ⟨0x150, 0, 1, .ro, 0x00000000, 0x00000000⟩,
   ⟨0x154, 0, 1, .ro, 0x00000000, 0x00000000⟩,
   ⟨0x158, 0, 1, .rw, 0x0000FFFF, 0x000007D0⟩,
   ⟨0x400, 4, 24, .ro, 0x00000000, 0x00000000⟩]
/-- The own registers of PWR. -/
def rowsPwr : List RegRow :=
  [⟨0x140, 0, 1, .rws, 0x01FFFFFF, 0x00320000⟩,
   ⟨0x144, 0, 1, .rws, 0x000000FF, 0x00000080⟩,
   ⟨0x148, 0, 1, .wo, 0x00000000, 0x00000000⟩,
   ⟨0x14C, 0, 1, .ro, 0x00000000, 0x00000000⟩,
   ⟨0x150, 0, 1, .w1c, 0xFFFFFFFF, 0x00000000⟩,
   ⟨0x154, 0, 1, .ro, 0x00000000, 0x00000000⟩,
   ⟨0x158, 0, 1, .ro, 0x00000000, 0x00000000⟩,
   ⟨0x400, 4, 16, .ro, 0x00000000, 0x00000000⟩]
/-- The own registers of RST. -/
def rowsRst : List RegRow :=
  [⟨0x140, 0, 1, .w1c, 0x0000003F, 0x00000001⟩,
   ⟨0x144, 0, 1, .wo, 0x00000000, 0x00000000⟩,
   ⟨0x148, 0, 1, .w1s, 0x00000000, 0x00000000⟩,
   ⟨0x150, 0, 1, .rw, 0xFFFF0001, 0x03E80000⟩,
   ⟨0x154, 0, 1, .wo, 0x00000000, 0x00000000⟩,
   ⟨0x158, 0, 1, .ro, 0x00000000, 0x00000000⟩,
   ⟨0x160, 0, 1, .ro, 0x00000000, 0x00000000⟩,
   ⟨0x400, 4, 8, .ro, 0x00000000, 0x00000000⟩]
/-- The own registers of AON. -/
def rowsAon : List RegRow :=
  [⟨0x140, 0, 1, .rw, 0x07FFFFFF, 0x00000000⟩,
   ⟨0x144, 0, 1, .rw, 0x003FFFFF, 0x00000000⟩,
   ⟨0x148, 0, 1, .rw, 0x7F7F7F7F, 0x00000000⟩,
   ⟨0x14C, 0, 1, .ro, 0x00000000, 0x00000000⟩,
   ⟨0x150, 0, 1, .ro, 0x00000000, 0x00000000⟩,
   ⟨0x154, 0, 1, .rw, 0xFFFFFFFF, 0x00000000⟩,
   ⟨0x158, 0, 1, .rw, 0x0000FFFF, 0x00000000⟩,
   ⟨0x15C, 0, 1, .wo, 0x00000000, 0x00000000⟩,
   ⟨0x160, 0, 1, .ro, 0x00000000, 0x00000000⟩,
   ⟨0x164, 0, 1, .ro, 0x00000000, 0x00000000⟩,
   ⟨0x168, 0, 1, .ro, 0x00000000, 0x00000000⟩,
   ⟨0x16C, 0, 1, .rw, 0xFFFFFFFF, 0x00000000⟩,
   ⟨0x170, 0, 1, .rw, 0x8000FFFF, 0x00000000⟩,
   ⟨0x174, 0, 1, .ro, 0x00000000, 0x00000000⟩,
   ⟨0x1C0, 4, 8, .rw, 0xFFFFFFFF, 0x00000000⟩]
/-- The own registers of XMEM. -/
def rowsXmem : List RegRow :=
  [⟨0x140, 0, 1, .ro, 0x00000000, 0x00000000⟩,
   ⟨0x144, 0, 1, .rw, 0x3FFFFFFF, 0x00000000⟩,
   ⟨0x148, 0, 1, .rw, 0x000001FF, 0x00000000⟩,
   ⟨0x14C, 0, 1, .wo, 0x00000000, 0x00000000⟩,
   ⟨0x150, 0, 1, .ro, 0x00000000, 0x00000000⟩,
   ⟨0x200, 4, 64, .rw, 0xFFFFFFFF, 0x00000000⟩,
   ⟨0x400, 4, 12, .ro, 0x00000000, 0x00000000⟩]
/-- The own registers of BOOT. -/
def rowsBoot : List RegRow :=
  [⟨0x140, 0, 1, .ro, 0x00000000, 0x00000000⟩,
   ⟨0x144, 0, 1, .ro, 0x00000000, 0x00000000⟩,
   ⟨0x148, 0, 1, .ro, 0x00000000, 0x00000000⟩,
   ⟨0x14C, 0, 1, .ro, 0x00000000, 0x00000000⟩,
   ⟨0x150, 0, 1, .rw, 0x00000003, 0x00000000⟩,
   ⟨0x180, 4, 12, .ro, 0x00000000, 0x00000000⟩,
   ⟨0x1C0, 0, 1, .rw, 0x000000FF, 0x00000000⟩,
   ⟨0x1C4, 0, 1, .rw, 0xFFFFFFFF, 0x00000000⟩,
   ⟨0x1C8, 0, 1, .wo, 0x00000000, 0x00000000⟩,
   ⟨0x1CC, 0, 1, .ro, 0x00000000, 0x00000000⟩,
   ⟨0x1D0, 0, 1, .ro, 0x00000000, 0x00000000⟩]
/-- The own registers of UPD. -/
def rowsUpd : List RegRow :=
  [⟨0x140, 0, 1, .rws, 0x0001FFFF, 0x00010000⟩,
   ⟨0x144, 0, 1, .wo, 0x00000000, 0x00000000⟩,
   ⟨0x148, 0, 1, .ro, 0x00000000, 0x00000000⟩,
   ⟨0x14C, 0, 1, .ro, 0x00000000, 0x00000000⟩,
   ⟨0x150, 0, 1, .ro, 0x00000000, 0x00000000⟩,
   ⟨0x154, 0, 1, .ro, 0x00000000, 0x00000000⟩,
   ⟨0x158, 0, 1, .ro, 0x00000000, 0x00000000⟩,
   ⟨0x160, 4, 12, .ro, 0x00000000, 0x00000000⟩,
   ⟨0x400, 4, 16, .ro, 0x00000000, 0x00000000⟩]
/-- The own registers of PRISIL. -/
def rowsPrisil : List RegRow :=
  [⟨0x140, 0, 1, .ro, 0x00000000, 0x00000000⟩,
   ⟨0x144, 0, 1, .rw, 0x0000003F, 0x00000000⟩,
   ⟨0x148, 0, 1, .ro, 0x00000000, 0x00000000⟩,
   ⟨0x14C, 0, 1, .ro, 0x00000000, 0x00000000⟩,
   ⟨0x150, 0, 1, .ro, 0x00000000, 0x00000000⟩,
   ⟨0x160, 0, 1, .wo, 0x00000000, 0x00000000⟩,
   ⟨0x164, 0, 1, .rw, 0x03FF3FFF, 0x00000000⟩,
   ⟨0x168, 0, 1, .rw, 0xFF0703FF, 0x00000000⟩,
   ⟨0x16C, 0, 1, .ro, 0x00000000, 0x00000000⟩,
   ⟨0x170, 4, 8, .rw, 0xFFFFFFFF, 0x00000000⟩,
   ⟨0x190, 4, 12, .rw, 0xFFFFFFFF, 0x00000000⟩,
   ⟨0x1C0, 4, 12, .rw, 0xFFFFFFFF, 0x00000000⟩,
   ⟨0x1F0, 0, 1, .wo, 0x00000000, 0x00000000⟩,
   ⟨0x1F4, 4, 3, .rw, 0xFFFFFFFF, 0x00000000⟩,
   ⟨0x200, 4, 4, .rw, 0xFFFFFFFF, 0x00000000⟩,
   ⟨0x210, 4, 12, .ro, 0x00000000, 0x00000000⟩,
   ⟨0x300, 4, 16, .ro, 0x00000000, 0x00000000⟩,
   ⟨0x400, 4, 128, .rw, 0xFFFFFFFF, 0x00000000⟩]
/-- The own registers of TRESTLE. -/
def rowsTrestle : List RegRow :=
  [⟨0x140, 0, 1, .ro, 0x00000000, 0x00000000⟩,
   ⟨0x144, 0, 1, .wo, 0x00000000, 0x00000000⟩,
   ⟨0x148, 0, 1, .ro, 0x00000000, 0x00000000⟩,
   ⟨0x14C, 0, 1, .wo, 0x00000000, 0x00000000⟩,
   ⟨0x150, 0, 1, .wo, 0x00000000, 0x00000000⟩,
   ⟨0x154, 0, 1, .ro, 0x00000000, 0x00000000⟩,
   ⟨0x158, 0, 1, .ro, 0x00000000, 0x00000000⟩,
   ⟨0x15C, 0, 1, .rws, 0x0000FF03, 0x00000502⟩,
   ⟨0x160, 0, 1, .rws, 0x0000FF01, 0x00000A01⟩,
   ⟨0x170, 4, 3, .ro, 0x00000000, 0x00000000⟩,
   ⟨0x17C, 0, 1, .wo, 0x00000000, 0x00000000⟩,
   ⟨0x180, 0, 1, .ro, 0x00000000, 0x00000000⟩,
   ⟨0x200, 4, 16, .rw, 0xFFFFFFFF, 0x00000000⟩,
   ⟨0x240, 0, 1, .wo, 0x00000000, 0x00000000⟩,
   ⟨0x280, 4, 16, .ro, 0x00000000, 0x00000000⟩,
   ⟨0x2C0, 0, 1, .ro, 0x00000000, 0x00000000⟩,
   ⟨0x2C4, 0, 1, .wo, 0x00000000, 0x00000000⟩,
   ⟨0x400, 4, 30, .ro, 0x00000000, 0x00000000⟩]
/-- The own registers of PERF. -/
def rowsPerf : List RegRow :=
  [⟨0x140, 0, 1, .rw, 0x00000003, 0x00000000⟩,
   ⟨0x144, 0, 1, .wo, 0x00000000, 0x00000000⟩,
   ⟨0x148, 0, 1, .w1c, 0xFFFFFFFF, 0x00000000⟩,
   ⟨0x180, 4, 32, .rw, 0x000103FF, 0x00000000⟩,
   ⟨0x400, 4, 64, .ro, 0x00000000, 0x00000000⟩]
/-- The own registers of WEAR. -/
def rowsWear : List RegRow :=
  [⟨0x140, 0, 1, .rw, 0x0000FF01, 0x00003C01⟩,
   ⟨0x144, 0, 1, .ro, 0x00000000, 0x00000000⟩,
   ⟨0x148, 0, 1, .ro, 0x00000000, 0x00000000⟩,
   ⟨0x14C, 0, 1, .ro, 0x00000000, 0x00000000⟩,
   ⟨0x150, 0, 1, .ro, 0x00000000, 0x00000000⟩,
   ⟨0x154, 0, 1, .rw, 0xFFFFFFFF, 0x00000000⟩,
   ⟨0x158, 0, 1, .rw, 0x0000FFFF, 0x00000000⟩,
   ⟨0x400, 4, 32, .ro, 0x00000000, 0x00000000⟩,
   ⟨0x480, 4, 2, .ro, 0x00000000, 0x00000000⟩]
/-- The own registers of EVIO. -/
def rowsEvio : List RegRow :=
  [⟨0x140, 0, 1, .rws, 0x0000FFFF, 0x00000000⟩,
   ⟨0x144, 0, 1, .ro, 0x00000000, 0x00000000⟩,
   ⟨0x148, 0, 1, .rw, 0x0000FFFF, 0x00000000⟩,
   ⟨0x150, 0, 1, .rws, 0x00FFFFFF, 0x00000000⟩,
   ⟨0x154, 0, 1, .rws, 0x000000FF, 0x00000000⟩,
   ⟨0x160, 0, 1, .ro, 0x00000000, 0x00000000⟩,
   ⟨0x164, 0, 1, .ro, 0x00000000, 0x00000000⟩,
   ⟨0x168, 0, 1, .wo, 0x00000000, 0x00000000⟩,
   ⟨0x400, 4, 2, .ro, 0x00000000, 0x00000000⟩]
/-- The own registers of TIME. -/
def rowsTime : List RegRow :=
  [⟨0x140, 0, 1, .rws, 0x01FF0707, 0x00640001⟩,
   ⟨0x144, 0, 1, .rws, 0xFFFFFFFF, 0x000007D0⟩,
   ⟨0x148, 0, 1, .rws, 0x000FFFFF, 0x00000000⟩,
   ⟨0x14C, 0, 1, .rws, 0x000FFFFF, 0x00000000⟩,
   ⟨0x150, 0, 1, .ro, 0x00000000, 0x00000000⟩,
   ⟨0x154, 0, 1, .wo, 0x00000000, 0x00000000⟩,
   ⟨0x158, 0, 1, .rw, 0xFFFFFFFF, 0x00000000⟩,
   ⟨0x15C, 0, 1, .rw, 0x0000FFFF, 0x00000000⟩,
   ⟨0x160, 0, 1, .rw, 0xBFFFFFFF, 0x00000000⟩,
   ⟨0x164, 0, 1, .rw, 0xFFFFFFFF, 0x00000000⟩,
   ⟨0x168, 0, 1, .ro, 0x00000000, 0x00000000⟩,
   ⟨0x170, 0, 1, .rw, 0xFFFFFFFF, 0x00000000⟩,
   ⟨0x174, 0, 1, .rw, 0x0000FFFF, 0x000003E8⟩,
   ⟨0x178, 0, 1, .ro, 0x00000000, 0x00000000⟩,
   ⟨0x17C, 0, 1, .ro, 0x00000000, 0x00000000⟩,
   ⟨0x180, 0, 1, .ro, 0x00000000, 0x00000000⟩,
   ⟨0x184, 0, 1, .ro, 0x00000000, 0x00000200⟩,
   ⟨0x190, 0, 1, .ro, 0x00000000, 0x00000000⟩,
   ⟨0x194, 0, 1, .ro, 0x00000000, 0x00000000⟩,
   ⟨0x198, 0, 1, .ro, 0x00000000, 0x00000000⟩,
   ⟨0x19C, 0, 1, .ro, 0x00000000, 0x00000000⟩,
   ⟨0x1A0, 0, 1, .ro, 0x00000000, 0x00000000⟩,
   ⟨0x1A4, 0, 1, .ro, 0x00000000, 0x00000000⟩,
   ⟨0x1B0, 0, 1, .ro, 0x00000000, 0x00000000⟩,
   ⟨0x1B4, 0, 1, .ro, 0x00000000, 0x00000000⟩,
   ⟨0x1B8, 0, 1, .ro, 0x00000000, 0x00000000⟩,
   ⟨0x1BC, 0, 1, .ro, 0x00000000, 0x00000000⟩,
   ⟨0x400, 4, 16, .ro, 0x00000000, 0x00000000⟩]
/-- The own registers of GPTP. -/
def rowsGptp : List RegRow :=
  [⟨0x140, 0, 1, .rws, 0xFFFF7F01, 0xF8F60001⟩,
   ⟨0x144, 0, 1, .rws, 0x000FFFFF, 0x000FFFFF⟩,
   ⟨0x148, 0, 1, .rws, 0xFFFFFFFF, 0x030000FD⟩,
   ⟨0x14C, 0, 1, .rws, 0xFFFFFF01, 0xA0FEF800⟩,
   ⟨0x150, 0, 1, .rws, 0x3FFFFFFF, 0x000F4240⟩,
   ⟨0x154, 0, 1, .ro, 0x00000000, 0x00000000⟩,
   ⟨0x158, 0, 1, .ro, 0x00000000, 0x00000000⟩,
   ⟨0x15C, 0, 1, .ro, 0x00000000, 0x00000000⟩,
   ⟨0x160, 0, 1, .ro, 0x00000000, 0x00000000⟩,
   ⟨0x164, 0, 1, .ro, 0x00000000, 0x00000000⟩,
   ⟨0x168, 0, 1, .ro, 0x00000000, 0x00000000⟩,
   ⟨0x16C, 0, 1, .ro, 0x00000000, 0x00000000⟩,
   ⟨0x400, 4, 16, .ro, 0x00000000, 0x00000000⟩]
/-- The own registers of STORY. -/
def rowsStory : List RegRow :=
  [⟨0x140, 0, 1, .rws, 0x00003FFF, 0x00000032⟩,
   ⟨0x144, 0, 1, .ro, 0x00000000, 0x00000000⟩,
   ⟨0x150, 4, 4, .ro, 0x00000000, 0x00000000⟩,
   ⟨0x160, 0, 1, .wo, 0x00000000, 0x00000000⟩,
   ⟨0x164, 0, 1, .ro, 0x00000000, 0x00000000⟩,
   ⟨0x400, 4, 28, .ro, 0x00000000, 0x00000000⟩]
/-- The own registers of STORY_TBL. -/
def rowsStoryTbl : List RegRow :=
  [⟨0x140, 0, 1, .ro, 0x00000000, 0x00001000⟩,
   ⟨0x144, 0, 1, .ro, 0x00000000, 0x00000000⟩]
/-- The own registers of CINCH. -/
def rowsCinch : List RegRow :=
  [⟨0x140, 0, 1, .rws, 0x0000FF01, 0x00000A01⟩,
   ⟨0x144, 0, 1, .ro, 0x00000000, 0x00000000⟩,
   ⟨0x400, 4, 8, .ro, 0x00000000, 0x00000000⟩]
/-- The own registers of FAB. -/
def rowsFab : List RegRow :=
  [⟨0x140, 0, 1, .rws, 0x3FFFFFFF, 0x300000FF⟩,
   ⟨0x144, 0, 1, .rws, 0x000000FF, 0x000000F0⟩,
   ⟨0x148, 0, 1, .ro, 0x00000000, 0x00000001⟩,
   ⟨0x400, 4, 8, .ro, 0x00000000, 0x00000000⟩]
/-- The own registers of BUF. -/
def rowsBuf : List RegRow :=
  [⟨0x140, 0, 1, .rws, 0xFFFFFFFF, 0x66666666⟩,
   ⟨0x144, 0, 1, .ro, 0x00000000, 0x00030000⟩,
   ⟨0x148, 0, 1, .ro, 0x00000000, 0x00010000⟩,
   ⟨0x14C, 0, 1, .ro, 0x00000000, 0x0000F000⟩,
   ⟨0x400, 4, 8, .ro, 0x00000000, 0x00000000⟩]
/-- The own registers of SPILL. -/
def rowsSpill : List RegRow :=
  [⟨0x140, 0, 1, .rws, 0x00000071, 0x00000010⟩,
   ⟨0x144, 0, 1, .rws, 0x0000FFFF, 0x00000400⟩,
   ⟨0x148, 0, 1, .ro, 0x00000000, 0x00000000⟩,
   ⟨0x14C, 0, 1, .ro, 0x00000000, 0x00000000⟩,
   ⟨0x150, 0, 1, .ro, 0x00000000, 0x00000000⟩,
   ⟨0x154, 0, 1, .ro, 0x00000000, 0x00000000⟩,
   ⟨0x158, 0, 1, .w1s, 0xFFFFFFFF, 0x00000000⟩,
   ⟨0x400, 4, 12, .ro, 0x00000000, 0x00000000⟩]
/-- The own registers of RSEQ. -/
def rowsRseq : List RegRow :=
  [⟨0x140, 0, 1, .rws, 0x00003FFF, 0x000000C8⟩,
   ⟨0x144, 0, 1, .ro, 0x00000000, 0x00000000⟩,
   ⟨0x148, 0, 1, .w1s, 0xFFFFFFFF, 0x00000000⟩,
   ⟨0x400, 4, 8, .ro, 0x00000000, 0x00000000⟩]
/-- The own registers of FDB. Bit 31 of LEARN_MASK is kept for the check of R107 (DETAIL 0x05); it reads 0. -/
def rowsFdb : List RegRow :=
  [⟨0x140, 0, 1, .rws, 0x0001FFFF, 0x0001012C⟩,
   ⟨0x144, 0, 1, .rws, 0xFFFFFFFF, 0x3FFFFFFF⟩,
   ⟨0x148, 0, 1, .ro, 0x00000000, 0x00000000⟩,
   ⟨0x14C, 0, 1, .wo, 0x00000000, 0x00000000⟩,
   ⟨0x150, 0, 1, .ro, 0x00000000, 0x00000000⟩,
   ⟨0x400, 4, 16, .ro, 0x00000000, 0x00000000⟩]
/-- The own registers of FRER. -/
def rowsFrer : List RegRow :=
  [⟨0x140, 0, 1, .wo, 0x00000000, 0x00000000⟩,
   ⟨0x144, 0, 1, .ro, 0x00000000, 0x00000000⟩,
   ⟨0x148, 0, 1, .w1s, 0xFFFFFFFF, 0x00000000⟩,
   ⟨0x14C, 0, 1, .ro, 0x00000000, 0x00000000⟩,
   ⟨0x400, 4, 18, .ro, 0x00000000, 0x00000000⟩]
/-- The own registers of BRIDLE. -/
def rowsBridle : List RegRow :=
  [⟨0x140, 0, 1, .rws, 0xFFFFFFFF, 0x04E202EE⟩,
   ⟨0x144, 0, 1, .rws, 0xFF03FFFF, 0xFA00041A⟩,
   ⟨0x148, 4, 4, .rws, 0x0003071F, 0x00000000⟩,
   ⟨0x158, 4, 4, .rws, 0xFFFFFFFF, 0x00000000⟩,
   ⟨0x168, 0, 1, .ro, 0x00000000, 0x00000000⟩,
   ⟨0x16C, 0, 1, .w1s, 0xFFFFFFFF, 0x00000000⟩,
   ⟨0x400, 4, 24, .ro, 0x00000000, 0x00000000⟩]
/-- The own registers of UNITS. -/
def rowsUnits : List RegRow :=
  [⟨0x140, 0, 1, .wo, 0x00000000, 0x00000000⟩,
   ⟨0x144, 0, 1, .ro, 0x00000000, 0x00000000⟩,
   ⟨0x148, 0, 1, .ro, 0x00000000, 0x00000000⟩,
   ⟨0x400, 4, 12, .ro, 0x00000000, 0x00000000⟩]
/-- The own registers of MACSEC. -/
def rowsMacsec : List RegRow :=
  [⟨0x140, 4, 4, .rws, 0x0001FFFF, 0x00000000⟩,
   ⟨0x150, 0, 1, .rws, 0xFFFFFFFF, 0x00010000⟩,
   ⟨0x154, 0, 1, .wo, 0x00000000, 0x00000000⟩,
   ⟨0x158, 0, 1, .ro, 0x00000000, 0x00000000⟩,
   ⟨0x160, 4, 10, .wo, 0x00000000, 0x00000000⟩]
/-- The own registers of PORT. -/
def rowsPort : List RegRow :=
  [⟨0x140, 0, 1, .ro, 0x00000000, 0x00000000⟩,
   ⟨0x144, 0, 1, .rws, 0x00033FFF, 0x00030800⟩,
   ⟨0x148, 0, 1, .rws, 0x00000717, 0x00000100⟩,
   ⟨0x14C, 0, 1, .wo, 0x00000000, 0x00000000⟩,
   ⟨0x150, 0, 1, .ro, 0x00000000, 0x00000000⟩,
   ⟨0x154, 0, 1, .rws, 0x0000FF07, 0x00000A01⟩,
   ⟨0x158, 0, 1, .rws, 0x0FFFFFFF, 0x00000000⟩,
   ⟨0x15C, 0, 1, .rws, 0x07FF07FF, 0x030A0000⟩,
   ⟨0x160, 0, 1, .ro, 0x00000000, 0x00000000⟩,
   ⟨0x164, 0, 1, .rws, 0x1FFF1FF1, 0x00200801⟩,
   ⟨0x168, 0, 1, .ro, 0x00000000, 0x00000000⟩,
   ⟨0x170, 0, 1, .rws, 0x000FFFFF, 0x00000000⟩,
   ⟨0x174, 0, 1, .rws, 0x000FFFFF, 0x00000000⟩,
   ⟨0x400, 4, 192, .ro, 0x00000000, 0x00000000⟩]
/-- The own registers of PHY. -/
def rowsPhy : List RegRow :=
  [⟨0x140, 0, 1, .ro, 0x00000000, 0x00000000⟩,
   ⟨0x144, 0, 1, .ro, 0x00000000, 0x00000000⟩,
   ⟨0x148, 0, 1, .ro, 0x00000000, 0x00000000⟩,
   ⟨0x14C, 0, 1, .ro, 0x00000000, 0x00000000⟩,
   ⟨0x150, 0, 1, .wo, 0x00000000, 0x00000000⟩,
   ⟨0x154, 0, 1, .ro, 0x00000000, 0x00000000⟩,
   ⟨0x158, 0, 1, .ro, 0x00000000, 0x00000000⟩,
   ⟨0x15C, 0, 1, .rw, 0x0000000F, 0x00000000⟩,
   ⟨0x180, 8, 4, .rws, 0x003FFFFF, 0x00000000⟩,
   ⟨0x184, 8, 4, .rws, 0x003FFFFF, 0x00000000⟩]
/-- The own registers of GW. -/
def rowsGw : List RegRow :=
  [⟨0x140, 0, 1, .rws, 0xFFFFFFFF, 0x00000000⟩,
   ⟨0x144, 0, 1, .rws, 0x0000FFFF, 0x00000000⟩,
   ⟨0x148, 0, 1, .ro, 0x00000000, 0x00000000⟩,
   ⟨0x14C, 0, 1, .w1s, 0xFFFFFFFF, 0x00000000⟩,
   ⟨0x150, 0, 1, .ro, 0x00000000, 0x00000001⟩,
   ⟨0x400, 4, 24, .ro, 0x00000000, 0x00000000⟩]
/-- The own registers of CAN. -/
def rowsCan : List RegRow :=
  [⟨0x140, 0, 1, .rws, 0xFFFFFF1F, 0x00000008⟩,
   ⟨0x144, 0, 1, .rws, 0x7FFFFFFF, 0x2040FE04⟩,
   ⟨0x148, 0, 1, .rws, 0x7FFFFFFF, 0x14287601⟩,
   ⟨0x14C, 0, 1, .rws, 0x7FFFFFFF, 0x04081601⟩,
   ⟨0x150, 0, 1, .rws, 0x7FFFFFFF, 0x1A34CA02⟩,
   ⟨0x154, 0, 1, .rws, 0x7FFFFFFF, 0x08102E01⟩,
   ⟨0x158, 0, 1, .rws, 0x0000FF01, 0x00000001⟩,
   ⟨0x15C, 0, 1, .rws, 0x0000007F, 0x0000001B⟩,
   ⟨0x160, 0, 1, .ro, 0x00000000, 0x00000000⟩,
   ⟨0x164, 0, 1, .wo, 0x00000000, 0x00000000⟩,
   ⟨0x168, 0, 1, .ro, 0x00000000, 0x00000000⟩,
   ⟨0x400, 4, 40, .ro, 0x00000000, 0x00000000⟩]
/-- The own registers of LIN. -/
def rowsLin : List RegRow :=
  [⟨0x140, 0, 1, .rws, 0xFFFF1F07, 0x4B000D01⟩,
   ⟨0x144, 0, 1, .rws, 0x0000013F, 0x00000000⟩,
   ⟨0x148, 0, 1, .ro, 0x00000000, 0x00000000⟩,
   ⟨0x14C, 0, 1, .wo, 0x00000000, 0x00000000⟩,
   ⟨0x150, 0, 1, .ro, 0x00000000, 0x00000000⟩,
   ⟨0x400, 4, 34, .ro, 0x00000000, 0x00000000⟩]
/-- The own registers of UART. -/
def rowsUart : List RegRow :=
  [⟨0x140, 0, 1, .rws, 0x1F3FFFFF, 0x0101C200⟩,
   ⟨0x144, 0, 1, .rws, 0x01FFFF03, 0x00002300⟩,
   ⟨0x148, 0, 1, .rws, 0x00001FF3, 0x00000000⟩,
   ⟨0x14C, 0, 1, .rws, 0x0001FFFF, 0x00000000⟩,
   ⟨0x150, 0, 1, .rws, 0xFFFFFF03, 0x00080802⟩,
   ⟨0x154, 0, 1, .ro, 0x00000000, 0x00000000⟩,
   ⟨0x400, 4, 26, .ro, 0x00000000, 0x00000000⟩]
/-- The own registers of PULSE. -/
def rowsPulse : List RegRow :=
  [⟨0x140, 32, 4, .rws, 0xFFFFFF03, 0x01F40A00⟩,
   ⟨0x144, 32, 4, .ro, 0x00000000, 0x00000000⟩,
   ⟨0x148, 32, 4, .ro, 0x00000000, 0x00000000⟩,
   ⟨0x14C, 32, 4, .ro, 0x00000000, 0x00000000⟩,
   ⟨0x150, 32, 4, .ro, 0x00000000, 0x00000000⟩,
   ⟨0x154, 32, 4, .ro, 0x00000000, 0x00000000⟩,
   ⟨0x158, 32, 4, .rw, 0xFFFFFFFF, 0x00000000⟩,
   ⟨0x15C, 32, 4, .rw, 0x0000FFFF, 0x00000000⟩,
   ⟨0x1C0, 0, 1, .wo, 0x00000000, 0x00000000⟩,
   ⟨0x400, 4, 8, .ro, 0x00000000, 0x00000000⟩]
/-- The own registers of HOST. -/
def rowsHost : List RegRow :=
  [⟨0x140, 0, 1, .ro, 0x00000000, 0x00000000⟩,
   ⟨0x144, 0, 1, .rw, 0x0001FFFF, 0x000103E8⟩,
   ⟨0x148, 0, 1, .ro, 0x00000000, 0x00000000⟩,
   ⟨0x14C, 0, 1, .ro, 0x00000000, 0x00000000⟩,
   ⟨0x150, 0, 1, .ro, 0x00000000, 0x00000000⟩,
   ⟨0x154, 0, 1, .ro, 0x00000000, 0x00000000⟩,
   ⟨0x160, 4, 4, .ro, 0x00000000, 0x00000000⟩,
   ⟨0x170, 0, 1, .wo, 0x00000000, 0x00000000⟩,
   ⟨0x174, 0, 1, .ro, 0x00000000, 0x00000000⟩,
   ⟨0x300, 4, 12, .ro, 0x00000000, 0x00000000⟩,
   ⟨0x380, 0, 1, .ro, 0x00000000, 0x00000000⟩,
   ⟨0x384, 0, 1, .ro, 0x00000000, 0x00000000⟩,
   ⟨0x400, 4, 256, .rw, 0xFFFFFFFF, 0x00000000⟩]
/-- The own registers of DMA. -/
def rowsDma : List RegRow :=
  [⟨0x140, 0, 1, .rws, 0xFFFFFFFF, 0x76543210⟩,
   ⟨0x144, 0, 1, .ro, 0x00000000, 0x00000000⟩,
   ⟨0x148, 0, 1, .ro, 0x00000000, 0x00000000⟩,
   ⟨0x200, 32, 32, .rws, 0xFFFFF000, 0x00000000⟩,
   ⟨0x204, 32, 32, .rws, 0x0000FFFF, 0x00000000⟩,
   ⟨0x208, 32, 32, .rws, 0x0FFF1FFF, 0x00000000⟩,
   ⟨0x20C, 32, 32, .rws, 0xFFFFFFFF, 0x10401032⟩,
   ⟨0x210, 32, 32, .ro, 0x00000000, 0x00000000⟩,
   ⟨0x214, 32, 32, .rw, 0x00001FFF, 0x00000000⟩,
   ⟨0x218, 32, 32, .ro, 0x00000000, 0x00000000⟩,
   ⟨0x21C, 32, 32, .wo, 0x00000000, 0x00000000⟩,
   ⟨0x600, 4, 22, .ro, 0x00000000, 0x00000000⟩]
/-- The own registers of DXLT. -/
def rowsDxlt : List RegRow :=
  [⟨0x140, 16, 4, .rws, 0xFFE00000, 0x00000000⟩,
   ⟨0x144, 16, 4, .rws, 0x0000FFFF, 0x00000000⟩,
   ⟨0x148, 16, 4, .rws, 0x000101FF, 0x00000000⟩,
   ⟨0x180, 0, 1, .wo, 0x00000000, 0x00000000⟩,
   ⟨0x184, 0, 1, .rw, 0xFFFFF000, 0x00000000⟩,
   ⟨0x188, 0, 1, .rw, 0x0000FFFF, 0x00000000⟩,
   ⟨0x18C, 0, 1, .rw, 0x0007FFFF, 0x00000000⟩,
   ⟨0x190, 0, 1, .ro, 0x00000000, 0x00000000⟩,
   ⟨0x1A0, 0, 1, .ro, 0x00000000, 0x00000000⟩,
   ⟨0x1A4, 0, 1, .ro, 0x00000000, 0x00000000⟩,
   ⟨0x1A8, 0, 1, .ro, 0x00000000, 0x00000000⟩,
   ⟨0x1AC, 0, 1, .ro, 0x00000000, 0x00000000⟩,
   ⟨0x1B0, 0, 1, .wo, 0x00000000, 0x00000000⟩,
   ⟨0x1B4, 0, 1, .ro, 0x00000000, 0x00000000⟩,
   ⟨0x400, 4, 12, .ro, 0x00000000, 0x00000000⟩]
/-- The own registers of QSPIS. -/
def rowsQspis : List RegRow :=
  [⟨0x140, 0, 1, .rws, 0x0000030F, 0x00000108⟩,
   ⟨0x144, 0, 1, .ro, 0x00000000, 0x00000000⟩,
   ⟨0x400, 4, 12, .ro, 0x00000000, 0x00000000⟩]
/-- The own registers of TENON. -/
def rowsTenon : List RegRow :=
  [⟨0x140, 0, 1, .rws, 0x000001FF, 0x00000058⟩,
   ⟨0x144, 0, 1, .rws, 0x0000FFFF, 0x00000000⟩,
   ⟨0x148, 0, 1, .ro, 0x00000000, 0x00000000⟩,
   ⟨0x14C, 0, 1, .ro, 0x00000000, 0x00000000⟩,
   ⟨0x150, 0, 1, .wo, 0x00000000, 0x00000000⟩,
   ⟨0x154, 0, 1, .ro, 0x00000000, 0x00000000⟩,
   ⟨0x400, 4, 16, .ro, 0x00000000, 0x00000000⟩]
/-- The own registers of TRING. -/
def rowsTring : List RegRow :=
  [⟨0x140, 0, 1, .rws, 0x00000307, 0x00000001⟩,
   ⟨0x144, 0, 1, .rws, 0x000103FF, 0x00000000⟩,
   ⟨0x148, 0, 1, .rws, 0x0003FFFF, 0x000088B5⟩,
   ⟨0x14C, 0, 1, .rws, 0x3FFFFFFF, 0x00000000⟩,
   ⟨0x150, 0, 1, .ro, 0x00000000, 0x00000001⟩,
   ⟨0x154, 0, 1, .ro, 0x00000000, 0x00000000⟩,
   ⟨0x400, 4, 16, .ro, 0x00000000, 0x00000000⟩]
/-- The own registers of a page, by its kind. -/
def ownRows : PageKind → List RegRow
  | .sys => rowsSys
  | .clk => rowsClk
  | .pwr => rowsPwr
  | .rst => rowsRst
  | .aon => rowsAon
  | .xmem => rowsXmem
  | .boot => rowsBoot
  | .upd => rowsUpd
  | .prisil => rowsPrisil
  | .trestle => rowsTrestle
  | .perf => rowsPerf
  | .wear => rowsWear
  | .evio => rowsEvio
  | .time => rowsTime
  | .gptp => rowsGptp
  | .story => rowsStory
  | .storyTbl => rowsStoryTbl
  | .cinch => rowsCinch
  | .fab => rowsFab
  | .buf => rowsBuf
  | .spill => rowsSpill
  | .rseq => rowsRseq
  | .fdb => rowsFdb
  | .frer => rowsFrer
  | .bridle => rowsBridle
  | .units => rowsUnits
  | .macsec => rowsMacsec
  | .port => rowsPort
  | .phy => rowsPhy
  | .gw => rowsGw
  | .can => rowsCan
  | .lin => rowsLin
  | .uart => rowsUart
  | .pulse => rowsPulse
  | .host => rowsHost
  | .dma => rowsDma
  | .dxlt => rowsDxlt
  | .qspis => rowsQspis
  | .tenon => rowsTenon
  | .tring => rowsTring

namespace F

/-! Fields of HDR. -/
abbrev BLOCK_ID_TYPE : Fld := ⟨0x000, 16, 16, false⟩
abbrev BLOCK_ID_INSTANCE : Fld := ⟨0x000, 8, 8, false⟩
abbrev BLOCK_VER_MAJOR : Fld := ⟨0x004, 8, 8, false⟩
abbrev BLOCK_VER_MINOR : Fld := ⟨0x004, 0, 8, false⟩
abbrev CAPS_HAS_STAGED : Fld := ⟨0x008, 31, 1, false⟩
abbrev CAPS_HAS_TABLE : Fld := ⟨0x008, 30, 1, false⟩
abbrev CAPS_HAS_SNAPSHOT : Fld := ⟨0x008, 29, 1, false⟩
abbrev CAPS_HAS_LOG : Fld := ⟨0x008, 28, 1, false⟩
abbrev CAPS_BLOCK : Fld := ⟨0x008, 0, 28, false⟩
abbrev CTRL_EN : Fld := ⟨0x010, 0, 1, false⟩
abbrev CTRL_SOFT_RST : Fld := ⟨0x010, 1, 1, false⟩
abbrev STATUS_READY : Fld := ⟨0x014, 0, 1, false⟩
abbrev STATUS_ERR : Fld := ⟨0x014, 1, 1, false⟩
abbrev STATUS_LOCKED : Fld := ⟨0x014, 2, 1, false⟩
abbrev STATUS_COMMIT_BUSY : Fld := ⟨0x014, 3, 1, false⟩
abbrev STATUS_SNAP_BUSY : Fld := ⟨0x014, 4, 1, false⟩
abbrev STATUS_TBL_BUSY : Fld := ⟨0x014, 5, 1, false⟩
abbrev STATUS_BLOCK : Fld := ⟨0x014, 16, 16, false⟩
abbrev EVT_RAW_COMMIT_DONE : Fld := ⟨0x018, 0, 1, false⟩
abbrev EVT_RAW_COMMIT_REJECT : Fld := ⟨0x018, 1, 1, false⟩
abbrev EVT_RAW_ACCESS_ERR : Fld := ⟨0x018, 2, 1, false⟩
abbrev EVT_RAW_TBL_DONE : Fld := ⟨0x018, 3, 1, false⟩
abbrev EVT_RAW_SNAP_DONE : Fld := ⟨0x018, 4, 1, false⟩
abbrev EVT_ROUTE_VECTOR : Fld := ⟨0x024, 0, 6, false⟩
abbrev EVT_ROUTE_TO_HOST : Fld := ⟨0x024, 8, 1, false⟩
abbrev EVT_ROUTE_TO_FW : Fld := ⟨0x024, 9, 1, false⟩
abbrev COMMIT_ACTION : Fld := ⟨0x028, 0, 2, false⟩
abbrev COMMIT_HANDLE : Fld := ⟨0x028, 16, 12, false⟩
abbrev COMMIT_STATUS_PENDING_GEN : Fld := ⟨0x02C, 0, 8, false⟩
abbrev COMMIT_STATUS_APPLIED_GEN : Fld := ⟨0x02C, 8, 8, false⟩
abbrev COMMIT_STATUS_STATE : Fld := ⟨0x02C, 16, 3, false⟩
abbrev COMMIT_STATUS_LATE : Fld := ⟨0x02C, 19, 1, false⟩
abbrev COMMIT_STATUS_REASON : Fld := ⟨0x02C, 20, 4, false⟩
abbrev COMMIT_STATUS_DETAIL : Fld := ⟨0x02C, 24, 8, false⟩
abbrev LOCK_LOCK : Fld := ⟨0x030, 0, 1, false⟩
abbrev ERR_CAUSE_CODE : Fld := ⟨0x034, 0, 4, false⟩
abbrev ERR_CAUSE_REQUESTER : Fld := ⟨0x034, 8, 4, false⟩
abbrev ERR_CAUSE_OVERFLOW : Fld := ⟨0x034, 16, 1, false⟩
abbrev ERR_ADDR_OFFSET : Fld := ⟨0x038, 0, 24, false⟩

/-! Fields of WIN. -/
abbrev TBL_ADDR_INDEX : Fld := ⟨0x100, 0, 20, false⟩
abbrev TBL_ADDR_TABLE : Fld := ⟨0x100, 20, 4, false⟩
abbrev TBL_ADDR_PART : Fld := ⟨0x100, 24, 4, false⟩
abbrev TBL_CMD_OP : Fld := ⟨0x124, 0, 4, false⟩
abbrev TBL_CMD_TAG : Fld := ⟨0x124, 8, 8, false⟩
abbrev TBL_STATUS_BUSY : Fld := ⟨0x128, 0, 1, false⟩
abbrev TBL_STATUS_SYNC : Fld := ⟨0x128, 1, 1, false⟩
abbrev TBL_STATUS_RESULT : Fld := ⟨0x128, 4, 4, false⟩
abbrev TBL_STATUS_TAG : Fld := ⟨0x128, 8, 8, false⟩

/-! Fields of SNAP. -/

/-! Fields of SYS. -/
abbrev SYS_STRAPS_BOOT_MODE : Fld := ⟨0x144, 0, 2, false⟩
abbrev SYS_STRAPS_RING_ID : Fld := ⟨0x144, 4, 2, false⟩
abbrev SYS_NMI_VECTOR_V : Fld := ⟨0x160, 0, 6, false⟩
abbrev SYS_GRP_CMD_ACTION : Fld := ⟨0x180, 0, 2, false⟩
abbrev SYS_GRP_CMD_HANDLE : Fld := ⟨0x180, 16, 12, false⟩
abbrev SYS_GRP_STATUS_GEN : Fld := ⟨0x184, 0, 8, false⟩
abbrev SYS_GRP_STATUS_STATE : Fld := ⟨0x184, 8, 3, false⟩
abbrev SYS_GRP_STATUS_REASON : Fld := ⟨0x184, 12, 4, false⟩
abbrev SYS_GRP_STATUS_FAIL_PAGE : Fld := ⟨0x184, 16, 7, false⟩
abbrev SYS_GRP_STATUS_FAIL_VALID : Fld := ⟨0x184, 23, 1, false⟩
abbrev SYS_SAFE_TMO_US : Fld := ⟨0x188, 0, 16, false⟩

/-! Fields of CLK. -/
abbrev CLK_XTAL_CFG_XSD : Fld := ⟨0x140, 0, 4, false⟩
abbrev CLK_XTAL_CFG_SENTRY_XTAL : Fld := ⟨0x140, 8, 1, false⟩
abbrev CLK_XTAL_CFG_XTAL32_EN : Fld := ⟨0x140, 9, 1, false⟩
abbrev CLK_XTAL_CFG_XIN_MODE : Fld := ⟨0x140, 10, 1, false⟩
abbrev CLK_XTAL_STATUS_RUNNING : Fld := ⟨0x144, 0, 1, false⟩
abbrev CLK_XTAL_STATUS_AMP_OK : Fld := ⟨0x144, 1, 1, false⟩
abbrev CLK_XTAL_STATUS_COUNT_OK : Fld := ⟨0x144, 2, 1, false⟩
abbrev CLK_XTAL_STATUS_FAILED : Fld := ⟨0x144, 3, 1, false⟩
abbrev CLK_HFRC_CFG_TRIM_AUTO : Fld := ⟨0x148, 0, 1, false⟩
abbrev CLK_HFRC_CFG_T1S_REF_EN : Fld := ⟨0x148, 1, 1, false⟩
abbrev CLK_HFRC_CFG_LIN_REF_EN : Fld := ⟨0x148, 2, 1, false⟩
abbrev CLK_HFRC_CFG_TRIM_MANUAL : Fld := ⟨0x148, 16, 10, false⟩
abbrev CLK_HFRC_STATUS_TRIM : Fld := ⟨0x14C, 0, 10, false⟩
abbrev CLK_HFRC_STATUS_TRIMMED : Fld := ⟨0x14C, 12, 1, false⟩
abbrev CLK_HFRC_STATUS_FAILED : Fld := ⟨0x14C, 13, 1, false⟩
abbrev CLK_HFRC_STATUS_REF : Fld := ⟨0x14C, 14, 2, false⟩
abbrev CLK_HFRC_STATUS_TRIM_TEMP : Fld := ⟨0x14C, 16, 8, false⟩
abbrev CLK_PLL_STATUS_LOCKED : Fld := ⟨0x150, 0, 8, false⟩
abbrev CLK_PLL_STATUS_FREQ_OK : Fld := ⟨0x150, 8, 8, false⟩
abbrev CLK_PLL_STATUS_POWERED : Fld := ⟨0x150, 16, 8, false⟩
abbrev CLK_CLK_SEL_SCLK_HFRC : Fld := ⟨0x154, 0, 1, false⟩
abbrev CLK_CLK_SEL_TCLK_HFRC : Fld := ⟨0x154, 1, 1, false⟩
abbrev CLK_CLK_SEL_HCLK_HFRC : Fld := ⟨0x154, 2, 1, false⟩
abbrev CLK_CLK_SEL_GCLK_HFRC : Fld := ⟨0x154, 3, 1, false⟩
abbrev CLK_CLK_SEL_GCLK_WAIT : Fld := ⟨0x154, 4, 1, false⟩
abbrev CLK_GCLK_SW_TMO_US : Fld := ⟨0x158, 0, 16, false⟩

/-! Fields of PWR. -/
abbrev PWR_PWR_POLICY_SENTRY_IDLE_S : Fld := ⟨0x140, 0, 16, true⟩
abbrev PWR_PWR_POLICY_ENTRY_TMO : Fld := ⟨0x140, 16, 8, true⟩
abbrev PWR_PWR_POLICY_PF_DORMANT : Fld := ⟨0x140, 24, 1, true⟩
abbrev PWR_THERM_CFG_THERM_LIMP : Fld := ⟨0x144, 0, 8, true⟩
abbrev PWR_MODE_CMD_TARGET : Fld := ⟨0x148, 0, 3, false⟩
abbrev PWR_MODE_CMD_KEY : Fld := ⟨0x148, 16, 16, false⟩
abbrev PWR_MODE_STATUS_MODE : Fld := ⟨0x14C, 0, 3, false⟩
abbrev PWR_MODE_STATUS_PREV : Fld := ⟨0x14C, 4, 3, false⟩
abbrev PWR_MODE_STATUS_BUSY : Fld := ⟨0x14C, 8, 1, false⟩
abbrev PWR_MODE_STATUS_RESULT : Fld := ⟨0x14C, 12, 4, false⟩
abbrev PWR_MODE_STATUS_SEQ : Fld := ⟨0x14C, 16, 16, false⟩
abbrev PWR_LIMP_CAUSE_ALL : Fld := ⟨0x150, 0, 32, false⟩
abbrev PWR_Q_CAUSE_CODE : Fld := ⟨0x154, 0, 8, false⟩
abbrev PWR_Q_CAUSE_CMD : Fld := ⟨0x154, 8, 1, false⟩
abbrev PWR_DIE_TEMP_C : Fld := ⟨0x158, 0, 8, false⟩

/-! Fields of RST. -/
abbrev RST_RST_CAUSE_POR : Fld := ⟨0x140, 0, 1, false⟩
abbrev RST_RST_CAUSE_PIN : Fld := ⟨0x140, 1, 1, false⟩
abbrev RST_RST_CAUSE_CORE_BOR : Fld := ⟨0x140, 2, 1, false⟩
abbrev RST_RST_CAUSE_SW : Fld := ⟨0x140, 3, 1, false⟩
abbrev RST_RST_CAUSE_WDT : Fld := ⟨0x140, 4, 1, false⟩
abbrev RST_RST_CAUSE_CLOCK : Fld := ⟨0x140, 5, 1, false⟩
abbrev RST_RST_CAUSE_RESETS : Fld := ⟨0x140, 16, 16, false⟩
abbrev RST_DEV_RST_KEY : Fld := ⟨0x144, 0, 16, false⟩
abbrev RST_DOM_RST_TRESTLE : Fld := ⟨0x148, 0, 1, false⟩
abbrev RST_DOM_RST_LEGACY : Fld := ⟨0x148, 1, 1, false⟩
abbrev RST_DOM_RST_PCIE : Fld := ⟨0x148, 2, 1, false⟩
abbrev RST_DOM_RST_FABRIC : Fld := ⟨0x148, 3, 1, false⟩
abbrev RST_WDT_CFG_EN : Fld := ⟨0x150, 0, 1, false⟩
abbrev RST_WDT_CFG_TIMEOUT : Fld := ⟨0x150, 16, 16, false⟩
abbrev RST_WDT_STATUS_MS : Fld := ⟨0x158, 0, 16, false⟩
abbrev RST_WDT_STATUS_NEXT : Fld := ⟨0x158, 16, 1, false⟩
abbrev RST_XING_STATUS_PAGE : Fld := ⟨0x160, 0, 7, false⟩
abbrev RST_XING_STATUS_FLUSHES : Fld := ⟨0x160, 8, 8, false⟩

/-! Fields of AON. -/
abbrev AON_WAKE_PIN_CFG_EN : Fld := ⟨0x140, 0, 8, false⟩
abbrev AON_WAKE_PIN_CFG_ACTIVE_HIGH : Fld := ⟨0x140, 8, 8, false⟩
abbrev AON_WAKE_PIN_CFG_LEVEL : Fld := ⟨0x140, 16, 8, false⟩
abbrev AON_WAKE_PIN_CFG_FILTER : Fld := ⟨0x140, 24, 3, false⟩
abbrev AON_WAKE_TARGET_SRC : Fld := ⟨0x144, 0, 22, false⟩
abbrev AON_TC10_WAKE_PORT0 : Fld := ⟨0x148, 0, 6, false⟩
abbrev AON_TC10_WAKE_PORT1 : Fld := ⟨0x148, 8, 6, false⟩
abbrev AON_TC10_WAKE_PORT2 : Fld := ⟨0x148, 16, 6, false⟩
abbrev AON_TC10_WAKE_PORT3 : Fld := ⟨0x148, 24, 6, false⟩
abbrev AON_TC10_WAKE_EN0 : Fld := ⟨0x148, 6, 1, false⟩
abbrev AON_TC10_WAKE_EN1 : Fld := ⟨0x148, 14, 1, false⟩
abbrev AON_TC10_WAKE_EN2 : Fld := ⟨0x148, 22, 1, false⟩
abbrev AON_TC10_WAKE_EN3 : Fld := ⟨0x148, 30, 1, false⟩
abbrev AON_WAKE_CAUSE_SRC : Fld := ⟨0x14C, 0, 11, false⟩
abbrev AON_WAKE_CAUSE_FILTER : Fld := ⟨0x14C, 11, 1, false⟩
abbrev AON_WAKE_CAUSE_FAIL : Fld := ⟨0x14C, 12, 1, false⟩
abbrev AON_WAKE_CAUSE_WAKES : Fld := ⟨0x14C, 16, 16, false⟩
abbrev AON_WAKE_PEND_S : Fld := ⟨0x150, 0, 11, false⟩
abbrev AON_RTC_SET_HI_V : Fld := ⟨0x158, 0, 16, false⟩
abbrev AON_RTC_CAP_HI_V : Fld := ⟨0x164, 0, 16, false⟩
abbrev AON_RTC_CAP_FRAC_FRAC : Fld := ⟨0x168, 0, 15, false⟩
abbrev AON_RTC_CAP_FRAC_SEQ : Fld := ⟨0x168, 16, 16, false⟩
abbrev AON_RTC_ALARM_HI_V : Fld := ⟨0x170, 0, 16, false⟩
abbrev AON_RTC_ALARM_HI_ALARM_EN : Fld := ⟨0x170, 31, 1, false⟩
abbrev AON_WARM_STATUS_B : Fld := ⟨0x174, 0, 6, false⟩
abbrev AON_WARM_STATUS_G : Fld := ⟨0x174, 6, 12, false⟩

/-! Fields of XMEM. -/
abbrev XMEM_XSPI_STATUS_READY : Fld := ⟨0x140, 0, 1, false⟩
abbrev XMEM_XSPI_STATUS_OCTAL : Fld := ⟨0x140, 1, 1, false⟩
abbrev XMEM_XSPI_STATUS_CAP : Fld := ⟨0x140, 8, 4, false⟩
abbrev XMEM_XSPI_STATUS_PF_BLOCK : Fld := ⟨0x140, 16, 1, false⟩
abbrev XMEM_FL_ADDR_A : Fld := ⟨0x144, 0, 30, false⟩
abbrev XMEM_FL_LEN_N : Fld := ⟨0x148, 0, 9, false⟩
abbrev XMEM_FL_CMD_CMD : Fld := ⟨0x14C, 0, 3, false⟩
abbrev XMEM_FL_CMD_START : Fld := ⟨0x14C, 31, 1, false⟩
abbrev XMEM_FL_STATUS_BUSY : Fld := ⟨0x150, 0, 1, false⟩
abbrev XMEM_FL_STATUS_RESULT : Fld := ⟨0x150, 4, 4, false⟩
abbrev XMEM_FL_STATUS_SEQ : Fld := ⟨0x150, 16, 16, false⟩

/-! Fields of BOOT. -/
abbrev BOOT_FW_SECVER_SEC_VER : Fld := ⟨0x14C, 0, 8, false⟩
abbrev BOOT_FW_SECVER_COUNT : Fld := ⟨0x14C, 8, 8, false⟩
abbrev BOOT_MEAS_SEL_V : Fld := ⟨0x150, 0, 2, false⟩
abbrev BOOT_OTP_ADDR_A : Fld := ⟨0x1C0, 0, 8, false⟩
abbrev BOOT_OTP_CMD_CMD : Fld := ⟨0x1C8, 0, 2, false⟩
abbrev BOOT_OTP_CMD_KEY : Fld := ⟨0x1C8, 16, 16, false⟩
abbrev BOOT_OTP_STATUS_BUSY : Fld := ⟨0x1CC, 0, 1, false⟩
abbrev BOOT_OTP_STATUS_RESULT : Fld := ⟨0x1CC, 4, 4, false⟩
abbrev BOOT_OTP_STATUS_SEQ : Fld := ⟨0x1CC, 16, 16, false⟩

/-! Fields of UPD. -/
abbrev UPD_UPD_CFG_AUTO_CONFIRM_S : Fld := ⟨0x140, 0, 16, true⟩
abbrev UPD_UPD_CFG_REMOTE_EN : Fld := ⟨0x140, 16, 1, true⟩
abbrev UPD_UPD_CMD_CMD : Fld := ⟨0x144, 0, 4, false⟩
abbrev UPD_UPD_CMD_TARGET : Fld := ⟨0x144, 4, 2, false⟩
abbrev UPD_UPD_CMD_KEY : Fld := ⟨0x144, 16, 16, false⟩
abbrev UPD_UPD_CMD_STATUS_BUSY : Fld := ⟨0x148, 0, 1, false⟩
abbrev UPD_UPD_CMD_STATUS_RESULT : Fld := ⟨0x148, 4, 4, false⟩
abbrev UPD_UPD_CMD_STATUS_SEQ : Fld := ⟨0x148, 16, 16, false⟩
abbrev UPD_UPD_STATUS_STAGE : Fld := ⟨0x14C, 0, 3, false⟩
abbrev UPD_UPD_STATUS_TRIAL : Fld := ⟨0x14C, 3, 1, false⟩
abbrev UPD_UPD_STATUS_TRIAL_LEFT : Fld := ⟨0x14C, 4, 4, false⟩
abbrev UPD_UPD_STATUS_ACTIVE_SLOT : Fld := ⟨0x14C, 8, 1, false⟩
abbrev UPD_UPD_STATUS_RUN_SLOT : Fld := ⟨0x14C, 9, 1, false⟩
abbrev UPD_UPD_STATUS_BURN_PENDING : Fld := ⟨0x14C, 10, 1, false⟩
abbrev UPD_UPD_STATUS_LAST_BOOT : Fld := ⟨0x14C, 12, 3, false⟩
abbrev UPD_UPD_STATUS_THERM_COUNT : Fld := ⟨0x14C, 16, 9, false⟩
abbrev UPD_STAGED_INFO_KIND : Fld := ⟨0x150, 0, 2, false⟩
abbrev UPD_STAGED_INFO_REASON : Fld := ⟨0x150, 4, 4, false⟩
abbrev UPD_STAGED_INFO_SEC_VER : Fld := ⟨0x150, 8, 8, false⟩
abbrev UPD_STAGED_INFO_ARM_TARGET : Fld := ⟨0x150, 16, 2, false⟩
abbrev UPD_ACT_RESULT_RESULT : Fld := ⟨0x158, 0, 4, false⟩
abbrev UPD_ACT_RESULT_METHOD : Fld := ⟨0x158, 4, 2, false⟩
abbrev UPD_ACT_RESULT_SEQ : Fld := ⟨0x158, 16, 16, false⟩

/-! Fields of PRISIL. -/
abbrev PRISIL_STATUS_P_ROOT : Fld := ⟨0x140, 0, 2, false⟩
abbrev PRISIL_STATUS_P_HELPER_COPY : Fld := ⟨0x140, 2, 1, false⟩
abbrev PRISIL_STATUS_P_ENROLLED : Fld := ⟨0x140, 3, 1, false⟩
abbrev PRISIL_STATUS_P_BRANCH_FW : Fld := ⟨0x140, 4, 1, false⟩
abbrev PRISIL_STATUS_P_SUCC_DECLARED : Fld := ⟨0x140, 5, 1, false⟩
abbrev PRISIL_STATUS_P_WITHHELD : Fld := ⟨0x140, 6, 1, false⟩
abbrev PRISIL_STATUS_P_FLIP : Fld := ⟨0x140, 8, 8, false⟩
abbrev PRISIL_SLOT_SEL_V : Fld := ⟨0x144, 0, 6, false⟩
abbrev PRISIL_SLOT_INFO_STATE : Fld := ⟨0x148, 0, 2, false⟩
abbrev PRISIL_SLOT_INFO_PROT : Fld := ⟨0x148, 2, 1, false⟩
abbrev PRISIL_SLOT_INFO_SUCCESSOR : Fld := ⟨0x148, 3, 1, false⟩
abbrev PRISIL_SLOT_INFO_POLICY : Fld := ⟨0x148, 8, 8, false⟩
abbrev PRISIL_SLOT_INFO_PARENT_KIND : Fld := ⟨0x148, 16, 3, false⟩
abbrev PRISIL_SLOT_INFO_PARENT : Fld := ⟨0x148, 24, 6, false⟩
abbrev PRISIL_CMD_OP : Fld := ⟨0x160, 0, 4, false⟩
abbrev PRISIL_CMD_SLOT : Fld := ⟨0x160, 4, 6, false⟩
abbrev PRISIL_CMD_PARENT : Fld := ⟨0x160, 10, 6, false⟩
abbrev PRISIL_CMD_PARENT_KIND : Fld := ⟨0x160, 16, 3, false⟩
abbrev PRISIL_CMD_PROT : Fld := ⟨0x160, 19, 1, false⟩
abbrev PRISIL_CMD_START : Fld := ⟨0x160, 31, 1, false⟩
abbrev PRISIL_CMD_ARG_POLICY : Fld := ⟨0x164, 0, 8, false⟩
abbrev PRISIL_CMD_ARG_LABEL_LEN : Fld := ⟨0x164, 8, 6, false⟩
abbrev PRISIL_CMD_ARG_LEN : Fld := ⟨0x164, 16, 10, false⟩
abbrev PRISIL_CMD_ARG2_AAD_LEN : Fld := ⟨0x168, 0, 10, false⟩
abbrev PRISIL_CMD_ARG2_SUCC_FW : Fld := ⟨0x168, 16, 1, false⟩
abbrev PRISIL_CMD_ARG2_SUCC_SET : Fld := ⟨0x168, 17, 1, false⟩
abbrev PRISIL_CMD_ARG2_SUCC_ROM : Fld := ⟨0x168, 18, 1, false⟩
abbrev PRISIL_CMD_ARG2_SUCC_SECVER : Fld := ⟨0x168, 24, 8, false⟩
abbrev PRISIL_CMD_STATUS_BUSY : Fld := ⟨0x16C, 0, 1, false⟩
abbrev PRISIL_CMD_STATUS_RESULT : Fld := ⟨0x16C, 4, 4, false⟩
abbrev PRISIL_CMD_STATUS_SEQ : Fld := ⟨0x16C, 16, 16, false⟩

/-! Fields of TRESTLE. -/
abbrev TRESTLE_TR_STATUS_MODE : Fld := ⟨0x140, 0, 3, false⟩
abbrev TRESTLE_TR_STATUS_SPLIT : Fld := ⟨0x140, 3, 1, false⟩
abbrev TRESTLE_TR_STATUS_SPARE_LEG : Fld := ⟨0x140, 4, 2, false⟩
abbrev TRESTLE_TR_STATUS_FALLBACK_INPUTS : Fld := ⟨0x140, 6, 1, false⟩
abbrev TRESTLE_TR_STATUS_RESYNC : Fld := ⟨0x140, 7, 1, false⟩
abbrev TRESTLE_TR_STATUS_SCRIBE_A_OK : Fld := ⟨0x140, 8, 1, false⟩
abbrev TRESTLE_TR_STATUS_SCRIBE_B_OK : Fld := ⟨0x140, 9, 1, false⟩
abbrev TRESTLE_TR_STATUS_TRIPLE_AVAIL : Fld := ⟨0x140, 10, 1, false⟩
abbrev TRESTLE_TR_STATUS_STOPPED : Fld := ⟨0x140, 11, 1, false⟩
abbrev TRESTLE_TR_STATUS_PAIR_CHECKER : Fld := ⟨0x140, 12, 2, false⟩
abbrev TRESTLE_TR_CMD_CMD : Fld := ⟨0x144, 0, 3, false⟩
abbrev TRESTLE_TR_CMD_KEY : Fld := ⟨0x144, 16, 16, false⟩
abbrev TRESTLE_TR_CMD_STATUS_BUSY : Fld := ⟨0x148, 0, 1, false⟩
abbrev TRESTLE_TR_CMD_STATUS_RESULT : Fld := ⟨0x148, 4, 4, false⟩
abbrev TRESTLE_TR_CMD_STATUS_SEQ : Fld := ⟨0x148, 16, 16, false⟩
abbrev TRESTLE_HB_STATUS_COUNT : Fld := ⟨0x154, 0, 16, false⟩
abbrev TRESTLE_HB_STATUS_AGE_US : Fld := ⟨0x154, 16, 16, false⟩
abbrev TRESTLE_CKPT_STATUS_SEQ : Fld := ⟨0x158, 0, 16, false⟩
abbrev TRESTLE_CKPT_STATUS_AGE_US : Fld := ⟨0x158, 16, 16, false⟩
abbrev TRESTLE_SPLIT_CFG_SPARE_LEG : Fld := ⟨0x15C, 0, 2, true⟩
abbrev TRESTLE_SPLIT_CFG_HANDOVER_TMO_MS : Fld := ⟨0x15C, 8, 8, true⟩
abbrev TRESTLE_AGREE_CFG_EXCH_EN : Fld := ⟨0x160, 0, 1, true⟩
abbrev TRESTLE_AGREE_CFG_SELFTEST_MS : Fld := ⟨0x160, 8, 8, true⟩
abbrev TRESTLE_MLOG_HEAD0_STAMP : Fld := ⟨0x170, 0, 32, false⟩
abbrev TRESTLE_MLOG_HEAD1_KIND : Fld := ⟨0x174, 0, 3, false⟩
abbrev TRESTLE_MLOG_HEAD1_LEG : Fld := ⟨0x174, 4, 2, false⟩
abbrev TRESTLE_MLOG_HEAD1_SCRIBE : Fld := ⟨0x174, 6, 2, false⟩
abbrev TRESTLE_MLOG_HEAD1_GROUP : Fld := ⟨0x174, 8, 4, false⟩
abbrev TRESTLE_MLOG_HEAD1_MODE : Fld := ⟨0x174, 12, 3, false⟩
abbrev TRESTLE_MLOG_HEAD1_VALID : Fld := ⟨0x174, 16, 1, false⟩
abbrev TRESTLE_MLOG_HEAD2_SEQ : Fld := ⟨0x178, 0, 16, false⟩
abbrev TRESTLE_MLOG_STATUS_N : Fld := ⟨0x180, 0, 5, false⟩
abbrev TRESTLE_MBX_DB_SEQ : Fld := ⟨0x240, 0, 16, false⟩
abbrev TRESTLE_MBX_DB_SERVICE : Fld := ⟨0x240, 16, 8, false⟩
abbrev TRESTLE_RSP_STATUS_SEQ : Fld := ⟨0x2C0, 0, 16, false⟩
abbrev TRESTLE_RSP_STATUS_RESULT : Fld := ⟨0x2C0, 16, 8, false⟩
abbrev TRESTLE_RSP_STATUS_WORDS : Fld := ⟨0x2C0, 24, 5, false⟩
abbrev TRESTLE_RSP_STATUS_VALID : Fld := ⟨0x2C0, 31, 1, false⟩

/-! Fields of PERF. -/
abbrev PERF_PERF_CTRL_FREEZE : Fld := ⟨0x140, 0, 1, false⟩
abbrev PERF_PERF_CTRL_USER_EN : Fld := ⟨0x140, 1, 1, false⟩
abbrev PERF_CTR_SEL_i_EVENT : Fld := ⟨0x180, 0, 10, false⟩
abbrev PERF_CTR_SEL_i_EN : Fld := ⟨0x180, 16, 1, false⟩

/-! Fields of WEAR. -/
abbrev WEAR_WEAR_CFG_SENSE_EN : Fld := ⟨0x140, 0, 1, false⟩
abbrev WEAR_WEAR_CFG_SENSE_MIN : Fld := ⟨0x140, 8, 8, false⟩
abbrev WEAR_LIFE_P10_D : Fld := ⟨0x144, 0, 16, false⟩
abbrev WEAR_LIFE_P50_D : Fld := ⟨0x148, 0, 16, false⟩
abbrev WEAR_LIFE_P90_D : Fld := ⟨0x14C, 0, 16, false⟩
abbrev WEAR_LIFE_STATUS_VALID : Fld := ⟨0x150, 0, 1, false⟩
abbrev WEAR_LIFE_STATUS_LIMIT : Fld := ⟨0x150, 4, 3, false⟩
abbrev WEAR_LIFE_STATUS_EST_SEQ : Fld := ⟨0x150, 16, 16, false⟩
abbrev WEAR_PROD_SEC_HI_V : Fld := ⟨0x158, 0, 16, false⟩

/-! Fields of EVIO. -/
abbrev EVIO_OUT_CFG_EN : Fld := ⟨0x140, 0, 8, true⟩
abbrev EVIO_OUT_CFG_IDLE : Fld := ⟨0x140, 8, 8, true⟩
abbrev EVIO_OUT_LEVEL_L : Fld := ⟨0x144, 0, 8, false⟩
abbrev EVIO_OUT_MANUAL_MASK : Fld := ⟨0x148, 0, 8, false⟩
abbrev EVIO_OUT_MANUAL_LEVELS : Fld := ⟨0x148, 8, 8, false⟩
abbrev EVIO_IN_CFG_EN : Fld := ⟨0x150, 0, 8, true⟩
abbrev EVIO_IN_CFG_RISE : Fld := ⟨0x150, 8, 8, true⟩
abbrev EVIO_IN_CFG_FALL : Fld := ⟨0x150, 16, 8, true⟩
abbrev EVIO_IN_FILTER_F : Fld := ⟨0x154, 0, 8, true⟩
abbrev EVIO_ILOG_HEAD1_PIN : Fld := ⟨0x164, 0, 3, false⟩
abbrev EVIO_ILOG_HEAD1_RISING : Fld := ⟨0x164, 3, 1, false⟩
abbrev EVIO_ILOG_HEAD1_VALID : Fld := ⟨0x164, 4, 1, false⟩
abbrev EVIO_ILOG_HEAD1_EPOCH : Fld := ⟨0x164, 8, 8, false⟩
abbrev EVIO_ILOG_HEAD1_SEQ : Fld := ⟨0x164, 16, 16, false⟩
abbrev EVIO_ILOG_ACK_SEQ : Fld := ⟨0x168, 0, 16, false⟩

/-! Fields of TIME. -/
abbrev TIME_TIME_CFG_SOURCE : Fld := ⟨0x140, 0, 3, true⟩
abbrev TIME_TIME_CFG_PPS_OUT_EN : Fld := ⟨0x140, 8, 1, true⟩
abbrev TIME_TIME_CFG_PPS_IN_EN : Fld := ⟨0x140, 9, 1, true⟩
abbrev TIME_TIME_CFG_PPS_IN_EDGE : Fld := ⟨0x140, 10, 1, true⟩
abbrev TIME_TIME_CFG_PPS_OUT_WIDTH : Fld := ⟨0x140, 16, 9, true⟩
abbrev TIME_HOLDOVER_CFG_DETECT : Fld := ⟨0x144, 0, 16, true⟩
abbrev TIME_HOLDOVER_CFG_LONG : Fld := ⟨0x144, 16, 16, true⟩
abbrev TIME_PPS_IN_DELAY_PS : Fld := ⟨0x148, 0, 20, true⟩
abbrev TIME_PPS_OUT_ADV_PS : Fld := ⟨0x14C, 0, 20, true⟩
abbrev TIME_TIME_STATUS_STATE : Fld := ⟨0x150, 0, 2, false⟩
abbrev TIME_TIME_STATUS_EPOCH : Fld := ⟨0x150, 8, 8, false⟩
abbrev TIME_TIME_STATUS_INV_CAUSE : Fld := ⟨0x150, 16, 4, false⟩
abbrev TIME_TIME_STATUS_SLEWING : Fld := ⟨0x150, 20, 1, false⟩
abbrev TIME_TIME_CMD_CMD : Fld := ⟨0x154, 0, 4, false⟩
abbrev TIME_STEP_SEC_HI_V : Fld := ⟨0x15C, 0, 16, false⟩
abbrev TIME_STEP_NS_NS : Fld := ⟨0x160, 0, 30, false⟩
abbrev TIME_STEP_NS_NEG : Fld := ⟨0x160, 31, 1, false⟩
abbrev TIME_STEP_REF_STAMP_STAMP : Fld := ⟨0x164, 0, 32, false⟩
abbrev TIME_STEP_RESULT_RESULT : Fld := ⟨0x168, 0, 4, false⟩
abbrev TIME_STEP_RESULT_REQUESTER : Fld := ⟨0x168, 8, 4, false⟩
abbrev TIME_STEP_RESULT_SEQ : Fld := ⟨0x168, 16, 16, false⟩
abbrev TIME_RATE_ADJ_RATE : Fld := ⟨0x170, 0, 32, false⟩
abbrev TIME_SLEW_LIMIT_TENTH_PPM_S : Fld := ⟨0x174, 0, 16, false⟩
abbrev TIME_RATE_ACTIVE_RATE : Fld := ⟨0x178, 0, 32, false⟩
abbrev TIME_RATE_RESULT_RESULT : Fld := ⟨0x17C, 0, 4, false⟩
abbrev TIME_RATE_RESULT_REQUESTER : Fld := ⟨0x17C, 8, 4, false⟩
abbrev TIME_INCR_HI_V : Fld := ⟨0x184, 0, 16, false⟩
abbrev TIME_CAP_NS_NS : Fld := ⟨0x198, 0, 30, false⟩
abbrev TIME_CAP_FRAC_FRAC : Fld := ⟨0x19C, 0, 16, false⟩
abbrev TIME_CAP_STATUS_SEQ : Fld := ⟨0x1A4, 0, 16, false⟩
abbrev TIME_CAP_STATUS_EPOCH : Fld := ⟨0x1A4, 16, 8, false⟩
abbrev TIME_CAP_STATUS_STATE : Fld := ⟨0x1A4, 24, 2, false⟩
abbrev TIME_PPS_IN_NS_NS : Fld := ⟨0x1B8, 0, 30, false⟩
abbrev TIME_PPS_IN_STATUS_SEQ : Fld := ⟨0x1BC, 0, 16, false⟩
abbrev TIME_PPS_IN_STATUS_EPOCH : Fld := ⟨0x1BC, 16, 8, false⟩

/-! Fields of GPTP. -/
abbrev GPTP_INST_CFG_EN : Fld := ⟨0x140, 0, 1, true⟩
abbrev GPTP_INST_CFG_DOMAIN : Fld := ⟨0x140, 8, 7, true⟩
abbrev GPTP_INST_CFG_PRIORITY1 : Fld := ⟨0x140, 16, 8, true⟩
abbrev GPTP_INST_CFG_PRIORITY2 : Fld := ⟨0x140, 24, 8, true⟩
abbrev GPTP_PORT_MASK_PORTS : Fld := ⟨0x144, 0, 20, true⟩
abbrev GPTP_INTERVALS_LOG_SYNC : Fld := ⟨0x148, 0, 8, true⟩
abbrev GPTP_INTERVALS_LOG_PDELAY : Fld := ⟨0x148, 8, 8, true⟩
abbrev GPTP_INTERVALS_LOG_ANNOUNCE : Fld := ⟨0x148, 16, 8, true⟩
abbrev GPTP_INTERVALS_SYNC_RX_TIMEOUT : Fld := ⟨0x148, 24, 8, true⟩
abbrev GPTP_GM_CFG_GM_CAPABLE : Fld := ⟨0x14C, 0, 1, true⟩
abbrev GPTP_GM_CFG_CLOCK_CLASS : Fld := ⟨0x14C, 8, 8, true⟩
abbrev GPTP_GM_CFG_CLOCK_ACCURACY : Fld := ⟨0x14C, 16, 8, true⟩
abbrev GPTP_GM_CFG_TIME_SOURCE : Fld := ⟨0x14C, 24, 8, true⟩
abbrev GPTP_ALARM_NS_NS : Fld := ⟨0x150, 0, 30, true⟩
abbrev GPTP_INST_STATUS_ROLE : Fld := ⟨0x154, 0, 2, false⟩
abbrev GPTP_INST_STATUS_SLAVE_PORT : Fld := ⟨0x154, 8, 5, false⟩
abbrev GPTP_INST_STATUS_GM_PRESENT : Fld := ⟨0x154, 16, 1, false⟩
abbrev GPTP_INST_STATUS_OFFSET_VALID : Fld := ⟨0x154, 17, 1, false⟩
abbrev GPTP_RATE_RATIO_RATE : Fld := ⟨0x16C, 0, 32, false⟩

/-! Fields of STORY. -/
abbrev STORY_STORY_CFG_LATE_TOL : Fld := ⟨0x140, 0, 14, true⟩
abbrev STORY_STORY_STATUS_RUNNING : Fld := ⟨0x144, 0, 1, false⟩
abbrev STORY_STORY_STATUS_FAILSAFE : Fld := ⟨0x144, 1, 1, false⟩
abbrev STORY_RLOG_HEAD0_REQ_STAMP : Fld := ⟨0x150, 0, 32, false⟩
abbrev STORY_RLOG_HEAD1_SOF_STAMP : Fld := ⟨0x154, 0, 32, false⟩
abbrev STORY_RLOG_HEAD2_TARGET : Fld := ⟨0x158, 0, 6, false⟩
abbrev STORY_RLOG_HEAD2_LATE : Fld := ⟨0x158, 8, 1, false⟩
abbrev STORY_RLOG_HEAD2_BUSY : Fld := ⟨0x158, 9, 1, false⟩
abbrev STORY_RLOG_HEAD2_NOTIME : Fld := ⟨0x158, 10, 1, false⟩
abbrev STORY_RLOG_HEAD2_VALID : Fld := ⟨0x158, 11, 1, false⟩
abbrev STORY_RLOG_HEAD2_EPOCH : Fld := ⟨0x158, 16, 8, false⟩
abbrev STORY_RLOG_HEAD3_TAG : Fld := ⟨0x15C, 0, 16, false⟩
abbrev STORY_RLOG_HEAD3_SEQ : Fld := ⟨0x15C, 16, 16, false⟩
abbrev STORY_RLOG_ACK_SEQ : Fld := ⟨0x160, 0, 16, false⟩
abbrev STORY_RLOG_STATUS_HELD : Fld := ⟨0x164, 0, 9, false⟩

/-! Fields of STORY_TBL. -/
abbrev STORY_TBL_ONESHOT_FREE_N : Fld := ⟨0x140, 0, 13, false⟩
abbrev STORY_TBL_GUARDED_N : Fld := ⟨0x144, 0, 15, false⟩

/-! Fields of CINCH. -/
abbrev CINCH_CINCH_CFG_PF_EN : Fld := ⟨0x140, 0, 1, true⟩
abbrev CINCH_CINCH_CFG_PF_FILTER : Fld := ⟨0x140, 8, 8, true⟩
abbrev CINCH_CINCH_STATUS_TRIPPED : Fld := ⟨0x144, 0, 10, false⟩
abbrev CINCH_CINCH_STATUS_PF_ACTIVE : Fld := ⟨0x144, 16, 1, false⟩
abbrev CINCH_CINCH_STATUS_MASS_BUSY : Fld := ⟨0x144, 17, 1, false⟩

/-! Fields of FAB. -/
abbrev FAB_CT_PORT_MASK_PORTS : Fld := ⟨0x140, 0, 30, true⟩
abbrev FAB_CLASS_REGIME_HELD : Fld := ⟨0x144, 0, 8, true⟩
abbrev FAB_FAB_STATUS_CLK_OK : Fld := ⟨0x148, 0, 1, false⟩
abbrev FAB_FAB_STATUS_REBUILD : Fld := ⟨0x148, 1, 1, false⟩
abbrev FAB_FAB_STATUS_HALTED : Fld := ⟨0x148, 2, 1, false⟩

/-! Fields of BUF. -/
abbrev BUF_ALPHA_CODE0 : Fld := ⟨0x140, 0, 4, true⟩
abbrev BUF_ALPHA_CODE1 : Fld := ⟨0x140, 4, 4, true⟩
abbrev BUF_ALPHA_CODE2 : Fld := ⟨0x140, 8, 4, true⟩
abbrev BUF_ALPHA_CODE3 : Fld := ⟨0x140, 12, 4, true⟩
abbrev BUF_ALPHA_CODE4 : Fld := ⟨0x140, 16, 4, true⟩
abbrev BUF_ALPHA_CODE5 : Fld := ⟨0x140, 20, 4, true⟩
abbrev BUF_ALPHA_CODE6 : Fld := ⟨0x140, 24, 4, true⟩
abbrev BUF_ALPHA_CODE7 : Fld := ⟨0x140, 28, 4, true⟩
abbrev BUF_POOL_FREE_CELLS : Fld := ⟨0x144, 0, 18, false⟩
abbrev BUF_HELD_FREE_CELLS : Fld := ⟨0x148, 0, 17, false⟩
abbrev BUF_HELD_UNRESERVED_CELLS : Fld := ⟨0x14C, 0, 17, false⟩

/-! Fields of SPILL. -/
abbrev SPILL_SPILL_CFG_EN : Fld := ⟨0x140, 0, 1, true⟩
abbrev SPILL_SPILL_CFG_DENSITY : Fld := ⟨0x140, 4, 3, true⟩
abbrev SPILL_SPILL_QMAX_UNITS : Fld := ⟨0x144, 0, 16, true⟩
abbrev SPILL_SPILL_STATUS_TRAINED : Fld := ⟨0x148, 0, 1, false⟩
abbrev SPILL_SPILL_STATUS_ACTIVE : Fld := ⟨0x148, 1, 1, false⟩
abbrev SPILL_SPILL_STATUS_TRAIN_FAIL : Fld := ⟨0x148, 2, 1, false⟩
abbrev SPILL_SPILL_USED_CELLS : Fld := ⟨0x14C, 0, 27, false⟩
abbrev SPILL_SPILL_CAP_CELLS : Fld := ⟨0x150, 0, 27, false⟩
abbrev SPILL_SPILL_LAT_MAX_TENTH_US : Fld := ⟨0x154, 0, 16, false⟩

/-! Fields of RSEQ. -/
abbrev RSEQ_RSEQ_TIMEOUT_US : Fld := ⟨0x140, 0, 14, true⟩
abbrev RSEQ_RSEQ_OCC_MAX_FRAMES : Fld := ⟨0x144, 0, 11, false⟩
abbrev RSEQ_RSEQ_OCC_MAX_QUEUE : Fld := ⟨0x144, 16, 8, false⟩

/-! Fields of FDB. -/
abbrev FDB_FDB_CFG_AGE_TIME : Fld := ⟨0x140, 0, 16, true⟩
abbrev FDB_FDB_CFG_LEARN_EN : Fld := ⟨0x140, 16, 1, true⟩
abbrev FDB_LEARN_MASK_PORTS : Fld := ⟨0x144, 0, 31, true⟩
abbrev FDB_FDB_COUNT_ENTRIES : Fld := ⟨0x148, 0, 16, false⟩
abbrev FDB_FDB_FLUSH_PORT : Fld := ⟨0x14C, 0, 5, false⟩
abbrev FDB_FDB_FLUSH_PORT_MATCH : Fld := ⟨0x14C, 5, 1, false⟩
abbrev FDB_FDB_FLUSH_VID : Fld := ⟨0x14C, 8, 12, false⟩
abbrev FDB_FDB_FLUSH_VID_MATCH : Fld := ⟨0x14C, 20, 1, false⟩
abbrev FDB_FDB_FLUSH_STATIC_TOO : Fld := ⟨0x14C, 21, 1, false⟩
abbrev FDB_FDB_FLUSH_START : Fld := ⟨0x14C, 31, 1, false⟩
abbrev FDB_FDB_FLUSH_STATUS_BUSY : Fld := ⟨0x150, 0, 1, false⟩

/-! Fields of FRER. -/
abbrev FRER_FRER_CMD_INDEX : Fld := ⟨0x140, 0, 10, false⟩
abbrev FRER_FRER_CMD_RESET_RECOV : Fld := ⟨0x140, 16, 1, false⟩
abbrev FRER_FRER_CMD_RESET_GEN : Fld := ⟨0x140, 17, 1, false⟩
abbrev FRER_HOLD_STATUS_USED : Fld := ⟨0x144, 0, 7, false⟩
abbrev FRER_HOLD_STATUS_MAX : Fld := ⟨0x144, 16, 7, false⟩

/-! Fields of BRIDLE. -/
abbrev BRIDLE_TP_CFG0_DT_GAP_MS : Fld := ⟨0x140, 0, 16, true⟩
abbrev BRIDLE_TP_CFG0_CTS_WAIT_MS : Fld := ⟨0x140, 16, 16, true⟩
abbrev BRIDLE_TP_CFG1_HOLD_MS : Fld := ⟨0x144, 0, 16, true⟩
abbrev BRIDLE_TP_CFG1_ABORT_DST_EN : Fld := ⟨0x144, 16, 1, true⟩
abbrev BRIDLE_TP_CFG1_ABORT_SRC_EN : Fld := ⟨0x144, 17, 1, true⟩
abbrev BRIDLE_TP_CFG1_SIZE_REASON : Fld := ⟨0x144, 24, 8, true⟩
abbrev BRIDLE_MIRROR_CFG_PORT : Fld := ⟨0x148, 0, 5, true⟩
abbrev BRIDLE_MIRROR_CFG_CLASS : Fld := ⟨0x148, 8, 3, true⟩
abbrev BRIDLE_MIRROR_CFG_EN : Fld := ⟨0x148, 16, 1, true⟩
abbrev BRIDLE_MIRROR_CFG_TRUNC : Fld := ⟨0x148, 17, 1, true⟩
abbrev BRIDLE_SESSION_STATUS_OPEN : Fld := ⟨0x168, 0, 10, false⟩
abbrev BRIDLE_SESSION_STATUS_MAX : Fld := ⟨0x168, 16, 10, false⟩

/-! Fields of UNITS. -/
abbrev UNITS_UNIT_CMD_UNIT : Fld := ⟨0x140, 0, 10, false⟩
abbrev UNITS_UNIT_CMD_OTHER : Fld := ⟨0x140, 16, 10, false⟩
abbrev UNITS_UNIT_CMD_FORCE : Fld := ⟨0x140, 27, 1, false⟩
abbrev UNITS_UNIT_CMD_CMD : Fld := ⟨0x140, 28, 4, false⟩
abbrev UNITS_UNIT_CMD_STATUS_BUSY : Fld := ⟨0x144, 0, 1, false⟩
abbrev UNITS_UNIT_CMD_STATUS_RESULT : Fld := ⟨0x144, 4, 4, false⟩
abbrev UNITS_UNIT_CMD_STATUS_SEQ : Fld := ⟨0x144, 16, 16, false⟩
abbrev UNITS_UNIT_COUNT_FENCED : Fld := ⟨0x148, 0, 11, false⟩
abbrev UNITS_UNIT_COUNT_DEAD : Fld := ⟨0x148, 16, 11, false⟩

/-! Fields of MACSEC. -/
abbrev MACSEC_BYPASS_ETYPE : Fld := ⟨0x140, 0, 16, true⟩
abbrev MACSEC_BYPASS_EN : Fld := ⟨0x140, 16, 1, true⟩
abbrev MACSEC_KEY_CMD_SA : Fld := ⟨0x154, 0, 12, false⟩
abbrev MACSEC_KEY_CMD_SLOT : Fld := ⟨0x154, 16, 6, false⟩
abbrev MACSEC_KEY_CMD_START : Fld := ⟨0x154, 31, 1, false⟩
abbrev MACSEC_KEY_STATUS_BUSY : Fld := ⟨0x158, 0, 1, false⟩
abbrev MACSEC_KEY_STATUS_RESULT : Fld := ⟨0x158, 4, 4, false⟩

/-! Fields of PORT. -/
abbrev PORT_PORT_KIND_KIND : Fld := ⟨0x140, 0, 4, false⟩
abbrev PORT_PORT_KIND_LPORT : Fld := ⟨0x140, 8, 8, false⟩
abbrev PORT_MAC_CFG_MAX_LEN : Fld := ⟨0x144, 0, 14, true⟩
abbrev PORT_MAC_CFG_RX_EN : Fld := ⟨0x144, 16, 1, true⟩
abbrev PORT_MAC_CFG_TX_EN : Fld := ⟨0x144, 17, 1, true⟩
abbrev PORT_RATE_CFG_RATE : Fld := ⟨0x148, 0, 3, true⟩
abbrev PORT_RATE_CFG_LONG_BED : Fld := ⟨0x148, 4, 1, true⟩
abbrev PORT_RATE_CFG_AN_EN : Fld := ⟨0x148, 8, 1, true⟩
abbrev PORT_RATE_CFG_X_MODE : Fld := ⟨0x148, 9, 1, true⟩
abbrev PORT_RATE_CFG_KR_FEC : Fld := ⟨0x148, 10, 1, true⟩
abbrev PORT_LINK_CMD_CMD : Fld := ⟨0x14C, 0, 3, false⟩
abbrev PORT_LINK_STATUS_STATE : Fld := ⟨0x150, 0, 4, false⟩
abbrev PORT_LINK_STATUS_RATE : Fld := ⟨0x150, 4, 3, false⟩
abbrev PORT_LINK_STATUS_LONG_BED : Fld := ⟨0x150, 8, 1, false⟩
abbrev PORT_LINK_STATUS_LB_REJECT : Fld := ⟨0x150, 9, 1, false⟩
abbrev PORT_LINK_STATUS_RESUMED : Fld := ⟨0x150, 10, 1, false⟩
abbrev PORT_LINK_STATUS_RESUME_ABLE : Fld := ⟨0x150, 11, 1, false⟩
abbrev PORT_LINK_STATUS_PLCA_ACTIVE : Fld := ⟨0x150, 12, 1, false⟩
abbrev PORT_TC10_CFG_SLEEP_ACCEPT : Fld := ⟨0x154, 0, 1, true⟩
abbrev PORT_TC10_CFG_WAKE_ON_TX : Fld := ⟨0x154, 1, 1, true⟩
abbrev PORT_TC10_CFG_WAKE_FWD_EN : Fld := ⟨0x154, 2, 1, true⟩
abbrev PORT_TC10_CFG_SLEEP_DRAIN : Fld := ⟨0x154, 8, 8, true⟩
abbrev PORT_WAKE_FWD_MASK_PORTS : Fld := ⟨0x158, 0, 28, true⟩
abbrev PORT_PREEMPT_CFG_PREEMPTABLE : Fld := ⟨0x15C, 0, 8, true⟩
abbrev PORT_PREEMPT_CFG_VERIFY_DIS : Fld := ⟨0x15C, 8, 1, true⟩
abbrev PORT_PREEMPT_CFG_ADD_FRAG : Fld := ⟨0x15C, 9, 2, true⟩
abbrev PORT_PREEMPT_CFG_VERIFY_TIME : Fld := ⟨0x15C, 16, 8, true⟩
abbrev PORT_PREEMPT_CFG_VERIFY_LIMIT : Fld := ⟨0x15C, 24, 3, true⟩
abbrev PORT_PREEMPT_STATUS_VERIFY : Fld := ⟨0x160, 0, 3, false⟩
abbrev PORT_PLCA_CFG_PLCA_EN : Fld := ⟨0x164, 0, 1, true⟩
abbrev PORT_PLCA_CFG_NODE_ID : Fld := ⟨0x164, 4, 4, true⟩
abbrev PORT_PLCA_CFG_NODE_COUNT : Fld := ⟨0x164, 8, 5, true⟩
abbrev PORT_PLCA_CFG_TO_TIMER : Fld := ⟨0x164, 16, 8, true⟩
abbrev PORT_PLCA_CFG_BURST_CNT : Fld := ⟨0x164, 24, 4, true⟩
abbrev PORT_PLCA_CFG_FALLBACK_CSMA : Fld := ⟨0x164, 28, 1, true⟩
abbrev PORT_PLCA_BEACON_INTERVAL : Fld := ⟨0x168, 0, 24, false⟩
abbrev PORT_TS_RX_EXTRA_PS : Fld := ⟨0x170, 0, 20, true⟩
abbrev PORT_TS_TX_EXTRA_PS : Fld := ⟨0x174, 0, 20, true⟩
abbrev PORT_STATUS_LINK_UP : Fld := ⟨0x014, 16, 1, false⟩

/-! Fields of PHY. -/
abbrev PHY_PHY_KIND_KIND : Fld := ⟨0x140, 0, 4, false⟩
abbrev PHY_PHY_KIND_LPORT : Fld := ⟨0x140, 8, 8, false⟩
abbrev PHY_SQI_VALUE : Fld := ⟨0x144, 0, 3, false⟩
abbrev PHY_SQI_VALID : Fld := ⟨0x144, 8, 1, false⟩
abbrev PHY_TX_MARGIN_CDB : Fld := ⟨0x148, 0, 16, false⟩
abbrev PHY_WARM_STATUS_VALID : Fld := ⟨0x14C, 0, 1, false⟩
abbrev PHY_WARM_STATUS_RESUME_OK : Fld := ⟨0x14C, 1, 1, false⟩
abbrev PHY_WARM_STATUS_SAVE_TEMP : Fld := ⟨0x14C, 16, 8, false⟩
abbrev PHY_CABLE_DIAG_CMD_START : Fld := ⟨0x150, 0, 1, false⟩
abbrev PHY_CABLE_DIAG_RESULT_BUSY : Fld := ⟨0x154, 0, 1, false⟩
abbrev PHY_CABLE_DIAG_RESULT_RESULT : Fld := ⟨0x154, 1, 2, false⟩
abbrev PHY_CABLE_DIAG_RESULT_DIST_DM : Fld := ⟨0x154, 4, 12, false⟩
abbrev PHY_POLARITY_RX_INVERTED : Fld := ⟨0x158, 0, 1, false⟩
abbrev PHY_TEST_MODE_MODE : Fld := ⟨0x15C, 0, 4, false⟩
abbrev PHY_LAT_RX_Mm_PS : Fld := ⟨0x180, 0, 22, true⟩
abbrev PHY_LAT_TX_Mm_PS : Fld := ⟨0x184, 0, 22, true⟩

/-! Fields of GW. -/
abbrev GW_GW_MAC_HI_V : Fld := ⟨0x144, 0, 16, true⟩
abbrev GW_INQ_STATUS_N : Fld := ⟨0x148, 0, 13, false⟩
abbrev GW_INQ_STATUS_MAX : Fld := ⟨0x148, 16, 13, false⟩
abbrev GW_GW_STATUS_CLK_OK : Fld := ⟨0x150, 0, 1, false⟩
abbrev GW_GW_STATUS_CLK_SAFE : Fld := ⟨0x150, 1, 1, false⟩
abbrev GW_GW_STATUS_HFRC_TIMING : Fld := ⟨0x150, 2, 1, false⟩

/-! Fields of CAN. -/
abbrev CAN_CAN_CFG_FD_EN : Fld := ⟨0x140, 0, 1, true⟩
abbrev CAN_CAN_CFG_XL_EN : Fld := ⟨0x140, 1, 1, true⟩
abbrev CAN_CAN_CFG_LISTEN_ONLY : Fld := ⟨0x140, 2, 1, true⟩
abbrev CAN_CAN_CFG_AUTO_RECOVER : Fld := ⟨0x140, 3, 1, true⟩
abbrev CAN_CAN_CFG_TX_ORDER : Fld := ⟨0x140, 4, 1, true⟩
abbrev CAN_CAN_CFG_RETRY_LIMIT : Fld := ⟨0x140, 8, 8, true⟩
abbrev CAN_CAN_CFG_MAX_AGE_MS : Fld := ⟨0x140, 16, 16, true⟩
abbrev CAN_NBT_BRP : Fld := ⟨0x144, 0, 9, true⟩
abbrev CAN_NBT_TSEG1 : Fld := ⟨0x144, 9, 8, true⟩
abbrev CAN_NBT_TSEG2 : Fld := ⟨0x144, 17, 7, true⟩
abbrev CAN_NBT_SJW : Fld := ⟨0x144, 24, 7, true⟩
abbrev CAN_TDC_EN : Fld := ⟨0x158, 0, 1, true⟩
abbrev CAN_TDC_OFFSET : Fld := ⟨0x158, 8, 8, true⟩
abbrev CAN_TXQ_KIB_K : Fld := ⟨0x15C, 0, 7, true⟩
abbrev CAN_CAN_STATUS_STATE : Fld := ⟨0x160, 0, 3, false⟩
abbrev CAN_CAN_STATUS_TEC : Fld := ⟨0x160, 8, 8, false⟩
abbrev CAN_CAN_STATUS_REC : Fld := ⟨0x160, 16, 8, false⟩
abbrev CAN_CAN_CMD_CMD : Fld := ⟨0x164, 0, 2, false⟩
abbrev CAN_TXQ_STATUS_N : Fld := ⟨0x168, 0, 16, false⟩
abbrev CAN_TXQ_STATUS_MAX : Fld := ⟨0x168, 16, 16, false⟩

/-! Fields of LIN. -/
abbrev LIN_LIN_CFG_MASTER : Fld := ⟨0x140, 0, 1, true⟩
abbrev LIN_LIN_CFG_AUTOBAUD : Fld := ⟨0x140, 1, 1, true⟩
abbrev LIN_LIN_CFG_TRIM_REF : Fld := ⟨0x140, 2, 1, true⟩
abbrev LIN_LIN_CFG_BREAK_LEN : Fld := ⟨0x140, 8, 5, true⟩
abbrev LIN_LIN_CFG_BITRATE : Fld := ⟨0x140, 16, 16, true⟩
abbrev LIN_LIN_SCHED_TABLE : Fld := ⟨0x144, 0, 6, true⟩
abbrev LIN_LIN_SCHED_RUN : Fld := ⟨0x144, 8, 1, true⟩
abbrev LIN_LIN_STATUS_STATE : Fld := ⟨0x148, 0, 3, false⟩
abbrev LIN_LIN_STATUS_TABLE : Fld := ⟨0x148, 8, 6, false⟩
abbrev LIN_LIN_STATUS_ENTRY : Fld := ⟨0x148, 16, 11, false⟩
abbrev LIN_LIN_CMD_CMD : Fld := ⟨0x14C, 0, 2, false⟩
abbrev LIN_LIN_SYNC_NS : Fld := ⟨0x150, 0, 24, false⟩

/-! Fields of UART. -/
abbrev UART_UART_CFG_BAUD : Fld := ⟨0x140, 0, 22, true⟩
abbrev UART_UART_CFG_DATA : Fld := ⟨0x140, 24, 2, true⟩
abbrev UART_UART_CFG_PARITY : Fld := ⟨0x140, 26, 2, true⟩
abbrev UART_UART_CFG_STOP2 : Fld := ⟨0x140, 28, 1, true⟩
abbrev UART_UART_FRAME_MODE : Fld := ⟨0x144, 0, 2, true⟩
abbrev UART_UART_FRAME_GAP_BITS : Fld := ⟨0x144, 8, 8, true⟩
abbrev UART_UART_FRAME_FIX_LEN : Fld := ⟨0x144, 16, 9, true⟩
abbrev UART_UART_LEN_LEN_FIELD_EN : Fld := ⟨0x148, 0, 1, true⟩
abbrev UART_UART_LEN_TWO : Fld := ⟨0x148, 1, 1, true⟩
abbrev UART_UART_LEN_LEN_OFF : Fld := ⟨0x148, 4, 4, true⟩
abbrev UART_UART_LEN_LEN_ADJ : Fld := ⟨0x148, 8, 5, true⟩
abbrev UART_UART_DELIM_DELIM0 : Fld := ⟨0x14C, 0, 8, true⟩
abbrev UART_UART_DELIM_DELIM1 : Fld := ⟨0x14C, 8, 8, true⟩
abbrev UART_UART_DELIM_USE1 : Fld := ⟨0x14C, 16, 1, true⟩
abbrev UART_RS485_CFG_EN : Fld := ⟨0x150, 0, 1, true⟩
abbrev UART_RS485_CFG_ECHO_SUPPRESS : Fld := ⟨0x150, 1, 1, true⟩
abbrev UART_RS485_CFG_DE_LEAD : Fld := ⟨0x150, 8, 8, true⟩
abbrev UART_RS485_CFG_DE_LAG : Fld := ⟨0x150, 16, 8, true⟩
abbrev UART_RS485_CFG_TURN_GAP : Fld := ⟨0x150, 24, 8, true⟩
abbrev UART_UART_STATUS_RX : Fld := ⟨0x154, 0, 1, false⟩
abbrev UART_UART_STATUS_TX : Fld := ⟨0x154, 1, 1, false⟩
abbrev UART_UART_STATUS_DE : Fld := ⟨0x154, 2, 1, false⟩
abbrev UART_UART_STATUS_CLK_SAFE : Fld := ⟨0x154, 3, 1, false⟩

/-! Fields of PULSE. -/
abbrev PULSE_PCFG_p_EN : Fld := ⟨0x140, 0, 1, true⟩
abbrev PULSE_PCFG_p_EDGE : Fld := ⟨0x140, 1, 1, true⟩
abbrev PULSE_PCFG_p_FILTER : Fld := ⟨0x140, 8, 8, true⟩
abbrev PULSE_PCFG_p_STOP_MS : Fld := ⟨0x140, 16, 16, true⟩
abbrev PULSE_COUNT_p_HI_V : Fld := ⟨0x148, 0, 16, false⟩
abbrev PULSE_PSTATUS_p_MOVING : Fld := ⟨0x154, 0, 1, false⟩
abbrev PULSE_PSTATUS_p_PRESET : Fld := ⟨0x154, 4, 2, false⟩
abbrev PULSE_PRESET_p_HI_V : Fld := ⟨0x15C, 0, 16, false⟩
abbrev PULSE_PCMD_P : Fld := ⟨0x1C0, 0, 4, false⟩

/-! Fields of HOST. -/
abbrev HOST_PCIE_STATUS_WIDTH : Fld := ⟨0x140, 0, 4, false⟩
abbrev HOST_PCIE_STATUS_SPEED : Fld := ⟨0x140, 4, 4, false⟩
abbrev HOST_PCIE_STATUS_LINK_UP : Fld := ⟨0x140, 8, 1, false⟩
abbrev HOST_PCIE_STATUS_BME : Fld := ⟨0x140, 9, 1, false⟩
abbrev HOST_PCIE_STATUS_MSIX_EN : Fld := ⟨0x140, 10, 1, false⟩
abbrev HOST_PCIE_STATUS_FUNC_MASK : Fld := ⟨0x140, 11, 1, false⟩
abbrev HOST_PCIE_STATUS_D3HOT : Fld := ⟨0x140, 12, 1, false⟩
abbrev HOST_HOST_CFG_FENCE_TMO_US : Fld := ⟨0x144, 0, 16, false⟩
abbrev HOST_HOST_CFG_CAP_EN : Fld := ⟨0x144, 16, 1, false⟩
abbrev HOST_BRG_FENCE_FAILED : Fld := ⟨0x148, 0, 16, false⟩
abbrev HOST_BRG_FENCE_OUTSTANDING : Fld := ⟨0x148, 16, 8, false⟩
abbrev HOST_BRG_FENCE_TIMEOUT : Fld := ⟨0x148, 31, 1, false⟩
abbrev HOST_BRG_WSEQ_SEQ : Fld := ⟨0x14C, 0, 32, false⟩
abbrev HOST_PEL_HEAD0_ADDR : Fld := ⟨0x160, 0, 26, false⟩
abbrev HOST_PEL_HEAD1_DATA : Fld := ⟨0x164, 0, 32, false⟩
abbrev HOST_PEL_HEAD2_CAUSE : Fld := ⟨0x168, 0, 4, false⟩
abbrev HOST_PEL_HEAD2_VALID : Fld := ⟨0x168, 4, 1, false⟩
abbrev HOST_PEL_HEAD2_REQUESTER : Fld := ⟨0x168, 8, 4, false⟩
abbrev HOST_PEL_HEAD2_SEQ : Fld := ⟨0x168, 16, 16, false⟩
abbrev HOST_PEL_HEAD3_WSEQ : Fld := ⟨0x16C, 0, 32, false⟩
abbrev HOST_PEL_ACK_SEQ : Fld := ⟨0x170, 0, 16, false⟩
abbrev HOST_PEL_STATUS_N : Fld := ⟨0x174, 0, 5, false⟩

/-! Fields of DMA. -/
abbrev DMA_HOLD_STATUS_FRAMES : Fld := ⟨0x144, 0, 11, false⟩
abbrev DMA_HOLD_STATUS_BYTES64 : Fld := ⟨0x144, 16, 16, false⟩
abbrev DMA_RBASE_LO_V : Fld := ⟨0x200, 12, 20, true⟩
abbrev DMA_RBASE_HI_V : Fld := ⟨0x204, 0, 16, true⟩
abbrev DMA_RCFG_SIZE : Fld := ⟨0x208, 0, 13, true⟩
abbrev DMA_RCFG_CTX : Fld := ⟨0x208, 16, 2, true⟩
abbrev DMA_RCFG_XLT_EN : Fld := ⟨0x208, 18, 1, true⟩
abbrev DMA_RCFG_EXPRESS : Fld := ⟨0x208, 19, 1, true⟩
abbrev DMA_RCFG_VECTOR : Fld := ⟨0x208, 20, 6, true⟩
abbrev DMA_RCFG_IRQ_EN : Fld := ⟨0x208, 26, 1, true⟩
abbrev DMA_RCFG_USER_DB : Fld := ⟨0x208, 27, 1, true⟩
abbrev DMA_RMOD_ITR_US : Fld := ⟨0x20C, 0, 12, true⟩
abbrev DMA_RMOD_FRAMES : Fld := ⟨0x20C, 12, 8, true⟩
abbrev DMA_RMOD_BUF : Fld := ⟨0x20C, 20, 8, true⟩
abbrev DMA_RMOD_HOLD_QUOTA : Fld := ⟨0x20C, 28, 4, true⟩
abbrev DMA_RHEAD_V : Fld := ⟨0x210, 0, 13, false⟩
abbrev DMA_RTAIL_V : Fld := ⟨0x214, 0, 13, false⟩
abbrev DMA_RSTATUS_STATE : Fld := ⟨0x218, 0, 2, false⟩
abbrev DMA_RSTATUS_FAULT_CAUSE : Fld := ⟨0x218, 8, 4, false⟩
abbrev DMA_RSTATUS_HELD : Fld := ⟨0x218, 16, 13, false⟩
abbrev DMA_RCMD_CMD : Fld := ⟨0x21C, 0, 2, false⟩
abbrev DMA_RCMD_DISCARD_HELD : Fld := ⟨0x21C, 8, 1, false⟩

/-! Fields of DXLT. -/
abbrev DXLT_CTX_c_L1_LO_V : Fld := ⟨0x140, 21, 11, true⟩
abbrev DXLT_CTX_c_L1_HI_V : Fld := ⟨0x144, 0, 16, true⟩
abbrev DXLT_CTX_c_CFG_WINDOW : Fld := ⟨0x148, 0, 9, true⟩
abbrev DXLT_CTX_c_CFG_EN : Fld := ⟨0x148, 16, 1, true⟩
abbrev DXLT_INV_CMD_SCOPE : Fld := ⟨0x180, 0, 2, false⟩
abbrev DXLT_INV_CMD_CTX : Fld := ⟨0x180, 4, 2, false⟩
abbrev DXLT_INV_CMD_START : Fld := ⟨0x180, 31, 1, false⟩
abbrev DXLT_INV_ADDR_LO_V : Fld := ⟨0x184, 12, 20, false⟩
abbrev DXLT_INV_ADDR_HI_V : Fld := ⟨0x188, 0, 16, false⟩
abbrev DXLT_INV_PAGES_N : Fld := ⟨0x18C, 0, 19, false⟩
abbrev DXLT_INV_STATUS_BUSY : Fld := ⟨0x190, 0, 1, false⟩
abbrev DXLT_INV_STATUS_SEQ : Fld := ⟨0x190, 16, 16, false⟩

/-! Fields of QSPIS. -/
abbrev QSPIS_QS_CFG_DUMMY : Fld := ⟨0x140, 0, 4, true⟩
abbrev QSPIS_QS_CFG_INT_EN : Fld := ⟨0x140, 8, 1, true⟩
abbrev QSPIS_QS_CFG_INT_PUSHPULL : Fld := ⟨0x140, 9, 1, true⟩
abbrev QSPIS_QS_STATUS_CS_LOW : Fld := ⟨0x144, 0, 1, false⟩
abbrev QSPIS_QS_STATUS_CRC_FAIL : Fld := ⟨0x144, 1, 1, false⟩

/-! Fields of TENON. -/
abbrev TENON_TL_CFG_RETRY_LIMIT : Fld := ⟨0x140, 0, 4, true⟩
abbrev TENON_TL_CFG_TX_PRESET : Fld := ⟨0x140, 4, 4, true⟩
abbrev TENON_TL_CFG_LOOPBACK : Fld := ⟨0x140, 8, 1, true⟩
abbrev TENON_LAT_ASYM_PS : Fld := ⟨0x144, 0, 16, true⟩
abbrev TENON_TL_STATUS_STATE : Fld := ⟨0x148, 0, 2, false⟩
abbrev TENON_TL_STATUS_PEER_RING_ID : Fld := ⟨0x148, 4, 2, false⟩
abbrev TENON_TL_STATUS_PEER_VALID : Fld := ⟨0x148, 6, 1, false⟩
abbrev TENON_TL_STATUS_LANES : Fld := ⟨0x148, 8, 4, false⟩
abbrev TENON_TL_STATUS_LANE_REVERSED : Fld := ⟨0x148, 12, 1, false⟩
abbrev TENON_LINK_LAT_PS : Fld := ⟨0x14C, 0, 20, false⟩
abbrev TENON_TL_CMD_CMD : Fld := ⟨0x150, 0, 2, false⟩
abbrev TENON_CREDIT_STATUS_WAITING : Fld := ⟨0x154, 0, 8, false⟩

/-! Fields of TRING. -/
abbrev TRING_RING_CFG_SIZE : Fld := ⟨0x140, 0, 3, true⟩
abbrev TRING_RING_CFG_TIME_LINK : Fld := ⟨0x140, 8, 2, true⟩
abbrev TRING_DOMAIN_CFG_DEVICE_ID : Fld := ⟨0x144, 0, 10, true⟩
abbrev TRING_DOMAIN_CFG_ID_VALID : Fld := ⟨0x144, 16, 1, true⟩
abbrev TRING_EHRUZ_CFG_ETYPE : Fld := ⟨0x148, 0, 16, true⟩
abbrev TRING_EHRUZ_CFG_EN : Fld := ⟨0x148, 16, 1, true⟩
abbrev TRING_EHRUZ_CFG_OPEN : Fld := ⟨0x148, 17, 1, true⟩
abbrev TRING_EHRUZ_PORTS_PORTS : Fld := ⟨0x14C, 0, 30, true⟩
abbrev TRING_RING_STATUS_PRESENT : Fld := ⟨0x150, 0, 4, false⟩
abbrev TRING_RING_STATUS_TOPOLOGY : Fld := ⟨0x150, 4, 2, false⟩
abbrev TRING_RING_STATUS_ID_CONFLICT : Fld := ⟨0x150, 8, 1, false⟩
abbrev TRING_RING_STATUS_INCOMPLETE : Fld := ⟨0x150, 9, 1, false⟩
abbrev TRING_RING_STATUS_CHANGES : Fld := ⟨0x150, 16, 8, false⟩
abbrev TRING_ROUTE_STATUS_PATH0 : Fld := ⟨0x154, 0, 2, false⟩
abbrev TRING_ROUTE_STATUS_PATH1 : Fld := ⟨0x154, 2, 2, false⟩
abbrev TRING_ROUTE_STATUS_PATH2 : Fld := ⟨0x154, 4, 2, false⟩
abbrev TRING_ROUTE_STATUS_PATH3 : Fld := ⟨0x154, 6, 2, false⟩

end F

namespace E

/-! Event bits of `EVT_RAW`, by page. -/

abbrev COMMIT_DONE : Nat := 0
abbrev COMMIT_REJECT : Nat := 1
abbrev ACCESS_ERR : Nat := 2
abbrev TBL_DONE : Nat := 3
abbrev SNAP_DONE : Nat := 4
abbrev CLK_XTAL_FAIL : Nat := 8
abbrev CLK_XTAL_BACK : Nat := 9
abbrev CLK_HFRC_FAIL : Nat := 10
abbrev CLK_PLL_LOSS : Nat := 11
abbrev CLK_PLL_RELOCK : Nat := 12
abbrev CLK_GCLK_SW_FORCED : Nat := 13
abbrev CLK_TRIM_LOST : Nat := 14
abbrev PWR_MODE_CHANGE : Nat := 8
abbrev PWR_LIMP : Nat := 9
abbrev PWR_QUARANTINE : Nat := 10
abbrev PWR_PF : Nat := 11
abbrev RST_XING_FLUSH : Nat := 8
abbrev RST_WDT_WARN : Nat := 9
abbrev AON_RTC_ALARM : Nat := 8
abbrev AON_WAKE_FAIL : Nat := 9
abbrev XMEM_FL_DONE : Nat := 8
abbrev XMEM_FL_ERR : Nat := 9
abbrev BOOT_SLOT_ALT : Nat := 8
abbrev BOOT_SETTINGS_FALLBACK : Nat := 9
abbrev BOOT_FALLBACK_FAIL : Nat := 10
abbrev BOOT_OTP_DONE : Nat := 11
abbrev UPD_VERIFY_DONE : Nat := 8
abbrev UPD_PREP_READY : Nat := 9
abbrev UPD_ACTIVATED : Nat := 10
abbrev UPD_ACT_FAIL : Nat := 11
abbrev UPD_REVERTED : Nat := 12
abbrev UPD_CONFIRMED : Nat := 13
abbrev UPD_BURN_DONE : Nat := 14
abbrev PRISIL_ROOT_FAIL : Nat := 8
abbrev PRISIL_HELPER_COPY_BAD : Nat := 9
abbrev PRISIL_SLOT_FAULT : Nat := 10
abbrev PRISIL_PUF_MARGIN : Nat := 11
abbrev PRISIL_GLITCH : Nat := 12
abbrev PRISIL_CMD_DONE : Nat := 13
abbrev TRESTLE_FW_STOPPED : Nat := 8
abbrev TRESTLE_FW_RESUMED : Nat := 9
abbrev TRESTLE_MISMATCH : Nat := 10
abbrev TRESTLE_CHECKER_FAULT : Nat := 11
abbrev TRESTLE_TR_MODE : Nat := 12
abbrev TRESTLE_SPLIT_DONE : Nat := 13
abbrev TRESTLE_REJOIN_DONE : Nat := 14
abbrev TRESTLE_MBX_RSP : Nat := 15
abbrev TRESTLE_MLOG_LOST : Nat := 16
abbrev PERF_OVERFLOW : Nat := 8
abbrev WEAR_LIFE_5Y : Nat := 8
abbrev WEAR_LIFE_1Y : Nat := 9
abbrev WEAR_EST_DONE : Nat := 10
abbrev WEAR_OTP_LOW : Nat := 11
abbrev EVIO_ILOG : Nat := 8
abbrev EVIO_ILOG_LOST : Nat := 9
abbrev TIME_INVALID : Nat := 8
abbrev TIME_STEP_DONE : Nat := 9
abbrev TIME_STEP_REFUSED : Nat := 10
abbrev TIME_HOLDOVER : Nat := 11
abbrev TIME_HOLDOVER_LONG : Nat := 12
abbrev TIME_PPS_IN : Nat := 13
abbrev TIME_RATE_REFUSED : Nat := 14
abbrev TIME_TRACKING : Nat := 15
abbrev GPTP_GM_CHANGE : Nat := 8
abbrev GPTP_SYNC_TIMEOUT : Nat := 9
abbrev GPTP_OFFSET_ALARM : Nat := 10
abbrev STORY_ONESHOT_PAST : Nat := 8
abbrev STORY_ONESHOT_TIME_INVALID : Nat := 9
abbrev STORY_RELEASE_PAST : Nat := 10
abbrev STORY_RLOG : Nat := 11
abbrev STORY_REPORT_LOST : Nat := 12
abbrev STORY_LIST_SWAP : Nat := 13
abbrev STORY_MARK : Nat := 14
abbrev STORY_GATE_DEADLINE : Nat := 15
abbrev STORY_TBL_ENTRY_GUARDED : Nat := 8
abbrev CINCH_TRIP : Nat := 8
abbrev CINCH_MASS_EMIT : Nat := 9
abbrev FAB_FABRIC_CLOCK_LOSS : Nat := 8
abbrev FAB_REBUILD_DONE : Nat := 9
abbrev BUF_ECC_UNCORR : Nat := 8
abbrev SPILL_TRAIN_DONE : Nat := 8
abbrev SPILL_TRAIN_FAIL : Nat := 9
abbrev SPILL_ECC_UNCORR : Nat := 10
abbrev SPILL_SPILL_FULL : Nat := 11
abbrev RSEQ_LOST : Nat := 8
abbrev RSEQ_WINDOW_FULL : Nat := 9
abbrev FDB_LEARN_FULL : Nat := 8
abbrev FDB_STATION_MOVE : Nat := 9
abbrev FDB_FLUSH_DONE : Nat := 10
abbrev FRER_LATENT_ERR : Nat := 8
abbrev FRER_MEMBER_FAIL : Nat := 9
abbrev FRER_MEMBER_RETURN : Nat := 10
abbrev FRER_HOLD_FULL : Nat := 11
abbrev FRER_RECOV_RESET : Nat := 12
abbrev BRIDLE_TP_CUT : Nat := 8
abbrev BRIDLE_TP_FULL : Nat := 9
abbrev BRIDLE_MIRROR_DROP : Nat := 10
abbrev UNITS_UNIT_DEAD : Nat := 8
abbrev UNITS_UNIT_RETURNED : Nat := 9
abbrev UNITS_CLAIM_CONFLICT : Nat := 10
abbrev UNITS_UNIT_SUSPECT : Nat := 11
abbrev UNITS_UNIT_REVIVED : Nat := 12
abbrev UNITS_UNIT_REPLACED : Nat := 13
abbrev MACSEC_PN_NEAR : Nat := 8
abbrev MACSEC_KEY_DONE : Nat := 9
abbrev PORT_LINK_UP : Nat := 8
abbrev PORT_LINK_DOWN : Nat := 9
abbrev PORT_RESUME_FAIL : Nat := 10
abbrev PORT_SLEEP_DONE : Nat := 11
abbrev PORT_WAKE_RX : Nat := 12
abbrev PORT_SLEEP_REJECT : Nat := 13
abbrev PORT_LB_REJECT : Nat := 14
abbrev PORT_VERIFY_FAIL : Nat := 15
abbrev PORT_BEACON_LOSS : Nat := 16
abbrev PORT_TRAIN_FAIL : Nat := 17
abbrev PHY_CABLE_DIAG_DONE : Nat := 8
abbrev GW_GCLK_LOSS : Nat := 8
abbrev GW_INQ_FULL : Nat := 9
abbrev GW_SIGNAL_STALE : Nat := 10
abbrev GW_NIU_CLAIM : Nat := 11
abbrev CAN_ERR_WARN : Nat := 8
abbrev CAN_ERR_PASSIVE : Nat := 9
abbrev CAN_BUS_OFF : Nat := 10
abbrev CAN_RECOVERED : Nat := 11
abbrev PULSE_PRESET_REFUSED : Nat := 8
abbrev HOST_POSTED_FAIL : Nat := 8
abbrev HOST_PEL_OVERFLOW : Nat := 9
abbrev HOST_PCIE_RESET : Nat := 10
abbrev DMA_RING_HALT : Nat := 8
abbrev DMA_BAD_DOORBELL : Nat := 9
abbrev TENON_LINK_UP : Nat := 8
abbrev TENON_LINK_DOWN : Nat := 9
abbrev TENON_RETRY_FAIL : Nat := 10
abbrev TRING_RING_CHANGE : Nat := 8
abbrev TRING_PEER_RESET : Nat := 9
abbrev TRING_ID_CONFLICT : Nat := 10
abbrev TRING_EHRUZ_REJECT : Nat := 11

end E

end Sys2Proof.Machine

namespace Sys2Proof.Machine.K

/-! Numbers of the 48-bit counters of each page, as the page chapters list them. -/

abbrev FAB_FABRIC_CLOCK_LOSS : Nat := 0
abbrev FAB_FAB_DOWN_DROP : Nat := 1
abbrev FAB_FAB_CLK_DISCARD : Nat := 2
abbrev FAB_CT_COPIES : Nat := 3
abbrev BUF_DT_DROP : Nat := 0
abbrev BUF_HELD_CAP_DROP : Nat := 1
abbrev BUF_BUF_ECC_CORR : Nat := 2
abbrev BUF_BUF_ECC_DROP : Nat := 3
abbrev SPILL_SPILLED_FRAMES : Nat := 0
abbrev SPILL_SPILL_BYTES : Nat := 1
abbrev SPILL_SPILL_RATE_DROP : Nat := 2
abbrev SPILL_SPILL_FULL_DROP : Nat := 3
abbrev SPILL_SPILL_ECC_CORR : Nat := 4
abbrev SPILL_SPILL_ECC_DROP : Nat := 5
abbrev RSEQ_RSEQ_LOST : Nat := 0
abbrev RSEQ_RSEQ_LATE : Nat := 1
abbrev RSEQ_RSEQ_WINDOW_FULL : Nat := 2
abbrev RSEQ_RSEQ_HELD : Nat := 3
abbrev FDB_LEARNED : Nat := 0
abbrev FDB_LEARN_FULL : Nat := 1
abbrev FDB_STATION_MOVE : Nat := 2
abbrev FDB_AGED_OUT : Nat := 3
abbrev FDB_FLOODED : Nat := 4
abbrev FDB_FILTERED : Nat := 5
abbrev FDB_VLAN_DROP : Nat := 6
abbrev FDB_BYPASS_DROP : Nat := 7
abbrev TIME_STEP_ACCEPTED : Nat := 0
abbrev TIME_STEP_LOCKED : Nat := 1
abbrev TIME_NOT_SOURCE : Nat := 2
abbrev TIME_INVALIDATED : Nat := 3
abbrev TIME_RATE_RANGE : Nat := 4
abbrev TIME_PPS_IN_EDGES : Nat := 5
abbrev TIME_HOLDOVER_ENTRIES : Nat := 6
abbrev TIME_PTP_NO_INSTANCE : Nat := 7
abbrev GPTP_SYNC_RX : Nat := 0
abbrev GPTP_SYNC_TX : Nat := 1
abbrev GPTP_FOLLOW_UP_RX : Nat := 2
abbrev GPTP_ANNOUNCE_RX : Nat := 3
abbrev GPTP_ANNOUNCE_TX : Nat := 4
abbrev GPTP_SYNC_RX_TIMEOUT : Nat := 5
abbrev GPTP_PDELAY_FAIL : Nat := 6
abbrev GPTP_GM_CHANGE : Nat := 7
abbrev STORY_ONESHOT_DONE : Nat := 0
abbrev STORY_ONESHOT_LATE : Nat := 1
abbrev STORY_ONESHOT_PAST : Nat := 2
abbrev STORY_ONESHOT_TIME_INVALID : Nat := 3
abbrev STORY_ONESHOT_ABORTED : Nat := 4
abbrev STORY_RELEASED : Nat := 5
abbrev STORY_RELEASE_LATE : Nat := 6
abbrev STORY_RELEASE_PAST : Nat := 7
abbrev STORY_RELEASE_FAR : Nat := 8
abbrev STORY_RELEASE_FULL : Nat := 9
abbrev STORY_RELEASE_INVALID : Nat := 10
abbrev STORY_REPORT_LOST : Nat := 11
abbrev STORY_GATE_DEADLINE_DROP : Nat := 12
abbrev STORY_DIST_LATE : Nat := 13
abbrev CINCH_TRIPS : Nat := 0
abbrev CINCH_SAFE_SENT : Nat := 1
abbrev CINCH_SAFE_DROP : Nat := 2
abbrev CINCH_MASS_EMITS : Nat := 3
abbrev FRER_FRER_DISCARD : Nat := 0
abbrev FRER_FRER_LOST : Nat := 1
abbrev FRER_FRER_ROGUE : Nat := 2
abbrev FRER_HOLD_RELEASE : Nat := 3
abbrev FRER_HOLD_FULL_DROP : Nat := 4
abbrev FRER_TAGLESS_DROP : Nat := 5
abbrev FRER_LATENT_ERR : Nat := 6
abbrev FRER_TAG_OVERSIZE : Nat := 7
abbrev FRER_MEMBER_FAILS : Nat := 8
abbrev BRIDLE_BRIDLE_DROP_IN : Nat := 0
abbrev BRIDLE_BRIDLE_DROP_OUT : Nat := 1
abbrev BRIDLE_DEFAULT_DROP : Nat := 2
abbrev BRIDLE_POLICER_DROP : Nat := 3
abbrev BRIDLE_WINDOW_DROP : Nat := 4
abbrev BRIDLE_TP_CUT : Nat := 5
abbrev BRIDLE_TP_DROP : Nat := 6
abbrev BRIDLE_TP_FULL : Nat := 7
abbrev BRIDLE_TP_TIMEOUT : Nat := 8
abbrev BRIDLE_TP_ABORT_SENT : Nat := 9
abbrev BRIDLE_MIRRORED : Nat := 10
abbrev BRIDLE_MIRROR_DROP : Nat := 11
abbrev UNITS_FENCED_DROP : Nat := 0
abbrev UNITS_CLAIM_FENCED : Nat := 1
abbrev UNITS_CLAIM_CONFLICT : Nat := 2
abbrev UNITS_UNIT_RETURNED : Nat := 3
abbrev UNITS_UNIT_DEAD : Nat := 4
abbrev UNITS_UNIT_REPLACED : Nat := 5
abbrev GW_NO_ROUTE_ETH : Nat := 0
abbrev GW_ROUTE_OVERFLOW : Nat := 1
abbrev GW_INQ_FULL : Nat := 2
abbrev GW_SENTRY_BLOCK : Nat := 3
abbrev GW_NO_EFFECT_TIME : Nat := 4
abbrev GW_ACF_MALFORMED : Nat := 5
abbrev GW_FORMAT_DROP : Nat := 6
abbrev GW_NIU_DA_UNKNOWN : Nat := 7
abbrev GW_NIU_FILTERED : Nat := 8
abbrev GW_CLK_SAFE_ENTRIES : Nat := 9
abbrev GW_SIGNAL_STALE : Nat := 10
abbrev GW_GAP_DEFERRED : Nat := 11
abbrev CAN_RX_FRAMES : Nat := 0
abbrev CAN_TX_FRAMES : Nat := 1
abbrev CAN_BIT_ERR : Nat := 2
abbrev CAN_STUFF_ERR : Nat := 3
abbrev CAN_FORM_ERR : Nat := 4
abbrev CAN_ACK_ERR : Nat := 5
abbrev CAN_CRC_ERR : Nat := 6
abbrev CAN_ARB_LOST : Nat := 7
abbrev CAN_BUS_OFF : Nat := 8
abbrev CAN_NO_ROUTE : Nat := 9
abbrev CAN_FENCED_DROP : Nat := 10
abbrev CAN_BRIDLE_DROP_IN : Nat := 11
abbrev CAN_BRIDLE_DROP_OUT : Nat := 12
abbrev CAN_MODE_DROP : Nat := 13
abbrev CAN_PARTIAL_DELIVERY : Nat := 14
abbrev CAN_TX_STALE : Nat := 15
abbrev CAN_TX_FULL_DROP : Nat := 16
abbrev CAN_TX_BUSOFF_DROP : Nat := 17
abbrev CAN_TX_RETRY_DROP : Nat := 18
abbrev CAN_CLK_SAFE_DROP : Nat := 19
abbrev LIN_RX_FRAMES : Nat := 0
abbrev LIN_TX_FRAMES : Nat := 1
abbrev LIN_CHECKSUM_ERR : Nat := 2
abbrev LIN_NO_RESPONSE : Nat := 3
abbrev LIN_BIT_ERR : Nat := 4
abbrev LIN_FRAMING_ERR : Nat := 5
abbrev LIN_PID_ERR : Nat := 6
abbrev LIN_SYNC_ERR : Nat := 7
abbrev LIN_EVENT_COLLISION : Nat := 8
abbrev LIN_NO_DATA : Nat := 9
abbrev LIN_BRIDLE_DROP_IN : Nat := 10
abbrev LIN_BRIDLE_DROP_OUT : Nat := 11
abbrev LIN_MODE_DROP : Nat := 12
abbrev LIN_CLK_SAFE_DROP : Nat := 13
abbrev LIN_NO_ROUTE : Nat := 14
abbrev LIN_PARTIAL_DELIVERY : Nat := 15
abbrev LIN_TX_FULL_DROP : Nat := 16
abbrev UART_RX_MSGS : Nat := 0
abbrev UART_TX_MSGS : Nat := 1
abbrev UART_PARITY_ERR : Nat := 2
abbrev UART_FRAMING_ERR : Nat := 3
abbrev UART_OVERSIZE : Nat := 4
abbrev UART_PARTIAL : Nat := 5
abbrev UART_BRIDLE_DROP_IN : Nat := 6
abbrev UART_BRIDLE_DROP_OUT : Nat := 7
abbrev UART_MODE_DROP : Nat := 8
abbrev UART_CLK_SAFE_DROP : Nat := 9
abbrev UART_TX_FULL_DROP : Nat := 10
abbrev UART_NO_ROUTE : Nat := 11
abbrev UART_PARTIAL_DELIVERY : Nat := 12
abbrev HOST_POSTED_FAIL : Nat := 0
abbrev HOST_PEL_OVERFLOW : Nat := 1
abbrev HOST_UR_READS : Nat := 2
abbrev HOST_FENCE_TIMEOUT : Nat := 3
abbrev HOST_MSIX_SENT : Nat := 4
abbrev HOST_BAD_ACCESS : Nat := 5
abbrev DMA_TX_FRAMES : Nat := 0
abbrev DMA_TX_BYTES : Nat := 1
abbrev DMA_RX_FRAMES : Nat := 2
abbrev DMA_RX_BYTES : Nat := 3
abbrev DMA_DMA_FAULTS : Nat := 4
abbrev DMA_RING_HALT_DROP : Nat := 5
abbrev DMA_RX_RING_OFF_DROP : Nat := 6
abbrev DMA_LT_IGNORED : Nat := 7
abbrev DMA_TOO_LONG : Nat := 8
abbrev DMA_PREEMPTIONS : Nat := 9
abbrev DMA_TX_MALFORMED : Nat := 10
abbrev DXLT_TLB_HIT : Nat := 0
abbrev DXLT_TLB_MISS : Nat := 1
abbrev DXLT_WALKS : Nat := 2
abbrev DXLT_FAULTS : Nat := 3
abbrev DXLT_INVALIDATIONS : Nat := 4
abbrev DXLT_FLT_LOST : Nat := 5
abbrev QSPIS_QS_WRITES : Nat := 0
abbrev QSPIS_QS_READS : Nat := 1
abbrev QSPIS_CMD_CRC_ERR : Nat := 2
abbrev QSPIS_WR_CRC_ERR : Nat := 3
abbrev QSPIS_BAD_CMD : Nat := 4
abbrev QSPIS_UR_READS : Nat := 5
abbrev TENON_FLITS_TX : Nat := 0
abbrev TENON_FLITS_RX : Nat := 1
abbrev TENON_CRC_ERR : Nat := 2
abbrev TENON_REPLAYS : Nat := 3
abbrev TENON_RETRY_FAIL : Nat := 4
abbrev TENON_LINK_DOWN : Nat := 5
abbrev TENON_ABORTS_TX : Nat := 6
abbrev TENON_CREDIT_STALL_US : Nat := 7
abbrev TRING_REMOTE_RD : Nat := 0
abbrev TRING_REMOTE_WR : Nat := 1
abbrev TRING_REMOTE_FAIL : Nat := 2
abbrev TRING_RELAYED : Nat := 3
abbrev TRING_EHRUZ_RX : Nat := 4
abbrev TRING_EHRUZ_TX : Nat := 5
abbrev TRING_EHRUZ_REJECT : Nat := 6
abbrev TRING_ID_CONFLICT : Nat := 7
abbrev CLK_XTAL_FAIL : Nat := 0
abbrev CLK_XTAL_START_RETRY : Nat := 1
abbrev CLK_HFRC_FAIL : Nat := 2
abbrev CLK_PLL_C_LOSS : Nat := 3
abbrev CLK_PLL_S_LOSS : Nat := 4
abbrev CLK_PLL_G_LOSS : Nat := 5
abbrev CLK_PLL_P_LOSS : Nat := 6
abbrev CLK_PLL_D_LOSS : Nat := 7
abbrev CLK_PLL_T_LOSS : Nat := 8
abbrev CLK_SWITCHES : Nat := 9
abbrev CLK_GCLK_SW_FORCED : Nat := 10
abbrev CLK_TRIM_LOST : Nat := 11
abbrev RST_XING_FLUSHES : Nat := 0
abbrev RST_XING_DROP : Nat := 1
abbrev RST_WDT_BAD_KICK : Nat := 2
abbrev RST_DOM_RESETS : Nat := 3
abbrev PWR_MODE_CHANGES : Nat := 0
abbrev PWR_DORMANT_ENTRIES : Nat := 1
abbrev PWR_SENTRY_ENTRIES : Nat := 2
abbrev PWR_LIMP_ENTRIES : Nat := 3
abbrev PWR_QUAR_ENTRIES : Nat := 4
abbrev PWR_ENTRY_FORCED : Nat := 5
abbrev PWR_WAKE_DURING_ENTRY : Nat := 6
abbrev PWR_PF_EVENTS : Nat := 7
abbrev XMEM_READS : Nat := 0
abbrev XMEM_PROGRAMS : Nat := 1
abbrev XMEM_ERASES : Nat := 2
abbrev XMEM_PROTECTED : Nat := 3
abbrev XMEM_PF_REFUSED : Nat := 4
abbrev XMEM_DEVICE_ERR : Nat := 5
abbrev TRESTLE_MISMATCHES : Nat := 0
abbrev TRESTLE_RESYNCS : Nat := 1
abbrev TRESTLE_DOUBLE_MISMATCH : Nat := 2
abbrev TRESTLE_CHECKER_FAULTS : Nat := 3
abbrev TRESTLE_WARM_RESTARTS : Nat := 4
abbrev TRESTLE_COLD_RESTARTS : Nat := 5
abbrev TRESTLE_AGREE_SELFTEST_FAIL : Nat := 6
abbrev TRESTLE_MEM_CORR : Nat := 7
abbrev TRESTLE_MEM_UNCORR : Nat := 8
abbrev TRESTLE_SPLITS : Nat := 9
abbrev TRESTLE_REJOINS : Nat := 10
abbrev TRESTLE_FW_STOPPED : Nat := 11
abbrev TRESTLE_HELD_DISCARDED : Nat := 12
abbrev TRESTLE_SPARE_VIOLATION : Nat := 13
abbrev TRESTLE_MBX_BUSY : Nat := 14
abbrev PRISIL_DERIVES : Nat := 0
abbrev PRISIL_SEALS : Nat := 1
abbrev PRISIL_UNSEAL_TAG_FAIL : Nat := 2
abbrev PRISIL_POLICY_REFUSED : Nat := 3
abbrev PRISIL_SHARE_FAULT : Nat := 4
abbrev PRISIL_CHECK_FAIL : Nat := 5
abbrev PRISIL_GLITCH : Nat := 6
abbrev PRISIL_ROOT_RETRY : Nat := 7
abbrev UPD_VERIFY_OK : Nat := 0
abbrev UPD_VERIFY_FAIL : Nat := 1
abbrev UPD_ACTIVATIONS : Nat := 2
abbrev UPD_ACT_FAILED : Nat := 3
abbrev UPD_CONFIRMS : Nat := 4
abbrev UPD_REVERTS : Nat := 5
abbrev UPD_BURNS : Nat := 6
abbrev UPD_BURN_RESUMED : Nat := 7
abbrev PORT_RX_ERR : Nat := 0
abbrev PORT_RX_FCS_ERR : Nat := 1
abbrev PORT_RX_RUNT : Nat := 2
abbrev PORT_RX_OVERSIZE : Nat := 3
abbrev PORT_MACSEC_RX_DROP : Nat := 4
abbrev PORT_PAUSE_RX : Nat := 5
abbrev PORT_STOMPED : Nat := 6
abbrev PORT_MC_COPY_DROP : Nat := 7
abbrev PORT_PARTIAL_DELIVERY : Nat := 8
abbrev PORT_FENCED_DROP : Nat := 9
abbrev PORT_BRIDLE_DROP_IN : Nat := 10
abbrev PORT_BRIDLE_DROP_OUT : Nat := 11
abbrev PORT_VLAN_DROP : Nat := 12
abbrev PORT_MODE_DROP : Nat := 13
abbrev PORT_LINK_DOWN_DROP : Nat := 14
abbrev PORT_LINK_DOWN : Nat := 15
abbrev PORT_RESUME_OK : Nat := 16
abbrev PORT_RESUME_FAIL : Nat := 17
abbrev PORT_TRAIN_FAIL : Nat := 18
abbrev PORT_SLEEP_REJECT : Nat := 19
abbrev PORT_PREEMPT_FRAG_TX : Nat := 20
abbrev PORT_PREEMPT_FRAG_RX : Nat := 21
abbrev PORT_PREEMPT_ASSY_ERR : Nat := 22
abbrev PORT_BEACON_LOSS : Nat := 23
abbrev PORT_RX_OCTETS : Nat := 32
abbrev PORT_RX_OCTETS_GOOD : Nat := 33
abbrev PORT_RX_FRAMES : Nat := 34
abbrev PORT_RX_FRAMES_GOOD : Nat := 35
abbrev PORT_RX_UNICAST : Nat := 36
abbrev PORT_RX_MULTICAST : Nat := 37
abbrev PORT_RX_BROADCAST : Nat := 38
abbrev PORT_RX_TAGGED : Nat := 39
abbrev PORT_RX_FRAGMENTS : Nat := 40
abbrev PORT_RX_JABBERS : Nat := 41
abbrev PORT_RX_PTP : Nat := 42
abbrev PORT_RX_EHRUZ : Nat := 43
abbrev PORT_TX_OCTETS : Nat := 44
abbrev PORT_TX_FRAMES : Nat := 45
abbrev PORT_TX_UNICAST : Nat := 46
abbrev PORT_TX_MULTICAST : Nat := 47
abbrev PORT_TX_BROADCAST : Nat := 48
abbrev PORT_TX_TAGGED : Nat := 49
abbrev PORT_TX_CUT_THROUGH : Nat := 50
abbrev PORT_TX_PREEMPTED : Nat := 51
abbrev PORT_TX_SAFE : Nat := 52
abbrev PORT_TX_TIMED : Nat := 53
abbrev PORT_TX_COLLISIONS : Nat := 54
abbrev PORT_TX_DEFERRED : Nat := 55
abbrev PORT_RX_BINS : Nat := 56
abbrev PORT_TX_BINS : Nat := 64
abbrev PORT_RX_CLASS : Nat := 72
abbrev PORT_TX_CLASS : Nat := 80
abbrev PORT_TX_CLASS_OCTETS : Nat := 88

end Sys2Proof.Machine.K

namespace Sys2Proof.Machine.E

abbrev LIN_WAKE_RX : Nat := 8
abbrev LIN_SLEEP_DONE : Nat := 9
abbrev LIN_SCHED_SWITCH : Nat := 10
abbrev DXLT_FAULT : Nat := 8
abbrev DXLT_INV_DONE : Nat := 9
abbrev DXLT_FLT_LOST : Nat := 10
abbrev QSPIS_CRC_ERR : Nat := 8
abbrev QSPIS_BAD_CMD : Nat := 9

end Sys2Proof.Machine.E
end

