-- ==== Sys2Proof/Machine/PageInfo.lean ====
section
/-! DEFINITION. What the page chapters say of each page as a whole: CAPS bits, the modes in which it is live, its tables,
its non-maskable events. -/
namespace Sys2Proof.Machine

open Sys2Proof

/-- The operating modes as `PWR.MODE_STATUS` encodes them (R339); 6 is DORMANT, which `PREV` and `MODE_CMD` encode. -/
abbrev modeBoot : Nat := 0
abbrev modeSentry : Nat := 1
abbrev modeRun : Nat := 2
abbrev modeLimp : Nat := 3
abbrev modeService : Nat := 4
abbrev modeQuarantine : Nat := 5
abbrev modeDormant : Nat := 6

/-- `CAPS.HAS_STAGED` (R36 and the page chapters). -/
def hasStaged (p : Page) : Bool :=
  match p.kind with
  | .sys | .storyTbl | .units | .host | .clk | .rst | .aon | .xmem | .boot | .prisil | .perf | .wear => false
  | .port => true
  | _ => true

/-- `CAPS.HAS_TABLE`. -/
def hasTable (p : Page) : Bool :=
  match p.kind with
  | .buf | .rseq | .fdb | .gptp | .story | .storyTbl | .cinch | .frer | .bridle | .units | .macsec | .gw | .lin | .pwr | .wear => true
  | _ => false

/-- `CAPS.HAS_SNAPSHOT`. -/
def hasSnap (p : Page) : Bool :=
  match p.kind with
  | .sys | .phy | .storyTbl | .aon | .boot => false
  | _ => true

/-- `CAPS.HAS_LOG`. -/
def hasLog (p : Page) : Bool :=
  match p.kind with
  | .story | .evio | .host | .dxlt | .trestle => true
  | _ => false

/-- The page's block runs in this mode (R31, R46, R447 and the liveness sentence of each page chapter). Where no chapter says
so, the page follows its block in R31 and R329 (DEDUCED, log entry 12). -/
def liveIn (p : Page) (mode : Nat) : Bool :=
  if mode = modeDormant then decide (p.kind = .aon) else
  match p.kind with
  | .fdb => decide (mode ≠ modeQuarantine)
  | .fab | .buf | .spill | .rseq => decide (mode ≠ modeSentry)
  | .story | .frer => decide (mode ≠ modeSentry ∧ mode ≠ modeQuarantine)
  | .storyTbl => decide (mode ≠ modeSentry)
  | .cinch => decide (mode ≠ modeSentry)
  | .pulse => decide (mode ≠ modeQuarantine)
  | .port | .phy => decide (mode ≠ modeSentry) || (decide (20 ≤ p.inst) && decide (p.inst < 28))
  | .dma | .dxlt | .tenon | .tring => decide (mode ≠ modeSentry)
  | _ => true

/-- The kinds of table (R55). -/
inductive TblKind where
  | staged | direct | readOnly
  deriving DecidableEq, Repr

/-- A table of a page: how many entries, of how many 256-bit parts, of which kind. -/
structure TblInfo where
  entries : Nat
  parts : Nat
  kind : TblKind
  deriving DecidableEq, Repr

/-- The tables of the pages, as the page chapters list them. -/
def tblInfo (p : Page) (t : Nat) : Option TblInfo :=
  match p.kind, t with
  | .buf, 0 => some ⟨256, 1, .staged⟩
  | .buf, 1 => some ⟨256, 1, .readOnly⟩
  | .rseq, 0 => some ⟨256, 1, .readOnly⟩
  | .fdb, 0 => some ⟨32768, 1, .direct⟩
  | .fdb, 1 => some ⟨4096, 1, .staged⟩
  | .fdb, 2 => some ⟨4096, 1, .staged⟩
  | .fdb, 3 => some ⟨32, 1, .staged⟩
  | .gptp, 0 => some ⟨20, 1, .readOnly⟩
  | .story, 0 => some ⟨64, 1, .staged⟩
  | .story, 1 => some ⟨256, 1, .staged⟩
  | .story, 2 => some ⟨36, 1, .staged⟩
  | .story, 3 => some ⟨64, 1, .readOnly⟩
  | .storyTbl, 0 => some ⟨16384, 1, .direct⟩
  | .storyTbl, 1 => some ⟨4096, 1, .direct⟩
  | .cinch, 0 => some ⟨512, 1, .direct⟩
  | .cinch, 1 => some ⟨2048, 5, .direct⟩
  | .frer, 0 => some ⟨1024, 1, .staged⟩
  | .frer, 1 => some ⟨2048, 1, .staged⟩
  | .frer, 2 => some ⟨1024, 3, .readOnly⟩
  | .frer, 3 => some ⟨2048, 1, .readOnly⟩
  | .bridle, 0 => some ⟨8192, 5, .staged⟩
  | .bridle, 1 => some ⟨16, 1, .staged⟩
  | .bridle, 2 => some ⟨60, 1, .staged⟩
  | .bridle, 3 => some ⟨4096, 1, .staged⟩
  | .bridle, 4 => some ⟨2048, 1, .staged⟩
  | .bridle, 5 => some ⟨256, 1, .staged⟩
  | .bridle, 6 => some ⟨8192, 1, .readOnly⟩
  | .bridle, 7 => some ⟨2048, 1, .readOnly⟩
  | .bridle, 8 => some ⟨512, 1, .readOnly⟩
  | .units, 0 => some ⟨1024, 1, .direct⟩
  | .units, 1 => some ⟨1024, 1, .readOnly⟩
  | .units, 2 => some ⟨4096, 1, .readOnly⟩
  | .macsec, 0 => some ⟨22, 1, .staged⟩
  | .macsec, 1 => some ⟨2816, 1, .staged⟩
  | .macsec, 2 => some ⟨682, 1, .staged⟩
  | .macsec, 3 => some ⟨22, 2, .readOnly⟩
  | .macsec, 4 => some ⟨2816, 1, .readOnly⟩
  | .gw, 0 => some ⟨8192, 1, .staged⟩
  | .gw, 1 => some ⟨256, 1, .staged⟩
  | .gw, 2 => some ⟨1024, 1, .staged⟩
  | .gw, 3 => some ⟨16384, 1, .staged⟩
  | .gw, 4 => some ⟨64, 1, .staged⟩
  | .gw, 5 => some ⟨2048, 1, .staged⟩
  | .gw, 6 => some ⟨8, 1, .staged⟩
  | .gw, 7 => some ⟨1024, 1, .staged⟩
  | .gw, 8 => some ⟨8192, 1, .readOnly⟩
  | .gw, 9 => some ⟨1024, 1, .readOnly⟩
  | .gw, 10 => some ⟨32, 1, .readOnly⟩
  | .lin, 0 => some ⟨64, 1, .staged⟩
  | .lin, 1 => some ⟨64, 1, .readOnly⟩
  | .pwr, 0 => some ⟨8, 1, .staged⟩
  | .wear, 0 => some ⟨24, 1, .readOnly⟩
  | .wear, 1 => some ⟨16, 1, .readOnly⟩
  | .wear, 2 => some ⟨8, 1, .readOnly⟩
  | _, _ => none

/-- The staged tables of a page. -/
def stagedTables (p : Page) : List Nat :=
  (List.range 11).filter fun t => match tblInfo p t with | some i => decide (i.kind = .staged) | none => false

/-- The `EVT_RAW` bits that the owning chapters declare non-maskable (R53): INVALID (R122), FW_STOPPED (R380), XTAL_FAIL and
HFRC_FAIL (R323), LIMP, QUARANTINE and PF (R339), ROOT_FAIL (R399). -/
def nmiMask (p : Page) : Nat :=
  match p.kind with
  | .time => 2 ^ E.TIME_INVALID
  | .trestle => 2 ^ E.TRESTLE_FW_STOPPED
  | .clk => 2 ^ E.CLK_XTAL_FAIL + 2 ^ E.CLK_HFRC_FAIL
  | .pwr => 2 ^ E.PWR_LIMP + 2 ^ E.PWR_QUARANTINE + 2 ^ E.PWR_PF
  | .prisil => 2 ^ E.PRISIL_ROOT_FAIL
  | _ => 0

/-- `CTRL.EN` at reset (R36). -/
def enAtReset (p : Page) : Bool :=
  match p.kind with
  | .sys | .clk | .pwr | .rst | .aon | .xmem | .boot => true
  | _ => false

/-- The row of a register table that an offset falls in. -/
def rowIn : List RegRow → Nat → Option RegRow
  | [], _ => none
  | r :: rs, off =>
    if off < r.off then rowIn rs off
    else
      let d := off - r.off
      if (if r.stride = 0 then decide (d = 0) else decide (d % r.stride = 0) && decide (d / r.stride < r.count)) then some r
      else rowIn rs off

/-- The offsets that are RSV on the T pages (R298) and on the H page (R280) of the PORT layout. -/
def portRsv (n off : Nat) : Bool :=
  if n < 28 then false
  else (decide (off = 0x148) || decide (off = 0x14C) || (decide (0x154 ≤ off) && decide (off ≤ 0x16C)) || decide (off = 0x170)
    || decide (off = 0x174))

/-- The latency registers of mode slots that the port kind lacks are RSV (R79, R83). -/
def phyRsv (n off : Nat) : Bool :=
  let slots := if n < 6 then 4 else if n < 20 then 2 else 1
  decide (0x180 + 8 * slots ≤ off) && decide (off < 0x1A0)

/-- The register at an offset of a page below 0x800: the header (R36), the window (R54) where the page has tables, the
snapshot control (R56) where it has counters, the page's own registers. -/
def regRow (p : Page) (off : Nat) : Option RegRow :=
  if off < 0x40 then rowIn rowsHeader off
  else if off < 0x130 then (if hasTable p then rowIn rowsWindow off else none)
  else if off < 0x140 then (if hasSnap p then rowIn rowsSnap off else none)
  else if decide (p.kind = .port) && portRsv p.inst off then none
  else if decide (p.kind = .phy) && phyRsv p.inst off then none
  else rowIn (ownRows p.kind) off

/-- The PHY latency constants in ps: receive and transmit of each mode slot (R79). -/
def phyLatency (n off : Nat) : Nat :=
  let l := if n < 6 then [612800, 388400, 1121600, 701200, 2139200, 1327600, 741600, 409200]
           else if n < 20 then [428000, 212400, 1036000, 556000] else [2410000, 1620000]
  l.getD ((off - 0x180) / 4) 0

/-- `PORT_KIND` (R80, R280, R298) and `PHY_KIND` (R83). -/
def portKind (n : Nat) : Nat :=
  (if n < 6 then 0 else if n < 8 then 1 else if n < 20 then 2 else if n < 28 then 3 else if n < 30 then 5 else 4) + 256 * n

/-- The value at reset of the register at `off` of page `p`: its row's, but where the tables give it per page. -/
def regReset (p : Page) (off : Nat) : Word :=
  let o := if off < 0x800 then off else off - 0x800
  let row : Word := match regRow p o with | some r => BitVec.ofNat 32 r.reset | none => 0
  if o = 0x000 then BitVec.ofNat 32 (pageType p * 65536 + p.inst * 256)
  else if o = 0x004 then 0x100
  else if o = 0x008 then BitVec.ofNat 32 ((if hasStaged p then 2 ^ 31 else 0) + (if hasTable p then 2 ^ 30 else 0)
    + (if hasSnap p then 2 ^ 29 else 0) + (if hasLog p then 2 ^ 28 else 0))
  else if o = 0x010 then (if enAtReset p then 1 else 0)
  else match p.kind with
    | .port =>
      if o = 0x140 then BitVec.ofNat 32 (portKind p.inst)
      else if o = 0x154 then (if p.inst = 6 ∨ p.inst = 7 ∨ p.inst ≥ 28 then 0 else row)
      else if o = 0x164 then (if 20 ≤ p.inst ∧ p.inst < 28 then row else 0)
      else row
    | .phy => if o = 0x140 then BitVec.ofNat 32 (portKind p.inst)
              else if 0x180 ≤ o ∧ o < 0x1A0 then BitVec.ofNat 32 (phyLatency p.inst o) else row
    | .gptp => if p.inst = 0 then row else if o = 0x140 then 0xF8F60000 else if o = 0x144 then 0 else row
    | .sys => if o = 0x140 then 0x964800B0 else row
    | .clk => if o = 0x140 then 0x107 else row
    | .host => if 0x400 ≤ o ∧ o < 0x800 ∧ (o - 0x400) % 16 = 12 then 1 else row
    | _ => row

end Sys2Proof.Machine
end

