-- ==== Sys2Proof/Machine/Records.lean ====
section
/-! DEFINITION. The records that State holds for time, the Story pole, Cinch, Bridle, MACsec and the legacy gateway. -/
namespace Sys2Proof.Machine

open Sys2Proof

/-! ## Time (chapter 05) -/

/-- A PPS_STEP_ARM that waits (R119): its second, its requester's code, the cycle at which it was armed; another step has been
accepted since. -/
structure PpsArm where
  sec : Nat
  req : Nat
  at' : Nat
  locked : Bool := false
  deriving DecidableEq, Repr

/-- A step that was refused as STEP_LOCKED (R120): its SCLK cycle, its code in TIME_CMD, its requester; it raised STEP_REFUSED anew. -/
structure LockedStep where
  sclk : Nat
  cmd : Nat
  req : Requester
  fresh : Bool
  deriving DecidableEq, Repr

/-- What a received Announce offers (R129): priority1, clockQuality, priority2 and identity of its grandmaster, the steps to it, its
sender, timeSource. -/
structure Offer where
  prio1 : Nat
  quality : Nat
  prio2 : Nat
  gm : Nat
  path : AnnouncePath
  deriving DecidableEq, Repr

/-- What the time unit and gPTP keep besides (R120, R129, R139): the monotonic counter's ns in cycle `monoAt`, when it last changed its
clock; the latest step refused as STEP_LOCKED; the SCLK cycle in which a rate write last raised TRACKING; the last qualified Announce of
each port, by instance × 32 + port. -/
structure TimeRt where
  monoBase : Nat := 0
  monoAt : Nat := 0
  lockedStep : Option LockedStep := none
  trackedAt : Option Nat := none
  offers : List (Nat × Option Offer) := []
  deriving DecidableEq, Repr

/-- What a gPTP instance keeps besides its page (R131). -/
structure PtpRt where
  /-- The cycle of the last Sync, or of entry to SLAVE; the Sync intervals missed since. -/
  lastSync : Nat := 0
  missed : Nat := 0
  /-- It has stopped writing the rate (R131). -/
  silent : Bool := false
  deriving DecidableEq, Repr

/-! ## The Story pole and Cinch (chapter 06) -/

/-- A list descriptor (R140, R164). -/
structure LDesc where
  kind : Nat
  target : Nat
  failsafe : Nat
  /-- BASE_SEC and BASE_NS in ns. -/
  base : Nat
  cycle : Nat
  start : Nat
  count : Nat
  deadline : Nat
  deriving DecidableEq, Repr

/-- What drove a list's target until an instant, in ns of the monotonic counter (R146): the descriptor that held it, and since which
instant of local time it ran, where it did not hold its FAILSAFE value. -/
structure ListSpan where
  till : Nat
  view : Option (LDesc × Option Nat)
  deriving DecidableEq, Repr

/-- A list as it runs (R141 to R143). -/
structure ListRt where
  /-- 0 IDLE, 1 WAIT_START, 2 RUNNING, 3 FAILSAFE. -/
  state : Nat := 0
  oper : Option LDesc := none
  /-- The instant, in ns of local time, at which the operating descriptor starts or started. -/
  operCt : Nat := 0
  pend : Option LDesc := none
  pendCt : Nat := 0
  /-- What drove its target before, latest first, as far back as a stamp can lie. -/
  past : List ListSpan := []
  /-- The running entry, the instants at which it and its cycle began. -/
  idx : Nat := 0
  entryAt : Nat := 0
  cycleAt : Nat := 0
  /-- The value applied, and hold for preemptable classes (R144). -/
  value : Nat := 0
  hold : Bool := false
  deriving DecidableEq, Repr

/-- What arming fixes for a one-shot action (R149, R152): the release instant in ns of local time, the lead in ns. -/
structure OneRt where
  rel : Int
  lead : Nat
  deriving DecidableEq, Repr

/-- A pulse on E pins in progress (R148): the pins, the levels they return to, the cycle at which it ends. -/
structure PinPulse where
  mask : Nat
  levels : Nat
  due : Nat
  deriving DecidableEq, Repr

/-- A pulse input (R158): its accepted level, m_last and T_p in ns of the monotonic counter, an edge since standstill, MOVING. -/
structure PulseRt where
  level : Bool := false
  mLast : Option Nat := none
  tp : Nat := 0
  edges : Bool := false
  moving : Bool := false
  /-- STOP_MS as the last counted edge found it; FILTER before its last change, and the cycle of that (R168). -/
  stop : Nat := 0
  oldFilter : Nat := 0
  filterAt : Nat := 0
  deriving DecidableEq, Repr

/-- An entry of the release log (R156). -/
structure RlogEntry where
  req : Nat
  sof : Nat
  target : Nat
  late : Bool
  busy : Bool
  notime : Bool
  epoch : Nat
  tag : Nat
  seq : Nat
  deriving DecidableEq, Repr

/-- An entry of the input log (R169). -/
structure IlogEntry where
  stamp : Nat
  pin : Nat
  rising : Bool
  epoch : Nat
  seq : Nat
  deriving DecidableEq, Repr

/-- A Cinch watch (R161): its state (0 DISARMED, 1 WAIT_FIRST, 2 WATCHING, 3 TRIPPED), its deadline and the next repeat in ns
of the monotonic counter. -/
structure WatchRt where
  state : Nat := 0
  deadline : Nat := 0
  repeatAt : Nat := 0
  deriving DecidableEq, Repr

/-- A safe frame that waits for its transmitter (R162): of which watch, for which port. -/
structure SafeFrame where
  entry : Nat
  port : Nat
  cls : Nat
  bytes : List Byte
  msg : Option Msg
  retries : Nat := 0
  deriving DecidableEq, Repr

/-! ## Bridle, units, MACsec (chapter 08) -/

/-- A policer's buckets (R195): what they lack of their bursts, in units of 10^-9 bytes or frames, and the cycle of that count. -/
structure PolRt where
  lackC : Nat := 0
  lackE : Nat := 0
  at' : Nat := 0
  deriving DecidableEq, Repr

/-- A transport session (R199 to R203), as table SESSION shows it. -/
structure Sess where
  /-- 0 FREE, 1 OPEN, 2 CUT. -/
  state : Nat := 0
  etp : Bool := false
  bam : Bool := false
  port : Nat := 0
  sa : Nat := 0
  da : Nat := 0
  pgn : Nat := 0
  size : Nat := 0
  /-- Packets forwarded. -/
  fwd : Nat := 0
  /-- The present grant: its first sequence number and its count; the sequence numbers forwarded in it. -/
  lo : Nat := 1
  cnt : Nat := 0
  seen : List Nat := []
  /-- The last CTS: the first packet of the message that it asks for, and how many. -/
  ctsLo : Nat := 1
  ctsCnt : Nat := 0
  /-- What it waits for: 0 a DT, 1 a CTS, 2 the end of a hold (R202). -/
  phase : Nat := 1
  reason : Nat := 0
  dpo : Nat := 0
  /-- Stamp and cycle of the last frame. -/
  stamp : Nat := 0
  at' : Nat := 0
  /-- The originator is on the tracking port; the CAN channels at the other end of the crossing, as a mask (R203). -/
  near : Bool := true
  far : Nat := 0
  deriving DecidableEq, Repr

/-- A unit entry's record (R204 to R206, table USTAT). -/
structure UnitRt where
  /-- 0 UNKNOWN, 1 ALIVE, 2 SUSPECT, 3 DEAD, 4 FENCED, 5 RETIRED. -/
  state : Nat := 0
  returned : Bool := false
  peer : Option Nat := none
  incarnation : Nat := 0
  lastSeen : Nat := 0
  /-- The cycle of the last frame, or of the last command that set the present state. -/
  seenAt : Nat := 0
  /-- A frame has been seen since the last liveness scan, or since a command set the present state. -/
  fresh : Bool := false
  deriving DecidableEq, Repr

/-- What a rewrite entry sets (R197), as the lookup that named it found it (R45). -/
structure Rewrite where
  vid : Option Nat := none
  pcp : Option Nat := none
  dscp : Option Nat := none
  dmac : Option Nat := none
  deriving DecidableEq, Repr

/-- How a frame is protected on its way out, fixed when it starts (R45, R213): its SecY, SA and PN, the key and nonce, its SCI where
the SecTAG carries it, its association number, the bytes left in clear where it is encrypted. -/
structure MacSeal where
  secy : Nat
  sa : Nat
  pn : Nat
  key : List Byte
  nonce : List Byte
  sci : Option Nat
  an : Nat
  clear : Option Nat
  deriving DecidableEq, Repr

/-- How a frame is verified, fixed at its head (R45, R213): its SecY, VALIDATE, its cipher's kind, the SA with SCI and PN that it
names, key and nonce, the first PN of the SA's table entry, the replay window where replay protection is on, the bytes in clear. -/
structure MacPlan where
  secy : Nat
  mode : Nat
  xpn : Bool
  sa : Option (Nat × Nat × Nat) := none
  key : List Byte := []
  nonce : List Byte := []
  first : Nat := 0
  window : Nat := 0
  replay : Bool := false
  clear : Nat := 0
  deriving DecidableEq, Repr

/-- The rules of FRER under which stage 5 judged a frame (R45, R186): its compound stream's ELIM, SEQ_GEN, HIST_LEN, TAG_OUT and
RESET_MS in cycles, IND_HIST_LEN of a member with IND_EN, its ROGUE_LIMIT. -/
structure FrerRule where
  elim : Bool
  seqGen : Bool
  hist : Nat
  tagOut : Nat
  reset : Nat
  ind : Option Nat := none
  rogue : Nat := 0
  deriving DecidableEq, Repr

/-- A MACsec key install in progress (R213): the SA index, the slot, the wrapped key. -/
structure KeyInstall where
  sa : Nat
  slot : Nat
  wrapped : List Byte
  deriving DecidableEq, Repr

/-! ## The legacy gateway (chapter 09) -/

/-- Effect time in ns, lead index, EXEC_LATE and tag of a DMA descriptor with a launch time (R153, R271). -/
structure Launch where
  e : Nat
  lead : Nat
  execLate : Bool
  tag : Nat
  deriving DecidableEq, Repr

/-- An entry of the gateway input queue (R215, R216): a legacy message from a channel, or a frame that left the fabric at GW. -/
structure GwItem where
  /-- The channel's port, or 31. -/
  port : Nat
  msg : Option Msg
  bytes : List Byte := []
  /-- Of a frame: its Ethernet ingress port, its origin, handle, unit and class. -/
  ingress : Nat := 31
  origin : Nat := 31
  handle : Option Nat := none
  unit : Option Nat := none
  cls : Nat := 0
  stamp : Nat := 0
  /-- Local time in ns at the start of frame, and whether it was valid (R222); the monotonic counter there. -/
  time : Nat := 0
  valid : Bool := false
  seen : Nat := 0
  /-- The rewrite that its ingress lookup named, for the Ethernet copies made from it (R197). -/
  rewrite : Rewrite := {}
  /-- The launch time that its DMA descriptor gave it (R153). -/
  launch : Option Launch := none
  /-- A PDU whose period expired (R228); a policer of its lookup marks DEI (R195). -/
  asked : Bool := false
  mark : Bool := false
  /-- It was received in SENTRY, whose rules judge it also after a wake (R332). -/
  asleep : Bool := false
  deriving DecidableEq, Repr

/-- A message queued on a channel (R231): the cycle at which it was queued, its retries, what its route or assembler says of it. -/
structure TxMsg where
  msg : Msg
  at' : Nat := 0
  retries : Nat := 0
  cls : Nat := 0
  actuating : Bool := false
  diag : Bool := false
  deriving DecidableEq, Repr

/-- What a CAN channel keeps besides its page (R231, R232): its untimed queue, transport aborts, error counters. -/
structure CanRt where
  queue : List TxMsg := []
  aborts : List TxMsg := []
  tec : Nat := 0
  rxe : Nat := 0
  deriving DecidableEq, Repr

/-- A publish or response buffer of a LIN frame ID (R219, R233): its data, FRESH. -/
structure LinBuf where
  data : List Byte
  fresh : Bool
  deriving DecidableEq, Repr

/-- What a LIN channel keeps besides its page (R234, R235). -/
structure LinRt where
  bufs : List (Nat × Option LinBuf) := []
  /-- The cycle at which the running slot ends. -/
  slotEnd : Nat := 0
  /-- The table in force, the table that runs and its next entry; where to continue after the collision-resolution tables in
  progress, the innermost first (R234). -/
  home : Nat := 0
  table : Nat := 0
  entry : Nat := 0
  back : List (Nat × Nat) := []
  /-- The cycle of the last wake, until the schedule restarts (R235). -/
  wokeAt : Option Nat := none
  deriving DecidableEq, Repr

/-- What a UART channel keeps besides its page (R236, R237). -/
structure UartRt where
  queue : List TxMsg := []
  /-- The message being received: its bytes, discarded; stamp, time, its validity and monotonic time of its first
  character. -/
  rx : List Byte := []
  rxBad : Bool := false
  stamp : Nat := 0
  time : Nat := 0
  valid : Bool := false
  seen : Nat := 0
  /-- The cycles of the last received character, and of the end of the message being sent. -/
  lastRx : Nat := 0
  txEnd : Nat := 0
  /-- The cycle at which the driver enable of that message is released (R237). -/
  deEnd : Nat := 0
  deriving DecidableEq, Repr

/-- An open ACF frame (R223) of an ACF_OUT entry, and the stream's next sequence_num (R222). -/
structure AcfRt where
  msgs : List (List Byte) := []
  cls : Nat := 0
  handle : Option Nat := none
  origin : Nat := 31
  unit : Option Nat := none
  rewrite : Rewrite := {}
  mark : Bool := false
  at' : Nat := 0
  /-- Extended start of frame time of its first message, and its validity. -/
  time : Nat := 0
  valid : Bool := false
  seq : Nat := 0
  deriving DecidableEq, Repr

/-- An assembler (R225, R226, R228): when its period and its minimum gap began; the origin of a deferred transmission, whether its
period caused it, the rewrite of its update's lookup; the signals written into its buffer, the latest last. -/
structure AsmRt where
  periodAt : Nat := 0
  sentAt : Option Nat := none
  deferred : Option (Nat × Bool × Rewrite) := none
  order : List Nat := []
  deriving DecidableEq, Repr

/-- A signal (R225, R227): its value once updated, the cycle of the last update, stale. -/
structure SigRt where
  value : Option Nat := none
  at' : Nat := 0
  stale : Bool := false
  deriving DecidableEq, Repr

/-- A network interconnect instance's presence on a channel (R239, table NSTAT). -/
structure NiuRt where
  sa : Nat := 0
  /-- 0 NONE, 1 CLAIMING, 2 CLAIMED, 3 CANNOT_CLAIM. -/
  state : Nat := 0
  deriving DecidableEq, Repr

/-! ## Tenon (chapter 11) -/

/-- What a T link keeps besides its page (R286 to R293). -/
structure TenonRt where
  /-- Bytes of each held class that the receiving device has not yet given back as credit (R293). -/
  used : List (Nat × Nat) := []
  /-- The ring IDs that can be reached through the partner, as a mask (R289). -/
  reach : Nat := 0
  /-- Flits sent and not yet acknowledged, at most the 64 of the replay buffer (R287). -/
  unacked : Nat := 0
  /-- Replays of one flit in a row (R287); the cycle of an ID conflict after which training is retried (R288). -/
  tries : Nat := 0
  conflict : Option Nat := none
  /-- In CALIBRATE for a remeasurement: frames wait (R288). -/
  remeasure : Bool := false
  /-- The measured one-way latency in ps, before LAT_ASYM (R292). -/
  lat : Nat := 0
  deriving DecidableEq, Repr

/-- The credit that a held frame received on a T port has taken: its number here, its port, class and length on the wire (R293). -/
structure CreditOwed where
  fid : Nat
  port : Nat
  cls : Nat
  bytes : Nat
  deriving DecidableEq, Repr

/-- A register request that travels to a ring peer (R291): its requester, the peer, the address there, the data of a write with its
write sequence number, the link it took and the cycle at which it was sent; it waits for the end of a CALIBRATE (R288); its requester
has been reset since, so that nothing waits for it any more (R251). -/
structure RemoteReq where
  req : Requester
  write : Bool
  dev : Nat
  addr : Nat
  data : Word
  wseq : Nat
  link : Nat
  at' : Nat
  waits : Bool := false
  orphan : Bool := false
  deriving DecidableEq, Repr

/-! ## The host bridge and the DMA engine (chapter 10) -/

/-- A QSPI read that the 9648 answers BUSY (R257): ring ID and address of its first word, how many words, those it holds, the cycle at
which it began; whether its next word has been asked for, and the request of one that a ring peer holds. -/
structure QsRead where
  dev : Nat
  addr : Nat
  n : Nat
  got : List Word := []
  at' : Nat
  asked : Bool := false
  sent : Option RemoteReq := none
  deriving DecidableEq, Repr

/-- A fetched transmit descriptor (R266): its index, buffer, flags, class, launch time. -/
structure TxDesc where
  index : Nat
  addr : Nat
  len : Nat
  sop : Bool
  eop : Bool
  cls : Nat
  launch : Option Launch
  deriving DecidableEq, Repr

/-- What a DMA ring keeps besides its registers (R265 to R274). -/
structure RingRt where
  /-- Transmit: the descriptors of the frame in progress, fetched whole; malformed descriptors are passed over up to an EOP (R267). -/
  descs : List TxDesc := []
  whole : Bool := false
  skip : Bool := false
  /-- The bytes read. -/
  data : List Byte := []
  /-- Receive: the index of the descriptor being filled with its buffer's address, the bytes written there. -/
  buffer : Option (Nat × Nat) := none
  filled : Nat := 0
  /-- Receive: the bytes of the frame written; transmit: the stamp of the frame's entry at port 30. -/
  pos : Nat := 0
  stamp : Nat := 0
  /-- Interrupts: frames completed since the last one, the cycle of the first completion not yet announced (R273). -/
  frames : Nat := 0
  firstAt : Option Nat := none
  deriving DecidableEq, Repr

/-- A translation in the TLB (R276): context, first IOVA, 2 MiB, physical address, permissions. -/
structure TlbEntry where
  ctx : Nat
  page : Nat
  big : Bool
  phys : Nat
  r : Bool
  w : Bool
  deriving DecidableEq, Repr

/-- An entry of the DXLT fault log (R277). -/
structure FltEntry where
  iova : Nat
  ring : Nat
  ctx : Nat
  write : Bool
  cause : Nat
  desc : Nat
  seq : Nat
  deriving DecidableEq, Repr

/-- An invalidation (R276): scope, context, the range of IOVAs. -/
structure InvCmd where
  scope : Nat
  ctx : Nat
  addr : Nat
  pages : Nat
  deriving DecidableEq, Repr

/-! ## Clocks and modes (chapters 12 and 13) -/

/-- What the clock unit keeps besides its page (R302 to R316). -/
structure ClkRt where
  /-- A start of the crystal waits for its check: since which cycle, its failed checks, whether at power-on (R302, R303). -/
  xtalStart : Option (Nat × Nat × Bool) := some (0, 0, true)
  /-- n of the start delay of that start: a later write of XTAL_CFG.XSD governs later starts only (R302). -/
  xsd : Nat := 7
  /-- The device stays in reset until that check has accepted the crystal or found it failed (R303, R310). -/
  hold : Bool := true
  /-- PLLs lost and not yet relocked, as a mask in the order of PLL_STATUS (R314). -/
  lost : Nat := 0
  /-- A GCLK switch that waits: since which cycle, towards HFRC, after a crystal failure (R312). -/
  gwait : Option (Nat × Bool × Bool) := none
  /-- Trim measurements within 0.1 % in a row (R304). -/
  good : Nat := 0
  /-- The die temperature at LFRC's last trim (R307). -/
  lfrcTemp : Option Int := none
  deriving DecidableEq, Repr

/-- An entry to SENTRY or DORMANT that waits for firmware (R329): its target mode, since which cycle. -/
structure EntryRt where
  target : Nat
  since : Nat
  /-- Begun by MODE_CMD, not by SENTRY_IDLE. -/
  byCmd : Bool
  deriving DecidableEq, Repr

/-- What the mode controller keeps besides its page (R325 to R340). -/
structure PwrRt where
  entry : Option EntryRt := none
  /-- The fallback configuration is still to be applied; SET_FALLBACK was applied at boot (R354). -/
  fallbackDue : Bool := false
  fallbackAtBoot : Bool := false
  /-- The boot sequence has run since the last reset or wake. -/
  booted : Bool := false
  /-- The cycle of the last message on a CAN channel or an S port (R326). -/
  heard : Nat := 0
  /-- The cycle at which the mass emission in progress began; the short path to DORMANT follows it (R336). -/
  massAt : Nat := 0
  shortDue : Bool := false
  /-- A wake filter matched during a SENTRY entry (R330, R332). -/
  filterDue : Bool := false
  /-- Bytes that xSPI still programs under PF_ACTIVE (R336). -/
  pfBudget : Nat := 0
  deriving DecidableEq, Repr

/-- What the always-on domain keeps besides its page (R330 to R340). -/
structure AonRt where
  /-- The RTC in 32,768ths of a second at a cycle; the second at which the alarm last acted. -/
  rtc : Nat := 0
  rtcAt : Nat := 0
  rtcFired : Option Nat := none
  /-- MAC_CFG, RATE_CFG, TC10_CFG and CTRL of each port as the DORMANT entry found them (R331). -/
  portCfg : List (Nat × List Word) := []
  /-- The ports that received a wake pulse in DORMANT, each with the ports on which it has been forwarded since (R69). -/
  fwdWake : List (Nat × List Nat) := []
  /-- In DORMANT: the cycle at which PWR_EN fell, and whether by the short path. -/
  sleptAt : Nat := 0
  short : Bool := false
  /-- PWR_EN is high since this cycle; the cycle of a failed wake that is still to be retried, and whether it has been (R333). -/
  waking : Option Nat := none
  failedAt : Option Nat := none
  retried : Bool := false
  /-- The core starts for a wake to this mode; the ports' records are still to be used (R331, R335). -/
  wakeTo : Option Nat := none
  restore : Bool := false
  deriving DecidableEq, Repr

/-- The device watchdog (R319): the cycle at which it was last restarted, WDT_WARN raised since. -/
structure WdtRt where
  at' : Nat := 0
  warned : Bool := false
  /-- The bits of DOM_RST whose reset is not yet complete, with the cycle at which it will be (R318). -/
  doms : List (Nat × Nat) := []
  deriving DecidableEq, Repr

/-! ## Trestle (chapter 15) -/

/-- A completed checkpoint (R359): the half of the checkpoint area that holds it, its SEQ, and what the model keeps of firmware's persisted
state (log entry 129): the trace level, the subscriptions by Ehruz. -/
structure TrCkpt where
  half : Nat
  seq : Nat
  trace : Nat
  subs : List (Nat × Nat)
  deriving DecidableEq, Repr

/-- An entry of the mismatch log (R380, R381). -/
structure MlogEntry where
  stamp : Nat
  kind : Nat
  leg : Nat
  scribe : Nat
  group : Nat
  mode : Nat
  seq : Nat
  deriving DecidableEq, Repr

/-- A mailbox request that firmware has not answered (R360). -/
structure MbxReq where
  seq : Nat
  service : Nat
  words : List Word
  deriving DecidableEq, Repr

/-- A split, a rejoin or an activation in progress (R376, R378, R379): 1 SPLIT, 2 REJOIN, 3 activation; its cycle; the cycle of the
hand-over point; asked for by firmware's update handling. -/
structure TrWork where
  kind : Nat
  since : Nat
  handover : Option Nat
  byFw : Bool
  deriving DecidableEq, Repr

/-- What the cluster keeps besides its page (R358 to R381). -/
structure TrRt where
  /-- The cycles of the last heartbeat and of the last checkpoint boundary. -/
  beatAt : Nat := 0
  ckptAt : Nat := 0
  work : Option TrWork := none
  /-- The odd leg of a resynchronisation; the cycle of a violation by the spare leg, which rejoins at the next boundary (R377). -/
  odd : Option Nat := none
  violated : Option Nat := none
  /-- The cycles of the checker faults of the last 10 ms (R373). -/
  checkers : List Nat := []
  /-- Of a restart in progress: TRIPLE_AVAIL was 0. The cause of the last restart as MLOG KIND. -/
  noTriple : Bool := false
  cause : Nat := 0
  /-- The leg that the last failure named (R363). -/
  named : Option Nat := none
  /-- The mismatch log and the SEQ of its next entry (R365). -/
  mlog : List MlogEntry := []
  mlogSeq : Nat := 0
  /-- Requests without an answer, by requester code; the trace level (R360). -/
  reqs : List (Nat × Option MbxReq) := []
  trace : Nat := 0
  /-- The ports and device IDs that have subscribed to events by Ehruz (R295). -/
  subs : List (Nat × Nat) := []
  /-- The words of the trace ring by their number in it (R361). -/
  traceRing : List (Nat × Word) := []
  /-- The active instruction bank (R374, R379); an uncorrectable error found in the other. What the banks and the data memory hold: the
measurement of the image whose INSTR and DATA segments were loaded into them, none where nothing was. -/
  bank : Nat := 0
  bankBad : Bool := false
  banks : List (Nat × List Byte) := []
  dataOf : List Byte := []
  /-- The last completed checkpoint (R359), none after a cold start. -/
  ckpt : Option TrCkpt := none
  /-- An entry to SENTRY waits for its checkpoint boundary (R363). The control plane pauses for an activation (R379). -/
  soloDue : Bool := false
  paused : Bool := false
  /-- The cycle of the last self-test of the agreement exchange since the start (R366). -/
  testAt : Option Nat := none
  deriving DecidableEq, Repr

/-! ## Flash, boot and update (chapters 14 and 17) -/

/-- An operation of XMEM that waits or is carried out (R355): its side, command, address, length, data, the result that its START
already fixed (0 none), the cycle of its START, whether PF_ACTIVE has been judged for it (R336). -/
structure FlashOp where
  side : Nat
  cmd : Nat
  addr : Nat
  len : Nat
  data : List Byte
  result : Nat
  at' : Nat
  judged : Bool := false
  deriving DecidableEq, Repr

/-- An OTP command in progress (R356): 1 READ, 2 PROGRAM; its word; the bits to program. -/
structure OtpOp where
  cmd : Nat
  addr : Nat
  data : Word
  deriving DecidableEq, Repr

/-- The chosen copy of the boot directory (R344): which copy, offset and size of the regions, ACTIVE, TRIAL. -/
structure BootDir where
  copy : Nat
  seq : Nat
  regions : List (Nat × Nat)
  active : Nat
  trial : Bool
  left : Nat
  deriving DecidableEq, Repr

/-- A segment of a Dennak image (R346). -/
structure Segment where
  type : Nat
  target : Nat
  off : Nat
  len : Nat
  digest : List Byte
  deriving DecidableEq, Repr

/-- The header of a Dennak image (R346): its fields, the bytes that MEAS_DIGEST covers. -/
structure ImgHead where
  magic : Nat
  ver : Nat
  kind : Nat
  secVer : Nat
  release : Nat
  count : Nat
  total : Nat
  segs : List Segment
  covered : List Byte
  meas : List Byte
  pub : List Byte
  sig : List Byte
  deriving DecidableEq, Repr

/-- What the boot sequence found and handed over (R343 to R354). -/
structure BootRt where
  dir : Option BootDir := none
  /-- The measurements of R352: ROM stage, firmware, settings; empty until taken. -/
  rom : List Byte := []
  fw : List Byte := []
  set : List Byte := []
  /-- The image in the slot run. -/
  image : Option ImgHead := none
  /-- SET_FALLBACK as its header was accepted at boot (R354). -/
  fallback : Option ImgHead := none
  deriving DecidableEq, Repr

/-- What the UPD engine keeps besides its page (R400 to R414). -/
structure UpdRt where
  /-- The verified image. -/
  image : Option ImgHead := none
  /-- The command in progress with its target. -/
  cmd : Option (Nat × Nat) := none
  /-- The cycle since which the trial image has run clean (R411). -/
  cleanAt : Nat := 0
  /-- After a hitless activation, its directory copy is still to be written (R407). -/
  dirDue : Bool := false
  deriving DecidableEq, Repr

/-! ## Prisil (chapter 16) -/

/-- A key slot (R389 to R393, R395): 0 EMPTY, 1 LIVE, 2 INVALID; PROT CHECKED; its policy, its parent, its value. -/
structure SlotRt where
  state : Nat := 0
  checked : Bool := false
  successor : Bool := false
  policy : Nat := 0
  kind : Nat := 0
  parent : Nat := 0
  value : List Byte := []
  deriving DecidableEq, Repr

/-- A declared successor (R394): the three measurements of the forward branches. -/
structure Successor where
  rom : List Byte
  fw : List Byte
  set : List Byte
  deriving DecidableEq, Repr

/-- An operation of Prisil that waits or executes (R391): the word written to CMD (none for ENROL), the requester. -/
structure PrisilOp where
  cmd : Option Word
  /-- KEY of ENROL. -/
  key : Nat := 0
  /-- Its requester, whose side shows the result (R391). -/
  req : Requester
  /-- Started after QUARANTINE was entered (R398). -/
  withheld : Bool := false
  deriving DecidableEq, Repr

/-! ## Wear (chapter 18) -/

/-- What WEAR and its firmware keep besides the page (R419 to R424). -/
structure WearRt where
  /-- The cycle at which the second being binned began; the highest reading of DIE_TEMP in it. -/
  at' : Nat := 0
  peak : Option Int := none
  /-- The cycle of the last sensor measurement. -/
  senseAt : Nat := 0
  /-- Bin seconds since the start that the lifetime totals already hold. -/
  added : List Nat := []
  /-- LIFE_5Y and LIFE_1Y may be raised again (R424). -/
  armed5 : Bool := true
  armed1 : Bool := true
  /-- The calendar age in seconds as firmware last carried it on, and the cycle at which it did (R421). -/
  lifeAge : Nat := 0
  lifeAt : Nat := 0
  deriving DecidableEq, Repr

/-- The lifetime record as the settings journal keeps it (R421): the words of table LIFE, seven an entry, the production instant, what
R424 has armed, the calendar age in seconds with the second of the RTC, the keys under which a half holds it (R349, R396). -/
structure LifeSaved where
  age : Nat
  rtc : Nat
  keys : List (List Byte)
  words : List Word
  prodLo : Word
  prodHi : Word
  armed5 : Bool
  armed1 : Bool
  deriving DecidableEq, Repr

/-- An entry of a fence block (R349): the UNIT entry, its words 0 to 2, FENCED (4) or RETIRED (5), incarnation, fence peer. -/
structure FenceEntry where
  unit : Nat
  words : List Word
  state : Nat
  incarnation : Nat
  peer : Option Nat
  deriving DecidableEq, Repr

/-- A fence block of the settings journal (R349): which of the two, the journal key under which its tag was made (none where it is
torn), its generation, its entries. -/
structure FenceBlock where
  block : Nat
  key : List Byte
  gen : Nat
  entries : List FenceEntry
  deriving DecidableEq, Repr

/-- A record of the journal (R208, R349): the unit command, its entry and its spare, the incarnations that it left, and the journal key of
its tag, none where it is torn. -/
structure JournalRec where
  cmd : Nat
  unit : Nat
  other : Nat
  incs : List (Nat × Nat)
  key : List Byte
  deriving DecidableEq, Repr

/-- A journal half (R349): which of the two, the journal key and the generation of its header, its records in order. -/
structure JournalHalf where
  half : Nat
  key : List Byte
  gen : Nat
  recs : List JournalRec
  deriving DecidableEq, Repr

end Sys2Proof.Machine
end

