-- ==== Sys2Proof/Syntax.lean ====
section
/-! DEFINITION. The commands of the block: one constructor per row of spec/opcode_table.json. Every command carries `dt`,
the time that has passed since the command before it in cycles of 2 ns, and what the row needs from outside: the requester of a
register access (R36), a page, a port, the bytes of a frame, a pin's level, a sensor's reading. -/
namespace Sys2Proof

inductive Instr where
  -- register pages (chapter 02)
  | registerWrite (dt : Nat) (req : Requester) (addr : Nat) (value : BusData)
  | unimplPage (dt : Nat) (req : Requester) (addr : Nat) (access : BusAccess)
  | blockEnable (dt : Nat) (req : Requester) (page : Page) (en : Bool)
  | softRst (dt : Nat) (req : Requester) (page : Page) (en : Bool)
  | evtRawClear (dt : Nat) (req : Requester) (page : Page) (bits : Word)
  | commitGo (dt : Nat) (req : Requester) (page : Page)
  | commitAtTime (dt : Nat) (req : Requester) (page : Page) (handle : Nat)
  | commitAbort (dt : Nat) (req : Requester) (page : Page)
  | validationDone (dt : Nat) (page : Page)
  | commitApply (dt : Nat) (page : Page)
  | safeTimeout (dt : Nat) (page : Page)
  | groupGo (dt : Nat) (req : Requester)
  | groupAtTime (dt : Nat) (req : Requester) (handle : Nat)
  | groupAbort (dt : Nat) (req : Requester)
  | groupValidationDone (dt : Nat)
  | groupApply (dt : Nat)
  | groupSafeTimeout (dt : Nat)
  | lock (dt : Nat) (req : Requester) (page : Page)
  | tblRead (dt : Nat) (req : Requester) (page : Page) (tag : Byte)
  | tblReadActive (dt : Nat) (req : Requester) (page : Page) (tag : Byte)
  | tblWrite (dt : Nat) (req : Requester) (page : Page) (tag : Byte)
  | tblClear (dt : Nat) (req : Requester) (page : Page) (tag : Byte)
  | tblSearch (dt : Nat) (req : Requester) (page : Page) (tag : Byte)
  | tblClearAll (dt : Nat) (req : Requester) (page : Page) (tag : Byte)
  | tblDone (dt : Nat) (side : Side) (page : Page) (ecc : Bool)
  | bankSyncDone (dt : Nat) (page : Page)
  | snapTake (dt : Nat) (req : Requester) (page : Page)
  | snapDone (dt : Nat) (page : Page)
  | snapAll (dt : Nat) (req : Requester)
  -- ports (chapter 03)
  | partnerSignal (dt port : Nat)
  | trainComplete (dt port rate : Nat) (partnerLongBed resumeAble inverted : Bool)
  | linkTrainFail (dt port : Nat) (partnerLongBed : Bool)
  | resumeOk (dt port : Nat)
  | resumeFail (dt port : Nat)
  | pcsLockLoss (dt port : Nat)
  | beaconLoss (dt port : Nat)
  | plcaBeaconRx (dt port : Nat)
  | plcaBeaconTx (dt port : Nat)
  | linkCmdRestart (dt : Nat) (req : Requester) (port : Nat)
  | linkCmdSleep (dt : Nat) (req : Requester) (port : Nat)
  | linkCmdWake (dt : Nat) (req : Requester) (port : Nat)
  | linkCmdForget (dt : Nat) (req : Requester) (port : Nat)
  | partnerSleepRequest (dt port : Nat)
  | partnerSleepReject (dt port : Nat)
  | sleepDone (dt port : Nat)
  | sleepDrain (dt port : Nat)
  | wakeRx (dt port : Nat)
  | verifyFail (dt port : Nat)
  | cableDiagStart (dt : Nat) (req : Requester) (port : Nat)
  | cableDiagDone (dt port result dist : Nat)
  | testMode (dt : Nat) (req : Requester) (port mode : Nat)
  | sqiRefresh (dt port sqi : Nat) (margin : Option Nat)
  -- Ethernet reception and transmission, timed release (chapters 01, 03, 04, 06)
  | frameReception (dt port : Nat) (rx : Rx) (node : Option Nat) (origin : RingOrigin) (frags ago : Nat)
  | egressFrameStart (dt port : Nat) (ecc : EccResult) (waited : Bool) (collisions : Nat)
  | egressFrameEnd (dt : Nat) (tx : TxEnd)
  | gateDeadlineDrop (dt port cls : Nat)
  | releaseRequest (dt port cls : Nat)
  | releaseStart (dt target : Nat) (result : CanResult) (waited : Bool)
  -- queues, spill, resequencer, fabric (chapter 04)
  | rseqWindowEntry (dt egress cls : Nat)
  | rseqTimeout (dt egress cls ingress : Nat)
  | spillRead (dt egress : Nat) (queue : SpillQueue)
  | spillReadDone (dt egress cls : Nat) (ecc : EccResult)
  | spillTrainDone (dt : Nat) (ok : Bool)
  | spillLatClr (dt : Nat) (req : Requester)
  | rseqClr (dt : Nat) (req : Requester)
  | rebuildDone (dt : Nat)
  | ageingPass (dt : Nat)
  | fdbFlush (dt : Nat) (req : Requester) (value : Word)
  | flushDone (dt : Nat)
  -- network time (chapter 05)
  | timeCapture (dt : Nat) (req : Requester)
  | timeInvalidate (dt : Nat) (req : Requester)
  | ppsStepArm (dt : Nat) (req : Requester)
  | ppsStepDisarm (dt : Nat) (req : Requester)
  | ppsArmTimeout (dt : Nat)
  | rateAdj (dt : Nat) (req : Requester) (value : Word)
  | rateSlewTick (dt : Nat)
  | holdover (dt : Nat)
  | holdoverLong (dt : Nat)
  | ppsOutRise (dt : Nat)
  | ppsOutFall (dt : Nat)
  | syncTimeout (dt inst : Nat)
  | gptpTxInterval (dt inst kind : Nat)
  | announceRx (dt inst port gm prio1 quality prio2 : Nat) (path : AnnouncePath)
  | pdelayExchange (dt port : Nat) (delay : Option Nat) (ratio : Int) (capable : Bool)
  | stepSet (dt : Nat) (req : Requester)
  | stepAdd (dt : Nat) (req : Requester)
  | ppsIn (dt : Nat) (rising : Bool)
  | gptpSyncRx (dt inst port : Nat) (followUp : Bool) (gm stamp : Nat) (rate ratio : Int)
  | timeWordTx (dt : Nat)
  | timeWordRx (dt link time epoch : Nat) (valid replayed : Bool) (rate : Int)
  -- the Story pole (chapter 06)
  | listEntryStart (dt list : Nat)
  | listSwap (dt list : Nat)
  | outManual (dt : Nat) (req : Requester) (mask levels : Nat)
  | pulseEdge (dt input : Nat) (level : Bool) (held : Nat)
  | pulseStop (dt input : Nat)
  | pulsePreset (dt : Nat) (req : Requester) (mask : Nat)
  | pinPulseEnd (dt : Nat)
  | inputEdge (dt pin : Nat) (rising : Bool) (held : Nat)
  | ilogAck (dt : Nat) (req : Requester) (seq : Nat)
  | cinchDeadline (dt entry : Nat)
  | cinchRepeat (dt entry : Nat)
  | rlogAck (dt : Nat) (req : Requester) (seq : Nat)
  | oneshotExecute (dt : Nat)
  | distanceTick (dt : Nat)
  -- seamless redundancy (chapter 07)
  | recovReset (dt index : Nat)
  | resetRecov (dt : Nat) (req : Requester) (index : Nat)
  | resetGen (dt : Nat) (req : Requester) (index : Nat)
  | memberSilent (dt member : Nat)
  | memberReturn (dt member : Nat)
  | latentErr (dt index : Nat)
  | latentReset (dt index : Nat)
  | holdClr (dt : Nat) (req : Requester)
  -- units and transport sessions (chapter 08)
  | replace (dt : Nat) (req : Requester) (unit other : Nat) (force : Bool)
  | reinstate (dt : Nat) (req : Requester) (unit : Nat)
  | retire (dt : Nat) (req : Requester) (unit : Nat)
  | release (dt : Nat) (req : Requester) (unit : Nat)
  | ackReturned (dt : Nat) (req : Requester) (unit : Nat)
  | setAlive (dt : Nat) (req : Requester) (unit : Nat)
  | setSuspect (dt : Nat) (req : Requester) (unit : Nat)
  | setDead (dt : Nat) (req : Requester) (unit : Nat)
  | unitCmdDone (dt : Nat)
  | livenessScan (dt : Nat)
  | tpDtGap (dt session : Nat)
  | tpCtsWait (dt session : Nat)
  | tpHold (dt session : Nat)
  | sessionClr (dt : Nat) (req : Requester)
  -- MACsec (chapter 08)
  | keyInstall (dt : Nat) (req : Requester) (sa slot : Nat)
  | keyDone (dt : Nat)
  -- legacy channels (chapter 09)
  | canFrameTx (dt channel : Nat) (result : CanResult) (waited : Bool)
  | canIntegrated (dt channel : Nat)
  | recovered (dt channel : Nat)
  | recover (dt : Nat) (req : Requester) (channel : Nat)
  | flushTx (dt : Nat) (req : Requester) (channel : Nat)
  | clrMax (dt : Nat) (req : Requester) (channel : Nat)
  | canRxError (dt channel : Nat) (error : CanError) (dominant : Bool)
  | linSlotStart (dt channel : Nat) (response : LinResponse)
  | linHeaderRx (dt channel id bitNs : Nat) (parityOk : Bool) (response : LinResponse) (ago : Nat)
  | wake (dt : Nat) (req : Requester) (channel : Nat)
  | linSleep (dt : Nat) (req : Requester) (channel : Nat)
  | wakeRxLin (dt channel : Nat)
  | linSchedRestart (dt channel : Nat)
  | uartTx (dt channel : Nat) (waited : Bool)
  | gclkRestored (dt : Nat)
  | legacyMessageReceived (dt port : Nat) (rx : LegacyRx) (ago : Nat)
  -- the legacy gateway (chapter 09)
  | gwRouteProcess (dt : Nat)
  | acfBatchTimeout (dt index : Nat)
  | asmPeriod (dt index : Nat)
  | asmGapEnd (dt index : Nat)
  | signalStale (dt signal : Nat)
  | gwClr (dt : Nat) (req : Requester)
  | niuClaim (dt inst member : Nat) (event : NiuEvent)
  -- the host bridge and DMA (chapter 10)
  | pcieReset (dt : Nat) (kind : PcieReset)
  | pcieLinkUp (dt width speed : Nat) (msixEn funcMask d3hot : Bool)
  | msixUnmask (dt : Nat) (req : Requester) (vector : Option Nat)
  | brgFenceRead (dt : Nat) (req : Requester)
  | fenceTimeout (dt : Nat) (req : Requester)
  | pelAck (dt : Nat) (req : Requester) (seq : Nat)
  | doorbell (dt : Nat) (req : Requester) (ring value : Nat) (user : Bool)
  | descriptorFetch (dt ring : Nat) (mem : List MemSeg)
  | dmaTxFrame (dt : Nat) (mem : List MemSeg)
  | dmaRxFrame (dt : Nat) (ecc : EccResult) (mem : List MemSeg)
  | dmaChunk (dt : Nat) (write : Bool) (ecc : EccResult) (mem : List MemSeg)
  | itrExpire (dt ring : Nat)
  | start (dt : Nat) (req : Requester) (ring : Nat)
  | stop (dt : Nat) (req : Requester) (ring : Nat)
  | resume (dt : Nat) (req : Requester) (ring : Nat) (discard : Bool)
  | stopComplete (dt ring : Nat) (mem : List MemSeg)
  | invCmd (dt : Nat) (req : Requester) (value : Word)
  | invDone (dt : Nat)
  | fltAck (dt : Nat) (req : Requester) (seq : Nat)
  | completionTimeout (dt ring : Nat) (isWalk : Bool) (mem : List MemSeg)
  -- requests that arrive as messages (chapters 10 and 11)
  | qspiWrite (dt : Nat) (bytes : List Byte)
  | qspiRead (dt : Nat) (bytes : List Byte) (giveUp : Bool)
  | qspiBusyTimeout (dt : Nat)
  | remoteRequest (dt link : Nat) (op : RemoteOp)
  | ehruzRequest (dt port : Nat) (src : EhruzSource) (other : Bool) (dst : Nat) (broadcast : Bool) (op : EhruzOp)
  -- Tenon (chapter 11)
  | flitRx (dt link : Nat) (flit : Flit)
  | tenonTrained (dt link peer : Nat) (reversed : Bool)
  | tenonIdRetry (dt link : Nat)
  | tenonCalibrated (dt link : Nat) (flits : List (Nat × Nat)) (reach : Nat)
  | retrain (dt : Nat) (req : Requester) (link : Nat)
  | remeasure (dt : Nat) (req : Requester) (link : Nat)
  | tenonLaneLoss (dt link : Nat) (partnerReset : Bool)
  | peerTimeout (dt dev : Nat)
  | creditReturn (dt link cls bytes : Nat)
  -- resets and clocks (chapter 12)
  | powerOnReset (dt : Nat) (pins : PorPins) (ringId : Nat)
  | pinReset (dt ns : Nat)
  | coreBor (dt : Nat)
  | devRst (dt : Nat) (req : Requester) (key : Nat)
  | wdtKick (dt : Nat) (req : Requester) (value : Nat)
  | wdtWarn (dt : Nat)
  | watchdogReset (dt : Nat)
  | xtalStartCheck (dt : Nat) (amp : Bool) (ppm : Int)
  | hfrcTrim (dt : Nat) (ppm : Int) (usable : Bool)
  | lfrcTrim (dt : Nat)
  | pllLoss (dt pll : Nat)
  | freqMonitorWindow (dt pll : Nat) (ok : Bool)
  | pllRelock (dt pll : Nat)
  | xtalFail (dt : Nat)
  | hfrcFail (dt : Nat)
  | gclkSwitch (dt : Nat)
  | gclkSwForced (dt : Nat)
  | xtalBack (dt : Nat)
  | domRstTrestle (dt : Nat) (req : Requester) (scribeA scribeB : ScribeTest)
  | domRstLegacy (dt : Nat) (req : Requester)
  | domRstPcie (dt : Nat) (req : Requester)
  | domRstFabric (dt : Nat) (req : Requester)
  -- modes (chapter 13)
  | modeCmdSentry (dt : Nat) (req : Requester) (key : Nat)
  | modeCmdRun (dt : Nat) (req : Requester) (key : Nat)
  | modeCmdLimp (dt : Nat) (req : Requester) (key : Nat)
  | modeCmdService (dt : Nat) (req : Requester) (key : Nat)
  | modeCmdQuarantine (dt : Nat) (req : Requester) (key : Nat)
  | modeCmdDormant (dt : Nat) (req : Requester) (key : Nat)
  | entryAck (dt : Nat)
  | entryForced (dt : Nat)
  | sentryIdle (dt : Nat)
  | thermal (dt : Nat)
  | limpCauseClear (dt : Nat) (req : Requester) (bits : Nat)
  | dieTempRefresh (dt : Nat) (temp : Int)
  | massEmitDone (dt : Nat)
  | wakePin (dt pin : Nat) (high edge : Bool) (periods : Nat)
  | rtcAlarm (dt : Nat)
  | tc10WakePulse (dt port : Nat)
  | powerReturn (dt : Nat)
  | wakeAfterEntry (dt : Nat)
  | pwrGood (dt : Nat) (temp : Int)
  | pwrGoodTimeout (dt : Nat)
  | wakeRetry (dt : Nat)
  | powerFail (dt us : Nat)
  | pfClear (dt : Nat)
  | load (dt : Nat) (req : Requester)
  | capture (dt : Nat) (req : Requester)
  -- the boot sequence (chapter 14)
  | bootSequence (dt cap : Nat) (octal : Bool) (grain : List Byte) (scribeA scribeB : ScribeTest) (otpBad : Option Nat)
  | fallbackApply (dt : Nat)
  -- flash and OTP (chapter 14)
  | flRead (dt : Nat) (req : Requester)
  | flProgram (dt : Nat) (req : Requester)
  | erase4k (dt : Nat) (req : Requester)
  | erase64k (dt : Nat) (req : Requester)
  | flDone (dt : Nat) (ok : Bool)
  | flEraseTimeout (dt : Nat)
  | otpRead (dt : Nat) (req : Requester) (key : Nat)
  | otpProgram (dt : Nat) (req : Requester) (key : Nat)
  | otpDone (dt : Nat) (ok : Bool)
  -- Trestle (chapter 15)
  | heartbeat (dt : Nat) (req : Requester) (value : Word)
  | fwStopped (dt : Nat)
  | checkpoint (dt : Nat) (req : Requester) (seq : Nat)
  | echo (dt : Nat) (req : Requester) (seq : Nat)
  | version (dt : Nat) (req : Requester) (seq : Nat)
  | health (dt : Nat) (req : Requester) (seq : Nat)
  | traceLevel (dt : Nat) (req : Requester) (seq : Nat)
  | checkpointNow (dt : Nat) (req : Requester) (seq : Nat)
  | unknownService (dt : Nat) (req : Requester) (seq service : Nat)
  | rspAck (dt : Nat) (req : Requester) (seq : Nat)
  | mismatch (dt : Nat) (a b : LegOutputs)
  | resyncDone (dt : Nat)
  | checkerFault (dt : Nat) (parity : Bool) (leg scribe group : Nat)
  | warmRestart (dt held : Nat) (a b : ScribeTest)
  | agreeSelftest (dt : Nat) (won : SampleTest)
  | memoryScrub (dt : Nat) (area : TrMem) (ecc : EccResult)
  | split (dt : Nat) (req : Requester) (key : Nat)
  | handoverPoint (dt : Nat)
  | handoverTimeout (dt : Nat)
  | splitDone (dt : Nat)
  | spareViolation (dt : Nat)
  | rejoin (dt : Nat) (req : Requester) (key : Nat)
  | rejoinDone (dt : Nat)
  | halt (dt : Nat) (req : Requester) (key : Nat)
  | mlogAck (dt : Nat) (req : Requester) (seq : Nat)
  -- Prisil (chapter 16)
  | enrol (dt : Nat) (req : Requester) (key : Nat)
  | derive (dt : Nat) (req : Requester) (slot parent kind : Nat) (checked : Bool)
  | clear (dt : Nat) (req : Requester) (slot : Nat)
  | seal (dt : Nat) (req : Requester) (slot : Nat)
  | unseal (dt : Nat) (req : Requester) (slot : Nat)
  | mac (dt : Nat) (req : Requester) (slot : Nat)
  | declareSuccessor (dt : Nat) (req : Requester)
  | withdrawSuccessor (dt : Nat) (req : Requester)
  | cmdDone (dt : Nat) (fault : Bool)
  | remask (dt : Nat) (faults : List Nat)
  | glitch (dt : Nat)
  -- update (chapter 17)
  | verify (dt : Nat) (req : Requester) (key : Nat)
  | verifyDone (dt : Nat) (ok : Bool)
  | armNextStart (dt : Nat) (req : Requester) (target key : Nat)
  | armComplete (dt : Nat) (ok : Bool)
  | disarm (dt : Nat) (req : Requester) (key : Nat)
  | disarmComplete (dt : Nat) (ok : Bool)
  | prepareHitless (dt : Nat) (req : Requester) (target key : Nat)
  | prepReady (dt : Nat) (ok : Bool)
  | cancelPrep (dt : Nat) (req : Requester) (key : Nat)
  | spareReady (dt : Nat)
  | notReady (dt : Nat)
  | activationDirectoryWrite (dt : Nat)
  | confirm (dt : Nat) (req : Requester) (key : Nat)
  | confirmed (dt : Nat) (ack ok : Bool)
  | revert (dt : Nat) (req : Requester) (key : Nat)
  | autoConfirm (dt : Nat)
  -- health (chapter 18)
  | ctrSel (dt : Nat) (req : Requester) (counter : Nat) (value : Word)
  | perfClr (dt : Nat) (req : Requester) (mask : Nat)
  | freeze (dt : Nat) (req : Requester) (on : Bool)
  | userEn (dt : Nat) (req : Requester) (on : Bool)
  | wearSense (dt : Nat) (drifts : List Nat) (switched : Bool)
  | tempBinSecond (dt : Nat)
  | lifeRecordWrite (dt : Nat) (input : LifeInput)
  | lifeEstimate (dt : Nat) (mechs : List Mech)
  deriving DecidableEq, Repr

end Sys2Proof
end

