-- ==== Sys2Proof/Machine/State.lean ====
section
/-! DEFINITION. The state of the block: plain data, everything the spec gives it. -/
namespace Sys2Proof.Machine

open Sys2Proof

/-- Nothing in the spec stops the block by a fault: bad accesses are logged (R40), bad frames counted (R20). No meaning of the
model raises this; the constructor stands so that the type is not empty. -/
inductive Fault where
  | none
  deriving DecidableEq, Repr

/-- The reasons for which the model has no meaning for a command. -/
inductive Refusal where
  /-- Raised by `exec`'s arm of a command that has no meaning yet. Safe: the model stops. -/
  | notModelled (mnemonic : String)
  deriving DecidableEq, Repr

/-- What leaves the block during one command (log entry 6). -/
inductive Output where
  /-- An access ends with a bus error or Unsupported Request (R34, R253). -/
  | busError (req : Requester) (addr : Nat)
  /-- The data of a register read; of a read of the trace memory (R254). -/
  | readData (req : Requester) (addr : Nat) (value : Word)
  | traceData (addr : Nat) (bytes : List Byte)
  /-- An MSI-X write on a vector (R52, R260). -/
  | msix (vector : Nat)
  /-- A frame, or what is left of it, ends its transmission on a port; `good` is false for a stomped FCS or an abort (R15). -/
  | frame (port : Nat) (bytes : List Byte) (good : Bool)
  /-- Origin ring ID, origin port and hop count of the frame that follows on a T port (R290). -/
  | ringHeader (port ring ringPort hops : Nat)
  /-- A gPTP or Ehruz frame handed to firmware, with its ingress stamp (R130, R295). -/
  | trapped (port : Nat) (bytes : List Byte) (stamp : Nat)
  /-- A gPTP message that firmware sends on a port for an instance: Sync (0), Announce (1), Pdelay_Req (2), Follow_Up (3), Pdelay_Resp (4)
or Pdelay_Resp_Follow_Up (5), the domain number with what an Announce advertises or the time that a Follow_Up carries; its egress
stamp, which firmware receives (R129, R130, R132). -/
  | gptpMessage (port inst kind : Nat) (fields : List Nat) (stamp : Nat)
  /-- Firmware is told of an entry to SENTRY or DORMANT (R329). -/
  | entryNotice (mode : Nat)
  /-- A TC10 wake pulse or sleep handshake signal on a port (R65, R69), a PLCA beacon (R70). -/
  | wakePulse (port : Nat)
  | sleepRequest (port : Nat)
  | sleepReject (port : Nat)
  | beacon (port : Nat)
  /-- A time word on a T port: the head's time in 2^-40 ns, its EPOCH, its validity (R133, R292). -/
  | timeWord (port time epoch : Nat) (valid : Bool)
  /-- Credit for a held class given back on a T link, in bytes (R293). -/
  | credit (port cls bytes : Nat)
  /-- A write to host memory (R260). -/
  | memWrite (addr : Nat) (bytes : List Byte)
  /-- What the QSPI slave answers to a read (R255, R257). -/
  | qspiAnswer (bytes : List Byte)
  /-- The response that a LIN channel sends for a frame ID, its checksum last (R233). -/
  | linResponse (channel id : Nat) (bytes : List Byte)
  /-- The answer to a ring peer's register request (R291): cause 0, or what refused it. -/
  | reply (addr cause : Nat) (data : Word)
  /-- Firmware's answer to an Ehruz request (R295), with the request's sequence number and the words read from this device. -/
  | ehruzAnswer (port seq : Nat) (words : List Word)
  /-- An event delivered to Trestle (R52, R53): the page's summary index, whether it is non-maskable, and the legs that it reaches, each
with the cycles from its sampling to its delivery (R366, R367). -/
  | fwEvent (page : Nat) (nmi : Bool) (legs : List (Nat × Nat))
  /-- XSPI_RST_N pulses low for 10 us (R342). -/
  | xspiReset
  deriving DecidableEq, Repr

/-- An operation of a table window in progress (R54, R55): `waiting` while it waits for the other window's operation on the same
table, `result` where its TBL_CMD was refused already. -/
structure WinOp where
  op : Nat
  table : Nat
  index : Nat
  tag : Nat
  req : Requester
  waiting : Bool
  result : Nat
  deriving DecidableEq, Repr

/-- A commit request in progress (R42): AT_TIME or GO, its handle, when it was accepted and when it entered WAIT_SAFE. -/
structure CommitRt where
  atTime : Bool := false
  handle : Nat := 0
  since : Nat := 0
  deriving DecidableEq, Repr

/-- The group request in progress (R48): its members by summary index. -/
structure GroupRt where
  atTime : Bool := false
  handle : Nat := 0
  since : Nat := 0
  members : List Nat := []
  deriving DecidableEq, Repr

/-- An entry of the posted-error log (R262). -/
structure PelEntry where
  addr : Nat
  data : Word
  cause : Nat
  req : Requester
  seq : Nat
  wseq : Nat
  deriving DecidableEq, Repr

/-- A record of the capture ring (R254): its words 0 to 6. -/
structure CapRecord where
  number : Nat
  stamp : Nat
  kind : Nat
  words : List Word
  deriving DecidableEq, Repr

/-- What the start of a copy's transmission has decided about its bytes on the wire (R75, R86, R197): it leaves untagged, the
rewrite of its egress lookup, its protection. -/
structure Edit where
  untag : Bool := false
  rewrite : Rewrite := {}
  mac : Option MacSeal := none
  /-- It started by cut-through, from a release queue; its egress stamp (R78). -/
  cut : Bool := false
  timed : Bool := false
  sof : Nat := 0
  /-- Its length on the wire with FCS, the longest that it can have where it is still arriving: the credit that it takes on a T link
  (R293). `MAX_LEN` of its egress port when it started (R45, R173). -/
  wire : Nat := 0
  maxLen : Nat := 0
  /-- The cycle at which its present fragment began, and the bytes that earlier fragments have carried (R74). -/
  fragAt : Nat := 0
  sent : Nat := 0
  deriving DecidableEq, Repr

/-- How a copy came to its queue: not through admission, or admitted to a held class or to a bulk class, whose rules it keeps (R90,
R107). -/
inductive Regime where
  | outside | held | bulk
  deriving DecidableEq, Repr

/-- One copy of a frame at one egress port: numbered, queued, spilled, waiting in a window or in transmission (R89 to R104). -/
structure Copy where
  /-- The frame it is a copy of: copies of one frame share its cells (R93). -/
  fid : Nat
  /-- The frame's bytes, DMAC first, without FCS; those received so far while `open` is set. -/
  bytes : List Byte
  ingress : Nat
  /-- The port of the Bridle key: the legacy origin of a gateway frame (R23), else the ingress port. -/
  origin : Nat
  egress : Nat
  cls : Nat
  /-- The fabric sequence number (R90), and the regime under which it took it. -/
  seq : Nat
  regime : Regime := .outside
  vid : Nat
  pcp : Nat
  handle : Option Nat := none
  /-- The unit entry of its source (R189); its DMA launch time (R153). -/
  unit : Option Nat := none
  launch : Option Launch := none
  /-- The rewrite that its ingress lookup named (R197). -/
  rewrite : Rewrite := {}
  /-- A copy of a multicast, broadcast or flooded frame (R19). -/
  multi : Bool := false
  /-- Origin ring ID, origin logical port and hop count that it carries on Tenon (R290). -/
  ring : Nat := 0
  ringPort : Nat := 0
  hops : Nat := 0
  /-- What becomes of its R-TAG (R172, R173): left as received, removed, or set to a number. -/
  rtag : Option (Option Nat) := none
  /-- DEI is marked (R195). -/
  mark : Bool := false
  /-- In transmission: its edits, and how often an express frame has interrupted it (R74). -/
  going : Option Edit := none
  frags : Nat := 0
  /-- Spilled; still in the write buffer; back in the return buffer (R96, R97). -/
  spilled : Bool := false
  writing : Bool := false
  back : Bool := false
  /-- The cycle at which the read of R96 was requested. -/
  reading : Option Nat := none
  /-- The reception still running, for a cut-through copy (R14). -/
  rx : Option Nat := none
  /-- Cut-through copies may start before their frame's end (R103). -/
  cutOk : Bool := false
  /-- Found bad (R94, R104). -/
  bad : Bool := false
  /-- Ingress stamp (R78) and the EPOCH at it. -/
  stamp : Nat := 0
  epoch : Nat := 0
  /-- The cycle at which the copy was admitted. -/
  enq : Nat := 0
  /-- The cycle at which the copy reached the head of its queue (R145). -/
  head : Option Nat := none
  /-- The cycles at which the copy entered its reorder window, and at which the timer of a gap that it opened ends (R100). -/
  winAt : Nat := 0
  winDue : Nat := 0
  /-- A mirror copy, and whether it is truncated (R198). -/
  mirror : Bool := false
  trunc : Bool := false
  /-- A Cinch safe frame (R162); the frame of a SEND action (R148), which occupies no packet memory. -/
  safe : Bool := false
  send : Bool := false
  /-- The epoch of its egress port's crossing when its transfer began (R321). -/
  xing : Bool := false
  deriving DecidableEq, Repr

/-- One (egress port, class) queue and, for a bulk class, its reorder window (R91, R92, R99). -/
structure Queue where
  /-- Admitted copies in order of admission, spilled ones in their places. -/
  items : List Copy := []
  /-- Copies waiting in the window. -/
  window : List Copy := []
  /-- Copies released in order, ready to start. -/
  ready : List Copy := []
  /-- Numbers known to be lost (R94, R98), with their ingress port. -/
  lost : List (Nat × Nat) := []
  /-- The next expected number of each ingress port, where it is not 0. -/
  expected : List (Nat × Nat) := []
  deriving DecidableEq, Repr

/-- The record of a warm link resume in the AON warm store (R65). -/
structure WarmRec where
  rate : Nat
  longBed : Bool
  temp : Int
  /-- Both partners announced warm-resume ability. -/
  able : Bool
  /-- The training coefficients and the partner's resume tag: each one free value (log entry 4). -/
  coeff : Nat := 0
  tag : Nat := 0
  deriving DecidableEq, Repr

/-- What a port keeps besides its registers (R62 to R72). -/
structure PortRt where
  /-- The cycle at which the present link state was entered. -/
  since : Nat := 0
  /-- Failed preemption verify attempts since the link came up, the cycle at which the present one began (R74). -/
  verifyTries : Nat := 0
  verifyAt : Nat := 0
  /-- The rate at which the link runs, in SLEEP_NEG too (R62, R80). -/
  rate : Nat := 0
  /-- The training coefficients in the PHY and the partner's resume tag, free values (R65). -/
  coeff : Nat := 0
  tag : Nat := 0
  /-- The cycle of the last beacon sent or received, and the frames sent in the present PLCA cycle (R70). -/
  beacon : Option Nat := none
  burst : Nat := 0
  /-- The opportunity of this node began or begins, as far as the medium shows, at this cycle (R70). -/
  plcaNode : Nat := 0
  plcaAt : Nat := 0
  /-- Rate and long-bed of the coefficients that a PHY keeps in SLEEP (R66). -/
  kept : Option (Nat × Bool) := none
  deriving DecidableEq, Repr

/-- What stage 5 decided about a frame (R174 to R176). -/
inductive FrerVerdict where
  /-- No recovery applies: not handed to FRER, no elimination, or passed without an R-TAG. -/
  | pass
  /-- The frame holds its number pending, or waits in the hold buffer for the frame that does. -/
  | pending
  | held
  /-- Discarded at stage 5: as a duplicate, as rogue, by individual recovery, or otherwise. -/
  | duplicate
  | rogue
  | individual
  | dropped
  deriving DecidableEq, Repr

/-- A frame on its way through stages 1 to 6. -/
structure Frame where
  fid : Nat
  /-- DMAC first, without FCS; those received so far while the tail is still to come. -/
  bytes : List Byte
  ingress : Nat
  /-- The port of the Bridle key: the legacy origin of a gateway frame (R23), else the ingress port. -/
  origin : Nat
  stamp : Nat := 0
  epoch : Nat := 0
  cls : Nat := 0
  /-- The class is fixed by the gateway route, the DMA descriptor or a Bridle action (R13, R86). -/
  fixed : Bool := false
  vid : Nat := 0
  pcp : Nat := 0
  handle : Option Nat := none
  /-- The rewrite that its ingress lookup named (R197). -/
  rewrite : Rewrite := {}
  /-- The rules that its ingress lookup took, the policers that metered it with whether as yellow, the bytes that they have
  counted (R192, R195). -/
  rules : List Nat := []
  pols : List (Nat × Bool) := []
  counted : Nat := 0
  /-- Of a frame still arriving: the rules that egress lookups of its copies took, with the bytes that these have counted (R192). -/
  owed : List (List Nat × Nat) := []
  /-- Its source address may be learned, as stage 4 found the settings (R45, R88). -/
  learns : Bool := false
  /-- `MAX_LEN` when it began, how its SecY verifies it (R45). -/
  maxLen : Nat := 0
  plan : Option MacPlan := none
  /-- Its egress set (R85). -/
  set : Nat := 0
  /-- The compound stream that it is handed to, and its member (R170 to R173). -/
  comp : Option Nat := none
  member : Option Nat := none
  /-- The ring ID and the logical port at which the frame entered the ring (R171). -/
  ring : Nat := 0
  ringPort : Nat := 0
  hops : Nat := 0
  /-- The unit entry that K0 names and every one that the frame's keys match (R204); its DMA launch time (R153). -/
  unit : Option Nat := none
  units : List Nat := []
  launch : Option Launch := none
  /-- The number of the R-TAG that it came with, and the one that it leaves with (R172, R173). -/
  seqIn : Option Nat := none
  seqOut : Option Nat := none
  /-- How stage 5 judged it, and under which rules (R176, R186). -/
  verdict : FrerVerdict := .pass
  frer : Option FrerRule := none
  /-- The entry of table STREAM that it matches forbids cut-through (R103). -/
  ctBlock : Bool := false
  /-- It may start by cut-through while its tail is still to come (R103). -/
  early : Bool := false
  /-- As received, MACsec included, of a frame whose tail is still to come; its head has been decided. -/
  raw : List Byte := []
  headed : Bool := false
  /-- The epoch of its ingress port's crossing when it began (R321). -/
  xing : Bool := false
  /-- DEI is marked (R195). -/
  mark : Bool := false
  /-- A multicast, broadcast or flooded frame, or one with several egress ports (R19). -/
  multi : Bool := false
  /-- It passed unit fencing, and all of Bridle ingress. -/
  fenceOk : Bool := false
  passed : Bool := false
  /-- Trapped to firmware: a gPTP or an Ehruz frame (R130, R295). -/
  trap : Bool := false
  /-- The PLCA node that sent it on an S port (R204). -/
  node : Option Nat := none
  /-- The cycle at which its start of frame passed (R70); the monotonic counter and local time in ns that its stamp names. -/
  began : Nat := 0
  seen : Nat := 0
  time : Nat := 0
  deriving DecidableEq, Repr

/-- One recovery function (R174): of a compound stream, or of a member with IND_EN (R175). -/
structure Recovery where
  takeAny : Bool := true
  seq : Nat := 0
  history : Nat := 0
  /-- The cycle at which the reset timer was last restarted. -/
  timer : Option Nat := none
  deriving DecidableEq, Repr

/-- What FRER keeps of a compound stream (R172 to R182). -/
structure CompRt where
  recov : Recovery := {}
  gen : Nat := 0
  /-- Pending numbers with the frames that hold them (R176). -/
  pending : List (Nat × Nat) := []
  latPassed : Nat := 0
  latDiscarded : Nat := 0
  latAt : Nat := 0
  latResetAt : Nat := 0
  deriving DecidableEq, Repr

/-- What FRER keeps of a member (R180). -/
structure MemRt where
  state : Nat := 0
  cause : Nat := 0
  /-- The cycles of the last good frame (or of entry to INIT) and of entry to the present state; rogue frames of the last 1 s. -/
  lastGood : Nat := 0
  entered : Nat := 0
  rogues : List Nat := []
  ind : Recovery := {}
  deriving DecidableEq, Repr

/-- A frame in the hold buffer (R176 to R178); `done` once it has completed good. -/
structure Hold where
  comp : Nat
  seq : Nat
  frame : Frame
  done : Bool
  deriving DecidableEq, Repr

/-- A release request (R153 to R157) in the queue of its target: a legacy message, or a copy for an S port. -/
structure RelReq where
  target : Nat
  /-- The release instant in ns of local time. -/
  r : Int
  /-- Past on arrival; executed while time was INVALID; delayed by its medium (R156). -/
  late : Bool := false
  notime : Bool := false
  busy : Bool := false
  tag : Nat := 0
  msg : Option TxMsg := none
  copy : Option Copy := none
  deriving DecidableEq, Repr

/-- The chip: every register, table, counter, buffer, mode and pin. -/
structure Chip where
  /-- Elapsed time in cycles of 2 ns (log entry 1). -/
  cycles : Nat := 0
  /-- `cycles` at the last device reset: the monotonic count starts there (R115). -/
  rstAt : Nat := 0
  /-- Free values taken so far (log entry 4). -/
  free : Nat := 0
  /-- What left the block during the last command (log entry 6). -/
  outs : List Output := []
  /-- Register words by byte address; active copies at + 0x800 (R38), copies of one requester's side at + 2^24 × code. -/
  regs : List (Nat × Word) := []
  /-- Table words: the bank that the block acts on (the one bank of a direct table). -/
  tblA : List (Nat × Word) := []
  /-- Table words: the staged bank (R55). -/
  tblS : List (Nat × Word) := []
  /-- 48-bit counters as they count (R29). -/
  cnt : List (Nat × W48) := []
  /-- 48-bit counters as the latest snapshot holds them (R56). -/
  snap : List (Nat × W48) := []
  /-- Entry buffers of the table windows (R54). -/
  wbuf : List (Nat × Word) := []
  /-- Window operations in progress, by summary index × 2 + side. -/
  wins : List (Nat × Option WinOp) := []
  /-- Summary indices of pages whose staged banks are being refilled (R55). -/
  syncs : List Nat := []
  /-- Pages with a snapshot in progress (R56); those that SNAP_ALL started. -/
  snapAll : List Nat := []
  /-- Commit requests in progress by summary index (R42). -/
  commits : List (Nat × CommitRt) := []
  group : GroupRt := {}
  /-- Write sequence number and failed-write count of the PCI Express and QSPI requesters (R262, R263), by requester code. -/
  wseq : List (Nat × Word) := []
  failed : List (Nat × Nat) := []
  /-- Posted writes to ring peers not yet decided, by requester code (R263). -/
  undecided : List (Nat × Nat) := []
  /-- The posted-error log, oldest first, and the SEQ of its next entry (R262, R264). -/
  pel : List PelEntry := []
  pelSeq : Nat := 0
  /-- The capture ring: its latest 2,048 records, oldest first (R254). -/
  capRing : List CapRecord := []
  /-- The local time at `tAnchor`, in 2^-40 ns (R113), and whether it runs. -/
  tBase : Nat := 0
  tAnchor : Nat := 0
  tStopped : Bool := false
  /-- Per-port records by logical port number. -/
  ports : List (Nat × PortRt) := []
  /-- The AON warm store's port records by logical port number (R65, R331). -/
  warm : List (Nat × Option WarmRec) := []
  /-- Queues by egress port × 8 + class (R91, R92). -/
  queues : List (Nat × Queue) := []
  /-- Next fabric sequence number by (egress × 8 + class) × 64 + ingress (R90). -/
  seqs : List (Nat × Nat) := []
  /-- The copy in transmission at each egress port. -/
  tx : List (Nat × Option Copy) := []
  /-- Copies whose transmission another frame interrupts (R74, R286): those of one port in order of their interruption. -/
  preempted : List Copy := []
  /-- The frame that an ingress port is still receiving, its head already decided (R103). -/
  rx : List (Nat × Option Frame) := []
  /-- Number of frames seen, the next `Copy.fid`. -/
  nextFid : Nat := 0
  /-- The spill write limiter: half bytes of credit, and the cycle they were counted at (R95). -/
  spillCredit : Nat := 131072
  spillAt : Nat := 0
  /-- Copies in the SENTRY bypass between S ports and GW, in order of arrival (R106). -/
  bypass : List Copy := []
  /-- Multicast frames whose partial delivery has been counted and that still have copies (R19). -/
  partials : List Nat := []
  /-- Compound streams, members and the hold buffer in order of arrival (R174 to R180). -/
  comps : List (Nat × CompRt) := []
  members : List (Nat × MemRt) := []
  holds : List Hold := []
  /-- The cycle at which the FDB ageing period began (R88); the flush in progress (R112). -/
  ageAt : Nat := 0
  flush : Option Word := none
  /-- LPDDR4X training in progress (R110). -/
  spillTraining : Bool := false
  /-- PLL_S is not locked, as after a reset: local time and the monotonic counter count on HFRC (R123, R139). -/
  timeHfrc : Bool := true
  /-- The last 1 ms slew grid tick acted on (R115). -/
  slewIndex : Nat := 0
  /-- The cycles of the last correction and of entry to HOLDOVER; HOLDOVER_LONG has been raised (R122). -/
  corrAt : Nat := 0
  holdoverAt : Nat := 0
  holdoverLong : Bool := false
  ppsArm : Option PpsArm := none
  /-- PPS_OUT is high until this cycle (R128). Changed PPS_OUT settings act from this second of local time on (R134); until then EN,
  WIDTH and ADV as they were. -/
  ppsOut : Option Nat := none
  ppsSecond : Nat := 0
  ppsOld : Option (Bool × Nat × Nat) := none
  /-- The SCLK cycles of the last accepted step and of the last loss of PLL_S, with the state before that (R120). -/
  stepAt : Option Nat := none
  lossAt : Option (Nat × Nat) := none
  /-- What the time unit and gPTP keep besides. -/
  tm : TimeRt := {}
  /-- The ring head's epoch as a follower last saw it (R133). -/
  headEpoch : Option Nat := none
  ptp : List (Nat × PtpRt) := []
  /-- Lists by index (R143); the Story pole halted for good by QUARANTINE (R163). -/
  lists : List (Nat × ListRt) := []
  storyHalted : Bool := false
  /-- What arming has fixed for ARMED one-shot actions. -/
  ones : List (Nat × Option OneRt) := []
  pinPulses : List PinPulse := []
  /-- The cycle of the last PIN one-shot and its pins: it wins over a list entry in that cycle (R147). -/
  pinShot : Nat × Nat := (0, 0)
  pulses : List (Nat × PulseRt) := []
  /-- The last 1 us grid tick at which distance actions were evaluated (R159). -/
  distIndex : Nat := 0
  /-- Release queues: for each target the requests in order of release instant (R154). -/
  rels : List RelReq := []
  rlog : List RlogEntry := []
  rlogSeq : Nat := 0
  ilog : List IlogEntry := []
  ilogSeq : Nat := 0
  watches : List (Nat × WatchRt) := []
  /-- Safe frames that wait for their transmitters, in the order in which they were handed over (R162, R163). -/
  safeFrames : List SafeFrame := []
  policers : List (Nat × PolRt) := []
  sessions : List (Nat × Sess) := []
  units : List (Nat × UnitRt) := []
  /-- The NAME that holds channel × 256 + address (R205). -/
  claims : List (Nat × Option Nat) := []
  /-- The unit command that executes (R206), with its requester. -/
  unitCmd : Option (Word × Requester) := none
  /-- MACsec: present PN by SA (where not the reset's), keys by SA, the install in progress. -/
  pns : List (Nat × Nat) := []
  saKeys : List (Nat × List Byte) := []
  keyInstall : Option KeyInstall := none
  /-- Prisil: the root, its slots, the declared successor, its operations in order, the faults of the last second (R382 to R397). -/
  root : Option (List Byte) := none
  slots : List (Nat × SlotRt) := []
  succ : Option Successor := none
  prisilOps : List PrisilOp := []
  shareFaults : List (Nat × Nat) := []
  inq : List GwItem := []
  cans : List (Nat × CanRt) := []
  lins : List (Nat × LinRt) := []
  uarts : List (Nat × UartRt) := []
  acfs : List (Nat × AcfRt) := []
  asms : List (Nat × AsmRt) := []
  sigs : List (Nat × SigRt) := []
  nius : List (Nat × NiuRt) := []
  tenons : List (Nat × TenonRt) := []
  /-- Held copies that have arrived on a T link and wait in its receive buffer for admission; the credit still to be given back for
frames that have arrived (R293). -/
  tWait : List Copy := []
  tOwed : List CreditOwed := []
  /-- Register requests on their way to ring peers, oldest first (R291). -/
  remotes : List RemoteReq := []
  /-- The Ehruz device ID whose conflict firmware has seen (R296). -/
  ehruzConflict : Option Nat := none
  /-- DMA rings; the frame being written to a receive ring, frames held for a HALTED one, with their rings (R270). -/
  rings : List (Nat × RingRt) := []
  rxDma : List (Nat × Copy) := []
  rxHeld : List (Nat × Copy) := []
  /-- The epochs of the crossings at each page's block, by summary index (R321). -/
  xings : List (Nat × Bool) := []
  /-- The rings in turn on the read and on the write path, and whether an express ring interrupts their transfers (R274). -/
  readRing : Nat := 31
  writeRing : Nat := 15
  readPre : Bool := false
  writePre : Bool := false
  /-- The TLB, least recently used first; the fault log, oldest first, with the SEQ of its next entry; invalidations in order. -/
  tlb : List TlbEntry := []
  flts : List FltEntry := []
  fltSeq : Nat := 0
  invs : List InvCmd := []
  /-- Reads of BRG_FENCE that wait, oldest first, each with its requester's code and its cycle (R263). -/
  fences : List (Nat × Nat) := []
  /-- The QSPI read in progress (R257). -/
  qsRead : Option QsRead := none
  clk : ClkRt := {}
  pwr : PwrRt := {}
  aon : AonRt := {}
  wdt : WdtRt := {}
  /-- The supervisor cluster (R358 to R381). -/
  tr : TrRt := {}
  /-- Operations of XMEM in order, the OTP command in progress (R355, R356). -/
  flOps : List FlashOp := []
  otpOp : Option OtpOp := none
  /-- What the boot found (R351), the UPD engine (R400). -/
  boot : BootRt := {}
  upd : UpdRt := {}
  wear : WearRt := {}
  /-- TEST_EN read high at power-on reset: the device is held in reset (R428). -/
  testHold : Bool := false
  /-- The uncorrectable errors that Advanced Error Reporting shows (R248). -/
  aer : Nat := 0
  /-- In DORMANT (R331); in BOOT_FAIL (R353). -/
  dormant : Bool := false
  bootFail : Bool := false
  deriving DecidableEq, Repr

/-- What lies outside the chip's resettable state: the boot flash on its quad SPI bus (R341) as address and byte pairs in the
canonical form (an unlisted address reads as erased, 0xFF), the OTP words (R357), an unlisted one all 0, and what its settings journal
holds, of which the spec gives no layout (log entry 64): the lifetime record (R421), the fence blocks and the journal halves (R349). -/
structure Ext where
  flash : List Host.Cell := []
  otp : List (Nat × Word) := []
  life : Option LifeSaved := none
  fences : List FenceBlock := []
  /-- The journal halves that are not erased (R349). -/
  journal : List JournalHalf := []
  deriving DecidableEq, Repr

/-- The whole state: chip, memories outside it, and the queue of waiting commands, first in, first out. -/
structure State where
  chip : Chip
  ext : Ext
  pending : List Instr
  deriving DecidableEq, Repr

/-- The state right after power-on reset: every field at its reset value, erased flash, blank OTP, no command waiting. -/
def State.reset : State := { chip := {}, ext := {}, pending := [] }

end Sys2Proof.Machine
end

