-- ==== Sys2Proof/Machine/Ops.lean ====
section
/-! DEFINITION. The named operations over registers, tables, counters, events and time that every family uses. -/
namespace Sys2Proof.Machine

open Sys2Proof

/-! ## Pages without a number -/

abbrev pSYS : Page := ⟨.sys, 0⟩
abbrev pCLK : Page := ⟨.clk, 0⟩
abbrev pPWR : Page := ⟨.pwr, 0⟩
abbrev pRST : Page := ⟨.rst, 0⟩
abbrev pAON : Page := ⟨.aon, 0⟩
abbrev pXMEM : Page := ⟨.xmem, 0⟩
abbrev pBOOT : Page := ⟨.boot, 0⟩
abbrev pUPD : Page := ⟨.upd, 0⟩
abbrev pPRISIL : Page := ⟨.prisil, 0⟩
abbrev pTRESTLE : Page := ⟨.trestle, 0⟩
abbrev pPERF : Page := ⟨.perf, 0⟩
abbrev pWEAR : Page := ⟨.wear, 0⟩
abbrev pEVIO : Page := ⟨.evio, 0⟩
abbrev pTIME : Page := ⟨.time, 0⟩
abbrev pGPTP (g : Nat) : Page := ⟨.gptp, g⟩
abbrev pSTORY : Page := ⟨.story, 0⟩
abbrev pSTORYTBL : Page := ⟨.storyTbl, 0⟩
abbrev pCINCH : Page := ⟨.cinch, 0⟩
abbrev pFAB : Page := ⟨.fab, 0⟩
abbrev pBUF : Page := ⟨.buf, 0⟩
abbrev pSPILL : Page := ⟨.spill, 0⟩
abbrev pRSEQ : Page := ⟨.rseq, 0⟩
abbrev pFDB : Page := ⟨.fdb, 0⟩
abbrev pFRER : Page := ⟨.frer, 0⟩
abbrev pBRIDLE : Page := ⟨.bridle, 0⟩
abbrev pUNITS : Page := ⟨.units, 0⟩
abbrev pMACSEC : Page := ⟨.macsec, 0⟩
abbrev pPORT (n : Nat) : Page := ⟨.port, n⟩
abbrev pPHY (n : Nat) : Page := ⟨.phy, n⟩
abbrev pGW : Page := ⟨.gw, 0⟩
abbrev pCAN (n : Nat) : Page := ⟨.can, n⟩
abbrev pLIN (n : Nat) : Page := ⟨.lin, n⟩
abbrev pUART (n : Nat) : Page := ⟨.uart, n⟩
abbrev pPULSE : Page := ⟨.pulse, 0⟩
abbrev pHOST : Page := ⟨.host, 0⟩
abbrev pDMA : Page := ⟨.dma, 0⟩
abbrev pDXLT : Page := ⟨.dxlt, 0⟩
abbrev pQSPIS : Page := ⟨.qspis, 0⟩
abbrev pTENON (n : Nat) : Page := ⟨.tenon, n⟩
abbrev pTRING : Page := ⟨.tring, 0⟩

/-- The code of a requester in `ERR_CAUSE.REQUESTER` (R36). -/
def reqCode : Requester → Nat
  | .pcie => 1 | .qspi => 2 | .trestle => 3 | .peer => 4 | .bootRom => 5

/-- The window side that a requester uses (R54): Trestle and the boot ROM the firmware's, every other the host's. -/
def reqSide : Requester → Nat
  | .trestle | .bootRom => 1
  | _ => 0

/-! ## Elapsed time -/

/-- `n` microseconds in cycles of 2 ns. -/
def usCycles (n : Nat) : Nat := n * 500

/-- `n` milliseconds in cycles of 2 ns. -/
def msCycles (n : Nat) : Nat := n * 500000

/-- `n` seconds in cycles of 2 ns. -/
def secCycles (n : Nat) : Nat := n * 500000000

/-- `dt` cycles pass; nothing has left the block yet in this command. -/
def Chip.elapse (c : Chip) (dt : Nat) : Chip := { c with cycles := c.cycles + dt, outs := [] }

/-- Whole HFRC cycles in a span of `n` cycles of 2 ns, in ns: 15.625 ns each (R123). -/
def hfrcNs (n : Nat) : Nat := n * 2000 / 15625 * 15625 / 1000

/-- The monotonic counter in ns since the last device reset (R115, R139): it counts TCLK cycles at the nominal 2 ns, and HFRC cycles
while PLL_S is unlocked. -/
def Chip.mono (c : Chip) : Nat := c.tm.monoBase + if c.timeHfrc then hfrcNs (c.cycles - c.tm.monoAt) else 2 * (c.cycles - c.tm.monoAt)

/-- Something leaves the block. -/
def Chip.emit (c : Chip) (o : Output) : Chip := { c with outs := c.outs ++ [o] }

/-- A free value (log entry 4), and the chip that has taken it. -/
def Chip.takeFree (c : Chip) : Nat × Chip := ((Config.freeWord c.free).toNat, { c with free := c.free + 1 })

/-! ## Registers -/

/-- The key of a register in `regs`. -/
def regKey (p : Page) (off : Nat) : Nat := pageBase p + off

/-- What a register reads as when `regs` lists nothing: its reset value, the same on every requester's side. -/
def regDefault (k : Nat) : Word :=
  match pageOfAddr (k % 0x1000000) with
  | some p => regReset p (k % 0x1000)
  | none => 0

/-- The word held at an offset of a page. -/
def Chip.reg (c : Chip) (p : Page) (off : Nat) : Word := lookupD (regReset p off) c.regs (regKey p off)

/-- The word held at a key (used for the copies of one side). -/
def Chip.regAt (c : Chip) (k : Nat) : Word := lookupD (regDefault k) c.regs k

/-- The word at a key replaced. -/
def Chip.setRegAt (c : Chip) (k : Nat) (w : Word) : Chip := { c with regs := store (regDefault k) c.regs k w }

/-- The word at an offset of a page replaced. -/
def Chip.setReg (c : Chip) (p : Page) (off : Nat) (w : Word) : Chip := c.setRegAt (regKey p off) w

/-- The key of one side's copy of a register. -/
def sideKey (p : Page) (off side : Nat) : Nat := regKey p off + side * 0x1000000

/-- The offset whose word the block acts on: the active copy of a staged register (R38). -/
def Fld.actOff (f : Fld) : Nat := if f.rws then f.off + 0x800 else f.off

/-- The value of a field that the block acts on: active for RWS, present for the others. -/
def Chip.get (c : Chip) (p : Page) (f : Fld) : Nat := bitsAt (c.reg p f.actOff) f.lo f.width

/-- The staged value of a field (the value itself where it is not staged). -/
def Chip.staged (c : Chip) (p : Page) (f : Fld) : Nat := bitsAt (c.reg p f.off) f.lo f.width

/-- A field written at its own offset. -/
def Chip.put (c : Chip) (p : Page) (f : Fld) (v : Nat) : Chip := c.setReg p f.off (putBits (c.reg p f.off) f.lo f.width v)

/-- A one-bit field, as a Bool. -/
def Chip.is (c : Chip) (p : Page) (f : Fld) : Bool := decide (c.get p f = 1)

/-- In reset: until the crystal has passed its check after a power-on, core brown-out or clock reset (R1, R303, R310); for good where
TEST_EN was high (R428). -/
def Chip.inReset (c : Chip) : Bool := c.testHold || (c.clk.hold && c.clk.xtalStart.isSome)

/-- No interface answers: in DORMANT (R331), or in reset. -/
def Chip.dark (c : Chip) : Bool := c.dormant || c.inReset

/-- The operating mode (R339); DORMANT reads 6. -/
def Chip.mode (c : Chip) : Nat := if c.dormant then modeDormant else c.get pPWR F.PWR_MODE_STATUS_MODE

/-- The block is enabled (R36). -/
def Chip.enabled (c : Chip) (p : Page) : Bool := c.is p F.CTRL_EN

/-- The page is live in the present mode (R46). -/
def Chip.live (c : Chip) (p : Page) : Bool := liveIn p c.mode

/-- The block works: enabled, and on in the present mode (`STATUS.READY`, R36). -/
def Chip.ready (c : Chip) (p : Page) : Bool := c.enabled p && c.live p

/-! ## Time -/

/-- The applied increment of local time per 2 ns cycle, 2^-40 ns (R114). -/
def Chip.incr (c : Chip) : Nat := w48Of (c.reg pTIME 0x180) (c.reg pTIME 0x184)

/-- Local time in 2^-40 ns (R113 to R116): it runs at the applied rate from the last anchor. -/
def Chip.localTime (c : Chip) : Nat := if c.tStopped then c.tBase else c.tBase + (c.cycles - c.tAnchor) * c.incr

/-- Local time in whole nanoseconds. -/
def Chip.localNs (c : Chip) : Nat := c.localTime / 2 ^ 40

/-- A datapath stamp (R30): local time in ns modulo 2^32. -/
def Chip.stamp (c : Chip) : Nat := c.localNs % 2 ^ 32

/-- The local time set to a value now. -/
def Chip.anchor (c : Chip) (t : Nat) : Chip := { c with tBase := t, tAnchor := c.cycles }

/-! ## Counters -/

/-- The key of page counter `i`. -/
def cntKey (p : Page) (i : Nat) : Nat := pageIdx p * 1024 + i

/-- The key of counter `slot` held in an entry of a table. -/
def tblCntKey (p : Page) (t index slot : Nat) : Nat := 2 ^ 40 + ((pageIdx p * 16 + t) * 2 ^ 20 + index) * 16 + slot

def Chip.cntAt (c : Chip) (k : Nat) : W48 := lookupD 0 c.cnt k

def Chip.setCntAt (c : Chip) (k : Nat) (v : W48) : Chip := { c with cnt := store 0 c.cnt k v }

/-- A page counter advanced by `n`, modulo 2^48 (R29). -/
def Chip.addCnt (c : Chip) (p : Page) (i n : Nat) : Chip :=
  c.setCntAt (cntKey p i) (c.cntAt (cntKey p i) + BitVec.ofNat 48 n)

/-- A page counter advanced by 1. -/
def Chip.count (c : Chip) (p : Page) (i : Nat) : Chip := c.addCnt p i 1

/-- Counter `i` of PERF advanced by `n` (R415): a wrap sets its bit of `OVF`. -/
def Chip.perfAdd (c : Chip) (i n : Nat) : Chip :=
  let v := (c.cntAt (cntKey pPERF i)).toNat + n
  let c := c.addCnt pPERF i n
  if v < 2 ^ 48 then c else c.setReg pPERF 0x148 (c.reg pPERF 0x148 ||| BitVec.ofNat 32 (2 ^ i))

/-- `n` occurrences of a performance event, and the counters that wrapped (R415). -/
def Chip.perfBump (c : Chip) (ev n : Nat) : Chip × Bool :=
  if c.is pPERF F.PERF_PERF_CTRL_FREEZE then (c, false)
  else (List.range 32).foldl (fun (a : Chip × Bool) i =>
    let w := a.1.reg pPERF (0x180 + 4 * i)
    if w.toNat.testBit 16 ∧ bitsAt w 0 10 = ev then
      (a.1.perfAdd i n, a.2 || decide (2 ^ 48 ≤ (a.1.cntAt (cntKey pPERF i)).toNat + n)) else a) (c, false)

/-- A table-held counter advanced by `n`. -/
def Chip.addTCnt (c : Chip) (p : Page) (t index slot n : Nat) : Chip :=
  c.setCntAt (tblCntKey p t index slot) (c.cntAt (tblCntKey p t index slot) + BitVec.ofNat 48 n)

/-- A table-held counter advanced by 1. -/
def Chip.tcount (c : Chip) (p : Page) (t index slot : Nat) : Chip := c.addTCnt p t index slot 1

/-- The page that a counter key belongs to, by summary index. -/
def cntPage (k : Nat) : Nat := if k < 2 ^ 40 then k / 1024 else (k - 2 ^ 40) / 16 / 2 ^ 20 / 16

/-! ## Tables -/

/-- The key of a word of a table entry: word = 8 × part + DATA number. -/
def tblKey (p : Page) (t index word : Nat) : Nat := ((pageIdx p * 16 + t) * 2 ^ 20 + index) * 128 + word

/-- The summary index in a table key. -/
def tblPage (k : Nat) : Nat := k / 128 / 2 ^ 20 / 16

/-- The page and table in a table key. -/
def tblPageTable (k : Nat) : Nat := k / 128 / 2 ^ 20

/-- What the words of a table entry hold at reset, where that is not 0 (the Reset column of the table layouts). -/
def tblReset (p : Page) (t index word : Nat) : Word :=
  match p.kind, t, word with
  | .buf, 0, 0 => if index % 8 ≥ 4 then 32 else 0
  | .buf, 0, 1 => 8192
  | .fdb, 1, 0 => if index = 1 then 0xFFFFFFFF else 0
  | .fdb, 1, 1 => if index = 1 then 0xFFFFFFFF else 0
  | .fdb, 1, 2 => if index = 1 then 3 else 0
  | .fdb, 3, 0 => 1
  | .fdb, 3, 1 => 0x00FAC688
  | .frer, 0, 0 => 0x00022000
  | .frer, 0, 1 => 1000
  | .frer, 0, 3 => 0x07D00032
  | .frer, 0, 4 => 30
  | .frer, 1, 1 => 0x00640020
  | .frer, 1, 2 => 0x001007D0
  | .story, 0, 0 => 0xFFFF0000
  | .macsec, 1, 1 => 1
  | .bridle, 0, 38 => 117440505
  | .units, 0, 3 => 0x0A030064
  | .gw, 0, 6 => 0x0000CC00
  | .gw, 1, 4 => 0x00000100
  | _, _, _ => 0

/-- What an unlisted key of a table bank reads as. -/
def tblDefault (k : Nat) : Word :=
  match pageOfIdx (tblPage k) with
  | some p => tblReset p (tblPageTable k % 16) (k / 128 % 2 ^ 20) (k % 128)
  | none => 0

/-- A word of the bank that the block acts on. -/
def Chip.tword (c : Chip) (p : Page) (t index word : Nat) : Word := lookupD (tblReset p t index word) c.tblA (tblKey p t index word)

/-- A word of the staged bank. -/
def Chip.tstaged (c : Chip) (p : Page) (t index word : Nat) : Word := lookupD (tblReset p t index word) c.tblS (tblKey p t index word)

def Chip.setTword (c : Chip) (p : Page) (t index word : Nat) (w : Word) : Chip :=
  { c with tblA := store (tblDefault (tblKey p t index word)) c.tblA (tblKey p t index word) w }

def Chip.setTstaged (c : Chip) (p : Page) (t index word : Nat) (w : Word) : Chip :=
  { c with tblS := store (tblDefault (tblKey p t index word)) c.tblS (tblKey p t index word) w }

/-- A field of a table entry: its word (8 × part + DATA number), its lowest bit, its width. -/
structure TFld where
  word : Nat
  lo : Nat
  width : Nat
  deriving DecidableEq, Repr

/-- The field of the bank that the block acts on. -/
def Chip.tget (c : Chip) (p : Page) (t index : Nat) (f : TFld) : Nat := bitsAt (c.tword p t index f.word) f.lo f.width

/-- The field of the staged bank. -/
def Chip.tgetS (c : Chip) (p : Page) (t index : Nat) (f : TFld) : Nat := bitsAt (c.tstaged p t index f.word) f.lo f.width

/-- A field of the bank that the block acts on, replaced. -/
def Chip.tput (c : Chip) (p : Page) (t index : Nat) (f : TFld) (v : Nat) : Chip :=
  c.setTword p t index f.word (putBits (c.tword p t index f.word) f.lo f.width v)

/-- A one-bit field of the acting bank, as a Bool. -/
def Chip.tis (c : Chip) (p : Page) (t index : Nat) (f : TFld) : Bool := decide (c.tget p t index f = 1)

/-- The indices of a table that some listed word of a bank touches, of those below `n`: only these can differ from reset. -/
def tblIndices (bank : List (Nat × Word)) (p : Page) (t : Nat) : List Nat :=
  ((bank.filter fun e => decide (tblPageTable e.1 = pageIdx p * 16 + t)).map fun e => e.1 / 128 % 2 ^ 20).eraseDups

/-! ## Events -/

/-- An MSI-X write on a vector, under the masks of R260: a masked vector or function keeps it pending. -/
def Chip.sendMsix (c : Chip) (v : Nat) : Chip :=
  let vec := v % 64
  if ¬ c.is pHOST F.HOST_PCIE_STATUS_LINK_UP ∨ ¬ c.is pHOST F.HOST_PCIE_STATUS_MSIX_EN then c
  else if c.is pHOST F.HOST_PCIE_STATUS_FUNC_MASK ∨ bitsAt (c.reg pHOST (0x400 + 16 * vec + 12)) 0 1 = 1 then
    let off := 0x380 + 4 * (vec / 32)
    c.setReg pHOST off (c.reg pHOST off ||| BitVec.ofNat 32 (2 ^ (vec % 32)))
  else ((c.perfBump 0x2C4 1).1.count pHOST K.HOST_MSIX_SENT).emit (.msix vec)

/-- How an asynchronous input reaches the legs (R366, R367). In TRIPLE by the agreement exchange: the majority of the three samples, to
every leg 6 cycles after the sampling. Else by the fall-back path: one sample, to the leg with stagger 0 after 2 cycles, through the delay
registers to each later leg one cycle later; to TC0 alone in SOLO; to the two legs of a PAIR, and to its spare leg by itself. -/
def Chip.delivery (c : Chip) : List (Nat × Nat) :=
  let spare := c.get pTRESTLE F.TRESTLE_TR_STATUS_SPARE_LEG
  match c.get pTRESTLE F.TRESTLE_TR_STATUS_MODE with
  | 1 => [(0, 2)]
  | 2 =>
    (([0, 1, 2].filter fun k => decide (k ≠ spare)).zipIdx.map fun e => (e.1, 2 + e.2))
      ++ (if c.is pTRESTLE F.TRESTLE_TR_STATUS_SPLIT then [(spare, 2)] else [])
  | 3 =>
    if c.is pTRESTLE F.TRESTLE_AGREE_CFG_EXCH_EN ∧ ¬ c.is pTRESTLE F.TRESTLE_TR_STATUS_FALLBACK_INPUTS then [(0, 6), (1, 6), (2, 6)]
    else [(0, 2), (1, 3), (2, 4)]
  | _ => []

/-- Delivery of a page's maskable events as `EVT_ROUTE` says (R52). -/
def Chip.routeEvent (c : Chip) (p : Page) : Chip :=
  let c := if c.is p F.EVT_ROUTE_TO_HOST then c.sendMsix (c.get p F.EVT_ROUTE_VECTOR) else c
  if c.is p F.EVT_ROUTE_TO_FW then c.emit (.fwEvent (pageIdx p) false c.delivery) else c

/-- `EVT_EN` as it reads: the bits of non-maskable events are 1 (R53). -/
def Chip.evtEn (c : Chip) (p : Page) : Word := c.reg p 0x01C ||| BitVec.ofNat 32 (nmiMask p)

/-- `EVT_PEND` (R36): EVT_RAW & EVT_EN. -/
def Chip.evtPend (c : Chip) (p : Page) : Word := c.reg p 0x018 &&& c.evtEn p

/-- The maskable part of EVT_PEND (R52). -/
def Chip.evtPendMaskable (c : Chip) (p : Page) : Word := c.evtPend p &&& ~~~ BitVec.ofNat 32 (nmiMask p)

/-- An event: its `EVT_RAW` bit is set. The maskable pending part turning non-zero sends one routed message (R52); a
non-maskable bit turning 1 goes to the host on `SYS.NMI_VECTOR` and to Trestle (R53). -/
def Chip.raise (c : Chip) (p : Page) (bit : Nat) : Chip :=
  let raw := c.reg p 0x018
  let was := c.evtPendMaskable p
  let c' := c.setReg p 0x018 (raw ||| BitVec.ofNat 32 (2 ^ bit))
  if (nmiMask p).testBit bit then
    if raw.toNat.testBit bit then c' else (c'.sendMsix (c.get pSYS F.SYS_NMI_VECTOR_V)).emit (.fwEvent (pageIdx p) true c.delivery)
  else if was = 0 ∧ c'.evtPendMaskable p ≠ 0 then c'.routeEvent p
  else c'

/-- `n` occurrences of a performance event; a wrap raises OVERFLOW (R415). -/
def Chip.perf (c : Chip) (ev n : Nat) : Chip :=
  match c.perfBump ev n with
  | (c, true) => c.raise pPERF E.PERF_OVERFLOW
  | (c, false) => c

/-- INT_N is asserted (R261): `QS_CFG.INT_EN` is 1, and some page routed to the host has an event pending or a non-maskable
event is pending. -/
def Chip.intAsserted (c : Chip) : Bool :=
  c.is pQSPIS F.QSPIS_QS_CFG_INT_EN && allPages.any fun p =>
    (decide (c.evtPend p ≠ 0) && c.is p F.EVT_ROUTE_TO_HOST) || decide (c.evtPend p &&& BitVec.ofNat 32 (nmiMask p) ≠ 0)

/-! ## Bad accesses (R40) -/

abbrev errRsvWrite : Nat := 1
abbrev errRoWrite : Nat := 2
abbrev errLocked : Nat := 3
abbrev errStagedBusy : Nat := 4
abbrev errTblBusy : Nat := 5
abbrev errBusSize : Nat := 6
abbrev errUnimpl : Nat := 7
abbrev errLockPending : Nat := 8

/-- A bad access logged in a page (R40): the first cause is kept, a further one sets OVERFLOW. -/
def Chip.logAccess (c : Chip) (p : Page) (code : Nat) (req : Requester) (addr : Nat) : Chip :=
  let c := if c.get p F.ERR_CAUSE_CODE = 0 then
      (c.setReg p 0x034 (BitVec.ofNat 32 (code + 256 * reqCode req))).setReg p 0x038 (BitVec.ofNat 32 (addr % 0x1000000))
    else c.put p F.ERR_CAUSE_OVERFLOW 1
  c.raise p E.ACCESS_ERR

/-! ## Posted writes of the hosts (R262) -/

/-- A capture record (R254), written while `HOST_CFG.CAP_EN` is 1. -/
def Chip.capture (c : Chip) (kind : Nat) (words : List Word) : Chip :=
  if c.is pHOST F.HOST_HOST_CFG_CAP_EN then
    let n := (c.reg pHOST 0x154).toNat
    let ring := c.capRing ++ [⟨n, c.stamp, kind, words⟩]
    { c.setReg pHOST 0x154 (BitVec.ofNat 32 (n + 1)) with capRing := ring.drop (ring.length - 2048) }
  else c

/-- The head words of a posted-error entry (R281). -/
def PelEntry.words (e : PelEntry) : List Word :=
  [BitVec.ofNat 32 (e.addr % 2 ^ 26), e.data, BitVec.ofNat 32 (e.cause % 16 + 16 + 256 * reqCode e.req + 65536 * (e.seq % 65536)),
   BitVec.ofNat 32 e.wseq]

/-- Does a requester's write take a write sequence number (R262)? The hosts' do. -/
def isHost : Requester → Bool
  | .pcie | .qspi => true
  | _ => false

def Chip.failedOf (c : Chip) (req : Requester) : Nat := lookupD 0 c.failed (reqCode req)

/-- A posted write failed (R262): entry in the posted-error log unless it is full, capture record, failed-write count. -/
def Chip.postedFail (c : Chip) (req : Requester) (addr : Nat) (data : Word) (cause wseq : Nat) : Chip :=
  let e : PelEntry := ⟨addr, data, cause, req, c.pelSeq, wseq⟩
  let c := { c with failed := store 0 c.failed (reqCode req) ((c.failedOf req + 1) % 65536) }
  let c := ((c.count pHOST K.HOST_POSTED_FAIL).raise pHOST E.HOST_POSTED_FAIL).capture 1 e.words
  if c.pel.length < 16 then { c with pel := c.pel ++ [e], pelSeq := (c.pelSeq + 1) % 65536 }
  else (c.count pHOST K.HOST_PEL_OVERFLOW).raise pHOST E.HOST_PEL_OVERFLOW

def Chip.wseqOf (c : Chip) (req : Requester) : Word := lookupD 0 c.wseq (reqCode req)

/-- A PCI Express read completes with Unsupported Request (R253, R254): counted, captured, noted by Advanced Error Reporting (PRESUMED,
log entry 106). -/
def Chip.noteUr (c : Chip) (addr : Nat) : Chip :=
  { (c.count pHOST K.HOST_UR_READS).capture 4 [BitVec.ofNat 32 addr, BitVec.ofNat 32 (reqCode .pcie)] with aer := setBit c.aer 20 }

/-- An access that no page can take (R34): bus error to the requester, logged in SYS; a host's write is a failed posted write. -/
def Chip.unimplAccess (c : Chip) (req : Requester) (addr : Nat) (write : Bool) (v : Word) : Chip :=
  let n := c.wseqOf req + 1
  let w := write && isHost req
  let c := if w then { c with wseq := store 0 c.wseq (reqCode req) n } else c
  let c := (c.logAccess pSYS errUnimpl req addr).emit (.busError req addr)
  if w then c.postedFail req addr v errUnimpl n.toNat
  else if req = .pcie then c.noteUr addr else c

/-- The PCI Express interface works: it is powered in this mode (R251) and out of reset (R1). -/
def Chip.pciePowered (c : Chip) : Bool := !c.dark && decide (c.mode ≠ modeSentry ∧ c.mode ≠ modeDormant)

/-- The outputs of the cluster are held: it restarts, or has been halted (R370, R372). -/
def Chip.fwHeld (c : Chip) : Bool :=
  let m := c.get pTRESTLE F.TRESTLE_TR_STATUS_MODE
  decide (m = 4 ∨ m = 5)

/-- A held output commit is discarded; it is counted where a restart or a checker fault holds it (R372; DEDUCED, log entry 140). -/
def Chip.discardHeld (c : Chip) : Chip :=
  if c.get pTRESTLE F.TRESTLE_TR_STATUS_MODE = 4 ∨ c.tr.cause = 3 ∨ c.tr.cause = 4 then c.count pTRESTLE K.TRESTLE_HELD_DISCARDED else c

/-- A register write as its requester posts it: one of firmware's whose outputs are held is discarded (R372); it takes a write sequence number where R262 gives one, acts by `act`, and
when `act` answers an error code, the page logs it (R40) and the bridge records the failed posted write (R262). With it the
cause of the failure, 0 for none. -/
def Chip.postedE (c : Chip) (req : Requester) (p : Page) (off : Nat) (v : Word) (act : Chip → Chip × Nat) : Chip × Nat :=
  if c.dark then (c.emit (.busError req (regKey p off)), errUnimpl)
  else if req = .pcie ∧ ¬ c.pciePowered then (c, errUnimpl)
  else if req = .trestle ∧ c.fwHeld then (c.discardHeld, errUnimpl)
  else if ¬ pageValid p then (c.unimplAccess req (regKey p off) true v, errUnimpl)
  else
    let n := c.wseqOf req + 1
    let c := if isHost req then { c with wseq := store 0 c.wseq (reqCode req) n } else c
    match act c with
    | (c', 0) => (c', 0)
    | (c', e) =>
      let c' := c'.logAccess p e req (regKey p off)
      (if isHost req then c'.postedFail req (regKey p off) v e n.toNat else c', e)

/-- The same for its effect alone. -/
def Chip.posted (c : Chip) (req : Requester) (p : Page) (off : Nat) (v : Word) (act : Chip → Chip × Nat) : Chip :=
  (c.postedE req p off v act).1

/-- An event of a page that the map has; others name nothing. -/
def Chip.onPage (c : Chip) (p : Page) (f : Chip → Chip) : Chip := if pageValid p then f c else c

/-- A write to a command register (WO, W1S), which acts on a locked page too (R51). -/
def Chip.command (c : Chip) (req : Requester) (p : Page) (off : Nat) (v : Word) (f : Chip → Chip) : Chip :=
  c.posted req p off v fun c => (f c, 0)

/-! ## Locks and commit state -/

def Chip.locked (c : Chip) (p : Page) : Bool := c.is p F.LOCK_LOCK

/-- `COMMIT_STATUS.STATE` (R47): 0 IDLE, 1 VALIDATING, 2 WAIT_SAFE, 3 ARMED, 4 GROUP. -/
def Chip.commitState (c : Chip) (p : Page) : Nat := c.get p F.COMMIT_STATUS_STATE

/-- `COMMIT_STATUS.REASON` (R47). -/
abbrev rsnNone : Nat := 0
abbrev rsnInvalid : Nat := 1
abbrev rsnRange : Nat := 2
abbrev rsnTableRef : Nat := 3
abbrev rsnLocked : Nat := 4
abbrev rsnPast : Nat := 5
abbrev rsnTimeInvalid : Nat := 6
abbrev rsnAborted : Nat := 7
abbrev rsnGroupPeer : Nat := 8
abbrev rsnSafeTimeout : Nat := 9
abbrev rsnHandle : Nat := 10
abbrev rsnMode : Nat := 11

/-- The first failing check of a validation: its reason and its DETAIL; (0, 0) when every check passes (R43). -/
def firstBad (checks : List (Bool × Nat × Nat)) : Nat × Nat :=
  match checks.find? fun x => x.1 with
  | some (_, r, d) => (r, d)
  | none => (0, 0)

/-- What a validation sees of another page: its staged value when that page is in the same group, else its active one. -/
def Chip.peer (c : Chip) (group : List Nat) (p : Page) (f : Fld) : Nat :=
  if group.contains (pageIdx p) then c.staged p f else c.get p f

/-- The same for a field of a staged table. -/
def Chip.tpeer (c : Chip) (group : List Nat) (p : Page) (t index : Nat) (f : TFld) : Nat :=
  if group.contains (pageIdx p) then c.tgetS p t index f else c.tget p t index f

/-- The time is valid: TRACKING or HOLDOVER (R120). -/
def Chip.timeValid (c : Chip) : Bool := decide (c.get pTIME F.TIME_TIME_STATUS_STATE ≠ 0)

end Sys2Proof.Machine
end

