-- ==== Sys2Proof/Machine/Elapsed.lean ====
section
/-! DEFINITION. The passage of time between commands, and what counts while it passes (R293, R415). -/
namespace Sys2Proof.Machine

open Sys2Proof

/-- The class is held (R16, R108). -/
def Chip.heldClass (c : Chip) (cls : Nat) : Bool := (c.get pFAB F.FAB_CLASS_REGIME_HELD).testBit cls

/-- The frequency in MHz of CCLK, SCLK, TCLK, GCLK, HCLK (0 to 4) as `CLK_SEL` and the PLLs have it (R301, R308); 0 where the clock
has no source. -/
def Chip.clockMHz (c : Chip) (k : Nat) : Nat :=
  let locked := fun i => (c.get pCLK F.CLK_PLL_STATUS_LOCKED).testBit i
  let on := fun (f : Fld) i mhz => if c.is pCLK f then 64 else if locked i then mhz else 0
  match k with
  | 0 => if locked 0 then 1000 else 0
  | 1 => on F.CLK_CLK_SEL_SCLK_HFRC 1 500
  | 2 => on F.CLK_CLK_SEL_TCLK_HFRC 1 500
  | 3 => on F.CLK_CLK_SEL_GCLK_HFRC 2 160
  | _ => on F.CLK_CLK_SEL_HCLK_HFRC 1 250

/-- Whole microseconds that end within the next `dt` cycles. -/
def Chip.usEnding (c : Chip) (dt : Nat) : Nat := (c.cycles + dt) / 500 - c.cycles / 500

/-- Queue `q` holds at least one cell. -/
def Chip.holdsCell (c : Chip) (q : Nat) : Bool :=
  let x := lookupD ({} : Queue) c.queues q
  !(x.items.isEmpty && x.window.isEmpty && x.ready.isEmpty)

/-- Occurrences of a performance event that the passage of `dt` cycles brings (R415): cycles of a clock, queue microseconds; the
instructions retired and the stall cycles of the cluster are free values (log entry 4). -/
def Chip.timeEvents (c : Chip) (ev dt : Nat) : Nat :=
  if ev < 5 then (c.cycles + dt) * c.clockMHz ev / 500 - c.cycles * c.clockMHz ev / 500
  else if 0x100 ≤ ev ∧ ev < 0x200 then if c.holdsCell (ev - 0x100) then c.usEnding dt else 0
  else if 0x300 ≤ ev ∧ ev ≤ 0x302 then
    let m := c.get pTRESTLE F.TRESTLE_TR_STATUS_MODE
    if 1 ≤ m ∧ m ≤ 3 then (Config.freeWord (c.free + (ev - 0x300))).toNat % (dt + 1) else 0
  else if ev = 0x303 then
    if c.is pTRESTLE F.TRESTLE_TR_STATUS_RESYNC then (Config.freeWord (c.free + 3)).toNat % (dt + 1) else 0
  else 0

/-- Performance counter `i` over `dt` cycles that begin with the state `old`. -/
def Chip.perfSpan (c old : Chip) (i dt : Nat) : Chip :=
  let w := c.reg pPERF (0x180 + 4 * i)
  let n := if w.toNat.testBit 16 then old.timeEvents (bitsAt w 0 10) dt else 0
  if n = 0 then c
  else
    let wraps : Bool := decide (2 ^ 48 ≤ (c.cntAt (cntKey pPERF i)).toNat + n)
    let c := c.perfAdd i n
    if wraps then c.raise pPERF E.PERF_OVERFLOW else c

/-- Every performance counter over `dt` cycles. -/
def Chip.perfTime (c old : Chip) (dt : Nat) : Chip :=
  if dt = 0 ∨ old.is pPERF F.PERF_PERF_CTRL_FREEZE then c
  else
    let c := (List.range 32).foldl (fun (c : Chip) i => c.perfSpan old i dt) c
    { c with free := c.free + 4 }

/-- A held frame at the head of a class's queue on T port 28 + `t` waits for credit alone: the link is UP (R293). -/
def Chip.creditStall (c : Chip) (t : Nat) : Bool :=
  decide (c.get (pTENON t) F.TENON_TL_STATUS_STATE = 3) && (List.range 8).any fun cls =>
    c.heldClass cls && match (let x := lookupD ({} : Queue) c.queues ((28 + t) * 8 + cls); (x.ready ++ x.items.takeWhile fun k => decide (k.regime ≠ .bulk)).head?) with
      | some k => decide (16384 < lookupD 0 (lookupD ({} : TenonRt) c.tenons t).used cls + k.bytes.length + 4)
      | none => false

/-- Counter CREDIT_STALL_US of a link over `dt` cycles that begin with the state `old`. -/
def Chip.stallTime (c old : Chip) (t dt : Nat) : Chip :=
  if old.creditStall t then c.addCnt (pTENON t) K.TENON_CREDIT_STALL_US (old.usEnding dt) else c

/-- `dt` cycles pass before a command. -/
def Chip.pass (c : Chip) (dt : Nat) : Chip := (((c.elapse dt).perfTime c dt).stallTime c 0 dt).stallTime c 1 dt

/-- A command's effect on the chip, after `dt` cycles have passed; the queue, the flash and the OTP are left alone. -/
def State.run (s : State) (dt : Nat) (f : Chip → Chip) : State := { s with chip := f (s.chip.pass dt) }

/-- A command's effect on chip and memories, after `dt` cycles have passed. -/
def State.runExt (s : State) (dt : Nat) (f : Chip → Ext → Chip × Ext) : State :=
  let r := f (s.chip.pass dt) s.ext
  { s with chip := r.1, ext := r.2 }

end Sys2Proof.Machine
end

