-- ==== Sys2Proof/Machine/Registers.lean ====
section
/-! DEFINITION. Writes to registers that start nothing (R38, R40, R41, R51), and the header's own operations. -/
namespace Sys2Proof.Machine

open Sys2Proof

/-- What refuses a write to the register at `off` of a page (R40, R44, R51), 0 when nothing does. `lockable` is false for the
registers that act on a locked page. -/
def Chip.refuseWrite (c : Chip) (p : Page) (off : Nat) (lockable : Bool) : Nat :=
  if off ≥ 0x800 then errRoWrite
  else match regRow p off with
    | none => errRsvWrite
    | some r =>
      match r.acc with
      | .ro => errRoWrite
      | .rws => if c.locked p && lockable then errLocked else if c.commitState p ≠ 0 then errStagedBusy else 0
      | _ => if c.locked p && lockable then errLocked else 0

/-- The RW registers that a lock does not freeze: `SCRATCH`, the window registers (R51), the group masks (R57), the MSI-X
table (R281); the registers of Prisil's operations (`LOCK` does not stop operations, R399); FL_ and mailbox buffers are frozen. -/
def lockFreezes (p : Page) (off : Nat) : Bool :=
  if off = 0x03C then false
  else if 0x100 ≤ off ∧ off < 0x124 then false
  else match p.kind with
    | .sys => decide (off ≠ 0x170) && decide (off ≠ 0x174) && decide (off ≠ 0x178) && decide (off ≠ 0x17C)
    | .host => decide (off < 0x400)
    | _ => true

/-- The side whose copy of a register a requester sees: the windows of R54, and the copies that each side of PRISIL (R399) and
each interface of the Trestle mailbox (R360) and of the flash buffer (R355) has. -/
def sideOf (p : Page) (off : Nat) (req : Requester) : Nat :=
  if hasTable p ∧ 0x100 ≤ off ∧ off < 0x12C then reqSide req
  else match p.kind with
    | .prisil => if (0x160 ≤ off ∧ off < 0x240) ∨ (0x400 ≤ off ∧ off < 0x600) then reqSide req else 0
    | .xmem => if (0x144 ≤ off ∧ off < 0x154) ∨ (0x200 ≤ off ∧ off < 0x300) then reqSide req else 0
    | .trestle => if 0x200 ≤ off ∧ off < 0x2C8 then reqCode req else 0
    | _ => 0

/-- A write to an RW or RWS register that starts nothing: only its writable bits take the value (R38). -/
def Chip.writePlain (c : Chip) (req : Requester) (p : Page) (off : Nat) (v : Word) : Chip × Nat :=
  match c.refuseWrite p off (lockFreezes p off) with
  | 0 =>
    match regRow p off with
    | some r =>
      let k := sideKey p off (sideOf p off req)
      let m := BitVec.ofNat 32 r.mask
      (c.setRegAt k ((c.regAt k &&& ~~~ m) ||| (v &&& m)), 0)
    | none => (c, 0)
  | e => (c, e)

/-- A W1C write to `EVT_RAW` (R38, R52): the bits written 1 clear; clearing ACCESS_ERR clears `ERR_CAUSE` and `ERR_ADDR`
(R36); a maskable part that stays non-zero sends another message. -/
def Chip.clearEvents (c : Chip) (p : Page) (v : Word) : Chip :=
  let c' := c.setReg p 0x018 (c.reg p 0x018 &&& ~~~ v)
  let c' := if v.toNat.testBit E.ACCESS_ERR then (c'.setReg p 0x034 0).setReg p 0x038 0 else c'
  if c'.evtPendMaskable p ≠ 0 then c'.routeEvent p else c'

/-- A write to `EVT_EN`: the bits of non-maskable events ignore it (R53); the maskable pending part turning non-zero sends a
message (R52). -/
def Chip.writeEvtEn (c : Chip) (p : Page) (v : Word) : Chip × Nat :=
  if c.locked p then (c, errLocked)
  else
    let was := c.evtPendMaskable p
    let c' := c.setReg p 0x01C v
    (if was = 0 ∧ c'.evtPendMaskable p ≠ 0 then c'.routeEvent p else c', 0)

/-- A write of 1 to `LOCK.LOCK` (R51): the page is frozen, but refused while the commit state is not IDLE (R40). A write of 0
has no effect (R38). -/
def Chip.writeLock (c : Chip) (p : Page) (v : Nat) : Chip × Nat :=
  if v % 2 = 0 then (c, 0)
  else if c.commitState p ≠ 0 ∧ ¬ c.locked p then (c, errLockPending)
  else (c.put p F.LOCK_LOCK 1, 0)

end Sys2Proof.Machine
end

