-- ==== Sys2Proof/Machine/Queues.lean ====
section
/-! DEFINITION. Cells, queues, sequence numbers and reorder windows (R89 to R101). -/
namespace Sys2Proof.Machine

open Sys2Proof

/-- The cells of a frame of `n` bytes on the fabric, FCS included (R89). -/
def cellsOf (n : Nat) : Nat := (n + 4 + 63) / 64

/-- The cells of a copy. DESIGN CHOICE: a copy of a frame that is still arriving (R103) counts those of the bytes received so far. -/
def Copy.cells (k : Copy) : Nat := cellsOf k.bytes.length

/-- The queue index of an egress port and class (R109). -/
def qIndex (egress cls : Nat) : Nat := egress * 8 + cls

def Chip.queue (c : Chip) (q : Nat) : Queue := lookupD {} c.queues q

/-- The first copy of a list notes when it came to stand there. -/
def noteHead (now : Nat) : List Copy → List Copy
  | [] => []
  | k :: ks => { k with head := some (k.head.getD now) } :: ks

/-- The copy leaves its queue without the resequencer (R18, R99): it is not of a bulk class. It keeps the regime of its admission (DEDUCED,
log entry 133). -/
def Copy.direct (k : Copy) : Bool := decide (k.regime ≠ .bulk)

/-- The next copies of a queue to be sent, in order: those that the resequencer has released, then the direct ones at its head. -/
def Queue.next (x : Queue) : List Copy := x.ready ++ x.items.takeWhile Copy.direct

/-- The copies that the resequencer may take next: those of bulk classes with no direct copy ahead (R99). -/
def Queue.toWindow (x : Queue) : List Copy := x.items.takeWhile fun k => !k.direct

/-- A queue replaced; the copy at its head, the next to be sent, notes since when it stands there (R145). -/
def Chip.setQueue (c : Chip) (q : Nat) (x : Queue) : Chip :=
  let y := match x.ready, x.items with
    | [], k :: _ => if k.direct then { x with items := noteHead c.cycles x.items } else x
    | _, _ => { x with ready := noteHead c.cycles x.ready }
  { c with queues := store {} c.queues q y }

def Chip.portRt (c : Chip) (n : Nat) : PortRt := lookupD {} c.ports n

def Chip.setPortRt (c : Chip) (n : Nat) (x : PortRt) : Chip := { c with ports := store {} c.ports n x }

/-- The copy that an egress port is sending. -/
def Chip.txOf (c : Chip) (n : Nat) : Option Copy := lookupD none c.tx n

def Chip.setTx (c : Chip) (n : Nat) (x : Option Copy) : Chip := { c with tx := store none c.tx n x }

/-- The interrupted copies of an egress port, the latest last (R74, R286). -/
def Chip.presOf (c : Chip) (n : Nat) : List Copy := c.preempted.filter fun k => decide (k.egress = n)

/-- The interrupted copy that goes on next: the latest. -/
def Chip.preOf (c : Chip) (n : Nat) : Option Copy := (c.presOf n).getLast?

def Chip.pushPre (c : Chip) (k : Copy) : Chip := { c with preempted := c.preempted ++ [k] }
def Chip.dropPre (c : Chip) (k : Copy) : Chip := { c with preempted := c.preempted.erase k }

/-- Every copy that a queue holds, waiting in its window or released included. -/
def Queue.all (x : Queue) : List Copy := x.items ++ x.window ++ x.ready

/-- A copy's cells lie on chip: it is not in LPDDR4X, or has been read back. -/
def Copy.onChip (k : Copy) : Bool := !k.spilled && !k.send

/-- The cells that a queue holds on chip (Q of R92). -/
def Queue.chipCells (x : Queue) : Nat := ((x.all.filter Copy.onChip).map Copy.cells).sum

/-- The cells that a queue holds in LPDDR4X. -/
def Queue.spillCells (x : Queue) : Nat := ((x.all.filter fun k => k.spilled && !k.back).map Copy.cells).sum

/-- Cells of distinct frames among copies: a frame's data is stored once, however many copies it has (R93). -/
def distinctCells : List Copy → List Nat → Nat
  | [], _ => 0
  | k :: ks, seen => if seen.contains k.fid then distinctCells ks seen else k.cells + distinctCells ks (k.fid :: seen)

/-- Every queued copy of the chip, the copies in release queues and in transmission. -/
def Chip.allCopies (c : Chip) : List Copy :=
  (c.queues.map fun e => e.2.all).flatten ++ (c.tx.filterMap fun e => e.2) ++ c.preempted
    ++ (c.rels.filterMap fun q => q.copy) ++ c.rxDma.map fun e => e.2

/-- The cells of packet memory that the copies on chip of a regime occupy. -/
def Chip.cellsIn (c : Chip) (r : Regime) : Nat := distinctCells (c.allCopies.filter fun k => k.onChip && decide (k.regime = r)) []

/-- `POOL_FREE` (R92, R109): of 196,608 shared cells those that no bulk copy on chip occupies. -/
def Chip.poolFree (c : Chip) : Nat := 196608 - c.cellsIn .bulk

/-- `HELD_FREE` (R109): of 65,536 held cells those that no held copy occupies. -/
def Chip.heldFree (c : Chip) : Nat := 65536 - c.cellsIn .held

/-- HELD_CFG (R109): MIN and CAP of a queue. -/
abbrev fMIN : TFld := ⟨0, 0, 17⟩
abbrev fCAP : TFld := ⟨1, 0, 17⟩

/-- The part of a queue's guaranteed minimum that it does not use. -/
def Chip.unusedMin (c : Chip) (q : Nat) : Nat :=
  if c.heldClass (q % 8) then c.tget pBUF 0 q fMIN - (c.queue q).chipCells else 0

/-- `HELD_UNRESERVED` (R91): free held cells beyond all unused minimums. -/
def Chip.heldUnreserved (c : Chip) : Nat := c.heldFree - ((List.range 256).map fun q => c.unusedMin q).sum

/-- `SPILL_USED` (R110). -/
def Chip.spillUsed (c : Chip) : Nat := (c.queues.map fun e => e.2.spillCells).sum

/-- The next sequence number of a triplet (R90), and the chip that has given it. -/
def Chip.takeSeq (c : Chip) (ingress q : Nat) : Nat × Chip :=
  let k := q * 64 + ingress
  let n := lookupD 0 c.seqs k
  (n, { c with seqs := store 0 c.seqs k ((n + 1) % 65536) })

/-! ## The reorder window (R99, R100) -/

def Queue.expectedOf (x : Queue) (ingress : Nat) : Nat := lookupD 0 x.expected ingress

def Queue.setExpected (x : Queue) (ingress n : Nat) : Queue := { x with expected := store 0 x.expected ingress (n % 65536) }

/-- One advance of an ingress port's expected number: a number known lost is passed, a waiting frame that carries it is
released. -/
def Queue.advance1 (x : Queue) (ingress : Nat) : Option Queue :=
  let e := x.expectedOf ingress
  if x.lost.contains (ingress, e) then
    some { x.setExpected ingress (e + 1) with lost := x.lost.filter fun l => l ≠ (ingress, e) }
  else match x.window.find? fun k => k.ingress = ingress ∧ k.seq = e with
    | some k => some { x.setExpected ingress (e + 1) with window := x.window.filter fun j => j ≠ k, ready := x.ready ++ [k] }
    | none => none

/-- Frames that wait no longer released in order (R99); at most `fuel` numbers are passed. -/
def Queue.advance : Nat → Queue → Nat → Queue
  | 0, x, _ => x
  | n + 1, x, ingress =>
    match x.advance1 ingress with
    | some y => Queue.advance n y ingress
    | none => x

/-- How often `advance` may have to step: every waiting frame and every number known lost once. -/
def Queue.fuel (x : Queue) : Nat := x.window.length + x.lost.length + 1

/-- How far a number lies ahead of the expected one (R99). -/
def seqAhead (seq expected : Nat) : Nat := (seq + 65536 - expected % 65536) % 65536

/-- The resequencer of a queue does not wait for a number, unless it has passed it. -/
def Queue.skip (x : Queue) (ingress seq : Nat) : Queue :=
  if 32767 < seqAhead seq (x.expectedOf ingress) then x
  else
    let y := { x with lost := x.lost ++ [(ingress, seq)] }
    y.advance y.fuel ingress

/-- A copy of a bulk class that will never arrive (R94, R98): the resequencer does not wait for its number. -/
def Chip.numberLost (c : Chip) (k : Copy) : Chip :=
  if k.direct then c
  else
    let q := qIndex k.egress k.cls
    c.setQueue q ((c.queue q).skip k.ingress k.seq)

/-! ## Crossings (R321) -/

/-- The epoch of the crossings at a page's block: it changes at each flush. -/
def Chip.pageEpoch (c : Chip) (p : Page) : Bool := lookupD false c.xings (pageIdx p)

/-- The pages whose blocks lie at one end or the other of the crossing between an Ethernet, Tenon or host port and the fabric. -/
def portPages (n : Nat) : List Page :=
  pFAB :: (if n < 28 then [pPORT n, pPHY n] else if n < 30 then [pPORT n, pTENON (n - 28)] else if n = 30 then [pPORT n, pDMA] else [pGW])

/-- The epoch of that crossing. -/
def Chip.portEpoch (c : Chip) (n : Nat) : Bool := (portPages n).foldl (fun b p => b ^^ c.pageEpoch p) false

/-! ## Discards -/

/-- A counter of a port's page; GW (31) has none. -/
def Chip.portCount (c : Chip) (n k : Nat) : Chip := if n < 31 then c.count (pPORT n) k else c

/-- A copy refused or discarded because its egress link is down (R63): unicast as LINK_DOWN_DROP, multicast as MC_COPY_DROP. -/
def Chip.countLinkDown (c : Chip) (k : Copy) : Chip :=
  c.portCount k.egress (if k.multi then K.PORT_MC_COPY_DROP else K.PORT_LINK_DOWN_DROP)

/-- Every copy queued or waiting at an egress port. -/
def Chip.queuedOf (c : Chip) (n : Nat) : List Copy := ((List.range 8).map fun cls => (c.queue (qIndex n cls)).all).flatten

/-- Every copy queued, waiting or in transmission at an egress port (R63, R101). -/
def Chip.copiesOf (c : Chip) (n : Nat) : List Copy := c.queuedOf n ++ (c.txOf n).toList ++ c.presOf n

/-- The queues of an egress port are empty and the numbering of every triplet of it restarts at 0 (R101). -/
def Chip.clearPortQueues (c : Chip) (n : Nat) : Chip :=
  { c with
    queues := keepKeys (fun q => decide (q / 8 ≠ n)) c.queues
    seqs := keepKeys (fun k => decide (k / 64 / 8 ≠ n)) c.seqs }

/-- Frames discarded from a window count as RSEQ_LOST (R101). -/
def Chip.countWindowLost (c : Chip) (n : Nat) : Chip :=
  (List.range 8).foldl (fun c cls =>
    let k := (c.queue (qIndex n cls)).window.length
    if k = 0 then c else (c.addCnt pRSEQ K.RSEQ_RSEQ_LOST k).addTCnt pRSEQ 0 (qIndex n cls) 0 k) c

/-- Credit goes back on T links for every frame that has ended and no copy of which waits for its admission any more (R293), in the
hold buffer of FRER included. -/
def Chip.settleCredit (c : Chip) : Chip :=
  let waits := fun (o : CreditOwed) => c.tWait.any (fun k => decide (k.fid = o.fid)) || c.holds.any fun h => decide (h.frame.fid = o.fid)
  (c.tOwed.filter fun o => !waits o).foldl (fun c o => c.emit (.credit o.port o.cls o.bytes)) { c with tOwed := c.tOwed.filter waits }

/-- Every frame queued for an egress port, in a release queue too, is discarded and counted as LINK_DOWN_DROP, and its numbering
restarts (R63, R101); the bypass of SENTRY is no such queue. -/
def Chip.flushQueues (c : Chip) (n : Nat) : Chip :=
  let mine := fun (q : RelReq) => decide (q.target = n) && q.copy.isSome
  let lost := (c.queuedOf n).length + (c.rels.filter mine).length + (c.tWait.filter fun (k : Copy) => decide (k.egress = n)).length
  let c := { c with rels := c.rels.filter fun q => !mine q, tWait := c.tWait.filter fun (k : Copy) => decide (k.egress ≠ n) }
  let c := c.settleCredit.countWindowLost n
  let c := if n < 31 then c.addCnt (pPORT n) K.PORT_LINK_DOWN_DROP lost else c
  c.clearPortQueues n

/-- An egress port leaves UP (R63, R101): its queued frames, those in the SENTRY bypass too, and the frame in transmission are lost. -/
def Chip.flushPort (c : Chip) (n : Nat) : Chip :=
  let c := if (c.txOf n).isSome then (c.portCount n K.PORT_LINK_DOWN_DROP).setTx n none else c
  let c := (c.presOf n).foldl (fun c k => (c.portCount n K.PORT_LINK_DOWN_DROP).dropPre k) c
  let safe := (c.safeFrames.filter fun (f : SafeFrame) => decide (f.port = n)).length
  let mine := fun (k : Copy) => decide (k.egress = n)
  let kept := (c.bypass.filter mine).length
  let c := { c with safeFrames := c.safeFrames.filter fun (f : SafeFrame) => decide (f.port ≠ n), bypass := c.bypass.filter fun k => !mine k }
  let c := if n < 31 then c.addCnt (pPORT n) K.PORT_LINK_DOWN_DROP (safe + kept) else c
  c.flushQueues n

/-- Nothing is queued, waiting or in transmission at an egress port; at H nothing is being written to a ring (R103). -/
def Chip.egressEmpty (c : Chip) (n : Nat) : Bool :=
  (c.copiesOf n).isEmpty && !c.bypass.any (fun (k : Copy) => decide (k.egress = n)) && (decide (n ≠ 30) || (c.rxDma.isEmpty && c.rxHeld.isEmpty))

end Sys2Proof.Machine
end

