-- ==== Sys2Proof/Machine/Ports.lean ====
section
/-! DEFINITION. The ports (R59 to R63): their kinds, rates and link states, entry to UP, preemption, the wake of a sleeping port. -/
namespace Sys2Proof.Machine

open Sys2Proof

/-! ## Kinds and link states -/

abbrev isB (n : Nat) : Bool := decide (n < 6)
abbrev isX (n : Nat) : Bool := decide (n = 6 ∨ n = 7)
abbrev isG (n : Nat) : Bool := decide (8 ≤ n ∧ n < 20)
abbrev isS (n : Nat) : Bool := decide (20 ≤ n ∧ n < 28)
abbrev isT (n : Nat) : Bool := decide (n = 28 ∨ n = 29)
abbrev isH (n : Nat) : Bool := decide (n = 30)
/-- The ports that PORT0 to PORT27 carry: those with the link states of R62. -/
abbrev isWire (n : Nat) : Bool := decide (n < 28)
/-- The ports with TC10 sleep and wake (R68). -/
abbrev hasTc10 (n : Nat) : Bool := decide (n < 28 ∧ n ≠ 6 ∧ n ≠ 7)

/-- The states of `LINK_STATUS.STATE` (R62). -/
abbrev lsOff : Nat := 0
abbrev lsSearch : Nat := 1
abbrev lsTrain : Nat := 2
abbrev lsResume : Nat := 3
abbrev lsUp : Nat := 4
abbrev lsSleepNeg : Nat := 5
abbrev lsSleep : Nat := 6

def Chip.linkState (c : Chip) (n : Nat) : Nat := c.get (pPORT n) F.PORT_LINK_STATUS_STATE

def Chip.tenon (c : Chip) (t : Nat) : TenonRt := lookupD {} c.tenons t
def Chip.setTenon (c : Chip) (t : Nat) (x : TenonRt) : Chip := { c with tenons := store {} c.tenons t x }

/-- The link of T port 28 + `t` carries frames: UP, or measuring its latency anew while they wait (R288). -/
def Chip.tenonUp (c : Chip) (t : Nat) : Bool :=
  let st := c.get (pTENON t) F.TENON_TL_STATUS_STATE
  decide (st = 3) || (decide (st = 2) && (c.tenon t).remeasure)

/-- The flits that a frame of `n` bytes takes on a T link: 248 bytes of content each (R285; DEDUCED, log entry 69: the FCS counts, and no
two frames share a flit). -/
def flitsOf (n : Nat) : Nat := (n + 4 + 247) / 248

/-- Flits leave on T port 28 + `t`: counted, and kept in the replay buffer of 64 until they are acknowledged (R287). -/
def Chip.flitsOut (c : Chip) (t n : Nat) : Chip :=
  let x := c.tenon t
  (c.addCnt (pTENON t) K.TENON_FLITS_TX n).setTenon t { x with unacked := min 64 (x.unacked + n) }

/-- PORT30 reads UP (R280). -/
def Chip.hostUp (c : Chip) : Bool :=
  c.is pHOST F.HOST_PCIE_STATUS_LINK_UP && c.is pHOST F.HOST_PCIE_STATUS_BME && c.ready pDMA
    && (List.range 32).any fun r => let st := bitsAt (c.reg pDMA (0x218 + 0x20 * r)) 0 2; decide (st = 1 ∨ st = 2)

/-- The link is up for forwarding: UP or SLEEP_NEG (R63); a T link and the host port as R288 and R280 say. -/
def Chip.linkUp (c : Chip) (n : Nat) : Bool :=
  if isT n then c.tenonUp (n - 28) else if isH n then c.hostUp
  else decide (c.linkState n = lsUp ∨ c.linkState n = lsSleepNeg)

/-- The frame that a port is receiving. -/
def Chip.rxOf (c : Chip) (n : Nat) : Option Frame := lookupD none c.rx n
def Chip.setRx (c : Chip) (n : Nat) (f : Option Frame) : Chip := { c with rx := store none c.rx n f }

/-- The MAC of a port neither receives nor transmits a frame (R81). -/
def Chip.macIdle (c : Chip) (n : Nat) : Bool := (c.txOf n).isNone && (c.presOf n).isEmpty && (c.rxOf n).isNone

/-- A RATE encoding in Mb/s (R80). -/
def rateMbps : Nat → Nat
  | 1 => 10000 | 2 => 5000 | 3 => 2500 | 4 => 1000 | 5 => 100 | 6 => 10 | _ => 0

/-- The RATE encoding at which a port trains: the active one, or the negotiated one where RATE is 0 (R80). DESIGN CHOICE: where a B
port's negotiated rate names none of its rates, or nothing was negotiated because `AN_EN` is 0, the port takes 10 Gb/s. -/
def Chip.trainRate (c : Chip) (n negotiated : Nat) : Nat :=
  let r := c.get (pPORT n) F.PORT_RATE_CFG_RATE
  if isB n then (if r = 0 then (if 1 ≤ negotiated ∧ negotiated ≤ 3 then negotiated else 1) else r)
  else if isX n then
    (if ¬ c.is (pPORT n) F.PORT_RATE_CFG_X_MODE then 1
     else if r = 0 then (if 1 ≤ negotiated ∧ negotiated ≤ 5 then negotiated else 1) else r)
  else if isG n then (if r = 5 then 5 else 4)
  else 6

/-- No verification is needed (R74): no class is preemptable, or `VERIFY_DIS`. -/
def Chip.verifyOff (c : Chip) (n : Nat) : Bool :=
  decide (c.get (pPORT n) F.PORT_PREEMPT_CFG_PREEMPTABLE = 0) || c.is (pPORT n) F.PORT_PREEMPT_CFG_VERIFY_DIS

/-- Preemption verify starts afresh (R74): DISABLED where none is needed, VERIFYING on an UP link, INITIAL until the link is UP
(log entry 20). -/
def Chip.startVerify (c : Chip) (n : Nat) : Chip :=
  let v := if c.verifyOff n then 0 else if c.linkState n = lsUp then 2 else 1
  let c := c.put (pPORT n) F.PORT_PREEMPT_STATUS_VERIFY v
  c.setPortRt n { c.portRt n with verifyTries := 0, verifyAt := c.cycles }

/-- Preemption runs at an egress port (R74): after FAILED every class is express until the link restarts. -/
def Chip.preempts (c : Chip) (n : Nat) : Bool :=
  let v := c.get (pPORT n) F.PORT_PREEMPT_STATUS_VERIFY
  decide (c.get (pPORT n) F.PORT_PREEMPT_CFG_PREEMPTABLE ≠ 0)
    && ((c.is (pPORT n) F.PORT_PREEMPT_CFG_VERIFY_DIS && decide (v ≠ 4)) || decide (v = 3))

/-- The class is preemptable at a port where preemption runs (R74). -/
def Chip.preemptable (c : Chip) (n cls : Nat) : Bool := c.preempts n && (c.get (pPORT n) F.PORT_PREEMPT_CFG_PREEMPTABLE).testBit cls

/-- The bytes of its present fragment that a frame in transmission has sent by now, after preamble and SFD. -/
def Chip.fragBytes (c : Chip) (n : Nat) (e : Edit) : Nat := (c.cycles - e.fragAt) * rateMbps (c.portRt n).rate / 4000 - 8

/-- A preemptable frame in transmission may be interrupted now: its fragment has the minimum size of `PREEMPT_CFG.ADD_FRAG`, 4 bytes of
them its check sum, and a fragment of 64 bytes at least remains (PRESUMED, IEEE 802.3br, log entry 119). -/
def Chip.splits (c : Chip) (n : Nat) (t : Copy) : Bool :=
  let e := t.going.getD {}
  c.preemptable n t.cls && !t.safe && (c.presOf n).isEmpty
    && decide (64 * (c.get (pPORT n) F.PORT_PREEMPT_CFG_ADD_FRAG + 1) ≤ c.fragBytes n e + 4 ∧ e.sent + c.fragBytes n e + 64 ≤ e.wire)

/-- The frame in transmission is interrupted; on a port with preemption its fragment ends and is counted (R74, R82). -/
def Chip.interrupt (c : Chip) (n : Nat) (t : Copy) : Chip :=
  if isT n then (c.pushPre t).setTx n none
  else
    let e := t.going.getD {}
    let t := { t with frags := t.frags + 1, going := some { e with sent := e.sent + c.fragBytes n e } }
    ((c.pushPre t).setTx n none).portCount n K.PORT_PREEMPT_FRAG_TX

/-- An interrupted frame goes on. -/
def Chip.resume (c : Chip) (n : Nat) (k : Copy) : Chip :=
  (c.dropPre k).setTx n (some { k with going := k.going.map fun e => { e with fragAt := c.cycles } })

/-- A cable diagnosis runs only in SEARCH (R84): one that is running when the port leaves it ends INCONCLUSIVE (DESIGN CHOICE: the
spec names no result). -/
def Chip.endDiag (c : Chip) (n : Nat) : Chip :=
  if pageValid (pPHY n) && c.is (pPHY n) F.PHY_CABLE_DIAG_RESULT_BUSY then
    ((c.put (pPHY n) F.PHY_CABLE_DIAG_RESULT_BUSY 0).put (pPHY n) F.PHY_CABLE_DIAG_RESULT_RESULT 3).raise (pPHY n) E.PHY_CABLE_DIAG_DONE
  else c

/-- A port moves to a state other than UP and SLEEP_NEG (R62, R63): LINK_DOWN event and count if it was UP, every frame queued
for it or in transmission discarded if its link was up for forwarding. What it was receiving ends in `Chip.linkTo`. -/
def Chip.linkMove (c : Chip) (n st : Nat) : Chip :=
  let p := pPORT n
  let c := if st = lsSearch then c else c.endDiag n
  let old := c.linkState n
  let c := if old = lsUp then (c.count p K.PORT_LINK_DOWN).raise p E.PORT_LINK_DOWN else c
  let c := if old = lsUp ∨ old = lsSleepNeg then c.flushPort n else c
  let c := c.put p F.PORT_LINK_STATUS_STATE st
  let c := c.put p F.PORT_LINK_STATUS_RATE 0
  let c := c.put p F.PORT_LINK_STATUS_LONG_BED 0
  let c := c.put p F.PORT_LINK_STATUS_PLCA_ACTIVE 0
  let c := if pageValid (pPHY n) then c.put (pPHY n) F.PHY_SQI_VALID 0 else c
  let x := c.portRt n
  let c := c.setPortRt n { x with
    since := c.cycles, rate := 0, beacon := none, burst := 0
    coeff := if st = lsOff then 0 else x.coeff
    kept := if st = lsSleep ∨ st = lsResume then x.kept else none }
  c.startVerify n

/-- A port enters UP at a rate (R62): LINK_UP event; PLCA runs on an S port with `PLCA_EN`; preemption verify starts. -/
def Chip.enterUp (c : Chip) (n rate : Nat) (longBed resumed : Bool) : Chip :=
  let p := pPORT n
  let c := c.put p F.PORT_LINK_STATUS_STATE lsUp
  let c := c.put p F.PORT_LINK_STATUS_RATE rate
  let c := c.put p F.PORT_LINK_STATUS_LONG_BED longBed.toNat
  let c := c.put p F.PORT_LINK_STATUS_RESUMED resumed.toNat
  let c := c.put p F.PORT_LINK_STATUS_PLCA_ACTIVE (isS n && c.is p F.PORT_PLCA_CFG_PLCA_EN).toNat
  let c := c.endDiag n
  let c := c.setPortRt n { c.portRt n with since := c.cycles, rate := rate, beacon := none, burst := 0, kept := none }
  (c.startVerify n).raise p E.PORT_LINK_UP

/-- A sleeping port wakes (R62): RESUME on B and G, UP on S. -/
def Chip.wakePort (c : Chip) (n : Nat) : Chip :=
  if c.linkState n = lsSleep then (if isS n then c.enterUp n 6 false false else c.linkMove n lsResume) else c

/-- A frame queued for a sleeping port (R62, R63): with `WAKE_ON_TX` it triggers a wake, and does not wait for it. DEDUCED: the wake
pulse goes out on its own port; R69 sends pulses on the ports of `WAKE_FWD_MASK` for a received pulse only. -/
def Chip.wakeOnTx (c : Chip) (n : Nat) : Chip :=
  if hasTc10 n && decide (c.linkState n = lsSleep) && c.is (pPORT n) F.PORT_TC10_CFG_WAKE_ON_TX then
    (c.emit (.wakePulse n)).wakePort n
  else c

/-- The partner's verify response (R74). -/
def Chip.verifyOk (c : Chip) (n : Nat) : Chip :=
  if c.linkState n = lsUp ∧ c.get (pPORT n) F.PORT_PREEMPT_STATUS_VERIFY = 2 then c.put (pPORT n) F.PORT_PREEMPT_STATUS_VERIFY 3
  else c

/-- The length of a PLCA transmit opportunity in cycles: `TO_TIMER` bit times of 100 ns (R70). -/
def Chip.toCycles (c : Chip) (n : Nat) : Nat := 50 * c.get (pPORT n) F.PORT_PLCA_CFG_TO_TIMER

end Sys2Proof.Machine
end

