-- ==== Sys2Proof/Machine/Buffers.lean ====
section
/-! DEFINITION. Stage 6 and the resequencer (R89 to R105): admission to the held memory, the shared pool and the spill path,
read back, reorder windows, loss of the fabric clock, the FAB, BUF, SPILL and RSEQ pages. -/
namespace Sys2Proof.Machine

open Sys2Proof

/-! ## Refused copies -/

/-- The frames of which the chip still holds something, in any stage. -/
def Chip.liveFids (c : Chip) : List Nat :=
  (c.allCopies ++ c.tWait ++ c.bypass ++ c.rxHeld.map fun e => e.2).map Copy.fid
    ++ c.rx.filterMap (fun e => e.2.map Frame.fid) ++ c.holds.map fun h => h.frame.fid

/-- One partial-delivery event for a multicast frame some of whose copies are refused (R19), counted at its ingress port. -/
def Chip.partialDelivery (c : Chip) (k : Copy) : Chip :=
  if ¬ k.multi ∨ c.partials.contains k.fid then c
  else
    let live := c.liveFids
    { c.portCount k.ingress K.PORT_PARTIAL_DELIVERY with partials := k.fid :: c.partials.filter fun f => live.contains f }

/-- A refused copy: of a multicast frame it is counted as MC_COPY_DROP at its egress port (R19). -/
def Chip.refuseCopy (c : Chip) (k : Copy) : Chip :=
  if k.multi then (c.portCount k.egress K.PORT_MC_COPY_DROP).partialDelivery k else c

/-- A copy refused because its egress link is down (R63). -/
def Chip.refuseLinkDown (c : Chip) (k : Copy) : Chip := (c.countLinkDown k).partialDelivery k

/-! ## Admission (R90 to R95) -/

/-- QSTAT and RSEQ statistics of a queue: their slot numbers (R109, R111). -/
abbrev qsEnq : Nat := 0
abbrev qsDtDrop : Nat := 1
abbrev qsHeldCapDrop : Nat := 2
abbrev qsSpilled : Nat := 3

/-- The α code of a class (R92, R109). -/
def Chip.alphaCode (c : Chip) (cls : Nat) : Nat := c.get pBUF ⟨0x140, 4 * cls, 4, true⟩

/-- Q + n ≤ α × F, with α = 2^(code - 6) (R92). -/
def alphaTest (code q n f : Nat) : Bool :=
  if code ≤ 6 then decide ((q + n) * 2 ^ (6 - code) ≤ f) else decide (q + n ≤ f * 2 ^ (code - 6))

/-- `SPILL_STATUS.ACTIVE` (R110). -/
def Chip.spillActive (c : Chip) : Bool :=
  c.is pSPILL F.SPILL_SPILL_CFG_EN && c.is pSPILL F.SPILL_SPILL_STATUS_TRAINED
    && (decide (c.mode = modeBoot) || decide (c.mode = modeRun) || decide (c.mode = modeLimp) || decide (c.mode = modeService))

/-- The spill write limiter refilled up to now (R95): 25 half bytes a cycle, at most 64 KiB. -/
def Chip.spillRefill (c : Chip) : Chip :=
  { c with spillCredit := min 131072 (c.spillCredit + 25 * (c.cycles - c.spillAt)), spillAt := c.cycles }

/-- The copy takes the next number of its triplet and joins its queue (R90), under the regime that its class has now (R107). Held classes
bypass the resequencer (R18), which therefore waits for no held copy's number. -/
def Chip.enqueue (c : Chip) (k : Copy) : Chip :=
  let q := qIndex k.egress k.cls
  let (n, c) := c.takeSeq k.ingress q
  let held := c.heldClass k.cls
  let c := (c.perf (0x40 + k.ingress) k.cells).perf ((if k.spilled then 0x90 else if held then 0x80 else 0x88) + k.cls) k.cells
  let x := c.queue q
  let x := { x with items := x.items ++ [{ k with seq := n, enq := c.cycles, regime := if held then .held else .bulk }] }
  (c.setQueue q (if held then x.skip k.ingress n else x)).tcount pBUF 1 q qsEnq

/-- A bulk copy refused as DT_DROP in its queue (R92, R93, R95). -/
def Chip.dtDrop (c : Chip) (k : Copy) : Chip :=
  ((c.count pBUF K.BUF_DT_DROP).tcount pBUF 1 (qIndex k.egress k.cls) qsDtDrop).refuseCopy k

/-- Every copy that is still in the write buffer (R96). -/
def Chip.writingCopies (c : Chip) : List Copy := (c.queues.map fun e => e.2.items.filter Copy.writing).flatten

/-- Of copies in the write buffer the one that has been there longest. -/
def oldestCopy (l : List Copy) : Option Copy :=
  l.foldl (fun b k => match b with | none => some k | some a => if k.enq < a.enq then some k else b) none

/-- A copy in the write buffer is written to LPDDR4X. -/
def Chip.writeOut (c : Chip) (k : Copy) : Chip :=
  let q := qIndex k.egress k.cls
  let x := c.queue q
  c.setQueue q { x with items := x.items.map fun j => if j = k then { j with writing := false } else j }

/-- The bytes of some copies. -/
def copyBytes (l : List Copy) : Nat := (l.map fun k => k.bytes.length + 4).sum

/-- The write buffer holds 256 KiB (R96): beyond that its oldest frames have been written; at most `fuel` frames are. -/
def Chip.drainWrites : Nat → Chip → Chip
  | 0, c => c
  | n + 1, c =>
    if copyBytes c.writingCopies ≤ 262144 then c
    else match oldestCopy c.writingCopies with
      | some k => Chip.drainWrites n (c.writeOut k)
      | none => c

/-- A bulk unicast copy over the threshold (R95, R98): spilled by way of the write buffer, or refused. DESIGN CHOICE (log entry 120): a
copy that fails a capacity test and would fail the limiter counts as SPILL_FULL_DROP alone; the write buffer's frames count in
SPILL_USED; the limiter charges 64 bytes a cell and has to have the credit of the whole copy; SPILL_BYTES counts frame bytes, FCS
included. -/
def Chip.spillCopy (c : Chip) (k : Copy) : Chip × Bool :=
  let q := qIndex k.egress k.cls
  let n := k.cells
  if c.spillActive then
    if c.get pSPILL F.SPILL_SPILL_QMAX_UNITS * 1024 < (c.queue q).spillCells + n
        ∨ c.get pSPILL F.SPILL_SPILL_CAP_CELLS < c.spillUsed + n then
      (((c.count pSPILL K.SPILL_SPILL_FULL_DROP).raise pSPILL E.SPILL_SPILL_FULL).dtDrop k, false)
    else
      let c := c.spillRefill
      if c.spillCredit < 128 * n then ((c.count pSPILL K.SPILL_SPILL_RATE_DROP).dtDrop k, false)
      else
        let c := { c with spillCredit := c.spillCredit - 128 * n }
        let c := (c.count pSPILL K.SPILL_SPILLED_FRAMES).addCnt pSPILL K.SPILL_SPILL_BYTES (k.bytes.length + 4)
        let c := c.enqueue { k with spilled := true, writing := true }
        ((c.drainWrites c.writingCopies.length).tcount pBUF 1 q qsSpilled, true)
  else if c.enabled pSPILL && c.is pSPILL F.SPILL_SPILL_CFG_EN && !c.is pSPILL F.SPILL_SPILL_STATUS_TRAINED then
    ((c.count pSPILL K.SPILL_SPILL_FULL_DROP).dtDrop k, false)
  else (c.dtDrop k, false)

/-- A held copy may be admitted (R91). -/
def Chip.heldFits (c : Chip) (k : Copy) : Bool :=
  let q := qIndex k.egress k.cls
  let used := (c.queue q).chipCells
  decide (used < c.tget pBUF 0 q fMIN) || (decide (used + k.cells ≤ c.tget pBUF 0 q fCAP) && decide (k.cells ≤ c.heldUnreserved))

/-- While SCLK runs on HFRC the data plane continues at its speed, and frames beyond its reduced capacity are refused at admission (R314).
The spec gives neither that capacity nor a counter: a free value says whether a copy lies beyond it, and the refusal is counted as the
class's own (log entry 126). -/
def Chip.beyondHfrc (c : Chip) : Bool × Chip :=
  if c.is pCLK F.CLK_CLK_SEL_SCLK_HFRC then let (v, c) := c.takeFree; (v % 2 == 1, c) else (false, c)

/-- Stage 6 for one copy (R91 to R95): admitted, or refused and counted. -/
def Chip.letIn (c : Chip) (k : Copy) : Chip × Bool :=
  let (late, c) := c.beyondHfrc
  let q := qIndex k.egress k.cls
  let n := k.cells
  let used := (c.queue q).chipCells
  if c.heldClass k.cls then
    if c.heldFits k && !late then (c.enqueue k, true)
    else (((c.count pBUF K.BUF_HELD_CAP_DROP).tcount pBUF 1 q qsHeldCapDrop).refuseCopy k, false)
  else if alphaTest (c.alphaCode k.cls) used n c.poolFree && !late then (c.enqueue k, true)
  else if k.multi || late then (c.dtDrop k, false)
  else c.spillCopy k

/-! ## The spill path read back (R96 to R98) -/

/-- The first spilled frame of a list that is neither back nor being read. -/
def nextRead (l : List Copy) : Option Copy := l.find? fun k => k.spilled && !k.back && k.reading.isNone

/-- The bytes of the return buffer that are taken: frames read back or being read (R96). -/
def Chip.returnBytes (c : Chip) : Nat :=
  (c.queues.map fun e => copyBytes (e.2.all.filter fun k => k.spilled && !k.writing && (k.back || k.reading.isSome))).sum

/-- The read of a queue's first spilled frame that is not yet being read starts (R96). Where it is still in the write buffer
(`buffered`) it is served from there; else it and all frames before it have been written. DEDUCED: a read starts only while the
256 KiB return buffer has room for its frame. -/
def Chip.spillRead (c : Chip) (egress cls : Nat) (buffered : Bool) : Chip :=
  let q := qIndex egress cls
  match nextRead (c.queue q).items with
  | none => c
  | some k =>
    if k.writing ∧ buffered then
      let x := c.queue q
      c.setQueue q { x with items := x.items.map fun j => if j = k then { j with back := true } else j }
    else
      let c := if k.writing then (c.writingCopies.filter fun j => decide (j.enq ≤ k.enq)).foldl Chip.writeOut c else c
      if 262144 < c.returnBytes + k.bytes.length + 4 then c
      else
        let k := { k with writing := false }
        let x := c.queue q
        (c.setQueue q { x with items := x.items.map fun j => if j = k then { j with reading := some c.cycles } else j }).perf 0x98 1

/-- The read of the first frame of a queue that is being read is done (R97, R98): it is in the return buffer, or is discarded
for an uncorrectable error. -/
def Chip.spillReadDone (c : Chip) (egress cls : Nat) (ecc : EccResult) : Chip :=
  let q := qIndex egress cls
  let x := c.queue q
  match x.items.find? fun k => k.spilled && !k.back && k.reading.isSome with
  | none => c
  | some k =>
    match ecc with
    | .uncorrectable =>
      let c := c.setQueue q { x with items := x.items.filter fun j => j ≠ k }
      ((c.count pSPILL K.SPILL_SPILL_ECC_DROP).raise pSPILL E.SPILL_ECC_UNCORR).numberLost k
    | e =>
      let c := if e = .corrected then c.count pSPILL K.SPILL_SPILL_ECC_CORR else c
      let lat := (c.cycles - k.reading.getD c.cycles + 49) / 50
      let c := if c.get pSPILL F.SPILL_SPILL_LAT_MAX_TENTH_US < lat then c.put pSPILL F.SPILL_SPILL_LAT_MAX_TENTH_US (min lat 65535) else c
      c.setQueue q { x with items := x.items.map fun j => if j = k then { j with back := true } else j }

/-- `CTRL.EN` of SPILL changed (R110): 1 starts training with the active DENSITY, 0 ends it. -/
def Chip.spillEnable (c : Chip) (en : Bool) : Chip :=
  let c := (c.put pSPILL F.SPILL_SPILL_STATUS_TRAINED 0).put pSPILL F.SPILL_SPILL_CAP_CELLS 0
  { c with spillTraining := en }

/-- Training ends (R110). DESIGN CHOICE: SPILL_CAP takes the DENSITY that is active now and keeps it. -/
def Chip.spillTrainDone (c : Chip) (ok : Bool) : Chip :=
  if c.spillTraining && (c.get pCLK F.CLK_PLL_STATUS_LOCKED).testBit 6 then
    let c := { c with spillTraining := false }
    if ok then
      let c := (c.put pSPILL F.SPILL_SPILL_STATUS_TRAINED 1).put pSPILL F.SPILL_SPILL_STATUS_TRAIN_FAIL 0
      let c := c.put pSPILL F.SPILL_SPILL_CAP_CELLS (14680064 * c.get pSPILL F.SPILL_SPILL_CFG_DENSITY)
      c.raise pSPILL E.SPILL_TRAIN_DONE
    else (c.put pSPILL F.SPILL_SPILL_STATUS_TRAIN_FAIL 1).raise pSPILL E.SPILL_TRAIN_FAIL
  else c

/-! ## The resequencer (R99 to R101) -/

abbrev rsLost : Nat := 0
abbrev rsLate : Nat := 1
abbrev rsFull : Nat := 2
abbrev rsHeld : Nat := 3

/-- The waiting frames of an ingress port in a queue's window. -/
def Queue.waiting (x : Queue) (ingress : Nat) : List Copy := x.window.filter fun k => decide (k.ingress = ingress)

/-- The frame that opened the gap of an ingress port: of its waiting frames the first that entered the window (R100). -/
def Queue.gapOpener (x : Queue) (ingress : Nat) : Option Copy :=
  (x.waiting ingress).foldl (fun b k => match b with | none => some k | some a => if k.winAt < a.winAt then some k else b) none

/-- The waiting frame of an ingress port whose number comes next. -/
def Queue.firstWaiting (x : Queue) (ingress : Nat) : Option Copy :=
  (x.waiting ingress).foldl (fun b k => match b with
    | none => some k
    | some a => if seqAhead k.seq (x.expectedOf ingress) < seqAhead a.seq (x.expectedOf ingress) then some k else b) none

/-- Every missing number of an ingress port up to its first waiting frame is declared lost, each counted as RSEQ_LOST, LOST is
raised, and the waiting frames that are now in order are released (R100). DESIGN CHOICE (log entry 121): a number already known to be lost (R94,
R98) is not counted again. -/
def Chip.declareLost (c : Chip) (egress cls ingress : Nat) : Chip :=
  let q := qIndex egress cls
  let x := c.queue q
  match x.firstWaiting ingress with
  | none => c
  | some k =>
    let e := x.expectedOf ingress
    let missing := ((List.range (seqAhead k.seq e)).map fun d => (e + d) % 65536)
    let known := x.lost.filter fun l => decide (l.1 = ingress ∧ l.2 ∈ missing)
    let n := missing.length - known.length
    let x := { x.setExpected ingress k.seq with lost := x.lost.filter fun l => decide (l ∉ known) }
    let c := c.setQueue q (x.advance x.fuel ingress)
    ((c.addCnt pRSEQ K.RSEQ_RSEQ_LOST n).addTCnt pRSEQ 0 q rsLost n).raise pRSEQ E.RSEQ_LOST

/-- The gap of a queue that has been open longest (R100). -/
def Queue.oldestGap (x : Queue) : Option Copy :=
  x.window.foldl (fun b k => match b with | none => some k | some a => if k.winAt < a.winAt then some k else b) none

/-- A copy may enter the window or start: it is not out in LPDDR4X and has been received whole, or may cut through (R96, R103). -/
def Copy.present (k : Copy) : Bool := (!k.spilled || k.back) && (k.rx.isNone || k.cutOk)

/-- `RSEQ_OCC_MAX` after a frame has begun to wait (R111). -/
def Chip.noteOccupancy (c : Chip) (q : Nat) : Chip :=
  let n := (c.queue q).window.length
  if c.get pRSEQ F.RSEQ_RSEQ_OCC_MAX_FRAMES < n then
    (c.put pRSEQ F.RSEQ_RSEQ_OCC_MAX_FRAMES n).put pRSEQ F.RSEQ_RSEQ_OCC_MAX_QUEUE q
  else c

/-- A frame's number is the expected one: it is released, with what waited behind it (R99). -/
def Chip.releaseCopy (c : Chip) (q : Nat) (k : Copy) : Chip :=
  let x := c.queue q
  let y := { x.setExpected k.ingress (k.seq + 1) with ready := x.ready ++ [k] }
  c.setQueue q (y.advance y.fuel k.ingress)

/-- A frame's number lies behind: it is discarded as late (R99). -/
def Chip.lateCopy (c : Chip) (q : Nat) (k : Copy) : Chip :=
  ((c.count pRSEQ K.RSEQ_RSEQ_LATE).tcount pRSEQ 0 q rsLate).refuseCopy k

/-- A frame's number lies ahead: it waits in the window (R99). -/
def Chip.waitCopy (c : Chip) (q : Nat) (k : Copy) : Chip :=
  let k := { k with winAt := c.cycles, winDue := c.cycles + usCycles (c.get pRSEQ F.RSEQ_RSEQ_TIMEOUT_US) }
  let y := c.queue q
  let y := { y with window := y.window ++ [k] }
  let c := c.setQueue q (y.advance y.fuel k.ingress)
  (((c.perf 0x99 1).count pRSEQ K.RSEQ_RSEQ_HELD).tcount pRSEQ 0 q rsHeld).noteOccupancy q

/-- A full window's oldest gap is declared lost at once (R100). -/
def Chip.windowFull (c : Chip) (egress cls : Nat) : Chip :=
  let q := qIndex egress cls
  match (c.queue q).oldestGap with
  | some g => (((c.count pRSEQ K.RSEQ_RSEQ_WINDOW_FULL).tcount pRSEQ 0 q rsFull).raise pRSEQ E.RSEQ_WINDOW_FULL).declareLost egress cls g.ingress
  | none => c

/-- What the resequencer does with a frame that has left its queue (R99), by its number. -/
def Chip.judgeCopy (c : Chip) (q : Nat) (k : Copy) : Chip :=
  let ahead := seqAhead k.seq ((c.queue q).expectedOf k.ingress)
  if ahead = 0 then c.releaseCopy q k else if 32767 < ahead then c.lateCopy q k else c.waitCopy q k

/-- The first present frame of a bulk queue enters the reorder window (R99, R100): its number is the expected one and it is
released, lies ahead and it waits, or lies behind and it is discarded as late. Where it has to wait and the window is full, the
oldest gap is declared lost first, and the frame is judged by what is then expected. DESIGN CHOICE (log entry 121): a frame that does
not have to wait finds no window full. -/
def Chip.windowEntry (c : Chip) (egress cls : Nat) : Chip :=
  let q := qIndex egress cls
  match (c.queue q).toWindow.find? Copy.present with
  | none => c
  | some k =>
    let x := c.queue q
    let c := c.setQueue q { x with items := x.items.filter fun j => j ≠ k }
    let ahead := seqAhead k.seq (x.expectedOf k.ingress)
    let c := if 0 < ahead ∧ ahead ≤ 32767 ∧ 1024 ≤ x.window.length then c.windowFull egress cls else c
    c.judgeCopy q k

/-- The timer of an ingress port's gap has reached `RSEQ_TIMEOUT` (R100). -/
def Chip.rseqTimeout (c : Chip) (egress cls ingress : Nat) : Chip :=
  match (c.queue (qIndex egress cls)).gapOpener ingress with
  | some k => if k.winDue ≤ c.cycles then c.declareLost egress cls ingress else c
  | none => c

/-! ## Loss of the fabric clock (R105) -/

/-- Steps 2 and 3 of R105: the fabric halts, frames in transmission are stomped, queued frames discarded, numbering restarts. A frame
that is being written to a ring ends there as a bad tail (R268). -/
def Chip.fabricHalt (c : Chip) : Chip :=
  let c := (c.put pFAB F.FAB_FAB_STATUS_HALTED 1).put pFAB F.FAB_FAB_STATUS_REBUILD 0
  let c := c.tx.foldl (fun c e => match e.2 with
    | some k => (c.portCount e.1 K.PORT_STOMPED).emit (.frame e.1 k.bytes false)
    | none => c) c
  let c := c.preempted.foldl (fun c k => (c.portCount k.egress K.PORT_STOMPED).emit (.frame k.egress k.bytes false)) c
  let c : Chip := { c with rxDma := c.rxDma.map fun (e : Nat × Copy) => (e.1, { e.2 with rx := none, bad := true }) }
  let n := (c.queues.map fun e => e.2.all.length).sum + c.tWait.length + (c.rels.filter fun q => q.copy.isSome).length
  Chip.settleCredit { c.addCnt pFAB K.FAB_FAB_CLK_DISCARD n with
    queues := [], seqs := [], tx := [], preempted := [], tWait := [], rels := c.rels.filter fun q => q.copy.isNone }

/-- Steps 1 to 3 of R105. -/
def Chip.fabricLoss (c : Chip) : Chip :=
  let c := (c.count pFAB K.FAB_FABRIC_CLOCK_LOSS).raise pFAB E.FAB_FABRIC_CLOCK_LOSS
  (c.fabricHalt).put pFAB F.FAB_FAB_STATUS_CLK_OK 0

/-- Step 4 of R105: PLL_C is locked again, the free list is being rebuilt. -/
def Chip.fabricRelock (c : Chip) : Chip :=
  if c.is pFAB F.FAB_FAB_STATUS_HALTED then (c.put pFAB F.FAB_FAB_STATUS_CLK_OK 1).put pFAB F.FAB_FAB_STATUS_REBUILD 1
  else c.put pFAB F.FAB_FAB_STATUS_CLK_OK 1

/-- Step 5 of R105. -/
def Chip.rebuildDone (c : Chip) : Chip :=
  if c.is pFAB F.FAB_FAB_STATUS_REBUILD then
    ((c.put pFAB F.FAB_FAB_STATUS_REBUILD 0).put pFAB F.FAB_FAB_STATUS_HALTED 0).raise pFAB E.FAB_REBUILD_DONE
  else c

/-! ## Soft reset, validation and safe points of the pages (R101, R107) -/

/-- A soft reset of RSEQ or BUF (R101): what an egress port's leaving UP does to its queues, for every port. -/
def Chip.flushAllQueues (c : Chip) : Chip := (List.range 32).foldl Chip.flushQueues c

def Chip.validateFab (c : Chip) : Nat × Nat :=
  firstBad [
    (decide (c.staged pFAB F.FAB_CT_PORT_MASK_PORTS &&& 0x0FFFFF00 ≠ 0), rsnInvalid, 1),
    (decide (c.staged pFAB F.FAB_CLASS_REGIME_HELD = 0), rsnInvalid, 2)]

def Chip.validateBuf (c : Chip) (group : List Nat) : Nat × Nat :=
  let held := fun cls => (c.peer group pFAB F.FAB_CLASS_REGIME_HELD).testBit cls
  let qs := List.range 256
  let mn := fun q => c.tgetS pBUF 0 q fMIN
  let cap := fun q => c.tgetS pBUF 0 q fCAP
  firstBad [
    ((List.range 8).any fun cls => decide (9 < bitsAt (c.reg pBUF 0x140) (4 * cls) 4), rsnRange, 1),
    (qs.any fun q => decide (cap q < mn q), rsnInvalid, 2),
    (qs.any fun q => held (q % 8) && decide (cap q < 144 ∨ 65536 < cap q), rsnRange, 2),
    (decide (57344 < ((qs.filter fun q => held (q % 8)).map mn).sum), rsnInvalid, 3)]

/-- DESIGN CHOICE (log entry 120): a `SPILL_QMAX` of 0 is refused as out of range (DETAIL 0x04). -/
def Chip.validateSpill (c : Chip) (group : List Nat) : Nat × Nat :=
  let en : Bool := c.staged pSPILL F.SPILL_SPILL_CFG_EN = 1
  let den := c.staged pSPILL F.SPILL_SPILL_CFG_DENSITY
  firstBad [
    (en && !c.is pSPILL F.SPILL_SPILL_STATUS_TRAINED, rsnInvalid, 1),
    (decide (den < 1 ∨ 4 < den), rsnRange, 2),
    (en && decide (c.peer group pRSEQ F.RSEQ_RSEQ_TIMEOUT_US < 50), rsnInvalid, 3),
    (decide (c.staged pSPILL F.SPILL_SPILL_QMAX_UNITS = 0), rsnRange, 4)]

def Chip.validateRseq (c : Chip) (group : List Nat) : Nat × Nat :=
  let us := c.staged pRSEQ F.RSEQ_RSEQ_TIMEOUT_US
  let spill := c.spillActive || (group.contains (pageIdx pSPILL) && decide (c.staged pSPILL F.SPILL_SPILL_CFG_EN = 1))
  firstBad [
    (decide (us < 10 ∨ 10000 < us), rsnRange, 1),
    (decide (us < 50) && spill, rsnInvalid, 2)]

/-- A cut-through transfer is in progress (R107), interrupted by an express frame or not. -/
def Chip.cutting (c : Chip) : Bool :=
  (c.tx.filterMap (fun e => e.2) ++ c.preempted ++ c.rxDma.map fun e => e.2).any fun k => k.rx.isSome

/-- The safe point of a FAB commit (R107). -/
def Chip.safeFab (c : Chip) : Bool :=
  let changed := (c.staged pFAB F.FAB_CLASS_REGIME_HELD) ^^^ (c.get pFAB F.FAB_CLASS_REGIME_HELD)
  !c.cutting && (c.queues.all fun e => !changed.testBit (e.1 % 8) || e.2.all.isEmpty)
    && (c.tWait ++ c.rels.filterMap fun q => q.copy).all fun k => !changed.testBit k.cls

/-! ## Meanings -/

/-- RSEQ_WINDOW_ENTRY (R99). -/
def execRseqWindowEntry (dt egress cls : Nat) (s : State) : Host.Outcome State Fault Refusal :=
  .next (s.run dt fun c => c.windowEntry egress cls)

/-- RSEQ_TIMEOUT (R100). -/
def execRseqTimeout (dt egress cls ingress : Nat) (s : State) : Host.Outcome State Fault Refusal :=
  .next (s.run dt fun c => c.rseqTimeout egress cls ingress)

/-- SPILL_READ (R96). -/
def execSpillRead (dt egress : Nat) (queue : SpillQueue) (s : State) : Host.Outcome State Fault Refusal :=
  .next (s.run dt fun c => c.spillRead egress queue.cls queue.buffered)

/-- SPILL_READ_DONE (R97, R98). -/
def execSpillReadDone (dt egress cls : Nat) (ecc : EccResult) (s : State) : Host.Outcome State Fault Refusal :=
  .next (s.run dt fun c => c.spillReadDone egress cls ecc)

/-- SPILL_TRAIN_DONE (R110). -/
def execSpillTrainDone (dt : Nat) (ok : Bool) (s : State) : Host.Outcome State Fault Refusal :=
  .next (s.run dt fun c => c.spillTrainDone ok)

/-- SPILL_LAT_CLR (R110). -/
def execSpillLatClr (dt : Nat) (req : Requester) (s : State) : Host.Outcome State Fault Refusal :=
  .next (s.run dt fun c => c.command req pSPILL 0x158 1 fun c => c.setReg pSPILL 0x154 0)

/-- RSEQ_CLR (R111). -/
def execRseqClr (dt : Nat) (req : Requester) (s : State) : Host.Outcome State Fault Refusal :=
  .next (s.run dt fun c => c.command req pRSEQ 0x148 1 fun c => c.setReg pRSEQ 0x144 0)

/-- REBUILD_DONE (R105). -/
def execRebuildDone (dt : Nat) (s : State) : Host.Outcome State Fault Refusal := .next (s.run dt fun c => c.rebuildDone)

end Sys2Proof.Machine
end

