-- ==== Sys2Proof/Machine/Fdb.lean ====
section
/-! DEFINITION. Stage 4: the egress set, the FDB and its learning and ageing (R85 to R88), the FDB page (R107, R112). -/
namespace Sys2Proof.Machine

open Sys2Proof

/-! ## Table fields (R112) -/

abbrev fFdbLo : TFld := ⟨0, 0, 32⟩
abbrev fFdbHi : TFld := ⟨1, 0, 16⟩
abbrev fFdbVid : TFld := ⟨1, 16, 12⟩
abbrev fFdbPorts : TFld := ⟨2, 0, 32⟩
abbrev fFdbValid : TFld := ⟨3, 0, 1⟩
abbrev fFdbStatic : TFld := ⟨3, 1, 1⟩
abbrev fFdbHit : TFld := ⟨3, 2, 1⟩
abbrev fVlanMembers : TFld := ⟨0, 0, 32⟩
abbrev fVlanUntag : TFld := ⟨1, 0, 32⟩
abbrev fVlanValid : TFld := ⟨2, 0, 1⟩
abbrev fVlanLearn : TFld := ⟨2, 1, 1⟩
abbrev fStrEgress : TFld := ⟨0, 0, 32⟩
abbrev fStrFrer : TFld := ⟨1, 0, 10⟩
abbrev fStrFrerEn : TFld := ⟨1, 12, 1⟩
abbrev fStrCtBlock : TFld := ⟨1, 13, 1⟩
abbrev fStrValid : TFld := ⟨1, 31, 1⟩
abbrev fQosPvid : TFld := ⟨0, 0, 12⟩
abbrev fQosPcp : TFld := ⟨0, 12, 3⟩

/-! ## The FDB (R88) -/

/-- One bit of the reflected CRC-32 of IEEE 802.3. -/
def crc32Bit (r : Nat) : Nat := if r % 2 = 1 then r / 2 ^^^ 0xEDB88320 else r / 2

/-- One byte of it. -/
def crc32Byte (r b : Nat) : Nat := (List.range 8).foldl (fun r _ => crc32Bit r) (r ^^^ b)

/-- The CRC-32 of a byte string (R88). -/
def crc32 (bs : List Nat) : Nat := (bs.foldl crc32Byte 0xFFFFFFFF) ^^^ 0xFFFFFFFF

/-- The bucket of a key: the six bytes of the MAC address as transmitted, then the VID, high byte first (R88). -/
def fdbBucket (mac vid : Nat) : Nat :=
  crc32 ((List.range 6).map (fun i => mac / 256 ^ (5 - i) % 256) ++ [vid / 256 % 16, vid % 256]) % 4096

/-- The table indices of a bucket's ways, lowest first. -/
def fdbWays (mac vid : Nat) : List Nat := (List.range 8).map fun w => fdbBucket mac vid * 8 + w

/-- A MAC address as a number, first byte transmitted most significant; the entry splits it into MAC[31:0] and MAC[47:32]. -/
def Chip.fdbIs (c : Chip) (i mac vid : Nat) : Bool :=
  c.tis pFDB 0 i fFdbValid && decide (c.tget pFDB 0 i fFdbLo = mac % 2 ^ 32) && decide (c.tget pFDB 0 i fFdbHi = mac / 2 ^ 32 % 2 ^ 16)
    && decide (c.tget pFDB 0 i fFdbVid = vid)

/-- The entry of a key. -/
def Chip.fdbFind (c : Chip) (mac vid : Nat) : Option Nat := (fdbWays mac vid).find? fun i => c.fdbIs i mac vid

/-- The lowest free way of a key's bucket. -/
def Chip.fdbFree (c : Chip) (mac vid : Nat) : Option Nat := (fdbWays mac vid).find? fun i => !c.tis pFDB 0 i fFdbValid

/-- An entry placed at an index. -/
def Chip.fdbPut (c : Chip) (i mac vid ports flags : Nat) : Chip :=
  let c := c.setTword pFDB 0 i 0 (BitVec.ofNat 32 (mac % 2 ^ 32))
  let c := c.setTword pFDB 0 i 1 (BitVec.ofNat 32 (mac / 2 ^ 32 % 2 ^ 16 + 65536 * (vid % 4096)))
  (c.setTword pFDB 0 i 2 (BitVec.ofNat 32 ports)).setTword pFDB 0 i 3 (BitVec.ofNat 32 flags)

/-- An entry emptied. -/
def Chip.fdbErase (c : Chip) (i : Nat) : Chip := (List.range 8).foldl (fun c w => c.setTword pFDB 0 i w 0) c

/-- `FDB_COUNT` (R112). -/
def Chip.fdbCount (c : Chip) : Nat := ((tblIndices c.tblA pFDB 0).filter fun i => c.tis pFDB 0 i fFdbValid).length

/-- The settings have the source address of a frame learned (R88): as they stand when stage 4 takes it up (R45). -/
def Chip.learns (c : Chip) (f : Frame) : Bool :=
  decide (f.ingress < 31) && c.is pFDB F.FDB_FDB_CFG_LEARN_EN && (c.get pFDB F.FDB_LEARN_MASK_PORTS).testBit f.ingress
    && c.tis pFDB 1 f.vid fVlanLearn

/-- A good frame's source address is learned (R88). A refreshed, moved or new entry counts as hit (log entry 21). -/
def Chip.learn (c : Chip) (f : Frame) : Chip :=
  let sa := beAt f.bytes 6 6
  if ¬ f.passed ∨ ¬ f.learns ∨ ¬ c.ready pFDB ∨ bitOf (byteAt f.bytes 6) 0 then c
  else match c.fdbFind sa f.vid with
    | some i =>
      if c.tis pFDB 0 i fFdbStatic then c
      else if c.tget pFDB 0 i fFdbPorts = 2 ^ f.ingress then c.tput pFDB 0 i fFdbHit 1
      else ((c.fdbPut i sa f.vid (2 ^ f.ingress) 5).count pFDB K.FDB_STATION_MOVE).raise pFDB E.FDB_STATION_MOVE
    | none =>
      match c.fdbFree sa f.vid with
      | some i => (c.fdbPut i sa f.vid (2 ^ f.ingress) 5).count pFDB K.FDB_LEARNED
      | none => (c.count pFDB K.FDB_LEARN_FULL).raise pFDB E.FDB_LEARN_FULL

/-- One ageing pass (R88): dynamic entries not hit are removed, every other HIT bit is cleared. -/
def Chip.agePass (c : Chip) : Chip :=
  (tblIndices c.tblA pFDB 0).foldl (fun c i =>
    if ¬ c.tis pFDB 0 i fFdbValid then c
    else if ¬ c.tis pFDB 0 i fFdbStatic ∧ ¬ c.tis pFDB 0 i fFdbHit then (c.fdbErase i).count pFDB K.FDB_AGED_OUT
    else c.tput pFDB 0 i fFdbHit 0) c

/-- An ageing pass at the end of an ageing period (R88). -/
def Chip.ageingPass (c : Chip) : Chip :=
  let period := secCycles (c.get pFDB F.FDB_FDB_CFG_AGE_TIME)
  if c.ready pFDB ∧ period ≠ 0 ∧ c.ageAt + period ≤ c.cycles then { c.agePass with ageAt := c.ageAt + period } else c

/-- A flush request (R112): `FDB_FLUSH` with START set; one that finds a flush running is ignored (log entry 22). -/
def Chip.fdbFlush (c : Chip) (v : Word) : Chip :=
  if v.toNat.testBit 31 ∧ c.flush.isNone then { c with flush := some v } else c

/-- Does an entry match a flush request (R112)? -/
def Chip.flushMatches (c : Chip) (v : Word) (i : Nat) : Bool :=
  c.tis pFDB 0 i fFdbValid
    && (!v.toNat.testBit 5 || (c.tget pFDB 0 i fFdbPorts).testBit (bitsAt v 0 5))
    && (!v.toNat.testBit 20 || decide (c.tget pFDB 0 i fFdbVid = bitsAt v 8 12))
    && (v.toNat.testBit 21 || !c.tis pFDB 0 i fFdbStatic)

/-- The flush completes (R112). -/
def Chip.flushDone (c : Chip) : Chip :=
  match c.flush with
  | some v =>
    let c := (tblIndices c.tblA pFDB 0).foldl (fun c i => if c.flushMatches v i then c.fdbErase i else c) c
    { c with flush := none }.raise pFDB E.FDB_FLUSH_DONE
  | none => c

/-! ## Window operations on the FDB table (R112) -/

/-- The key in an entry buffer. -/
def fdbKey (w : Nat → Word) : Nat × Nat := ((w 0).toNat + 2 ^ 32 * bitsAt (w 1) 0 16, bitsAt (w 1) 16 12)

/-- A WRITE places the entry in its bucket: over the entry with the same key, else in the lowest free way; `none` when full. -/
def Chip.fdbWrite (c : Chip) (w : Nat → Word) : Option (Nat × Chip) :=
  let (mac, vid) := fdbKey w
  let at' := fun i => (i, c.fdbPut i mac vid (w 2).toNat (bitsAt (w 3) 0 3))
  match c.fdbFind mac vid with
  | some i => some (at' i)
  | none => (c.fdbFree mac vid).map at'

/-! ## The egress set (R85, R86) -/

/-- What the code of R85 decides. -/
inductive SetResult where
  | forward (set : Nat)
  | filtered
  | vlanDrop
  deriving DecidableEq, Repr

/-- The class of a PCP at a port (R85). -/
def Chip.pcpClass (c : Chip) (inp pcp : Nat) : Nat := c.tget pFDB 3 inp ⟨1, 3 * pcp, 3⟩

/-- The VLAN, PCP and class of a frame (R85, R86) from its VLAN tag (VID, PCP). -/
def Chip.classify (c : Chip) (inp : Nat) (tag : Option (Nat × Nat)) : Nat × Nat × Nat :=
  let pcp := match tag with | some t => t.2 | none => c.tget pFDB 3 inp fQosPcp
  let pvid := c.tget pFDB 3 inp fQosPvid
  let vid := match tag with | some t => if t.1 ≠ 0 then t.1 else pvid | none => pvid
  (vid, pcp, c.pcpClass inp pcp)

/-- The code of R85 from the VLAN test on, with what it counts. -/
def Chip.egressSet (c : Chip) (inp vid dmac : Nat) (handle : Option Nat) : Chip × SetResult :=
  let members := c.tget pFDB 1 vid fVlanMembers
  let drop := fun (c : Chip) => ((c.portCount inp K.PORT_VLAN_DROP).count pFDB K.FDB_VLAN_DROP, SetResult.vlanDrop)
  if ¬ c.tis pFDB 1 vid fVlanValid ∨ ¬ members.testBit inp then drop c
  else
    let stream := match handle with | some h => if c.tis pFDB 2 h fStrValid then some (c.tget pFDB 2 h fStrEgress) else none | none => none
    let (c, raw) := match stream with
      | some e => (c, e)
      | none =>
        match c.fdbFind dmac vid with
        | some i => (c.tput pFDB 0 i fFdbHit 1, c.tget pFDB 0 i fFdbPorts)
        | none => (c.count pFDB K.FDB_FLOODED, members)
    let set := clearBit (raw &&& members) inp
    if set = 0 then (if raw = 2 ^ inp then (c.count pFDB K.FDB_FILTERED, .filtered) else drop c) else (c, .forward set)

/-- A copy leaves a port untagged (R86). -/
def Chip.untagged (c : Chip) (vid port : Nat) : Bool := (c.tget pFDB 1 vid fVlanUntag).testBit port

/-! ## Commit of the FDB page (R107) -/

def Chip.validateFdb (c : Chip) (group : List Nat) : Nat × Nat :=
  let age := c.staged pFDB F.FDB_FDB_CFG_AGE_TIME
  firstBad [
    (decide (c.tgetS pFDB 1 0 fVlanValid = 1 ∨ c.tgetS pFDB 1 4095 fVlanValid = 1), rsnInvalid, 1),
    ((List.range 32).any fun i => decide (c.tgetS pFDB 1 (c.tgetS pFDB 3 i fQosPvid) fVlanValid = 0), rsnTableRef, 2),
    ((tblIndices c.tblS pFDB 2).any fun h => decide (c.tgetS pFDB 2 h fStrValid = 1 ∧ c.tgetS pFDB 2 h fStrFrerEn = 1
      ∧ c.tpeer group pFRER 0 (c.tgetS pFDB 2 h fStrFrer) ⟨0, 0, 1⟩ = 0), rsnTableRef, 3),
    (decide (1 ≤ age ∧ age ≤ 9), rsnRange, 4),
    ((c.reg pFDB 0x144).toNat.testBit 31, rsnRange, 5)]

/-- A changed AGE_TIME starts a new ageing period at T_apply (R88). -/
def Chip.appliedFdb (c old : Chip) : Chip :=
  if c.get pFDB F.FDB_FDB_CFG_AGE_TIME ≠ old.get pFDB F.FDB_FDB_CFG_AGE_TIME then { c with ageAt := c.cycles } else c

/-! ## Meanings -/

/-- AGEING_PASS (R88). -/
def execAgeingPass (dt : Nat) (s : State) : Host.Outcome State Fault Refusal := .next (s.run dt fun c => c.ageingPass)

/-- FDB_FLUSH (R112): a write to `FDB_FLUSH`. -/
def execFdbFlush (dt : Nat) (req : Requester) (value : Word) (s : State) : Host.Outcome State Fault Refusal :=
  .next (s.run dt fun c => c.command req pFDB 0x14C value fun c => c.fdbFlush value)

/-- FLUSH_DONE (R112). -/
def execFlushDone (dt : Nat) (s : State) : Host.Outcome State Fault Refusal := .next (s.run dt fun c => c.flushDone)

end Sys2Proof.Machine
end

