-- ==== Sys2Proof/Machine/Frer.lean ====
section
/-! DEFINITION. Stage 5: seamless redundancy (R170 to R186): recovery, acceptance and the hold buffer, member states, latent
error detection, the FRER page. -/
namespace Sys2Proof.Machine

open Sys2Proof

/-! ## Table fields (R185) -/

abbrev fCpValid : TFld := ⟨0, 0, 1⟩
abbrev fCpSeqGen : TFld := ⟨0, 1, 1⟩
abbrev fCpElim : TFld := ⟨0, 2, 1⟩
abbrev fCpTagless : TFld := ⟨0, 3, 1⟩
abbrev fCpLatEn : TFld := ⟨0, 4, 1⟩
abbrev fCpHist : TFld := ⟨0, 8, 7⟩
abbrev fCpLatPaths : TFld := ⟨0, 16, 3⟩
abbrev fCpResetMs : TFld := ⟨1, 0, 14⟩
abbrev fCpTagOut : TFld := ⟨2, 0, 32⟩
abbrev fCpLatDiff : TFld := ⟨3, 0, 16⟩
abbrev fCpLatPeriod : TFld := ⟨3, 16, 16⟩
abbrev fCpLatReset : TFld := ⟨4, 0, 16⟩
abbrev fMbValid : TFld := ⟨0, 0, 1⟩
abbrev fMbInd : TFld := ⟨0, 1, 1⟩
abbrev fMbPort : TFld := ⟨0, 8, 5⟩
abbrev fMbRing : TFld := ⟨0, 14, 2⟩
abbrev fMbComp : TFld := ⟨0, 16, 10⟩
abbrev fMbIndHist : TFld := ⟨1, 0, 7⟩
abbrev fMbSilent : TFld := ⟨1, 16, 16⟩
abbrev fMbHoldoff : TFld := ⟨2, 0, 16⟩
abbrev fMbRogue : TFld := ⟨2, 16, 8⟩

/-- Counters of CSTAT and MSTAT by slot (R185). -/
abbrev csPassed : Nat := 0
abbrev csDiscarded : Nat := 1
abbrev csLost : Nat := 2
abbrev csOutOfOrder : Nat := 3
abbrev csRogue : Nat := 4
abbrev csResets : Nat := 5
abbrev csTagless : Nat := 6
abbrev csHoldRelease : Nat := 7
abbrev csLatentErr : Nat := 8
abbrev msGood : Nat := 0
abbrev msIndDiscard : Nat := 1
abbrev msFails : Nat := 2

/-- Member states and causes (R185). -/
abbrev mInit : Nat := 0
abbrev mActive : Nat := 1
abbrev mFailed : Nat := 2
abbrev mProbation : Nat := 3

def Chip.comp (c : Chip) (i : Nat) : CompRt := lookupD {} c.comps i
def Chip.setComp (c : Chip) (i : Nat) (x : CompRt) : Chip := { c with comps := store {} c.comps i x }
def Chip.member (c : Chip) (i : Nat) : MemRt := lookupD {} c.members i
def Chip.setMember (c : Chip) (i : Nat) (x : MemRt) : Chip := { c with members := store {} c.members i x }

/-! ## The vector recovery algorithm (R174) -/

/-- What the algorithm decides about a number. -/
inductive SeqResult where
  | accept (lost : Nat) (outOfOrder : Bool)
  | duplicate
  | rogue
  deriving DecidableEq, Repr

/-- The signed distance of a number from the recovery number (R174). -/
def seqDist (s recov : Nat) : Int :=
  let d := seqAhead s recov
  if d < 32768 then (d : Int) else (d : Int) - 65536

/-- The algorithm's decision, and its state after an acceptance. -/
def Recovery.judge (r : Recovery) (len s : Nat) : Recovery × SeqResult :=
  let d := seqDist s r.seq
  if r.takeAny then ({ r with takeAny := false, seq := s, history := 1 }, .accept 0 false)
  else if (len : Int) ≤ d ∨ d ≤ -(len : Int) then (r, .rogue)
  else if d ≤ 0 then
    let k := d.natAbs
    if r.history.testBit k then (r, .duplicate) else ({ r with history := setBit r.history k }, .accept 0 true)
  else
    let k := d.natAbs
    let lost := k - popCount (r.history >>> (len - k)) k
    ({ r with seq := s, history := (r.history * 2 ^ k + 1) % 2 ^ len }, .accept lost false)

/-- The state after the acceptance of a number that stage 5 let pass, when its frame completes good (R176), with what R174 counts.
DEDUCED: where the window has meanwhile moved past the number, history and recovery number stay. -/
def Recovery.accept (r : Recovery) (now len s : Nat) : Recovery × Nat × Bool :=
  match r.judge len s with
  | (r, .accept lost ooo) => ({ r with timer := some now }, lost, ooo)
  | (r, _) => ({ r with timer := some now }, 0, false)

/-- A recovery whose reset timer has run out takes any number (R174). -/
def Recovery.expire (r : Recovery) (now limit : Nat) : Recovery :=
  match r.timer with
  | some t => if t + limit ≤ now then { r with takeAny := true, timer := none } else r
  | none => r

/-! ## Members (R171, R180) -/

/-- The valid members of a compound stream. -/
def Chip.membersOf (c : Chip) (comp : Nat) : List Nat :=
  (tblIndices c.tblA pFRER 1).filter fun m => c.tis pFRER 1 m fMbValid && decide (c.tget pFRER 1 m fMbComp = comp)

/-- The member of a compound stream that a frame belongs to (R171). -/
def Chip.memberOf (c : Chip) (comp ring port : Nat) : Option Nat :=
  (c.membersOf comp).find? fun m => decide (c.tget pFRER 1 m fMbRing = ring) && decide (c.tget pFRER 1 m fMbPort = port)

/-- A compound stream is DEGRADED (R181). -/
def Chip.degraded (c : Chip) (comp : Nat) : Bool :=
  decide (((c.membersOf comp).filter fun m => decide ((c.member m).state = mActive)).length < 2)

/-- `DEGRADED_CNT`: the valid compound streams that read DEGRADED (R181). -/
def Chip.degradedCnt (c : Chip) : Nat :=
  ((tblIndices c.tblA pFRER 0).filter fun i => c.tis pFRER 0 i fCpValid && c.degraded i).length

/-- A member enters FAILED (R180). -/
def Chip.failMember (c : Chip) (m cause : Nat) : Chip :=
  let r := c.member m
  let c := (c.setMember m { r with state := mFailed, cause := cause, entered := c.cycles }).tcount pFRER 3 m msFails
  if r.state = mProbation then c else (c.count pFRER K.FRER_MEMBER_FAILS).raise pFRER E.FRER_MEMBER_FAIL

/-- A good frame of a member (R180). -/
def Chip.goodMember (c : Chip) (m : Nat) : Chip :=
  let r := c.member m
  let c := c.tcount pFRER 3 m msGood
  let r' := { r with lastGood := c.cycles }
  if r.state = mInit then c.setMember m { r' with state := mActive, entered := c.cycles }
  else if r.state = mFailed then c.setMember m { r' with state := mProbation, entered := c.cycles }
  else c.setMember m r'

/-- A rogue frame of a member (R180): `limit` of them within a sliding second fail it. -/
def Chip.rogueMember (c : Chip) (m limit : Nat) : Chip :=
  let r := c.member m
  let recent := (r.rogues.filter fun t => decide (c.cycles < t + secCycles 1)) ++ [c.cycles]
  let c := c.setMember m { r with rogues := recent }
  if limit ≤ recent.length ∧ r.state ≠ mFailed then c.failMember m 2 else c

/-- No good frame of a member for SILENT_MS (R180). -/
def Chip.memberSilent (c : Chip) (m : Nat) : Chip :=
  let r := c.member m
  if c.ready pFRER ∧ c.tis pFRER 1 m fMbValid ∧ r.state ≠ mFailed
      ∧ r.lastGood + msCycles (c.tget pFRER 1 m fMbSilent) ≤ c.cycles then c.failMember m 1
  else c

/-- HOLDOFF_MS has passed in PROBATION (R180). -/
def Chip.memberReturn (c : Chip) (m : Nat) : Chip :=
  let r := c.member m
  if c.ready pFRER ∧ c.tis pFRER 1 m fMbValid ∧ r.state = mProbation
      ∧ r.entered + msCycles (c.tget pFRER 1 m fMbHoldoff) ≤ c.cycles
      ∧ c.cycles < r.lastGood + msCycles (c.tget pFRER 1 m fMbSilent) then
    (c.setMember m { r with state := mActive, cause := 0, entered := c.cycles }).raise pFRER E.FRER_MEMBER_RETURN
  else c

/-! ## Stage 5 (R170 to R176) -/

def Chip.resetLimit (c : Chip) (comp : Nat) : Nat := msCycles (c.tget pFRER 0 comp fCpResetMs)

/-- The rules of a compound stream and a member as they stand (R186). -/
def Chip.frerRule (c : Chip) (i : Nat) (m : Option Nat) : FrerRule :=
  { elim := c.tis pFRER 0 i fCpElim, seqGen := c.tis pFRER 0 i fCpSeqGen, hist := c.tget pFRER 0 i fCpHist
    tagOut := c.tget pFRER 0 i fCpTagOut, reset := c.resetLimit i
    ind := match m with
      | some k => if c.tis pFRER 1 k fMbInd then some (c.tget pFRER 1 k fMbIndHist) else none
      | none => none
    rogue := match m with | some k => c.tget pFRER 1 k fMbRogue | none => 0 }

/-- A number for a frame that leaves stage 5 (R172). -/
def Chip.generate (c : Chip) (f : Frame) (r : FrerRule) : Chip × Frame :=
  match f.comp with
  | some i =>
    if r.seqGen then
      let x := c.comp i
      (c.setComp i { x with gen := (x.gen + 1) % 65536 }, { f with seqOut := some x.gen })
    else (c, { f with seqOut := f.seqIn })
  | none => (c, f)

/-- HOLD_STATUS (R185). -/
def Chip.holdBytes (c : Chip) : Nat := (c.holds.map fun h => h.frame.bytes.length).sum

/-- A frame finds no room in the hold buffer (R178). -/
def Chip.holdFull (c : Chip) : Chip := (c.count pFRER K.FRER_HOLD_FULL_DROP).raise pFRER E.FRER_HOLD_FULL

/-- The frame waits in the hold buffer, or finds no room (R176, R178). -/
def Chip.holdFrame (c : Chip) (comp seq : Nat) (f : Frame) (done : Bool) : Chip × Frame :=
  if 64 ≤ c.holds.length ∨ 262144 < c.holdBytes + f.bytes.length then (c.holdFull, { f with verdict := .dropped })
  else
    let f := { f with verdict := .held }
    let x : Chip := { c with holds := c.holds ++ [⟨comp, seq, f, done⟩] }
    let c := x.perf 0x342 1
    let n := c.holds.length
    (if c.get pFRER F.FRER_HOLD_STATUS_MAX < n then c.put pFRER F.FRER_HOLD_STATUS_MAX n else c, f)

/-- A discarded rogue frame as it is counted (R171, R174). -/
def Chip.countRogue (c : Chip) (comp : Nat) : Chip := (c.tcount pFRER 2 comp csRogue).count pFRER K.FRER_FRER_ROGUE

/-- Elimination of a numbered frame of a valid member (R174 to R176). -/
def Chip.eliminate (c : Chip) (i m s : Nat) (f : Frame) (r : FrerRule) (done : Bool) : Chip × Frame :=
  let x := c.comp i
  let ind := (c.member m).ind.expire c.cycles r.reset
  let indBad := match r.ind with
    | some len => (match (ind.judge len s).2 with | .accept _ _ => false | _ => true)
    | none => false
  if indBad then (c, { f with verdict := .individual })
  else if ¬ r.elim then c.generate f r
  else match (x.recov.judge r.hist s).2 with
    | .duplicate => (c, { f with verdict := .duplicate })
    | .rogue => (c, { f with verdict := .rogue })
    | .accept _ _ =>
      if x.pending.any fun p => p.1 = s then c.holdFrame i s f done
      else (c.setComp i { x with pending := x.pending ++ [(s, f.fid)] }).generate { f with verdict := .pending } r

/-- Stage 5 for a frame whose stream entry hands it to a compound stream: the frame with its verdict. It goes on to stage 6
when the verdict is `pass` or `pending`. -/
def Chip.stage5 (c : Chip) (f : Frame) (done : Bool) : Chip × Frame :=
  match f.comp with
  | none => (c, f)
  | some i =>
    if ¬ c.ready pFRER ∨ ¬ c.tis pFRER 0 i fCpValid then (c, { f with comp := none })
    else match f.seqIn with
      | none =>
        let r := c.frerRule i none
        let f := { f with frer := some r }
        if ¬ r.elim then c.generate f r
        else
          let c := c.tcount pFRER 2 i csTagless
          if c.tis pFRER 0 i fCpTagless then c.generate f r
          else (c.count pFRER K.FRER_TAGLESS_DROP, { f with verdict := .dropped })
      | some s =>
        match c.memberOf i f.ring f.ringPort with
        | none => (c.countRogue i, { f with frer := some (c.frerRule i none), verdict := .dropped })
        | some m =>
          let r := c.frerRule i (some m)
          c.eliminate i m s { f with member := some m, frer := some r } r done

/-! ## The end of a frame (R174 to R177) -/

/-- Individual recovery takes the number of a frame that it let pass at stage 5 and that completes good (R175). -/
def Chip.indAccept (c : Chip) (m s : Nat) (r : FrerRule) : Chip :=
  match r.ind with
  | some len =>
    let x := c.member m
    c.setMember m { x with ind := ((x.ind.expire c.cycles r.reset).accept c.cycles len s).1 }
  | none => c

/-- A good frame of a member (R180), individual recovery first. -/
def Chip.goodFrom (c : Chip) (member : Option Nat) (s : Nat) (r : FrerRule) : Chip :=
  match member with
  | some m => (c.indAccept m s r).goodMember m
  | none => c

/-- A number is accepted: the frame that held it pending has completed good (R174, R177). -/
def Chip.acceptNumber (c : Chip) (comp : Nat) (s : Nat) (r : FrerRule) : Chip :=
  let x := c.comp comp
  let (rc, lost, ooo) := x.recov.accept c.cycles r.hist s
  let c := c.setComp comp { x with recov := rc, latPassed := x.latPassed + 1 }
  let c := if lost = 0 then c else (c.addTCnt pFRER 2 comp csLost lost).addCnt pFRER K.FRER_FRER_LOST lost
  let c := if ooo then c.tcount pFRER 2 comp csOutOfOrder else c
  (c.perf 0x340 1).tcount pFRER 2 comp csPassed

/-- A frame is discarded as a duplicate (R174, R177). -/
def Chip.countDuplicate (c : Chip) (comp : Nat) : Chip :=
  let x := c.comp comp
  let c := c.setComp comp { x with latDiscarded := x.latDiscarded + 1 }
  ((c.perf 0x341 1).tcount pFRER 2 comp csDiscarded).count pFRER K.FRER_FRER_DISCARD

/-- The number is no longer pending. -/
def Chip.unpend (c : Chip) (comp s : Nat) : Chip :=
  let x := c.comp comp
  c.setComp comp { x with pending := x.pending.filter fun p => decide (p.1 ≠ s) }

/-- The rules under which stage 5 judged a frame. -/
def Frame.rule (f : Frame) : FrerRule := f.frer.getD ⟨false, false, 0, 0, 0, none, 0⟩

/-- Held copies of an accepted number are discarded as duplicates (R177). -/
def Chip.dropHeld (c : Chip) (comp s : Nat) : Chip :=
  let mine := c.holds.filter fun h => decide (h.comp = comp ∧ h.seq = s)
  let c := { c with holds := c.holds.filter fun h => decide (h.comp ≠ comp ∨ h.seq ≠ s) }
  mine.foldl (fun c _ => c.countDuplicate comp) c

/-- A number is accepted with the frame that holds it: recovery, the held copies dropped. -/
def Chip.accepted (c : Chip) (comp s : Nat) (f : Frame) : Chip := ((c.unpend comp s).acceptNumber comp s f.rule).dropHeld comp s

/-- The pending frame of a number ended bad (R177): the oldest held copy becomes pending; one that has already completed good
is accepted, and goes on to stage 6. -/
def Chip.releaseHeld (c : Chip) (comp s : Nat) : Chip × List Frame :=
  let c := c.unpend comp s
  match c.holds.find? fun h => decide (h.comp = comp ∧ h.seq = s) with
  | none => (c, [])
  | some h =>
    let c := { c with holds := c.holds.filter fun g => decide (g ≠ h) }
    let c := (c.count pFRER K.FRER_HOLD_RELEASE).tcount pFRER 2 comp csHoldRelease
    if h.done then
      let c := c.accepted comp s h.frame
      let (c, f) := c.generate { h.frame with verdict := .pending } h.frame.rule
      (c, [f])
    else
      let x := c.comp comp
      (c.setComp comp { x with pending := x.pending ++ [(s, h.frame.fid)] }, [])

/-- A held frame ends good: it is stored whole, if the hold buffer has the room (R178). -/
def Chip.holdWhole (c : Chip) (f : Frame) : Chip :=
  let others := c.holds.filter fun h => decide (h.frame.fid ≠ f.fid)
  if 262144 < { c with holds := others }.holdBytes + f.bytes.length then { c with holds := others }.holdFull
  else { c with holds := c.holds.map fun h => if h.frame.fid = f.fid then { h with done := true, frame := { f with verdict := .held } } else h }

/-- A frame that stage 5 has judged ends (R176, R177), good or bad: the frames that now go on to stage 6. One that ends good is a good
frame of its member at once (R175, R180), whatever becomes of its number or of it, unless individual recovery or the rogue test has
discarded it. -/
def Chip.frerEnd (c : Chip) (f : Frame) (good : Bool) : Chip × List Frame :=
  match f.comp, f.seqIn with
  | some i, some s =>
    let held := c.holds.any fun h => decide (h.frame.fid = f.fid)
    let isPending := (c.comp i).pending.any fun p => decide (p.1 = s ∧ p.2 = f.fid)
    if isPending then
      if good then
        let c := (c.goodFrom f.member s f.rule).accepted i s f
        if f.verdict = .held then
          let (c, g) := c.generate { f with verdict := .pending } f.rule
          (c, [g])
        else (c, [])
      else c.releaseHeld i s
    else if held then
      if good then ((c.goodFrom f.member s f.rule).holdWhole f, [])
      else ({ c with holds := c.holds.filter fun h => decide (h.frame.fid ≠ f.fid) }, [])
    else if good then
      match f.verdict with
      | .duplicate => ((c.goodFrom f.member s f.rule).countDuplicate i, [])
      | .rogue => (match f.member with | some m => (c.indAccept m s f.rule).countRogue i |>.rogueMember m f.rule.rogue | none => c, [])
      | .individual => (match f.member with | some m => c.tcount pFRER 3 m msIndDiscard | none => c, [])
      | .held | .pass | .dropped => (c.goodFrom f.member s f.rule, [])
      | .pending => (c, [])
    else (c, [])
  | _, _ => (c, [])

/-! ## Resets, latent errors, modes (R174, R182, R184 to R186) -/

/-- TAKE_ANY is set, RESETS counted and RECOV_RESET raised (R174). -/
def Chip.takeAny (c : Chip) (i : Nat) : Chip :=
  let x := c.comp i
  let c := c.setComp i { x with recov := { x.recov with takeAny := true, timer := none } }
  (c.tcount pFRER 2 i csResets).raise pFRER E.FRER_RECOV_RESET

/-- The reset timer of a compound stream reaches RESET_MS (R174). -/
def Chip.recovReset (c : Chip) (i : Nat) : Chip :=
  match (c.comp i).recov.timer with
  | some t =>
    if c.ready pFRER ∧ c.tis pFRER 0 i fCpValid ∧ c.tis pFRER 0 i fCpElim ∧ t + c.resetLimit i ≤ c.cycles then c.takeAny i else c
  | none => c

/-- `FRER_CMD` (R185). -/
def Chip.frerCmd (c : Chip) (v : Word) : Chip :=
  let i := bitsAt v 0 10
  let c := if v.toNat.testBit 16 then c.takeAny i else c
  if v.toNat.testBit 17 then c.setComp i { c.comp i with gen := 0 } else c

/-- The next instant of a periodic action that was due at `t`: on its grid, or from now on where a whole period was missed. -/
def nextDue (now t period : Nat) : Nat := if t + 2 * period ≤ now then now else t + period

/-- The latent error test (R182). -/
def Chip.latentTest (c : Chip) (i : Nat) : Chip :=
  let x := c.comp i
  let period := msCycles (c.tget pFRER 0 i fCpLatPeriod)
  if c.ready pFRER ∧ c.tis pFRER 0 i fCpValid ∧ c.tis pFRER 0 i fCpLatEn ∧ x.latAt + period ≤ c.cycles then
    let c := c.setComp i { x with latAt := nextDue c.cycles x.latAt period }
    let diff : Int := (x.latPassed : Int) * ((c.tget pFRER 0 i fCpLatPaths : Int) - 1) - x.latDiscarded
    if c.tget pFRER 0 i fCpLatDiff < diff.natAbs then
      ((c.tcount pFRER 2 i csLatentErr).count pFRER K.FRER_LATENT_ERR).raise pFRER E.FRER_LATENT_ERR
    else c
  else c

/-- passed_l and discarded_l are cleared every LAT_RESET_S seconds (R182). -/
def Chip.latentReset (c : Chip) (i : Nat) : Chip :=
  let x := c.comp i
  let period := secCycles (c.tget pFRER 0 i fCpLatReset)
  if c.ready pFRER ∧ c.tis pFRER 0 i fCpValid ∧ c.tis pFRER 0 i fCpLatEn ∧ x.latResetAt + period ≤ c.cycles then
    c.setComp i { x with latPassed := 0, latDiscarded := 0, latResetAt := nextDue c.cycles x.latResetAt period }
  else c

/-- The return to RUN (R180, R184): TAKE_ANY set, generators at 0, members in INIT. -/
def Chip.frerRestart (c : Chip) : Chip :=
  let ms := (tblIndices c.tblA pFRER 1).filter fun m => c.tis pFRER 1 m fMbValid
  { c with
    comps := c.comps.map fun (e : Nat × CompRt) => (e.1, { e.2 with recov := {}, gen := 0 })
    members := ms.foldl (fun l m => store ({} : MemRt) l m { lastGood := c.cycles, entered := c.cycles }) [] }

/-- FRER stops (R184, R101): what it holds and has pending is lost. -/
def Chip.frerStop (c : Chip) : Chip :=
  { c with holds := [], comps := c.comps.map fun (e : Nat × CompRt) => (e.1, { e.2 with pending := [] }) }

/-- The effects of a FRER commit (R186). -/
def Chip.appliedFrer (c old : Chip) : Chip :=
  let comps := ((tblIndices c.tblA pFRER 0) ++ (tblIndices old.tblA pFRER 0)).eraseDups
  let c := comps.foldl (fun c i =>
    let x := c.comp i
    let ch := fun f => decide (c.tget pFRER 0 i f ≠ old.tget pFRER 0 i f)
    let x := if ch fCpElim || ch fCpHist then { x with recov := { x.recov with takeAny := true } } else x
    let x := if ch fCpSeqGen && c.tis pFRER 0 i fCpSeqGen then { x with gen := 0 } else x
    let on := fun (d : Chip) => d.tis pFRER 0 i fCpLatEn && d.tis pFRER 0 i fCpValid
    let x := if on c && !on old then { x with latAt := c.cycles, latResetAt := c.cycles, latPassed := 0, latDiscarded := 0 } else x
    c.setComp i x) c
  let mems := ((tblIndices c.tblA pFRER 1) ++ (tblIndices old.tblA pFRER 1)).eraseDups
  mems.foldl (fun c m =>
    if (List.range 3).any fun w => decide (c.tword pFRER 1 m w ≠ old.tword pFRER 1 m w) then
      c.setMember m (if c.tis pFRER 1 m fMbValid then { lastGood := c.cycles, entered := c.cycles } else {})
    else c) c

/-- The checks of R186. DEDUCED: RING_ID 0 of a member that is not valid, as every entry resets, names no device wrongly (DETAIL 0x05). -/
def Chip.validateFrer (c : Chip) (ringDevices : Nat) : Nat × Nat :=
  let cs := tblIndices c.tblS pFRER 0
  let ms := tblIndices c.tblS pFRER 1
  let cv := fun i f => c.tgetS pFRER 0 i f
  let mv := fun m f => c.tgetS pFRER 1 m f
  let okm := ms.filter fun m => decide (mv m fMbValid = 1)
  let same := fun a b => decide (a ≠ b ∧ mv a fMbComp = mv b fMbComp ∧ mv a fMbRing = mv b fMbRing ∧ mv a fMbPort = mv b fMbPort)
  let bad := fun n lo hi => decide (n < lo ∨ hi < n)
  firstBad [
    ((cs.any fun i => bad (cv i fCpHist) 1 64) || (ms.any fun m => bad (mv m fMbIndHist) 1 64), rsnRange, 1),
    (cs.any fun i => bad (cv i fCpResetMs) 1 10000, rsnRange, 2),
    (okm.any fun m => decide (cv (mv m fMbComp) fCpValid = 0), rsnTableRef, 3),
    (okm.any fun m => decide (4 < (okm.filter fun b => decide (mv b fMbComp = mv m fMbComp)).length) || okm.any (same m), rsnInvalid, 4),
    ((ms.any fun m => decide (mv m fMbPort = 31) || (decide (mv m fMbRing ≠ 0) && !ringDevices.testBit (mv m fMbRing)))
      || okm.any fun m => !ringDevices.testBit (mv m fMbRing), rsnRange, 5),
    (cs.any fun i => bad (cv i fCpLatPaths) 2 4 || decide (cv i fCpLatPeriod = 0) || decide (cv i fCpLatReset = 0), rsnRange, 6),
    (ms.any fun m => decide (mv m fMbSilent = 0) || decide (mv m fMbHoldoff = 0) || decide (mv m fMbRogue = 0), rsnRange, 7),
    (cs.any fun i => (cv i fCpTagOut).testBit 31, rsnInvalid, 8),
    (cs.any fun i => decide (cv i fCpValid = 1 ∧ cv i fCpElim = 1) && !okm.any fun m => decide (mv m fMbComp = i), rsnInvalid, 9)]

/-- The entries of the read-only tables CSTAT and MSTAT but for their counters (R185). -/
def Chip.cstatWord (c : Chip) (i word : Nat) : Word :=
  let x := c.comp i
  if word = 0 then
    let act := ((c.membersOf i).filter fun m => decide ((c.member m).state = mActive)).length
    BitVec.ofNat 32 (x.recov.takeAny.toNat + 256 * act + 65536 * (c.tis pFRER 0 i fCpValid && c.degraded i).toNat)
  else BitVec.ofNat 32 (x.recov.seq + 65536 * x.gen)

def Chip.mstatWord (c : Chip) (m : Nat) : Word :=
  let r := c.member m
  BitVec.ofNat 32 (r.state + 16 * r.cause)

/-! ## Meanings -/

/-- RECOV_RESET (R174): the reset timer of a compound stream runs out. -/
def execRecovReset (dt index : Nat) (s : State) : Host.Outcome State Fault Refusal := .next (s.run dt fun c => c.recovReset index)

/-- A write to `FRER_CMD` (R185). -/
def Chip.frerCmdWrite (c : Chip) (req : Requester) (v : Word) : Chip := c.command req pFRER 0x140 v fun c => c.frerCmd v

/-- RESET_RECOV (R174, R185). -/
def execResetRecov (dt : Nat) (req : Requester) (index : Nat) (s : State) : Host.Outcome State Fault Refusal :=
  .next (s.run dt fun c => c.frerCmdWrite req (BitVec.ofNat 32 (index % 1024 + 2 ^ 16)))

/-- RESET_GEN (R185). -/
def execResetGen (dt : Nat) (req : Requester) (index : Nat) (s : State) : Host.Outcome State Fault Refusal :=
  .next (s.run dt fun c => c.frerCmdWrite req (BitVec.ofNat 32 (index % 1024 + 2 ^ 17)))

/-- MEMBER_SILENT (R180). -/
def execMemberSilent (dt member : Nat) (s : State) : Host.Outcome State Fault Refusal := .next (s.run dt fun c => c.memberSilent member)

/-- MEMBER_RETURN (R180). -/
def execMemberReturn (dt member : Nat) (s : State) : Host.Outcome State Fault Refusal := .next (s.run dt fun c => c.memberReturn member)

/-- LATENT_ERR (R182): the periodic test of a compound stream. -/
def execLatentErr (dt index : Nat) (s : State) : Host.Outcome State Fault Refusal := .next (s.run dt fun c => c.latentTest index)

/-- LATENT_RESET (R182). -/
def execLatentReset (dt index : Nat) (s : State) : Host.Outcome State Fault Refusal := .next (s.run dt fun c => c.latentReset index)

/-- HOLD_CLR (R185). -/
def execHoldClr (dt : Nat) (req : Requester) (s : State) : Host.Outcome State Fault Refusal :=
  .next (s.run dt fun c => c.command req pFRER 0x148 1 fun c => c.put pFRER F.FRER_HOLD_STATUS_MAX 0)

end Sys2Proof.Machine
end

