-- ==== Sys2Proof/Machine/Lists.lean ====
section
/-! DEFINITION. The Story pole's lists (R140 to R147, R165): gates, admission windows, E pins, and the commit of STORY. -/
namespace Sys2Proof.Machine

open Sys2Proof

/-! ## Descriptors and entries (R140, R164, R166) -/

abbrev fLsKind : TFld := ⟨0, 0, 2⟩
abbrev fLsTarget : TFld := ⟨0, 8, 8⟩
abbrev fLsFailsafe : TFld := ⟨0, 16, 16⟩
abbrev fLsBaseLo : TFld := ⟨1, 0, 32⟩
abbrev fLsBaseHi : TFld := ⟨2, 0, 16⟩
abbrev fLsBaseNs : TFld := ⟨3, 0, 30⟩
abbrev fLsCycle : TFld := ⟨4, 0, 32⟩
abbrev fLsStart : TFld := ⟨5, 0, 14⟩
abbrev fLsCount : TFld := ⟨5, 16, 15⟩
abbrev fLsDeadline : TFld := ⟨6, 0, 20⟩
abbrev fLead : TFld := ⟨0, 0, 21⟩
abbrev fGuard : TFld := ⟨0, 0, 12⟩
abbrev fEnInterval : TFld := ⟨0, 0, 32⟩
abbrev fEnValue : TFld := ⟨1, 0, 16⟩
abbrev fEnOp : TFld := ⟨1, 16, 2⟩

abbrev kGATE : Nat := 1
abbrev kWINDOW : Nat := 2
abbrev kPIN : Nat := 3

abbrev lIDLE : Nat := 0
abbrev lWAIT : Nat := 1
abbrev lRUN : Nat := 2
abbrev lFAIL : Nat := 3

/-- A descriptor read from a bank of table LIST. -/
def ldescOf (g : TFld → Nat) : LDesc :=
  { kind := g fLsKind, target := g fLsTarget, failsafe := g fLsFailsafe
    base := (g fLsBaseLo + 2 ^ 32 * g fLsBaseHi) * 1000000000 + g fLsBaseNs
    cycle := g fLsCycle, start := g fLsStart, count := g fLsCount, deadline := g fLsDeadline }

/-- The first instant base + N × cycle after `now` (R141). -/
def LDesc.next (d : LDesc) (now : Nat) : Nat :=
  if now < d.base then d.base else if d.cycle = 0 then now + 1 else d.base + ((now - d.base) / d.cycle + 1) * d.cycle

def Chip.list (c : Chip) (i : Nat) : ListRt := lookupD {} c.lists i

/-- The descriptor that holds a list's target: the operating one, or the pending one of a list that has not run. -/
def ListRt.holds (l : ListRt) : Option LDesc := match l.oper with | some d => some d | none => l.pend

/-- What drives a list's target: the descriptor that holds it, and since when it runs. -/
def ListRt.view (l : ListRt) : Option (LDesc × Option Nat) := l.holds.map fun d => (d, if l.state = lRUN then some l.operCt else none)

/-- A list replaced at an instant of the monotonic counter; what drove its target up to then is kept while a stamp can still name
that time (R146). -/
def Chip.setListAt (c : Chip) (i : Nat) (x : ListRt) (m : Nat) : Chip :=
  let l := c.list i
  let past := if l.view = x.view then l.past else ⟨m, l.view⟩ :: l.past.filter fun s => decide (c.mono ≤ s.till + 2 ^ 32)
  { c with lists := store {} c.lists i { x with past := past } }

def Chip.setList (c : Chip) (i : Nat) (x : ListRt) : Chip := c.setListAt i x c.mono

/-- What drove a list's target at an instant of the monotonic counter. -/
def ListRt.viewAt (l : ListRt) (m : Nat) : Option (LDesc × Option Nat) :=
  match (l.past.filter fun s => decide (m < s.till)).getLast? with
  | some s => s.view
  | none => l.view

/-- The Story pole runs in this mode (R143, R163, R447). -/
def Chip.storyRuns (c : Chip) : Bool :=
  decide (c.mode = modeBoot ∨ c.mode = modeRun ∨ c.mode = modeLimp ∨ c.mode = modeService)
    || (decide (c.mode = modeQuarantine) && !c.storyHalted)

/-- The interval of entry `k` of a descriptor. -/
def Chip.interval (c : Chip) (d : LDesc) (k : Nat) : Nat := c.tget pSTORYTBL 0 (d.start + k) fEnInterval
/-- The value of entry `k` of a descriptor. -/
def Chip.entryVal (c : Chip) (d : LDesc) (k : Nat) : Nat := c.tget pSTORYTBL 0 (d.start + k) fEnValue

/-- Where a descriptor goes from entry `k`, begun at `at'` in the cycle begun at `cyc`: the instant, the entry, the start of its
cycle (R140: the last value holds to the cycle end, the cycle end cuts a running entry short). -/
def Chip.boundary (c : Chip) (d : LDesc) (k at' cyc : Nat) : Nat × Nat × Nat :=
  let e := at' + c.interval d k
  if k + 1 < d.count ∧ e < cyc + d.cycle then (e, k + 1, cyc) else (cyc + d.cycle, 0, cyc + d.cycle)

/-- The entry that runs `pos` ns after the cycle start. -/
def Chip.entryAtPos (c : Chip) (d : LDesc) : Nat → Nat → Nat → Nat
  | 0, k, _ => k
  | n + 1, k, pos =>
    let i := c.interval d k
    if pos < i then k else Chip.entryAtPos c d n (k + 1) (pos - i)

/-- The value that a descriptor running since `ct` has at an instant. -/
def Chip.valueAt (c : Chip) (d : LDesc) (ct t : Nat) : Nat :=
  c.entryVal d (c.entryAtPos d (d.count - 1) 0 ((t - ct) % max d.cycle 1))

/-! ## E pins (R147, R169) -/

/-- The levels of E pins set, of those in `mask` that are enabled. In SENTRY every enabled pin drives IDLE. -/
def Chip.setPins (c : Chip) (mask levels : Nat) : Chip :=
  let m := mask &&& c.get pEVIO F.EVIO_OUT_CFG_EN
  let now := c.get pEVIO F.EVIO_OUT_LEVEL_L
  if c.mode = modeSentry then c
  else c.put pEVIO F.EVIO_OUT_LEVEL_L ((now - (now &&& m)) + (levels &&& m))

/-- The descriptor that operates after a step: the pending one where there is one. -/
def ListRt.holdsNext (l : ListRt) : Option LDesc := match l.pend with | some d => some d | none => l.oper

/-- The pins that PIN lists name. -/
def Chip.pinsNamed (c : Chip) : Nat :=
  c.lists.foldl (fun m e => match e.2.holds with
    | some d => if d.kind = kPIN then m ||| (d.target % 256) else m
    | none => m) 0

/-- The IDLE levels. -/
def Chip.idleLevels (c : Chip) : Nat := c.get pEVIO F.EVIO_OUT_CFG_IDLE

/-- Pins named before that no PIN list names now: those in the mask of `OUT_MANUAL` take its level (R147). -/
def Chip.unnamePins (c : Chip) (before : Nat) : Chip :=
  let freed := before - (before &&& c.pinsNamed)
  c.setPins (freed &&& c.get pEVIO F.EVIO_OUT_MANUAL_MASK) (c.get pEVIO F.EVIO_OUT_MANUAL_LEVELS)

/-- A write of `OUT_MANUAL` acts on the pins in its mask that no PIN list names (R147). -/
def Chip.manualPins (c : Chip) : Chip :=
  let mask := c.get pEVIO F.EVIO_OUT_MANUAL_MASK
  c.setPins (mask - (mask &&& c.pinsNamed)) (c.get pEVIO F.EVIO_OUT_MANUAL_LEVELS)

/-- The PIN list that names a pin: whether it runs, and its present level there, IDLE while it holds FAILSAFE. -/
def Chip.pinListLevel (c : Chip) (pin : Nat) : Option (Bool × Bool) :=
  c.lists.findSome? fun (e : Nat × ListRt) => match e.2.holds with
    | some d =>
      if d.kind = kPIN ∧ d.target.testBit pin then
        some (decide (e.2.state = lRUN), if e.2.state = lRUN then e.2.value.testBit pin else c.idleLevels.testBit pin)
      else none
    | none => none

/-- The level of pin `p` after an EVIO commit (R169): a pin that became enabled drives its first level, a disabled pin reads 0,
pins of lists that hold FAILSAFE follow IDLE. -/
def Chip.evioLevel (c old : Chip) (p : Nat) : Bool :=
  let was := (old.get pEVIO F.EVIO_OUT_CFG_EN).testBit p
  let before := (old.get pEVIO F.EVIO_OUT_LEVEL_L).testBit p
  if ¬ (c.get pEVIO F.EVIO_OUT_CFG_EN).testBit p then false
  else if c.mode = modeSentry then c.idleLevels.testBit p
  else match c.pinListLevel p with
    | some (running, v) => if was ∧ (running ∨ c.idleLevels.testBit p = (old.idleLevels).testBit p) then before else v
    | none =>
      if was then before
      else if (c.get pEVIO F.EVIO_OUT_MANUAL_MASK).testBit p then (c.get pEVIO F.EVIO_OUT_MANUAL_LEVELS).testBit p
      else c.idleLevels.testBit p

/-- An EVIO commit at T_apply (R169). -/
def Chip.appliedEvio (c old : Chip) : Chip :=
  c.put pEVIO F.EVIO_OUT_LEVEL_L ((List.range 8).foldl (fun v p => if c.evioLevel old p then setBit v p else v) 0)

/-- Every enabled pin drives IDLE: entry to SENTRY (R169). -/
def Chip.idlePins (c : Chip) : Chip := c.put pEVIO F.EVIO_OUT_LEVEL_L (c.idleLevels &&& c.get pEVIO F.EVIO_OUT_CFG_EN)

/-! ## Running (R140 to R143) -/

/-- The CYCLES counter of LIST_STAT and its GATE_DEADLINE_DROP counter. -/
abbrev lsCycles : Nat := 0
abbrev lsDeadlineDrop : Nat := 1

/-- Hold begins at a port (R144): a preemptable frame in transmission is interrupted, where that can be. -/
def Chip.holdPort (c : Chip) (n : Nat) : Chip :=
  match c.txOf n with
  | some t => if c.splits n t then c.interrupt n t else c
  | none => c

/-- The pins that a PIN one-shot has written in this cycle: a list entry leaves them (R147). -/
def Chip.shotPins (c : Chip) : Nat := if c.pinShot.1 = c.cycles then c.pinShot.2 else 0

/-- Entry `k` of a list's operating descriptor begins: its value is applied, its operation sets or releases hold (R140, R144). -/
def Chip.beginEntry (c : Chip) (i k at' cyc : Nat) : Chip :=
  let c := c.perf 0x280 1
  let l := c.list i
  match l.oper with
  | none => c
  | some d =>
    let v := c.entryVal d k
    let op := c.tget pSTORYTBL 0 (d.start + k) fEnOp
    let hold := if d.kind = kGATE then (if op = 1 then true else if op = 2 then false else l.hold) else false
    let c := c.setList i { l with idx := k, entryAt := at', cycleAt := cyc, value := v, hold := hold }
    let c := if k = 0 then c.tcount pSTORY 3 i lsCycles else c
    let c := if d.kind = kGATE ∧ op = 1 ∧ c.mode ≠ modeService then c.holdPort d.target else c
    let pins := d.target % 256
    if d.kind = kPIN then c.setPins (pins - (pins &&& c.shotPins)) v else c

/-- A descriptor starts operating at its change time (R141, R143). -/
def Chip.startList (c : Chip) (i : Nat) (d : LDesc) (ct : Nat) (keepPend : Bool) : Chip :=
  let l := c.list i
  let named := c.pinsNamed
  let c := c.setListAt i { l with state := lRUN, oper := some d, operCt := ct
                                  pend := if keepPend then l.pend else none, pendCt := if keepPend then l.pendCt else 0 } (c.mono - (c.localNs - ct))
  ((c.unnamePins named).beginEntry i 0 ct ct).raise pSTORY E.STORY_LIST_SWAP

/-- The change time of a waiting descriptor is reached (R141, R143). -/
def Chip.listSwap (c : Chip) (i : Nat) : Chip :=
  let l := c.list i
  let now := c.localNs
  if ¬ c.storyRuns ∨ (l.state ≠ lWAIT ∧ l.state ≠ lRUN) then c
  else match l.pend, decide (l.pendCt ≤ now) with
    | some d, true => c.startList i d l.pendCt false
    | _, _ =>
      match l.oper with
      | some d => if l.state = lWAIT ∧ l.operCt ≤ now then c.startList i d l.operCt true else c
      | none => c

/-- An entry or cycle boundary of a running list is reached (R140). -/
def Chip.listEntryStart (c : Chip) (i : Nat) : Chip :=
  let l := c.list i
  match l.oper, decide (l.state = lRUN) with
  | some d, true =>
    let (t, k, cyc) := c.boundary d l.idx l.entryAt l.cycleAt
    if c.storyRuns ∧ t ≤ c.localNs ∧ (l.pend.isNone ∨ t < l.pendCt) then c.beginEntry i k t cyc else c
  | _, _ => c

/-- A list that waits or runs falls back to its FAILSAFE value (R143). -/
def ListRt.failed (l : ListRt) : ListRt := if l.state = lWAIT ∨ l.state = lRUN then { l with state := lFAIL, hold := false } else l

/-- A step is accepted (R143): a list in FAILSAFE waits for the first boundary after it; a pending descriptor operates at once. -/
def ListRt.stepped (l : ListRt) (now : Nat) : ListRt :=
  if l.state = lFAIL then
    match l.holdsNext with
    | some d => { l with state := lWAIT, oper := some d, operCt := d.next now, pend := none, pendCt := 0 }
    | none => l
  else l

/-- Every list falls back to FAILSAFE. -/
def Chip.listsFailsafe (c : Chip) : Chip :=
  let c := c.lists.foldl (fun (c : Chip) (e : Nat × ListRt) => c.setList e.1 e.2.failed) c
  c.setPins c.pinsNamed c.idleLevels

/-- The lists at a step of the time; pins that a list comes to name while it waits drive IDLE. -/
def Chip.listsStep (c : Chip) : Chip :=
  if c.storyRuns then
    let named := c.pinsNamed
    let now := c.localNs
    let c := c.lists.foldl (fun (c : Chip) (e : Nat × ListRt) => c.setList e.1 (e.2.stepped now)) c
    let fresh := c.pinsNamed - (c.pinsNamed &&& named)
    (c.unnamePins named).setPins fresh c.idleLevels
  else c

/-! ## What the lists say -/

/-- The list of a kind that holds a target. -/
def Chip.listOf (c : Chip) (kind target : Nat) : Option (Nat × LDesc) :=
  c.lists.findSome? fun e => match e.2.holds with
    | some d => if d.kind = kind ∧ d.target = target then some (e.1, d) else none
    | none => none

/-- A list holds its FAILSAFE value (R143): waiting, failed, or a GATE list in SERVICE. -/
def Chip.listHeld (c : Chip) (i : Nat) (kind : Nat) : Bool :=
  decide ((c.list i).state ≠ lRUN) || (decide (kind = kGATE) && decide (c.mode = modeService))

/-- The gate states of a port (R144): all open without a GATE list. -/
def Chip.gates (c : Chip) (port : Nat) : Nat :=
  match c.listOf kGATE port with
  | none => 0xFF
  | some (i, d) => if c.listHeld i kGATE then d.failsafe % 256 else (c.list i).value % 256

/-- Hold is asserted for the preemptable classes of a port (R144). -/
def Chip.gateHold (c : Chip) (port : Nat) : Bool :=
  match c.listOf kGATE port with
  | none => false
  | some (i, _) => !c.listHeld i kGATE && (c.list i).hold

/-- From an entry at which a class's gate is open, the instant of its next close under a descriptor, if it comes within the
next `n` boundaries. -/
def Chip.closeWalk (c : Chip) (d : LDesc) (cls : Nat) : Nat → Nat → Nat → Nat → Option Nat
  | 0, _, _, _ => none
  | n + 1, k, at', cyc =>
    let (t, k', cyc') := c.boundary d k at' cyc
    if (c.entryVal d k').testBit cls then Chip.closeWalk c d cls n k' t cyc' else some t

/-- The first instant from `ct` on at which a descriptor that starts at `ct` closes a class's gate. -/
def Chip.closeFrom (c : Chip) (d : LDesc) (cls ct : Nat) : Option Nat :=
  if (c.entryVal d 0).testBit cls then c.closeWalk d cls (d.count + 1) 0 ct ct else some ct

/-- When the open gate of a class next closes (R144): under the operating list up to the CT of a pending descriptor, from then
on under that descriptor; `none` when it stays open. -/
def Chip.nextClose (c : Chip) (port cls : Nat) : Option Nat :=
  match c.listOf kGATE port with
  | none => none
  | some (i, _) =>
    let l := c.list i
    if (l.state ≠ lRUN ∧ l.state ≠ lWAIT) ∨ c.mode = modeService then none
    else
      let byOper := match l.oper with
        | some d => if l.state = lRUN then c.closeWalk d cls (d.count + 1) l.idx l.entryAt l.cycleAt else c.closeFrom d cls l.operCt
        | none => none
      match l.pend with
      | some p =>
        match byOper with
        | some t => if t < l.pendCt then some t else c.closeFrom p cls l.pendCt
        | none => c.closeFrom p cls l.pendCt
      | none => byOper

/-- The full local time in ns of a stamp taken within the last 2^32 ns. -/
def Chip.fullNs (c : Chip) (stamp : Nat) : Nat := c.localNs - ((c.localNs + 2 ^ 32 - stamp % 2 ^ 32) % 2 ^ 32)

/-- Admission window `w` was open at an instant (R146), given on the monotonic counter and as local time: closed without a WINDOW
list for its group. -/
def Chip.windowOpen (c : Chip) (w seen time : Nat) : Bool :=
  match c.lists.findSome? (fun (e : Nat × ListRt) => match e.2.viewAt seen with
    | some (d, run) => if d.kind = kWINDOW ∧ d.target = w / 16 then some (match run with | some ct => c.valueAt d ct time | none => d.failsafe) else none
    | none => none) with
  | some v => v.testBit (w % 16)
  | none => false

/-- The deadline in cycles that the GATE list of a port gives a frame at the head of its queue, with the list's index (R145). -/
def Chip.gateDeadline (c : Chip) (port : Nat) : Option (Nat × Nat) :=
  match c.listOf kGATE port with
  | some (i, d) => if d.deadline = 0 then none else some (i, usCycles d.deadline)
  | none => none

/-! ## Guarded entries (R142) -/

/-- The ranges that operating and pending descriptors name, and those that the staged descriptors of an accepted commit name. -/
def Chip.guardedRanges (c : Chip) : List (Nat × Nat) :=
  let mine := (c.lists.map fun e => e.2.oper.toList ++ e.2.pend.toList).flatten
  let staged := if c.commitState pSTORY = 0 then [] else ((tblIndices c.tblS pSTORY 0).map fun i => ldescOf (c.tgetS pSTORY 0 i)).filter fun d => decide (d.kind ≠ 0)
  (mine ++ staged).map fun d => (d.start, d.count)

/-- The entry is guarded. -/
def Chip.guarded (c : Chip) (e : Nat) : Bool := c.guardedRanges.any fun r => decide (r.1 ≤ e ∧ e < r.1 + r.2)

/-- `GUARDED` (R166). -/
def Chip.guardedCount (c : Chip) : Nat :=
  let rs := c.guardedRanges
  ((List.range 16384).filter fun e => rs.any fun r => decide (r.1 ≤ e ∧ e < r.1 + r.2)).length

/-! ## Commit of STORY (R141, R165) -/

/-- The pins named by PIN lists that do not run. -/
def Chip.pinsWaiting (c : Chip) : Nat :=
  c.lists.foldl (fun m e => match e.2.holds with
    | some d => if d.kind = kPIN ∧ e.2.state ≠ lRUN then m ||| (d.target % 256) else m
    | none => m) 0

/-- What a STORY commit does at T_apply with each descriptor it changes (R141, R143); pins that a waiting list newly names drive
IDLE, the others keep their levels (R147). -/
def Chip.appliedStory (c old : Chip) : Chip :=
  let named := c.pinsNamed
  let waiting := c.pinsWaiting
  let c := (List.range 64).foldl (fun c i =>
    if (List.range 7).any fun w => decide (c.tword pSTORY 0 i w ≠ old.tword pSTORY 0 i w) then
      let d := ldescOf (c.tget pSTORY 0 i)
      let l := c.list i
      if d.kind = 0 then c.setList i {}
      else
        let st := if l.state = lIDLE then (if c.timeValid ∧ c.storyRuns then lWAIT else lFAIL) else l.state
        c.setList i { l with state := st, pend := some d, pendCt := d.next c.localNs }
    else c) c
  (c.unnamePins named).setPins (c.pinsWaiting - (c.pinsWaiting &&& waiting)) c.idleLevels

def rangesMeet (a b : Nat × Nat) : Bool := decide (a.1 < b.1 + b.2 ∧ b.1 < a.1 + a.2)

/-- The checks of R165. -/
def Chip.validateStory (c : Chip) : Nat × Nat :=
  let ds := ((tblIndices c.tblS pSTORY 0).map fun i => (i, ldescOf (c.tgetS pSTORY 0 i))).filter fun x => decide (x.2.kind ≠ 0)
  let run := fun i => ((c.list i).oper.toList ++ (c.list i).pend.toList).map fun d => (d.start, d.count)
  let entries := fun (d : LDesc) => (List.range d.count).map fun k => d.start + k
  let others := fun (i : Nat) =>
    ((c.lists.filter fun e => decide (e.1 ≠ i)).map fun e => run e.1).flatten
      ++ (ds.filter fun x => decide (x.1 ≠ i)).map fun x => (x.2.start, x.2.count)
  let clash := fun (a b : Nat × LDesc) => decide (a.1 < b.1) && decide (a.2.kind = b.2.kind)
    && (if a.2.kind = kPIN then decide (a.2.target &&& b.2.target ≠ 0) else decide (a.2.target = b.2.target))
  firstBad [
    (ds.any fun x => decide (x.2.cycle < 2000 ∨ 4000000000 < x.2.cycle), rsnRange, 1),
    ((tblIndices c.tblS pSTORY 0).any fun i => decide (c.tgetS pSTORY 0 i fLsKind ≠ 0 ∧ 999999999 < c.tgetS pSTORY 0 i fLsBaseNs), rsnRange, 2),
    (ds.any fun x => decide ((x.2.kind = kGATE ∧ 27 < x.2.target) ∨ (x.2.kind = kWINDOW ∧ 3 < x.2.target) ∨ (x.2.kind = kPIN ∧ x.2.target = 0)), rsnRange, 3),
    (ds.any fun a => ds.any fun b => clash a b, rsnInvalid, 4),
    (ds.any fun x => decide (x.2.count = 0 ∨ 16384 < x.2.start + x.2.count), rsnRange, 5),
    (ds.any fun x => (others x.1).any (rangesMeet (x.2.start, x.2.count))
      || (run x.1).any fun r => decide (r ≠ (x.2.start, x.2.count)) && rangesMeet r (x.2.start, x.2.count), rsnInvalid, 5),
    (ds.any fun x => (entries x.2).any fun e =>
      let iv := c.tget pSTORYTBL 0 e fEnInterval
      decide (iv < 8 ∨ iv % 2 = 1 ∨ 2 < c.tget pSTORYTBL 0 e fEnOp), rsnRange, 6),
    (ds.any fun x => decide (x.2.kind = kGATE) && isS x.2.target && (entries x.2).any fun e => decide (c.tget pSTORYTBL 0 e fEnOp ≠ 0), rsnInvalid, 6),
    (ds.any fun x => decide (1000000 < x.2.deadline), rsnRange, 7),
    (decide (c.staged pSTORY F.STORY_STORY_CFG_LATE_TOL = 0 ∨ 10000 < c.staged pSTORY F.STORY_STORY_CFG_LATE_TOL), rsnRange, 8),
    ((tblIndices c.tblS pSTORY 1).any fun i => decide (2000000 < c.tgetS pSTORY 1 i fLead) || (decide (i = 0) && decide (c.tgetS pSTORY 1 0 fLead ≠ 0)), rsnRange, 9)]

/-- An entry of LIST_STAT but for its counters (R164). -/
def Chip.listStatWord (c : Chip) (i word : Nat) : Word :=
  let l := c.list i
  let rng := fun (d : Option LDesc) => match d with | some d => BitVec.ofNat 32 (d.start + 65536 * d.count) | none => 0
  if word = 0 then BitVec.ofNat 32 (l.state + 4 * l.pend.isSome.toNat)
  else if word = 1 then rng l.oper
  else if word = 2 then rng l.pend
  else if word = 3 then BitVec.ofNat 32 ((if l.pend.isSome then l.pendCt else l.operCt) % 2 ^ 32)
  else 0

/-! ## Meanings -/

/-- LIST_ENTRY_START (R140). -/
def execListEntryStart (dt list : Nat) (s : State) : Host.Outcome State Fault Refusal := .next (s.run dt fun c => c.listEntryStart list)

/-- LIST_SWAP (R141). -/
def execListSwap (dt list : Nat) (s : State) : Host.Outcome State Fault Refusal := .next (s.run dt fun c => c.listSwap list)

/-- OUT_MANUAL (R147): a write of the register. -/
def execOutManual (dt : Nat) (req : Requester) (mask levels : Nat) (s : State) : Host.Outcome State Fault Refusal :=
  let v : Word := BitVec.ofNat 32 (mask % 256 + 256 * (levels % 256))
  .next (s.run dt fun c => c.posted req pEVIO 0x148 v fun c =>
    match c.writePlain req pEVIO 0x148 v with
    | (c, 0) => (c.manualPins, 0)
    | r => r)

end Sys2Proof.Machine
end

