-- ==== Sys2Proof/Machine/CommitBase.lean ====
section
/-! DEFINITION. The record of a commit request in a page's header and in SYS (R42 to R50): accepted, rejected, bound to a Story
pole action. -/
namespace Sys2Proof.Machine

open Sys2Proof

/-- `COMMIT_STATUS.STATE` and `GRP_STATUS.STATE` codes. -/
abbrev csIDLE : Nat := 0
abbrev csVALIDATING : Nat := 1
abbrev csWAIT : Nat := 2
abbrev csARMED : Nat := 3
abbrev csGROUP : Nat := 4

def Chip.commitRt (c : Chip) (p : Page) : CommitRt := lookupD {} c.commits (pageIdx p)

def Chip.setCommitRt (c : Chip) (p : Page) (x : CommitRt) : Chip := { c with commits := store {} c.commits (pageIdx p) x }

/-- A request is accepted (R42): `PENDING_GEN` advances, REASON reads NONE, the state is entered; LATE still speaks of the latest
AT_TIME commit (R36). -/
def Chip.acceptCommit (c : Chip) (p : Page) (st : Nat) : Chip :=
  let c := c.put p F.COMMIT_STATUS_PENDING_GEN (c.get p F.COMMIT_STATUS_PENDING_GEN + 1)
  let c := (c.put p F.COMMIT_STATUS_REASON rsnNone).put p F.COMMIT_STATUS_DETAIL 0
  c.put p F.COMMIT_STATUS_STATE st

/-- A request is rejected (R43): IDLE, REASON, DETAIL, COMMIT_REJECT. A page's own ABORT raises that event too, as R50 has it for a
group's; R44 names none (DESIGN CHOICE, log entry 118). -/
def Chip.rejectPage (c : Chip) (p : Page) (reason detail : Nat) : Chip :=
  let c := (c.put p F.COMMIT_STATUS_STATE csIDLE).put p F.COMMIT_STATUS_REASON reason
  ((c.put p F.COMMIT_STATUS_DETAIL detail).setCommitRt p {}).raise p E.COMMIT_REJECT

/-- `GRP_STATUS.STATE`. -/
def Chip.groupState (c : Chip) : Nat := c.get pSYS F.SYS_GRP_STATUS_STATE

/-- The group request ends (R48, R49): its result in `GRP_STATUS`. -/
def Chip.endGroup (c : Chip) (reason : Nat) (failPage : Option Nat) : Chip :=
  let c := (c.put pSYS F.SYS_GRP_STATUS_STATE csIDLE).put pSYS F.SYS_GRP_STATUS_REASON reason
  let c := (c.put pSYS F.SYS_GRP_STATUS_FAIL_VALID failPage.isSome.toNat).put pSYS F.SYS_GRP_STATUS_FAIL_PAGE (failPage.getD 0)
  { c with group := {} }

/-- Every member of the group is rejected for one reason, as when its action is past (R47, R49). -/
def Chip.rejectMembers (c : Chip) (reason : Nat) : Chip :=
  c.group.members.foldl (fun c i => match pageOfIdx i with | some p => c.rejectPage p reason 0 | none => c) c

/-- One member rejects with its reason and detail, the others with GROUP_PEER (R48). -/
def Chip.rejectGroup (c : Chip) (idx reason detail : Nat) : Chip :=
  let c := c.group.members.foldl (fun c i => match pageOfIdx i with
    | some p => if i = idx then c.rejectPage p reason detail else c.rejectPage p rsnGroupPeer 0
    | none => c) c
  c.endGroup reason (some idx)

/-- The group's AT_TIME request names a Story pole action and is in state `st`. -/
def Chip.groupNames (c : Chip) (h st : Nat) : Bool := decide (c.groupState = st) && c.group.atTime && decide (c.group.handle = h)

/-- The pages whose own AT_TIME request names a Story pole action and is in state `st`: ARMED, they are bound to it. -/
def Chip.pagesNaming (c : Chip) (h st : Nat) : List Page :=
  (c.commits.filter fun (e : Nat × CommitRt) => e.2.atTime && decide (e.2.handle = h)).filterMap fun e =>
    match pageOfIdx e.1 with | some p => if c.commitState p = st then some p else none | none => none

/-- The requests in state `st` that name an action are rejected, the group's too. -/
def Chip.rejectNaming (c : Chip) (h st reason : Nat) : Chip :=
  let c := (c.pagesNaming h st).foldl (fun c p => c.rejectPage p reason 0) c
  if c.groupNames h st then (c.rejectMembers reason).endGroup reason c.group.members.head? else c

/-- Every request that names an action is rejected, being validated or bound to it (R47, R151). -/
def Chip.rejectBound (c : Chip) (h reason : Nat) : Chip := (c.rejectNaming h csVALIDATING reason).rejectNaming h csARMED reason

/-- ABORT of a page's own request (R44), or its soft reset (R37): a member of a group takes its group with it. -/
def Chip.abortPage (c : Chip) (p : Page) : Chip :=
  let st := c.commitState p
  if st = csIDLE then c
  else if st = csGROUP then c.rejectGroup (pageIdx p) rsnAborted 0
  else c.rejectPage p rsnAborted 0

end Sys2Proof.Machine
end

