-- ==== Sys2Proof/Machine/Pins.lean ====
section
/-! DEFINITION. Pulse inputs, pulses on E pins, I pins and their log (R148, R158, R160, R168, R169). -/
namespace Sys2Proof.Machine

open Sys2Proof

/-! ## Pulse inputs (R158, R168) -/

/-- A field of the register block of pulse input `p` (R168). -/
def pulseFld (f : Fld) (p : Nat) : Fld := { f with off := f.off + 0x20 * p }

def Chip.pulse (c : Chip) (p : Nat) : PulseRt := lookupD {} c.pulses p
def Chip.setPulse (c : Chip) (p : Nat) (x : PulseRt) : Chip := { c with pulses := store {} c.pulses p x }

/-- The counter key of COUNT of a pulse input: it is read through PULSE's snapshot. -/
def pulseKey (p : Nat) : Nat := cntKey pPULSE (16 + p)

/-- N of R159. -/
def Chip.pulseCount (c : Chip) (p : Nat) : Nat := (c.cntAt (pulseKey p)).toNat

/-- The input counts. -/
def Chip.pulseOn (c : Chip) (p : Nat) : Bool := decide (p < 4) && c.ready pPULSE && c.is pPULSE (pulseFld F.PULSE_PCFG_p_EN p)

/-- The stamp of an instant `ago` cycles back. -/
def Chip.stampAgo (c : Chip) (ago : Nat) : Nat := (c.localTime - ago * c.incr) / 2 ^ 40 % 2 ^ 32

/-- A counted edge whose new level began `ago` cycles back (R158). PERIOD shows T_p; a period of 2^32 ns or more fits no
register and reads as a free value (log entry 4). -/
def Chip.countEdge (c : Chip) (p ago : Nat) : Chip :=
  let x := c.pulse p
  let m := c.mono - 2 * ago
  let tp := match x.mLast with | some t => m - t | none => 0
  let c := c.setPulse p { x with
    mLast := some m, tp := tp, edges := true, moving := x.edges, stop := c.get pPULSE (pulseFld F.PULSE_PCFG_p_STOP_MS p) }
  let c := c.setCntAt (pulseKey p) (c.cntAt (pulseKey p) + 1)
  let (shown, c) := if tp < 2 ^ 32 then (tp, c) else c.takeFree
  let c := (c.setReg pPULSE (0x14C + 0x20 * p) (BitVec.ofNat 32 shown)).setReg pPULSE (0x150 + 0x20 * p) (BitVec.ofNat 32 (c.stampAgo ago))
  c.put pPULSE (pulseFld F.PULSE_PSTATUS_p_MOVING p) x.edges.toNat

/-- FILTER in cycles for an edge whose new level began at a cycle: a change of it acts from the next edge (R168). -/
def Chip.pulseFilter (c : Chip) (p began : Nat) : Nat :=
  let x := c.pulse p
  50 * (if began < x.filterAt then x.oldFilter else c.get pPULSE (pulseFld F.PULSE_PCFG_p_FILTER p))

/-- A change of level of a pulse input that has held for `held` cycles, or has ended after them (R158). An input that does not count
follows its level too, so that its first counted edge is one. -/
def Chip.pulseEdge (c : Chip) (p : Nat) (level : Bool) (held : Nat) : Chip :=
  let x := c.pulse p
  let short := decide (held < c.pulseFilter p (c.cycles - held))
  if level = x.level ∨ 4 ≤ p then c
  else if ¬ c.pulseOn p then (if short then c else c.setPulse p { x with level := level })
  else if short then c.count pPULSE p
  else
    let c := c.setPulse p { x with level := level }
    if level = !c.is pPULSE (pulseFld F.PULSE_PCFG_p_EDGE p) then c.countEdge p held else c

/-- STOP_MS passes with no edge (R158), as the last counted edge found it (R168). -/
def Chip.pulseStop (c : Chip) (p : Nat) : Chip :=
  let x := c.pulse p
  match x.mLast with
  | some t =>
    if x.edges ∧ t + x.stop * 1000000 ≤ c.mono then
      (c.setPulse p { x with edges := false, moving := false }).put pPULSE (pulseFld F.PULSE_PSTATUS_p_MOVING p) 0
    else c
  | none => c

/-! ## One-shot entries as the inputs see them (R148, R166) -/

abbrev fOsLo : TFld := ⟨0, 0, 32⟩
abbrev fOsHi : TFld := ⟨1, 0, 16⟩
abbrev fOsNs : TFld := ⟨2, 0, 30⟩
abbrev fOsFrac : TFld := ⟨2, 0, 16⟩
abbrev fOsKind : TFld := ⟨3, 0, 3⟩
abbrev fOsTrigger : TFld := ⟨3, 4, 1⟩
abbrev fOsPulse : TFld := ⟨3, 5, 2⟩
abbrev fOsLate : TFld := ⟨3, 7, 1⟩
abbrev fOsLeadEn : TFld := ⟨3, 8, 1⟩
abbrev fOsLeadIdx : TFld := ⟨3, 16, 8⟩
abbrev fOsTarget : TFld := ⟨4, 0, 32⟩
abbrev fOsArg : TFld := ⟨5, 0, 32⟩
abbrev fOsState : TFld := ⟨6, 0, 3⟩
abbrev fOsEpoch : TFld := ⟨6, 8, 8⟩
abbrev fOsStamp : TFld := ⟨7, 0, 32⟩

/-- States of a one-shot entry (R151). -/
abbrev oFREE : Nat := 0
abbrev oARMED : Nat := 1
abbrev oDONE : Nat := 2
abbrev oDONELATE : Nat := 3
abbrev oPAST : Nat := 4
abbrev oTIMEINVALID : Nat := 5

/-- The indices of the ARMED actions, in index order. -/
def Chip.armed (c : Chip) : List Nat := (c.ones.filter fun (e : Nat × Option OneRt) => e.2.isSome).map fun e => e.1

def Chip.one (c : Chip) (i : Nat) (f : TFld) : Nat := c.tget pSTORYTBL 1 i f

/-- The ARMED distance actions on a pulse input. -/
def Chip.armedOn (c : Chip) (p : Nat) : List Nat := c.armed.filter fun i => decide (c.one i fOsTrigger = 1 ∧ c.one i fOsPulse = p)

/-- A write of PCMD (R160, R168). -/
def Chip.pulsePreset (c : Chip) (mask : Nat) : Chip :=
  (bitList mask 4).foldl (fun c p =>
    if (c.armedOn p).isEmpty then
      let v := w48Of (c.reg pPULSE (0x158 + 0x20 * p)) (c.reg pPULSE (0x15C + 0x20 * p))
      (c.setCntAt (pulseKey p) (BitVec.ofNat 48 v)).put pPULSE (pulseFld F.PULSE_PSTATUS_p_PRESET p) 1
    else (c.put pPULSE (pulseFld F.PULSE_PSTATUS_p_PRESET p) 2).raise pPULSE E.PULSE_PRESET_REFUSED) c

/-- The checks of a PULSE commit (R168). -/
def Chip.validatePulse (c : Chip) : Nat × Nat :=
  let ps := List.range 4
  firstBad [
    (ps.any fun p => decide (c.staged pPULSE (pulseFld F.PULSE_PCFG_p_STOP_MS p) = 0), rsnRange, 1),
    (ps.any fun p => !(c.armedOn p).isEmpty && (decide (c.staged pPULSE (pulseFld F.PULSE_PCFG_p_EN p) = 0)
      || decide (c.staged pPULSE (pulseFld F.PULSE_PCFG_p_EDGE p) ≠ c.get pPULSE (pulseFld F.PULSE_PCFG_p_EDGE p))), rsnInvalid, 2)]

/-- At T_apply of a PULSE commit: a changed FILTER acts from the next edge (R168). -/
def Chip.appliedPulse (c old : Chip) : Chip :=
  (List.range 4).foldl (fun c p =>
    let f := pulseFld F.PULSE_PCFG_p_FILTER p
    if c.get pPULSE f = old.get pPULSE f then c
    else c.setPulse p { c.pulse p with oldFilter := old.get pPULSE f, filterAt := c.cycles }) c

/-! ## Pulses on E pins (R148) -/

/-- A PIN action: its pins take ARG's levels, for a width or until the next write. -/
def Chip.pinAction (c : Chip) (mask arg : Nat) : Chip :=
  let en := mask % 256 &&& c.get pEVIO F.EVIO_OUT_CFG_EN
  let before := c.get pEVIO F.EVIO_OUT_LEVEL_L
  let width := arg / 65536 % 65536
  let c := { c.setPins en (arg % 256) with pinShot := (c.cycles, en ||| c.shotPins) }
  if width = 0 then c else { c with pinPulses := c.pinPulses ++ [⟨en, before, c.cycles + usCycles width⟩] }

/-- The pulses whose width has passed end (R148), in the order in which they began. -/
def Chip.pinPulseEnd (c : Chip) : Chip :=
  let now := c.cycles
  let ended := c.pinPulses.filter fun k => decide (k.due ≤ now)
  ended.foldl (fun c k => c.setPins k.mask k.levels) { c with pinPulses := c.pinPulses.filter fun k => decide (now < k.due) }

/-! ## I pins (R169) -/

/-- An edge of an I pin whose new level has held for `held` cycles. -/
def Chip.inputEdge (c : Chip) (pin : Nat) (rising : Bool) (held : Nat) : Chip :=
  let sel := if rising then c.get pEVIO F.EVIO_IN_CFG_RISE else c.get pEVIO F.EVIO_IN_CFG_FALL
  if pin < 8 ∧ c.ready pEVIO ∧ (c.get pEVIO F.EVIO_IN_CFG_EN).testBit pin ∧ sel.testBit pin ∧ 5 * c.get pEVIO F.EVIO_IN_FILTER_F ≤ held then
    if c.ilog.length < 64 then
      let e : IlogEntry := ⟨c.stampAgo held, pin, rising, c.get pTIME F.TIME_TIME_STATUS_EPOCH, c.ilogSeq⟩
      { c with ilog := c.ilog ++ [e], ilogSeq := (c.ilogSeq + 1) % 65536 }.raise pEVIO E.EVIO_ILOG
    else (c.count pEVIO 0).raise pEVIO E.EVIO_ILOG_LOST
  else c

/-- A write of `ILOG_ACK` (R264). -/
def Chip.ilogAck (c : Chip) (seq : Nat) : Chip :=
  match c.ilog with
  | e :: l => if e.seq = seq % 65536 then { c with ilog := l } else c
  | [] => c

/-! ## Meanings -/

/-- PULSE_EDGE (R158). -/
def execPulseEdge (dt input : Nat) (level : Bool) (held : Nat) (s : State) : Host.Outcome State Fault Refusal :=
  .next (s.run dt fun c => c.pulseEdge input level held)

/-- PULSE_STOP (R158). -/
def execPulseStop (dt input : Nat) (s : State) : Host.Outcome State Fault Refusal := .next (s.run dt fun c => c.pulseStop input)

/-- PULSE_PRESET (R160): a write of PCMD. -/
def execPulsePreset (dt : Nat) (req : Requester) (mask : Nat) (s : State) : Host.Outcome State Fault Refusal :=
  .next (s.run dt fun c => c.command req pPULSE 0x1C0 (BitVec.ofNat 32 mask) fun c => c.pulsePreset mask)

/-- PIN_PULSE_END (R148). -/
def execPinPulseEnd (dt : Nat) (s : State) : Host.Outcome State Fault Refusal := .next (s.run dt fun c => c.pinPulseEnd)

/-- INPUT_EDGE (R169). -/
def execInputEdge (dt pin : Nat) (rising : Bool) (held : Nat) (s : State) : Host.Outcome State Fault Refusal :=
  .next (s.run dt fun c => c.inputEdge pin rising held)

/-- ILOG_ACK (R264). -/
def execIlogAck (dt : Nat) (req : Requester) (seq : Nat) (s : State) : Host.Outcome State Fault Refusal :=
  .next (s.run dt fun c => c.command req pEVIO 0x168 (BitVec.ofNat 32 seq) fun c => c.ilogAck seq)

end Sys2Proof.Machine
end

