-- ==== Sys2Proof/Machine/Cinch.lean ====
section
/-! DEFINITION. Cinch (R161 to R163, R167): watches, safe frames, mass emission. -/
namespace Sys2Proof.Machine

open Sys2Proof

/-! ## Table fields (R167) -/

abbrev fWtHandle : TFld := ⟨0, 0, 12⟩
abbrev fWtStart : TFld := ⟨0, 12, 1⟩
abbrev fWtRearm : TFld := ⟨0, 13, 1⟩
abbrev fWtArm : TFld := ⟨0, 16, 1⟩
abbrev fWtDeadline : TFld := ⟨1, 0, 22⟩
abbrev fWtFirst : TFld := ⟨2, 0, 11⟩
abbrev fWtCount : TFld := ⟨2, 16, 3⟩
abbrev fWtRepeat : TFld := ⟨3, 0, 16⟩
abbrev fFrMedium : TFld := ⟨0, 0, 2⟩
abbrev fFrPort : TFld := ⟨0, 8, 6⟩
abbrev fFrClass : TFld := ⟨0, 16, 3⟩
abbrev fFrLen : TFld := ⟨1, 0, 8⟩
abbrev fFrId : TFld := ⟨2, 0, 29⟩
abbrev fFrIde : TFld := ⟨2, 29, 1⟩
abbrev fFrFdf : TFld := ⟨2, 30, 1⟩
abbrev fFrBrs : TFld := ⟨2, 31, 1⟩

abbrev wDISARMED : Nat := 0
abbrev wFIRST : Nat := 1
abbrev wWATCHING : Nat := 2
abbrev wTRIPPED : Nat := 3

def Chip.watch (c : Chip) (i : Nat) : WatchRt := lookupD {} c.watches i
def Chip.setWatch (c : Chip) (i : Nat) (x : WatchRt) : Chip := { c with watches := store {} c.watches i x }
def Chip.wt (c : Chip) (i : Nat) (f : TFld) : Nat := c.tget pCINCH 0 i f
def Chip.fr (c : Chip) (slot : Nat) (f : TFld) : Nat := c.tget pCINCH 1 slot f

/-- The first `n` bytes of a stored frame: bytes 0 to 127 in parts 1 to 4. -/
def Chip.slotBytes (c : Chip) (slot n : Nat) : List Byte :=
  ((List.range 32).map fun w => leBytes 4 (c.tword pCINCH 1 slot (8 + w)).toNat).flatten.take n

/-- The CAN message of a slot. -/
def Chip.slotMsg (c : Chip) (slot : Nat) : Msg :=
  { kind := .can, id := c.fr slot fFrId, ide := decide (c.fr slot fFrIde = 1), fdf := decide (c.fr slot fFrFdf = 1)
    brs := decide (c.fr slot fFrBrs = 1), data := c.slotBytes slot (c.fr slot fFrLen) }

/-! ## CAN channels as Cinch and the queues see them (R232, R245) -/

def Chip.canState (c : Chip) (n : Nat) : Nat := c.get (pCAN n) F.CAN_CAN_STATUS_STATE

abbrev caOFF : Nat := 0
abbrev caINTEGRATING : Nat := 1
abbrev caACTIVE : Nat := 2
abbrev caPASSIVE : Nat := 3
abbrev caBUSOFF : Nat := 4
abbrev caRECOVERING : Nat := 5
abbrev caCLKSAFE : Nat := 6

/-- A channel takes copies: it is neither off, in bus-off or recovery, without its clock, nor listening only (R232). -/
def Chip.canTakes (c : Chip) (n : Nat) : Bool :=
  decide (c.canState n = caINTEGRATING ∨ c.canState n = caACTIVE ∨ c.canState n = caPASSIVE)
    && !c.is (pCAN n) F.CAN_CAN_CFG_LISTEN_ONLY

/-! ## Emission (R162) -/

/-- A frame's first byte has its group bit set. -/
def isMulticast (bytes : List Byte) : Bool := bitOf (byteAt bytes 0) 0

/-- The safe frame of a slot for an entry, where its transmitter takes it: the link is up, the channel takes copies. -/
def Chip.handedFrame (c : Chip) (entry slot : Nat) : Option SafeFrame :=
  let port := c.fr slot fFrPort
  match c.fr slot fFrMedium with
  | 1 =>
    if c.linkUp port then
      some { entry := entry, port := port, cls := c.fr slot fFrClass, bytes := c.slotBytes slot (c.fr slot fFrLen), msg := none }
    else none
  | 2 => if c.canTakes (port - 32) then some { entry := entry, port := port, cls := 0, bytes := [], msg := some (c.slotMsg slot) } else none
  | _ => none

/-- One safe frame handed to its transmitter: on a link that is down it is counted under R63, on a channel in bus-off as
SAFE_DROP; an empty slot sends nothing. -/
def Chip.handSafe (c : Chip) (entry slot : Nat) : Chip :=
  let port := c.fr slot fFrPort
  match c.handedFrame entry slot with
  | some f => { c with safeFrames := c.safeFrames ++ [f] }
  | none =>
    match c.fr slot fFrMedium with
    | 1 => c.portCount port (if isMulticast (c.slotBytes slot (c.fr slot fFrLen)) then K.PORT_MC_COPY_DROP else K.PORT_LINK_DOWN_DROP)
    | 2 => c.count pCINCH K.CINCH_SAFE_DROP
    | _ => c

/-- The safe frames of an entry that their transmitters take, in slot order. -/
def Chip.handedFrames (c : Chip) (i : Nat) : List SafeFrame :=
  (List.range (c.wt i fWtCount)).filterMap fun k => c.handedFrame i (c.wt i fWtFirst + k)

/-- The safe frames of an entry handed over, in slot order. -/
def Chip.emitSafe (c : Chip) (i : Nat) : Chip :=
  (List.range (c.wt i fWtCount)).foldl (fun c k => c.handSafe i (c.wt i fWtFirst + k)) c

/-- Frames of an entry still wait for their transmitter. -/
def Chip.safeWaiting (c : Chip) (i : Nat) : Bool := c.safeFrames.any fun (f : SafeFrame) => decide (f.entry = i)

/-! ## Watches (R161) -/

def Chip.deadlineNs (c : Chip) (i : Nat) : Nat := c.wt i fWtDeadline * 1000

/-- Cinch arms watches: not once the emission on entry to QUARANTINE is complete. -/
def Chip.cinchArms (c : Chip) : Bool := c.live pCINCH && !c.storyHalted

/-- A watch starts afresh: WAIT_FIRST with START, else WATCHING from now. -/
def Chip.startWatch (c : Chip) (i : Nat) : Chip :=
  if c.wt i fWtStart = 1 then c.setWatch i { state := wFIRST }
  else c.setWatch i { state := wWATCHING, deadline := c.mono + c.deadlineNs i }

/-- An entry disarmed; ARM reads 0. -/
def Chip.disarmWatch (c : Chip) (i : Nat) : Chip := (c.setWatch i {}).tput pCINCH 0 i fWtArm 0

/-- A CINCH one-shot action (R148, R161): arm, or disarm. -/
def Chip.watchAction (c : Chip) (i : Nat) (arm : Bool) : Chip :=
  if ¬ arm then c.disarmWatch i
  else if ¬ c.cinchArms then c
  else if (c.watch i).state = wFIRST ∨ (c.watch i).state = wWATCHING then c
  else (c.startWatch i).tput pCINCH 0 i fWtArm 1

/-- After a WRITE of an entry (R161). -/
def Chip.watchWritten (c : Chip) (i : Nat) : Chip :=
  if c.wt i fWtArm = 0 then c.setWatch i {} else if c.cinchArms then c.startWatch i else c.disarmWatch i

/-- Every watch disarmed (R161). -/
def Chip.disarmAll (c : Chip) : Chip := (tblIndices c.tblA pCINCH 0).foldl Chip.disarmWatch c

/-- A frame or message with a handle ends good (R161); `seen` is the monotonic counter at the instant that its stamp names. -/
def Chip.cinchArrival (c : Chip) (handle : Option Nat) (seen : Nat) : Chip :=
  match handle with
  | none => c
  | some h =>
    if ¬ c.ready pCINCH then c else
    let c := if c.watches.any fun (e : Nat × WatchRt) => decide (e.2.state ≠ wDISARMED ∧ c.wt e.1 fWtHandle = h) then c.perf 0x282 1 else c
    c.watches.foldl (fun c (e : Nat × WatchRt) =>
      if c.wt e.1 fWtHandle ≠ h then c
      else
        let next : WatchRt := { state := wWATCHING, deadline := seen + c.deadlineNs e.1 }
        if e.2.state = wFIRST ∨ e.2.state = wWATCHING ∨ (e.2.state = wTRIPPED ∧ c.wt e.1 fWtRearm = 1) then c.setWatch e.1 next else c) c

/-- A WATCHING entry's deadline has passed at a tick of the 1 us grid (R161, R162). -/
def Chip.cinchDeadline (c : Chip) (i : Nat) : Chip :=
  let w := c.watch i
  if c.ready pCINCH ∧ w.state = wWATCHING ∧ w.deadline ≤ c.mono / 1000 * 1000 then
    let c := c.setWatch i { w with state := wTRIPPED, repeatAt := c.mono + c.wt i fWtRepeat * 1000000 }
    (((c.count pCINCH K.CINCH_TRIPS).tcount pCINCH 0 i 0).raise pCINCH E.CINCH_TRIP).emitSafe i
  else c

/-- A repeat falls due (R161): skipped while frames of the entry still wait. -/
def Chip.cinchRepeat (c : Chip) (i : Nat) : Chip :=
  let w := c.watch i
  let period := c.wt i fWtRepeat * 1000000
  if c.ready pCINCH ∧ w.state = wTRIPPED ∧ period ≠ 0 ∧ w.repeatAt ≤ c.mono then
    let wait := c.safeWaiting i
    let c := c.setWatch i { w with repeatAt := w.repeatAt + period }
    if wait then c else c.emitSafe i
  else c

/-! ## Mass emission (R163) -/

/-- The entries whose safe frames a mass emission hands over: armed, and none of their frames waits. -/
def Chip.massEntries (c : Chip) : List (Nat × WatchRt) :=
  c.watches.filter fun (e : Nat × WatchRt) => decide (e.2.state ≠ wDISARMED) && !c.safeWaiting e.1

/-- A trigger of R163; a further one during an emission adds nothing. -/
def Chip.massEmit (c : Chip) : Chip :=
  if c.is pCINCH F.CINCH_CINCH_STATUS_MASS_BUSY then c
  else
    let c := ((c.put pCINCH F.CINCH_CINCH_STATUS_MASS_BUSY 1).count pCINCH K.CINCH_MASS_EMITS).raise pCINCH E.CINCH_MASS_EMIT
    if ¬ c.enabled pCINCH then c else
    c.massEntries.foldl (fun c e => c.emitSafe e.1) c

/-- TRIPPED of CINCH_STATUS. -/
def Chip.trippedCount (c : Chip) : Nat := (c.watches.filter fun (e : Nat × WatchRt) => decide (e.2.state = wTRIPPED)).length

/-- The check of a CINCH commit (R167). -/
def Chip.validateCinch (c : Chip) : Nat × Nat := firstBad [(decide (c.staged pCINCH F.CINCH_CINCH_CFG_PF_FILTER = 0), rsnRange, 1)]

/-- The limits of a WATCH entry as the buffer holds it (R167). -/
def watchOk (w : Nat → Word) : Bool :=
  let dl := bitsAt (w 1) 0 22
  let n := bitsAt (w 2) 16 3
  decide (10 ≤ dl ∧ dl ≤ 4000000 ∧ n ≤ 4 ∧ bitsAt (w 2) 0 11 + n ≤ 2048)

/-- The limits of part 0 of a FRAME slot (R167). -/
def slotOk (w : Nat → Word) : Bool :=
  let port := bitsAt (w 0) 8 6
  let len := bitsAt (w 1) 0 8
  match bitsAt (w 0) 0 2 with
  | 0 => true
  | 1 => decide (port < 28 ∧ 60 ≤ len ∧ len ≤ 128)
  | 2 => decide (32 ≤ port ∧ port < 48 ∧ len ≤ (if bitsAt (w 2) 30 1 = 1 then 64 else 8))
  | _ => false

/-! ## Meanings -/

/-- CINCH_DEADLINE (R161). -/
def execCinchDeadline (dt entry : Nat) (s : State) : Host.Outcome State Fault Refusal := .next (s.run dt fun c => c.cinchDeadline entry)

/-- CINCH_REPEAT (R161). -/
def execCinchRepeat (dt entry : Nat) (s : State) : Host.Outcome State Fault Refusal := .next (s.run dt fun c => c.cinchRepeat entry)

end Sys2Proof.Machine
end

