-- ==== Sys2Proof/Machine/Release.lean ====
section
/-! DEFINITION. Timed release (R153 to R157) and the release log. -/
namespace Sys2Proof.Machine

open Sys2Proof

/-- A 64-bit count of nanoseconds read against local time (R153): the instant nearest to now that it names modulo 2^64. -/
def Chip.effect (c : Chip) (e : Nat) : Int := (c.localNs : Int) + signedOf ((e + 2 ^ 64 - c.localNs % 2 ^ 64) % 2 ^ 64) 64

/-- LEAD[n] in ns, of the bank in force (R152). -/
def Chip.leadNs (c : Chip) (n : Nat) : Nat := c.tget pSTORY 1 n fLead * 1000

/-- LATE_TOL in ns (R150). -/
def Chip.lateTol (c : Chip) : Nat := c.get pSTORY F.STORY_STORY_CFG_LATE_TOL * 1000

/-- The requests waiting for a target. -/
def Chip.relsOf (c : Chip) (t : Nat) : List RelReq := c.rels.filter fun (q : RelReq) => decide (q.target = t)

/-- What each release queue holds (R154). -/
def relCapacity (t : Nat) : Nat := if t < 32 then 16 else if t < 48 then 32 else 8

/-- The index of a target in RELEASE_CFG (R164). -/
def relCfgIndex (t : Nat) : Nat := if t < 32 then t + 8 else t - 32

/-- What a queued frame takes of the message RAM (R245). -/
def ramBytes (m : Msg) : Nat := (32 + m.data.length + 63) / 64 * 64

/-- A legacy channel's share of the message RAM in bytes (R245). -/
def Chip.ramShare (c : Chip) (t : Nat) : Nat :=
  if t < 48 then c.get (pCAN (t - 32)) F.CAN_TXQ_KIB_K * 1024 else if t < 56 then 1024 else 2048

def Chip.canRt (c : Chip) (n : Nat) : CanRt := lookupD {} c.cans n
def Chip.setCan (c : Chip) (n : Nat) (x : CanRt) : Chip := { c with cans := store {} c.cans n x }
def Chip.linRt (c : Chip) (n : Nat) : LinRt := lookupD {} c.lins n
def Chip.setLin (c : Chip) (n : Nat) (x : LinRt) : Chip := { c with lins := store {} c.lins n x }
def Chip.uartRt (c : Chip) (n : Nat) : UartRt := lookupD {} c.uarts n
def Chip.setUart (c : Chip) (n : Nat) (x : UartRt) : Chip := { c with uarts := store {} c.uarts n x }

/-- What of the message RAM a channel's queued frames and release requests take. -/
def Chip.ramUsed (c : Chip) (t : Nat) : Nat :=
  let q := if t < 48 then (c.canRt (t - 32)).queue else if t < 56 then [] else (c.uartRt (t - 56)).queue
  (q.map fun (m : TxMsg) => ramBytes m.msg).sum
    + ((c.relsOf t).map fun (r : RelReq) => match r.msg with | some m => ramBytes m.msg | none => 0).sum

/-- The share has room for a message. -/
def Chip.ramRoom (c : Chip) (t : Nat) (m : Msg) : Bool := decide (c.ramUsed t + ramBytes m ≤ c.ramShare t)

/-- A request joins its queue: in order of r, then of arrival (R154). -/
def insertRel (q : RelReq) : List RelReq → List RelReq
  | [] => [q]
  | a :: l => if q.r < a.r then q :: a :: l else a :: insertRel q l

/-- The channel or port takes no release requests: the time is INVALID, or QUARANTINE has ended them (R157). -/
def Chip.noRelease (c : Chip) : Bool := !c.timeValid || c.storyHalted

/-- A release request arrives at its queue (R154, R157); it answers whether the request waits there. -/
def Chip.release (c : Chip) (q : RelReq) (execLate : Bool) : Chip × Bool :=
  let now : Int := c.localNs
  let room : Bool := match q.msg with | some m => c.ramRoom q.target m.msg | none => true
  if c.noRelease ∧ ¬ q.notime then (c.count pSTORY K.STORY_RELEASE_INVALID, false)
  else if now + 4000000000 < q.r then (c.count pSTORY K.STORY_RELEASE_FAR, false)
  else if relCapacity q.target ≤ (c.relsOf q.target).length ∨ ¬ room then (c.count pSTORY K.STORY_RELEASE_FULL, false)
  else if now ≤ q.r then ({ c with rels := insertRel q c.rels }.perf 0x244 1, true)
  else if now - q.r ≤ c.lateTol ∨ execLate then
    (({ c with rels := insertRel { q with late := true } c.rels }.perf 0x244 1).count pSTORY K.STORY_RELEASE_LATE, true)
  else ((c.count pSTORY K.STORY_RELEASE_PAST).raise pSTORY E.STORY_RELEASE_PAST, false)

/-- Every waiting request is discarded (R157). -/
def Chip.releasesInvalid (c : Chip) : Chip := { c.addCnt pSTORY K.STORY_RELEASE_INVALID c.rels.length with rels := [] }

/-- The request of a target whose instant has come (R154). -/
def Chip.relDue (c : Chip) (t : Nat) : Option RelReq :=
  (c.relsOf t).find? fun (q : RelReq) => decide (q.r ≤ c.localNs) || q.notime

/-- Within GUARD_US before the earliest waiting instant no untimed frame starts (R154). -/
def Chip.guardBlocks (c : Chip) (t : Nat) : Bool :=
  (c.relsOf t).any fun (q : RelReq) => decide (q.r - (c.tget pSTORY 2 (relCfgIndex t) fGuard * 1000 : Nat) ≤ c.localNs)

/-- The request leaves its queue and its frame starts now, `sof` its start of frame stamp where a PHY lies between (R155, R156):
released, and logged unless the log is full. -/
def Chip.logRelease (c : Chip) (q : RelReq) (busy : Bool) (sof : Option Nat := none) : Chip :=
  let c := { c with rels := c.rels.erase q }.count pSTORY K.STORY_RELEASED
  if c.rlog.length < 256 then
    let e : RlogEntry := { req := unsignedOf q.r 32, sof := sof.getD c.stamp, target := q.target, late := q.late, busy := busy || q.busy
                           notime := q.notime, epoch := c.get pTIME F.TIME_TIME_STATUS_EPOCH, tag := q.tag, seq := c.rlogSeq }
    { c with rlog := c.rlog ++ [e], rlogSeq := (c.rlogSeq + 1) % 65536 }.raise pSTORY E.STORY_RLOG
  else (c.count pSTORY K.STORY_REPORT_LOST).raise pSTORY E.STORY_REPORT_LOST

/-- A write of `RLOG_ACK` (R264). -/
def Chip.rlogAck (c : Chip) (seq : Nat) : Chip :=
  match c.rlog with
  | e :: l => if e.seq = seq % 65536 then { c with rlog := l } else c
  | [] => c

/-- A word of the head entry of the release log (R164). -/
def Chip.rlogHead (c : Chip) (i : Nat) : Word :=
  match c.rlog with
  | [] => 0
  | e :: _ =>
    BitVec.ofNat 32 (match i with
      | 0 => e.req
      | 1 => e.sof
      | 2 => e.target + 256 * e.late.toNat + 512 * e.busy.toNat + 1024 * e.notime.toNat + 2048 + 65536 * e.epoch
      | _ => e.tag % 65536 + 65536 * e.seq)

/-! ## Meanings -/

/-- RLOG_ACK (R156, R264). -/
def execRlogAck (dt : Nat) (req : Requester) (seq : Nat) (s : State) : Host.Outcome State Fault Refusal :=
  .next (s.run dt fun c => c.command req pSTORY 0x160 (BitVec.ofNat 32 seq) fun c => c.rlogAck seq)

end Sys2Proof.Machine
end

