-- ==== Sys2Proof/Machine/Time.lean ====
section
/-! DEFINITION. The time unit without its steps (R113 to R137): rate, validity and holdover, captures, PPS_OUT, the gPTP
instances' records, commit of the TIME and GPTP pages. -/
namespace Sys2Proof.Machine

open Sys2Proof

abbrev tINVALID : Nat := 0
abbrev tTRACKING : Nat := 1
abbrev tHOLDOVER : Nat := 2

/-- INV_CAUSE (R134). -/
abbrev icRESET : Nat := 0
abbrev icPLLS : Nat := 1
abbrev icHOST : Nat := 2
abbrev icFW : Nat := 3
abbrev icTENON : Nat := 4
abbrev icMODE : Nat := 5

/-- `STEP_RESULT.RESULT` and `RATE_RESULT.RESULT` (R134). -/
abbrev stDONE : Nat := 1
abbrev stLOCKED : Nat := 2
abbrev stNOTSOURCE : Nat := 3
abbrev stRANGE : Nat := 4
abbrev stARMED : Nat := 5
abbrev stDISARMED : Nat := 6
abbrev stTIMEOUT : Nat := 7

def Chip.timeState (c : Chip) : Nat := c.get pTIME F.TIME_TIME_STATUS_STATE
def Chip.epoch (c : Chip) : Nat := c.get pTIME F.TIME_TIME_STATUS_EPOCH
def Chip.source (c : Chip) : Nat := c.get pTIME F.TIME_TIME_CFG_SOURCE

/-- The host side of R116: a PCI Express or QSPI host, or a Tenon peer. Firmware is Trestle and the boot ROM. -/
def hostSide : Requester → Bool
  | .pcie | .qspi | .peer => true
  | .trestle | .bootRom => false

/-- Who may step (R116), PPS_STEP_ARM apart. -/
def mayStep (source : Nat) (req : Requester) (arm : Bool) : Bool :=
  match source with
  | 0 => hostSide req
  | 1 | 2 | 3 | 4 => !hostSide req
  | 5 => !hostSide req || arm
  | 7 => true
  | _ => false

/-- Who may write RATE_ADJ (R116). -/
def mayRate (source : Nat) (req : Requester) : Bool :=
  match source with
  | 0 => hostSide req
  | 1 | 2 | 3 | 4 | 5 => !hostSide req
  | _ => false

/-! ## Rate (R114, R115, R117) -/

/-- The increment of a rate (R114), to the nearest 2^-40 ns. -/
def incrOf (rate : Int) : Nat := ((2 ^ 41 : Int) + (rate * 2 ^ 26 + 1000000) / 2000000).toNat

/-- The active rate, and the target. -/
def Chip.rateActive (c : Chip) : Int := signedOf (c.get pTIME F.TIME_RATE_ACTIVE_RATE) 32
def Chip.rateTarget (c : Chip) : Int := signedOf (c.get pTIME F.TIME_RATE_ADJ_RATE) 32

/-- The increment registers follow the active rate, held at rate 0 on HFRC (R114, R123); the time runs on without a jump. -/
def Chip.refreshIncr (c : Chip) : Chip :=
  let i := incrOf (if c.timeHfrc then 0 else c.rateActive)
  let c := c.anchor c.localTime
  (c.setReg pTIME 0x180 (BitVec.ofNat 32 (i % 2 ^ 32))).setReg pTIME 0x184 (BitVec.ofNat 32 (i / 2 ^ 32))

def Chip.setRate (c : Chip) (rate : Int) : Chip := (c.put pTIME F.TIME_RATE_ACTIVE_RATE (unsignedOf rate 32)).refreshIncr

/-- TCLK moves to HFRC while PLL_S is unlocked, and back after relock (R123, R139). -/
def Chip.timeOnHfrc (c : Chip) (on : Bool) : Chip :=
  { c.anchor c.localTime with timeHfrc := on, tm := { c.tm with monoBase := c.mono, monoAt := c.cycles } }.refreshIncr

/-- At most a thousandth of SLEW_LIMIT, in rate units (R115). -/
def Chip.slewStep (c : Chip) : Int := (c.get pTIME F.TIME_SLEW_LIMIT_TENTH_PPM_S * 65536 / 10000 : Nat)

/-- A tick of the 1 ms grid (R115): the rate moves towards its target; a SLEW_LIMIT of 0 sets no limit. Under SOURCE FREE and
while PLL_S is unlocked it is held (R116, R123). -/
def Chip.rateSlewTick (c : Chip) : Chip :=
  let k := c.mono / 1000000
  if k ≤ c.slewIndex then c
  else
    let c := { c with slewIndex := k }
    let a := c.rateActive
    let t := c.rateTarget
    if c.source = 7 ∨ c.timeHfrc ∨ a = t then c
    else if c.get pTIME F.TIME_SLEW_LIMIT_TENTH_PPM_S = 0 then c.setRate t
    else if a < t then c.setRate (min t (a + c.slewStep)) else c.setRate (max t (a - c.slewStep))

/-- The SCLK cycle. -/
def Chip.sclk (c : Chip) : Nat := c.cycles / 2

/-- An event of the TIME page is latched. -/
def Chip.timeRaw (c : Chip) (bit : Nat) : Bool := (c.reg pTIME 0x018).toNat.testBit bit

/-- A correction (R122): an accepted rate write, or a time word of the ring head. -/
def Chip.correction (c : Chip) : Chip :=
  let c := { c with corrAt := c.cycles }
  if c.timeState = tHOLDOVER then
    let fresh := !c.timeRaw E.TIME_TRACKING
    let c := (c.put pTIME F.TIME_TIME_STATUS_STATE tTRACKING).raise pTIME E.TIME_TRACKING
    { c with tm := { c.tm with trackedAt := if fresh then some c.sclk else c.tm.trackedAt } }
  else c

/-- A refused rate write (R117). -/
def Chip.refuseRate (c : Chip) (req : Requester) (result cnt : Nat) : Chip :=
  let c := (c.put pTIME F.TIME_RATE_RESULT_RESULT result).put pTIME F.TIME_RATE_RESULT_REQUESTER (reqCode req)
  (c.count pTIME cnt).raise pTIME E.TIME_RATE_REFUSED

/-- A write of RATE_ADJ (R117). -/
def Chip.writeRate (c : Chip) (req : Requester) (v : Word) : Chip × Nat :=
  match c.refuseWrite pTIME 0x170 true with
  | 0 =>
    let r := signedOf v.toNat 32
    if ¬ mayRate c.source req then (c.refuseRate req stNOTSOURCE K.TIME_NOT_SOURCE, 0)
    else if r < -65536000 ∨ 65536000 < r then (c.refuseRate req stRANGE K.TIME_RATE_RANGE, 0)
    else ((c.setReg pTIME 0x170 v).correction, 0)
  | e => (c, e)

/-! ## Validity (R121 to R124) -/

/-- The time enters INVALID, from any state (R121, R122, R128, R143, R157). -/
def Chip.invalidNow (c : Chip) (cause : Nat) : Chip :=
  let c := (c.put pTIME F.TIME_TIME_STATUS_STATE tINVALID).put pTIME F.TIME_TIME_STATUS_INV_CAUSE cause
  let c := c.put pTIME F.TIME_TIME_STATUS_EPOCH (c.epoch + 1)
  let c := (c.count pTIME K.TIME_INVALIDATED).raise pTIME E.TIME_INVALID
  ({ c with ppsOut := none, ppsOld := none }.listsFailsafe).releasesInvalid

/-- An invalidation (R122): while the time is INVALID already, INVALIDATE and a PLL_S loss only update the cause. -/
def Chip.invalidate (c : Chip) (cause : Nat) : Chip :=
  if c.timeState = tINVALID then
    (if cause = icPLLS ∨ cause = icHOST ∨ cause = icFW then c.put pTIME F.TIME_TIME_STATUS_INV_CAUSE cause else c)
  else c.invalidNow cause

/-- No correction for DETECT (R122). -/
def Chip.holdover (c : Chip) : Chip :=
  if c.timeState = tTRACKING ∧ c.corrAt + msCycles (c.get pTIME F.TIME_HOLDOVER_CFG_DETECT) ≤ c.cycles then
    let c := (c.put pTIME F.TIME_TIME_STATUS_STATE tHOLDOVER).count pTIME K.TIME_HOLDOVER_ENTRIES
    { c.raise pTIME E.TIME_HOLDOVER with holdoverAt := c.cycles, holdoverLong := false }
  else c

/-- LONG seconds in HOLDOVER (R122). -/
def Chip.holdoverIsLong (c : Chip) : Chip :=
  let long := c.get pTIME F.TIME_HOLDOVER_CFG_LONG
  if c.timeState = tHOLDOVER ∧ long ≠ 0 ∧ ¬ c.holdoverLong ∧ c.holdoverAt + secCycles long ≤ c.cycles then
    { c.raise pTIME E.TIME_HOLDOVER_LONG with holdoverLong := true }
  else c

/-- PLL_S is lost (R120, R122): a step of the same SCLK cycle comes before it. -/
def Chip.pllSLost (c : Chip) : Chip := { c with lossAt := some (c.sclk, c.timeState) }.invalidate icPLLS

/-- The state that a step finds (R120): with a loss of PLL_S in its SCLK cycle that before the loss. -/
def Chip.stepState (c : Chip) : Nat :=
  match c.lossAt with
  | some (k, st) => if k = c.sclk then st else c.timeState
  | none => c.timeState

/-! ## Captures and PPS_OUT (R125, R127, R128) -/

/-- A local time in 2^-40 ns as seconds, nanoseconds and the 16-bit fraction. -/
def secOf (t : Nat) : Nat := t / 2 ^ 40 / 1000000000 % 2 ^ 48
def nsOf (t : Nat) : Nat := t / 2 ^ 40 % 1000000000
def fracOf (t : Nat) : Nat := t / 2 ^ 24 % 2 ^ 16

/-- CAPTURE (R125). -/
def Chip.captureTime (c : Chip) : Chip :=
  let t := c.localTime
  let c := (c.setReg pTIME 0x190 (BitVec.ofNat 32 (secOf t))).setReg pTIME 0x194 (BitVec.ofNat 32 (secOf t / 2 ^ 32))
  let c := (c.setReg pTIME 0x198 (BitVec.ofNat 32 (nsOf t))).setReg pTIME 0x19C (BitVec.ofNat 32 (fracOf t))
  let c := c.setReg pTIME 0x1A0 (BitVec.ofNat 32 (t / 2 ^ 40))
  let c := (c.put pTIME F.TIME_CAP_STATUS_EPOCH c.epoch).put pTIME F.TIME_CAP_STATUS_STATE c.timeState
  c.put pTIME F.TIME_CAP_STATUS_SEQ (c.get pTIME F.TIME_CAP_STATUS_SEQ + 1)

/-- PPS_IN_DELAY in 2^-40 ns. -/
def Chip.ppsDelay (c : Chip) : Int := signedOf (c.get pTIME F.TIME_PPS_IN_DELAY_PS) 20 * 2 ^ 40 / 1000

/-- The capture of a PPS_IN edge (R127). -/
def Chip.ppsCapture (c : Chip) : Chip :=
  let t := ((c.localTime : Int) - c.ppsDelay).toNat
  let c := (c.setReg pTIME 0x1B0 (BitVec.ofNat 32 (secOf t))).setReg pTIME 0x1B4 (BitVec.ofNat 32 (secOf t / 2 ^ 32))
  let c := (c.setReg pTIME 0x1B8 (BitVec.ofNat 32 (nsOf t))).put pTIME F.TIME_PPS_IN_STATUS_EPOCH c.epoch
  let c := c.put pTIME F.TIME_PPS_IN_STATUS_SEQ (c.get pTIME F.TIME_PPS_IN_STATUS_SEQ + 1)
  (c.count pTIME K.TIME_PPS_IN_EDGES).raise pTIME E.TIME_PPS_IN

/-- A second in 2^-40 ns. -/
abbrev secondFine : Nat := 1000000000 * 2 ^ 40

/-- The whole second that lies `adv` ps ahead, where it has come this near in the present cycle. -/
def Chip.secondAhead (c : Chip) (adv : Nat) : Option Nat :=
  let u := c.localTime + adv * 2 ^ 40 / 1000
  if u % secondFine < c.incr then some (u / secondFine) else none

/-- PPS_OUT's EN, WIDTH and ADV of the active bank. -/
def Chip.ppsSettings (c : Chip) : Bool × Nat × Nat :=
  (c.is pTIME F.TIME_TIME_CFG_PPS_OUT_EN, c.get pTIME F.TIME_TIME_CFG_PPS_OUT_WIDTH, c.get pTIME F.TIME_PPS_OUT_ADV_PS)

/-- The width of the pulse that is due now (R128, R134): PPS_OUT_ADV before a whole second, by the settings that act for it. -/
def Chip.ppsDue (c : Chip) : Option Nat :=
  let due := fun (p : Bool × Nat × Nat) (acts : Nat → Bool) => match c.secondAhead p.2.2 with
    | some s => if p.1 && acts s then some p.2.1 else none
    | none => none
  match c.ppsOld with
  | some old => (due old fun s => decide (s < c.ppsSecond)).or (due c.ppsSettings fun s => decide (c.ppsSecond ≤ s))
  | none => due c.ppsSettings fun _ => true

/-- PPS_OUT rises PPS_OUT_ADV before each whole second while the time is valid (R128). -/
def Chip.ppsRise (c : Chip) : Chip :=
  match c.ppsDue with
  | some w => if c.timeValid then { c with ppsOut := some (c.cycles + msCycles w) } else c
  | none => c

/-- PPS_OUT falls (R128). -/
def Chip.ppsFall (c : Chip) : Chip :=
  match c.ppsOut with
  | some due => if due ≤ c.cycles then { c with ppsOut := none } else c
  | none => c

/-! ## Step results (R117 to R119) -/

/-- The outcome of a step command: STEP_RESULT, its SEQ advanced when a command was handled. -/
def Chip.stepResult (c : Chip) (result req : Nat) (handled : Bool) : Chip :=
  let c := (c.put pTIME F.TIME_STEP_RESULT_RESULT result).put pTIME F.TIME_STEP_RESULT_REQUESTER req
  if handled then c.put pTIME F.TIME_STEP_RESULT_SEQ (c.get pTIME F.TIME_STEP_RESULT_SEQ + 1) else c

/-- A refused step (R117, R118). -/
def Chip.refuseStep (c : Chip) (result req : Nat) (handled : Bool) : Chip :=
  let c := c.stepResult result req handled
  let c := if result = stNOTSOURCE then c.count pTIME K.TIME_NOT_SOURCE
    else if result = stLOCKED then c.count pTIME K.TIME_STEP_LOCKED else c
  c.raise pTIME E.TIME_STEP_REFUSED

/-- NS above 999,999,999. -/
def Chip.stepNsBad (c : Chip) : Bool := decide (999999999 < c.get pTIME F.TIME_STEP_NS_NS)

/-- The checks of a step command in their order (R117): entitlement, the one-step rule, the ranges; 0 when none fails. DEDUCED (log
entry 103): in SENTRY, where the time counts in the INVALID state until RUN, no step is accepted (R124). -/
def Chip.stepCheck (c : Chip) (req : Requester) (arm outOfRange : Bool) : Nat :=
  if ¬ mayStep c.source req arm then stNOTSOURCE
  else if c.stepState ≠ tINVALID ∨ c.mode = modeSentry then stLOCKED
  else if outOfRange then stRANGE else 0

/-- The refusal of a step command with its code in TIME_CMD: where the one-step rule refuses it, it is kept for R120. -/
def Chip.refuseCmd (c : Chip) (result cmd : Nat) (req : Requester) : Chip :=
  let c : Chip := if result = stLOCKED then
      { c with tm := { c.tm with lockedStep := some { sclk := c.sclk, cmd := cmd, req := req, fresh := !c.timeRaw E.TIME_STEP_REFUSED } } } else c
  c.refuseStep result (reqCode req) true

/-- PPS_STEP_ARM (R119). -/
def Chip.ppsStepArm (c : Chip) (req : Requester) : Chip :=
  match c.stepCheck req true (!c.is pTIME F.TIME_TIME_CFG_PPS_IN_EN || c.stepNsBad) with
  | 0 =>
    let sec := w48Of (c.reg pTIME 0x158) (c.reg pTIME 0x15C)
    { c.stepResult stARMED (reqCode req) true with ppsArm := some { sec := sec, req := reqCode req, at' := c.cycles } }
  | e => c.refuseCmd e 5 req

/-- PPS_STEP_DISARM (R119): without an arm it changes nothing but SEQ. -/
def Chip.ppsStepDisarm (c : Chip) (req : Requester) : Chip :=
  if ¬ mayStep c.source req true then c.refuseStep stNOTSOURCE (reqCode req) true
  else if c.ppsArm.isSome then { c.stepResult stDISARMED (reqCode req) true with ppsArm := none }
  else c.put pTIME F.TIME_STEP_RESULT_SEQ (c.get pTIME F.TIME_STEP_RESULT_SEQ + 1)

/-- No edge within 2 s of an arm (R119). -/
def Chip.ppsArmTimeout (c : Chip) : Chip :=
  match c.ppsArm with
  | some a => if a.at' + secCycles 2 ≤ c.cycles then { c.stepResult stTIMEOUT a.req false with ppsArm := none } else c
  | none => c

/-! ## Commit of TIME (R134, R135) -/

/-- RING_ID of the straps. -/
def Chip.ringId (c : Chip) : Nat := c.get pSYS F.SYS_STRAPS_RING_ID

def Chip.validateTime (c : Chip) (group : List Nat) : Nat × Nat :=
  let src := c.staged pTIME F.TIME_TIME_CFG_SOURCE
  let w := c.staged pTIME F.TIME_TIME_CFG_PPS_OUT_WIDTH
  firstBad [
    (decide (src = 6) && (decide (c.ringId = 0) || (decide (c.source ≠ 6) && decide (c.timeState ≠ tINVALID))), rsnInvalid, 1),
    (decide (1 ≤ src ∧ src ≤ 4) && decide (c.peer group (pGPTP (src - 1)) F.GPTP_INST_CFG_EN = 0), rsnTableRef, 2),
    (decide (w = 0 ∨ 500 < w), rsnRange, 3),
    (decide (c.staged pTIME F.TIME_HOLDOVER_CFG_DETECT = 0), rsnRange, 4),
    (decide (1000000 < c.staged pTIME F.TIME_PPS_OUT_ADV_PS), rsnRange, 5)]

/-- A commit that sets PPS_IN_EN to 0 ends a waiting arm (R119); changed PPS_OUT settings wait for the next whole second (R134). -/
def Chip.appliedTime (c old : Chip) : Chip :=
  let c := if c.ppsSettings = old.ppsSettings ∨ ¬ c.timeValid then c
    else { c with ppsOld := some (old.ppsOld.getD old.ppsSettings), ppsSecond := c.localTime / secondFine + 1 }
  match c.ppsArm with
  | some a => if c.is pTIME F.TIME_TIME_CFG_PPS_IN_EN then c else { c.stepResult stDISARMED a.req false with ppsArm := none }
  | none => c

/-! ## Stamps (R78, R79, R298) -/

/-- The mode slot of a PHY's latency constants. -/
def Chip.latSlot (c : Chip) (n : Nat) : Nat :=
  let r := (c.portRt n).rate
  if isB n then (if c.is (pPORT n) F.PORT_LINK_STATUS_LONG_BED then 3 else if r = 3 then 2 else if r = 2 then 1 else 0)
  else if isG n then (if r = 5 then 1 else 0) else 0

/-- Latency of reception or transmission at a port in ps: PHY and board. -/
def Chip.portLat (c : Chip) (n : Nat) (phy extra : Fld) : Int :=
  if 28 ≤ n then 0
  else
    let own : Int := if pageValid (pPHY n) then (c.get (pPHY n) { phy with off := phy.off + 8 * c.latSlot n } : Nat) else 0
    own + signedOf (c.get (pPORT n) extra) 20

/-- An instant in 2^-40 ns moved by picoseconds, in nanoseconds rounded to the nearest. -/
def nearestNs (t : Nat) (ps : Int) : Int := ((t : Int) + ps * 2 ^ 40 / 1000 + 2 ^ 39) / 2 ^ 40

/-- The same as a stamp. -/
def stampOf (t : Nat) (ps : Int) : Nat := unsignedOf (nearestNs t ps) 32

/-- Local time in ns when the SFD of a frame that passed the boundary `ago` cycles back was at the MDI. -/
def Chip.rxNs (c : Chip) (n ago : Nat) : Int :=
  nearestNs (c.localTime - ago * c.incr) (-(c.portLat n F.PHY_LAT_RX_Mm_PS F.PORT_TS_RX_EXTRA_PS))

/-- The ingress stamp of a frame whose SFD passed the boundary `ago` cycles back. -/
def Chip.rxStamp (c : Chip) (n ago : Nat) : Nat := unsignedOf (c.rxNs n ago) 32

/-- The egress stamp of a frame whose SFD passes the boundary now. -/
def Chip.txStamp (c : Chip) (n : Nat) : Nat := stampOf c.localTime (c.portLat n F.PHY_LAT_TX_Mm_PS F.PORT_TS_TX_EXTRA_PS)

/-- The length bin of a frame (R418). -/
def lengthBin (n : Nat) : Nat :=
  if n ≤ 64 then 0 else if n ≤ 127 then 1 else if n ≤ 255 then 2 else if n ≤ 511 then 3 else if n ≤ 1023 then 4
  else if n ≤ 1518 then 5 else if n ≤ 2047 then 6 else 7

/-! ## gPTP (R129 to R132, R136, R137) -/

/-- Firmware runs: Trestle is neither off nor halted nor restarting, its heartbeat has not stopped (R26, R358, R362), and
its services do not pause for an activation (R379). -/
def Chip.fwRuns (c : Chip) : Bool :=
  let m := c.get pTRESTLE F.TRESTLE_TR_STATUS_MODE
  decide (1 ≤ m ∧ m ≤ 3) && !c.is pTRESTLE F.TRESTLE_TR_STATUS_STOPPED && !c.tr.paused

def Chip.ptpRt (c : Chip) (g : Nat) : PtpRt := lookupD {} c.ptp g
def Chip.setPtp (c : Chip) (g : Nat) (x : PtpRt) : Chip := { c with ptp := store {} c.ptp g x }

abbrev fPdRole : TFld := ⟨0, 0, 3⟩
abbrev fPdCapable : TFld := ⟨0, 4, 1⟩

/-- ROLE codes of INST_STATUS and of PORT_DS (R136). -/
abbrev gSLAVE : Nat := 2
abbrev prMASTER : Nat := 1
abbrev prSLAVE : Nat := 2
abbrev prPASSIVE : Nat := 3

/-- Modes in which gPTP messages pass (R31, R124). -/
def Chip.gptpPasses (c : Chip) : Bool := decide (c.mode ≠ modeQuarantine ∧ c.mode ≠ modeSentry ∧ c.mode ≠ modeDormant)

/-- The instance takes part on a port: enabled, the port in its mask, firmware running, in a mode that lets gPTP pass. -/
def Chip.gptpOn (c : Chip) (g port : Nat) : Bool :=
  decide (g < 4 ∧ port < 20) && c.gptpPasses && c.fwRuns && c.is (pGPTP g) F.GPTP_INST_CFG_EN && (c.get (pGPTP g) F.GPTP_PORT_MASK_PORTS).testBit port

/-- The ports on which an instance is master with the link up, and how many they are. -/
def Chip.masterList (c : Chip) (g : Nat) : List Nat :=
  (List.range 20).filter fun p => c.gptpOn g p && decide (c.tget (pGPTP g) 0 p fPdRole = prMASTER) && c.linkUp p
def Chip.masterPorts (c : Chip) (g : Nat) : Nat := (c.masterList g).length

/-- A domain's time shown as an offset from local time (R132, R136). -/
def Chip.showOffset (c : Chip) (g : Nat) (offset ratio : Int) : Chip :=
  let p := pGPTP g
  let sec := offset / 1000000000
  let c := (c.setReg p 0x160 (BitVec.ofInt 32 sec)).setReg p 0x164 (BitVec.ofNat 32 (unsignedOf sec 48 / 2 ^ 32))
  let c := (c.setReg p 0x168 (BitVec.ofNat 32 (offset % 1000000000).toNat)).setReg p 0x16C (BitVec.ofInt 32 ratio)
  c.put p F.GPTP_INST_STATUS_OFFSET_VALID 1

/-- What every processed Sync does but for the step (R131, R132): counts, the offset shown, the alarm, relay on each master port. -/
def Chip.syncRecord (c : Chip) (g : Nat) (followUp : Bool) (offset ratio : Int) : Chip :=
  let p := pGPTP g
  let c := (c.count p K.GPTP_SYNC_RX).setPtp g { lastSync := c.cycles }
  let c := if followUp then c.count p K.GPTP_FOLLOW_UP_RX else c
  let c := (c.addCnt p K.GPTP_SYNC_TX (c.masterPorts g)).showOffset g offset ratio
  if c.source = g + 1 ∧ c.get p F.GPTP_ALARM_NS_NS < offset.natAbs then c.raise p E.GPTP_OFFSET_ALARM else c

/-- 2^LOG_SYNC seconds in cycles. -/
def Chip.syncInterval (c : Chip) (g : Nat) : Nat :=
  let l := signedOf (c.get (pGPTP g) F.GPTP_INTERVALS_LOG_SYNC) 8
  if 0 ≤ l then secCycles (2 ^ l.toNat) else secCycles 1 / 2 ^ l.natAbs

/-- SYNC_RX_TIMEOUT Sync intervals missed by a slave instance (R131). -/
def Chip.syncTimeout (c : Chip) (g : Nat) : Chip :=
  let p := pGPTP g
  let x := c.ptpRt g
  if g < 4 ∧ c.fwRuns ∧ c.is p F.GPTP_INST_CFG_EN ∧ c.get p F.GPTP_INST_STATUS_ROLE = gSLAVE ∧ ¬ x.silent
      ∧ x.lastSync + c.get p F.GPTP_INTERVALS_SYNC_RX_TIMEOUT * c.syncInterval g ≤ c.cycles then
    let c := c.setPtp g { x with silent := true, missed := c.get p F.GPTP_INTERVALS_SYNC_RX_TIMEOUT }
    ((c.put p F.GPTP_INST_STATUS_OFFSET_VALID 0).count p K.GPTP_SYNC_RX_TIMEOUT).raise p E.GPTP_SYNC_TIMEOUT
  else c

/-! ### The best master (R129) -/

/-- How good a grandmaster is, the best the lowest: IEEE 802.1AS-2020 orders priority1, clockQuality, priority2, clockIdentity
(PRESUMED, log entry 104). -/
def Offer.root (o : Offer) : Nat :=
  ((o.prio1 % 2 ^ 8 * 2 ^ 32 + o.quality % 2 ^ 32) * 2 ^ 8 + o.prio2 % 2 ^ 8) * 2 ^ 64 + o.gm % 2 ^ 64

/-- The same with the way to it: steps, sender, receiving port. -/
def Offer.rank (o : Offer) (port : Nat) : Nat := ((o.root * 2 ^ 16 + o.path.steps % 2 ^ 16) * 2 ^ 80 + o.path.sender % 2 ^ 80) * 2 ^ 5 + port

/-- The offer as a port of the device, or the device itself, passes it on. -/
def Offer.relayed (o : Offer) (port : Nat) : Offer :=
  { o with path := { o.path with steps := o.path.steps + 1, sender := Config.clockIdentity.toNat * 2 ^ 16 + port } }

/-- GM_CAPABLE. -/
def Chip.gmCapable (c : Chip) (g : Nat) : Bool := c.is (pGPTP g) F.GPTP_GM_CFG_GM_CAPABLE

/-- What an instance has to offer as grandmaster (R132): without GM_CAPABLE its priority1 is 255. -/
def Chip.ownOffer (c : Chip) (g : Nat) : Offer :=
  let p := pGPTP g
  { prio1 := if c.gmCapable g then c.get p F.GPTP_INST_CFG_PRIORITY1 else 255
    quality := (c.get p F.GPTP_GM_CFG_CLOCK_CLASS * 2 ^ 8 + c.get p F.GPTP_GM_CFG_CLOCK_ACCURACY) * 2 ^ 16 + Config.clockVariance.toNat
    prio2 := c.get p F.GPTP_INST_CFG_PRIORITY2, gm := Config.clockIdentity.toNat
    path := { steps := 0, sender := Config.clockIdentity.toNat * 2 ^ 16, timeSource := c.get p F.GPTP_GM_CFG_TIME_SOURCE } }

/-- The offer received on a port that takes part and whose link is up. -/
def Chip.offerAt (c : Chip) (g port : Nat) : Option Offer := if c.gptpOn g port && c.linkUp port then lookupD none c.tm.offers (g * 32 + port) else none

/-- The best offer received, with its port. -/
def Chip.bestOffer (c : Chip) (g : Nat) : Option (Nat × Offer) :=
  (List.range 20).foldl (fun best q => match c.offerAt g q, best with
    | some o, some (p, b) => if o.rank q < b.rank p then some (q, o) else best
    | some o, none => some (q, o)
    | none, _ => best) none

/-- The slave port of an instance and what it offers: the best offer, where it beats the instance's own. -/
def Chip.parent (c : Chip) (g : Nat) : Option (Nat × Offer) :=
  match c.bestOffer g with
  | some (q, o) => if o.root < (c.ownOffer g).root then some (q, o) else none
  | none => none

/-- The role of a port. -/
def Chip.portRole (c : Chip) (g port : Nat) : Nat :=
  if ¬ c.gptpOn g port then 0
  else match c.parent g with
    | none => prMASTER
    | some (p, o) =>
      if port = p then prSLAVE
      else match c.offerAt g port with
        | none => prMASTER
        | some x => if (o.relayed port).rank port < x.rank port then prMASTER else prPASSIVE

/-- The grandmaster that an instance follows or is. -/
def Chip.grandmaster (c : Chip) (g : Nat) : Option Nat :=
  match c.parent g with
  | some (_, o) => if o.prio1 < 255 then some (o.gm % 2 ^ 64) else none
  | none => if c.gmCapable g then some Config.clockIdentity.toNat else none

/-- The best master is sought: the roles that follow, and a changed grandmaster is reported. Without a better one an instance with
GM_CAPABLE is GRANDMASTER, any other MASTER_ONLY, which knows no grandmaster (R132; DESIGN CHOICE, log entry 104). -/
def Chip.bmca (c : Chip) (g : Nat) : Chip :=
  let p := pGPTP g
  let was := if c.is p F.GPTP_INST_STATUS_GM_PRESENT then some ((c.reg p 0x158).toNat + 2 ^ 32 * (c.reg p 0x15C).toNat) else none
  let gm := c.grandmaster g
  let slave := (c.parent g).map Prod.fst
  let wasSlave := decide (c.get p F.GPTP_INST_STATUS_ROLE = gSLAVE)
  let d := (List.range 20).foldl (fun (d : Chip) q => d.tput p 0 q fPdRole (c.portRole g q)) c
  let d := (d.setReg p 0x158 (BitVec.ofNat 32 (gm.getD 0))).setReg p 0x15C (BitVec.ofNat 32 (gm.getD 0 / 2 ^ 32))
  let d := (d.put p F.GPTP_INST_STATUS_ROLE (if slave.isSome then gSLAVE else if c.gmCapable g then 1 else 3)).put p F.GPTP_INST_STATUS_SLAVE_PORT (slave.getD 0)
  let d := d.put p F.GPTP_INST_STATUS_GM_PRESENT gm.isSome.toNat
  let d := if slave.isNone then d.put p F.GPTP_INST_STATUS_OFFSET_VALID 0 else if wasSlave then d else d.setPtp g { lastSync := d.cycles }
  if was = gm then d else (d.count p K.GPTP_GM_CHANGE).raise p E.GPTP_GM_CHANGE

/-- Firmware processes a received Announce (R129). One that the device itself has sent, or whose way has 255 steps, is counted only. -/
def Chip.announceRx (c : Chip) (g port : Nat) (o : Offer) : Chip :=
  if c.gptpOn g port then
    let c := c.count (pGPTP g) K.GPTP_ANNOUNCE_RX
    if 255 ≤ o.path.steps ∨ o.path.sender / 2 ^ 16 % 2 ^ 64 = Config.clockIdentity.toNat then c
    else Chip.bmca { c with tm := { c.tm with offers := store none c.tm.offers (g * 32 + port) (some o) } } g
  else c

/-- The instances that take part on a port. -/
def Chip.instancesOn (c : Chip) (port : Nat) : List Nat := (List.range 4).filter fun g => c.gptpOn g port

/-- A Pdelay exchange on a port has completed or failed (R129, R136): delay and ratio are the same in all four pages. -/
def Chip.pdelayExchange (c : Chip) (port : Nat) (result : Option (Nat × Int)) (capable : Bool) : Chip :=
  let on := c.instancesOn port
  if on.isEmpty then c
  else match result with
    | some (delay, ratio) =>
      let c := (List.range 4).foldl (fun c g => (c.setTword (pGPTP g) 0 port 1 (BitVec.ofNat 32 delay)).setTword (pGPTP g) 0 port 2 (BitVec.ofInt 32 ratio)) c
      on.foldl (fun c g => c.tput (pGPTP g) 0 port fPdCapable capable.toNat) c
    | none => on.foldl (fun c g => (c.tput (pGPTP g) 0 port fPdCapable capable.toNat).count (pGPTP g) K.GPTP_PDELAY_FAIL) c

/-- Firmware takes up the settings of a GPTP page (R136; within 10 ms, here at once): those of a commit, and all where it begins to
run. An instance that is off is DISABLED with its ports. -/
def Chip.appliedGptp (c : Chip) (g : Nat) : Chip :=
  if ¬ c.fwRuns then c
  else
    let p := pGPTP g
    if c.is p F.GPTP_INST_CFG_EN then c.bmca g
    else
      let c := (List.range 20).foldl (fun c q => c.tput p 0 q fPdRole 0) c
      ((c.put p F.GPTP_INST_STATUS_ROLE 0).put p F.GPTP_INST_STATUS_GM_PRESENT 0).put p F.GPTP_INST_STATUS_OFFSET_VALID 0

/-- Firmware begins to run, or runs again: it takes up what the GPTP pages hold. -/
def Chip.takeUpGptp (c : Chip) : Chip := (List.range 4).foldl Chip.appliedGptp c

/-! ### Messages (R129, R130, R132) -/

/-- The length of a message on the wire, FCS included, by IEEE 802.1AS-2020 (log entry 104). -/
def ptpSize (kind : Nat) : Nat := match kind with | 0 => 64 | 1 => 94 | 3 => 94 | _ => 72

/-- What a message carries besides its domain: an Announce the grandmaster's properties, the device's own as the integrator sets them
or those received, and the steps to it; a Follow_Up the domain's time in ns at its Sync's departure. -/
def Chip.ptpFields (c : Chip) (g kind port time : Nat) : List Nat :=
  c.get (pGPTP g) F.GPTP_INST_CFG_DOMAIN :: match kind with
    | 1 =>
      let o := match c.parent g with | some (_, o) => o.relayed port | none => c.ownOffer g
      [o.prio1, o.prio2, o.quality / 2 ^ 24, o.quality / 2 ^ 16 % 2 ^ 8, o.path.timeSource, o.gm, o.path.steps]
    | 3 => [time / 1000000000, time % 1000000000]
    | _ => []

/-- Firmware sends a message on a port, whose MAC counts it and gives firmware its egress stamp (R130). DESIGN CHOICE (log entry 104): it
passes no egress queue and no lookup, and no class counts it. -/
def Chip.ptpSend (c : Chip) (g kind port time : Nat) : Chip :=
  let p := pPORT port
  let len := ptpSize kind
  let c := ((c.addCnt p K.PORT_TX_OCTETS len).count p K.PORT_TX_FRAMES).count p (K.PORT_TX_UNICAST + 1)
  (c.count p (K.PORT_TX_BINS + lengthBin len)).emit (.gptpMessage port g kind (c.ptpFields g kind port time) (c.txStamp port))

/-- Local time in ns when a frame that leaves now is at the MDI. -/
def Chip.txNs (c : Chip) (port : Nat) : Nat := (nearestNs c.localTime (c.portLat port F.PHY_LAT_TX_Mm_PS F.PORT_TS_TX_EXTRA_PS)).toNat

/-- A Sync with its Follow_Up on each master port: the domain's time is ahead of local time by `ahead` ns. -/
def Chip.syncSend (c : Chip) (g : Nat) (ahead : Int) : Chip :=
  (c.masterList g).foldl (fun c p => let t := ((c.txNs p : Int) + ahead).toNat; (c.ptpSend g 0 p t).ptpSend g 3 p t) c

/-- The ports on which an instance measures the link delay, once for all instances (R129). -/
def Chip.delayPorts (c : Chip) (g : Nat) : List Nat := (List.range 20).filter fun p => decide ((c.instancesOn p).head? = some g) && c.linkUp p

/-- A message interval of an instance expires (R129, R132): Sync with Follow_Up (0) of the grandmaster, Announce (1) of an instance that
knows one, on each master port; Pdelay_Req (2), which no counter of its page counts. -/
def Chip.gptpTx (c : Chip) (g kind : Nat) : Chip :=
  let p := pGPTP g
  match kind with
  | 0 => if c.get p F.GPTP_INST_STATUS_ROLE = 1 then (c.addCnt p K.GPTP_SYNC_TX (c.masterPorts g)).syncSend g 0 else c
  | 1 =>
    if c.is p F.GPTP_INST_STATUS_GM_PRESENT then
      (c.masterList g).foldl (fun c p => c.ptpSend g 1 p 0) (c.addCnt p K.GPTP_ANNOUNCE_TX (c.masterPorts g))
    else c
  | 2 => (c.delayPorts g).foldl (fun c p => c.ptpSend g 2 p 0) c
  | _ => c

/-- Firmware answers a Pdelay_Req on a port (R129): Pdelay_Resp, Pdelay_Resp_Follow_Up. -/
def Chip.pdelayAnswer (c : Chip) (port : Nat) : Chip :=
  match c.instancesOn port with
  | g :: _ => (c.ptpSend g 4 port 0).ptpSend g 5 port 0
  | [] => c

/-- The checks of R137. -/
def Chip.validateGptp (c : Chip) (g : Nat) (group : List Nat) : Nat × Nat :=
  let p := pGPTP g
  let v := c.staged p
  let bad := fun (f : Fld) (lo hi : Int) => let x := signedOf (v f) 8; decide (x < lo ∨ hi < x)
  let other := (List.range 4).any fun h => decide (h ≠ g) && decide (c.peer group (pGPTP h) F.GPTP_INST_CFG_EN = 1)
    && decide (c.peer group (pGPTP h) F.GPTP_INST_CFG_DOMAIN = v F.GPTP_INST_CFG_DOMAIN)
  firstBad [
    (decide (127 < v F.GPTP_INST_CFG_DOMAIN), rsnRange, 1),
    (decide (v F.GPTP_INST_CFG_EN = 1) && other, rsnInvalid, 2),
    (decide (v F.GPTP_INST_CFG_EN = 0) && decide (c.peer group pTIME F.TIME_TIME_CFG_SOURCE = g + 1), rsnInvalid, 3),
    (bad F.GPTP_INTERVALS_LOG_SYNC (-7) 1 || bad F.GPTP_INTERVALS_LOG_PDELAY (-7) 3 || bad F.GPTP_INTERVALS_LOG_ANNOUNCE (-3) 3
      || decide (v F.GPTP_INTERVALS_SYNC_RX_TIMEOUT < 2), rsnRange, 4),
    (decide (v F.GPTP_ALARM_NS_NS = 0 ∨ 999999999 < v F.GPTP_ALARM_NS_NS), rsnRange, 5)]

/-! ## Meanings -/

/-- A command written to `TIME_CMD` (R119, R125). -/
def Chip.timeCmd (c : Chip) (req : Requester) (cmd : Nat) (f : Chip → Chip) : Chip := c.command req pTIME 0x154 (BitVec.ofNat 32 cmd) f

/-- TIME_CAPTURE (R125). -/
def execTimeCapture (dt : Nat) (req : Requester) (s : State) : Host.Outcome State Fault Refusal :=
  .next (s.run dt fun c => c.timeCmd req 1 Chip.captureTime)

/-- PPS_STEP_ARM (R119). -/
def execPpsStepArm (dt : Nat) (req : Requester) (s : State) : Host.Outcome State Fault Refusal :=
  .next (s.run dt fun c => c.timeCmd req 5 fun c => c.ppsStepArm req)

/-- PPS_STEP_DISARM (R119). -/
def execPpsStepDisarm (dt : Nat) (req : Requester) (s : State) : Host.Outcome State Fault Refusal :=
  .next (s.run dt fun c => c.timeCmd req 6 fun c => c.ppsStepDisarm req)

/-- PPS_ARM_TIMEOUT (R119). -/
def execPpsArmTimeout (dt : Nat) (s : State) : Host.Outcome State Fault Refusal := .next (s.run dt fun c => c.ppsArmTimeout)

/-- RATE_ADJ (R117). -/
def execRateAdj (dt : Nat) (req : Requester) (value : Word) (s : State) : Host.Outcome State Fault Refusal :=
  .next (s.run dt fun c => c.posted req pTIME 0x170 value fun c => c.writeRate req value)

/-- RATE_SLEW_TICK (R115). -/
def execRateSlewTick (dt : Nat) (s : State) : Host.Outcome State Fault Refusal := .next (s.run dt fun c => c.rateSlewTick)

/-- HOLDOVER (R122). -/
def execHoldover (dt : Nat) (s : State) : Host.Outcome State Fault Refusal := .next (s.run dt fun c => c.holdover)

/-- HOLDOVER_LONG (R122). -/
def execHoldoverLong (dt : Nat) (s : State) : Host.Outcome State Fault Refusal := .next (s.run dt fun c => c.holdoverIsLong)

/-- PPS_OUT_RISE (R128). -/
def execPpsOutRise (dt : Nat) (s : State) : Host.Outcome State Fault Refusal := .next (s.run dt fun c => c.ppsRise)

/-- PPS_OUT_FALL (R128). -/
def execPpsOutFall (dt : Nat) (s : State) : Host.Outcome State Fault Refusal := .next (s.run dt fun c => c.ppsFall)

/-- SYNC_TIMEOUT (R131). -/
def execSyncTimeout (dt inst : Nat) (s : State) : Host.Outcome State Fault Refusal := .next (s.run dt fun c => c.syncTimeout inst)

/-- ANNOUNCE_RX (R129). -/
def execAnnounceRx (dt inst port gm prio1 quality prio2 : Nat) (path : AnnouncePath) (s : State) : Host.Outcome State Fault Refusal :=
  .next (s.run dt fun c => c.announceRx inst port { prio1 := prio1, quality := quality, prio2 := prio2, gm := gm, path := path })

/-- PDELAY_EXCHANGE (R129). -/
def execPdelayExchange (dt port : Nat) (delay : Option Nat) (ratio : Int) (capable : Bool) (s : State) : Host.Outcome State Fault Refusal :=
  .next (s.run dt fun c => c.pdelayExchange port (delay.map fun d => (d, ratio)) capable)

end Sys2Proof.Machine
end

