-- ==== Sys2Proof/Machine/Parser.lean ====
section
/-! DEFINITION. Stage 2 (R12): the header fields of a frame, the fields of J1939 identifiers, IEEE 1722 messages. Header layouts
that the spec names by their standard are taken from it (log entry 30). -/
namespace Sys2Proof.Machine

open Sys2Proof

/-! ## Ethernet headers -/

abbrev etIPV4 : Nat := 0x0800
abbrev etIPV6 : Nat := 0x86DD
abbrev etAVTP : Nat := 0x22F0
abbrev etPTP : Nat := 0x88F7
abbrev etRTAG : Nat := 0xF1C1
abbrev etEAPOL : Nat := 0x888E
abbrev etMACSEC : Nat := 0x88E5
abbrev etPAUSE : Nat := 0x8808

/-- The EtherTypes of a VLAN tag (log entry 30). -/
def isTagType (t : Nat) : Bool := decide (t = 0x8100 ∨ t = 0x88A8)

/-- The headers of a frame: the TCI of its VLAN tags, outermost first, its R-TAG number, the EtherType after them, the index
of the first byte after it. -/
structure Headers where
  tags : List Nat
  rtag : Option Nat
  etype : Nat
  l3 : Nat
  deriving DecidableEq, Repr

/-- At most two VLAN tags from byte `i` on. -/
def tagsFrom (bs : List Byte) : Nat → Nat → List Nat
  | 0, _ => []
  | n + 1, i => if isTagType (beAt bs i 2) then beAt bs (i + 2) 2 :: tagsFrom bs n (i + 4) else []

/-- The headers of a frame; an R-TAG stands after any VLAN tag (R170). -/
def headers (bs : List Byte) : Headers :=
  let tags := tagsFrom bs 2 12
  let i := 12 + 4 * tags.length
  if beAt bs i 2 = etRTAG then ⟨tags, some (beAt bs (i + 4) 2), beAt bs (i + 6) 2, i + 8⟩
  else ⟨tags, none, beAt bs i 2, i + 2⟩

def dmacOf (bs : List Byte) : Nat := beAt bs 0 6
def smacOf (bs : List Byte) : Nat := beAt bs 6 6
def tciVid (t : Nat) : Nat := t % 4096
def tciPcp (t : Nat) : Nat := t / 8192 % 8
def tciDei (t : Nat) : Nat := t / 4096 % 2

/-- VID and PCP of the outermost tag. -/
def Headers.tag (h : Headers) : Option (Nat × Nat) := h.tags.head?.map fun t => (tciVid t, tciPcp t)

/-- An IP header: its protocol or next header, DSCP, the index of the transport header, an IPv4 fragment. -/
structure IpHead where
  proto : Nat
  dscp : Nat
  l4 : Nat
  frag : Bool
  deriving DecidableEq, Repr

def ipHead (bs : List Byte) (h : Headers) : Option IpHead :=
  if bs.length ≤ h.l3 then none
  else if h.etype = etIPV4 then
    some ⟨byteAt bs (h.l3 + 9), byteAt bs (h.l3 + 1) / 4, h.l3 + 4 * (byteAt bs h.l3 % 16), decide (beAt bs (h.l3 + 6) 2 % 0x4000 ≠ 0)⟩
  else if h.etype = etIPV6 then some ⟨byteAt bs (h.l3 + 6), beAt bs h.l3 2 / 64 % 64, h.l3 + 40, false⟩
  else none

/-- The index of the UDP or TCP payload. -/
def payloadAt (bs : List Byte) (h : Headers) : Option Nat :=
  match ipHead bs h with
  | some p => if p.proto = 17 then some (p.l4 + 8) else if p.proto = 6 then some (p.l4 + 4 * (byteAt bs (p.l4 + 12) / 16)) else none
  | none => none

/-! ## Changes to a frame -/

/-- Byte `i` replaced. -/
def setByte (bs : List Byte) (i v : Nat) : List Byte := bs.set i (BitVec.ofNat 8 v)

/-- Bytes from `i` on replaced by others. -/
def setBytes (bs : List Byte) (i : Nat) (vs : List Byte) : List Byte := bs.take i ++ vs ++ bs.drop (i + vs.length)

/-- DEI of the outermost tag set (R195); an untagged frame is left alone. -/
def markDei (bs : List Byte) : List Byte := if isTagType (beAt bs 12 2) then setByte bs 14 (byteAt bs 14 ||| 0x10) else bs

/-- The outermost tag removed. -/
def untag (bs : List Byte) : List Byte := if isTagType (beAt bs 12 2) then bs.take 12 ++ bs.drop 16 else bs

/-- The outermost tag's VID and PCP set, its DEI kept; a tag put in where there is none (R86). -/
def retag (bs : List Byte) (vid pcp : Nat) : List Byte :=
  if isTagType (beAt bs 12 2) then setBytes bs 14 (beBytes 2 (vid % 4096 + 4096 * tciDei (beAt bs 14 2) + 8192 * (pcp % 8)))
  else bs.take 12 ++ beBytes 2 0x8100 ++ beBytes 2 (vid % 4096 + 8192 * (pcp % 8)) ++ bs.drop 12

/-- A frame without its R-TAG, or with an R-TAG of a number, after its VLAN tags (R173). -/
def setRtag (bs : List Byte) (n : Option Nat) : List Byte :=
  let i := 12 + 4 * (tagsFrom bs 2 12).length
  let rest := if beAt bs i 2 = etRTAG then bs.drop (i + 6) else bs.drop i
  bs.take i ++ (match n with | some s => beBytes 2 etRTAG ++ beBytes 2 0 ++ beBytes 2 s | none => []) ++ rest

/-- The ones' complement sum of 16-bit words. -/
def sum16 (bs : List Byte) (n : Nat) : Nat := ((List.range n).map fun k => beAt bs (2 * k) 2).sum

/-- The IPv4 header checksum over a header of `n` bytes whose checksum field is 0. -/
def ipChecksum (hd : List Byte) (n : Nat) : Nat :=
  let s := sum16 hd (n / 2)
  let s := s % 65536 + s / 65536
  65535 - (s % 65536 + s / 65536)

/-- DSCP set, with the IPv4 checksum recomputed (R197); a frame that is not IP is left alone. -/
def setDscp (bs : List Byte) (dscp : Nat) : List Byte :=
  let h := headers bs
  match ipHead bs h with
  | none => bs
  | some p =>
    if h.etype = etIPV4 then
      let bs := setByte bs (h.l3 + 1) (byteAt bs (h.l3 + 1) % 4 + 4 * (dscp % 64))
      let bs := setBytes bs (h.l3 + 10) [0, 0]
      setBytes bs (h.l3 + 10) (beBytes 2 (ipChecksum (bs.drop h.l3) (p.l4 - h.l3)))
    else
      let w := beAt bs h.l3 2
      setBytes bs h.l3 (beBytes 2 (w / 4096 * 4096 + (dscp % 64) * 64 + w % 64))

/-! ## CAN identifiers (R190, R199) -/

/-- A 29-bit CAN identifier. -/
def isJ1939 (m : Msg) : Bool := decide (m.kind = .can) && m.ide

def jSa (id : Nat) : Nat := id % 256
def jPf (id : Nat) : Nat := id / 65536 % 256
def jPdu1 (id : Nat) : Bool := decide (jPf id < 240)
def jDa (id : Nat) : Nat := if jPdu1 id then id / 256 % 256 else 0xFF
def jPgn (id : Nat) : Nat := if jPdu1 id then id / 65536 % 1024 * 256 else id / 256 % 262144
def jPrio (id : Nat) : Nat := id / 2 ^ 26 % 8

abbrev pfTPCM : Nat := 0xEC
abbrev pfTPDT : Nat := 0xEB
abbrev pfETPCM : Nat := 0xC8
abbrev pfETPDT : Nat := 0xC7

/-- A TP or ETP frame (R199). -/
def isTp (m : Msg) : Bool :=
  isJ1939 m && decide (jPf m.id = pfTPCM ∨ jPf m.id = pfTPDT ∨ jPf m.id = pfETPCM ∨ jPf m.id = pfETPDT)

/-- An address claim (PGN 60928), with the NAME that it carries. -/
def claimName (m : Msg) : Option Nat := if isJ1939 m && decide (jPgn m.id = 60928) && decide (8 ≤ m.data.length) then some (leAt m.data 0 8) else none

/-- The parity bits of a LIN frame identifier. -/
def linParity (id : Nat) : Nat :=
  let b := fun i => (id.testBit i).toNat
  (b 0 + b 1 + b 2 + b 4) % 2 + 2 * ((b 1 + b 3 + b 4 + b 5 + 1) % 2)

/-! ## IEEE 1722 (R222 to R224; log entry 30) -/

abbrev avNTSCF : Nat := 0x82
abbrev avTSCF : Nat := 0x05

/-- A message of an ACF payload: its type, bus_id, message_timestamp where mtv is 1, and what it carries. -/
structure AcfMsg where
  type : Nat
  bus : Nat
  time : Option Nat
  msg : Msg
  deriving DecidableEq, Repr

/-- One ACF message of `n` bytes; `none` where its type is not supported. -/
def acfOne (bs : List Byte) (n : Nat) : Option AcfMsg :=
  let type := byteAt bs 0 / 2
  let pad := byteAt bs 2 / 64
  let mtv : Bool := (byteAt bs 2).testBit 5
  let body := fun (o : Nat) => (bs.take (n - pad)).drop o
  if type = 1 ∨ type = 2 then
    let o := if type = 1 then 12 else 4
    let f := byteAt bs 2
    some ⟨type, byteAt bs 3 % 32, if type = 1 ∧ mtv then some (beAt bs 4 8) else none,
      { kind := .can, id := beAt bs o 4 % 2 ^ 29, ide := f.testBit 3, fdf := f.testBit 1, brs := f.testBit 2, rtr := f.testBit 4, data := body (o + 4) }⟩
  else if type = 3 then
    some ⟨3, byteAt bs 2 % 32, if mtv then some (beAt bs 4 8) else none, { kind := .lin, id := byteAt bs 3 % 64, data := body 12 }⟩
  else if type = 6 then some ⟨6, byteAt bs 3 % 32, none, { kind := .uart, data := body 4 }⟩
  else none

/-- The messages of an ACF payload in order, `none` for one that is malformed; one that runs past the end is the last. -/
def acfAll : Nat → List Byte → List (Option AcfMsg)
  | 0, _ => []
  | k + 1, bs =>
    if bs.length < 2 then (if bs = [] then [] else [none])
    else
      let n := 4 * (byteAt bs 0 % 2 * 256 + byteAt bs 1)
      if n < 4 ∨ bs.length < n then [none] else acfOne (bs.take n) n :: acfAll k (bs.drop n)

/-- The ACF payload of an IEEE 1722 frame in NTSCF or TSCF form. -/
def acfPayload (bs : List Byte) : Option (List Byte) :=
  let h := headers bs
  if h.etype ≠ etAVTP then none
  else
    let st := byteAt bs h.l3
    if st = avNTSCF then some ((bs.drop (h.l3 + 12)).take (beAt bs (h.l3 + 1) 2 % 2048))
    else if st = avTSCF then some ((bs.drop (h.l3 + 24)).take (beAt bs (h.l3 + 20) 2))
    else none

/-- `bs` filled with zero bytes to whole quadlets, with the number of bytes filled in. -/
def quadlets (bs : List Byte) : List Byte × Nat := let p := (4 - bs.length % 4) % 4; (bs ++ List.replicate p 0, p)

/-- A message as one ACF message (R222): bus_id, and its time where it is valid. -/
def acfBuild (m : Msg) (bus time : Nat) (valid brief : Bool) : List Byte :=
  let (data, pad) := quadlets m.data
  let head := fun (type n b2 b3 : Nat) => beBytes 2 (type * 512 + n / 4) ++ [BitVec.ofNat 8 b2, BitVec.ofNat 8 b3]
  match m.kind with
  | .can =>
    let f := pad * 64 + (if brief then 0 else valid.toNat * 32) + m.rtr.toNat * 16 + m.ide.toNat * 8 + m.brs.toNat * 4 + m.fdf.toNat * 2
    if brief then head 2 (8 + data.length) f bus ++ beBytes 4 m.id ++ data
    else head 1 (16 + data.length) f bus ++ beBytes 8 (if valid then time else 0) ++ beBytes 4 m.id ++ data
  | .lin => head 3 (12 + data.length) (pad * 64 + valid.toNat * 32 + bus) m.id ++ beBytes 8 (if valid then time else 0) ++ data
  | .uart => head 6 (4 + data.length) (pad * 64) bus ++ data

/-- An IEEE 1722 frame over ACF messages (R222). -/
def avtpFrame (dmac smac : Nat) (tag : Option (Nat × Nat)) (tscf : Bool) (sid seq ts : Nat) (tv : Bool) (payload : List Byte) : List Byte :=
  let l2 := beBytes 6 dmac ++ beBytes 6 smac
    ++ (match tag with | some (vid, pcp) => beBytes 2 0x8100 ++ beBytes 2 (vid + 8192 * pcp) | none => []) ++ beBytes 2 etAVTP
  if tscf then
    l2 ++ [BitVec.ofNat 8 avTSCF, BitVec.ofNat 8 (0x80 + tv.toNat)] ++ beBytes 1 seq ++ [0] ++ beBytes 8 sid
      ++ beBytes 4 (if tv then ts else 0) ++ beBytes 4 0 ++ beBytes 2 payload.length ++ beBytes 2 0 ++ payload
  else l2 ++ [BitVec.ofNat 8 avNTSCF] ++ beBytes 2 (0x8000 + payload.length) ++ beBytes 1 seq ++ beBytes 8 sid ++ payload

end Sys2Proof.Machine
end

