-- ==== Sys2Proof/Machine/Units.lean ====
section
/-! DEFINITION. Units and fencing, the claim map, transport sessions (R199 to R208, R211). -/
namespace Sys2Proof.Machine

open Sys2Proof

/-! ## Unit entries (R204, R211) -/

abbrev fUnKind : TFld := ⟨0, 0, 3⟩
abbrev fUnSpare : TFld := ⟨0, 8, 1⟩
abbrev fUnPort : TFld := ⟨0, 16, 6⟩
abbrev fUnExpect : TFld := ⟨3, 0, 16⟩
abbrev fUnSuspect : TFld := ⟨3, 16, 8⟩
abbrev fUnDead : TFld := ⟨3, 24, 8⟩

abbrev uUNKNOWN : Nat := 0
abbrev uALIVE : Nat := 1
abbrev uSUSPECT : Nat := 2
abbrev uDEAD : Nat := 3
abbrev uFENCED : Nat := 4
abbrev uRETIRED : Nat := 5

/-- Counters of USTAT by slot. -/
abbrev usSeen : Nat := 0
abbrev usFenced : Nat := 1

def Chip.unit (c : Chip) (u : Nat) : UnitRt := lookupD {} c.units u
def Chip.setUnit (c : Chip) (u : Nat) (x : UnitRt) : Chip := { c with units := store {} c.units u x }
def Chip.un (c : Chip) (u : Nat) (f : TFld) : Nat := c.tget pUNITS 0 u f

/-- The key that the words of an entry spell: kind, port, key. -/
def unitKeyOf (w : Nat → Word) : Nat × Nat × Nat :=
  let k := (w 1).toNat + 2 ^ 32 * (w 2).toNat
  match bitsAt (w 0) 0 3 with
  | 1 => (1, 0, k % 2 ^ 48)
  | 2 => (2, 0, k)
  | 3 => (3, bitsAt (w 0) 16 6, k % 256)
  | 4 => (4, bitsAt (w 0) 16 6, k % 16)
  | n => (n, 0, k)

/-- The words of an entry's key: the kind and port, and the key itself. -/
def Chip.unitKey (c : Chip) (u : Nat) : Nat × Nat × Nat :=
  unitKeyOf (c.tword pUNITS 0 u)

/-- The entries that bind a unit. -/
def Chip.validUnits (c : Chip) : List Nat := (tblIndices c.tblA pUNITS 0).filter fun u => decide (c.un u fUnKind ≠ 0)

/-- The entry with a key. -/
def Chip.unitWith (c : Chip) (k : Nat × Nat × Nat) : Option Nat := c.validUnits.find? fun u => decide (c.unitKey u = k)

/-! ## The claim map (R205) -/

def Chip.claim (c : Chip) (channel sa : Nat) : Option Nat := lookupD none c.claims (channel * 256 + sa)
def Chip.setClaim (c : Chip) (channel sa : Nat) (n : Option Nat) : Chip := { c with claims := store none c.claims (channel * 256 + sa) n }

/-- A NAME's addresses on a channel removed. -/
def Chip.unclaim (c : Chip) (channel name : Nat) : Chip :=
  { c with claims := c.claims.filter fun (e : Nat × Option Nat) => decide (e.1 / 256 ≠ channel ∨ e.2 ≠ some name) }

/-- The entry of a NAME fenced or retired; the entry of a NAME live. -/
def Chip.nameFenced (c : Chip) (name : Nat) : Bool :=
  match c.unitWith (2, 0, name) with | some u => decide ((c.unit u).state = uFENCED ∨ (c.unit u).state = uRETIRED) | none => false
def Chip.nameInFenced (c : Chip) (name : Nat) : Bool :=
  match c.unitWith (2, 0, name) with | some u => decide ((c.unit u).state = uFENCED) | none => false
def Chip.nameLive (c : Chip) (name : Nat) : Bool :=
  match c.unitWith (2, 0, name) with | some u => decide ((c.unit u).state < uFENCED) | none => false

/-- An address claim reaches an ingress lookup on a CAN channel (R205). -/
def Chip.learnClaim (c : Chip) (channel sa name : Nat) : Chip :=
  if sa = 254 then c.unclaim channel name
  else match c.claim channel sa with
    | none => (c.unclaim channel name).setClaim channel sa (some name)
    | some other =>
      if other = name then c
      else
        let c := if (c.nameInFenced name ∧ c.nameLive other) ∨ (c.nameInFenced other ∧ c.nameLive name) then
            (c.count pUNITS K.UNITS_CLAIM_CONFLICT).raise pUNITS E.UNITS_CLAIM_CONFLICT
          else c
        if name < other then (c.unclaim channel name).setClaim channel sa (some name) else c

/-! ## Fencing (R204) -/

/-- The keys that a frame carries, lowest kind first: an Ethernet frame its source MAC and PLCA node, a CAN message the NAME
behind its address (a claim its own NAME) and its address on its channel. -/
def Chip.unitKeys (c : Chip) (port : Nat) (bytes : List Byte) (msg : Option Msg) (node : Option Nat) : List (Nat × Nat × Nat) :=
  match msg with
  | some m =>
    if isJ1939 m then
      let name := match claimName m with | some n => some n | none => c.claim (port - 32) (jSa m.id)
      (match name with | some n => [(2, 0, n)] | none => []) ++ [(3, port, jSa m.id)]
    else []
  | none => [(1, 0, smacOf bytes)] ++ (match node with | some n => [(4, port, n)] | none => [])

/-- What fencing finds: refused by entries, or passed with those that the frame's keys match, the one that K0 names first. -/
inductive Fence where
  | fenced (units : List Nat)
  | pass (units : List Nat)
  deriving DecidableEq, Repr

def Chip.fence (c : Chip) (keys : List (Nat × Nat × Nat)) : Fence :=
  if ¬ c.ready pUNITS then .pass []
  else
    let us := keys.filterMap c.unitWith
    let bad := us.filter fun u => decide (uFENCED ≤ (c.unit u).state)
    if bad.isEmpty then .pass us else .fenced bad

/-- What a refusal by fencing counts (R204, R206); the port's own counter is the caller's. -/
def Chip.countFenced (c : Chip) (us : List Nat) (claim : Bool) : Chip :=
  let c := c.count pUNITS K.UNITS_FENCED_DROP
  let c := if claim then c.count pUNITS K.UNITS_CLAIM_FENCED else c
  us.foldl (fun c u =>
    let c := c.tcount pUNITS 1 u usFenced
    let x := c.unit u
    if x.state = uFENCED ∧ ¬ x.returned then
      ((c.setUnit u { x with returned := true }).count pUNITS K.UNITS_UNIT_RETURNED).raise pUNITS E.UNITS_UNIT_RETURNED
    else c) c

/-- A frame of these units ends good (R204): each one's LAST_SEEN and SEEN_FRAMES. Its liveness waits for firmware's scan (R206). -/
def Chip.unitSeen (c : Chip) (us : List Nat) (stamp : Nat) : Chip :=
  us.foldl (fun (c : Chip) u =>
    (c.tcount pUNITS 1 u usSeen).setUnit u { c.unit u with lastSeen := stamp, seenAt := c.cycles, fresh := true }) c

/-- The liveness scan of firmware (R206): what has been seen since the last scan is ALIVE, what has been quiet for its time SUSPECT or
DEAD. -/
def Chip.livenessScan (c : Chip) : Chip :=
  if ¬ c.fwRuns ∨ ¬ c.ready pUNITS then c
  else c.validUnits.foldl (fun c u =>
    let x := c.unit u
    let quiet := c.cycles - x.seenAt
    let limit := fun (f : TFld) => c.un u f * msCycles (c.un u fUnExpect)
    if x.fresh ∧ x.state < uFENCED then
      let c := c.setUnit u { x with state := uALIVE, fresh := false }
      if x.state = uDEAD then c.raise pUNITS E.UNITS_UNIT_REVIVED else c
    else if x.state = uALIVE ∧ limit fUnSuspect ≤ quiet then (c.setUnit u { x with state := uSUSPECT }).raise pUNITS E.UNITS_UNIT_SUSPECT
    else if x.state = uSUSPECT ∧ limit fUnDead ≤ quiet then
      ((c.setUnit u { x with state := uDEAD }).count pUNITS K.UNITS_UNIT_DEAD).raise pUNITS E.UNITS_UNIT_DEAD
    else c) c

/-! ## Transport sessions (R199 to R203) -/

def Chip.sess (c : Chip) (i : Nat) : Sess := lookupD {} c.sessions i
def Chip.setSess (c : Chip) (i : Nat) (x : Sess) : Chip := { c with sessions := store {} c.sessions i x }

/-- `SESSION_STATUS` open sessions. -/
def Chip.openSessions (c : Chip) : Nat := (c.sessions.filter fun (e : Nat × Sess) => decide (e.2.state = 1)).length

/-- The session with an identity (R199). -/
def Chip.sessWith (c : Chip) (port sa da : Nat) (etp : Bool) : Option Nat :=
  (c.sessions.find? fun (e : Nat × Sess) => decide (e.2.state ≠ 0 ∧ e.2.port = port ∧ e.2.sa = sa ∧ e.2.da = da ∧ e.2.etp = etp)).map fun e => e.1

/-- The packets of a session's message. -/
def Sess.total (x : Sess) : Nat := (x.size + 6) / 7

/-- An abort of R203. -/
def abortMsg (etp : Bool) (sa da reason pgn : Nat) : Msg :=
  { kind := .can, ide := true, id := 7 * 2 ^ 26 + (if etp then pfETPCM else pfTPCM) * 65536 + da * 256 + sa
    data := [0xFF, BitVec.ofNat 8 reason, 0xFF, 0xFF, 0xFF] ++ leBytes 3 pgn }

/-- An abort queued on each CAN channel of a mask that takes frames (R203). -/
def Chip.sendAbort (c : Chip) (channels : Nat) (m : Msg) : Chip :=
  (bitList channels 16).foldl (fun c n =>
    if c.canTakes n then (c.setCan n { c.canRt n with aborts := (c.canRt n).aborts ++ [{ msg := m, at' := c.cycles }] }).count pBRIDLE K.BRIDLE_TP_ABORT_SENT else c) c

/-- The CAN channels at the originator's end of a session, and at the destination's. -/
def Sess.origEnd (x : Sess) : Nat := if x.near then 2 ^ (x.port - 32) else x.far
def Sess.destEnd (x : Sess) : Nat := if x.near then x.far else 2 ^ (x.port - 32)

/-- A session is cut (R201, R203): aborts, but for a BAM and for the cuts of REPLACE and REINSTATE. -/
def Chip.cutSess (c : Chip) (i reason : Nat) (aborts : Bool) : Chip :=
  let x := c.sess i
  let c := (c.setSess i { x with state := 2, reason := reason, at' := c.cycles, stamp := c.stamp }).count pBRIDLE K.BRIDLE_TP_CUT
  let c := c.raise pBRIDLE E.BRIDLE_TP_CUT
  if x.bam ∨ ¬ aborts then c
  else
    let c := if c.is pBRIDLE F.BRIDLE_TP_CFG1_ABORT_DST_EN then c.sendAbort x.destEnd (abortMsg x.etp x.sa x.da reason x.pgn) else c
    if c.is pBRIDLE F.BRIDLE_TP_CFG1_ABORT_SRC_EN then c.sendAbort x.origEnd (abortMsg x.etp x.da x.sa reason x.pgn) else c

abbrev rsBadSeq : Nat := 7
abbrev rsDuplicate : Nat := 8

def Chip.sizeReason (c : Chip) : Nat := c.get pBRIDLE F.BRIDLE_TP_CFG1_SIZE_REASON

/-- A frame of no session (R201). -/
def Chip.tpDrop (c : Chip) : Chip × Bool := (c.count pBRIDLE K.BRIDLE_TP_DROP, false)

/-- A frame of a CUT session (R201), whose time until it is freed starts anew (R202). -/
def Chip.tpCutDrop (c : Chip) (i : Nat) : Chip × Bool := (c.setSess i { c.sess i with at' := c.cycles, stamp := c.stamp }).tpDrop

/-- The session takes note of a frame that passes. -/
def Chip.passSess (c : Chip) (i : Nat) (x : Sess) : Chip × Bool := (c.setSess i { x with stamp := c.stamp, at' := c.cycles }, true)

/-- The lowest free session. -/
def Chip.freeSess (c : Chip) : Option Nat := (List.range 512).find? fun i => decide ((c.sess i).state = 0)

/-- No session is free (R201). -/
def Chip.tpFull (c : Chip) (x : Sess) : Chip :=
  let c := (c.count pBRIDLE K.BRIDLE_TP_FULL).raise pBRIDLE E.BRIDLE_TP_FULL
  if c.is pBRIDLE F.BRIDLE_TP_CFG1_ABORT_SRC_EN ∧ ¬ x.bam then c.sendAbort x.origEnd (abortMsg x.etp x.da x.sa 1 x.pgn) else c

/-- The size that opens a session is outside its protocol's range or the limit of the rules, or a BAM is not to everyone (R201). -/
def Sess.badSize (x : Sess) (maxBytes : Nat) : Bool :=
  let lo := if x.etp then 1786 else 9
  let hi := if x.etp then 117440505 else 1785
  decide (x.size < lo) || decide (hi < x.size) || decide (maxBytes < x.size) || (x.bam && (x.etp || decide (x.da ≠ 0xFF)))

/-- A session placed at a free index. -/
def Chip.putSess (c : Chip) (i : Nat) (x : Sess) : Chip :=
  let c := c.setSess i { x with state := 1, stamp := c.stamp, at' := c.cycles }
  let n := c.openSessions
  if c.get pBRIDLE F.BRIDLE_SESSION_STATUS_MAX < n then c.put pBRIDLE F.BRIDLE_SESSION_STATUS_MAX n else c

/-- RTS or BAM (R201): `x` is the session that it opens, in place of one with its identity. -/
def Chip.tpOpen (c : Chip) (x : Sess) (maxBytes : Nat) : Chip × Bool :=
  let c := match c.sessWith x.port x.sa x.da x.etp with | some i => c.setSess i {} | none => c
  match c.freeSess with
  | none => (c.tpFull x, false)
  | some i =>
    let c := c.putSess i x
    if x.badSize maxBytes then (c.cutSess i c.sizeReason true, false) else (c, true)

/-- CTS (R201): its next packet must lie within the message. -/
def Chip.tpCts (c : Chip) (i count next : Nat) : Chip × Bool :=
  let x := c.sess i
  if count = 0 then c.passSess i { x with phase := 2, cnt := 0, ctsCnt := 0 }
  else if next = 0 ∨ x.total < next then (c.cutSess i rsBadSeq true, false)
  else if x.etp then c.passSess i { x with ctsLo := next, ctsCnt := count, cnt := 0, seen := [], phase := 0 }
  else c.passSess i { x with lo := next, cnt := count, ctsLo := next, ctsCnt := count, seen := [], phase := 0 }

/-- DPO (R201): its packets must lie within the message and within the last CTS. -/
def Chip.tpDpo (c : Chip) (i count offset : Nat) : Chip × Bool :=
  let x := c.sess i
  if x.total < offset + count ∨ offset + 1 < x.ctsLo ∨ x.ctsLo + x.ctsCnt < offset + 1 + count ∨ x.ctsCnt = 0 then (c.cutSess i rsBadSeq true, false)
  else (c.setSess i { x with dpo := offset, lo := 1, cnt := count, seen := [], phase := 0, stamp := c.stamp }, true)

/-- DT (R201). -/
def Chip.tpDt (c : Chip) (i seq : Nat) : Chip × Bool :=
  let x := c.sess i
  let inGrant := if x.bam then decide (seq = x.fwd + 1) else decide (x.lo ≤ seq ∧ seq < x.lo + x.cnt)
  if ¬ inGrant then (c.cutSess i rsBadSeq true, false)
  else if x.seen.contains seq ∧ ¬ x.bam then (c.cutSess i rsDuplicate true, false)
  else if x.total ≤ x.fwd then (c.cutSess i c.sizeReason true, false)
  else
    let seen := if x.bam then [] else seq :: x.seen
    let last := !x.bam && decide (x.cnt ≤ seen.length)
    c.passSess i { x with fwd := x.fwd + 1, seen := seen, phase := if last then 1 else 0 }

/-- Transport tracking of a CAN message in a lookup on a CAN port (R199 to R201): may it pass? `maxBytes` is given when the
lookup's rules set TP_TRACK; `ingress` says which lookup it is, `far` the CAN channels at the other end of the crossing. -/
def Chip.tpTrack (c : Chip) (port : Nat) (m : Msg) (maxBytes : Option Nat) (ingress : Bool) (far : Nat) : Chip × Bool :=
  if ¬ isTp m then (c, true)
  else
    let etp := decide (jPf m.id = pfETPCM ∨ jPf m.id = pfETPDT)
    let dt := decide (jPf m.id = pfTPDT ∨ jPf m.id = pfETPDT)
    let sa := jSa m.id
    let da := jDa m.id
    let ctl := byteAt m.data 0
    let fwdSess := c.sessWith port sa da etp
    let revSess := c.sessWith port da sa etp
    let cut := fun (o : Option Nat) => match o with | some i => decide ((c.sess i).state = 2) | none => false
    if dt then
      match maxBytes with
      | none => (c, true)
      | some _ =>
        match fwdSess with
        | none => c.tpDrop
        | some i => if cut fwdSess then c.tpCutDrop i else c.tpDt i ctl
    else
      let pgn := leAt m.data 5 3
      let opening : Option Sess :=
        if ¬ etp ∧ ctl = 16 then some { etp := false, bam := false, port := port, sa := sa, da := da, pgn := pgn, size := leAt m.data 1 2, near := ingress, far := far, phase := 1 }
        else if ctl = 32 then some { etp := etp, bam := true, port := port, sa := sa, da := da, pgn := pgn, size := leAt m.data 1 2, near := ingress, far := far, phase := 0 }
        else if etp ∧ ctl = 20 then some { etp := true, bam := false, port := port, sa := sa, da := da, pgn := pgn, size := leAt m.data 1 4, near := ingress, far := far, phase := 1 }
        else none
      match opening, maxBytes with
      | some x, some mx => c.tpOpen x mx
      | some _, none => (c, true)
      | none, _ =>
        if ctl = 255 then
          match fwdSess, revSess with
          | some i, _ | none, some i => if (c.sess i).state = 2 then c.tpCutDrop i else (c.setSess i {}, true)
          | none, none => (c, true)
        else if ctl = 22 ∧ etp ∧ maxBytes.isSome then
          match fwdSess with
          | some i => if cut fwdSess then c.tpCutDrop i else c.tpDpo i (byteAt m.data 1) (leAt m.data 2 3)
          | none => (c, true)
        else match revSess with
          | none => (c, true)
          | some i =>
            if cut revSess then c.tpCutDrop i
            else if ¬ etp ∧ ctl = 17 then c.tpCts i (byteAt m.data 1) (byteAt m.data 2)
            else if etp ∧ ctl = 21 then c.tpCts i (byteAt m.data 1) (leAt m.data 2 3)
            else if ctl = (if etp then 23 else 19) then (c.setSess i {}, true)
            else (c, true)

/-- A session's timer (R202): `phase` says which, `limit` in ms. -/
def Chip.sessExpire (c : Chip) (i phase limit : Nat) : Chip :=
  let x := c.sess i
  if x.at' + msCycles limit ≤ c.cycles then
    if x.state = 1 ∧ x.phase = phase then (c.setSess i {}).count pBRIDLE K.BRIDLE_TP_TIMEOUT
    else if x.state = 2 ∧ phase = 0 then c.setSess i {}
    else c
  else c

/-- Every open session of an address on a channel cut, without aborts (R207). -/
def Chip.cutAddress (c : Chip) (port sa : Nat) : Chip :=
  (c.sessions.filter fun (e : Nat × Sess) => decide (e.2.state = 1 ∧ e.2.port = port ∧ (e.2.sa = sa ∨ e.2.da = sa))).foldl (fun c e => c.cutSess e.1 0xFE false) c

/-- The channels and addresses behind a unit's key (R207). -/
def Chip.keyAddresses (c : Chip) (k : Nat × Nat × Nat) : List (Nat × Nat) :=
  match k with
  | (2, _, name) => (c.claims.filter fun (e : Nat × Option Nat) => decide (e.2 = some name)).map fun e => (32 + e.1 / 256, e.1 % 256)
  | (3, port, sa) => [(port, sa)]
  | _ => []

/-! ## Unit commands (R206 to R208) -/

/-- `UNIT_CMD_STATUS.RESULT`. -/
abbrev ucOK : Nat := 0
abbrev ucSTATE : Nat := 1
abbrev ucKIND : Nat := 2
abbrev ucSAMEKEY : Nat := 3
abbrev ucNOTSOURCE : Nat := 4
abbrev ucRANGE : Nat := 5
abbrev ucNOTSPARE : Nat := 6
abbrev ucBUSY : Nat := 7

/-- The keys, LAST_SEEN values and bindings of two entries exchanged (R207): the key words, and what was seen of each. -/
def Chip.swapKeys (c : Chip) (u v : Nat) : Chip :=
  let ku := c.unitKey u
  let kv := c.unitKey v
  let c := (c.keyAddresses ku ++ c.keyAddresses kv).foldl (fun c a => c.cutAddress a.1 a.2) c
  let wu := fun w => c.tword pUNITS 0 u w
  let wv := fun w => c.tword pUNITS 0 v w
  let pu := c.un u fUnPort
  let pv := c.un v fUnPort
  let c := [1, 2].foldl (fun c w => (c.setTword pUNITS 0 u w (wv w)).setTword pUNITS 0 v w (wu w)) c
  let c := (c.tput pUNITS 0 u fUnPort pv).tput pUNITS 0 v fUnPort pu
  let xu := c.unit u
  let xv := c.unit v
  (c.setUnit u { xu with lastSeen := xv.lastSeen, seenAt := xv.seenAt, fresh := false }).setUnit v
    { xv with lastSeen := xu.lastSeen, seenAt := xu.seenAt, fresh := false }

/-- REPLACE of U by V (R206, R207). -/
def Chip.unitReplace (c : Chip) (u v : Nat) (force : Bool) : Chip × Nat :=
  let su := (c.unit u).state
  let sv := (c.unit v).state
  if c.un u fUnKind = 0 ∨ c.un v fUnKind = 0 then (c, ucKIND)
  else if ¬ (su = uDEAD ∨ (force ∧ (su = uALIVE ∨ su = uSUSPECT))) then (c, ucSTATE)
  else if c.un v fUnSpare = 0 then (c, ucNOTSPARE)
  else if ¬ (sv = uUNKNOWN ∨ sv = uALIVE) then (c, ucSTATE)
  else if c.un u fUnKind ≠ c.un v fUnKind then (c, ucKIND)
  else if c.unitKey u = c.unitKey v then (c, ucSAMEKEY)
  else
    let c := c.swapKeys u v
    let c := c.setUnit u { c.unit u with state := sv, incarnation := ((c.unit u).incarnation + 1) % 65536, seenAt := c.cycles, peer := some v }
    let c := c.setUnit v { c.unit v with state := uFENCED, peer := some u, returned := false }
    (((c.tput pUNITS 0 v fUnSpare 0).count pUNITS K.UNITS_UNIT_REPLACED).raise pUNITS E.UNITS_UNIT_REPLACED, ucOK)

/-- REINSTATE of U with its fenced peer (R206, R207). -/
def Chip.unitReinstate (c : Chip) (u : Nat) : Chip × Nat :=
  let su := (c.unit u).state
  if c.un u fUnKind = 0 then (c, ucKIND)
  else if uDEAD < su then (c, ucSTATE)
  else match (c.unit u).peer with
    | none => (c, ucSTATE)
    | some v =>
      if (c.unit v).state ≠ uFENCED then (c, ucSTATE)
      else
        let back := (c.unit v).returned
        let c := c.swapKeys u v
        let c := c.setUnit u { c.unit u with state := if back then uALIVE else uUNKNOWN, incarnation := ((c.unit u).incarnation + 1) % 65536, seenAt := c.cycles }
        let c := c.setUnit v { c.unit v with state := uFENCED, returned := false, peer := some u }
        ((c.count pUNITS K.UNITS_UNIT_REPLACED).raise pUNITS E.UNITS_UNIT_REPLACED, ucOK)

/-- RELEASE (R206): the key is cleared, the timing fields and the counters are kept. -/
def Chip.unitRelease (c : Chip) (u : Nat) : Chip × Nat :=
  let x := c.unit u
  if x.state < uFENCED then (c, ucSTATE)
  else
    let c := [0, 1, 2].foldl (fun c w => c.setTword pUNITS 0 u w 0) c
    (c.setUnit u { incarnation := x.incarnation, lastSeen := x.lastSeen, seenAt := x.seenAt }, ucOK)

/-- A liveness command takes an entry from a state to another (R206); to the state that it has already it moves nothing. -/
def livenessMove (st st' : Nat) : Bool :=
  decide (st = st') || (match st' with
    | 1 => decide (st < uFENCED)
    | 2 => decide (st = uALIVE)
    | _ => decide (st = uSUSPECT))

/-- A liveness command of firmware (R206, R208), with what firmware's scan reports of such a move. KIND is judged before the command's
source (DEDUCED: the rule excepts two commands only; log entry 144). -/
def Chip.unitSet (c : Chip) (u st : Nat) (req : Requester) : Chip × Nat :=
  let x := c.unit u
  if c.un u fUnKind = 0 then (c, ucKIND)
  else if hostSide req then (c, ucNOTSOURCE)
  else if uFENCED ≤ x.state ∨ ¬ livenessMove x.state st then (c, ucSTATE)
  else
    let y := { x with state := st, fresh := false }
    let c := c.setUnit u (if st = uDEAD then y else { y with seenAt := c.cycles })
    (if x.state = st then c
     else if st = uSUSPECT then c.raise pUNITS E.UNITS_UNIT_SUSPECT
     else if st = uDEAD then (c.count pUNITS K.UNITS_UNIT_DEAD).raise pUNITS E.UNITS_UNIT_DEAD
     else if x.state = uDEAD then c.raise pUNITS E.UNITS_UNIT_REVIVED else c, ucOK)

/-- A unit command executed (R206, R208). -/
def Chip.unitExec (c : Chip) (v : Word) (req : Requester) : Chip × Nat :=
  let u := bitsAt v 0 10
  let o := bitsAt v 16 10
  match bitsAt v 28 4 with
  | 1 => c.unitReplace u o (v.toNat.testBit 27)
  | 2 => c.unitReinstate u
  | 3 =>
    if c.un u fUnKind = 0 then (c, ucKIND)
    else if (c.unit u).state = uFENCED then (c, ucSTATE)
    else (c.setUnit u { c.unit u with state := uRETIRED, returned := false }, ucOK)
  | 4 => c.unitRelease u
  | 5 => if (c.unit u).state = uFENCED then (c.setUnit u { c.unit u with returned := false }, ucOK) else (c, ucSTATE)
  | 8 => c.unitSet u uALIVE req
  | 9 => c.unitSet u uSUSPECT req
  | 10 => c.unitSet u uDEAD req
  | _ => (c, ucRANGE)

/-- A write of `UNIT_CMD` (R208): it executes within 2 us, or finds the unit busy. -/
def Chip.unitStart (c : Chip) (v : Word) (req : Requester) : Chip :=
  if c.unitCmd.isSome then
    (c.put pUNITS F.UNITS_UNIT_CMD_STATUS_RESULT ucBUSY).put pUNITS F.UNITS_UNIT_CMD_STATUS_SEQ (c.get pUNITS F.UNITS_UNIT_CMD_STATUS_SEQ + 1)
  else { c.put pUNITS F.UNITS_UNIT_CMD_STATUS_BUSY 1 with unitCmd := some (v, req) }

/-- The unit command has executed (R206, R208). -/
def Chip.unitDone (c : Chip) : Chip :=
  match c.unitCmd with
  | none => c
  | some (v, req) =>
    let (c, r) := { c with unitCmd := none }.unitExec v req
    let c := (c.put pUNITS F.UNITS_UNIT_CMD_STATUS_BUSY 0).put pUNITS F.UNITS_UNIT_CMD_STATUS_RESULT r
    c.put pUNITS F.UNITS_UNIT_CMD_STATUS_SEQ (c.get pUNITS F.UNITS_UNIT_CMD_STATUS_SEQ + 1)

/-! ## What the UNITS page shows (R211) -/

/-- The next sequence number that a session takes: of a BAM the next packet's, of another the first of its grant not yet forwarded; an
unused entry shows 0. -/
def Sess.next (x : Sess) : Nat :=
  if x.state = 0 then 0
  else if x.bam then x.fwd + 1
  else ((List.range x.cnt).find? fun k => !x.seen.contains (x.lo + k)).getD x.cnt + x.lo

/-- An entry of SESSION (R209). -/
def Chip.sessWord (c : Chip) (i word : Nat) : Word :=
  let x := c.sess i
  BitVec.ofNat 32 (match word with
    | 0 => x.state + 4 * x.etp.toNat + 8 * x.bam.toNat + 16 * x.port + 65536 * x.sa + 2 ^ 24 * x.da
    | 1 => x.pgn
    | 2 => x.size
    | 3 => x.fwd
    | 4 => x.next % 256 + 256 * (x.cnt % 256) + 65536 * x.reason
    | 5 => x.dpo
    | 6 => x.stamp
    | _ => 0)

def Chip.unitsIn (c : Chip) (st : Nat) : Nat := (c.units.filter fun (e : Nat × UnitRt) => decide (e.2.state = st)).length

/-- An entry of USTAT but for its counters. -/
def Chip.ustatWord (c : Chip) (u word : Nat) : Word :=
  let x := c.unit u
  match word with
  | 0 => BitVec.ofNat 32 (x.state + 8 * x.returned.toNat + 65536 * x.peer.getD 0 + 2 ^ 31 * x.peer.isSome.toNat)
  | 1 => BitVec.ofNat 32 x.incarnation
  | 2 => BitVec.ofNat 32 x.lastSeen
  | 3 => match c.keyAddresses (c.unitKey u) with
    | (port, sa) :: _ => if c.un u fUnKind = 2 then BitVec.ofNat 32 (sa + 256 * port) else 0
    | [] => 0
  | _ => 0

/-- An entry of CLAIM. -/
def Chip.claimWord (c : Chip) (i word : Nat) : Word :=
  match lookupD none c.claims i with
  | none => 0
  | some n =>
    match word with
    | 0 => BitVec.ofNat 32 n
    | 1 => BitVec.ofNat 32 (n / 2 ^ 32)
    | 2 => match c.unitWith (2, 0, n) with
      | some u => BitVec.ofNat 32 (u + 65536 + 2 ^ 31)
      | none => BitVec.ofNat 32 (2 ^ 31)
    | _ => 0

/-- The limits of a UNIT entry that a WRITE brings (R211). -/
def unitOk (w : Nat → Word) : Bool :=
  let kind := bitsAt (w 0) 0 3
  let port := bitsAt (w 0) 16 6
  decide (kind ≤ 4) && (decide (kind ≠ 3) || decide (32 ≤ port ∧ port < 48)) && (decide (kind ≠ 4) || decide (20 ≤ port ∧ port < 28))
    && (decide (kind = 0) || decide (bitsAt (w 3) 0 16 ≠ 0 ∧ bitsAt (w 3) 16 8 ≠ 0 ∧ bitsAt (w 3) 16 8 < bitsAt (w 3) 24 8))

/-! ## Meanings -/

/-- A write of `UNIT_CMD` with its fields (R211). -/
def Chip.unitCmdWrite (c : Chip) (req : Requester) (cmd unit other : Nat) (force : Bool) : Chip :=
  let v : Word := BitVec.ofNat 32 (unit % 1024 + 65536 * (other % 1024) + 2 ^ 27 * force.toNat + 2 ^ 28 * cmd)
  c.command req pUNITS 0x140 v fun c => c.unitStart v req

/-- REPLACE (R207). -/
def execReplace (dt : Nat) (req : Requester) (unit other : Nat) (force : Bool) (s : State) : Host.Outcome State Fault Refusal :=
  .next (s.run dt fun c => c.unitCmdWrite req 1 unit other force)

/-- REINSTATE (R207). -/
def execReinstate (dt : Nat) (req : Requester) (unit : Nat) (s : State) : Host.Outcome State Fault Refusal :=
  .next (s.run dt fun c => c.unitCmdWrite req 2 unit 0 false)

/-- RETIRE (R206). -/
def execRetire (dt : Nat) (req : Requester) (unit : Nat) (s : State) : Host.Outcome State Fault Refusal :=
  .next (s.run dt fun c => c.unitCmdWrite req 3 unit 0 false)

/-- RELEASE (R206). -/
def execRelease (dt : Nat) (req : Requester) (unit : Nat) (s : State) : Host.Outcome State Fault Refusal :=
  .next (s.run dt fun c => c.unitCmdWrite req 4 unit 0 false)

/-- ACK_RETURNED (R206). -/
def execAckReturned (dt : Nat) (req : Requester) (unit : Nat) (s : State) : Host.Outcome State Fault Refusal :=
  .next (s.run dt fun c => c.unitCmdWrite req 5 unit 0 false)

/-- SET_ALIVE (R206, R208). -/
def execSetAlive (dt : Nat) (req : Requester) (unit : Nat) (s : State) : Host.Outcome State Fault Refusal :=
  .next (s.run dt fun c => c.unitCmdWrite req 8 unit 0 false)

/-- SET_SUSPECT (R206, R208). -/
def execSetSuspect (dt : Nat) (req : Requester) (unit : Nat) (s : State) : Host.Outcome State Fault Refusal :=
  .next (s.run dt fun c => c.unitCmdWrite req 9 unit 0 false)

/-- SET_DEAD (R206, R208). -/
def execSetDead (dt : Nat) (req : Requester) (unit : Nat) (s : State) : Host.Outcome State Fault Refusal :=
  .next (s.run dt fun c => c.unitCmdWrite req 10 unit 0 false)

/-- LIVENESS_SCAN (R206). -/
def execLivenessScan (dt : Nat) (s : State) : Host.Outcome State Fault Refusal := .next (s.run dt fun c => c.livenessScan)

/-- TP_DT_GAP (R202). -/
def execTpDtGap (dt session : Nat) (s : State) : Host.Outcome State Fault Refusal :=
  .next (s.run dt fun c => c.sessExpire session 0 (c.get pBRIDLE F.BRIDLE_TP_CFG0_DT_GAP_MS))

/-- TP_CTS_WAIT (R202). -/
def execTpCtsWait (dt session : Nat) (s : State) : Host.Outcome State Fault Refusal :=
  .next (s.run dt fun c => c.sessExpire session 1 (c.get pBRIDLE F.BRIDLE_TP_CFG0_CTS_WAIT_MS))

/-- TP_HOLD (R202). -/
def execTpHold (dt session : Nat) (s : State) : Host.Outcome State Fault Refusal :=
  .next (s.run dt fun c => c.sessExpire session 2 (c.get pBRIDLE F.BRIDLE_TP_CFG1_HOLD_MS))

/-- SESSION_CLR (R209). -/
def execSessionClr (dt : Nat) (req : Requester) (s : State) : Host.Outcome State Fault Refusal :=
  .next (s.run dt fun c => c.command req pBRIDLE 0x16C 1 fun c => c.put pBRIDLE F.BRIDLE_SESSION_STATUS_MAX 0)

end Sys2Proof.Machine
end

