-- ==== Sys2Proof/Machine/Bridle.lean ====
section
/-! DEFINITION. Bridle (R187 to R198, R209, R210): the key, stream identification, rules, policers, windows, rewrite, mirrors. -/
namespace Sys2Proof.Machine

open Sys2Proof

/-! ## Table fields (R209) -/

abbrev fRuValid : TFld := ⟨32, 0, 1⟩
abbrev fRuDir : TFld := ⟨32, 1, 1⟩
abbrev fRuProfile : TFld := ⟨32, 2, 4⟩
abbrev fRuResult : TFld := ⟨32, 6, 2⟩
abbrev fRuPolicer : TFld := ⟨33, 0, 11⟩
abbrev fRuPolice : TFld := ⟨33, 16, 1⟩
abbrev fRuWin : TFld := ⟨34, 0, 6⟩
abbrev fRuWinEn : TFld := ⟨34, 8, 1⟩
abbrev fRuTrack : TFld := ⟨34, 16, 1⟩
abbrev fRuClass : TFld := ⟨35, 0, 3⟩
abbrev fRuSetClass : TFld := ⟨35, 8, 1⟩
abbrev fRuMirror : TFld := ⟨36, 0, 2⟩
abbrev fRuMirrorEn : TFld := ⟨36, 8, 1⟩
abbrev fRuRewrite : TFld := ⟨37, 0, 8⟩
abbrev fRuRewriteEn : TFld := ⟨37, 8, 1⟩
abbrev fRuTpMax : TFld := ⟨38, 0, 27⟩
abbrev fPcIn : TFld := ⟨0, 0, 4⟩
abbrev fPcOut : TFld := ⟨0, 4, 4⟩
abbrev fPcInDef : TFld := ⟨0, 8, 1⟩
abbrev fPcOutDef : TFld := ⟨0, 9, 1⟩
abbrev fPcMethods : TFld := ⟨0, 16, 5⟩
abbrev fSiMethod : TFld := ⟨0, 0, 3⟩
abbrev fSiValid : TFld := ⟨0, 31, 1⟩
abbrev fSiExtra : TFld := ⟨3, 0, 16⟩
abbrev fSiProto : TFld := ⟨3, 16, 8⟩
abbrev fPoCir : TFld := ⟨0, 0, 24⟩
abbrev fPoCbs : TFld := ⟨1, 0, 24⟩
abbrev fPoEir : TFld := ⟨2, 0, 24⟩
abbrev fPoEbs : TFld := ⟨3, 0, 24⟩
abbrev fPoValid : TFld := ⟨4, 0, 1⟩
abbrev fPoMode : TFld := ⟨4, 1, 1⟩
abbrev fPoYellow : TFld := ⟨4, 2, 2⟩
abbrev fRwVid : TFld := ⟨0, 0, 12⟩
abbrev fRwPcp : TFld := ⟨0, 12, 3⟩
abbrev fRwDscp : TFld := ⟨0, 15, 6⟩
abbrev fRwValid : TFld := ⟨0, 31, 1⟩
abbrev fRwSetVid : TFld := ⟨2, 16, 1⟩
abbrev fRwSetPcp : TFld := ⟨2, 17, 1⟩
abbrev fRwSetDscp : TFld := ⟨2, 18, 1⟩
abbrev fRwSetDmac : TFld := ⟨2, 19, 1⟩

/-- Counter slots of RSTAT and PSTAT. -/
abbrev rtMatches : Nat := 0
abbrev rtBytes : Nat := 1
abbrev rtDrops : Nat := 2
abbrev rtWindow : Nat := 3
abbrev ptGreen : Nat := 0
abbrev ptYellow : Nat := 1
abbrev ptDropped : Nat := 2

/-- The field of MIRROR_CFGm. -/
def mirrorFld (f : Fld) (m : Nat) : Fld := { f with off := f.off + 4 * m }

/-! ## What a lookup sees (R187, R189) -/

/-- The subject of a lookup: an Ethernet frame, or a legacy message. -/
structure Subject where
  port : Nat
  /-- The ingress port or the origin legacy port (R189). -/
  peer : Nat
  egress : Bool := false
  bytes : List Byte := []
  msg : Option Msg := none
  cls : Nat := 0
  handle : Option Nat := none
  unit : Option Nat := none
  /-- The fabric ingress port, in whose triplets mirror copies are numbered; the ingress or start-of-frame stamp. -/
  inp : Nat := 31
  stamp : Nat := 0
  /-- The instant of that stamp on the monotonic counter and as local time (R146). -/
  seen : Nat := 0
  time : Nat := 0
  /-- Of a frame still arriving: its number (R103). The frame as received, where the lookup sees it changed (R198). -/
  part : Option Nat := none
  orig : Option (List Byte) := none
  /-- What the gateway received, where the lookup sees what it has made of it: its port, its legacy message or its frame (R198). -/
  source : Option (Nat × Option Msg × List Byte) := none
  deriving DecidableEq, Repr

/-- The frame's size as rules and policers count it (R192, R195): DMAC to FCS, or the data of a message; of a frame still arriving
what has arrived, the rest counts at its tail. -/
def Subject.size (x : Subject) : Nat :=
  match x.msg with | some m => m.data.length | none => x.bytes.length + (if x.part.isSome then 0 else 4)

/-- KIND of K0. -/
def Chip.kindOf (c : Chip) (x : Subject) : Nat :=
  match x.msg with
  | some m => match m.kind with
    | .can => if m.xl then 10 else if m.fdf then 9 else 8
    | .lin => 11
    | .uart => 12
  | none =>
    let t := (headers x.bytes).etype
    if t = etIPV4 then 1 else if t = etIPV6 then 2 else if t = etAVTP then 3 else if t = etPTP then 4
    else if t = c.get pTRING F.TRING_EHRUZ_CFG_ETYPE then 5 else 0

/-- The session of a TP frame, whichever side sent it. -/
def Chip.tpSession (c : Chip) (port : Nat) (m : Msg) : Option Sess :=
  let etp := decide (jPf m.id = pfETPCM ∨ jPf m.id = pfETPDT)
  match c.sessWith port (jSa m.id) (jDa m.id) etp with
  | some i => some (c.sess i)
  | none => (c.sessWith port (jDa m.id) (jSa m.id) etp).map fun i => c.sess i

/-- The NAME behind a CAN message: from the claim map of the channel that it came from (R190). -/
def Chip.nameOf (c : Chip) (x : Subject) : Option Nat :=
  match x.msg with
  | some m =>
    let port := if x.egress then x.peer else x.port
    if isJ1939 m ∧ 32 ≤ port then c.claim (port - 32) (jSa m.id) else none
  | none => none

/-- Six bytes from an index on, with 0 beyond the end; ABSENT when some lie there (R190). -/
def sixBytes (bs : List Byte) (start : Option Nat) (off : Nat) : Nat × Bool :=
  match start with
  | none => (0, true)
  | some s => (beAt bs (s + off) 6, decide (bs.length < s + off + 6))

/-- A field of an Ethernet frame, missing on a legacy message. -/
def ethField (x : Subject) (f : Headers → Option Nat) : Nat × Bool :=
  match x.msg with
  | some _ => (0, true)
  | none => match f (headers x.bytes) with | some v => (v, false) | none => (0, true)

/-- Some of a message's fields, missing on Ethernet. -/
def msgField (x : Subject) (f : Msg → Option Nat) : Nat × Bool :=
  match x.msg with
  | some m => match f m with | some v => (v, false) | none => (0, true)
  | none => (0, true)

/-- stream_id of an IEEE 1722 frame with sv set (log entry 30). -/
def streamId (bs : List Byte) : Option Nat :=
  let h := headers bs
  if h.etype = etAVTP ∧ (byteAt bs (h.l3 + 1)).testBit 7 then some (beAt bs (h.l3 + 4) 8) else none

/-- Type of the first ACF message of a frame. -/
def firstAcf (bs : List Byte) : Nat := match acfPayload bs with | some p => byteAt p 0 / 2 | none => 0

/-- The data length of a CAN message in the 11 bits that R190 gives it; they cannot hold the 2,048 bytes that CAN XL allows, of which the
spec says nothing (DESIGN CHOICE, log entry 124). -/
def xlLength (n : Nat) : Nat := if n < 2048 then n else (Config.xlLength).toNat

/-- An extractor's word and whether its field is missing (R190). -/
def Chip.extract (c : Chip) (x : Subject) (code off : Nat) : Nat × Bool :=
  let bs := x.bytes
  match code with
  | 0x00 => (0, false)
  | 0x01 => ethField x fun _ => some (dmacOf bs)
  | 0x02 => ethField x fun _ => some (smacOf bs)
  | 0x03 => ethField x fun h =>
    let t := h.tags.head?.getD 0
    let inner := match h.tags with | _ :: t2 :: _ => tciVid t2 * 2 ^ 32 + 2 ^ 44 | _ => 0
    some (tciVid t + 4096 * tciPcp t + 32768 * tciDei t + 65536 * h.etype + inner)
  | 0x04 => ethField x fun h => if h.etype = etIPV4 then (ipHead bs h).map fun p => beAt bs (h.l3 + 12) 4 + p.proto * 2 ^ 32 + p.dscp * 2 ^ 40 else none
  | 0x05 => ethField x fun h => if h.etype = etIPV4 then (ipHead bs h).map fun p => beAt bs (h.l3 + 16) 4 + p.proto * 2 ^ 32 + p.dscp * 2 ^ 40 else none
  | 0x06 => ethField x fun h => (ipHead bs h).map fun p =>
      beAt bs p.l4 2 + 65536 * beAt bs (p.l4 + 2) 2 + p.proto * 2 ^ 32 + p.dscp * 2 ^ 40 + p.frag.toNat * 2 ^ 46
  | 0x07 => ethField x fun _ => (streamId bs).map fun s => s % 2 ^ 48
  | 0x08 => ethField x fun h => (streamId bs).map fun s => s / 2 ^ 48 + 65536 * byteAt bs h.l3 + 2 ^ 24 * firstAcf bs
  | 0x09 => msgField x fun m => if m.kind = .can then
      some (m.id + 2 ^ 29 * m.ide.toNat + 2 ^ 30 * m.fdf.toNat + 2 ^ 31 * m.xl.toNat + 2 ^ 32 * xlLength m.data.length + 2 ^ 43 * m.rtr.toNat + 2 ^ 44 * m.brs.toNat)
      else none
  | 0x0A => msgField x fun m => if isJ1939 m then
      some (jSa m.id + 256 * jDa m.id + 65536 * jPgn m.id + 2 ^ 34 * jPrio m.id + 2 ^ 37 * (jPdu1 m.id).toNat) else none
  | 0x0B => match c.nameOf x with | some n => (n % 2 ^ 48, false) | none => (0, true)
  | 0x0C => match c.nameOf x with | some n => (n / 2 ^ 48 + 65536, false) | none => (0, false)
  | 0x0D => msgField x fun m => if m.kind = .lin then some (m.id % 64 + 64 * linParity m.id + 256 * m.data.length) else none
  | 0x0E => match x.unit with
    | some u => (u + 1024 * (c.unit u).incarnation + 2 ^ 26 * (c.unit u).state + 2 ^ 29, false)
    | none => (0, false)
  | 0x0F => msgField x fun m => if isTp m then
      let dt := decide (jPf m.id = pfTPDT ∨ jPf m.id = pfETPDT)
      let s := c.tpSession x.port m
      let pgn := if dt then (match s with | some y => y.pgn | none => 0) else leAt m.data 5 3
      let isOpen : Bool := match s with | some y => decide (y.state = 1) | none => false
      some (pgn % 2 ^ 18 + 2 ^ 18 * (decide (jPf m.id = pfETPCM ∨ jPf m.id = pfETPDT)).toNat + 2 ^ 19 * byteAt m.data 0 + 2 ^ 27 * isOpen.toNat)
      else none
  | 0x20 => if x.msg.isSome then (0, true) else sixBytes bs (some 0) off
  | 0x21 => if x.msg.isSome then (0, true) else sixBytes bs (some (headers bs).l3) off
  | 0x22 => if x.msg.isSome then (0, true) else sixBytes bs ((ipHead bs (headers bs)).map fun p => p.l4) off
  | 0x23 => match x.msg with
    | some m => sixBytes m.data (some 0) off
    | none => sixBytes bs (payloadAt bs (headers bs)) off
  | _ => (0, true)

/-- Codes that R190 assigns. -/
def extractorOk (code : Nat) : Bool := decide (code ≤ 0x0F) || decide (0x20 ≤ code ∧ code ≤ 0x23)

/-- Slot `k` (1 to 7) of a profile in a bank's word: its code and offset. -/
def slotOf (w : Word) (k : Nat) : Nat × Nat := (bitsAt w (16 * ((k - 1) % 2)) 6, bitsAt w (16 * ((k - 1) % 2) + 8) 8)

/-- K1 to K7 with their ABSENT marks. -/
def Chip.keyWords (c : Chip) (x : Subject) (profile : Nat) : List (Nat × Bool) :=
  (List.range 7).map fun k => let s := slotOf (c.tword pBRIDLE 1 profile (k / 2)) (k + 1); c.extract x s.1 s.2

/-- K0 (R189). -/
def Chip.meta (c : Chip) (x : Subject) (absent : Bool) : Nat :=
  let tagged : Bool := x.msg.isNone && !(headers x.bytes).tags.isEmpty
  let tp : Bool := match x.msg with | some m => isTp m | none => false
  x.port % 64 + 64 * (x.peer % 64) + 4096 * c.kindOf x + 65536 * tagged.toNat + 2 ^ 17 * x.egress.toNat + 2 ^ 18 * (x.cls % 8)
    + (match x.handle with | some h => 2 ^ 21 + 2 ^ 22 * h | none => 0)
    + (match x.unit with | some u => 2 ^ 34 * u + 2 ^ 44 | none => 0)
    + 2 ^ 45 * tp.toNat + 2 ^ 46 * absent.toNat

/-- The key K0 to K7 (R189). -/
def Chip.bridleKey (c : Chip) (x : Subject) (profile : Nat) : List Nat :=
  let ks := c.keyWords x profile
  c.meta x (ks.any fun k => k.2) :: ks.map fun k => k.1

/-- A byte extractor of a profile reaches beyond the bytes of a frame that have arrived: its lookup has to wait for them (R190). -/
def Chip.keyShort (c : Chip) (profile : Nat) (bs : List Byte) : Bool :=
  (List.range 7).any fun k =>
    let s := slotOf (c.tword pBRIDLE 1 profile (k / 2)) (k + 1)
    let start := match s.1 with
      | 0x20 => some 0
      | 0x21 => some (headers bs).l3
      | 0x22 => (ipHead bs (headers bs)).map fun p => p.l4
      | 0x23 => payloadAt bs (headers bs)
      | _ => none
    match start with | some o => decide (bs.length < o + s.2 + 6) | none => false

/-! ## Stream identification (R191) -/

def Chip.sid (c : Chip) (h : Nat) (f : TFld) : Nat := c.tget pBRIDLE 3 h f
def Chip.sidKey (c : Chip) (h : Nat) : Nat := (c.tword pBRIDLE 3 h 1).toNat + 2 ^ 32 * bitsAt (c.tword pBRIDLE 3 h 2) 0 16

/-- `IN_PORTS` holds a port. -/
def Chip.sidPort (c : Chip) (h port : Nat) : Bool :=
  if port < 32 then (c.tword pBRIDLE 3 h 4).toNat.testBit port else decide (port < 60) && (c.tword pBRIDLE 3 h 5).toNat.testBit (port - 32)

/-- The first entry of a method that holds a key and its further part. -/
def Chip.sidFind (c : Chip) (port method key : Nat) (extra : Nat → Bool) : Option Nat :=
  (tblIndices c.tblA pBRIDLE 3).find? fun h =>
    decide (c.sid h fSiValid = 1 ∧ c.sid h fSiMethod = method) && decide (c.sidKey h = key) && extra h && c.sidPort h port

/-- The handle of a frame or message at an ingress port; `vid` is classified under R85. -/
def Chip.identify (c : Chip) (port : Nat) (bytes : List Byte) (msg : Option Msg) (vid : Nat) : Option Nat :=
  if ¬ c.ready pBRIDLE then none else
  let on := fun (k : Nat) => (c.tget pBRIDLE 2 port fPcMethods).testBit k
  match msg with
  | some m => match m.kind with
    | .can => if on 4 then c.sidFind port 5 (m.id + 2 ^ 29 * m.ide.toNat) fun _ => true else none
    | .lin => if on 4 then c.sidFind port 6 (m.id % 64) fun _ => true else none
    | .uart => none
  | none =>
    let h := headers bytes
    let vidIs := fun (i : Nat) => decide (c.sid i fSiExtra = vid)
    let avtp := if on 0 then (match streamId bytes with
      | some s => c.sidFind port 4 (s % 2 ^ 48) fun i => decide (c.sid i fSiExtra = s / 2 ^ 48) | none => none) else none
    let ipv4 := if on 1 ∧ h.etype = etIPV4 then (match ipHead bytes h with
      | some p => c.sidFind port 3 (beAt bytes (h.l3 + 16) 4) fun i =>
          decide (c.sid i fSiExtra = beAt bytes (p.l4 + 2) 2 ∧ c.sid i fSiProto = p.proto)
      | none => none) else none
    let source := if on 2 then c.sidFind port 2 (smacOf bytes) vidIs else none
    let null := if on 3 then c.sidFind port 1 (dmacOf bytes) vidIs else none
    ((avtp.or ipv4).or source).or null

/-! ## Rules (R192, R193) -/

def Chip.rule (c : Chip) (r : Nat) (f : TFld) : Nat := c.tget pBRIDLE 0 r f

/-- VALUE or MASK of a rule for a key word. -/
def Chip.ruleWord (c : Chip) (r base k : Nat) : Nat :=
  (c.tword pBRIDLE 0 r (base + 2 * k)).toNat + 2 ^ 32 * bitsAt (c.tword pBRIDLE 0 r (base + 2 * k + 1)) 0 16

/-- A rule matches a key. -/
def Chip.ruleMatches (c : Chip) (r : Nat) (key : List Nat) : Bool :=
  (List.range 8).all fun k => decide ((key.getD k 0 ^^^ c.ruleWord r 0 k) &&& c.ruleWord r 16 k = 0)

/-- The rules taken, of at most `n` more, and the decision: PERMIT or DROP by the last rule, or none by a rule. -/
def Chip.walkRules (c : Chip) (key : List Nat) : List Nat → Nat → List Nat × Option Bool
  | [], _ => ([], none)
  | _, 0 => ([], none)
  | r :: rs, n + 1 =>
    if ¬ c.ruleMatches r key then Chip.walkRules c key rs (n + 1)
    else match c.rule r fRuResult with
      | 0 => ([r], some true)
      | 1 => ([r], some false)
      | _ => let (t, d) := Chip.walkRules c key rs n; (r :: t, d)

/-- What a lookup found. -/
structure Taken where
  rules : List Nat
  permit : Bool
  deriving DecidableEq, Repr

/-- A port's own counter of Bridle refusals: Ethernet, CAN, LIN and UART ports have one for each direction. -/
def Chip.countBridleDrop (c : Chip) (port : Nat) (egress : Bool) : Chip :=
  if port < 31 then c.count (pPORT port) (if egress then K.PORT_BRIDLE_DROP_OUT else K.PORT_BRIDLE_DROP_IN)
  else if port < 32 then c
  else if port < 48 then c.count (pCAN (port - 32)) (if egress then K.CAN_BRIDLE_DROP_OUT else K.CAN_BRIDLE_DROP_IN)
  else if port < 56 then c.count (pLIN (port - 48)) (if egress then K.LIN_BRIDLE_DROP_OUT else K.LIN_BRIDLE_DROP_IN)
  else if port < 60 then c.count (pUART (port - 56)) (if egress then K.UART_BRIDLE_DROP_OUT else K.UART_BRIDLE_DROP_IN)
  else c

/-- The rule match of a lookup, with what it counts (R192). -/
def Chip.matchRules (c : Chip) (x : Subject) : Chip × Taken :=
  let profile := c.tget pBRIDLE 2 x.port (if x.egress then fPcOut else fPcIn)
  let key := c.bridleKey x profile
  let rules := (tblIndices c.tblA pBRIDLE 0).filter fun r =>
    decide (c.rule r fRuValid = 1 ∧ c.rule r fRuDir = x.egress.toNat ∧ c.rule r fRuProfile = profile)
  let (taken, dec) := c.walkRules key rules 4
  let c := (c.perf (if x.egress then 0x201 else 0x200) 1).perf 0x202 (taken.length - 1)
  let c := if x.handle.isNone ∧ ¬ x.egress then c.perf 0x204 1 else c
  let c := taken.foldl (fun c r => (c.tcount pBRIDLE 6 r rtMatches).addTCnt pBRIDLE 6 r rtBytes x.size) c
  let total := if x.egress then K.BRIDLE_BRIDLE_DROP_OUT else K.BRIDLE_BRIDLE_DROP_IN
  match dec with
  | some true => (c, ⟨taken, true⟩)
  | some false =>
    let c := match taken.getLast? with | some r => c.tcount pBRIDLE 6 r rtDrops | none => c
    ((c.count pBRIDLE total).countBridleDrop x.port x.egress, ⟨taken, false⟩)
  | none =>
    if c.tget pBRIDLE 2 x.port (if x.egress then fPcOutDef else fPcInDef) = 0 then (c, ⟨taken, true⟩)
    else (((c.count pBRIDLE total).count pBRIDLE K.BRIDLE_DEFAULT_DROP).countBridleDrop x.port x.egress, ⟨taken, false⟩)

/-! ## Policers (R195) -/

def Chip.policer (c : Chip) (i : Nat) : PolRt := lookupD {} c.policers i
def Chip.setPolicer (c : Chip) (i : Nat) (x : PolRt) : Chip := { c with policers := store {} c.policers i x }
def Chip.pol (c : Chip) (i : Nat) (f : TFld) : Nat := c.tget pBRIDLE 4 i f

/-- What a rate puts into a bucket in a cycle of 2 ns, in units of 10^-9. -/
def Chip.polRate (c : Chip) (i : Nat) (f : TFld) : Nat := c.pol i f * (if c.pol i fPoMode = 0 then 2000 else 2)

/-- The buckets filled up to now. -/
def Chip.polFill (c : Chip) (i : Nat) : PolRt :=
  let x := c.policer i
  let t := c.cycles - x.at'
  { lackC := x.lackC - c.polRate i fPoCir * t, lackE := x.lackE - c.polRate i fPoEir * t, at' := c.cycles }

/-- What a policer does with a frame: it passes unmetered, as green, as yellow and perhaps marked, or is dropped. -/
inductive Meter where
  | free
  | green
  | yellow (mark : Bool)
  | drop
  deriving DecidableEq, Repr

/-- A policer meters a frame of a size. -/
def Chip.meter (c : Chip) (i size : Nat) : Chip × Meter :=
  if c.pol i fPoValid = 0 then (c, .free) else
  let b := 10 ^ 9 * (if c.pol i fPoMode = 0 then size else 1)
  let x := c.polFill i
  if x.lackC + b ≤ 10 ^ 9 * c.pol i fPoCbs then
    ((c.setPolicer i { x with lackC := x.lackC + b }).tcount pBRIDLE 7 i ptGreen, .green)
  else if x.lackE + b ≤ 10 ^ 9 * c.pol i fPoEbs then
    let c := (c.setPolicer i { x with lackE := x.lackE + b }).tcount pBRIDLE 7 i ptYellow
    if c.pol i fPoYellow = 2 then ((c.count pBRIDLE K.BRIDLE_POLICER_DROP).tcount pBRIDLE 7 i ptDropped, .drop)
    else (c, .yellow (decide (c.pol i fPoYellow = 1)))
  else ((((c.setPolicer i x).perf 0x203 1).count pBRIDLE K.BRIDLE_POLICER_DROP).tcount pBRIDLE 7 i ptDropped, .drop)

/-- What the policers of a lookup found: does the frame pass, is it marked, which metered it and whether as yellow. -/
structure Metered where
  ok : Bool := true
  mark : Bool := false
  pols : List (Nat × Bool) := []
  deriving DecidableEq, Repr

/-- Policers in rule order up to the first that refuses. -/
def Chip.meterAll (c : Chip) (size : Nat) : List Nat → Metered → Chip × Metered
  | [], x => (c, x)
  | i :: l, x =>
    match c.meter i size with
    | (c, .drop) => (c, { x with ok := false })
    | (c, .free) => Chip.meterAll c size l x
    | (c, .green) => Chip.meterAll c size l { x with pols := x.pols ++ [(i, false)] }
    | (c, .yellow m) => Chip.meterAll c size l { x with mark := x.mark || m, pols := x.pols ++ [(i, true)] }

/-- The rest of a frame that was looked up while it was still arriving: the rules taken count its bytes (R192), policers of MODE
BYTES take its tokens from the bucket that coloured it (R195; log entry 99). -/
def Chip.bridleRest (c : Chip) (rules : List Nat) (pols : List (Nat × Bool)) (n : Nat) : Chip :=
  let c := rules.foldl (fun c r => c.addTCnt pBRIDLE 6 r rtBytes n) c
  pols.foldl (fun c (p : Nat × Bool) =>
    if c.pol p.1 fPoMode = 0 then
      let x := c.polFill p.1
      c.setPolicer p.1 (if p.2 then { x with lackE := x.lackE + 10 ^ 9 * n } else { x with lackC := x.lackC + 10 ^ 9 * n })
    else c) c

/-! ## Windows, mirrors, the whole lookup (R193 to R198) -/

/-- The window test (R196). -/
def Chip.windowTest (c : Chip) (rules : List Nat) (x : Subject) : Chip × Bool :=
  let shut := rules.filter fun r => decide (c.rule r fRuWinEn = 1) && !c.windowOpen (c.rule r fRuWin) x.seen x.time
  if shut.isEmpty then (c, true)
  else (shut.foldl (fun c r => c.tcount pBRIDLE 6 r rtWindow) (c.count pBRIDLE K.BRIDLE_WINDOW_DROP), false)

/-- The mirror copy of a CAN message: an ACF CAN frame (R198); the spec gives no addresses for it (log entry 31). -/
def Chip.canMirror (c : Chip) (m port : Nat) (g : Msg) : Chip × List Byte :=
  let (dmac, c) := c.takeFree
  let (smac, c) := c.takeFree
  let sid := 0x00009648 * 2 ^ 32 + (c.reg pBRIDLE (0x958 + 4 * m)).toNat
  (c, avtpFrame (dmac % 2 ^ 48) (smac % 2 ^ 48) none false sid 0 0 false (acfBuild g (port - 32) 0 false true))

def Chip.mirrorDrop (c : Chip) : Chip := (c.count pBRIDLE K.BRIDLE_MIRROR_DROP).raise pBRIDLE E.BRIDLE_MIRROR_DROP

/-- One mirror session's copy (R198); that of a frame still arriving is completed at its tail, unless it is truncated. -/
def Chip.mirror (c : Chip) (x : Subject) (m : Nat) : Chip :=
  let cfg := fun (f : Fld) => c.get pBRIDLE (mirrorFld f m)
  if cfg F.BRIDLE_MIRROR_CFG_EN = 0 then c else
  let (from', msg, frame) := x.source.getD (x.port, x.msg, x.orig.getD x.bytes)
  let isLegacy : Bool := match msg with | some g => decide (g.kind ≠ .can) | none => false
  if isLegacy then c.mirrorDrop
  else
    let (c, bytes) := match msg with | some g => c.canMirror m from' g | none => (c, frame)
    let trunc : Bool := cfg F.BRIDLE_MIRROR_CFG_TRUNC = 1
    let bytes := if trunc then bytes.take 128 else bytes
    let whole := if trunc ∧ bytes.length = 128 then none else x.part
    let port := cfg F.BRIDLE_MIRROR_CFG_PORT
    if ¬ c.linkUp port ∨ c.is pFAB F.FAB_FAB_STATUS_HALTED then c.mirrorDrop
    else
      let k : Copy := { fid := whole.getD c.nextFid, bytes := bytes, rx := whole.map fun _ => x.inp, ingress := x.inp, origin := x.port, egress := port, cls := cfg F.BRIDLE_MIRROR_CFG_CLASS
                        seq := 0, vid := 0, pcp := 0, stamp := x.stamp
                        epoch := c.get pTIME F.TIME_TIME_STATUS_EPOCH, mirror := true, trunc := trunc
                        ring := c.ringId, ringPort := x.port }
      match { c with nextFid := c.nextFid + 1 }.letIn k with
      | (c, true) => c.count pBRIDLE K.BRIDLE_MIRRORED
      | (c, false) => c.mirrorDrop

/-- What a lookup decides: whether the frame passes; the class that a rule sets, the rewrite that a rule names, a DEI mark; the rules
taken and the policers that metered the frame. -/
structure Decision where
  pass : Bool
  cls : Option Nat := none
  rewrite : Rewrite := {}
  mark : Bool := false
  rules : List Nat := []
  pols : List (Nat × Bool) := []
  deriving DecidableEq, Repr

/-- The smallest TP_MAX_BYTES of the rules that set TP_TRACK. -/
def Chip.trackLimit (c : Chip) (rules : List Nat) : Option Nat :=
  ((rules.filter fun r => decide (c.rule r fRuTrack = 1)).map fun r => c.rule r fRuTpMax).min?

/-- The last rule taken that enables an action, with its value. -/
def Chip.lastRule (c : Chip) (rules : List Nat) (en val : TFld) : Option Nat :=
  ((rules.filter fun r => decide (c.rule r en = 1)).getLast?).map fun r => c.rule r val

/-- Transport tracking of a lookup on a CAN port. -/
def Chip.track (c : Chip) (x : Subject) (limit : Option Nat) (far : Nat) : Chip × Bool :=
  match x.msg with
  | some m =>
    if 32 ≤ x.port ∧ x.port < 48 then (if isTp m then c.perf 0x205 1 else c).tpTrack x.port m limit (!x.egress) far else (c, true)
  | none => (c, true)

/-- A rewrite entry (R197). -/
def Chip.rewriteOf (c : Chip) (i : Nat) : Rewrite :=
  let g := fun (en f : TFld) => if c.tget pBRIDLE 5 i en = 1 then some (c.tget pBRIDLE 5 i f) else none
  { vid := g fRwSetVid fRwVid, pcp := g fRwSetPcp fRwPcp, dscp := g fRwSetDscp fRwDscp
    dmac := if c.tget pBRIDLE 5 i fRwSetDmac = 1 then some ((c.tword pBRIDLE 5 i 1).toNat + 2 ^ 32 * bitsAt (c.tword pBRIDLE 5 i 2) 0 16) else none }

/-- A Bridle lookup from the rule match on (R12, R192 to R201). `far` are the CAN channels at the other end of the crossing. -/
def Chip.bridle (c : Chip) (x : Subject) (far : Nat) : Chip × Decision :=
  if ¬ c.ready pBRIDLE then (c, { pass := true }) else
  let (c, t) := c.matchRules x
  let c := ((t.rules.filter fun r => decide (c.rule r fRuMirrorEn = 1)).map fun r => c.rule r fRuMirror).eraseDups.foldl (fun c m => c.mirror x m) c
  let no : Decision := { pass := false, rules := t.rules }
  if ¬ t.permit then (c, no)
  else
    let (c, m) := c.meterAll x.size ((t.rules.filter fun r => decide (c.rule r fRuPolice = 1)).map fun r => c.rule r fRuPolicer) {}
    let no := { no with pols := m.pols }
    if ¬ m.ok then (c, no)
    else
      let (c, ok) := c.windowTest t.rules x
      if ¬ ok then (c, no)
      else
        let (c, ok) := c.track x (c.trackLimit t.rules) far
        let cls := if x.msg.isNone then c.lastRule t.rules fRuSetClass fRuClass else none
        let rewrite := match c.lastRule t.rules fRuRewriteEn fRuRewrite with | some i => c.rewriteOf i | none => {}
        (c, { no with pass := ok, cls := cls, rewrite := rewrite, mark := m.mark })

/-- A rewrite applied to the bytes of a copy that leaves tagged, or untagged (R197). -/
def Rewrite.apply (r : Rewrite) (tagged : Bool) (bs : List Byte) : List Byte :=
  let t := beAt bs 14 2
  let bs := if tagged ∧ isTagType (beAt bs 12 2) ∧ (r.vid.isSome ∨ r.pcp.isSome) then
    retag bs (r.vid.getD (tciVid t)) (r.pcp.getD (tciPcp t)) else bs
  let bs := match r.dscp with | some d => setDscp bs d | none => bs
  match r.dmac with | some m => setBytes bs 0 (beBytes 6 m) | none => bs

/-! ## Commit (R195, R209, R210) -/

/-- Two staged SID entries have the same method and key. -/
def Chip.sidSame (c : Chip) (a b : Nat) : Bool :=
  let w := fun (h k : Nat) => c.tstaged pBRIDLE 3 h k
  let m := c.tgetS pBRIDLE 3 a fSiMethod
  decide (c.tgetS pBRIDLE 3 b fSiMethod = m) && decide (w a 1 = w b 1) && decide (bitsAt (w a 2) 0 16 = bitsAt (w b 2) 0 16)
    && (decide (m = 5 ∨ m = 6) || decide (c.tgetS pBRIDLE 3 a fSiExtra = c.tgetS pBRIDLE 3 b fSiExtra))
    && (decide (m ≠ 3) || decide (c.tgetS pBRIDLE 3 a fSiProto = c.tgetS pBRIDLE 3 b fSiProto))
    && decide (w a 4 &&& w b 4 ≠ 0 ∨ (w a 5 &&& w b 5).toNat % 2 ^ 28 ≠ 0)

def Chip.validateBridle (c : Chip) (group : List Nat) : Nat × Nat :=
  let ru := fun (r : Nat) (f : TFld) => c.tgetS pBRIDLE 0 r f
  let all := tblIndices c.tblS pBRIDLE 0
  let rules := all.filter fun r => decide (ru r fRuValid = 1)
  let sids := (tblIndices c.tblS pBRIDLE 3).filter fun h => decide (c.tgetS pBRIDLE 3 h fSiValid = 1)
  let po := fun (i : Nat) (f : TFld) => c.tgetS pBRIDLE 4 i f
  let pols := (tblIndices c.tblS pBRIDLE 4).filter fun i => decide (po i fPoValid = 1)
  let mir := fun (m : Nat) (f : Fld) => c.staged pBRIDLE (mirrorFld f m)
  let held := fun (cls : Nat) => (c.peer group pFAB F.FAB_CLASS_REGIME_HELD).testBit cls
  firstBad [
    ((tblIndices c.tblS pBRIDLE 1).any fun p => (List.range 7).any fun k =>
      let s := slotOf (c.tstaged pBRIDLE 1 p (k / 2)) (k + 1)
      !extractorOk s.1 || (decide (0x20 ≤ s.1) && decide (250 < s.2)), rsnRange, 1),
    (all.any fun r => decide (ru r fRuDir = 1 ∧ (ru r fRuPolice = 1 ∨ ru r fRuSetClass = 1 ∨ ru r fRuWinEn = 1)), rsnInvalid, 2),
    (rules.any fun r => decide ((ru r fRuPolice = 1 ∧ po (ru r fRuPolicer) fPoValid = 0)
      ∨ (ru r fRuRewriteEn = 1 ∧ c.tgetS pBRIDLE 5 (ru r fRuRewrite) fRwValid = 0)
      ∨ (ru r fRuMirrorEn = 1 ∧ mir (ru r fRuMirror) F.BRIDLE_MIRROR_CFG_EN = 0)), rsnTableRef, 3),
    (sids.any fun a => sids.any fun b => decide (a < b) && c.sidSame a b, rsnInvalid, 4),
    ((List.range 4).any fun m => decide (mir m F.BRIDLE_MIRROR_CFG_EN = 1)
      && (decide (mir m F.BRIDLE_MIRROR_CFG_PORT = 31) || held (mir m F.BRIDLE_MIRROR_CFG_CLASS)), rsnRange, 5),
    (pols.any fun i => decide (po i fPoCbs = 0 ∨ (po i fPoEir ≠ 0 ∧ po i fPoEbs = 0)), rsnRange, 6),
    (all.any (fun r => decide (ru r fRuTpMax < 9)) || decide (c.staged pBRIDLE F.BRIDLE_TP_CFG0_DT_GAP_MS = 0)
      || decide (c.staged pBRIDLE F.BRIDLE_TP_CFG0_CTS_WAIT_MS = 0) || decide (c.staged pBRIDLE F.BRIDLE_TP_CFG1_HOLD_MS = 0), rsnRange, 7),
    (rules.any fun r => decide (ru r fRuResult = 3), rsnRange, 8),
    (pols.any fun i => decide (po i fPoYellow = 3), rsnRange, 9)]

/-- At T_apply: policers whose settings changed are full (R195); frames that such a one has metered owe their rest to the bucket that is
gone (R45). -/
def Chip.appliedBridle (c old : Chip) : Chip :=
  let same := fun (i : Nat) => (List.range 5).all fun w => decide (c.tword pBRIDLE 4 i w = old.tword pBRIDLE 4 i w)
  { c with
    policers := c.policers.filter fun (e : Nat × PolRt) => same e.1
    rx := c.rx.map fun (e : Nat × Option Frame) => (e.1, e.2.map fun f => { f with pols := f.pols.filter fun p => same p.1 }) }

end Sys2Proof.Machine
end

