-- ==== Sys2Proof/Machine/Macsec.lean ====
section
/-! DEFINITION. MACsec (R76, R77, R212 to R214): SecYs, secure associations, key installation. Frame formats are those of
IEEE 802.1AE-2018, which the spec names (log entry 32). -/
namespace Sys2Proof.Machine

open Sys2Proof

/-! ## Table fields (R213) -/

abbrev fSyEn : TFld := ⟨0, 0, 1⟩
abbrev fSyCipher : TFld := ⟨0, 1, 2⟩
abbrev fSyOffset : TFld := ⟨0, 4, 2⟩
abbrev fSyConf : TFld := ⟨0, 6, 1⟩
abbrev fSyValidate : TFld := ⟨0, 8, 2⟩
abbrev fSyReplay : TFld := ⟨0, 10, 1⟩
abbrev fSySci : TFld := ⟨0, 11, 1⟩
abbrev fSyProtect : TFld := ⟨0, 12, 1⟩
abbrev fSyTxAn : TFld := ⟨0, 13, 2⟩
abbrev fSyWindow : TFld := ⟨1, 0, 32⟩
abbrev fSaValid : TFld := ⟨0, 0, 1⟩
abbrev fScValid : TFld := ⟨2, 0, 1⟩

/-- Counter slots of SYSTAT (part 0, then part 1) and of SASTAT. -/
abbrev syProtected : Nat := 0
abbrev syEncrypted : Nat := 1
abbrev syExhausted : Nat := 2
abbrev syInOk : Nat := 3
abbrev syNoTag : Nat := 4
abbrev syBadTag : Nat := 5
abbrev syNoSa : Nat := 6
abbrev syNotValid : Nat := 7
abbrev saLate : Nat := 0

/-- The SecY of a port (R212). -/
def secyOf (port : Nat) : Option Nat := if port < 20 then some port else if port = 28 ∨ port = 29 then some (port - 8) else none

/-- The port of a SecY. -/
def secyPort (y : Nat) : Nat := if y < 20 then y else y + 8

def Chip.sy (c : Chip) (y : Nat) (f : TFld) : Nat := c.tget pMACSEC 0 y f

/-- Two words of an entry as one number. -/
def Chip.tpair (c : Chip) (p : Page) (t i w : Nat) : Nat := (c.tword p t i w).toNat + 2 ^ 32 * (c.tword p t i (w + 1)).toNat

/-- The SecY that works at a port: enabled, on a page that is on. -/
def Chip.secyAt (c : Chip) (port : Nat) : Option Nat :=
  match secyOf port with
  | some y => if c.ready pMACSEC ∧ c.sy y fSyEn = 1 then some y else none
  | none => none

/-- An EtherType of the uncontrolled port (R212): 0x888E and the enabled bypasses. -/
def Chip.uncontrolled (c : Chip) (etype : Nat) : Bool :=
  decide (etype = etEAPOL) || (List.range 4).any fun k =>
    let w := c.reg pMACSEC (0x940 + 4 * k)
    (w.toNat.testBit 16) && decide (bitsAt w 0 16 = etype)

/-! ## Secure associations -/

/-- Present PN of an SA: as the table gives it until a frame has used it (R213). -/
def Chip.pn (c : Chip) (sa : Nat) : Nat := lookupD (c.tpair pMACSEC 1 sa 1) c.pns sa
def Chip.setPn (c : Chip) (sa n : Nat) : Chip := { c with pns := insert c.pns sa n }
def Chip.saKey (c : Chip) (sa : Nat) : List Byte := lookupD [] c.saKeys sa

def Chip.xpn (c : Chip) (y : Nat) : Bool := decide (2 ≤ c.sy y fSyCipher)

/-- The key of an SA as its SecY's cipher uses it. -/
def Chip.cipherKey (c : Chip) (y sa : Nat) : List Byte := if c.sy y fSyCipher % 2 = 0 then (c.saKey sa).take 16 else c.saKey sa

/-- The PN at which an SA is exhausted. -/
def Chip.pnLimit (c : Chip) (y : Nat) : Nat := if c.xpn y then 2 ^ 64 else 2 ^ 32

/-- The nonce of a PN: SCI and PN, or under an XPN cipher the salt with SSCI and PN. -/
def Chip.nonce (c : Chip) (y sa sci pn : Nat) : List Byte :=
  if c.xpn y then
    let salt := (c.tword pMACSEC 1 sa 4).toNat + 2 ^ 32 * c.tpair pMACSEC 1 sa 5
    beBytes 12 (salt ^^^ ((c.tword pMACSEC 1 sa 3).toNat * 2 ^ 64 + pn))
  else beBytes 12 (sci * 2 ^ 32 + pn % 2 ^ 32)

/-- The bytes of user data that CONF_OFFSET leaves in clear. -/
def Chip.clearBytes (c : Chip) (y : Nat) : Nat := match c.sy y fSyOffset with | 1 => 30 | 2 => 50 | _ => 0

/-! ## Protection (R75, R213) -/

/-- A frame protected. -/
def MacSeal.apply (m : MacSeal) (bs : List Byte) : List Byte :=
  let user := bs.drop 12
  let sl := if user.length < 48 then user.length else 0
  let tci := m.an + (if m.clear.isSome then 0x0C else 0) + (if m.sci.isSome then 0x20 else 0)
  let head := bs.take 12 ++ beBytes 2 etMACSEC ++ [BitVec.ofNat 8 tci, BitVec.ofNat 8 sl] ++ beBytes 4 (m.pn % 2 ^ 32)
    ++ (match m.sci with | some s => beBytes 8 s | none => [])
  let k := m.clear.getD user.length
  let (ct, icv) := Config.gcmSeal m.key m.nonce (head ++ user.take k) (user.drop k)
  head ++ user.take k ++ ct ++ icv

/-- The protection of a frame by a SecY on an SA under a PN. -/
def Chip.sealOf (c : Chip) (y sa pn : Nat) : MacSeal :=
  let sci := c.tpair pMACSEC 0 y 2
  { secy := y, sa := sa, pn := pn, key := c.cipherKey y sa, nonce := c.nonce y sa sci pn
    sci := if c.sy y fSySci = 1 then some sci else none, an := c.sy y fSyTxAn
    clear := if c.sy y fSyConf = 1 then some (c.clearBytes y) else none }

/-- A copy on its way out of a port (R213): its protection, where a SecY protects it; `none` when the PN is exhausted. -/
def Chip.macTake (c : Chip) (port etype : Nat) : Chip × Option (Option MacSeal) :=
  match c.secyAt port with
  | none => (c, some none)
  | some y =>
    if c.uncontrolled etype ∨ c.sy y fSyProtect = 0 then (c, some none)
    else
      let sa := y * 128 + c.sy y fSyTxAn
      let pn := c.pn sa
      let limit := c.pnLimit y
      if limit ≤ pn then (c.tcount pMACSEC 3 y syExhausted, none)
      else
        let near := limit - (c.reg pMACSEC 0x950).toNat
        let c := (c.setPn sa (pn + 1)).tcount pMACSEC 3 y (if c.sy y fSyConf = 1 then syEncrypted else syProtected)
        (if pn < near ∧ near ≤ pn + 1 then c.raise pMACSEC E.MACSEC_PN_NEAR else c, some (some (c.sealOf y sa pn)))

/-- What protection adds to a frame: SecTAG, SCI, ICV. -/
def Chip.macOverhead (c : Chip) (port etype : Nat) : Nat :=
  match c.secyAt port with
  | none => 0
  | some y => if c.uncontrolled etype ∨ c.sy y fSyProtect = 0 then 0 else 24 + (if c.sy y fSySci = 1 then 8 else 0)

/-! ## Verification (R77, R212, R214) -/

/-- A SecTAG. -/
structure SecTag where
  tci : Nat
  sl : Nat
  pn : Nat
  sci : Option Nat
  len : Nat
  deriving DecidableEq, Repr

def secTag (bs : List Byte) : SecTag :=
  let tci := byteAt bs 14
  let sc := tci.testBit 5
  { tci := tci, sl := byteAt bs 15, pn := beAt bs 16 4
    sci := if sc then some (beAt bs 20 8) else if tci.testBit 6 then some (smacOf bs * 65536 + 1) else none
    len := if sc then 16 else 8 }

/-- A SecTAG that IEEE 802.1AE calls invalid. -/
def SecTag.bad (t : SecTag) (xpn : Bool) (size : Nat) : Bool :=
  let b := fun i => t.tci.testBit i
  b 7 || (b 6 && b 5) || (b 4 && b 5) || decide (48 ≤ t.sl) || (decide (t.pn = 0) && !xpn) || (b 3 && !b 2) || decide (size < 12 + t.len + 16)

/-- The receive SC of a frame: by its SCI, or the only valid one. -/
def Chip.rxScOf (c : Chip) (y : Nat) (sci : Option Nat) : Option Nat :=
  let valid := (List.range 31).filter fun k => c.tis pMACSEC 2 (y * 31 + k) fScValid
  match sci with
  | some v => valid.find? fun k => decide (c.tpair pMACSEC 2 (y * 31 + k) 0 = v)
  | none => match valid with | [k] => some k | _ => none

/-- The full PN of a frame: under an XPN cipher its upper half follows from the lowest acceptable PN. -/
def fullPn (xpn : Bool) (lowest low : Nat) : Nat :=
  if ¬ xpn then low
  else
    let hi := lowest / 2 ^ 32
    if lowest % 2 ^ 32 < 2 ^ 31 ∨ 2 ^ 31 ≤ low then hi * 2 ^ 32 + low else (hi + 1) * 2 ^ 32 + low

/-- The SA, the SCI and the PN under which a frame is verified. -/
def Chip.rxSa (c : Chip) (y : Nat) (t : SecTag) : Option (Nat × Nat × Nat) :=
  match c.rxScOf y t.sci with
  | none => none
  | some k =>
    let sa := y * 128 + 4 + 4 * k + t.tci % 4
    if c.tis pMACSEC 1 sa fSaValid then some (sa, c.tpair pMACSEC 2 (y * 31 + k) 0, fullPn (c.xpn y) (c.pn sa) t.pn) else none

/-- How a port's SecY verifies a frame, from its first bytes; `none` where it passes the frame untouched (R212). -/
def Chip.macPlan (c : Chip) (port : Nat) (bs : List Byte) : Option MacPlan :=
  match c.secyAt port with
  | none => none
  | some y =>
    let et := beAt bs 12 2
    if c.uncontrolled et then none
    else
      let p : MacPlan := { secy := y, mode := c.sy y fSyValidate, xpn := c.xpn y, clear := c.clearBytes y }
      if et ≠ etMACSEC then some p
      else match c.rxSa y (secTag bs) with
        | none => some p
        | some (sa, sci, pn) =>
          some { p with
            sa := some (sa, sci, pn), key := c.cipherKey y sa, nonce := c.nonce y sa sci pn, first := c.tpair pMACSEC 1 sa 1
            window := c.sy y fSyWindow, replay := decide (c.sy y fSyReplay = 1) }

/-- Additional data and ciphertext of a protected frame without its ICV. -/
def MacPlan.parts (p : MacPlan) (t : SecTag) (bs : List Byte) : List Byte × List Byte :=
  let at0 := 12 + t.len
  let k := if t.tci.testBit 3 then at0 + p.clear else bs.length
  (bs.take k, bs.drop k)

/-- A frame at its port's SecY: passed on without MACsec, or discarded and counted (R77, R214). -/
def Chip.macVerify (c : Chip) (port : Nat) (plan : Option MacPlan) (bs : List Byte) : Chip × Option (List Byte) :=
  match plan with
  | none => (c, some bs)
  | some p =>
    let y := p.secy
    let strict := decide (p.mode = 2)
    let no := fun (c : Chip) => (c.portCount port K.PORT_MACSEC_RX_DROP, (none : Option (List Byte)))
    if beAt bs 12 2 ≠ etMACSEC then
      if p.mode = 0 then (c, some bs)
      else if strict then no (c.tcount pMACSEC 3 y syNoTag) else (c.tcount pMACSEC 3 y syNoTag, some bs)
    else
      let t := secTag bs
      if t.bad p.xpn bs.length then no (c.tcount pMACSEC 3 y syBadTag)
      else
        let body := bs.take (bs.length - 16)
        let icv := bs.drop (bs.length - 16)
        let strip := fun (rest : List Byte) => some (bs.take 12 ++ rest)
        if p.mode = 0 then (c, strip (body.drop (12 + t.len)))
        else match p.sa with
          | none =>
            if strict then no (c.tcount pMACSEC 3 y syNoSa) else (c.tcount pMACSEC 3 y syNoSa, strip (body.drop (12 + t.len)))
          | some (sa, _, pn) =>
            let lowest := max p.first (c.pn sa - p.window)
            let late := decide (pn < lowest)
            let c := if late then c.tcount pMACSEC 4 sa saLate else c
            if late ∧ p.replay then no c
            else
              let (aad, ct) := p.parts t body
              match Config.gcmOpen p.key p.nonce aad ct icv with
              | none => no (c.tcount pMACSEC 3 y syNotValid)
              | some plain =>
                let c := if c.pn sa ≤ pn then c.setPn sa (pn + 1) else c
                (c.tcount pMACSEC 3 y syInOk, strip (aad.drop (12 + t.len) ++ plain))

/-- The first bytes of a frame as the parser sees them before its ICV has come (R77); `none` where the SecY refuses it at once. -/
def macHead (plan : Option MacPlan) (bs : List Byte) : Option (List Byte) :=
  match plan with
  | none => some bs
  | some p =>
    if beAt bs 12 2 ≠ etMACSEC then (if p.mode = 2 then none else some bs)
    else
      let t := secTag bs
      if t.bad p.xpn (bs.length + 16) then none
      else match p.sa with
        | none => if p.mode = 2 then none else some (bs.take 12 ++ bs.drop (12 + t.len))
        | some _ =>
          let (aad, ct) := p.parts t bs
          some (bs.take 12 ++ aad.drop (12 + t.len) ++ Config.gcmStream p.key p.nonce ct)

/-! ## Keys (R213) -/

/-- `KEY_STATUS.RESULT`. -/
abbrev kyOK : Nat := 0
abbrev kyUNWRAP : Nat := 1
abbrev kyPOLICY : Nat := 2
abbrev kyRANGE : Nat := 3
abbrev kyWITHHELD : Nat := 4

def Chip.slot (c : Chip) (k : Nat) : SlotRt := lookupD {} c.slots k
def Chip.setSlot (c : Chip) (k : Nat) (x : SlotRt) : Chip := { c with slots := store {} c.slots k x }

/-- A write of `KEY_CMD`; while an install is in progress it changes nothing (log entry 33). -/
def Chip.keyCmd (c : Chip) (v : Word) : Chip :=
  if v.toNat.testBit 31 ∧ c.keyInstall.isNone then
    let wrapped := ((List.range 10).map fun k => leBytes 4 (c.reg pMACSEC (0x160 + 4 * k)).toNat).flatten
    { c.put pMACSEC F.MACSEC_KEY_STATUS_BUSY 1 with keyInstall := some ⟨bitsAt v 0 12, bitsAt v 16 6, wrapped⟩ }
  else c

/-- The install ends: its result, and the chip with the key where it is OK. -/
def Chip.keyResult (c : Chip) (k : KeyInstall) : Chip × Nat :=
  let x := c.slot k.slot
  if c.mode = modeQuarantine then (c, kyWITHHELD)
  else if c.root.isNone then (c, kyPOLICY)
  else if 2816 ≤ k.sa then (c, kyRANGE)
  else if x.state ≠ 1 ∨ ¬ x.policy.testBit 3 then (c, kyPOLICY)
  else match Config.keyUnwrap x.value k.wrapped with
    | none => (c, kyUNWRAP)
    | some sak => ({ c with saKeys := insert c.saKeys k.sa sak }, kyOK)

/-- KEY_DONE. -/
def Chip.keyDone (c : Chip) : Chip :=
  match c.keyInstall with
  | none => c
  | some k =>
    let (c, r) := { c with keyInstall := none }.keyResult k
    ((c.put pMACSEC F.MACSEC_KEY_STATUS_BUSY 0).put pMACSEC F.MACSEC_KEY_STATUS_RESULT r).raise pMACSEC E.MACSEC_KEY_DONE

/-- `KEY_LOADED` of an SA. -/
def Chip.keyLoaded (c : Chip) (sa : Nat) : Bool := c.saKeys.any fun (e : Nat × List Byte) => decide (e.1 = sa)

/-- A word of SASTAT but for its counter. -/
def Chip.sastatWord (c : Chip) (sa word : Nat) : Word :=
  match word with
  | 0 => BitVec.ofNat 32 (c.pn sa)
  | 1 => BitVec.ofNat 32 (c.pn sa / 2 ^ 32)
  | _ => 0

/-! ## Commit (R213, R214) -/

def Chip.validateMacsec (c : Chip) : Nat × Nat :=
  let g := fun (y : Nat) (f : TFld) => c.tgetS pMACSEC 0 y f
  let ys := (List.range 22).filter fun y => decide (g y fSyEn = 1)
  let saOk := fun (sa : Nat) => decide (c.tgetS pMACSEC 1 sa fSaValid = 1)
  let scs := fun (y : Nat) => (List.range 31).filter fun k => decide (c.tgetS pMACSEC 2 (y * 31 + k) fScValid = 1)
  let sci := fun (y k : Nat) => (c.tstaged pMACSEC 2 (y * 31 + k) 0, c.tstaged pMACSEC 2 (y * 31 + k) 1)
  let etype := c.get pTRING F.TRING_EHRUZ_CFG_ETYPE
  firstBad [
    ((List.range 22).any fun y => decide (g y fSyOffset = 3 ∨ g y fSyValidate = 3), rsnRange, 1),
    (ys.any fun y => !saOk (y * 128 + g y fSyTxAn), rsnInvalid, 2),
    ((List.range 22).any fun y => decide (2 ≤ g y fSyCipher) && (List.range 128).any fun a =>
      saOk (y * 128 + a) && decide (c.tstaged pMACSEC 1 (y * 128 + a) 3 = 0), rsnInvalid, 3),
    ((List.range 22).any fun y => (scs y).any fun a => (scs y).any fun b => decide (a < b ∧ sci y a = sci y b), rsnInvalid, 4),
    ((List.range 22).any (fun y => decide (g y fSyProtect = 1)) && (List.range 4).any fun k =>
      let w := c.reg pMACSEC (0x140 + 4 * k)
      w.toNat.testBit 16 && decide (bitsAt w 0 16 = etPTP ∨ bitsAt w 0 16 = 0x88B5 ∨ bitsAt w 0 16 = etype), rsnInvalid, 5)]

/-- A commit concerns a SecY: an entry of it differs between the staged and the active banks, or a bypass EtherType does. -/
def Chip.secyConcerned (c : Chip) (y : Nat) : Bool :=
  let differ := fun (t i n : Nat) => (List.range n).any fun w => decide (c.tstaged pMACSEC t i w ≠ c.tword pMACSEC t i w)
  differ 0 y 4 || ((List.range 4).any fun k => decide (c.reg pMACSEC (0x140 + 4 * k) ≠ c.reg pMACSEC (0x940 + 4 * k)))
    || (((tblIndices c.tblS pMACSEC 1 ++ tblIndices c.tblA pMACSEC 1).filter fun i => decide (i / 128 = y)).any fun i => differ 1 i 8)
    || (((tblIndices c.tblS pMACSEC 2 ++ tblIndices c.tblA pMACSEC 2).filter fun i => decide (i / 31 = y)).any fun i => differ 2 i 3)

/-- The safe point of a GO commit (R213): no SecY that it concerns protects or verifies a frame; one that is not enabled does neither. -/
def Chip.safeMacsec (c : Chip) : Bool :=
  (List.range 22).all fun y => !c.secyConcerned y || c.sy y fSyEn = 0 || c.macIdle (secyPort y)

/-- At T_apply: an SA whose PN the commit changes starts from it. -/
def Chip.appliedMacsec (c old : Chip) : Chip :=
  { c with pns := c.pns.filter fun (e : Nat × Nat) => decide (c.tpair pMACSEC 1 e.1 1 = old.tpair pMACSEC 1 e.1 1) }

/-! ## Meanings -/

/-- KEY_INSTALL (R213): a write of `KEY_CMD` with START. -/
def execKeyInstall (dt : Nat) (req : Requester) (sa slot : Nat) (s : State) : Host.Outcome State Fault Refusal :=
  .next (s.run dt fun c =>
    let v : Word := BitVec.ofNat 32 (sa % 4096 + 65536 * (slot % 64) + 2 ^ 31)
    c.command req pMACSEC 0x154 v fun c => c.keyCmd v)

/-- KEY_DONE (R213). -/
def execKeyDone (dt : Nat) (s : State) : Host.Outcome State Fault Refusal := .next (s.run dt fun c => c.keyDone)

end Sys2Proof.Machine
end

