-- ==== Sys2Proof/Machine/Forward.lean ====
section
/-! DEFINITION. Stages 2 to 6 (R12): a frame that has reached the parser, whether from a port, from the DMA engine or from the
gateway, through Bridle ingress, forwarding, FRER and admission; cut-through; the end of a frame. -/
namespace Sys2Proof.Machine

open Sys2Proof

/-! ## Stages 2 and 3 -/

/-- The trap of a frame (R130, R295): gPTP to its group address, and Ehruz. -/
def Chip.isPtp (bs : List Byte) : Bool := decide ((headers bs).etype = etPTP) && decide (dmacOf bs = 0x0180C200000E)
def Chip.isEhruz (c : Chip) (bs : List Byte) : Bool := decide ((headers bs).etype = c.get pTRING F.TRING_EHRUZ_CFG_ETYPE)

/-- A frame that the gateway has built: what it carries has had its ingress lookup (R23). -/
def Frame.built (f : Frame) : Bool := decide (f.ingress = 31)

/-- Parser and Bridle ingress (R12, R85, R86): the frame with its VLAN, class, handle, unit and the marks of what it passed. -/
def Chip.bridleIn (c : Chip) (f : Frame) : Chip × Frame :=
  let (vid, pcp, cls) := c.classify f.ingress (headers f.bytes).tag
  let f := { f with vid := vid, pcp := pcp, epoch := c.get pTIME F.TIME_TIME_STATUS_EPOCH, cls := if f.fixed then f.cls else cls }
  let f := { f with learns := c.learns f }
  if Frame.built f then (c, { f with fenceOk := true, passed := true })
  else match c.fence (c.unitKeys f.ingress f.bytes none f.node) with
    | .fenced us => ((c.countFenced us false).portCount f.ingress K.PORT_FENCED_DROP, f)
    | .pass us =>
      let u := us.head?
      let h := if f.handle.isSome then f.handle else c.identify f.ingress f.bytes none vid
      let f := { f with unit := u, units := us, handle := h, fenceOk := true }
      let x : Subject := { port := f.ingress, peer := f.origin, bytes := f.bytes, cls := f.cls, handle := h, unit := u, inp := f.ingress
                           stamp := f.stamp, seen := f.seen, time := f.time, part := if f.early then some f.fid else none }
      let (c, d) := c.bridle x 0
      (c, { f with passed := d.pass, rewrite := d.rewrite, mark := d.mark && !(headers f.bytes).tags.isEmpty, cls := if f.fixed then f.cls else d.cls.getD f.cls
                   rules := d.rules, pols := d.pols, counted := x.size, trap := Chip.isPtp f.bytes || c.isEhruz f.bytes })

/-- A trapped frame that has ended good goes to firmware (R130, R295), a gPTP message to an enabled instance on its port. -/
def Chip.trapEnd (c : Chip) (f : Frame) : Chip :=
  if ¬ f.passed ∨ ¬ f.trap then c
  else if Chip.isPtp f.bytes then
    let dom := byteAt f.bytes ((headers f.bytes).l3 + 4)
    let mine := (List.range 4).any fun g => c.is (pGPTP g) F.GPTP_INST_CFG_EN
      && (c.get (pGPTP g) F.GPTP_PORT_MASK_PORTS).testBit f.ingress && decide (c.get (pGPTP g) F.GPTP_INST_CFG_DOMAIN = dom)
    if mine then
      let c := (c.portCount f.ingress K.PORT_RX_PTP).emit (.trapped f.ingress f.bytes f.stamp)
      if byteAt f.bytes (headers f.bytes).l3 % 16 = 2 then c.pdelayAnswer f.ingress else c
    else c.count pTIME K.TIME_PTP_NO_INSTANCE
  else (c.portCount f.ingress K.PORT_RX_EHRUZ).emit (.trapped f.ingress f.bytes f.stamp)

/-! ## Stage 4 -/

/-- What the mode leaves of an egress set (R31, R106, R184, R353). Of a multicast set in SENTRY an ingress S port keeps GW and loses its S
ports with no MODE_DROP for those copies: a frame is dropped by the mode where nothing of its set is left (DEDUCED, log entry 131). -/
def Chip.modeSet (c : Chip) (ingress set cls : Nat) (frer : Bool) : Nat :=
  let m := c.mode
  let sPorts := 0x0FF00000
  if m = modeLimp then (if c.heldClass cls then set else 0)
  else if m = modeService ∨ m = modeQuarantine then (if 30 ≤ ingress then set else set &&& 2 ^ 30)
  else if m = modeSentry then
    (if frer then 0 else if isS ingress then set &&& 2 ^ 31 else if ingress = 31 then set &&& sPorts else 0)
  else if c.bootFail ∨ m = modeDormant then 0
  else set

/-- A device of the ring lies beyond a T port. -/
def Chip.beyond (c : Chip) (t : Nat) : Bool :=
  (List.range 4).any fun k => decide (bitsAt (c.reg pTRING 0x154) (2 * k) 2 = t - 27)

/-- The T ports that take a flooded or multicast copy (R290). -/
def Chip.ringPorts (c : Chip) (ingress hops : Nat) : Nat :=
  let up := fun t => c.linkUp t
  if c.get pTRING F.TRING_RING_STATUS_TOPOLOGY = 2 then
    (if ingress = 29 then 0
     else if ingress = 28 then (if hops + 1 < c.get pTRING F.TRING_RING_CFG_SIZE then 2 ^ 29 else 0)
     else 2 ^ 29)
  else
    let t := fun n => if ingress ≠ n ∧ up n ∧ (¬ isT ingress ∨ c.beyond n) then 2 ^ n else 0
    t 28 + t 29

/-- A set with the T ports of a flooded or multicast frame chosen. -/
def Chip.ringSet (c : Chip) (f : Frame) (set : Nat) : Nat :=
  (set &&& 0xCFFFFFFF) + (set &&& c.ringPorts f.ingress f.hops &&& 0x30000000)

/-- The stream entry of a frame's handle (R87). -/
def Chip.streamOf (c : Chip) (f : Frame) : Option Nat :=
  match f.handle with | some h => if c.tis pFDB 2 h fStrValid then some h else none | none => none

/-- The egress set that the tables give a frame, as far as its head shows it. -/
def Chip.foreseen (c : Chip) (f : Frame) : Nat :=
  let vid := (c.classify f.ingress (headers f.bytes).tag).1
  match (c.egressSet f.ingress vid (dmacOf f.bytes) (c.identify f.ingress f.bytes none vid)).2 with
  | .forward set => set
  | _ => 0

/-- QUARANTINE refuses a frame at stage 1, with no Bridle lookup (R20, R31, R187). DESIGN CHOICE (log entry 100): it lets through Ehruz
frames, frames that H or the gateway sends, and frames whose egress set holds H, gPTP messages never. -/
def Chip.quarantines (c : Chip) (f : Frame) : Bool :=
  decide (c.mode = modeQuarantine) && decide (f.ingress < 30) && !c.isEhruz f.bytes
    && (Chip.isPtp f.bytes || !(c.foreseen f).testBit 30)

/-- Forwarding (R85 to R87, R290): the frame with its egress set, the compound stream that it is handed to, `CT_BLOCK`. DESIGN CHOICE
(log entry 100): where a mode other than QUARANTINE does not forward a frame (R31, R32), its MODE_DROP, which R20 lists at stage 1, is
counted here, after Bridle ingress, since it depends on class and egress set. DEDUCED: a frame that is flooded or has several egress
ports counts as a multicast frame for R19, R93 and R95. -/
def Chip.stage4 (c : Chip) (f : Frame) : Chip × Option Frame :=
  let str := c.streamOf f
  let flooded : Bool := str.isNone && (c.fdbFind (dmacOf f.bytes) f.vid).isNone
  match c.egressSet f.ingress f.vid (dmacOf f.bytes) f.handle with
  | (c, .forward set) =>
    let frer : Bool := match str with | some h => c.tis pFDB 2 h fStrFrerEn | none => false
    let left := c.modeSet f.ingress set f.cls frer
    if left = 0 then (c.portCount f.ingress K.PORT_MODE_DROP, none)
    else
      let group := isMulticast f.bytes
      let left := if group || flooded then c.ringSet f left else left
      (c, some { f with
        set := left, multi := group || flooded || decide (1 < popCount left 32)
        comp := match str with | some h => if frer then some (c.tget pFDB 2 h fStrFrer) else none | none => none
        ctBlock := match str with | some h => c.tis pFDB 2 h fStrCtBlock | none => false
        seqIn := (headers f.bytes).rtag
        ring := if isT f.ingress then f.ring else c.ringId
        ringPort := if isT f.ingress then f.ringPort else f.ingress })
  | (c, _) => (c, none)

/-! ## Stage 6 -/

/-- The copy of a frame for an egress port. Its R-TAG follows the TAG_OUT that stage 5 found (R173); copies that cross T carry their
number (R183). -/
def Chip.copyFor (_c : Chip) (f : Frame) (e : Nat) : Copy :=
  let tag : Option (Option Nat) := match f.comp, f.frer with
    | some _, some r => if isT e || r.tagOut.testBit e then some f.seqOut else some none
    | _, _ => none
  { fid := f.fid, bytes := f.bytes, ingress := f.ingress, origin := f.origin, egress := e, cls := f.cls, seq := 0, vid := f.vid
    pcp := f.pcp, handle := f.handle, unit := f.unit, launch := f.launch, rewrite := f.rewrite, multi := f.multi, ring := f.ring, ringPort := f.ringPort, hops := f.hops
    rtag := tag, mark := f.mark, stamp := f.stamp, epoch := f.epoch }

/-- A port's rate in Mb/s: the active rate of its link; that of the DMA engine at H (R274, DEDUCED, log entry 43). -/
def Chip.portMbps (c : Chip) (n : Nat) : Nat :=
  if isT n then 50000 else if isH n then 25000 else if isS n then 10 else rateMbps (c.portRt n).rate

/-- A copy may start while its frame is still arriving (R14, R103), once the bytes that its egress lookup needs are there (R188). -/
def Chip.mayCut (c : Chip) (f : Frame) (e : Nat) : Bool :=
  f.early && (c.get pFAB F.FAB_CT_PORT_MASK_PORTS).testBit f.ingress && !f.ctBlock
    && (isB f.ingress || isX f.ingress || isT f.ingress) && decide (e < 31)
    && c.egressEmpty e && decide (c.portMbps e ≤ c.portMbps f.ingress) && !c.keyShort (c.tget pBRIDLE 2 e fPcOut) f.bytes

/-- What the SENTRY bypass of an S port holds in one direction (R106), in bytes. -/
def Chip.bypassBytes (c : Chip) (ingress egress : Nat) : Nat :=
  ((c.bypass.filter fun (k : Copy) => decide (k.ingress = ingress ∧ k.egress = egress)).map fun (k : Copy) => k.bytes.length + 4).sum

/-- Two copies are of one triplet (R90). -/
def Copy.sameTriplet (a b : Copy) : Bool := decide (a.ingress = b.ingress ∧ a.egress = b.egress ∧ a.cls = b.cls)

/-- A held copy from a T link waits in its receive buffer: it is not admitted yet, or an earlier one of its triplet waits (R293, R294). -/
def Chip.waitsT (c : Chip) (k : Copy) : Bool :=
  isT k.ingress && c.heldClass k.cls && (!c.heldFits k || c.tWait.any k.sameTriplet)

/-- One copy at its egress queue, or in the bypass; it answers whether it was taken in. A copy for a sleeping port may wake it, and is
refused (R63). -/
def Chip.place (c : Chip) (k : Copy) : Chip × Bool :=
  if k.egress < 31 ∧ ¬ c.linkUp k.egress then ((c.refuseLinkDown k).wakeOnTx k.egress, false)
  else if c.mode = modeSentry then
    if 65536 < c.bypassBytes k.ingress k.egress + k.bytes.length + 4 then (c.count pFDB K.FDB_BYPASS_DROP, false)
    else ({ c with bypass := c.bypass ++ [k] }, true)
  else if c.waitsT k then ({ c with tWait := c.tWait ++ [k] }, true)
  else c.letIn k

/-- A frame of a held class has ended on a T link: the credit of its bytes goes back, at once or when it has been admitted (R293). -/
def Chip.oweCredit (c : Chip) (n cls bytes fid : Nat) : Chip :=
  if isT n && c.heldClass cls then Chip.settleCredit { c with tOwed := c.tOwed ++ [⟨fid, n, cls, bytes⟩] } else c

/-- The copies that wait in receive buffers of T links tried again in order; none passes an earlier one of its triplet (R293, R294). -/
def Chip.retryT (c : Chip) : Chip :=
  (c.tWait.foldl (fun c k =>
    let d := { c with tWait := c.tWait.takeWhile fun j => decide (j ≠ k) }
    if c.linkUp k.egress ∧ d.waitsT k then c else ({ c with tWait := c.tWait.erase k }.place k).1) c).settleCredit

/-- Frames arriving while the fabric is halted (R105). -/
def Chip.fabricDown (c : Chip) : Bool := c.is pFAB F.FAB_FAB_STATUS_HALTED && decide (c.mode ≠ modeSentry)

/-- Admission of a frame that is stored whole, at each port that its set still holds; a halted fabric takes none (R105). A launch time
is ignored by copies to ports without timed release (R271). -/
def Chip.stage6 (c : Chip) (f : Frame) : Chip :=
  if c.fabricDown then (if f.set = 0 then c else c.count pFAB K.FAB_FAB_DOWN_DROP) else
  let c := if f.launch.isSome ∧ f.set &&& 0x700FFFFF ≠ 0 then c.count pDMA K.DMA_LT_IGNORED else c
  (bitList f.set 32).foldl (fun c e => (c.place (c.copyFor f e)).1) c

/-- The copies of a frame still arriving that start by cut-through; the set keeps the ports whose copies are stored whole. -/
def Chip.stage6Head (c : Chip) (f : Frame) : Chip × Nat :=
  (bitList f.set 32).foldl (fun (a : Chip × Nat) e =>
    if a.1.mayCut f e then ((a.1.place { a.1.copyFor f e with rx := some f.ingress, cutOk := true }).1, a.2)
    else (a.1, a.2 + 2 ^ e)) (c, 0)

/-- A frame goes on from stage 5 to stage 6. -/
def goesOn (f : Frame) : Bool := decide (f.verdict = .pass ∨ f.verdict = .pending)

/-- The fabric takes frames: its pages work, or SENTRY's bypass does. In QUARANTINE, where R31 has H and Ehruz frames go on, it works
with the settings that it has (DESIGN CHOICE, log entry 100). -/
def Chip.fabricTakes (c : Chip) : Bool :=
  let on := fun (p : Page) => if c.mode = modeQuarantine then c.enabled p else c.ready p
  on pFDB && (decide (c.mode = modeSentry) || (on pFAB && on pBUF && on pRSEQ))

/-! ## A whole frame -/

/-- What a frame that ended good leaves behind: its unit seen (R204), learning (R88), Cinch (R161), the trap, its class. -/
def Chip.goodFrame (c : Chip) (f : Frame) : Chip :=
  let c := if f.fenceOk && !Frame.built f then c.unitSeen f.units f.stamp else c
  if ¬ f.passed then c
  else
    let c := c.portCount f.ingress (K.PORT_RX_CLASS + f.cls)
    let c := if ¬ Frame.built f then c.cinchArrival f.handle f.seen else c
    (c.learn f).trapEnd f

/-- Forwarding of a whole frame that has passed Bridle ingress. -/
def Chip.forwardWhole (c : Chip) (f : Frame) : Chip :=
  match c.stage4 f with
  | (c, none) => c
  | (c, some f) =>
    let (c, f) := c.stage5 f true
    let c := if goesOn f then c.stage6 f else c
    let (c, more) := c.frerEnd f true
    more.foldl Chip.stage6 c

/-- A whole good frame from the parser on, with its class. -/
def Chip.ingestClass (c : Chip) (f : Frame) : Chip × Nat :=
  let cls := (c.classify f.ingress (headers f.bytes).tag).2.2
  if c.fabricDown then (c.count pFAB K.FAB_FAB_DOWN_DROP, cls)
  else if c.quarantines f then (c.portCount f.ingress K.PORT_MODE_DROP, cls)
  else
    let (c, f) := { c with nextFid := c.nextFid + 1 }.bridleIn { f with fid := c.nextFid }
    let c := c.goodFrame f
    (if f.passed ∧ ¬ f.trap ∧ c.fabricTakes then c.forwardWhole f else c, f.cls)

/-- The same without its class. -/
def Chip.ingestWhole (c : Chip) (f : Frame) : Chip := (c.ingestClass f).1

/-! ## A frame that is still arriving (R103, R104) -/

/-- The head of a frame is decided: its cut-through copies are queued, the frame is kept until its tail has come. -/
def Chip.ingestHead (c : Chip) (f : Frame) : Chip :=
  let keep := fun (c : Chip) (f : Frame) => c.setRx f.ingress (some { f with headed := true, xing := c.portEpoch f.ingress })
  if c.fabricDown then keep (c.count pFAB K.FAB_FAB_DOWN_DROP) f
  else if c.quarantines f then keep (c.portCount f.ingress K.PORT_MODE_DROP) f
  else
    let (c, f) := { c with nextFid := c.nextFid + 1 }.bridleIn { f with fid := c.nextFid, early := true }
    if ¬ f.passed ∨ f.trap ∨ ¬ c.fabricTakes then keep c { f with set := 0 }
    else match c.stage4 f with
      | (c, none) => keep c { f with set := 0 }
      | (c, some f) =>
        let (c, f) := c.stage5 f false
        if goesOn f then
          let (c, left) := c.stage6Head f
          keep c { f with set := left }
        else keep c f

/-- A copy belongs to a frame and is still arriving with it. -/
def Copy.arriving (k : Copy) (fid : Nat) : Bool := decide (k.fid = fid) && k.rx.isSome

/-- The copies of a frame that cut through now have all its bytes, a truncated mirror copy the first 128 (R198). -/
def completeCopy (fid : Nat) (bytes : List Byte) (k : Copy) : Copy :=
  if k.arriving fid then { k with bytes := if k.trunc then bytes.take 128 else bytes, rx := none } else k

/-- A change of every copy of the chip, wherever it stands. -/
def Chip.mapCopies (c : Chip) (g : Copy → Copy) : Chip :=
  { c with
    queues := c.queues.map fun (e : Nat × Queue) =>
      (e.1, { e.2 with items := e.2.items.map g, window := e.2.window.map g, ready := e.2.ready.map g })
    tx := c.tx.map fun (e : Nat × Option Copy) => (e.1, e.2.map g)
    preempted := c.preempted.map g
    rels := c.rels.map fun q => { q with copy := q.copy.map g }
    tWait := c.tWait.map g
    rxDma := c.rxDma.map fun (e : Nat × Copy) => (e.1, g e.2)
    rxHeld := c.rxHeld.map fun (e : Nat × Copy) => (e.1, g e.2) }

/-- The copies of a frame whose tail was bad that have not started are withdrawn, with their numbers known lost. -/
def Chip.withdraw (c : Chip) (fid : Nat) : Chip :=
  let mine := fun (k : Copy) => k.arriving fid
  let c := { c with tWait := c.tWait.filter fun k => !mine k, rxHeld := c.rxHeld.filter fun (e : Nat × Copy) => !mine e.2 }
  c.queues.foldl (fun c (e : Nat × Queue) =>
    match e.2.all.filter mine with
    | [] => c
    | ks =>
      let x := c.queue e.1
      let x := { x with items := x.items.filter fun k => !mine k, window := x.window.filter fun k => !mine k, ready := x.ready.filter fun k => !mine k }
      (ks.filter fun k => decide (k ∉ e.2.ready)).foldl Chip.numberLost (c.setQueue e.1 x)) c

/-- What Bridle still has to count of a frame whose end has come, of `size` bytes with its FCS: for its ingress lookup and for the
egress lookups of its copies that have started or been refused since (R192). -/
def Chip.countRest (c : Chip) (f : Frame) (size : Nat) : Chip :=
  f.owed.foldl (fun c o => c.bridleRest o.1 [] (size - o.2)) (c.bridleRest f.rules f.pols (size - f.counted))

/-- A frame whose head was decided ends good. -/
def Chip.tailGood (c : Chip) (f : Frame) (bytes : List Byte) : Chip :=
  let c := (c.countRest f (bytes.length + 4)).mapCopies (completeCopy f.fid bytes)
  let f := { f with bytes := bytes, early := false }
  let c := c.goodFrame f
  let c := if f.passed ∧ ¬ f.trap ∧ goesOn f then c.stage6 f else c
  let (c, more) := c.frerEnd f true
  more.foldl Chip.stage6 c

/-- A frame whose head was decided ends bad (R15, R104), having had `size` bytes: copies that have started become bad tails. -/
def Chip.tailBad (c : Chip) (f : Frame) (size : Nat) : Chip :=
  let c := (c.countRest f size).withdraw f.fid
  let c := c.mapCopies fun k => if k.arriving f.fid then { k with rx := none, bad := true } else k
  let (c, more) := c.frerEnd f false
  more.foldl Chip.stage6 c

/-- A reception whose end is not seen ends bad (R15, R104): the ingress link is lost. -/
def Chip.rxAbandon (c : Chip) (n : Nat) : Chip :=
  match c.rxOf n with
  | some f =>
    let c := (c.setRx n none).portCount n K.PORT_RX_ERR
    if f.headed then c.tailBad f f.counted else c
  | none => c

end Sys2Proof.Machine
end

