-- ==== Sys2Proof/Machine/Links.lean ====
section
/-! DEFINITION. The link states of the ports and what moves them (R59 to R84): training, warm resume, TC10 sleep and wake, PLCA
beacons, preemption verify, cable diagnosis, test modes, and the commit of the PORT and PHY pages. -/
namespace Sys2Proof.Machine

open Sys2Proof

/-- The PHY's test pattern is on (R84). -/
def Chip.testing (c : Chip) (n : Nat) : Bool := pageValid (pPHY n) && decide (c.get (pPHY n) F.PHY_TEST_MODE_MODE ≠ 0)

/-- A port moves to a state other than UP and SLEEP_NEG (R62): what it is receiving ends bad (R15, R104). -/
def Chip.linkTo (c : Chip) (n st : Nat) : Chip := (c.rxAbandon n).linkMove n st

/-- An S port that is PLCA coordinator or uses CSMA/CD (R62, R70). -/
def Chip.sAlone (c : Chip) (n : Nat) : Bool :=
  isS n && (decide (c.get (pPORT n) F.PORT_PLCA_CFG_PLCA_EN = 0) || decide (c.get (pPORT n) F.PORT_PLCA_CFG_NODE_ID = 0))

/-- A port enters SEARCH; an S port that is coordinator or uses CSMA/CD goes on to UP at once (R62), without the crystal to OFF (R306). -/
def Chip.search (c : Chip) (n : Nat) : Chip :=
  let alone := c.sAlone n && !c.is pCLK F.CLK_XTAL_STATUS_RUNNING
  let c := c.linkTo n (if alone then lsOff else lsSearch)
  if alone then c
  else if c.sAlone n && !c.testing n then c.enterUp n 6 false false else c

/-- The link is restarted (R62): TRAIN on B, X and G, SEARCH on S. -/
def Chip.restart (c : Chip) (n : Nat) : Chip :=
  if c.linkState n = lsOff then c
  else if isS n || c.testing n then c.search n
  else c.linkTo n lsTrain

/-! ## Warm records (R65 to R67) -/

def Chip.warmOf (c : Chip) (n : Nat) : Option WarmRec := lookupD none c.warm n

def Chip.setWarm (c : Chip) (n : Nat) (w : Option WarmRec) : Chip := { c with warm := store none c.warm n w }

/-- A record that a resume can use (R65). -/
def Chip.warmUsable (c : Chip) (n : Nat) : Bool := match c.warmOf n with | some w => w.able | none => false

/-- `PHY.WARM_STATUS` (R83). -/
def Chip.warmStatus (c : Chip) (n : Nat) : Word :=
  match c.warmOf n with
  | some w => BitVec.ofNat 32 (1 + (if w.able then 2 else 0) + 65536 * unsignedOf w.temp 8)
  | none => 0

/-- The record of a B or G port that is UP, saved on entry to DORMANT or SENTRY at a die temperature, after its sleep request (R65). -/
def Chip.saveWarm (c : Chip) (n : Nat) (temp : Int) : Chip :=
  if (isB n || isG n) && decide (c.linkState n = lsUp) then
    let x := c.portRt n
    (c.emit (.sleepRequest n)).setWarm n (some ⟨x.rate, c.is (pPORT n) F.PORT_LINK_STATUS_LONG_BED, temp,
      c.is (pPORT n) F.PORT_LINK_STATUS_RESUME_ABLE, x.coeff, x.tag⟩)
  else c

/-- The port's PHY or SerDes is powered: `CTRL.EN` is 1 and the mode powers it (R62); an S port that is coordinator or uses CSMA/CD
needs the crystal (R306). -/
def Chip.portPowered (c : Chip) (n : Nat) : Bool := c.ready (pPORT n) && !(c.sAlone n && !c.is pCLK F.CLK_XTAL_STATUS_RUNNING)

/-- The port follows `CTRL.EN` and the mode (R62): powered off it goes to OFF, powered on to SEARCH. -/
def Chip.portFollow (c : Chip) (n : Nat) : Chip :=
  if c.portPowered n then (if c.linkState n = lsOff then c.search n else c)
  else if c.linkState n = lsOff then c else c.linkTo n lsOff

/-- A wake powers the port (R66, R67): a record saved at a temperature more than 50 °C away is discarded and the port trains;
with a usable record it resumes; else it searches. -/
def Chip.portWake (c : Chip) (n : Nat) (temp : Int) : Chip :=
  if c.portPowered n && decide (c.linkState n = lsOff) then
    match c.warmOf n with
    | some w =>
      if (w.temp - temp).natAbs > 50 then (c.setWarm n none).linkTo n lsTrain
      else if w.able then c.linkTo n lsResume else c.search n
    | none => c.search n
  else c.portFollow n

/-! ## Link commands and events -/

/-- `BOOT_STATUS.STAGE`, the step of R351 that the boot has reached (R356). -/
def Chip.bootStage (c : Chip) (n : Nat) : Chip := c.setReg pBOOT 0x140 (putBits (c.reg pBOOT 0x140) 0 4 n)

/-- Step 12 of R351, B ports UP: the boot is complete and a B port comes up (DEDUCED, log entry 142). -/
def Chip.bootUp (c : Chip) (n : Nat) : Chip := if isB n && decide (bitsAt (c.reg pBOOT 0x140) 0 4 = 11) then c.bootStage 12 else c

/-- A partner's signal in SEARCH (R62). -/
def Chip.partnerSignal (c : Chip) (n : Nat) : Chip :=
  if isWire n && !isS n && decide (c.linkState n = lsSearch) && !c.testing n then
    if (isB n || isG n) && c.warmUsable n then c.linkTo n lsResume else c.linkTo n lsTrain
  else c

/-- Long-bed is offered (R61). -/
def Chip.offersLongBed (c : Chip) (n : Nat) : Bool :=
  isB n && c.is (pPORT n) F.PORT_RATE_CFG_LONG_BED && c.is (pPORT n) F.PORT_RATE_CFG_AN_EN

/-- What auto-negotiation settled about long-bed (R61): an offer that the partner does not make is LB_REJECT. -/
def Chip.settleLongBed (c : Chip) (n : Nat) (partner : Bool) : Chip :=
  let rejected := c.offersLongBed n && !partner
  let c := c.put (pPORT n) F.PORT_LINK_STATUS_LB_REJECT rejected.toNat
  if rejected then c.raise (pPORT n) E.PORT_LB_REJECT else c

/-- The training limit in cycles (R64); USXGMII has none. -/
def Chip.trainLimit (c : Chip) (n : Nat) : Option Nat :=
  if isB n then some (msCycles 250) else if isG n then some (msCycles 200)
  else if isX n && !c.is (pPORT n) F.PORT_RATE_CFG_X_MODE then some (msCycles 1000) else none

/-- Time since the link state was entered. -/
def Chip.linkAge (c : Chip) (n : Nat) : Nat := c.cycles - (c.portRt n).since

/-- The training limit is reached (R62, R64). -/
def Chip.linkTrainFail (c : Chip) (n : Nat) (partnerLongBed : Bool) : Chip :=
  match c.trainLimit n with
  | some l =>
    if c.linkState n = lsTrain ∧ l ≤ c.linkAge n then
      let c := c.settleLongBed n partnerLongBed
      ((c.count (pPORT n) K.PORT_TRAIN_FAIL).raise (pPORT n) E.PORT_TRAIN_FAIL).search n
    else c
  | none => c

/-- What training settles besides the link (R65): the coefficients, and the partner's resume tag of a B or G port (free values). -/
def Chip.takeCoeff (c : Chip) (n : Nat) : Chip :=
  let (k, c) := c.takeFree
  let (tag, c) := if isB n || isG n then c.takeFree else (0, c)
  c.setPortRt n { c.portRt n with coeff := k, tag := tag }

/-- Training completes (R62). At or past the training limit it is abandoned instead (R64). -/
def Chip.trainComplete (c : Chip) (n rate : Nat) (partnerLongBed resumeAble inverted : Bool) : Chip :=
  if isWire n && decide (c.linkState n = lsTrain) then
    if (match c.trainLimit n with | some l => decide (l ≤ c.linkAge n) | none => false) then c.linkTrainFail n partnerLongBed
    else
      let long := c.offersLongBed n && partnerLongBed
      let c := (c.settleLongBed n partnerLongBed).takeCoeff n
      let c := c.put (pPORT n) F.PORT_LINK_STATUS_RESUME_ABLE ((isB n || isG n) && resumeAble).toNat
      let c := if pageValid (pPHY n) then c.put (pPHY n) F.PHY_POLARITY_RX_INVERTED inverted.toNat else c
      (c.enterUp n (if long then 1 else c.trainRate n rate) long false).bootUp n
  else c

/-- No lock 6 ms after entry to RESUME (R62, R66): the record is discarded and full training starts. -/
def Chip.resumeFail (c : Chip) (n : Nat) : Chip :=
  if (isB n || isG n) && decide (c.linkState n = lsResume ∧ msCycles 6 ≤ c.linkAge n) then
    let c := c.setWarm n none
    ((c.count (pPORT n) K.PORT_RESUME_FAIL).raise (pPORT n) E.PORT_RESUME_FAIL).linkTo n lsTrain
  else c

/-- PCS and FEC lock in RESUME (R62, R67): from the coefficients that the PHY kept in SLEEP, else from the warm record. At or past
6 ms the resume is abandoned instead (log entry 24). -/
def Chip.resumeOk (c : Chip) (n : Nat) : Chip :=
  if (isB n || isG n) && decide (c.linkState n = lsResume) then
    if msCycles 6 ≤ c.linkAge n then c.resumeFail n
    else
      let x := c.portRt n
      let (r, x) : (Nat × Bool) × PortRt := match x.kept, c.warmOf n with
        | some k, _ => (k, x)
        | none, some w => ((w.rate, w.longBed), { x with coeff := w.coeff, tag := w.tag })
        | none, none => ((c.trainRate n 1, false), x)
      let c := (c.setPortRt n x).put (pPORT n) F.PORT_LINK_STATUS_RESUME_ABLE 1
      ((c.count (pPORT n) K.PORT_RESUME_OK).enterUp n r.1 r.2 true).bootUp n
  else c

/-- Loss of PCS lock for 100 µs on B, X and G (R62). -/
def Chip.pcsLockLoss (c : Chip) (n : Nat) : Chip :=
  if (isB n || isX n || isG n) && decide (c.linkState n = lsUp) then c.search n else c

/-! ## PLCA (R70 to R72) -/

/-- A PLCA follower (R70). -/
def Chip.follower (c : Chip) (n : Nat) : Bool :=
  isS n && c.is (pPORT n) F.PORT_PLCA_CFG_PLCA_EN && decide (c.get (pPORT n) F.PORT_PLCA_CFG_NODE_ID ≠ 0)

/-- The beacon is absent for 2 ms (R62, R70). Without the crystal `FALLBACK_CSMA` acts as 0 (R306). -/
def Chip.beaconLoss (c : Chip) (n : Nat) : Chip :=
  let late := decide ((c.portRt n).beacon.getD (c.portRt n).since + msCycles 2 ≤ c.cycles)
  if c.follower n && decide (c.linkState n = lsUp) && c.is (pPORT n) F.PORT_LINK_STATUS_PLCA_ACTIVE && late then
    let c := (c.count (pPORT n) K.PORT_BEACON_LOSS).raise (pPORT n) E.PORT_BEACON_LOSS
    if c.is (pPORT n) F.PORT_PLCA_CFG_FALLBACK_CSMA ∧ c.is pCLK F.CLK_XTAL_STATUS_RUNNING then c.put (pPORT n) F.PORT_LINK_STATUS_PLCA_ACTIVE 0
    else c.search n
  else c

/-- A beacon ends now: the cycle opens at node 0's opportunity (R70). -/
def Chip.openCycle (c : Chip) (n : Nat) : Chip :=
  c.setPortRt n { c.portRt n with beacon := some c.cycles, burst := 0, plcaAt := c.cycles, plcaNode := 0 }

/-- A follower receives a beacon (R62, R70, R72): its interval is measured, its cycle opens, and in SEARCH the link comes up.
DESIGN CHOICE: an interval beyond the 24 bits of `PLCA_BEACON` reads as the largest value that they hold; a follower that has fallen
back to CSMA/CD runs PLCA again from the next beacon on (`PLCA_ACTIVE` 1). -/
def Chip.plcaBeaconRx (c : Chip) (n : Nat) : Chip :=
  if c.follower n && !c.testing n then
    let st := c.linkState n
    if st = lsSearch then (c.enterUp n 6 false false).openCycle n
    else if st = lsUp ∨ st = lsSleepNeg then
      let c := match (c.portRt n).beacon with
        | some t => c.put (pPORT n) F.PORT_PLCA_BEACON_INTERVAL (min (2 * (c.cycles - t)) (2 ^ 24 - 1))
        | none => c
      (c.put (pPORT n) F.PORT_LINK_STATUS_PLCA_ACTIVE 1).openCycle n
    else c
  else c

/-- A coordinator's cycle is over (R70): after the last frame or the beacon, every further one of the `NODE_COUNT` opportunities has
lasted `TO_TIMER` bit times. -/
def Chip.cycleOver (c : Chip) (n : Nat) : Bool :=
  let x := c.portRt n
  x.beacon.isNone || decide (x.plcaAt + (c.get (pPORT n) F.PORT_PLCA_CFG_NODE_COUNT - x.plcaNode) * c.toCycles n ≤ c.cycles)

/-- A coordinator sends its beacon (R70), once its cycle is over and it sends no frame. -/
def Chip.plcaBeaconTx (c : Chip) (n : Nat) : Chip :=
  if isS n && c.is (pPORT n) F.PORT_PLCA_CFG_PLCA_EN && decide (c.get (pPORT n) F.PORT_PLCA_CFG_NODE_ID = 0) && c.linkUp n
      && c.cycleOver n && (c.txOf n).isNone && (c.rxOf n).isNone then
    (c.openCycle n).emit (.beacon n)
  else c

/-! ## TC10 sleep and wake (R62, R68, R69) -/

/-- The sleep handshake starts (R62). `LINK_STATUS.RATE` is 0 while not UP (R80). DEDUCED: LINK_DOWN is neither raised nor counted on
the way to SLEEP, whose rows of R62 show no such observable. -/
def Chip.startSleep (c : Chip) (n : Nat) : Chip :=
  ((c.put (pPORT n) F.PORT_LINK_STATUS_STATE lsSleepNeg).put (pPORT n) F.PORT_LINK_STATUS_RATE 0).setPortRt n
    { c.portRt n with since := c.cycles }

/-- SLEEP_NEG ends in UP with SLEEP_REJECT (R62). -/
def Chip.abandonSleep (c : Chip) (n : Nat) : Chip :=
  let c := (c.count (pPORT n) K.PORT_SLEEP_REJECT).raise (pPORT n) E.PORT_SLEEP_REJECT
  ((c.put (pPORT n) F.PORT_LINK_STATUS_STATE lsUp).put (pPORT n) F.PORT_LINK_STATUS_RATE (c.portRt n).rate).setPortRt n
    { c.portRt n with since := c.cycles }

/-- The ports of a port's `WAKE_FWD_MASK` that can send a pulse now: TC10 ports whose PHY is powered, never the port itself (R69). -/
def Chip.fwdPorts (c : Chip) (n : Nat) : List Nat :=
  if c.is (pPORT n) F.PORT_TC10_CFG_WAKE_FWD_EN then
    (bitList (c.get (pPORT n) F.PORT_WAKE_FWD_MASK_PORTS) 28).filter fun q => decide (q ≠ n) && hasTc10 q && decide (c.linkState q ≠ lsOff)
  else []

/-- Wake pulses sent on the ports of `WAKE_FWD_MASK`, never back (R69), from ports whose PHY is powered. -/
def Chip.forwardWake (c : Chip) (n : Nat) : Chip :=
  (c.fwdPorts n).foldl (fun c q => c.emit (.wakePulse q)) c

/-- The wakes received in DORMANT are forwarded on the ports that are powered by now (R69). -/
def Chip.forwardKept (c : Chip) : Chip :=
  c.aon.fwdWake.foldl (fun c (e : Nat × List Nat) =>
    let now := (c.fwdPorts e.1).filter fun q => !e.2.contains q
    let aon : AonRt := { c.aon with fwdWake := store [] c.aon.fwdWake e.1 (e.2 ++ now) }
    now.foldl (fun c q => c.emit (.wakePulse q)) { c with aon := aon }) c

/-- A received wake pulse (R62, R69). -/
def Chip.wakeRx (c : Chip) (n : Nat) : Chip :=
  if hasTc10 n && decide (c.linkState n ≠ lsOff) then
    let c := c.raise (pPORT n) E.PORT_WAKE_RX
    let st := c.linkState n
    let c := if st = lsSleep then c.wakePort n
      else if st = lsSleepNeg then c.abandonSleep n
      else if st = lsSearch ∧ (isB n || isG n) ∧ c.warmUsable n ∧ ¬ c.testing n then c.linkTo n lsResume
      else c
    c.forwardWake n
  else c

/-- The partner asks for sleep (R62). -/
def Chip.partnerSleepRequest (c : Chip) (n : Nat) : Chip :=
  if hasTc10 n && decide (c.linkState n = lsUp) then
    if c.is (pPORT n) F.PORT_TC10_CFG_SLEEP_ACCEPT then c.startSleep n
    else ((c.count (pPORT n) K.PORT_SLEEP_REJECT).raise (pPORT n) E.PORT_SLEEP_REJECT).emit (.sleepReject n)
  else c

/-- The handshake completes with the egress queues empty (R62): the PHY keeps its coefficients (R66). -/
def Chip.sleepDone (c : Chip) (n : Nat) : Chip :=
  if hasTc10 n && decide (c.linkState n = lsSleepNeg) && c.egressEmpty n then
    let k := ((c.portRt n).rate, c.is (pPORT n) F.PORT_LINK_STATUS_LONG_BED)
    let c := (c.linkTo n lsSleep).raise (pPORT n) E.PORT_SLEEP_DONE
    c.setPortRt n { c.portRt n with kept := some k }
  else c

/-- Queues not empty at `SLEEP_DRAIN` (R62). -/
def Chip.sleepDrain (c : Chip) (n : Nat) : Chip :=
  if hasTc10 n && decide (c.linkState n = lsSleepNeg) && !c.egressEmpty n
      && decide (usCycles (100 * c.get (pPORT n) F.PORT_TC10_CFG_SLEEP_DRAIN) ≤ c.linkAge n) then c.abandonSleep n
  else c

/-- The partner rejects (R62). -/
def Chip.partnerSleepReject (c : Chip) (n : Nat) : Chip :=
  if hasTc10 n && decide (c.linkState n = lsSleepNeg) then c.abandonSleep n else c

/-- `LINK_CMD.CMD` (R62, R66, R80): 1 RESTART, 2 SLEEP, 3 WAKE, 4 FORGET; others are ignored. DEDUCED: WAKE sends its pulse on its own
port; R69 sends pulses on the ports of `WAKE_FWD_MASK` for a received pulse only. -/
def Chip.linkCmd (c : Chip) (n cmd : Nat) : Chip :=
  if isWire n then
    match cmd with
    | 1 => c.restart n
    | 2 => if hasTc10 n && decide (c.linkState n = lsUp) then (c.startSleep n).emit (.sleepRequest n) else c
    | 3 => if hasTc10 n && decide (c.linkState n = lsSleep) then (c.emit (.wakePulse n)).wakePort n else c
    | 4 => c.setWarm n none
    | _ => c
  else c

/-! ## Preemption verify, diagnosis, test, quality -/

/-- A verify attempt times out, `VERIFY_TIME` after its start (R74): after `VERIFY_LIMIT` attempts FAILED and VERIFY_FAIL. -/
def Chip.verifyFail (c : Chip) (n : Nat) : Chip :=
  if (isB n || isX n || isG n) && decide (c.linkState n = lsUp) && decide (c.get (pPORT n) F.PORT_PREEMPT_STATUS_VERIFY = 2)
      && decide ((c.portRt n).verifyAt + msCycles (c.get (pPORT n) F.PORT_PREEMPT_CFG_VERIFY_TIME) ≤ c.cycles) then
    let t := (c.portRt n).verifyTries + 1
    let c := c.setPortRt n { c.portRt n with verifyTries := t, verifyAt := c.cycles }
    if c.get (pPORT n) F.PORT_PREEMPT_CFG_VERIFY_LIMIT ≤ t then
      (c.put (pPORT n) F.PORT_PREEMPT_STATUS_VERIFY 4).raise (pPORT n) E.PORT_VERIFY_FAIL
    else c
  else c

/-- `CABLE_DIAG_CMD.START` (R84): a diagnosis runs only in SEARCH; elsewhere it ends INCONCLUSIVE at once. -/
def Chip.cableDiagStart (c : Chip) (n : Nat) : Chip :=
  if pageValid (pPHY n) then
    if c.linkState n = lsSearch then c.put (pPHY n) F.PHY_CABLE_DIAG_RESULT_BUSY 1
    else (c.put (pPHY n) F.PHY_CABLE_DIAG_RESULT_RESULT 3).raise (pPHY n) E.PHY_CABLE_DIAG_DONE
  else c

/-- A diagnosis finishes with a result and a distance (R83). -/
def Chip.cableDiagDone (c : Chip) (n result dist : Nat) : Chip :=
  if pageValid (pPHY n) && c.is (pPHY n) F.PHY_CABLE_DIAG_RESULT_BUSY then
    let c := c.put (pPHY n) F.PHY_CABLE_DIAG_RESULT_BUSY 0
    let c := (c.put (pPHY n) F.PHY_CABLE_DIAG_RESULT_RESULT result).put (pPHY n) F.PHY_CABLE_DIAG_RESULT_DIST_DM dist
    c.raise (pPHY n) E.PHY_CABLE_DIAG_DONE
  else c

/-- A write to `TEST_MODE` (R84): a test takes the link to SEARCH with LINK_DOWN, 0 restarts it. -/
def Chip.writeTestMode (c : Chip) (n mode : Nat) : Chip × Nat :=
  match c.refuseWrite (pPHY n) 0x15C true with
  | 0 =>
    let c := c.put (pPHY n) F.PHY_TEST_MODE_MODE mode
    (if c.linkState n = lsOff then c else if mode % 16 = 0 then c.restart n else c.linkTo n lsSearch, 0)
  | e => (c, e)

/-- The quality readings are refreshed while UP (R83). -/
def Chip.sqiRefresh (c : Chip) (n sqi : Nat) (margin : Option Nat) : Chip :=
  if pageValid (pPHY n) && decide (c.linkState n = lsUp) then
    let c := (c.put (pPHY n) F.PHY_SQI_VALUE sqi).put (pPHY n) F.PHY_SQI_VALID 1
    match margin with
    | some m => c.put (pPHY n) F.PHY_TX_MARGIN_CDB m
    | none => c
  else c

/-! ## Commit of the PORT and PHY pages (R81, R83) -/

/-- The rate and mode fit the port kind (R80). -/
def rateOk (n rate : Nat) (xmode : Bool) : Bool :=
  if isB n then decide (rate ≤ 3)
  else if isX n then (if xmode then decide (rate ≤ 5) else decide (rate ≤ 1))
  else if isG n then decide (rate = 0 ∨ rate = 4 ∨ rate = 5)
  else decide (rate = 0 ∨ rate = 6)

/-- The checks of a PORT page (R81); PORT28 to PORT30 have no `PREEMPT_CFG` (R280, R298). -/
def Chip.validatePort (c : Chip) (n : Nat) : Nat × Nat :=
  let p := pPORT n
  let v := c.staged p
  let maxLen := v F.PORT_MAC_CFG_MAX_LEN
  let fwd := v F.PORT_WAKE_FWD_MASK_PORTS
  let long : Bool := v F.PORT_RATE_CFG_LONG_BED = 1
  let usx : Bool := v F.PORT_RATE_CFG_X_MODE = 1
  let kr : Bool := v F.PORT_RATE_CFG_KR_FEC = 1
  let coord : Bool := v F.PORT_PLCA_CFG_PLCA_EN = 1 && v F.PORT_PLCA_CFG_NODE_ID = 0
  firstBad [
    (!rateOk n (v F.PORT_RATE_CFG_RATE) usx, rsnRange, 1),
    (long && (!isB n || decide (v F.PORT_RATE_CFG_RATE > 1) || decide (v F.PORT_RATE_CFG_AN_EN = 0)), rsnInvalid, 2),
    (decide (maxLen < 64 ∨ (if isS n then 2048 else 9216) < maxLen), rsnRange, 3),
    ((!isX n && (usx || kr)) || (kr && usx), rsnInvalid, 4),
    (!isS n && decide (c.reg p 0x164 ≠ 0), rsnInvalid, 5),
    (isS n && ((coord && decide (v F.PORT_PLCA_CFG_NODE_COUNT < 2 ∨ 16 < v F.PORT_PLCA_CFG_NODE_COUNT))
      || decide (v F.PORT_PLCA_CFG_TO_TIMER < 8)), rsnRange, 6),
    ((isS n && decide (v F.PORT_PREEMPT_CFG_PREEMPTABLE ≠ 0)) || decide (v F.PORT_PREEMPT_CFG_PREEMPTABLE = 0xFF), rsnInvalid, 7),
    ((isX n && decide (c.reg p 0x154 ≠ 0)) || fwd.testBit 6 || fwd.testBit 7 || fwd.testBit n, rsnInvalid, 8),
    (isWire n && decide (v F.PORT_PREEMPT_CFG_VERIFY_TIME = 0 ∨ v F.PORT_PREEMPT_CFG_VERIFY_LIMIT = 0), rsnRange, 9)]

/-- The check of a PHY page (R83). -/
def Chip.validatePhy (c : Chip) (n : Nat) : Nat × Nat :=
  firstBad [((List.range 8).any fun m => decide (4000000 < bitsAt (c.reg (pPHY n) (0x180 + 4 * m)) 0 22), rsnRange, 1)]

/-- What a commit of a PORT page does at T_apply beyond the new active set (R62, R66, R74, R81): a changed `RATE_CFG` discards
the warm record and restarts the link, a changed `PLCA_CFG` restarts it and ends the measurement of a port that is no follower (R80),
changed preemption is verified afresh unless it has failed on this link. -/
def Chip.appliedPort (c old : Chip) (n : Nat) : Chip :=
  if isWire n then
    let changed := fun off => decide (c.reg (pPORT n) (off + 0x800) ≠ old.reg (pPORT n) (off + 0x800))
    let c := if changed 0x148 then c.setWarm n none else c
    let c := if changed 0x164 ∧ ¬ c.follower n then c.put (pPORT n) F.PORT_PLCA_BEACON_INTERVAL 0 else c
    if changed 0x148 || changed 0x164 then (c.restart n).portFollow n
    else if changed 0x15C && decide (c.get (pPORT n) F.PORT_PREEMPT_STATUS_VERIFY ≠ 4) then c.startVerify n
    else c.forwardKept
  else c

/-! ## Meanings -/

/-- PARTNER_SIGNAL (R62): a partner signal or wake pulse in SEARCH. -/
def execPartnerSignal (dt port : Nat) (s : State) : Host.Outcome State Fault Refusal := .next (s.run dt fun c => c.partnerSignal port)

/-- TRAIN_COMPLETE (R62). -/
def execTrainComplete (dt port rate : Nat) (partnerLongBed resumeAble inverted : Bool) (s : State) :
    Host.Outcome State Fault Refusal :=
  .next (s.run dt fun c => c.trainComplete port rate partnerLongBed resumeAble inverted)

/-- LINK_TRAIN_FAIL (R64). -/
def execLinkTrainFail (dt port : Nat) (partnerLongBed : Bool) (s : State) : Host.Outcome State Fault Refusal :=
  .next (s.run dt fun c => c.linkTrainFail port partnerLongBed)

/-- RESUME_OK (R67). -/
def execResumeOk (dt port : Nat) (s : State) : Host.Outcome State Fault Refusal := .next (s.run dt fun c => c.resumeOk port)

/-- RESUME_FAIL (R62). -/
def execResumeFail (dt port : Nat) (s : State) : Host.Outcome State Fault Refusal := .next (s.run dt fun c => c.resumeFail port)

/-- PCS_LOCK_LOSS (R62). -/
def execPcsLockLoss (dt port : Nat) (s : State) : Host.Outcome State Fault Refusal := .next (s.run dt fun c => c.pcsLockLoss port)

/-- BEACON_LOSS (R70). -/
def execBeaconLoss (dt port : Nat) (s : State) : Host.Outcome State Fault Refusal := .next (s.run dt fun c => c.beaconLoss port)

/-- PLCA_BEACON_RX (R70, R72). -/
def execPlcaBeaconRx (dt port : Nat) (s : State) : Host.Outcome State Fault Refusal := .next (s.run dt fun c => c.plcaBeaconRx port)

/-- PLCA_BEACON_TX (R70). -/
def execPlcaBeaconTx (dt port : Nat) (s : State) : Host.Outcome State Fault Refusal := .next (s.run dt fun c => c.plcaBeaconTx port)

/-- A write of a command to `LINK_CMD` (R80). -/
def Chip.linkCmdWrite (c : Chip) (req : Requester) (port cmd : Nat) : Chip :=
  c.command req (pPORT port) 0x14C (BitVec.ofNat 32 cmd) fun c => c.linkCmd port cmd

/-- LINK_CMD_RESTART (R62). -/
def execLinkCmdRestart (dt : Nat) (req : Requester) (port : Nat) (s : State) : Host.Outcome State Fault Refusal :=
  .next (s.run dt fun c => c.linkCmdWrite req port 1)

/-- LINK_CMD_SLEEP (R62). -/
def execLinkCmdSleep (dt : Nat) (req : Requester) (port : Nat) (s : State) : Host.Outcome State Fault Refusal :=
  .next (s.run dt fun c => c.linkCmdWrite req port 2)

/-- LINK_CMD_WAKE (R62). -/
def execLinkCmdWake (dt : Nat) (req : Requester) (port : Nat) (s : State) : Host.Outcome State Fault Refusal :=
  .next (s.run dt fun c => c.linkCmdWrite req port 3)

/-- LINK_CMD_FORGET (R66). -/
def execLinkCmdForget (dt : Nat) (req : Requester) (port : Nat) (s : State) : Host.Outcome State Fault Refusal :=
  .next (s.run dt fun c => c.linkCmdWrite req port 4)

/-- PARTNER_SLEEP_REQUEST (R62). -/
def execPartnerSleepRequest (dt port : Nat) (s : State) : Host.Outcome State Fault Refusal :=
  .next (s.run dt fun c => c.partnerSleepRequest port)

/-- PARTNER_SLEEP_REJECT (R62). -/
def execPartnerSleepReject (dt port : Nat) (s : State) : Host.Outcome State Fault Refusal :=
  .next (s.run dt fun c => c.partnerSleepReject port)

/-- SLEEP_DONE (R62). -/
def execSleepDone (dt port : Nat) (s : State) : Host.Outcome State Fault Refusal := .next (s.run dt fun c => c.sleepDone port)

/-- SLEEP_DRAIN (R62). -/
def execSleepDrain (dt port : Nat) (s : State) : Host.Outcome State Fault Refusal := .next (s.run dt fun c => c.sleepDrain port)

/-- WAKE_RX (R69). -/
def execWakeRx (dt port : Nat) (s : State) : Host.Outcome State Fault Refusal := .next (s.run dt fun c => c.wakeRx port)

/-- VERIFY_FAIL (R74). -/
def execVerifyFail (dt port : Nat) (s : State) : Host.Outcome State Fault Refusal := .next (s.run dt fun c => c.verifyFail port)

/-- CABLE_DIAG_START (R84). -/
def execCableDiagStart (dt : Nat) (req : Requester) (port : Nat) (s : State) : Host.Outcome State Fault Refusal :=
  .next (s.run dt fun c => c.command req (pPHY port) 0x150 1 fun c => c.cableDiagStart port)

/-- CABLE_DIAG_DONE (R83). -/
def execCableDiagDone (dt port result dist : Nat) (s : State) : Host.Outcome State Fault Refusal :=
  .next (s.run dt fun c => c.cableDiagDone port result dist)

/-- TEST_MODE (R84). -/
def execTestMode (dt : Nat) (req : Requester) (port mode : Nat) (s : State) : Host.Outcome State Fault Refusal :=
  .next (s.run dt fun c => c.posted req (pPHY port) 0x15C (BitVec.ofNat 32 mode) fun c => c.writeTestMode port mode)

/-- SQI_REFRESH (R83). -/
def execSqiRefresh (dt port sqi : Nat) (margin : Option Nat) (s : State) : Host.Outcome State Fault Refusal :=
  .next (s.run dt fun c => c.sqiRefresh port sqi margin)

end Sys2Proof.Machine
end

