-- ==== Sys2Proof/Machine/Channels.lean ====
section
/-! DEFINITION. The CAN, LIN and UART channels (R230 to R237, R240, R241, R245 to R247): states, queues, what they send. -/
namespace Sys2Proof.Machine

open Sys2Proof

/-! ## Channels by logical port -/

abbrev isCan (p : Nat) : Bool := decide (32 ≤ p ∧ p < 48)
abbrev isLin (p : Nat) : Bool := decide (48 ≤ p ∧ p < 56)
abbrev isUart (p : Nat) : Bool := decide (56 ≤ p ∧ p < 60)

/-- The page of a channel. -/
def chanPage (p : Nat) : Page := if p < 48 then pCAN (p - 32) else if p < 56 then pLIN (p - 48) else pUART (p - 56)

/-- A counter that CAN, LIN and UART pages each have, at its index there. -/
def Chip.chanCount (c : Chip) (p can lin uart : Nat) : Chip :=
  if isCan p then c.count (chanPage p) can else if isLin p then c.count (chanPage p) lin
  else if isUart p then c.count (chanPage p) uart else c

def Chip.chanAdd (c : Chip) (p can lin uart n : Nat) : Chip :=
  if isCan p then c.addCnt (chanPage p) can n else if isLin p then c.addCnt (chanPage p) lin n
  else if isUart p then c.addCnt (chanPage p) uart n else c

/-- A message refused by the mode, counted at its ingress (R32, R240): a channel's page, or the PORT page. -/
def Chip.modeDrop (c : Chip) (p : Nat) : Chip :=
  if p < 32 then c.portCount p K.PORT_MODE_DROP else c.chanCount p K.CAN_MODE_DROP K.LIN_MODE_DROP K.UART_MODE_DROP

/-- `n` tenths of a millisecond in cycles. -/
def tenthMs (n : Nat) : Nat := n * 50000

/-- GCLK is lost (R241). -/
def Chip.clkSafe (c : Chip) : Bool := c.is pGW F.GW_GW_STATUS_CLK_SAFE

/-! ## The gateway input queue (R216) -/

/-- What an entry takes of the 64 KiB: its data (DEDUCED, log entry 34). -/
def GwItem.size (x : GwItem) : Nat := match x.msg with | some m => m.data.length | none => x.bytes.length

def Chip.inqBytes (c : Chip) : Nat := (c.inq.map GwItem.size).sum

/-- A message or a frame enters the input queue, or is discarded. -/
def Chip.inqPush (c : Chip) (x : GwItem) : Chip :=
  if 4096 ≤ c.inq.length ∨ 65536 < c.inqBytes + x.size then (c.count pGW K.GW_INQ_FULL).raise pGW E.GW_INQ_FULL
  else
    let c := { c with inq := c.inq ++ [{ x with asleep := decide (c.mode = modeSentry) }] }
    let n := c.inq.length
    let c := if c.get pGW F.GW_INQ_STATUS_MAX < n then c.put pGW F.GW_INQ_STATUS_MAX n else c
    c.perf 0x240 1

/-! ## CAN states and error counters (R232) -/

def Chip.setCanState (c : Chip) (n st : Nat) : Chip := c.put (pCAN n) F.CAN_CAN_STATUS_STATE st

/-- TEC and REC as the page shows them. -/
def Chip.showErrors (c : Chip) (n : Nat) : Chip :=
  let x := c.canRt n
  (c.put (pCAN n) F.CAN_CAN_STATUS_TEC (min x.tec 255)).put (pCAN n) F.CAN_CAN_STATUS_REC (min x.rxe 255)

/-- Every frame of a channel is discarded: untimed, aborts, release requests counted on its page, safe frames as SAFE_DROP. -/
def Chip.canDiscard (c : Chip) (n k : Nat) : Chip :=
  let x := c.canRt n
  let port := 32 + n
  let c := c.addCnt (pCAN n) k (x.queue.length + x.aborts.length + (c.relsOf port).length)
  let safe := (c.safeFrames.filter fun (f : SafeFrame) => decide (f.port = port)).length
  let c := { c with safeFrames := c.safeFrames.filter fun (f : SafeFrame) => decide (f.port ≠ port) }
  let c := if safe = 0 then c else c.addCnt pCINCH K.CINCH_SAFE_DROP safe
  { c.setCan n { x with queue := [], aborts := [] } with rels := c.rels.filter fun (q : RelReq) => decide (q.target ≠ port) }

/-- The channel goes from BUS_OFF to RECOVERING. -/
def Chip.canRecover (c : Chip) (n : Nat) : Chip := if c.canState n = caBUSOFF then c.setCanState n caRECOVERING else c

/-- The channel enters BUS_OFF. -/
def Chip.busOff (c : Chip) (n : Nat) : Chip :=
  let c := ((c.setCanState n caBUSOFF).count (pCAN n) K.CAN_BUS_OFF).raise (pCAN n) E.CAN_BUS_OFF
  let c := c.canDiscard n K.CAN_TX_BUSOFF_DROP
  if c.is (pCAN n) F.CAN_CAN_CFG_AUTO_RECOVER then c.canRecover n else c

/-- The error state follows the counters. -/
def Chip.canErrorState (c : Chip) (n : Nat) : Chip :=
  let x := c.canRt n
  let st := c.canState n
  if st = caACTIVE ∨ st = caPASSIVE then
    if 255 < x.tec then c.busOff n
    else if st = caACTIVE ∧ (127 < x.tec ∨ 127 < x.rxe) then (c.setCanState n caPASSIVE).raise (pCAN n) E.CAN_ERR_PASSIVE
    else if st = caPASSIVE ∧ x.tec ≤ 127 ∧ x.rxe ≤ 127 then c.setCanState n caACTIVE
    else c
  else c

/-- New error counters: the warning at 96, then the state. -/
def Chip.setErrors (c : Chip) (n tec rxe : Nat) : Chip :=
  let x := c.canRt n
  let warn := decide ((x.tec < 96 ∧ 96 ≤ tec) ∨ (x.rxe < 96 ∧ 96 ≤ rxe))
  let c := (c.setCan n { x with tec := tec, rxe := rxe }).showErrors n
  let c := if warn then c.raise (pCAN n) E.CAN_ERR_WARN else c
  c.canErrorState n

/-- The channel leaves whatever it did: OFF, with its error counters at 0 (PRESUMED, log entry 35). -/
def Chip.canOff (c : Chip) (n : Nat) : Chip := ((c.setCan n { c.canRt n with tec := 0, rxe := 0 }).showErrors n).setCanState n caOFF

/-- The channel follows `CTRL.EN` and the mode. -/
def Chip.canFollow (c : Chip) (n : Nat) : Chip :=
  if c.ready (pCAN n) then
    (if c.canState n = caOFF then (if c.clkSafe then c.setCanState n caCLKSAFE else c.setCanState n caINTEGRATING) else c)
  else if c.canState n = caOFF then c else c.canOff n

/-- A frame was received good (ISO 11898-1): REC falls; from above 127 it takes a value of 119 to 127 (PRESUMED, log entry 35). -/
def Chip.canRxOk (c : Chip) (n : Nat) : Chip :=
  let x := c.canRt n
  if x.rxe = 0 then c
  else if x.rxe ≤ 127 then c.setErrors n x.tec (x.rxe - 1)
  else let (v, c) := c.takeFree; c.setErrors n x.tec (119 + v % 9)

def canErrCounter : CanError → Nat
  | .bit => K.CAN_BIT_ERR | .stuff => K.CAN_STUFF_ERR | .form => K.CAN_FORM_ERR | .crc => K.CAN_CRC_ERR | .ack => K.CAN_ACK_ERR

/-- An error of a frame being received; `dominant` says that the bit after the error flag was dominant (ISO 11898-1). -/
def Chip.canRxError (c : Chip) (n : Nat) (e : CanError) (dominant : Bool) : Chip :=
  if n < 16 ∧ (c.canState n = caACTIVE ∨ c.canState n = caPASSIVE) then
    let x := c.canRt n
    (c.count (pCAN n) (canErrCounter e)).setErrors n x.tec (x.rxe + 1 + (if dominant then 8 else 0))
  else c

/-! ## CAN queues (R231, R245) -/

/-- A copy refused because its channel cannot send, or the lack of room. -/
def Chip.canEnqueue (c : Chip) (n : Nat) (t : TxMsg) : Chip × Bool :=
  if ¬ c.canTakes n then (c.count (pCAN n) K.CAN_TX_BUSOFF_DROP, false)
  else if ¬ c.ramRoom (32 + n) t.msg then (c.count (pCAN n) K.CAN_TX_FULL_DROP, false)
  else
    let x := c.canRt n
    let c := c.setCan n { x with queue := x.queue ++ [{ t with at' := c.cycles }] }
    let k := (c.canRt n).queue.length
    (if c.get (pCAN n) F.CAN_TXQ_STATUS_MAX < k then c.put (pCAN n) F.CAN_TXQ_STATUS_MAX k else c, true)

/-- The arbitration field of a frame as a number: the lower wins. -/
def arbitration (m : Msg) : Nat :=
  if m.ide then m.id / 2 ^ 18 % 2048 * 2 ^ 21 + 2 ^ 20 + 2 ^ 19 + m.id % 2 ^ 18 * 2 + m.rtr.toNat
  else m.id % 2048 * 2 ^ 21 + m.rtr.toNat * 2 ^ 20

/-- The untimed frame whose turn it is. -/
def Chip.canNext (c : Chip) (n : Nat) : Option TxMsg :=
  let q := (c.canRt n).queue
  if c.is (pCAN n) F.CAN_CAN_CFG_TX_ORDER then q.head?
  else q.foldl (fun (b : Option TxMsg) t => match b with
    | none => some t
    | some a => if arbitration t.msg < arbitration a.msg then some t else b) none

/-- Untimed frames that are too old when they would be chosen are discarded; the frame that is chosen. -/
def Chip.canFresh (c : Chip) (n : Nat) : Nat → Chip × Option TxMsg
  | 0 => (c, none)
  | k + 1 =>
    match c.canNext n with
    | none => (c, none)
    | some t =>
      let age := c.get (pCAN n) F.CAN_CAN_CFG_MAX_AGE_MS
      if age ≠ 0 ∧ t.at' + msCycles age < c.cycles then
        let x := c.canRt n
        Chip.canFresh ((c.setCan n { x with queue := x.queue.erase t }).count (pCAN n) K.CAN_TX_STALE) n k
      else (c, some t)

/-- What a channel sends next. -/
inductive CanPick where
  | safe (f : SafeFrame) (m : Msg)
  | timed (q : RelReq) (t : TxMsg)
  | abort (t : TxMsg)
  | queued (t : TxMsg)
  deriving DecidableEq, Repr

/-- QUARANTINE lets safe frames out and nothing else; once they are out the controllers listen only (R240). -/
def Chip.canQuiet (c : Chip) : Bool := decide (c.mode = modeQuarantine)

/-- The first candidate of R231. -/
def Chip.canPick (c : Chip) (n : Nat) : Chip × Option CanPick :=
  let port := 32 + n
  match c.safeFrames.find? fun (f : SafeFrame) => decide (f.port = port) with
  | some f => (c, f.msg.map fun m => .safe f m)
  | none =>
    if c.canQuiet then (c, none)
    else match c.relDue port with
      | some q => (c, q.msg.map fun t => .timed q t)
      | none =>
        match (c.canRt n).aborts.head? with
        | some t => (c, some (.abort t))
        | none =>
          if c.guardBlocks port then (c, none)
          else
            let (c, t) := c.canFresh n ((c.canRt n).queue.length + 1)
            (c, t.map .queued)

/-- The candidate stays in its place with another retry count; an equal one behind it keeps its own. -/
def Chip.canKeep (c : Chip) (n : Nat) (p : CanPick) (retries : Nat) : Chip :=
  match p with
  | .safe f _ => { c with safeFrames := c.safeFrames.replace f { f with retries := retries } }
  | .timed q t => { c with rels := c.rels.replace q { q with msg := some { t with retries := retries } } }
  | .abort t => let x := c.canRt n; c.setCan n { x with aborts := x.aborts.replace t { t with retries := retries } }
  | .queued t => let x := c.canRt n; c.setCan n { x with queue := x.queue.replace t { t with retries := retries } }

def Chip.canRemove (c : Chip) (n : Nat) (p : CanPick) : Chip :=
  match p with
  | .safe f _ => { c with safeFrames := c.safeFrames.erase f }
  | .timed q _ => { c with rels := c.rels.erase q }
  | .abort t => let x := c.canRt n; c.setCan n { x with aborts := x.aborts.erase t }
  | .queued t => let x := c.canRt n; c.setCan n { x with queue := x.queue.erase t }

def CanPick.retries : CanPick → Nat
  | .safe f _ => f.retries
  | .timed _ t | .abort t | .queued t => t.retries

/-- The candidate has been sent; a released frame is logged with its start of frame (R156). -/
def Chip.canSent (c : Chip) (n : Nat) (p : CanPick) (waited : Bool) : Chip :=
  let x := c.canRt n
  let c := (c.count (pCAN n) K.CAN_TX_FRAMES).setErrors n (x.tec - 1) x.rxe
  match p with
  | .safe f _ => (c.canRemove n (.safe f {kind := .can})).count pCINCH K.CINCH_SAFE_SENT
  | .timed q _ => c.logRelease q waited
  | p => c.canRemove n p

/-- Its transmission ends in an error: TEC rises, it is retried up to `RETRY_LIMIT` times. An acknowledgement error of an
error-passive channel leaves TEC as it is (ISO 11898-1). -/
def Chip.canTxError (c : Chip) (n : Nat) (p : CanPick) (e : CanError) : Chip :=
  let x := c.canRt n
  let c := c.count (pCAN n) (canErrCounter e)
  let limit := c.get (pCAN n) F.CAN_CAN_CFG_RETRY_LIMIT
  let c := if limit ≠ 0 ∧ limit ≤ p.retries then (c.canRemove n p).count (pCAN n) K.CAN_TX_RETRY_DROP
    else c.canKeep n p (p.retries + 1)
  if e = .ack ∧ c.canState n = caPASSIVE then c else c.setErrors n (x.tec + 8) x.rxe

/-- A candidate starts: what becomes of it. -/
def Chip.canAttempt (c : Chip) (n : Nat) (p : CanPick) (r : CanResult) (waited : Bool) : Chip :=
  match r with
  | .sent => c.canSent n p waited
  | .arbitrationLost => c.count (pCAN n) K.CAN_ARB_LOST
  | .bitError => c.canTxError n p .bit
  | .stuffError => c.canTxError n p .stuff
  | .formError => c.canTxError n p .form
  | .ackError => c.canTxError n p .ack
  | .crcError => c.canTxError n p .crc

/-- The channel may start a frame. -/
def Chip.canSends (c : Chip) (n : Nat) : Bool :=
  decide (n < 16) && c.ready (pCAN n) && decide (c.canState n = caACTIVE ∨ c.canState n = caPASSIVE)
    && !c.is (pCAN n) F.CAN_CAN_CFG_LISTEN_ONLY

/-- A channel chooses a frame and starts it (R231). -/
def Chip.canTx (c : Chip) (n : Nat) (r : CanResult) (waited : Bool) : Chip :=
  if c.canSends n then
    match c.canPick n with
    | (c, some p) => c.canAttempt n p r waited
    | (c, none) => c
  else c

/-- Every untimed frame discarded (R245). -/
def Chip.canFlush (c : Chip) (n : Nat) : Chip :=
  let x := c.canRt n
  (c.setCan n { x with queue := [] }).addCnt (pCAN n) K.CAN_TX_FULL_DROP x.queue.length

/-- `CAN_CMD` (R245). -/
def Chip.canCmd (c : Chip) (n cmd : Nat) : Chip :=
  match cmd with
  | 1 => c.canRecover n
  | 2 => c.canFlush n
  | 3 => c.put (pCAN n) F.CAN_TXQ_STATUS_MAX 0
  | _ => c

/-! ## LIN (R233 to R235, R246) -/

abbrev fFcPublish : TFld := ⟨0, 0, 1⟩
abbrev fFcSubscribe : TFld := ⟨0, 1, 1⟩
abbrev fFcLen : TFld := ⟨0, 2, 4⟩
abbrev fFcClassic : TFld := ⟨0, 6, 1⟩
abbrev fSdStart : TFld := ⟨0, 0, 11⟩
abbrev fSdCount : TFld := ⟨0, 16, 12⟩
abbrev fSdValid : TFld := ⟨0, 31, 1⟩
abbrev fSeType : TFld := ⟨0, 0, 3⟩
abbrev fSeId : TFld := ⟨0, 8, 6⟩
abbrev fSeSlot : TFld := ⟨1, 0, 16⟩
abbrev fSeColl : TFld := ⟨1, 16, 6⟩

abbrev liOFF : Nat := 0
abbrev liIDLE : Nat := 1
abbrev liRUN : Nat := 2
abbrev liSLEEP : Nat := 3
abbrev liCLKSAFE : Nat := 4

def Chip.linState (c : Chip) (n : Nat) : Nat := c.get (pLIN n) F.LIN_LIN_STATUS_STATE
def Chip.setLinState (c : Chip) (n st : Nat) : Chip := c.put (pLIN n) F.LIN_LIN_STATUS_STATE st
def Chip.linMaster (c : Chip) (n : Nat) : Bool := c.is (pLIN n) F.LIN_LIN_CFG_MASTER

/-- The table and the entry as the page shows them. -/
def Chip.showSched (c : Chip) (n : Nat) : Chip :=
  let x := c.linRt n
  (c.put (pLIN n) F.LIN_LIN_STATUS_TABLE x.table).put (pLIN n) F.LIN_LIN_STATUS_ENTRY x.entry

/-- A master's schedule starts at the first entry of its table. -/
def Chip.linRestart (c : Chip) (n : Nat) : Chip :=
  let t := c.get (pLIN n) F.LIN_LIN_SCHED_TABLE
  (c.setLin n { c.linRt n with home := t, table := t, entry := 0, back := [], slotEnd := c.cycles, wokeAt := none }).showSched n

/-- The state that a channel has outside sleep: RUNNING as a master with its schedule, else IDLE. -/
def Chip.linAwake (c : Chip) (n : Nat) : Chip :=
  if c.linMaster n && c.is (pLIN n) F.LIN_LIN_SCHED_RUN then
    (if c.linState n = liRUN then c else (c.linRestart n).setLinState n liRUN)
  else c.setLinState n liIDLE

/-- The channel follows `CTRL.EN`, the mode, `MASTER` and `RUN`; asleep, and until 100 ms after a wake (R235), it waits. -/
def Chip.linFollow (c : Chip) (n : Nat) : Chip :=
  if ¬ c.ready (pLIN n) then c.setLinState n liOFF
  else if c.clkSafe then c.setLinState n liCLKSAFE
  else if c.linState n = liSLEEP ∨ (c.linState n = liIDLE ∧ (c.linRt n).wokeAt.isSome) then c
  else c.linAwake n

/-- The buffer of a frame ID. -/
def Chip.linBuf (c : Chip) (n id : Nat) : Option LinBuf := lookupD none (c.linRt n).bufs id
def Chip.setLinBuf (c : Chip) (n id : Nat) (b : Option LinBuf) : Chip :=
  let x := c.linRt n
  c.setLin n { x with bufs := store none x.bufs id b }

/-- Data written into the publish or response buffer of a frame ID (R219). The buffer has eight bytes; those that the data does
not give hold a free value (log entry 36). -/
def Chip.linWrite (c : Chip) (n id : Nat) (data : List Byte) : Chip :=
  if data.length < 8 then
    let (v, c) := c.takeFree
    c.setLinBuf n (id % 64) (some ⟨data ++ (leBytes 8 v).drop data.length, true⟩)
  else c.setLinBuf n (id % 64) (some ⟨data.take 8, true⟩)

/-- A received message handed to the routes, with the stamp of its start of frame `ago` cycles back (R21, R222). -/
def Chip.toRoutes (c : Chip) (port : Nat) (m : Msg) (ago : Nat) : Chip :=
  if c.mode = modeQuarantine then c.modeDrop port
  else c.inqPush { port := port, msg := some m, ingress := port, origin := port, stamp := c.stampAgo ago
                   time := (c.localTime - ago * c.incr) / 2 ^ 40, valid := c.timeValid, seen := c.mono - 2 * ago }

/-- A response that the channel receives for a subscribed ID (R233); one of fewer than LEN bytes is none within the maximum frame time
(DEDUCED, log entry 109). -/
def Chip.linReceive (c : Chip) (n id : Nat) (r : LinResponse) (ago : Nat) : Chip :=
  let p := pLIN n
  match r with
  | .data bytes =>
    let len := c.tget p 0 id fFcLen
    if bytes.length < len then c.count p K.LIN_NO_RESPONSE
    else (c.count p K.LIN_RX_FRAMES).toRoutes (48 + n) { kind := .lin, id := id, data := bytes.take len } ago
  | .checksumError => c.count p K.LIN_CHECKSUM_ERR
  | .framingError => c.count p K.LIN_FRAMING_ERR
  | .bitError => c.count p K.LIN_BIT_ERR
  | .none => c.count p K.LIN_NO_RESPONSE

/-- The protected identifier of a frame ID: its parity bits are ISO 17987's (PRESUMED, log entry 109). -/
def linPid (id : Nat) : Nat :=
  let b := fun i => (id.testBit i).toNat
  id % 64 + 64 * ((b 0 + b 1 + b 2 + b 4) % 2) + 128 * ((b 1 + b 3 + b 4 + b 5 + 1) % 2)

/-- The checksum of a response: the inverted sum with carry of its bytes, of the protected identifier too unless CLASSIC (R233; PRESUMED,
log entry 109). -/
def linChecksum (classic : Bool) (id : Nat) (bs : List Byte) : Byte :=
  let add := fun (a b : Nat) => let s := a + b; if 256 ≤ s then s - 255 else s
  BitVec.ofNat 8 (255 - bs.foldl (fun a (b : Byte) => add a b.toNat) (if classic then 0 else linPid id))

/-- A response leaves with the checksum of its ID's FRAME_CFG (R233). -/
def Chip.linRespond (c : Chip) (n id : Nat) (bs : List Byte) : Chip :=
  c.emit (.linResponse n id (bs ++ [linChecksum (c.tis (pLIN n) 0 id fFcClassic) id bs]))

/-- A response that the channel sends from its buffer, with the length of FRAME_CFG (R233). -/
def Chip.linPublish (c : Chip) (n id : Nat) (r : LinResponse) : Chip :=
  match c.linBuf n id with
  | none => c.count (pLIN n) K.LIN_NO_DATA
  | some b =>
    let c := c.linRespond n id (b.data.take (c.tget (pLIN n) 0 id fFcLen))
    if r = .bitError then c.count (pLIN n) K.LIN_BIT_ERR
    else (c.setLinBuf n id (some { b with fresh := false })).count (pLIN n) K.LIN_TX_FRAMES

/-- QUARANTINE allows a LIN channel no transmission (R240). -/
def Chip.linQuiet (c : Chip) : Bool := decide (c.mode = modeQuarantine)

/-- A header is on the bus: the channel answers, receives or ignores (R233). -/
def Chip.linHeader (c : Chip) (n id : Nat) (r : LinResponse) (ago : Nat) : Chip :=
  if c.tis (pLIN n) 0 id fFcPublish then (if c.linQuiet then c else c.linPublish n id r)
  else if c.tis (pLIN n) 0 id fFcSubscribe then c.linReceive n id r ago
  else c

/-- Field `f` of entry `k` of schedule table `t`. -/
def Chip.sched (c : Chip) (t k : Nat) (f : TFld) : Nat := c.tget pGW 5 (c.tget pGW 4 t fSdStart + k) f

/-- After an entry: the next one, the end of a collision-resolution table, or the first entry again. -/
def Chip.schedNext (c : Chip) (x : LinRt) : LinRt :=
  if x.entry + 1 < c.tget pGW 4 x.table fSdCount then { x with entry := x.entry + 1 }
  else match x.back with
    | (t, k) :: l => { x with table := t, entry := k, back := l }
    | [] => { x with entry := 0 }

/-- The frame ID that a SPORADIC entry sends. -/
def Chip.sporadic (c : Chip) (n t k : Nat) : Option Nat :=
  (List.range 4).findSome? fun i =>
    let id := c.sched t k ⟨2, 8 * i, 6⟩
    let fresh : Bool := match c.linBuf n id with | some b => b.fresh | none => false
    if c.sched t k ⟨2, 8 * i + 7, 1⟩ = 1 ∧ fresh then some id else none

/-- The channel goes to sleep: its schedule stops (R234, R246). -/
def Chip.linSleep (c : Chip) (n : Nat) : Chip :=
  if c.linState n = liIDLE ∨ c.linState n = liRUN then (c.setLinState n liSLEEP).raise (pLIN n) E.LIN_SLEEP_DONE else c

/-- The data of the go-to-sleep command, frame 0x3C (ISO 17987; PRESUMED, log entry 109). -/
def linSleepData : List Byte := [0x00, 0xFF, 0xFF, 0xFF, 0xFF, 0xFF, 0xFF, 0xFF]

/-- One entry of the schedule (R234). -/
def Chip.runEntry (c : Chip) (n : Nat) (r : LinResponse) : Chip :=
  let x := c.linRt n
  let t := x.table
  let k := x.entry
  let id := c.sched t k fSeId
  let y := { c.schedNext x with slotEnd := c.cycles + tenthMs (c.sched t k fSeSlot) }
  let c := (c.setLin n y).showSched n
  match c.sched t k fSeType with
  | 0 => c.linHeader n id r 0
  | 1 =>
    if r = .checksumError ∨ r = .framingError then
      let c := c.count (pLIN n) K.LIN_EVENT_COLLISION
      (c.setLin n { y with table := c.sched t k fSeColl, entry := 0, back := (y.table, y.entry) :: y.back }).showSched n
    else c.linHeader n id r 0
  | 2 => match c.sporadic n t k with | some id => c.linHeader n id r 0 | none => c
  | 3 => c.linHeader n 0x3C r 0
  | 4 => c.linHeader n 0x3D r 0
  | 5 => ((c.linRespond n 0x3C linSleepData).count (pLIN n) K.LIN_TX_FRAMES).linSleep n
  | _ => c

/-- A slot of a running master starts (R234): not while one is in progress, nor before a due release (R154). -/
def Chip.linSlot (c : Chip) (n : Nat) (r : LinResponse) : Chip :=
  let x := c.linRt n
  if n < 8 ∧ c.ready (pLIN n) ∧ ¬ c.linQuiet ∧ c.linState n = liRUN ∧ x.slotEnd ≤ c.cycles ∧ (c.relDue (48 + n)).isNone ∧ ¬ c.guardBlocks (48 + n) then
    let t := c.get (pLIN n) F.LIN_LIN_SCHED_TABLE
    let c := if t = x.home then c else (c.linRestart n).raise (pLIN n) E.LIN_SCHED_SWITCH
    if c.tis pGW 4 (c.linRt n).table fSdValid then c.runEntry n r else c
  else c

/-- A slave receives a header (R235): it measures the sync field in every state except OFF (R305); in IDLE its rate must lie within 14 %
where it measures, then its parity is checked, then FRAME_CFG says what follows. -/
def Chip.linHeaderRx (c : Chip) (n id bitNs : Nat) (parityOk : Bool) (r : LinResponse) (ago : Nat) : Chip :=
  let p := pLIN n
  if n < 8 ∧ c.ready p ∧ ¬ c.linMaster n ∧ c.linState n ≠ liOFF then
    let auto := c.is p F.LIN_LIN_CFG_AUTOBAUD
    let rate := c.get p F.LIN_LIN_CFG_BITRATE
    let c := if auto then c.put p F.LIN_LIN_SYNC_NS bitNs else c
    if c.linState n ≠ liIDLE then c
    else if auto ∧ (100 * 10 ^ 9 < 86 * rate * bitNs ∨ 114 * rate * bitNs < 100 * 10 ^ 9) then
      c.count p K.LIN_SYNC_ERR
    else if ¬ parityOk then c.count p K.LIN_PID_ERR
    else c.linHeader n (id % 64) r ago
  else c

/-- The channel leaves sleep (R235): a master's table starts 100 ms later. -/
def Chip.linWake (c : Chip) (n : Nat) : Chip :=
  if c.linState n = liSLEEP then (c.setLinState n liIDLE).setLin n { c.linRt n with wokeAt := some c.cycles } else c

/-- `LIN_CMD` (R246). -/
def Chip.linCmd (c : Chip) (n cmd : Nat) : Chip :=
  match cmd with
  | 1 => if c.linState n = liSLEEP ∧ ¬ c.linQuiet then (c.emit (.wakePulse (48 + n))).linWake n else c
  | 2 => c.linSleep n
  | _ => c

/-- 100 ms after a wake (R235). -/
def Chip.schedRestart (c : Chip) (n : Nat) : Chip :=
  match (c.linRt n).wokeAt with
  | some t => if t + msCycles 100 ≤ c.cycles ∧ c.linState n = liIDLE then (c.setLin n { c.linRt n with wokeAt := none }).linAwake n else c
  | none => c

/-- The slot of an inserted frame in cycles (R234). -/
def Chip.insertSlot (c : Chip) (n len : Nat) : Nat := 14 * (34 + 10 * (len + 1)) * 50000000 / max 1 (c.get (pLIN n) F.LIN_LIN_CFG_BITRATE)

/-- A due release on a LIN channel (R155, R234): a master inserts the frame; a slave's response buffer takes the data. None in QUARANTINE
(R240). -/
def Chip.linRelease (c : Chip) (n : Nat) (waited : Bool) : Chip :=
  match c.relDue (48 + n) with
  | none => c
  | some q =>
    match q.msg with
    | none => c
    | some t =>
      if c.linQuiet then c
      else if c.linMaster n then
        let x := c.linRt n
        if (c.linState n = liRUN ∨ c.linState n = liIDLE) ∧ x.slotEnd ≤ c.cycles then
          let c := c.setLin n { x with slotEnd := c.cycles + c.insertSlot n t.msg.data.length }
          ((c.linRespond n (t.msg.id % 64) t.msg.data).count (pLIN n) K.LIN_TX_FRAMES).logRelease q waited
        else c
      else (c.linWrite n t.msg.id t.msg.data).logRelease q waited

/-! ## UART (R236, R237, R246) -/

/-- The bit rate of a channel: while GCLK runs from HFRC at most 1 Mb/s (R236); a higher BAUD then acts as that (DESIGN CHOICE, log
entry 109). -/
def Chip.uartBaud (c : Chip) (n : Nat) : Nat :=
  let b := max 1 (c.get (pUART n) F.UART_UART_CFG_BAUD)
  if c.is pCLK F.CLK_CLK_SEL_GCLK_HFRC then min b 1000000 else b

/-- `k` bit times in cycles; the same for eighths of one. -/
def Chip.uartBits (c : Chip) (n k : Nat) : Nat := k * 500000000 / c.uartBaud n
def Chip.uartEighths (c : Chip) (n k : Nat) : Nat := k * 62500000 / c.uartBaud n

/-- Bits of a character: start, data, parity, stop. -/
def Chip.uartChar (c : Chip) (n : Nat) : Nat :=
  let p := pUART n
  8 + c.get p F.UART_UART_CFG_DATA + (if c.get p F.UART_UART_CFG_PARITY = 0 then 0 else 1) + c.get p F.UART_UART_CFG_STOP2 + 1

/-- The length at which a message in LENGTH mode ends, once it is known. -/
def Chip.uartLength (c : Chip) (n : Nat) (rx : List Byte) : Option Nat :=
  let p := pUART n
  if c.is p F.UART_UART_LEN_LEN_FIELD_EN then
    let k := 1 + c.get p F.UART_UART_LEN_TWO
    let o := c.get p F.UART_UART_LEN_LEN_OFF
    if rx.length < o + k then none
    else some ((beAt rx o k : Int) + signedOf (c.get p F.UART_UART_LEN_LEN_ADJ) 5).toNat
  else some (c.get p F.UART_UART_FRAME_FIX_LEN)

/-- Do the received characters make a whole message? -/
def Chip.uartWhole (c : Chip) (n : Nat) (rx : List Byte) : Bool :=
  let p := pUART n
  match c.get p F.UART_UART_FRAME_MODE with
  | 1 => match c.uartLength n rx with | some l => decide (l ≤ rx.length) | none => false
  | 2 =>
    if c.is p F.UART_UART_DELIM_USE1 then
      decide (2 ≤ rx.length) && decide (byteAt rx (rx.length - 2) = c.get p F.UART_UART_DELIM_DELIM0)
        && decide (byteAt rx (rx.length - 1) = c.get p F.UART_UART_DELIM_DELIM1)
    else decide (byteAt rx (rx.length - 1) = c.get p F.UART_UART_DELIM_DELIM0)
  | _ => false

/-- The message being received ends: handed to the routes unless it was spoilt. -/
def Chip.uartEnd (c : Chip) (n : Nat) : Chip :=
  let x := c.uartRt n
  let c := c.setUart n { x with rx := [], rxBad := false }
  if x.rxBad ∨ x.rx = [] then c
  else
    let c := c.count (pUART n) K.UART_RX_MSGS
    if c.mode = modeQuarantine then c.modeDrop (56 + n)
    else c.inqPush { port := 56 + n, msg := some { kind := .uart, data := x.rx }, ingress := 56 + n, origin := 56 + n, stamp := x.stamp
                     time := x.time, valid := x.valid, seen := x.seen }

/-- One character; `ago` is the time since its start bit. Of nine data bits a message carries the low eight: the spec gives the ninth no
place in it (DESIGN CHOICE, log entry 109). A message of more than 256 bytes is followed to its end. -/
def Chip.uartByte (c : Chip) (n ago : Nat) (b : Byte) : Chip :=
  let x := c.uartRt n
  let first := x.rx = [] ∧ ¬ x.rxBad
  let x := if first then { x with stamp := c.stampAgo ago, time := (c.localTime - ago * c.incr) / 2 ^ 40, valid := c.timeValid, seen := c.mono - 2 * ago } else x
  let tooLong := decide (256 ≤ x.rx.length)
  let c := if tooLong ∧ ¬ x.rxBad then c.count (pUART n) K.UART_OVERSIZE else c
  let b := if c.get (pUART n) F.UART_UART_CFG_DATA = 0 then b &&& 0x7F else b
  let x := { x with rx := x.rx ++ [b], rxBad := x.rxBad || tooLong }
  let c := c.setUart n x
  if c.uartWhole n x.rx then c.uartEnd n else c

/-- A field of RS485_CFG, without effect while EN is 0 (R237). -/
def Chip.rs485 (c : Chip) (n : Nat) (f : Fld) : Nat := if c.is (pUART n) F.UART_RS485_CFG_EN then c.get (pUART n) f else 0

/-- The channel may start a message: idle, and the turn gap has passed (R237). -/
def Chip.uartFree (c : Chip) (n : Nat) : Bool :=
  let x := c.uartRt n
  let gap := c.uartBits n (c.rs485 n F.UART_RS485_CFG_TURN_GAP)
  decide (n < 4) && c.ready (pUART n) && !c.clkSafe && decide (c.mode ≠ modeQuarantine) && decide (x.txEnd ≤ c.cycles ∧ x.lastRx + gap ≤ c.cycles)

/-- DE_LEAD in cycles. -/
def Chip.uartLead (c : Chip) (n : Nat) : Nat := c.uartEighths n (c.rs485 n F.UART_RS485_CFG_DE_LEAD)

/-- For how many cycles the driver enable has led the timed release at the head of an idle channel's queue (R237): from DE_LEAD before its
instant, or from when the channel was idle. One past on arrival, or released while the time was INVALID, has had no lead. -/
def Chip.uartLed (c : Chip) (n : Nat) : Option Nat :=
  match (c.relsOf (56 + n)).head? with
  | some q =>
    let x := c.uartRt n
    let ns : Int := (c.localNs : Int) - (q.r - 2 * (c.uartLead n : Int))
    if q.late ∨ q.notime ∨ ¬ c.uartFree n ∨ ¬ c.timeValid ∨ ns < 0 then none
    else some (min (ns.toNat / 2) (c.cycles - max x.txEnd (x.lastRx + c.uartBits n (c.rs485 n F.UART_RS485_CFG_TURN_GAP))))
  | none => none

/-- The driver enable (R237) as it has been for `ago` cycles: during a message with its lead and its lag, and from DE_LEAD before the
instant of a release on an idle channel. -/
def Chip.uartDeSince (c : Chip) (n ago : Nat) : Bool :=
  c.is (pUART n) F.UART_RS485_CFG_EN
    && (decide (c.cycles - ago < (c.uartRt n).deEnd) || match c.uartLed n with | some k => decide (ago ≤ k) | none => false)

/-- The driver enable now. -/
def Chip.uartDe (c : Chip) (n : Nat) : Bool := c.uartDeSince n 0

/-- A run of characters on a UART line (R236), the first start bit `ago` cycles back: with ECHO_SUPPRESS nothing is received while the
driver enable is asserted (R237). -/
def Chip.uartRx (c : Chip) (n : Nat) (chars : List Byte) (parity framing : Bool) (idle ago : Nat) : Chip :=
  let p := pUART n
  let x := c.uartRt n
  let echo := c.is p F.UART_RS485_CFG_ECHO_SUPPRESS && c.uartDeSince n ago
  if ¬ (n < 4) ∨ ¬ c.ready p ∨ c.clkSafe ∨ echo then c
  else
    let c := if parity then c.count p K.UART_PARITY_ERR else c
    let c := if framing then c.count p K.UART_FRAMING_ERR else c
    let c := c.setUart n { x with lastRx := c.cycles, rxBad := x.rxBad || parity || framing }
    let step := c.uartBits n (c.uartChar n)
    let c := (chars.foldl (fun (a : Chip × Nat) b => (a.1.uartByte n (ago - a.2 * step) b, a.2 + 1)) (c, 0)).1
    if c.get p F.UART_UART_FRAME_GAP_BITS ≤ idle then
      let x := c.uartRt n
      let short := decide (c.get p F.UART_UART_FRAME_MODE ≠ 0) && decide (x.rx ≠ [])
      if short then ((if x.rxBad then c else c.count p K.UART_PARTIAL).setUart n { x with rx := [], rxBad := false }) else c.uartEnd n
    else c

/-- A message queued on a UART channel. -/
def Chip.uartEnqueue (c : Chip) (n : Nat) (t : TxMsg) : Chip × Bool :=
  if c.ramRoom (56 + n) t.msg then
    let x := c.uartRt n
    (c.setUart n { x with queue := x.queue ++ [{ t with at' := c.cycles }] }, true)
  else (c.count (pUART n) K.UART_TX_FULL_DROP, false)

/-- A message starts: its characters leave back to back, the first start bit DE_LEAD after the driver enable, which ends DE_LAG after the
last stop bit (R237). The driver enable has led it by `led` cycles. -/
def Chip.uartStart (c : Chip) (n : Nat) (m : Msg) (led : Nat) : Chip :=
  let x := c.uartRt n
  let lead := c.uartLead n - led
  let done := c.cycles + lead + c.uartBits n (c.uartChar n * m.data.length)
  (c.setUart n { x with txEnd := done, deEnd := done + c.uartEighths n (c.rs485 n F.UART_RS485_CFG_DE_LAG) }).count (pUART n) K.UART_TX_MSGS

/-- A due release on a UART channel. -/
def Chip.uartRelease (c : Chip) (n : Nat) (waited : Bool) : Chip :=
  match c.relDue (56 + n) with
  | some q => match q.msg, c.uartFree n with
    | some t, true => (c.uartStart n t.msg ((c.uartLed n).getD 0)).logRelease q waited
    | _, _ => c
  | none => c

/-- UART_TX: a due release first, then the queue. -/
def Chip.uartTx (c : Chip) (n : Nat) (waited : Bool) : Chip :=
  if ¬ c.uartFree n then c
  else if (c.relDue (56 + n)).isSome then c.uartRelease n waited
  else if c.guardBlocks (56 + n) then c
  else match (c.uartRt n).queue with
    | t :: l => (c.setUart n { c.uartRt n with queue := l }).uartStart n t.msg 0
    | [] => c

/-- `UART_STATUS` (R246). -/
def Chip.uartStatus (c : Chip) (n : Nat) : Word :=
  let x := c.uartRt n
  let tx := decide (c.cycles < x.txEnd)
  let de := c.uartDe n
  BitVec.ofNat 32 ((decide (x.rx ≠ [])).toNat + 2 * tx.toNat + 4 * de.toNat + 8 * c.clkSafe.toNat)

/-! ## Loss and return of GCLK (R241), modes (R240) -/

/-- A channel's frames are lost. -/
def Chip.clkDrop (c : Chip) (port : Nat) : Chip :=
  let rels := (c.relsOf port).length
  let inq := (c.inq.filter fun (x : GwItem) => decide (x.port = port)).length
  if isCan port then
    let x := c.canRt (port - 32)
    let c := c.addCnt (chanPage port) K.CAN_CLK_SAFE_DROP (x.queue.length + x.aborts.length + rels + inq)
    c.setCan (port - 32) { x with queue := [], aborts := [] }
  else if isLin port then
    let x := c.linRt (port - 48)
    let fresh := (x.bufs.filter fun (e : Nat × Option LinBuf) => match e.2 with | some b => b.fresh | none => false).length
    let c := c.addCnt (chanPage port) K.LIN_CLK_SAFE_DROP (rels + inq + fresh)
    c.setLin (port - 48) { x with bufs := x.bufs.map fun (e : Nat × Option LinBuf) => (e.1, e.2.map fun (b : LinBuf) => { b with fresh := false }) }
  else
    let x := c.uartRt (port - 56)
    let c := c.addCnt (chanPage port) K.UART_CLK_SAFE_DROP (x.queue.length + rels + inq)
    c.setUart (port - 56) { x with queue := [], rx := [], rxBad := false, txEnd := 0, deEnd := 0 }

/-- GCLK is lost (R241). -/
def Chip.gclkLoss (c : Chip) : Chip :=
  if c.clkSafe then c
  else
    let c := (c.count pGW K.GW_CLK_SAFE_ENTRIES).raise pGW E.GW_GCLK_LOSS
    let c := (c.put pGW F.GW_GW_STATUS_CLK_OK 0).put pGW F.GW_GW_STATUS_CLK_SAFE 1
    let c := (List.range 28).foldl (fun c k => c.clkDrop (32 + k)) c
    let c := { c with inq := [], rels := c.rels.filter fun (q : RelReq) => decide (q.target < 32) }
    let c := (List.range 16).foldl (fun c n => if c.canState n = caOFF then c else c.setCanState n caCLKSAFE) c
    (List.range 8).foldl (fun c n => if c.linState n = liOFF then c else c.setLinState n liCLKSAFE) c

/-- GCLK is back in tolerance (R241). -/
def Chip.gclkBack (c : Chip) : Chip :=
  if ¬ c.clkSafe then c
  else
    let c := (c.put pGW F.GW_GW_STATUS_CLK_OK 1).put pGW F.GW_GW_STATUS_CLK_SAFE 0
    let c := (List.range 16).foldl (fun c n => if c.canState n = caCLKSAFE then c.setCanState n caINTEGRATING else c) c
    let c := (List.range 8).foldl (fun c n => if c.linState n = liCLKSAFE then (c.setLinState n liIDLE).linAwake n else c) c
    let asms := (tblIndices c.tblA pGW 2).foldl (fun (m : List (Nat × AsmRt)) (a : Nat) =>
      let x : AsmRt := lookupD ({} : AsmRt) c.asms a
      store ({} : AsmRt) m a { x with periodAt := c.cycles }) c.asms
    { c with asms := asms }

/-- Does a mode send a copy or take a route with this class and these marks (R240)? -/
def Chip.modeTakesIn (c : Chip) (m cls : Nat) (actuating diag : Bool) : Bool :=
  if m = modeSentry then !actuating
  else if m = modeLimp then c.heldClass cls
  else if m = modeService then diag
  else decide (m ≠ modeQuarantine ∧ m ≠ modeDormant) && !c.bootFail

/-- The present mode's answer. -/
def Chip.modeTakes (c : Chip) (cls : Nat) (actuating diag : Bool) : Bool := c.modeTakesIn c.mode cls actuating diag

/-- The mode whose rules judge an entry of the input queue: SENTRY for one received there, also after its wake (R332;
DEDUCED, log entry 139). -/
def Chip.itemMode (c : Chip) (x : GwItem) : Nat := if x.asleep ∧ c.mode ≠ modeQuarantine then modeSentry else c.mode

/-- On entry to a mode every queued copy that it refuses is discarded (R240); the requests that wait on entry to QUARANTINE end with the
emission of safe frames (R157). -/
def Chip.gwModeEntry (c : Chip) : Chip :=
  let bad := fun (t : TxMsg) => !c.modeTakes t.cls t.actuating t.diag
  let relBad := fun (q : RelReq) => match q.msg with | some t => decide (32 ≤ q.target ∧ c.mode ≠ modeQuarantine) && bad t | none => false
  let c := (List.range 16).foldl (fun c n =>
    let x := c.canRt n
    let k := (x.queue.filter bad).length + (c.rels.filter fun q => relBad q && decide (q.target = 32 + n)).length
    (c.setCan n { x with queue := x.queue.filter fun t => !bad t }).addCnt (pCAN n) K.CAN_MODE_DROP k) c
  let c := (List.range 8).foldl (fun c n =>
    c.addCnt (pLIN n) K.LIN_MODE_DROP (c.rels.filter fun q => relBad q && decide (q.target = 48 + n)).length) c
  let c := (List.range 4).foldl (fun c n =>
    let x := c.uartRt n
    let k := (x.queue.filter bad).length + (c.rels.filter fun q => relBad q && decide (q.target = 56 + n)).length
    (c.setUart n { x with queue := x.queue.filter fun t => !bad t }).addCnt (pUART n) K.UART_MODE_DROP k) c
  { c with rels := c.rels.filter fun q => !relBad q }

/-! ## Commits (R232, R246, R247) -/

/-- A timing register's fields lie in their ranges; BRP 0 stands for 512 (log entry 37). -/
def timingOk (w : Word) : Bool :=
  let seg1 := bitsAt w 9 8
  let seg2 := bitsAt w 17 7
  let sjw := bitsAt w 24 7
  decide (bitsAt w 0 9 ≤ 512 ∧ 1 ≤ seg1 ∧ 1 ≤ seg2 ∧ 1 ≤ sjw ∧ sjw ≤ seg2)

/-- Quanta × prescaler of a timing register: GCLK cycles a bit. -/
def bitCycles (w : Word) : Nat :=
  let brp := bitsAt w 0 9
  (if brp = 0 then 512 else brp) * (1 + bitsAt w 9 8 + bitsAt w 17 7)

/-- A bit rate within limits, in b/s. -/
def rateIn (gclk : Nat) (w : Word) (lo hi : Nat) : Bool := decide (lo * bitCycles w ≤ gclk ∧ gclk ≤ hi * bitCycles w)

def Chip.validateCan (c : Chip) (n : Nat) (group : List Nat) : Nat × Nat :=
  let w := fun (off : Nat) => c.reg (pCAN n) off
  let kib := fun (m : Nat) => if m = n then c.staged (pCAN m) F.CAN_TXQ_KIB_K else c.peer group (pCAN m) F.CAN_TXQ_KIB_K
  firstBad [
    ([0x144, 0x148, 0x14C, 0x150, 0x154].any fun o => !timingOk (w o), rsnRange, 1),
    (!rateIn 160000000 (w 0x144) 10000 1000000 || !rateIn 160000000 (w 0x148) 1 8000000 || !rateIn 160000000 (w 0x14C) 1 10000000
      || !rateIn 64000000 (w 0x150) 10000 1000000 || !rateIn 64000000 (w 0x154) 1 2000000, rsnRange, 2),
    (decide (kib n < 1 ∨ 64 < kib n) || decide (432 < ((List.range 16).map kib).sum), rsnRange, 3)]

/-- A commit that changes a timing register takes the channel through OFF; AUTO_RECOVER ends BUS_OFF (R232). -/
def Chip.appliedCan (c old : Chip) (n : Nat) : Chip :=
  if [0x144, 0x148, 0x14C, 0x150, 0x154].any fun o => decide (c.reg (pCAN n) (o + 0x800) ≠ old.reg (pCAN n) (o + 0x800)) then
    (c.canOff n).canFollow n
  else if c.is (pCAN n) F.CAN_CAN_CFG_AUTO_RECOVER then c.canRecover n
  else c

/-- A commit of a LIN page: the schedule follows MASTER and RUN (R234). -/
def Chip.appliedLin (c : Chip) (n : Nat) : Chip := c.linFollow n

def Chip.validateLin (c : Chip) (n : Nat) (group : List Nat) : Nat × Nat :=
  let v := c.staged (pLIN n)
  let rate := v F.LIN_LIN_CFG_BITRATE
  let brk := v F.LIN_LIN_CFG_BREAK_LEN
  firstBad [
    (decide (rate < 1000 ∨ 20000 < rate ∨ brk < 13 ∨ 26 < brk), rsnRange, 1),
    (decide (v F.LIN_LIN_CFG_MASTER = 1 ∧ v F.LIN_LIN_SCHED_RUN = 1) && decide (c.tpeer group pGW 4 (v F.LIN_LIN_SCHED_TABLE) fSdValid = 0), rsnTableRef, 2),
    ((tblIndices c.tblS (pLIN n) 0).any fun i =>
      let g := c.tgetS (pLIN n) 0 i
      decide ((g fFcPublish = 1 ∨ g fFcSubscribe = 1) ∧ (g fFcLen < 1 ∨ 8 < g fFcLen ∨ (g fFcPublish = 1 ∧ g fFcSubscribe = 1))), rsnRange, 3)]

def Chip.validateUart (c : Chip) (n : Nat) : Nat × Nat :=
  let v := c.staged (pUART n)
  let mode := v F.UART_UART_FRAME_MODE
  firstBad [
    (decide (v F.UART_UART_CFG_BAUD < 1200 ∨ 3000000 < v F.UART_UART_CFG_BAUD ∨ (v F.UART_UART_CFG_PARITY ≠ 0 ∧ v F.UART_UART_CFG_DATA = 2)), rsnRange, 1),
    (decide (v F.UART_UART_FRAME_GAP_BITS < 2 ∨ mode = 3 ∨ (mode = 1 ∧ v F.UART_UART_LEN_LEN_FIELD_EN = 0 ∧ v F.UART_UART_FRAME_FIX_LEN = 0)), rsnRange, 2),
    (decide (v F.UART_RS485_CFG_EN = 1 ∧ (80 < v F.UART_RS485_CFG_DE_LEAD ∨ 80 < v F.UART_RS485_CFG_DE_LAG)), rsnRange, 3)]

/-- The safe points of LIN and UART commits (R246). -/
def Chip.safeLin (c : Chip) (n : Nat) : Bool := decide ((c.linRt n).slotEnd ≤ c.cycles)
def Chip.safeUart (c : Chip) (n : Nat) : Bool := decide ((c.uartRt n).txEnd ≤ c.cycles) && decide ((c.uartRt n).rx = [])

/-- An entry of PUB_BUF (R246). -/
def Chip.pubBufWord (c : Chip) (n id word : Nat) : Word :=
  match c.linBuf n id with
  | none => 0
  | some b => if word < 2 then BitVec.ofNat 32 (leAt b.data (4 * word) 4) else if word = 2 then BitVec.ofNat 32 b.fresh.toNat else 0

/-! ## Meanings -/

/-- CAN_FRAME_TX (R231): `waited` says that the bus was busy when the frame could have started. -/
def execCanFrameTx (dt channel : Nat) (result : CanResult) (waited : Bool) (s : State) : Host.Outcome State Fault Refusal :=
  .next (s.run dt fun c => c.canTx channel result waited)

/-- CAN_INTEGRATED (R232). -/
def execCanIntegrated (dt channel : Nat) (s : State) : Host.Outcome State Fault Refusal :=
  .next (s.run dt fun c => if channel < 16 ∧ c.canState channel = caINTEGRATING then (c.setCanState channel caACTIVE).canErrorState channel else c)

/-- RECOVERED (R232). -/
def execRecovered (dt channel : Nat) (s : State) : Host.Outcome State Fault Refusal :=
  .next (s.run dt fun c => if channel < 16 ∧ c.canState channel = caRECOVERING then
    ((c.setErrors channel 0 0).setCanState channel caACTIVE).raise (pCAN channel) E.CAN_RECOVERED else c)

/-- A write of `CAN_CMD`. -/
def Chip.canCmdWrite (c : Chip) (req : Requester) (n cmd : Nat) : Chip :=
  c.command req (pCAN n) 0x164 (BitVec.ofNat 32 cmd) fun c => c.canCmd n cmd

/-- RECOVER (R232). -/
def execRecover (dt : Nat) (req : Requester) (channel : Nat) (s : State) : Host.Outcome State Fault Refusal :=
  .next (s.run dt fun c => c.canCmdWrite req channel 1)

/-- FLUSH_TX (R245). -/
def execFlushTx (dt : Nat) (req : Requester) (channel : Nat) (s : State) : Host.Outcome State Fault Refusal :=
  .next (s.run dt fun c => c.canCmdWrite req channel 2)

/-- CLR_MAX (R245). -/
def execClrMax (dt : Nat) (req : Requester) (channel : Nat) (s : State) : Host.Outcome State Fault Refusal :=
  .next (s.run dt fun c => c.canCmdWrite req channel 3)

/-- CAN_RX_ERROR (R232). -/
def execCanRxError (dt channel : Nat) (error : CanError) (dominant : Bool) (s : State) : Host.Outcome State Fault Refusal :=
  .next (s.run dt fun c => c.canRxError channel error dominant)

/-- LIN_SLOT_START (R234): `response` is what the channel sees of the response in its slot. -/
def execLinSlotStart (dt channel : Nat) (response : LinResponse) (s : State) : Host.Outcome State Fault Refusal :=
  .next (s.run dt fun c => c.linSlot channel response)

/-- LIN_HEADER_RX (R235): a header's identifier, its measured bit time, its parity, and the response that follows. -/
def execLinHeaderRx (dt channel id bitNs : Nat) (parityOk : Bool) (response : LinResponse) (ago : Nat) (s : State) :
    Host.Outcome State Fault Refusal :=
  .next (s.run dt fun c => c.linHeaderRx channel id bitNs parityOk response ago)

/-- A write of `LIN_CMD`. -/
def Chip.linCmdWrite (c : Chip) (req : Requester) (n cmd : Nat) : Chip :=
  c.command req (pLIN n) 0x14C (BitVec.ofNat 32 cmd) fun c => c.linCmd n cmd

/-- WAKE (R235). -/
def execWake (dt : Nat) (req : Requester) (channel : Nat) (s : State) : Host.Outcome State Fault Refusal :=
  .next (s.run dt fun c => c.linCmdWrite req channel 1)

/-- LIN_SLEEP (R246). -/
def execLinSleep (dt : Nat) (req : Requester) (channel : Nat) (s : State) : Host.Outcome State Fault Refusal :=
  .next (s.run dt fun c => c.linCmdWrite req channel 2)

/-- WAKE_RX_LIN (R235). -/
def execWakeRxLin (dt channel : Nat) (s : State) : Host.Outcome State Fault Refusal :=
  .next (s.run dt fun c => if channel < 8 ∧ c.linState channel = liSLEEP then (c.linWake channel).raise (pLIN channel) E.LIN_WAKE_RX else c)

/-- LIN_SCHED_RESTART (R235). -/
def execLinSchedRestart (dt channel : Nat) (s : State) : Host.Outcome State Fault Refusal :=
  .next (s.run dt fun c => if channel < 8 then c.schedRestart channel else c)

/-- UART_TX (R236, R237). -/
def execUartTx (dt channel : Nat) (waited : Bool) (s : State) : Host.Outcome State Fault Refusal :=
  .next (s.run dt fun c => c.uartTx channel waited)

/-- GCLK is in tolerance: it runs from PLL_G, which is locked, or from trimmed HFRC (R305). -/
def Chip.gclkGood (c : Chip) : Bool :=
  if c.is pCLK F.CLK_CLK_SEL_GCLK_HFRC then c.is pCLK F.CLK_HFRC_STATUS_TRIMMED else (c.get pCLK F.CLK_PLL_STATUS_LOCKED).testBit 2

/-- GCLK_RESTORED (R241). -/
def execGclkRestored (dt : Nat) (s : State) : Host.Outcome State Fault Refusal := .next (s.run dt fun c => if c.gclkGood then c.gclkBack else c)

end Sys2Proof.Machine
end

