-- ==== Sys2Proof/Machine/Gateway.lean ====
section
/-! DEFINITION. The legacy bus gateway (R215 to R229, R238 to R244): routes, IEEE 1722 streams, signals and assemblers, network
interconnect instances. -/
namespace Sys2Proof.Machine

open Sys2Proof

/-! ## Table fields (R243) -/

abbrev fRoValid : TFld := ⟨0, 0, 1⟩
abbrev fRoKind : TFld := ⟨0, 1, 3⟩
abbrev fRoPort : TFld := ⟨0, 4, 6⟩
abbrev fRoHandle : TFld := ⟨0, 10, 12⟩
abbrev fRoHandleAny : TFld := ⟨0, 22, 1⟩
abbrev fRoBus : TFld := ⟨0, 23, 5⟩
abbrev fRoBusAny : TFld := ⟨0, 28, 1⟩
abbrev fRoAcf : TFld := ⟨0, 29, 2⟩
abbrev fRoId : TFld := ⟨1, 0, 29⟩
abbrev fRoIde : TFld := ⟨1, 29, 1⟩
abbrev fRoMask : TFld := ⟨2, 0, 29⟩
abbrev fRoDst : TFld := ⟨3, 0, 3⟩
abbrev fRoIndex : TFld := ⟨3, 8, 8⟩
abbrev fRoCans : TFld := ⟨3, 16, 16⟩
abbrev fRoXlt : TFld := ⟨4, 0, 29⟩
abbrev fRoXltIde : TFld := ⟨4, 29, 1⟩
abbrev fRoSigFirst : TFld := ⟨4, 0, 14⟩
abbrev fRoSigCount : TFld := ⟨4, 16, 7⟩
abbrev fRoXltMask : TFld := ⟨5, 0, 29⟩
abbrev fRoFormat : TFld := ⟨6, 0, 2⟩
abbrev fRoBrs : TFld := ⟨6, 2, 1⟩
abbrev fRoPad : TFld := ⟨6, 8, 8⟩
abbrev fRoTimed : TFld := ⟨6, 16, 1⟩
abbrev fRoExecLate : TFld := ⟨6, 17, 1⟩
abbrev fRoNoTimeDrop : TFld := ⟨6, 18, 1⟩
abbrev fRoActuating : TFld := ⟨6, 19, 1⟩
abbrev fRoDiag : TFld := ⟨6, 20, 1⟩
abbrev fRoLead : TFld := ⟨6, 24, 8⟩
abbrev fRoTag : TFld := ⟨7, 0, 16⟩
abbrev fRoOut : TFld := ⟨7, 16, 12⟩
abbrev fRoOutValid : TFld := ⟨7, 28, 1⟩
abbrev fRoClass : TFld := ⟨7, 29, 3⟩
abbrev fAoDmacLo : TFld := ⟨2, 0, 32⟩
abbrev fAoDmacHi : TFld := ⟨3, 0, 16⟩
abbrev fAoVid : TFld := ⟨3, 16, 12⟩
abbrev fAoPcp : TFld := ⟨3, 28, 3⟩
abbrev fAoValid : TFld := ⟨4, 0, 1⟩
abbrev fAoTscf : TFld := ⟨4, 1, 1⟩
abbrev fAoBrief : TFld := ⟨4, 2, 1⟩
abbrev fAoTagged : TFld := ⟨4, 3, 1⟩
abbrev fAoMax : TFld := ⟨4, 8, 6⟩
abbrev fAoUs : TFld := ⟨4, 16, 16⟩
abbrev fAoOffset : TFld := ⟨5, 0, 32⟩
abbrev fAsValid : TFld := ⟨0, 0, 1⟩
abbrev fAsKind : TFld := ⟨0, 1, 2⟩
abbrev fAsPort : TFld := ⟨0, 4, 6⟩
abbrev fAsLen : TFld := ⟨0, 16, 7⟩
abbrev fAsId : TFld := ⟨1, 0, 29⟩
abbrev fAsIde : TFld := ⟨1, 29, 1⟩
abbrev fAsFormat : TFld := ⟨1, 30, 2⟩
abbrev fAsPeriod : TFld := ⟨2, 0, 16⟩
abbrev fAsGap : TFld := ⟨2, 16, 16⟩
abbrev fAsOnChange : TFld := ⟨3, 0, 1⟩
abbrev fAsOnUpdate : TFld := ⟨3, 1, 1⟩
abbrev fAsStopStale : TFld := ⟨3, 2, 1⟩
abbrev fAsActuating : TFld := ⟨3, 3, 1⟩
abbrev fAsDiag : TFld := ⟨3, 4, 1⟩
abbrev fAsAcf : TFld := ⟨3, 8, 8⟩
abbrev fAsClass : TFld := ⟨3, 16, 3⟩
abbrev fAsOut : TFld := ⟨4, 0, 12⟩
abbrev fAsOutValid : TFld := ⟨4, 12, 1⟩
abbrev fSgSrc : TFld := ⟨0, 0, 15⟩
abbrev fSgValid : TFld := ⟨0, 15, 1⟩
abbrev fSgAsm : TFld := ⟨0, 16, 10⟩
abbrev fSgDst : TFld := ⟨1, 0, 9⟩
abbrev fSgLen : TFld := ⟨1, 16, 7⟩
abbrev fSgSrcMot : TFld := ⟨1, 24, 1⟩
abbrev fSgDstMot : TFld := ⟨1, 25, 1⟩
abbrev fSgTrigger : TFld := ⟨1, 26, 1⟩
abbrev fSgTmo : TFld := ⟨2, 0, 16⟩
abbrev fNiChannels : TFld := ⟨0, 0, 16⟩
abbrev fNiValid : TFld := ⟨0, 16, 1⟩
abbrev fNiPass : TFld := ⟨0, 17, 1⟩
abbrev fNiSelf : TFld := ⟨0, 18, 1⟩
abbrev fNiWrite : TFld := ⟨0, 19, 1⟩
abbrev fNiPref : TFld := ⟨0, 24, 8⟩
abbrev fNfPgn : TFld := ⟨0, 0, 18⟩
abbrev fNfInst : TFld := ⟨0, 20, 3⟩
abbrev fNfPass : TFld := ⟨0, 24, 1⟩
abbrev fNfValid : TFld := ⟨0, 31, 1⟩
abbrev fNfFrom : TFld := ⟨1, 0, 16⟩

def Chip.ro (c : Chip) (r : Nat) (f : TFld) : Nat := c.tget pGW 0 r f
def Chip.ao (c : Chip) (k : Nat) (f : TFld) : Nat := c.tget pGW 1 k f
def Chip.am (c : Chip) (a : Nat) (f : TFld) : Nat := c.tget pGW 2 a f
def Chip.sg (c : Chip) (i : Nat) (f : TFld) : Nat := c.tget pGW 3 i f
def Chip.ni (c : Chip) (i : Nat) (f : TFld) : Nat := c.tget pGW 6 i f

def Chip.acf (c : Chip) (k : Nat) : AcfRt := lookupD {} c.acfs k
def Chip.setAcf (c : Chip) (k : Nat) (x : AcfRt) : Chip := { c with acfs := store {} c.acfs k x }
def Chip.asm (c : Chip) (a : Nat) : AsmRt := lookupD {} c.asms a
def Chip.setAsm (c : Chip) (a : Nat) (x : AsmRt) : Chip := { c with asms := store {} c.asms a x }
def Chip.sig (c : Chip) (i : Nat) : SigRt := lookupD {} c.sigs i
def Chip.setSig (c : Chip) (i : Nat) (x : SigRt) : Chip := { c with sigs := store {} c.sigs i x }

/-- The gateway takes work: enabled, in a mode that runs it, with its clock. -/
def Chip.gwRuns (c : Chip) : Bool := c.ready pGW && !c.clkSafe

/-! ## Routes (R218) -/

/-- A message on its way to its routes: what its copies share. SRC_KIND as routes name it; its data; of an ACF message the
type, bus_id and effect time. -/
structure Way where
  item : GwItem
  kind : Nat
  msg : Msg
  acf : Nat := 0
  bus : Option Nat := none
  time : Option Nat := none
  deriving DecidableEq, Repr

/-- A route matches a message. A frame matched as ETH_RAW has no ID: its route masks the whole of it. -/
def Chip.routeMatches (c : Chip) (w : Way) (r : Nat) : Bool :=
  let g := c.ro r
  decide (g fRoValid = 1 ∧ g fRoKind = w.kind)
    && (if w.kind ≤ 2 then decide (g fRoPort = w.item.port) else decide (g fRoHandleAny = 1 ∨ w.item.handle = some (g fRoHandle)))
    && (decide (w.kind ≠ 3) || decide (g fRoAcf = w.acf ∧ (g fRoBusAny = 1 ∨ w.bus = some (g fRoBus))))
    && (if w.kind = 4 then decide (g fRoMask = 0)
        else decide ((w.msg.id ^^^ g fRoId) &&& g fRoMask = 0 ∧ g fRoIde = w.msg.ide.toNat))

/-- The routes that act on a message: the first eight that match, in index order. -/
def Chip.routesOf (c : Chip) (w : Way) : Chip × List Nat :=
  let c := c.perf 0x241 1
  let rs := (tblIndices c.tblA pGW 0).filter (c.routeMatches w)
  let c := if 8 < rs.length then c.count pGW K.GW_ROUTE_OVERFLOW else c
  ((rs.take 8).foldl (fun c r => c.tcount pGW 8 r 0) c, rs.take 8)

/-- A mode takes what a route sends (R240). -/
def Chip.modeRoute (c : Chip) (m r : Nat) : Bool := c.modeTakesIn m (c.ro r fRoClass) (c.ro r fRoActuating = 1) (c.ro r fRoDiag = 1)

/-- The copies of a message that a route sends, as its DROPS counts them. -/
def Chip.routeCopies (c : Chip) (r : Nat) : Nat := if c.ro r fRoDst = 0 then popCount (c.ro r fRoCans) 16 else 1

/-- The routes that the mode leaves, with what it counts: the copies that it refuses (R217), an actuating route in SENTRY, a message that
has no route left. -/
def Chip.modeRoutes (c : Chip) (x : GwItem) (ingress : Nat) (rs : List Nat) : Chip × List Nat :=
  let m := c.itemMode x
  let left := rs.filter (c.modeRoute m)
  let c := (rs.filter fun r => !c.modeRoute m r).foldl (fun (c : Chip) r => c.addTCnt pGW 8 r 1 (c.routeCopies r)) c
  let c := if m = modeSentry then c.addCnt pGW K.GW_SENTRY_BLOCK (rs.length - left.length)
    else if left.isEmpty ∧ ¬ rs.isEmpty then c.modeDrop ingress else c
  (c, left)

/-! ## CAN destinations (R220) -/

/-- The identifier that a route sends. -/
def Chip.translated (c : Chip) (r : Nat) (m : Msg) : Msg :=
  let mask := c.ro r fRoXltMask
  { m with kind := .can
           id := (m.id % 2 ^ 29 &&& (2 ^ 29 - 1 - mask)) ||| (c.ro r fRoXlt &&& mask)
           ide := if mask ≠ 0 then decide (c.ro r fRoXltIde = 1) else m.ide }

/-- The least CAN FD data length that holds `n` bytes. -/
def fdLength (n : Nat) : Option Nat := [0, 1, 2, 3, 4, 5, 6, 7, 8, 12, 16, 20, 24, 32, 48, 64].find? fun k => decide (n ≤ k)

/-- Data padded to a CAN FD data length. -/
def fdPad (m : Msg) (pad : Nat) : Option Msg :=
  (fdLength m.data.length).map fun n => { m with fdf := true, data := m.data ++ List.replicate (n - m.data.length) (BitVec.ofNat 8 pad) }

/-- A classical frame of at most 8 bytes. -/
def classical (m : Msg) : Option Msg := if m.data.length ≤ 8 then some { m with fdf := false, brs := false } else none

/-- A message in the format that a route asks for, where it fits. -/
def formatted (format : Nat) (brs : Bool) (pad : Nat) (m : Msg) : Option Msg :=
  if m.xl then (if format = 0 then some m else none)
  else if format = 1 then classical m
  else if format = 0 ∧ ¬ m.fdf then classical m
  else if m.rtr then none
  else (fdPad m pad).map fun m => if format = 2 then { m with brs := brs } else m

/-- The channel sends frames of this format (DEDUCED: R245's FD_EN and XL_EN). -/
def Chip.canFormat (c : Chip) (n : Nat) (m : Msg) : Bool :=
  (!m.fdf || c.is (pCAN n) F.CAN_CAN_CFG_FD_EN) && (!m.xl || c.is (pCAN n) F.CAN_CAN_CFG_XL_EN)

def Chip.formatDrop (c : Chip) : Chip × Bool := (c.count pGW K.GW_FORMAT_DROP, false)

/-- What the gateway received, as mirror sessions copy it (R198); a PDU without a source is what it is itself (DESIGN CHOICE, log entry
31). -/
def GwItem.received (x : GwItem) : Option (Nat × Option Msg × List Byte) :=
  if x.msg.isSome ∨ x.bytes ≠ [] then some (x.port, x.msg, x.bytes) else none

/-- The Bridle egress lookup of a copy on a legacy port (step 6 of R215). -/
def Chip.gwEgress (c : Chip) (x : GwItem) (port cls : Nat) (m : Msg) (far : Nat) : Chip × Bool :=
  let s : Subject := { port := port, peer := x.origin, egress := true, msg := some m, cls := cls, handle := x.handle, unit := x.unit
                       inp := 31, stamp := x.stamp, source := x.received }
  let (c, d) := c.bridle s far
  (c, d.pass)

/-- How a copy leaves: untimed, or as a release request with effect time, lead, EXEC_LATE and tag (R221). -/
structure Timing where
  e : Nat
  lead : Nat
  execLate : Bool
  tag : Nat
  deriving DecidableEq, Repr

/-- A copy as a release request of its port. -/
def Chip.gwRelease (c : Chip) (port : Nat) (t : TxMsg) (x : Timing) : Chip × Bool :=
  c.release { target := port, r := c.effect x.e - c.leadNs x.lead, tag := x.tag, msg := some t } x.execLate

/-- A copy on one CAN channel: its format, its egress lookup, its queue. -/
def Chip.toCan (c : Chip) (x : GwItem) (n : Nat) (m : Option Msg) (t : Msg → TxMsg) (timing : Option Timing) : Chip × Bool :=
  match m with
  | none => c.formatDrop
  | some m =>
    if ¬ c.canFormat n m then c.formatDrop
    else
      let far := if isCan x.port then 2 ^ (x.port - 32) else 0
      match c.gwEgress x (32 + n) (t m).cls m far with
      | (c, false) => (c, false)
      | (c, true) =>
        match timing with
        | some y => if c.canTakes n then c.gwRelease (32 + n) (t m) y else (c.count (pCAN n) K.CAN_TX_BUSOFF_DROP, false)
        | none => c.canEnqueue n (t m)

/-- A copy on a LIN channel: at most 8 bytes, in the buffer of its frame ID, or inserted at its instant. -/
def Chip.toLin (c : Chip) (x : GwItem) (n : Nat) (t : TxMsg) (timing : Option Timing) : Chip × Bool :=
  if 8 ≤ n then (c, false)
  else if 8 < t.msg.data.length ∨ t.msg.xl then c.formatDrop
  else match c.gwEgress x (48 + n) t.cls t.msg 0 with
    | (c, false) => (c, false)
    | (c, true) => match timing with
      | some y => c.gwRelease (48 + n) t y
      | none => (c.linWrite n t.msg.id t.msg.data, true)

/-- A copy on a UART channel. -/
def Chip.toUart (c : Chip) (x : GwItem) (n : Nat) (t : TxMsg) (timing : Option Timing) : Chip × Bool :=
  if 4 ≤ n then (c, false)
  else if t.msg.xl then c.formatDrop
  else match c.gwEgress x (56 + n) t.cls t.msg 0 with
    | (c, false) => (c, false)
    | (c, true) => match timing with
      | some y => c.gwRelease (56 + n) t y
      | none => c.uartEnqueue n t

/-! ## IEEE 1722 streams (R222, R223) -/

/-- The source MAC of built frames. -/
def Chip.gwMac (c : Chip) : Nat := (c.reg pGW 0x940).toNat + 2 ^ 32 * c.get pGW F.GW_GW_MAC_HI_V

/-- The frame of an ACF_OUT entry with these messages, the time of the first and its validity. -/
def Chip.acfFrame (c : Chip) (k : Nat) (msgs : List (List Byte)) (time : Nat) (valid : Bool) : List Byte :=
  let g := c.ao k
  let tag := if g fAoTagged = 1 then some (g fAoVid, g fAoPcp) else none
  let sid := (c.tword pGW 1 k 0).toNat + 2 ^ 32 * (c.tword pGW 1 k 1).toNat
  avtpFrame (g fAoDmacLo + 2 ^ 32 * g fAoDmacHi) c.gwMac tag (g fAoTscf = 1) sid (c.acf k).seq
    ((time + g fAoOffset) % 2 ^ 32) valid msgs.flatten

/-- The open frame of an ACF_OUT entry is sent: it enters the fabric at GW. -/
def Chip.acfSend (c : Chip) (k : Nat) : Chip :=
  let x := c.acf k
  if x.msgs.isEmpty then c
  else
    let bytes := c.acfFrame k x.msgs x.time x.valid
    let c := (c.setAcf k { seq := (x.seq + 1) % 256 }).perf 0x242 1
    c.ingestWhole { fid := 0, bytes := bytes, ingress := 31, origin := x.origin, stamp := c.stamp, seen := c.mono, time := c.localNs, cls := x.cls
                    fixed := true, handle := x.handle, unit := x.unit, rewrite := x.rewrite, mark := x.mark }

/-- Bytes of AVTPDU that the open frame has with a further message. -/
def Chip.acfSize (c : Chip) (k : Nat) (bs : List Byte) : Nat :=
  (if c.ao k fAoTscf = 1 then 24 else 12) + (c.acf k).msgs.flatten.length + bs.length

/-- A message joins the stream of an ACF_OUT entry (R223). The frame takes origin, unit and rewrite of its first message (DESIGN CHOICE,
log entry 110). -/
def Chip.acfAdd (c : Chip) (k : Nat) (bs : List Byte) (cls : Nat) (handle : Option Nat) (x : GwItem) : Chip :=
  let a := c.acf k
  let c := if ¬ a.msgs.isEmpty ∧ (a.cls ≠ cls ∨ a.handle ≠ handle ∨ 1500 < c.acfSize k bs) then c.acfSend k else c
  let a := c.acf k
  let a := if a.msgs.isEmpty then
      { a with msgs := [bs], cls := cls, handle := handle, origin := x.origin, unit := x.unit, rewrite := x.rewrite, mark := x.mark
               at' := c.cycles, time := x.time, valid := x.valid }
    else { a with msgs := a.msgs ++ [bs] }
  let c := c.setAcf k a
  if c.ao k fAoMax ≤ a.msgs.length ∨ c.ao k fAoUs = 0 then c.acfSend k else c

/-- BATCH_US has passed since the first message of an open frame. -/
def Chip.acfTimeout (c : Chip) (k : Nat) : Chip :=
  let x := c.acf k
  if ¬ x.msgs.isEmpty ∧ x.at' + usCycles (c.ao k fAoUs) ≤ c.cycles ∧ c.gwRuns then c.acfSend k else c

/-- A source channel's index within its kind; a PDU or an Ethernet message without one has none. -/
def busOf (port : Nat) : Option Nat :=
  if isCan port then some (port - 32) else if isLin port then some (port - 48) else if isUart port then some (port - 56) else none

/-- The bus_id of an ACF message: its source channel's, the one it came with, or where it has neither a free value (log entry 38). -/
def Chip.busId (c : Chip) (port : Nat) (had : Option Nat) : Nat × Chip :=
  match busOf port, had with
  | some b, _ => (b, c)
  | none, some b => (b, c)
  | none, none => let (v, c) := c.takeFree; (v % 32, c)

/-! ## Signals and assemblers (R225 to R228) -/

/-- Bit `n` of a payload: of byte n/8, counted from its low end (Intel) or its high end (Motorola). -/
def payBit (bs : List Byte) (motorola : Bool) (n : Nat) : Bool :=
  (byteAt bs (n / 8)).testBit (if motorola then 7 - n % 8 else n % 8)

/-- `len` bits from bit `start` on: the first is the least significant (Intel) or the most significant one (Motorola). -/
def payBits (bs : List Byte) (motorola : Bool) (start len : Nat) : Nat :=
  (List.range len).foldl (fun v k =>
    if payBit bs motorola (start + k) then v + 2 ^ (if motorola then len - 1 - k else k) else v) 0

/-- Those bits replaced by a value's. -/
def putPay (bs : List Byte) (motorola : Bool) (start len v : Nat) : List Byte :=
  (List.range len).foldl (fun bs k =>
    let n := start + k
    let i := if motorola then 7 - n % 8 else n % 8
    let b := byteAt bs (n / 8)
    setByte bs (n / 8) (if v.testBit (if motorola then len - 1 - k else k) then setBit b i else clearBit b i)) bs

def Chip.subst (c : Chip) (i : Nat) : Nat := ((c.tword pGW 3 i 3).toNat + 2 ^ 32 * (c.tword pGW 3 i 4).toNat) % 2 ^ c.sg i fSgLen

/-- A signal's present value: SUBST until its first update and while stale. -/
def Chip.sigValue (c : Chip) (i : Nat) : Nat := (c.sig i).value.getD (c.subst i)

/-- The signals of an assembler. -/
def Chip.sigsOf (c : Chip) (a : Nat) : List Nat :=
  (tblIndices c.tblA pGW 3).filter fun i => decide (c.sg i fSgValid = 1 ∧ c.sg i fSgAsm = a)

def Chip.allStale (c : Chip) (a : Nat) : Bool := let l := c.sigsOf a; !l.isEmpty && l.all fun i => (c.sig i).stale

/-- An assembler's buffer: bits that no signal covers are 1; where signals share bits the later copy stands (R225). -/
def Chip.pdu (c : Chip) (a : Nat) : List Byte :=
  let all := c.sigsOf a
  let late := (c.asm a).order.filter fun i => all.contains i
  ((all.filter fun i => !late.contains i) ++ late).foldl (fun bs i => putPay bs (c.sg i fSgDstMot = 1) (c.sg i fSgDst) (c.sg i fSgLen) (c.sigValue i))
    (List.replicate (c.am a fAsLen) 0xFF)

/-- The PDU as a CAN message; CAN FD data is padded with 0xFF. An ACF CAN message of more than 8 bytes is a CAN FD one whatever FORMAT says
(DEDUCED, log entry 95). -/
def Chip.pduCan (c : Chip) (a : Nat) : Option Msg :=
  let m : Msg := { kind := .can, id := c.am a fAsId, ide := c.am a fAsIde = 1, brs := c.am a fAsFormat = 2, data := c.pdu a }
  if c.am a fAsFormat = 0 ∧ (c.am a fAsKind ≠ 3 ∨ m.data.length ≤ 8) then classical m else fdPad m 0xFF

/-- The ingress lookup on port 31 of a PDU whose period expired (R23, R228), before it joins a frame: it sees the frame that would carry
the PDU alone (DESIGN CHOICE, log entry 110). `none` where the PDU is dropped. -/
def Chip.pduLookup (c : Chip) (k cls : Nat) (bs : List Byte) (x : GwItem) : Chip × Option GwItem :=
  if ¬ x.asked then (c, some x)
  else
    let frame := c.acfFrame k [bs] x.time x.valid
    match c.fence (c.unitKeys 31 frame none none) with
    | .fenced us => (c.countFenced us false, none)
    | .pass us =>
      let s : Subject := { port := 31, peer := 31, bytes := frame, cls := cls, handle := x.handle, unit := us.head?, inp := 31, stamp := x.stamp
                           seen := c.mono, time := c.localNs }
      let (c, d) := c.bridle s 0
      let c := c.unitSeen us x.stamp
      if d.pass then (c.cinchArrival x.handle c.mono, some { x with unit := us.head?, rewrite := d.rewrite, mark := d.mark && c.ao k fAoTagged = 1 })
      else (c, none)

/-- The PDU sent to where OUT_KIND says. `x` gives its origin, its start of frame time, its unit. -/
def Chip.pduOut (c : Chip) (a : Nat) (x : GwItem) : Chip :=
  let g := c.am a
  let handle := if g fAsOutValid = 1 then some (g fAsOut) else none
  let x := { x with handle := handle }
  let t := fun (m : Msg) => { msg := m, cls := g fAsClass, actuating := decide (g fAsActuating = 1), diag := decide (g fAsDiag = 1) : TxMsg }
  let port := g fAsPort
  match g fAsKind with
  | 0 => (c.toCan x (port - 32) (c.pduCan a) t none).1
  | 1 => (c.toLin x (port - 48) (t { kind := .lin, id := g fAsId % 64, data := c.pdu a }) none).1
  | 2 => (c.toUart x (port - 56) (t { kind := .uart, data := c.pdu a }) none).1
  | _ =>
    match c.pduCan a with
    | none => c.formatDrop.1
    | some m =>
      let (bus, c) := c.busId x.port none
      let bs := acfBuild m bus x.time x.valid (c.ao (g fAsAcf) fAoBrief = 1)
      match c.pduLookup (g fAsAcf) (g fAsClass) bs x with
      | (c, some x) => c.acfAdd (g fAsAcf) bs (g fAsClass) handle x
      | (c, none) => c

/-- The record of a PDU that no source message triggered, of one whose period expired if `asked`: no legacy origin; its time is open in
the spec (log entry 38). -/
def Chip.noSource (c : Chip) (asked : Bool) : GwItem × Chip :=
  let (v, c) := c.takeFree
  ({ port := 31, msg := none, ingress := 31, origin := 31, stamp := c.stamp, time := v, valid := c.timeValid, asked := asked }, c)

/-- An assembler transmits (R226, R227): its period restarts. What the mode or stale signals stop restarts nothing. -/
def Chip.asmSend (c : Chip) (a : Nat) (x : GwItem) : Chip :=
  let g := c.am a
  if g fAsStopStale = 1 ∧ c.allStale a then c
  else if ¬ c.modeTakes (g fAsClass) (g fAsActuating = 1) (g fAsDiag = 1) then
    (if c.mode = modeSentry then c.count pGW K.GW_SENTRY_BLOCK else c.modeDrop x.origin)
  else
    let c := ((c.setAsm a { c.asm a with sentAt := some c.cycles, periodAt := c.cycles, deferred := none }).tcount pGW 9 a 0).perf 0x243 1
    c.pduOut a x

/-- MIN_GAP since the previous transmission has passed. -/
def Chip.gapOver (c : Chip) (a : Nat) : Bool :=
  match (c.asm a).sentAt with | some t => decide (t + tenthMs (c.am a fAsGap) ≤ c.cycles) | none => true

/-- An assembler has cause to transmit: at once, or deferred to the end of MIN_GAP; each change or update that comes in MIN_GAP counts
once, and the first cause gives the transmission its origin (log entry 110). -/
def Chip.asmWant (c : Chip) (a : Nat) (x : GwItem) (counts : Bool) : Chip :=
  if c.am a fAsValid = 0 ∨ ¬ c.gwRuns then c
  else if c.gapOver a then c.asmSend a x
  else
    let y := c.asm a
    let c := c.setAsm a { y with deferred := some (y.deferred.getD (x.origin, x.asked, x.rewrite)) }
    if counts then (c.count pGW K.GW_GAP_DEFERRED).tcount pGW 9 a 1 else c

/-- A signal is the last one copied into its assembler's buffer. -/
def Chip.copied (c : Chip) (i : Nat) : Chip :=
  let a := c.sg i fSgAsm
  c.setAsm a { c.asm a with order := ((c.asm a).order.filter fun j => decide (j ≠ i)) ++ [i] }

/-- One signal updated from a payload: whether it was updated, and whether its value changed. -/
def Chip.updateSig (c : Chip) (i : Nat) (bs : List Byte) : Chip × Bool × Bool :=
  let len := c.sg i fSgLen
  if c.sg i fSgValid = 0 ∨ 8 * bs.length < c.sg i fSgSrc + len then (c, false, false)
  else
    let was := c.sigValue i
    let v := payBits bs (c.sg i fSgSrcMot = 1) (c.sg i fSgSrc) len
    ((c.setSig i { value := some v, at' := c.cycles, stale := false }).copied i, true, decide (v ≠ was))

/-- The signals that a route names. -/
def Chip.routeSigs (c : Chip) (r : Nat) : List Nat := (List.range (c.ro r fRoSigCount)).map fun k => c.ro r fRoSigFirst + k

/-- All signals of one source message updated; the assemblers that this triggers, in index order. -/
def Chip.updateSigs (c : Chip) (is : List Nat) (bs : List Byte) : Chip × List Nat :=
  let (c, hit) := is.foldl (fun (a : Chip × List (Nat × Bool)) i =>
    match a.1.updateSig i bs with
    | (c, true, ch) => (c, a.2 ++ [(c.sg i fSgAsm, ch && decide (c.sg i fSgTrigger = 1))])
    | (c, false, _) => (c, a.2)) (c, [])
  let asms := (List.range 1024).filter fun a => hit.any fun (h : Nat × Bool) =>
    decide (h.1 = a) && (decide (c.am a fAsOnUpdate = 1) || (decide (c.am a fAsOnChange = 1) && h.2))
  (c, asms)

/-- A signal without an update for TMO ms takes SUBST (R227). -/
def Chip.signalStale (c : Chip) (i : Nat) : Chip :=
  let x := c.sig i
  let a := c.sg i fSgAsm
  if i < 16384 ∧ c.gwRuns ∧ c.sg i fSgValid = 1 ∧ c.sg i fSgTmo ≠ 0 ∧ ¬ x.stale ∧ x.at' + msCycles (c.sg i fSgTmo) ≤ c.cycles then
    let changed := decide (c.sigValue i ≠ c.subst i)
    let c := (c.setSig i { x with value := none, stale := true }).copied i
    let c := ((c.count pGW K.GW_SIGNAL_STALE).tcount pGW 9 a 2).raise pGW E.GW_SIGNAL_STALE
    if changed ∧ c.sg i fSgTrigger = 1 ∧ c.am a fAsOnChange = 1 then
      let (x, c) := c.noSource false
      c.asmWant a x true
    else c
  else c

/-- An assembler's period expires (R226). -/
def Chip.asmPeriod (c : Chip) (a : Nat) : Chip :=
  let p := c.am a fAsPeriod
  if a < 1024 ∧ c.gwRuns ∧ c.am a fAsValid = 1 ∧ p ≠ 0 ∧ (c.asm a).periodAt + tenthMs p ≤ c.cycles then
    let c := c.setAsm a { c.asm a with periodAt := c.cycles }
    let (x, c) := c.noSource true
    c.asmWant a x false
  else c

/-- The end of MIN_GAP with a deferred transmission (R226): it keeps the origin of the update that it was deferred for, and the rewrite of
that update's ingress lookup (R197). -/
def Chip.asmGapEnd (c : Chip) (a : Nat) : Chip :=
  match (c.asm a).deferred with
  | some (o, asked, rw) =>
    if c.gapOver a ∧ c.gwRuns then
      let (x, c) := (c.setAsm a { c.asm a with deferred := none }).noSource asked
      c.asmSend a { x with port := o, origin := o, rewrite := rw }
    else c
  | none => c

/-! ## Network interconnect (R238, R239) -/

abbrev pgnCLAIM : Nat := 60928
abbrev pgnREQUEST : Nat := 59904
abbrev pgnNETWORK : Nat := 60672

/-- A message that goes to every other channel whatever the filter. -/
def niuAlways (m : Msg) : Bool :=
  isJ1939 m && (decide (jPgn m.id = pgnCLAIM ∨ jPgn m.id = pgnNETWORK) || decide (jPgn m.id = pgnREQUEST ∧ leAt m.data 0 3 = pgnCLAIM))

/-- The filter's answer for a message from a channel: the first valid entry that matches, else DEFAULT_PASS. -/
def Chip.niuPass (c : Chip) (inst : Nat) (m : Msg) (from' : Option Nat) : Bool :=
  let g := c.tget pGW 7
  let hit := (tblIndices c.tblA pGW 7).find? fun e =>
    isJ1939 m && decide (g e fNfValid = 1 ∧ g e fNfInst = inst ∧ g e fNfPgn = jPgn m.id)
      && (match from' with | some n => (g e fNfFrom).testBit n | none => false)
  match hit with
  | some e => decide (g e fNfPass = 1)
  | none => decide (c.ni inst fNiPass = 1)

/-- The channels that an instance chooses, and what it counts: an unknown destination address, a filtered message. -/
def Chip.niuTargets (c : Chip) (inst : Nat) (m : Msg) (from' : Option Nat) : List Nat × Bool × Bool :=
  if 8 ≤ inst ∨ c.ni inst fNiValid = 0 then ([], false, false)
  else
    let all := bitList (c.ni inst fNiChannels) 16
    let others := all.filter fun n => decide (some n ≠ from')
    if niuAlways m then (others, false, false)
    else if isJ1939 m && jPdu1 m.id && decide (jDa m.id ≠ 0xFF) then
      let holders := all.filterMap fun n => (c.claim n (jDa m.id)).map fun name => (name, n)
      match holders.foldl (fun (b : Option (Nat × Nat)) h => match b with | some a => if h.1 < a.1 then some h else b | none => some h) none with
      | none => (others, true, false)
      | some (_, n) => (if some n = from' then [] else [n], false, false)
    else if c.niuPass inst m from' then (others, false, false)
    else ([], false, true)

/-- An address claim of an instance on a channel. -/
def Chip.niuSend (c : Chip) (inst n sa : Nat) : Chip :=
  let name := (c.tword pGW 6 inst 1).toNat + 2 ^ 32 * (c.tword pGW 6 inst 2).toNat
  (c.canEnqueue n { msg := { kind := .can, ide := true, id := 6 * 2 ^ 26 + 0xEE * 65536 + 0xFF * 256 + sa, data := leBytes 8 name } }).1

def Chip.niu (c : Chip) (k : Nat) : NiuRt := lookupD {} c.nius k
def Chip.setNiu (c : Chip) (k : Nat) (x : NiuRt) : Chip := { c with nius := store {} c.nius k x }

/-- The next free address of 128 to 247 on a channel. -/
def Chip.freeAddress (c : Chip) (n sa : Nat) : Option Nat :=
  let start := if 128 ≤ sa ∧ sa < 248 then sa + 1 - 128 else 0
  ((List.range 120).map fun k => 128 + (start + k) % 120).find? fun a => decide (a ≠ sa) && (c.claim n a).isNone

/-- An answer to a network message query; its data are ISO 11783-4's (log entry 111). -/
def Chip.niuAnswer (c : Chip) (n sa da : Nat) (bs : List Byte) : Chip :=
  (c.canEnqueue n { msg := { kind := .can, ide := true, id := 6 * 2 ^ 26 + 0xED * 65536 + da % 256 * 256 + sa, data := bs.take 8 } }).1

/-- A filter change that a network message carries: an entry of the instance, in both banks (DESIGN CHOICE, log entry 111). -/
def Chip.niuFilter (c : Chip) (inst e : Nat) (ws : List Word) : Chip :=
  if 1024 ≤ e then c
  else (List.range 2).foldl (fun (c : Chip) w =>
    let v := if w = 0 then putBits (ws.getD 0 0) 20 3 inst else ws.getD w 0
    (c.setTword pGW 7 e w v).setTstaged pGW 7 e w v) c

/-- Firmware on an instance's address on its member channel (R239). -/
def Chip.niuClaim (c : Chip) (inst member : Nat) (e : NiuEvent) : Chip :=
  match (bitList (c.ni inst fNiChannels) 16)[member]? with
  | none => c
  | some n =>
    if ¬ (inst < 8 ∧ c.ni inst fNiValid = 1 ∧ c.fwRuns ∧ c.gwRuns) then c
    else
      let k := inst * 4 + member
      let x := c.niu k
      match e with
      | .claim =>
        let sa := if x.state = 0 then c.ni inst fNiPref else x.sa
        if x.state = 3 then c.niuSend inst n 254
        else (c.setNiu k { sa := sa, state := if x.state = 2 then 2 else 1 }).niuSend inst n sa
      | .won => if x.state = 1 then c.setNiu k { x with state := 2 } else c
      | .lost =>
        if x.state = 0 ∨ x.state = 3 then c
        else match (if c.ni inst fNiSelf = 1 then c.freeAddress n x.sa else none) with
          | some a => ((c.setNiu k { sa := a, state := 1 }).niuSend inst n a).raise pGW E.GW_NIU_CLAIM
          | none => ((c.setNiu k { sa := 254, state := 3 }).niuSend inst n 254).raise pGW E.GW_NIU_CLAIM
      | .query a bs => if x.state = 2 then c.niuAnswer n x.sa a bs else c
      | .filter e ws => if c.ni inst fNiWrite = 1 then c.niuFilter inst e ws else c

/-- A word of NSTAT. -/
def Chip.nstatWord (c : Chip) (k word : Nat) : Word :=
  match word, (bitList (c.ni (k / 4) fNiChannels) 16)[k % 4]? with
  | 0, some n => let x := c.niu k; BitVec.ofNat 32 (x.sa + 256 * x.state + 65536 * (32 + n))
  | _, _ => 0

/-- Word 0 of ASTAT. -/
def Chip.astatWord (c : Chip) (a : Nat) : Word :=
  BitVec.ofNat 32 (((c.sigsOf a).any fun i => (c.sig i).stale).toNat + 2 * (c.allStale a).toNat)

/-! ## Delivery (R217, R219) -/

/-- The timing of a copy of a TIMED route (R221, R153): the descriptor's launch time, or the message's own time; `none` where it
carries none. -/
def Chip.timing (c : Chip) (w : Way) (r : Nat) : Option Timing :=
  match w.item.launch, w.time with
  | some l, _ => some ⟨l.e, l.lead, l.execLate, l.tag⟩
  | none, some e => some ⟨e, c.ro r fRoLead, decide (c.ro r fRoExecLate = 1), c.ro r fRoTag⟩
  | none, none => none

/-- What the copies of a message have come to: some left, some were refused. -/
structure Tally where
  left : Bool := false
  refused : Bool := false
  deriving DecidableEq, Repr

/-- A copy noted, a refused one in its route's DROPS (R217). -/
def Chip.tally (r : Nat) (a : Chip × Tally) (x : Chip × Bool) : Chip × Tally :=
  if x.2 then (x.1, { a.2 with left := true }) else (x.1.tcount pGW 8 r 1, { a.2 with refused := true })

/-- The copies of a message that one route sends; SIGNALS routes have fed their signals before. -/
def Chip.deliver (c : Chip) (w : Way) (r : Nat) (y : Tally) (timing : Option Timing) : Chip × Tally :=
  let g := c.ro r
  let t := fun (m : Msg) => { msg := m, cls := g fRoClass, actuating := decide (g fRoActuating = 1), diag := decide (g fRoDiag = 1) : TxMsg }
  let m := c.translated r w.msg
  let one := fun (x : Chip × Bool) => Chip.tally r (c, y) x
  match g fRoDst with
  | 0 =>
    (bitList (g fRoCans) 16).foldl (fun a n =>
      Chip.tally r a (a.1.toCan w.item n (formatted (g fRoFormat) (g fRoBrs = 1) (g fRoPad) m) t timing)) (c, y)
  | 1 => one (c.toLin w.item (g fRoIndex) (t { m with kind := .lin, id := m.id % 64, ide := false }) timing)
  | 2 => one (c.toUart w.item (g fRoIndex) (t { w.msg with kind := .uart, id := 0, ide := false }) timing)
  | 3 =>
    if w.kind = 4 ∨ w.msg.xl then one c.formatDrop
    else
      let (bus, c) := c.busId w.item.port w.bus
      let k := g fRoIndex
      one (c.acfAdd k (acfBuild w.msg bus w.item.time w.item.valid (c.ao k fAoBrief = 1)) (g fRoClass)
        (if g fRoOutValid = 1 then some (g fRoOut) else none) w.item, true)
  | 4 => (c, { y with left := true })
  | _ =>
    if w.msg.kind ≠ .can ∨ w.kind = 4 ∨ w.msg.xl then one c.formatDrop
    else
      let (ns, unknown, filtered) := c.niuTargets (g fRoIndex) w.msg (if isCan w.item.port then some (w.item.port - 32) else none)
      let c := if unknown then c.count pGW K.GW_NIU_DA_UNKNOWN else c
      let c := if filtered then (c.count pGW K.GW_NIU_FILTERED).tcount pGW 8 r 1 else c
      ns.foldl (fun a n => Chip.tally r a (a.1.toCan w.item n (some w.msg) t none)) (c, if filtered then { y with refused := true } else y)

/-- One route acts: a TIMED route's message without an effect time is counted, and dropped where NOTIME_DROP says so. -/
def Chip.actRoute (c : Chip) (w : Way) (y : Tally) (r : Nat) : Chip × Tally :=
  if c.ro r fRoTimed = 0 ∨ w.kind ≤ 2 ∨ 3 ≤ c.ro r fRoDst then c.deliver w r y none
  else match c.timing w r with
    | some t => c.deliver w r y (some t)
    | none =>
      let c := c.count pGW K.GW_NO_EFFECT_TIME
      if c.ro r fRoNoTimeDrop = 1 then
        (c.addTCnt pGW 8 r 1 (c.routeCopies r), { y with refused := true })
      else c.deliver w r y none

/-- Steps 5 and 6 of R215: signals first, all in one step; the routes in index order; the assemblers that were triggered. `cut` says that
the mode has refused other routes. -/
def Chip.actRoutes (c : Chip) (w : Way) (rs : List Nat) (cut : Bool) : Chip :=
  let (c, asms) := c.updateSigs ((rs.filter fun r => decide (c.ro r fRoDst = 4)).map c.routeSigs).flatten w.msg.data
  let (c, y) := rs.foldl (fun (a : Chip × Tally) r => a.1.actRoute w a.2 r) (c, { refused := cut })
  let c := asms.foldl (fun c a => c.asmWant a w.item true) c
  if y.left ∧ y.refused then
    (if w.item.ingress < 32 then c.portCount w.item.ingress K.PORT_PARTIAL_DELIVERY
     else c.chanCount w.item.ingress K.CAN_PARTIAL_DELIVERY K.LIN_PARTIAL_DELIVERY K.UART_PARTIAL_DELIVERY)
  else c

/-- The CAN channels to which routes lead a message, as a mask. -/
def Chip.farCans (c : Chip) (w : Way) (rs : List Nat) : Nat :=
  rs.foldl (fun m r => m ||| (match c.ro r fRoDst with
    | 0 => c.ro r fRoCans
    | 5 => ((c.niuTargets (c.ro r fRoIndex) w.msg (if isCan w.item.port then some (w.item.port - 32) else none)).1.foldl (fun m n => setBit m n) 0)
    | _ => 0)) 0

/-- Steps 3 to 6 of R215 for a legacy message. -/
def Chip.gwLegacy (c : Chip) (x : GwItem) (m : Msg) : Chip :=
  let kind := match m.kind with | .can => 0 | .lin => 1 | .uart => 2
  let w : Way := { item := x, kind := kind, msg := m }
  match c.routesOf w with
  | (c, []) => c.chanCount x.port K.CAN_NO_ROUTE K.LIN_NO_ROUTE K.UART_NO_ROUTE
  | (c, all) =>
    match c.modeRoutes x x.port all with
    | (c, []) => c
    | (c, r :: rs) =>
      let name := if isCan x.port then claimName m else none
      let c := match name with | some n => if c.ready pUNITS then c.learnClaim (x.port - 32) (jSa m.id) n else c | none => c
      match (if isCan x.port then c.fence (c.unitKeys x.port [] (some m) none) else .pass []) with
      | .fenced us => (c.countFenced us (name.any c.nameFenced)).count (chanPage x.port) K.CAN_FENCED_DROP
      | .pass us =>
        let x := { x with handle := c.identify x.port [] (some m) 0, unit := us.head? }
        let s : Subject := { port := x.port, peer := x.port, msg := some m, cls := c.ro r fRoClass, handle := x.handle, unit := x.unit, inp := 31
                             stamp := x.stamp, seen := x.seen, time := x.time }
        let (c, d) := c.bridle s (c.farCans { w with item := x } (r :: rs))
        let c := c.unitSeen us x.stamp
        if d.pass then
          (c.cinchArrival x.handle x.seen).actRoutes { w with item := { x with rewrite := d.rewrite } } (r :: rs) (decide (rs.length + 1 < all.length))
        else c

/-- A message of a frame, or the frame as ETH_RAW, taken to its routes; it answers whether a route matched. -/
def Chip.gwEthMsg (c : Chip) (w : Way) : Chip × Bool :=
  match c.routesOf w with
  | (c, []) => (c, false)
  | (c, all) => let (c, rs) := c.modeRoutes w.item w.item.ingress all; (c.actRoutes w rs (decide (rs.length < all.length)), true)

/-- ACF_TYPE of a route for an ACF message type. -/
def acfKind (type : Nat) : Nat := if type = 3 then 1 else if type = 6 then 2 else 0

/-- Steps 3 to 6 for a frame that left the fabric at GW (R216, R224). -/
def Chip.gwFrame (c : Chip) (x : GwItem) : Chip :=
  let raw : Msg := { kind := .uart, data := x.bytes.drop (headers x.bytes).l3 }
  let (c, hit) := c.gwEthMsg { item := x, kind := 4, msg := raw }
  match acfPayload x.bytes with
  | some p =>
    (acfAll (p.length + 1) p).foldl (fun c m => match m with
      | none => c.count pGW K.GW_ACF_MALFORMED
      | some a => (c.gwEthMsg { item := x, kind := 3, msg := a.msg, acf := acfKind a.type, bus := some a.bus, time := a.time }).1) c
  | none => if hit ∨ (headers x.bytes).etype = etAVTP then c else c.count pGW K.GW_NO_ROUTE_ETH

/-- The head of the input queue is taken (R215). -/
def Chip.gwProcess (c : Chip) : Chip :=
  if ¬ c.gwRuns then c
  else match c.inq with
    | [] => c
    | x :: l =>
      let c := { c with inq := l }
      match x.msg with
      | some m => c.gwLegacy x m
      | none => c.gwFrame x

/-! ## Commit (R243, R244) -/

def kindPort (kind port : Nat) : Bool :=
  match kind with | 0 => isCan port | 1 => isLin port | 2 => isUart port | _ => true

def Chip.badRoute (c : Chip) (check r : Nat) : Bool :=
  let g := c.tgetS pGW 0 r
  let dst := g fRoDst
  if g fRoValid = 0 then false
  else match check with
    | 1 => decide (4 < g fRoKind ∨ 5 < dst) || !kindPort (g fRoKind) (g fRoPort)
    | 2 => (decide (g fRoKind = 0 ∧ dst = 0) && (g fRoCans).testBit (g fRoPort - 32))
        || decide (dst = 0 ∧ g fRoFormat = 0 ∧ ¬ (g fRoKind = 0 ∨ (g fRoKind = 3 ∧ g fRoAcf = 0)))
    | 3 => decide (g fRoTimed = 1 ∧ (g fRoKind ≤ 2 ∨ 3 ≤ dst))
    | _ => (decide (dst = 3) && decide (c.tgetS pGW 1 (g fRoIndex) fAoValid = 0))
        || (decide (dst = 4) && (decide (g fRoSigCount = 0 ∨ 64 < g fRoSigCount ∨ 16384 < g fRoSigFirst + g fRoSigCount)
            || (List.range (g fRoSigCount)).any fun k => decide (c.tgetS pGW 3 (g fRoSigFirst + k) fSgValid = 0)))
        || (decide (dst = 5) && decide (7 < g fRoIndex ∨ c.tgetS pGW 6 (g fRoIndex) fNiValid = 0))

def Chip.badAsm (c : Chip) (check a : Nat) : Bool :=
  let g := c.tgetS pGW 2 a
  let len := g fAsLen
  if g fAsValid = 0 then false
  else match check with
    | 4 => decide (g fAsKind = 3) && decide (c.tgetS pGW 1 (g fAsAcf) fAoValid = 0)
    | _ => decide (len < 1 ∨ 64 < len) || (decide (8 < len) && decide (g fAsKind = 1 ∨ (g fAsKind = 0 ∧ g fAsFormat = 0)))
        || !kindPort (g fAsKind) (g fAsPort)

def Chip.badSignal (c : Chip) (check i : Nat) : Bool :=
  let g := c.tgetS pGW 3 i
  if g fSgValid = 0 then false
  else match check with
    | 4 => decide (c.tgetS pGW 2 (g fSgAsm) fAsValid = 0)
    | _ => decide (g fSgLen < 1 ∨ 64 < g fSgLen ∨ 8 * c.tgetS pGW 2 (g fSgAsm) fAsLen < g fSgDst + g fSgLen)

def Chip.badSched (c : Chip) (t : Nat) : Bool :=
  let g := c.tgetS pGW 4 t
  if g fSdValid = 0 then false
  else decide (g fSdCount = 0 ∨ 2048 < g fSdStart + g fSdCount)
    || (List.range (g fSdCount)).any fun k =>
      decide (c.tgetS pGW 5 (g fSdStart + k) fSeType = 1) && decide (c.tgetS pGW 4 (c.tgetS pGW 5 (g fSdStart + k) fSeColl) fSdValid = 0)

def Chip.badNiu (c : Chip) (i : Nat) : Bool :=
  let g := fun (k : Nat) => if c.tgetS pGW 6 k fNiValid = 1 then c.tgetS pGW 6 k fNiChannels else 0
  if c.tgetS pGW 6 i fNiValid = 0 then false
  else decide (popCount (g i) 16 < 2 ∨ 4 < popCount (g i) 16) || (List.range 8).any fun k => decide (k ≠ i ∧ g i &&& g k ≠ 0)

def Chip.validateGw (c : Chip) : Nat × Nat :=
  let t := fun (k : Nat) => tblIndices c.tblS pGW k
  let acfs := (t 1).filter fun k => decide (c.tgetS pGW 1 k fAoValid = 1)
  let mac := (c.reg pGW 0x140).toNat + 2 ^ 32 * c.staged pGW F.GW_GW_MAC_HI_V
  firstBad [
    ((t 0).any (c.badRoute 1), rsnRange, 1),
    ((t 0).any (c.badRoute 2), rsnInvalid, 2),
    ((t 0).any (c.badRoute 3), rsnInvalid, 3),
    ((t 0).any (c.badRoute 4) || (t 2).any (c.badAsm 4) || (t 3).any (c.badSignal 4), rsnTableRef, 4),
    ((t 3).any (c.badSignal 5), rsnRange, 5),
    ((t 2).any (c.badAsm 6), rsnRange, 6),
    (acfs.any fun k => decide (c.tgetS pGW 1 k fAoMax < 1 ∨ 32 < c.tgetS pGW 1 k fAoMax ∨ 10000 < c.tgetS pGW 1 k fAoUs), rsnRange, 7),
    ((t 4).any c.badSched, rsnInvalid, 8),
    ((List.range 8).any c.badNiu, rsnInvalid, 9),
    (!acfs.isEmpty && decide (mac = 0 ∨ (mac / 2 ^ 40) % 2 = 1), rsnInvalid, 10)]

/-- A table entry differs between two chips' acting banks. -/
def entryChanged (c old : Chip) (p : Page) (t i : Nat) : Bool := (List.range 8).any fun w => decide (c.tword p t i w ≠ old.tword p t i w)

/-- The entries of a table that two chips' acting banks may differ in. -/
def touched (c old : Chip) (p : Page) (t : Nat) : List Nat := (tblIndices c.tblA p t ++ tblIndices old.tblA p t).eraseDups

/-- At T_apply (R243): assemblers whose fields change restart their periods; changed signals start anew. -/
def Chip.appliedGw (c old : Chip) : Chip :=
  let c := ((touched c old pGW 2).filter (entryChanged c old pGW 2)).foldl (fun c a => c.setAsm a { c.asm a with periodAt := c.cycles }) c
  ((touched c old pGW 3).filter (entryChanged c old pGW 3)).foldl (fun c i => c.setSig i { at' := c.cycles }) c

/-! ## Meanings -/

/-- GW_ROUTE_PROCESS (R215). -/
def execGwRouteProcess (dt : Nat) (s : State) : Host.Outcome State Fault Refusal := .next (s.run dt fun c => c.gwProcess)

/-- ACF_BATCH_TIMEOUT (R223). -/
def execAcfBatchTimeout (dt index : Nat) (s : State) : Host.Outcome State Fault Refusal := .next (s.run dt fun c => c.acfTimeout index)

/-- ASM_PERIOD (R226). -/
def execAsmPeriod (dt index : Nat) (s : State) : Host.Outcome State Fault Refusal := .next (s.run dt fun c => c.asmPeriod index)

/-- ASM_GAP_END (R226). -/
def execAsmGapEnd (dt index : Nat) (s : State) : Host.Outcome State Fault Refusal := .next (s.run dt fun c => c.asmGapEnd index)

/-- SIGNAL_STALE (R227). -/
def execSignalStale (dt signal : Nat) (s : State) : Host.Outcome State Fault Refusal := .next (s.run dt fun c => c.signalStale signal)

/-- GW_CLR (R243). -/
def execGwClr (dt : Nat) (req : Requester) (s : State) : Host.Outcome State Fault Refusal :=
  .next (s.run dt fun c => c.command req pGW 0x14C 1 fun c => c.put pGW F.GW_INQ_STATUS_MAX 0)

/-- NIU_CLAIM (R239). -/
def execNiuClaim (dt inst member : Nat) (event : NiuEvent) (s : State) : Host.Outcome State Fault Refusal :=
  .next (s.run dt fun c => c.niuClaim inst member event)

end Sys2Proof.Machine
end

