-- ==== Sys2Proof/Machine/Datapath.lean ====
section
/-! DEFINITION. Ethernet reception (R73 to R78, R418) and transmission (R70, R71, R74, R75, R86, R144, R145, R293), and the timed
release of S ports and legacy channels (R153 to R157, R271). -/
namespace Sys2Proof.Machine

open Sys2Proof

/-! ## Statistics (R418) -/

/-- Offset of a destination among the unicast, multicast and broadcast counters. -/
def castOf (bs : List Byte) : Nat := if dmacOf bs = 2 ^ 48 - 1 then 2 else if isMulticast bs then 1 else 0

/-- What the MAC finds wrong with a frame (R73): `some` with the sub-counter that applies, if one does. The first of runt,
oversize, FCS counts (DEDUCED, log entry 39). -/
def macError (n len maxLen : Nat) (e : RxEnd) : Option (Option Nat) :=
  if len < 64 then some (some K.PORT_RX_RUNT)
  else if n ≠ 30 ∧ maxLen < len then some (some K.PORT_RX_OVERSIZE)
  else match e with
    | .good => none
    | .badFcs => some (some K.PORT_RX_FCS_ERR)
    | _ => some none

/-- Receive statistics of a frame whose end has arrived (R418): length bins and what is named good only of a frame that ended good, the
others of every frame (DEDUCED, log entry 145). -/
def Chip.rxStats (c : Chip) (n : Nat) (bs : List Byte) (e : RxEnd) (maxLen : Nat) : Chip :=
  let p := pPORT n
  let len := bs.length + 4
  let c := (c.addCnt p K.PORT_RX_OCTETS len).count p K.PORT_RX_FRAMES
  let c := if bs.length < 6 then c else c.count p (K.PORT_RX_UNICAST + castOf bs)
  let c := if isTagType (beAt bs 12 2) then c.count p K.PORT_RX_TAGGED else c
  match macError n len maxLen e with
  | some _ =>
    let c := if len < 64 ∧ e = .badFcs then c.count p K.PORT_RX_FRAGMENTS else c
    if maxLen < len ∧ e = .badFcs then c.count p K.PORT_RX_JABBERS else c
  | none =>
    ((c.addCnt p K.PORT_RX_OCTETS_GOOD len).count p K.PORT_RX_FRAMES_GOOD).count p (K.PORT_RX_BINS + lengthBin len)

/-- A bad frame (R73). -/
def Chip.rxError (c : Chip) (n : Nat) (sub : Option Nat) : Chip :=
  let c := c.count (pPORT n) K.PORT_RX_ERR
  match sub with | some k => c.count (pPORT n) k | none => c

/-! ## Reception -/

/-- The port receives frames: its link is up, its page works, `RX_EN`; an S port, half duplex, while it does not transmit (R59). -/
def Chip.receives (c : Chip) (n : Nat) : Bool :=
  decide (n < 30) && c.linkUp n && c.ready (pPORT n) && c.is (pPORT n) F.PORT_MAC_CFG_RX_EN && !(isS n && (c.txOf n).isSome)

/-- A frame that arrives at a port, from its first byte on: the stamps and the rules of its start (R45, R78). A PLCA node sends it where
PLCA runs (R204). -/
def Chip.rxFrame (c : Chip) (n : Nat) (bs : List Byte) (node : Option Nat) (o : RingOrigin) (ago : Nat) : Frame :=
  let lat := c.portLat n F.PHY_LAT_RX_Mm_PS F.PORT_TS_RX_EXTRA_PS
  { fid := 0, bytes := bs, ingress := n, origin := n, stamp := c.rxStamp n ago, raw := bs
    node := if isS n ∧ c.is (pPORT n) F.PORT_LINK_STATUS_PLCA_ACTIVE then node else none
    ring := o.ring, ringPort := o.port, hops := o.hops
    maxLen := c.get (pPORT n) F.PORT_MAC_CFG_MAX_LEN, plan := c.macPlan n bs
    began := c.cycles - ago, seen := ((c.mono : Int) - 2 * ago - lat / 1000).toNat, time := (c.rxNs n ago).toNat }

/-- A frame whose end has come (R73, R75, R77), none of it decided before; with it the class in which its bytes were received. DESIGN
CHOICE (log entry 122): every frame of EtherType 0x8808 is a PAUSE or PFC frame, whatever its opcode. -/
def Chip.rxWhole (c : Chip) (n : Nat) (bs : List Byte) (e : RxEnd) (f : Frame) : Chip × Nat :=
  let cls := (c.classify n (headers bs).tag).2.2
  if e = .assyError then (c.count (pPORT n) K.PORT_PREEMPT_ASSY_ERR, cls)
  else
    let c := c.rxStats n bs e f.maxLen
    match macError n (bs.length + 4) f.maxLen e with
    | some sub => (c.rxError n sub, cls)
    | none =>
      if beAt bs 12 2 = etPAUSE then (c.count (pPORT n) K.PORT_PAUSE_RX, cls)
      else match c.macVerify n f.plan bs with
        | (c, none) => (c, cls)
        | (c, some bs) => c.ingestClass { f with bytes := bs, raw := [] }

/-- A copy of the frame has started, on the wire or to host memory. -/
def Chip.started (c : Chip) (fid : Nat) : Bool :=
  (c.tx.filterMap (fun e => e.2) ++ c.preempted ++ c.rxDma.map fun e => e.2).any fun k => k.arriving fid

/-- A failed ICV is a receive error at the ingress port besides MACSEC_RX_DROP (R77) where it makes a bad tail (R15) or ends a frame
that FRER has pending or holds (R177); DEDUCED (log entry 123): elsewhere it is none. -/
def Chip.icvError (c : Chip) (n : Nat) (f : Frame) : Chip :=
  if c.started f.fid ∨ f.verdict = .pending ∨ f.verdict = .held then c.portCount n K.PORT_RX_ERR else c

/-- The end of a frame whose head was decided: good, or a bad tail (R104). -/
def Chip.rxHeadedEnd (c : Chip) (n : Nat) (raw : List Byte) (e : RxEnd) (f : Frame) : Chip :=
  let size := raw.length + 4 - (f.raw.length - f.bytes.length)
  if e = .assyError then ((c.count (pPORT n) K.PORT_PREEMPT_ASSY_ERR).count (pPORT n) K.PORT_RX_ERR).tailBad f size
  else
    let c := c.rxStats n raw e f.maxLen
    match macError n (raw.length + 4) f.maxLen e with
    | some sub => (c.rxError n sub).tailBad f size
    | none => match c.macVerify n f.plan raw with
      | (c, none) => (c.icvError n f).tailBad f size
      | (c, some bs) => c.tailGood { f with raw := [] } bs

/-- The first bytes of a frame: with 128 of them stages 2 to 5 decide (R103, R176), unless its SecY refuses it from its head, it is a
PAUSE or PFC frame (R60), or a byte extractor of the ingress profile reaches beyond them (R190). Else it is judged at its end. -/
def Chip.rxHead (c : Chip) (n : Nat) (bs : List Byte) (f : Frame) : Chip :=
  let wait := c.setRx n (some f)
  if bs.length < 128 ∨ beAt bs 12 2 = etPAUSE then wait
  else match macHead f.plan bs with
    | some head => if c.keyShort (c.tget pBRIDLE 2 n fPcIn) head then wait else c.ingestHead { f with bytes := head }
    | none => wait

/-- After another node's frame on the medium of an S port, the opportunity of the node after it (R70): of the node that sent the frame,
or by the time of its start. -/
def Chip.plcaHeard (c : Chip) (n : Nat) (node : Option Nat) (began : Nat) : Chip :=
  let x := c.portRt n
  if isS n ∧ x.beacon.isSome then
    let j := node.getD (x.plcaNode + (began - x.plcaAt) / max 1 (c.toCycles n))
    c.setPortRt n { x with plcaNode := j + 1, plcaAt := c.cycles }
  else c

/-- The rest of a frame, where its port is receiving one. -/
def Chip.rxTail (c : Chip) (n : Nat) (bs : List Byte) (e : RxEnd) : Chip :=
  match c.rxOf n with
  | none => c
  | some f =>
    let raw := f.raw ++ bs
    let fid := if f.headed then f.fid else c.nextFid
    let c := c.setRx n none
    let (c, cls) := if f.headed then (c.rxHeadedEnd n raw e f, f.cls)
      else c.rxWhole n raw e { f with plan := if f.raw.length < 128 then c.macPlan n raw else f.plan }
    (c.oweCredit n cls (raw.length + 4) fid).plcaHeard n f.node f.began

/-- Traffic on an S port keeps SENTRY awake (R326). -/
def Chip.hear (c : Chip) (n : Nat) : Chip := if isS n then { c with pwr := { c.pwr with heard := c.cycles } } else c

/-- What a port receives. -/
def Chip.receive (c : Chip) (n : Nat) (r : Rx) (node : Option Nat) (o : RingOrigin) (frags ago : Nat) : Chip :=
  match r with
  | .verifyResponse => if c.receives n then c.verifyOk n else c
  | .tail bs e => if n < 30 then (c.addCnt (pPORT n) K.PORT_PREEMPT_FRAG_RX frags).rxTail n bs e else c
  | .whole bs e =>
    if c.receives n then
      let c := ((c.hear n).rxAbandon n).addCnt (pPORT n) K.PORT_PREEMPT_FRAG_RX frags
      let f := c.rxFrame n bs node o ago
      let fid := c.nextFid
      let (c, cls) := c.rxWhole n bs e f
      (c.oweCredit n cls (bs.length + 4) fid).plcaHeard n f.node f.began
    else c
  | .head bs =>
    if c.receives n then
      let c := (c.hear n).rxAbandon n
      c.rxHead n bs (c.rxFrame n bs node o ago)
    else c

/-! ## The bytes of a copy on its way out (R75, R86, R173, R197) -/

/-- VLAN tag, R-TAG and rewrites; safe frames, SEND frames (R148) and mirror copies leave as they are. -/
def wireBytes (k : Copy) (e : Edit) : List Byte :=
  if k.safe || k.mirror || k.send then k.bytes
  else
    let bs := if e.untag then untag k.bytes else retag k.bytes k.vid k.pcp
    let bs := match k.rtag with | some n => setRtag bs n | none => bs
    e.rewrite.apply (!e.untag) (k.rewrite.apply (!e.untag) bs)

/-- A frame of a wire port filled to the minimum length (PRESUMED, log entry 40). -/
def padFrame (n : Nat) (bs : List Byte) : List Byte := if n < 28 then bs ++ List.replicate (60 - bs.length) 0 else bs

/-- The edits that a copy's start decides, its rewrite and SecY apart. -/
def Chip.editOf (c : Chip) (k : Copy) (timed : Bool) : Edit := { untag := !k.safe && !k.send && c.untagged k.vid k.egress, cut := k.rx.isSome, timed := timed }

/-- Its length on the wire, FCS included; of a frame still arriving the longest that it can have (DEDUCED, log entry 41). -/
def Chip.wireLen (c : Chip) (k : Copy) : Nat :=
  match k.rx with
  | some n => (match c.rxOf n with | some f => f.maxLen | none => 0) + 10 + c.macOverhead k.egress (beAt k.bytes 12 2)
  | none =>
    let bs := padFrame k.egress (wireBytes k (c.editOf k false))
    bs.length + c.macOverhead k.egress (beAt bs 12 2) + 4

/-! ## The start of a transmission -/

/-- The local time in ns at which a transmission of `size` bytes ends that starts now, preamble, SFD and gap included. -/
def Chip.endsAt (c : Chip) (n size : Nat) : Nat :=
  let r := max 1 (c.portMbps n)
  c.localNs + ((size + 20) * 8000 + r - 1) / r

/-- The gate of its class is open and stays so for long enough (R144). -/
def Chip.gateLets (c : Chip) (n : Nat) (k : Copy) : Bool :=
  (c.gates n).testBit k.cls && (match c.nextClose n k.cls with
    | none => true
    | some t =>
      let whole := c.wireLen k
      let size := if c.preemptable n k.cls then min whole (64 * (c.get (pPORT n) F.PORT_PREEMPT_CFG_ADD_FRAG + 1)) else whole
      decide (c.endsAt n size ≤ t))

/-- What a T link's receiver still has to give back of a class (R293). -/
def Chip.creditUsed (c : Chip) (t cls : Nat) : Nat := lookupD 0 (c.tenon t).used cls

/-- A held frame leaves a T egress only against credit (R293). -/
def Chip.creditLets (c : Chip) (n : Nat) (k : Copy) : Bool :=
  !(isT n && c.heldClass k.cls) || decide (c.creditUsed (n - 28) k.cls + c.wireLen k ≤ 16384)

/-- A held copy on a T link takes credit for `size` bytes, having given `back` what it took before. -/
def Chip.takeCredit (c : Chip) (n : Nat) (k : Copy) (back size : Nat) : Chip :=
  if isT n && c.heldClass k.cls then
    let x := c.tenon (n - 28)
    c.setTenon (n - 28) { x with used := store 0 x.used k.cls (c.creditUsed (n - 28) k.cls - back + size) }
  else c

/-- The copy at the head of a class's queue; one with a launch time for an S port goes to its release queue instead (R153, R271). -/
def Chip.headOf (c : Chip) (n cls : Nat) : Option Copy := (c.queue (qIndex n cls)).next.find? fun k => !(isS n && k.launch.isSome)

/-- The head copy of a class, where it may start now. -/
def Chip.mayStart (c : Chip) (n cls : Nat) : Option Copy :=
  match c.headOf n cls with
  | some k => if k.present && c.gateLets n k && c.creditLets n k then some k else none
  | none => none

/-- Of the classes that `p` takes, the highest whose head may start (DEDUCED: strict priority, log entry 42). -/
def Chip.nextCopy (c : Chip) (n : Nat) (p : Nat → Bool) : Option Copy := ((List.range 8).reverse.filter p).findSome? (c.mayStart n)

/-- What a port sends next. -/
inductive Pick where
  | safe (f : SafeFrame)
  | timed (q : RelReq) (k : Copy)
  | copy (k : Copy)
  | resume (k : Copy)
  deriving DecidableEq, Repr

def Chip.safeOf (c : Chip) (n : Nat) : Option SafeFrame := c.safeFrames.find? fun (f : SafeFrame) => decide (f.port = n)

/-- Which frames interrupt which at a port: one of a higher rank. Where preemption runs, an express class has rank 1, a preemptable one
rank 0 (R74); on a T link the held classes rank in their order above the bulk classes (R286). -/
def Chip.rank (c : Chip) (n cls : Nat) : Nat :=
  if isT n then (if c.heldClass cls then cls + 1 else 0) else if c.preemptable n cls then 0 else 1

/-- What an idle port sends next: a safe frame (R162), a due release (R154), a copy of a rank above that of the interrupted one, the rest
of that one, a copy of rank 0. In SENTRY the oldest copy of the bypass (R106). -/
def Chip.pick (c : Chip) (n : Nat) : Option Pick :=
  match c.safeOf n with
  | some f => some (.safe f)
  | none =>
    match (if isS n then c.relDue n else none) with
    | some q => q.copy.map (.timed q)
    | none =>
      if isS n && c.guardBlocks n then none
      else if c.mode = modeSentry then (c.bypass.find? fun (k : Copy) => decide (k.egress = n)).map .copy
      else if c.fabricDown then none
      else
        let pre := c.preOf n
        let low := match pre with | some k => c.rank n k.cls | none => 0
        match c.nextCopy n fun cls => decide (low < c.rank n cls) with
        | some k => some (.copy k)
        | none =>
          if c.gateHold n then none
          else match pre with
            | some k => some (.resume k)
            | none => (c.nextCopy n fun cls => decide (c.rank n cls = 0)).map .copy

/-- The frame in transmission may be interrupted now: on a T link at the next flit boundary (R286), elsewhere where preemption can split
it. -/
def Chip.yields (c : Chip) (n : Nat) (t : Copy) : Bool := if isT n then !t.safe else c.splits n t

/-- What interrupts the frame in transmission (R74, R162, R286): it gives way to a safe frame or to a copy of a higher rank. -/
def Chip.pickOver (c : Chip) (n : Nat) (t : Copy) : Option Pick :=
  if ¬ c.yields n t then none
  else match c.safeOf n with
    | some f => some (.safe f)
    | none => if c.fabricDown then none else (c.nextCopy n fun cls => decide (c.rank n t.cls < c.rank n cls)).map .copy

/-- The port may send: its link is up, its page works, `TX_EN`; GW takes frames while the gateway runs. -/
def Chip.sends (c : Chip) (n : Nat) : Bool :=
  if n = 31 then c.gwRuns
  else decide (n < 30) && c.ready (pPORT n) && c.is (pPORT n) F.PORT_MAC_CFG_TX_EN
    && (if isT n then decide (c.get (pTENON (n - 28)) F.TENON_TL_STATUS_STATE = 3) else c.linkUp n)

/-- An S port's medium is free for it: it receives nothing (R59), and under PLCA its own opportunity runs (R70, R71). That begins
`TO_TIMER` bit times for each node before it after the beacon, or after the last frame of a node, lasts `TO_TIMER` bit times, and goes
on after an own frame for at most `BURST_CNT` further ones. -/
def Chip.opportunity (c : Chip) (n : Nat) : Bool :=
  !isS n || ((c.rxOf n).isNone && (!c.is (pPORT n) F.PORT_LINK_STATUS_PLCA_ACTIVE
    || (let x := c.portRt n
        let own := c.get (pPORT n) F.PORT_PLCA_CFG_NODE_ID
        let opens := x.plcaAt + (own - x.plcaNode) * c.toCycles n
        x.beacon.isSome && decide (x.burst ≤ c.get (pPORT n) F.PORT_PLCA_CFG_BURST_CNT) && decide (x.plcaNode ≤ own)
          && decide (opens ≤ c.cycles ∧ c.cycles < opens + c.toCycles n))))

/-- The copy leaves the queue in which it stands. -/
def Chip.takeCopy (c : Chip) (n : Nat) (k : Copy) : Chip :=
  if c.mode = modeSentry then { c with bypass := c.bypass.erase k }
  else
    let q := qIndex n k.cls
    let x := c.queue q
    c.setQueue q { x with items := x.items.filter fun j => decide (j ≠ k), ready := x.ready.filter fun j => decide (j ≠ k) }

/-- What the egress lookup of a copy sees: the frame before any rewrite (R190), a DEI mark of its ingress lookup included. -/
def Copy.egressSubject (k : Copy) : Subject :=
  { port := k.egress, peer := k.origin, egress := true, bytes := if k.mark then markDei k.bytes else k.bytes, orig := some k.bytes
    cls := k.cls, handle := k.handle, unit := k.unit, inp := k.ingress, stamp := k.stamp, part := if k.rx.isSome then some k.fid else none }

/-- The egress lookup (R12, R22, R148): none for safe frames, frames of SEND actions, mirror copies and copies to GW. -/
def Chip.egressLookup (c : Chip) (k : Copy) : Chip × Decision :=
  if k.safe || k.send || k.mirror || decide (k.egress = 31) then (c, { pass := true }) else c.bridle k.egressSubject 0

/-- An R-TAG takes the copy, `len` bytes on the wire with SecTAG, ICV and FCS (R73), beyond the egress port's `MAX_LEN` (R173). -/
def Copy.tagOversize (k : Copy) (len maxLen : Nat) : Bool :=
  (match k.rtag with | some (some _) => (headers k.bytes).rtag.isNone | _ => false) && decide (k.egress < 31 ∧ maxLen < len)

/-- The egress lookup of a copy whose frame is still arriving took rules: they count the rest of its bytes at its tail (R192). -/
def Chip.owe (c : Chip) (k : Copy) (rules : List Nat) : Chip :=
  match k.rx.bind c.rxOf with
  | some f => if f.fid = k.fid then c.setRx f.ingress (some { f with owed := f.owed ++ [(rules, k.egressSubject.size)] }) else c
  | none => c

/-- The packet memory's word on a copy before its transmission (R94): `none` when it is lost. -/
def Chip.eccCopy (c : Chip) (k : Copy) (ecc : EccResult) : Chip × Option Copy :=
  match ecc with
  | .good => (c, some k)
  | .corrected => (c.count pBUF K.BUF_BUF_ECC_CORR, some k)
  | .uncorrectable => ((((c.raise pBUF E.BUF_ECC_UNCORR).count pBUF K.BUF_BUF_ECC_DROP).numberLost k).refuseCopy k, none)

/-- The packet memory's word on the cells of a copy in transmission (R94, R15): an uncorrectable error makes it a bad tail, and counts
as a receive error at its ingress port. -/
def Chip.eccSent (c : Chip) (k : Copy) (ecc : EccResult) : Chip × Copy :=
  if k.safe || k.send then (c, k)
  else match ecc with
    | .good => (c, k)
    | .corrected => (c.count pBUF K.BUF_BUF_ECC_CORR, k)
    | .uncorrectable => ((c.raise pBUF E.BUF_ECC_UNCORR).portCount k.ingress K.PORT_RX_ERR, { k with bad := true })

/-- A copy that has left its queue: as it starts, or refused by what still lies before the wire. -/
def Chip.prepare (c : Chip) (k : Copy) (timed : Bool) (ecc : EccResult) : Chip × Option Copy :=
  match (if k.safe || k.send then (c, some k) else c.eccCopy k ecc) with
  | (c, none) => (c, none)
  | (c, some k) =>
    let e := c.editOf k timed
    let len := c.wireLen k
    let maxLen := c.get (pPORT k.egress) F.PORT_MAC_CFG_MAX_LEN
    if k.rx.isNone ∧ k.tagOversize len maxLen then ((c.count pFRER K.FRER_TAG_OVERSIZE).refuseCopy k, none)
    else match c.egressLookup k with
      | (c, d) =>
        let c := c.owe k d.rules
        if ¬ d.pass then (c.refuseCopy k, none)
        else
          let e := { e with rewrite := d.rewrite, sof := c.txStamp k.egress, wire := len, maxLen := maxLen, fragAt := c.cycles }
          match c.macTake k.egress (beAt (wireBytes k e) 12 2) with
          | (c, none) => (c.refuseCopy k, none)
          | (c, some m) => (c, some { k with going := some { e with mac := m }, mark := k.mark || d.mark })

/-- A copy starts, or is refused. -/
def Chip.startCopy (c : Chip) (n : Nat) (k : Copy) (timed : Bool) (ecc : EccResult) : Chip × Bool :=
  match c.prepare k timed ecc with
  | (c, none) => (c, false)
  | (c, some k) =>
    let c := (c.perf (0x60 + n) k.cells).takeCredit n k 0 (k.going.getD {}).wire
    let c := if k.rx.isSome then c.count pFAB K.FAB_CT_COPIES else c
    let x := c.portRt n
    ((if isS n then c.setPortRt n { x with burst := x.burst + 1 } else c).setTx n (some { k with xing := c.portEpoch n }), true)

/-- A safe frame as a copy (R162); on a T link it bears the own ring ID (R290). -/
def SafeFrame.copy (f : SafeFrame) (ring : Nat) : Copy :=
  { fid := 0, bytes := f.bytes, ingress := 31, origin := 31, egress := f.port, cls := f.cls, seq := 0, vid := 0, pcp := 0, safe := true
    ring := ring, ringPort := 31 }

/-- The pick starts; `waited` says that an S port's medium or opportunity delayed it, `collisions` how often it collided. -/
def Chip.startPick (c : Chip) (n : Nat) (p : Pick) (ecc : EccResult) (waited : Bool) (collisions : Nat) : Chip :=
  let medium := fun (c : Chip) =>
    if isS n then
      let c := if waited then c.count (pPORT n) K.PORT_TX_DEFERRED else c
      if c.is (pPORT n) F.PORT_LINK_STATUS_PLCA_ACTIVE then c else c.addCnt (pPORT n) K.PORT_TX_COLLISIONS collisions
    else c
  match p with
  | .safe f =>
    medium (({ c with safeFrames := c.safeFrames.erase f }).startCopy n (f.copy c.ringId) false .good).1
  | .timed q k =>
    match c.startCopy n k true ecc with
    | (c, true) => medium (c.logRelease q waited ((c.txOf n).map fun k => (k.going.getD {}).sof))
    | (c, false) => { c with rels := c.rels.erase q }
  | .copy k =>
    match (c.takeCopy n k).startCopy n k false ecc with
    | (c, true) => medium c
    | (c, false) => c
  | .resume k => c.resume n k

/-- EGRESS_FRAME_START: an idle port starts what it picks; a frame in transmission gives way to what may interrupt it, or to hold. -/
def Chip.egressStart (c : Chip) (n : Nat) (ecc : EccResult) (waited : Bool) (collisions : Nat) : Chip :=
  if ¬ c.sends n then c
  else match c.txOf n with
    | some t =>
      match c.pickOver n t with
      | some p => (c.interrupt n t).startPick n p ecc waited collisions
      | none => if c.splits n t ∧ c.gateHold n then c.interrupt n t else c
    | none =>
      if ¬ c.opportunity n then c
      else match c.pick n with
        | some p => c.startPick n p ecc waited collisions
        | none => c

/-! ## The end of a transmission -/

/-- Transmit statistics (R418), a stomped frame in no length bin; of a preempted frame the last fragment is counted here (R82). -/
def Chip.txStats (c : Chip) (n : Nat) (k : Copy) (e : Edit) (bs : List Byte) : Chip :=
  let p := pPORT n
  let len := bs.length + 4
  let one := fun (b : Bool) (i : Nat) (c : Chip) => if b then c.count p i else c
  let c := (c.addCnt p K.PORT_TX_OCTETS len).count p K.PORT_TX_FRAMES
  let c := one (!k.bad) (K.PORT_TX_BINS + lengthBin len) (c.count p (K.PORT_TX_UNICAST + castOf bs))
  let c := (c.count p (K.PORT_TX_CLASS + k.cls)).addCnt p (K.PORT_TX_CLASS_OCTETS + k.cls) len
  let c := one (isTagType (beAt bs 12 2)) K.PORT_TX_TAGGED c
  let c := one e.cut K.PORT_TX_CUT_THROUGH c
  let c := one (decide (k.frags ≠ 0)) K.PORT_TX_PREEMPTED c
  let c := one (decide (k.frags ≠ 0)) K.PORT_PREEMPT_FRAG_TX c
  let c := one k.safe K.PORT_TX_SAFE c
  one (e.timed && isS n) K.PORT_TX_TIMED c

/-- The frame as it was on the wire, protected by its SecY. -/
def Copy.sent (k : Copy) (e : Edit) : List Byte :=
  let bs := padFrame k.egress (let bs := wireBytes k e; if k.mark ∧ ¬ e.untag then markDei bs else bs)
  match e.mac with
  | some m => m.apply bs
  | none => bs

/-- A frame that has left the fabric at GW enters the gateway's input queue (R216). -/
def Chip.toGateway (c : Chip) (k : Copy) (bs : List Byte) : Chip :=
  c.inqPush { port := 31, msg := none, bytes := bs, ingress := k.ingress, origin := k.origin, handle := k.handle, unit := k.unit, cls := k.cls
              stamp := k.stamp, time := c.fullNs k.stamp, valid := c.timeValid, launch := k.launch }

/-- What the end of a copy that cut through still settles: an R-TAG that takes it beyond `MAX_LEN` (R173). DESIGN CHOICE (log entry
101): such a copy has left, and ends as a bad tail. -/
def Chip.settleCut (c : Chip) (k : Copy) (e : Edit) : Chip × Copy :=
  if e.cut ∧ k.tagOversize ((k.sent e).length + 4) e.maxLen then ((c.count pFRER K.FRER_TAG_OVERSIZE).refuseCopy k, { k with bad := true }) else (c, k)

/-- The own opportunity of an S port goes on after its frame (R70). -/
def Chip.plcaSent (c : Chip) (n : Nat) : Chip :=
  if isS n then c.setPortRt n { c.portRt n with plcaNode := c.get (pPORT n) F.PORT_PLCA_CFG_NODE_ID, plcaAt := c.cycles } else c

/-- EGRESS_FRAME_END: the frame in transmission ends; a frame that is still arriving does not. -/
def Chip.egressEnd (c : Chip) (n : Nat) (ecc : EccResult) : Chip :=
  match c.txOf n with
  | none => c
  | some k =>
    if k.rx.isSome then c
    else
      let e := k.going.getD {}
      let bs := k.sent e
      let c := ((c.setTx n none).takeCredit n k e.wire (bs.length + 4)).plcaSent n
      let (c, k) := c.eccSent k ecc
      let (c, k) := c.settleCut k e
      if n = 31 then (if k.bad then c else c.toGateway k bs)
      else
        let c := if isT n then (c.flitsOut (n - 28) (flitsOf bs.length)).emit (.ringHeader n k.ring k.ringPort (k.hops + 1)) else c
        let c := (c.txStats n k e bs).emit (.frame n bs (!k.bad))
        let c := if k.bad then c.count (pPORT n) K.PORT_STOMPED else c
        let c := if k.bad && isT n then c.count (pTENON (n - 28)) K.TENON_ABORTS_TX else c
        if k.safe then c.count pCINCH K.CINCH_SAFE_SENT else c

/-! ## The gate deadline (R145) and timed release -/

/-- The head copy of a class has stood there for DEADLINE_US without having started. -/
def Chip.gateExpire (c : Chip) (n cls : Nat) : Chip :=
  match c.gateDeadline n, c.headOf n cls with
  | some (i, limit), some k =>
    match k.head with
    | some t =>
      if t + limit ≤ c.cycles ∧ ¬ k.mirror ∧ n < 32 ∧ cls < 8 then
        let c := (c.takeCopy n k).tcount pSTORY 3 i lsDeadlineDrop
        ((c.count pSTORY K.STORY_GATE_DEADLINE_DROP).raise pSTORY E.STORY_GATE_DEADLINE).refuseCopy k
      else c
    | none => c
  | _, _ => c

/-- The first copy of a class with a launch time that has come through its S port's queue becomes a release request (R153, R271);
untimed frames before it do not hold it back. -/
def Chip.launchRequest (c : Chip) (n cls : Nat) : Chip :=
  match (if isS n then (c.queue (qIndex n cls)).next.find? fun k => k.launch.isSome && k.present else none) with
  | some k =>
    match k.launch with
    | some l =>
      let c := c.takeCopy n k
      match c.release { target := n, r := c.effect l.e - c.leadNs l.lead, tag := l.tag, copy := some { k with launch := none } } l.execLate with
      | (c, true) => c
      | (c, false) => c.refuseCopy k
    | none => c
  | none => c

/-- RELEASE_START: the due request of a target starts on its medium. -/
def Chip.releaseStart (c : Chip) (t : Nat) (r : CanResult) (waited : Bool) : Chip :=
  if isS t then (if (c.relDue t).isSome ∧ (c.safeOf t).isNone then c.egressStart t .good waited 0 else c)
  else if isCan t then
    match c.relDue t with
    | some q =>
      let n := t - 32
      match q.msg with
      | some m => if c.canSends n ∧ (c.safeOf t).isNone ∧ ¬ c.canQuiet then c.canAttempt n (.timed q m) r waited else c
      | none => c
    | none => c
  else if isLin t then c.linRelease (t - 48) waited
  else if isUart t then c.uartRelease (t - 56) waited
  else c

/-! ## Meanings -/

/-- FRAME_RECEPTION (R12): what arrives on an Ethernet or Tenon port; the PLCA node that sent it, its Tenon origin, the fragments
in which it came, and the time since its start of frame. -/
def execFrameReception (dt port : Nat) (rx : Rx) (node : Option Nat) (origin : RingOrigin) (frags ago : Nat) (s : State) :
    Host.Outcome State Fault Refusal :=
  .next (s.run dt fun c => c.receive port rx node origin frags ago)

/-- EGRESS_FRAME_START (R144): the memory's word on the copy that starts, an S medium's delay and collisions. -/
def execEgressFrameStart (dt port : Nat) (ecc : EccResult) (waited : Bool) (collisions : Nat) (s : State) : Host.Outcome State Fault Refusal :=
  .next (s.run dt fun c => (c.egressStart port ecc waited collisions).retryT)

/-- EGRESS_FRAME_END (R418): `ecc` is what the packet memory found in cells read after the start (R94). -/
def execEgressFrameEnd (dt : Nat) (tx : TxEnd) (s : State) : Host.Outcome State Fault Refusal :=
  .next (s.run dt fun c => (c.egressEnd tx.port tx.ecc).retryT)

/-- GATE_DEADLINE_DROP (R145). -/
def execGateDeadlineDrop (dt port cls : Nat) (s : State) : Host.Outcome State Fault Refusal := .next (s.run dt fun c => (c.gateExpire port cls).retryT)

/-- RELEASE_REQUEST (R154): a copy with a launch time arrives at its S port's release queue. -/
def execReleaseRequest (dt port cls : Nat) (s : State) : Host.Outcome State Fault Refusal := .next (s.run dt fun c => c.launchRequest port cls)

/-- RELEASE_START (R155): `result` is what becomes of the attempt on CAN, `waited` that the medium was busy at the instant. -/
def execReleaseStart (dt target : Nat) (result : CanResult) (waited : Bool) (s : State) : Host.Outcome State Fault Refusal :=
  .next (s.run dt fun c => c.releaseStart target result waited)

end Sys2Proof.Machine
end

