-- ==== Sys2Proof/Machine/Crossings.lean ====
section
/-! DEFINITION. Crossings between clock domains (R321, R322): a flush changes the epoch, and every item that bears the old one is
dropped. The items are frames between a port and the fabric, frames between the fabric and the DMA engine, frames between LPDDR4X
and the fabric, frames between the DMA engine and PCI Express (log entry 102). -/
namespace Sys2Proof.Machine

open Sys2Proof

/-- The block lies on the wire side of a port's crossing. -/
def wireSide (p : Page) : Bool :=
  match p.kind with
  | .port | .phy | .tenon => true
  | _ => false

def Chip.xingDrop (c : Chip) : Chip := c.count pRST K.RST_XING_DROP

/-- A frame on its way into the fabric, part of which has crossed, is dropped: the link or the fabric has been reset. Where only the
fabric has been, its end is still to come, and FRER judges it by that (R176). -/
def Chip.xingRx (c : Chip) (p : Page) (n : Nat) : Chip :=
  match c.rxOf n with
  | some f =>
    if f.headed ∧ f.xing ≠ c.portEpoch n then
      if wireSide p then (((c.setRx n none).xingDrop).portCount n K.PORT_RX_ERR).tailBad f f.counted
      else
        let d := ((c.xingDrop).count pFAB K.FAB_FAB_DOWN_DROP).withdraw f.fid
        d.setRx n (some { f with set := 0, xing := c.portEpoch n })
    else c
  | none => c

/-- A copy that was on its way out is dropped. -/
def Chip.xingCopy (c : Chip) (p : Page) (n : Nat) (k : Copy) : Chip :=
  (c.xingDrop.portCount n (if wireSide p then K.PORT_LINK_DOWN_DROP else K.PORT_STOMPED)).emit (.frame n k.bytes false)

/-- A frame in transmission, part of which has crossed; an interrupted one likewise. -/
def Chip.xingTx (c : Chip) (p : Page) (n : Nat) : Chip :=
  let old := fun (k : Copy) => decide (k.xing ≠ c.portEpoch n)
  let c := match (c.txOf n).filter old with | some k => (c.xingCopy p n k).setTx n none | none => c
  ((c.presOf n).filter old).foldl (fun c k => (c.xingCopy p n k).dropPre k) c

/-- Frames being written to rings: they end there as bad tails (R268). -/
def Chip.xingDma (c : Chip) : Chip :=
  c.rxDma.foldl (fun c (e : Nat × Copy) =>
    if e.2.xing ≠ c.portEpoch 30 then
      { c.xingDrop with rxDma := (c.rxDma.erase e) ++ [(e.1, { e.2 with rx := none, bad := true, xing := c.portEpoch 30 })] }
    else c) c

/-- The items that have partly crossed between LPDDR4X and the fabric, or between the DMA engine and PCI Express. What becomes of them
is said where their block is reset. -/
def Chip.xingInner (c : Chip) (p : Page) : Nat :=
  match p.kind with
  | .spill => (c.queues.map fun e => (e.2.items.filter fun k => k.reading.isSome && !k.back).length).sum
  | .host => (c.rings.filter fun e => decide (e.2.data ≠ [] ∨ e.2.pos ≠ 0)).length
  | _ => 0

/-- The crossings of a page's block are flushed by its reset, or by the loss of its clock (R322). A ring peer whose crossing with a T
link flushes raises PEER_RESET for the ring head's record (R291). -/
def Chip.xingFlush (c : Chip) (p : Page) : Chip :=
  let c := { c with xings := store false c.xings (pageIdx p) (!c.pageEpoch p) }
  let c := (c.put pRST F.RST_XING_STATUS_PAGE (pageIdx p)).put pRST F.RST_XING_STATUS_FLUSHES (c.get pRST F.RST_XING_STATUS_FLUSHES + 1)
  let c := ((c.count pRST K.RST_XING_FLUSHES).raise pRST E.RST_XING_FLUSH).addCnt pRST K.RST_XING_DROP (c.xingInner p)
  let c : Chip := ((List.range 32).foldl (fun c n => (c.xingRx p n).xingTx p n) c).xingDma
  if p.kind = .tenon ∧ c.ringId ≠ 0 then c.raise pTRING E.TRING_PEER_RESET else c

end Sys2Proof.Machine
end

