-- ==== Sys2Proof/Machine/Host.lean ====
section
/-! DEFINITION. The host bridge (R248 to R264, R280, R281): PCI Express link and resets, MSI-X masks, the fence, the posted-error log. -/
namespace Sys2Proof.Machine

open Sys2Proof

/-! ## The link of PORT30 (R280) -/

/-- What follows when PORT30 enters or leaves UP (R63, R251). -/
def Chip.hostEdge (c old : Chip) : Chip :=
  if old.hostUp ∧ ¬ c.hostUp then ((c.count (pPORT 30) K.PORT_LINK_DOWN).raise (pPORT 30) E.PORT_LINK_DOWN).flushPort 30
  else if ¬ old.hostUp ∧ c.hostUp then c.raise (pPORT 30) E.PORT_LINK_UP
  else c

/-- `PORT30.LINK_STATUS.STATE`: OFF where the interface is unpowered. -/
def Chip.hostLinkState (c : Chip) : Nat :=
  if c.hostUp then lsUp else if c.mode = modeSentry ∨ c.mode = modeDormant then lsOff else lsSearch

/-! ## Rings (R272) -/

/-- An offset in the block of a ring. -/
def ringOff (r off : Nat) : Nat := 0x200 + 0x20 * r + off
/-- A field of a ring's block. -/
def ringFld (f : Fld) (r : Nat) : Fld := { f with off := f.off + 0x20 * r }

def Chip.ringGet (c : Chip) (r : Nat) (f : Fld) : Nat := c.get pDMA (ringFld f r)
def Chip.ringPut (c : Chip) (r : Nat) (f : Fld) (v : Nat) : Chip := c.put pDMA (ringFld f r) v

abbrev rgDISABLED : Nat := 0
abbrev rgRUNNING : Nat := 1
abbrev rgHALTED : Nat := 2
abbrev rgSTOPPING : Nat := 3

def Chip.ringState (c : Chip) (r : Nat) : Nat := c.ringGet r F.DMA_RSTATUS_STATE
def Chip.ring (c : Chip) (r : Nat) : RingRt := lookupD {} c.rings r
def Chip.setRing (c : Chip) (r : Nat) (x : RingRt) : Chip := { c with rings := store {} c.rings r x }

/-- The held frames of a ring dropped (R272). -/
def Chip.dropHeldOf (c : Chip) (r : Nat) : Chip :=
  let mine := c.rxHeld.filter fun (e : Nat × Copy) => decide (e.1 = r)
  let c := { c with rxHeld := c.rxHeld.filter fun (e : Nat × Copy) => decide (e.1 ≠ r) }
  mine.foldl (fun c e => c.refuseCopy e.2) (c.addCnt pDMA K.DMA_RING_HALT_DROP mine.length)

/-- A ring goes to DISABLED: held frames are dropped, a transmit frame being read ends bad at port 30, a frame being written is lost. -/
def Chip.ringOff (c : Chip) (r : Nat) : Chip :=
  let x := c.ring r
  let c := if x.data ≠ [] then c.count (pPORT 30) K.PORT_RX_ERR else c
  let c := { c with rxDma := c.rxDma.filter fun (e : Nat × Copy) => decide (e.1 ≠ r) }
  ((c.setRing r {}).dropHeldOf r).ringPut r F.DMA_RSTATUS_STATE rgDISABLED

/-- Every ring to DISABLED. -/
def Chip.ringsOff (c : Chip) : Chip := (List.range 32).foldl (fun c r => if c.ringState r = rgDISABLED then c else c.ringOff r) c

/-! ## Resets of the PCI Express side (R251) -/

/-- The PCI Express side reset: the link stays up after a Function Level Reset and after Bus Master Enable was cleared. -/
def Chip.pcieDown (c : Chip) (k : PcieReset) : Chip :=
  let old := c
  let c := { c.ringsOff with tlb := [] }
  let c := (List.range 64).foldl (fun c v => c.setReg pHOST (0x400 + 16 * v + 12) 1) c
  let c := c.put pHOST F.HOST_PCIE_STATUS_BME 0
  let c := if k = .bmeClear then c
    else (((c.setReg pHOST 0x380 0).setReg pHOST 0x384 0).put pHOST F.HOST_PCIE_STATUS_MSIX_EN 0).put pHOST F.HOST_PCIE_STATUS_FUNC_MASK 0
  let c := if k = .bmeClear then c else c.put pHOST F.HOST_PCIE_STATUS_D3HOT 0
  let c := if k = .perst then { c with aer := 0 } else c
  let c := if k = .linkLoss ∨ k = .perst ∨ k = .hotReset then
      ((c.put pHOST F.HOST_PCIE_STATUS_LINK_UP 0).put pHOST F.HOST_PCIE_STATUS_WIDTH 0).put pHOST F.HOST_PCIE_STATUS_SPEED 0
    else c
  let me := reqCode Requester.pcie
  let c := { c with
    pel := c.pel.filter fun (e : PelEntry) => decide (e.req ≠ Requester.pcie)
    wseq := store 0 c.wseq me 0, failed := store 0 c.failed me 0, undecided := store 0 c.undecided me 0
    remotes := c.remotes.map fun (e : RemoteReq) => if e.req = Requester.pcie then { e with orphan := true } else e
    fences := c.fences.filter fun (e : Nat × Nat) => decide (e.1 ≠ me) }
  (c.hostEdge old).raise pHOST E.HOST_PCIE_RESET

/-- The same with the flush of its crossings (R322); in reset there is nothing to reset (R1). -/
def Chip.pcieReset (c : Chip) (k : PcieReset) : Chip := if c.dark then c else (c.xingFlush pHOST).pcieDown k

/-- The link comes up and the host sets up the function: Bus Master Enable, MSI-X enable and mask, D3hot. -/
def Chip.pcieLinkUp (c : Chip) (width speed : Nat) (msixEn funcMask d3hot : Bool) : Chip :=
  if ¬ c.pciePowered then c
  else
    let old := c
    let p := pHOST
    let c := ((c.put p F.HOST_PCIE_STATUS_WIDTH width).put p F.HOST_PCIE_STATUS_SPEED speed).put p F.HOST_PCIE_STATUS_LINK_UP 1
    let c := ((c.put p F.HOST_PCIE_STATUS_BME 1).put p F.HOST_PCIE_STATUS_MSIX_EN msixEn.toNat).put p F.HOST_PCIE_STATUS_FUNC_MASK funcMask.toNat
    (c.put p F.HOST_PCIE_STATUS_D3HOT d3hot.toNat).hostEdge old

/-! ## MSI-X masks (R260) -/

/-- A vector is no longer masked: its pending bit becomes one message. -/
def Chip.flushVector (c : Chip) (v : Nat) : Chip :=
  let off := 0x380 + 4 * (v / 32)
  if (c.reg pHOST off).toNat.testBit (v % 32) ∧ ¬ c.is pHOST F.HOST_PCIE_STATUS_FUNC_MASK ∧ bitsAt (c.reg pHOST (0x400 + 16 * v + 12)) 0 1 = 0 then
    (c.setReg pHOST off (BitVec.ofNat 32 (clearBit (c.reg pHOST off).toNat (v % 32)))).sendMsix v
  else c

/-- The function is unmasked. -/
def Chip.unmaskFunction (c : Chip) : Chip := if c.dark then c else (List.range 64).foldl Chip.flushVector (c.put pHOST F.HOST_PCIE_STATUS_FUNC_MASK 0)

/-- A write to the MSI-X table (R281). -/
def Chip.writeMsix (c : Chip) (req : Requester) (off : Nat) (v : Word) : Chip × Nat :=
  match c.writePlain req pHOST off v with
  | (c, 0) => (c.flushVector ((off - 0x400) / 16 % 64), 0)
  | x => x

/-! ## What the QSPI slave answers (R255 to R257) -/

/-- CRC-8, polynomial 0x2F, initial value and final XOR 0xFF, no reflection (R256). -/
def crc8Bit (r : Nat) : Nat := if 128 ≤ r then (2 * r) % 256 ^^^ 0x2F else 2 * r
def crc8Byte (r b : Nat) : Nat := (List.range 8).foldl (fun r _ => crc8Bit r) (r ^^^ b)
def crc8 (bs : List Byte) : Byte := BitVec.ofNat 8 ((bs.foldl (fun r (b : Byte) => crc8Byte r b.toNat) 0xFF) ^^^ 0xFF)

/-- A word as it travels: its most significant byte first (R255). -/
def qsBytes (w : Word) : List Byte := (leBytes 4 w.toNat).reverse

/-- A response with its CRC. -/
def Chip.qsSend (c : Chip) (body : List Byte) : Chip := c.emit (.qspiAnswer (body ++ [crc8 body]))

/-- A read that the 9648 cannot complete answers UR. -/
def Chip.qsUr (c : Chip) : Chip := { (c.count pQSPIS K.QSPIS_UR_READS).qsSend [2] with qsRead := none }

/-- The next word of the read in progress. -/
def Chip.qsPush (c : Chip) (w : Word) : Chip :=
  match c.qsRead with
  | some q => { c with qsRead := some { q with got := q.got ++ [w], asked := false, sent := none } }
  | none => c

/-- The read in progress waits for BRG_FENCE. -/
def Chip.qsFence (c : Chip) : Bool := match c.qsRead with | some q => q.asked && q.sent.isNone | none => false

/-- The reads of BRG_FENCE that wait once the QSPI read in progress waits for none any more. -/
def Chip.qsFences (c : Chip) : List (Nat × Nat) := if c.qsFence then c.fences.filter fun (e : Nat × Nat) => decide (e.1 ≠ 2) else c.fences

/-- The address of the next word of a read. -/
def QsRead.next (q : QsRead) : Nat := (q.addr + 4 * q.got.length) % 2 ^ 24

/-- The request that the read in progress had sent to a peer has failed: it answers UR, with a capture record. -/
def Chip.qsSettle (c : Chip) : Chip :=
  match c.qsRead with
  | some q => match q.sent with
    | some e => if c.remotes.contains e then c else (c.capture 4 [BitVec.ofNat 32 (q.dev * 2 ^ 24 + q.next), 2]).qsUr
    | none => c
  | none => c

/-! ## The fence (R263) -/

def Chip.undecidedOf (c : Chip) (req : Nat) : Nat := lookupD 0 c.undecided req

/-- What `BRG_FENCE` reads as. -/
def Chip.fenceWord (c : Chip) (req : Nat) (timeout : Bool) : Word :=
  BitVec.ofNat 32 (lookupD 0 c.failed req + (if timeout then 65536 * min 255 (c.undecidedOf req) + 2 ^ 31 else 0))

def reqOfCode (k : Nat) : Requester := match k with | 2 => .qspi | 3 => .trestle | 4 => .peer | 5 => .bootRom | _ => .pcie

/-- The oldest read of BRG_FENCE of a requester completes. -/
def Chip.answerFence (c : Chip) (req : Nat) (timeout : Bool) : Chip :=
  let d : Chip := { c with fences := c.fences.eraseP fun (e : Nat × Nat) => decide (e.1 = req) }
  let w := c.fenceWord req timeout
  if req = 2 ∧ c.qsFence then d.qsPush w else d.emit (.readData (reqOfCode req) (regKey pHOST 0x148) w)

/-- Fence reads whose requester has no posted write undecided complete. -/
def Chip.settleFences (c : Chip) : Chip :=
  c.fences.foldl (fun c (e : Nat × Nat) => if c.undecidedOf e.1 = 0 then c.answerFence e.1 false else c) c

/-- A read of `BRG_FENCE`; no interface answers in reset (R1). -/
def Chip.fenceRead (c : Chip) (req : Requester) : Chip :=
  if c.dark then c.emit (.busError req (regKey pHOST 0x148))
  else { c with fences := c.fences ++ [(reqCode req, c.cycles)] }.settleFences

/-- FENCE_TMO_US, with its limits. -/
def Chip.fenceLimit (c : Chip) : Nat := max 10 (min 10000 (c.get pHOST F.HOST_HOST_CFG_FENCE_TMO_US))

/-- The fence's time is up: the read completes with TIMEOUT, a capture record is written; the spec gives its words 3 to 6 no
content, so they are free values (log entry 44). -/
def Chip.fenceTimeout (c : Chip) (req : Requester) : Chip :=
  let k := reqCode req
  match c.fences.find? fun (e : Nat × Nat) => decide (e.1 = k) with
  | some (_, t) =>
    if t + usCycles c.fenceLimit ≤ c.cycles ∧ c.undecidedOf k ≠ 0 then
      let (a, c) := c.takeFree
      let (b, c) := c.takeFree
      let ws := [BitVec.ofNat 32 a, BitVec.ofNat 32 (a / 2 ^ 32), BitVec.ofNat 32 b, BitVec.ofNat 32 (b / 2 ^ 32)]
      (((c.answerFence k true).count pHOST K.HOST_FENCE_TIMEOUT).capture 3 ws)
    else c
  | none => c

/-! ## The posted-error log (R264) -/

def Chip.pelAck (c : Chip) (seq : Nat) : Chip :=
  match c.pel with
  | e :: l => if e.seq = seq % 65536 then { c with pel := l } else c
  | [] => c

/-- `PEL_HEAD0` to `PEL_HEAD3`. -/
def Chip.pelHead (c : Chip) (i : Nat) : Word := match c.pel with | e :: _ => e.words.getD i 0 | [] => 0

/-! ## Meanings -/

/-- PCIE_RESET (R251). -/
def execPcieReset (dt : Nat) (kind : PcieReset) (s : State) : Host.Outcome State Fault Refusal := .next (s.run dt fun c => c.pcieReset kind)

/-- PCIE_LINK_UP (R280): with the width and speed of the link and what the host writes to the function's configuration space. -/
def execPcieLinkUp (dt width speed : Nat) (msixEn funcMask d3hot : Bool) (s : State) : Host.Outcome State Fault Refusal :=
  .next (s.run dt fun c => c.pcieLinkUp width speed msixEn funcMask d3hot)

/-- MSIX_UNMASK (R260): the vector control of a vector is written 0, or with none the function's mask is cleared. -/
def execMsixUnmask (dt : Nat) (req : Requester) (vector : Option Nat) (s : State) : Host.Outcome State Fault Refusal :=
  .next (s.run dt fun c => match vector with
    | some v => c.posted req pHOST (0x400 + 16 * (v % 64) + 12) 0 fun c => c.writeMsix req (0x400 + 16 * (v % 64) + 12) 0
    | none => c.unmaskFunction)

/-- BRG_FENCE_READ (R263). -/
def execBrgFenceRead (dt : Nat) (req : Requester) (s : State) : Host.Outcome State Fault Refusal := .next (s.run dt fun c => c.fenceRead req)

/-- FENCE_TIMEOUT (R263). -/
def execFenceTimeout (dt : Nat) (req : Requester) (s : State) : Host.Outcome State Fault Refusal := .next (s.run dt fun c => c.fenceTimeout req)

/-- PEL_ACK (R264). -/
def execPelAck (dt : Nat) (req : Requester) (seq : Nat) (s : State) : Host.Outcome State Fault Refusal :=
  .next (s.run dt fun c => c.command req pHOST 0x170 (BitVec.ofNat 32 seq) fun c => c.pelAck seq)

end Sys2Proof.Machine
end

