-- ==== Sys2Proof/Machine/Dma.lean ====
section
/-! DEFINITION. The DMA engine (R265 to R279, R282) and the translation of its addresses (R275 to R278, R283). -/
namespace Sys2Proof.Machine

open Sys2Proof

/-! ## Host memory as the host answers reads of it -/

/-- The byte at a host address, where a piece holds it. -/
def memByte (mem : List MemSeg) (a : Nat) : Option Byte :=
  match mem.find? fun (g : MemSeg) => decide (g.addr ≤ a ∧ a < g.addr + g.bytes.length) with
  | some g => g.bytes[a - g.addr]?
  | none => none

/-- `n` bytes from a host address on; none when the read completes in error. -/
def memRead (mem : List MemSeg) (a n : Nat) : Option (List Byte) := (List.range n).mapM fun i => memByte mem (a + i)

/-! ## Translation (R275, R276) -/

/-- The causes of R277. -/
abbrev fcL1_INVALID : Nat := 1
abbrev fcL2_INVALID : Nat := 2
abbrev fcPERM : Nat := 3
abbrev fcWINDOW : Nat := 4
abbrev fcMISALIGN : Nat := 5
abbrev fcRSVD_BITS : Nat := 6
abbrev fcWALK_ERR : Nat := 7
abbrev fcDATA_ERR : Nat := 8
abbrev fcCTX_OFF : Nat := 9

/-- A field of a context's registers. -/
def ctxFld (f : Fld) (k : Nat) : Fld := { f with off := f.off + 0x10 * k }

/-- The L1 base of a context. -/
def Chip.ctxBase (c : Chip) (k : Nat) : Nat :=
  c.get pDXLT (ctxFld F.DXLT_CTX_c_L1_LO_V k) * 2 ^ 21 + c.get pDXLT (ctxFld F.DXLT_CTX_c_L1_HI_V k) * 2 ^ 32

/-- What is wrong with an entry as such. -/
def entryFault (e inv : Nat) : Option Nat :=
  if ¬ e.testBit 0 then some inv else if e / 2 ^ 48 ≠ 0 ∨ e / 2 ^ 4 % 2 ^ 8 ≠ 0 then some fcRSVD_BITS else none

/-- The walk of a context's tables: the leaf translation, or the cause of a fault. A permission must stand in the entries of both
levels (DEDUCED, log entry 45). -/
def walk (mem : List MemSeg) (base ctx iova : Nat) : Except Nat TlbEntry :=
  match memRead mem (base + 8 * (iova / 2 ^ 21 % 2 ^ 18)) 8 with
  | none => .error fcWALK_ERR
  | some b1 =>
    let e := leNat b1
    match entryFault e fcL1_INVALID with
    | some x => .error x
    | none =>
      let addr := e / 2 ^ 12 % 2 ^ 36 * 2 ^ 12
      if e.testBit 3 then
        if addr % 2 ^ 21 ≠ 0 then .error fcMISALIGN
        else .ok { ctx := ctx, page := iova / 2 ^ 21 * 2 ^ 21, big := true, phys := addr, r := e.testBit 1, w := e.testBit 2 }
      else match memRead mem (addr + 8 * (iova / 2 ^ 12 % 2 ^ 9)) 8 with
        | none => .error fcWALK_ERR
        | some b2 =>
          let d := leNat b2
          match entryFault d fcL2_INVALID with
          | some x => .error x
          | none => .ok { ctx := ctx, page := iova / 2 ^ 12 * 2 ^ 12, big := false, phys := d / 2 ^ 12 % 2 ^ 36 * 2 ^ 12
                          r := e.testBit 1 && d.testBit 1, w := e.testBit 2 && d.testBit 2 }

/-- The TLB entry covers an IOVA. -/
def TlbEntry.covers (t : TlbEntry) (ctx iova : Nat) : Bool :=
  decide (t.ctx = ctx) && decide (t.page = if t.big then iova / 2 ^ 21 * 2 ^ 21 else iova / 2 ^ 12 * 2 ^ 12)

/-- The physical address that a permitted access takes through a translation. -/
def TlbEntry.use (t : TlbEntry) (iova : Nat) (write : Bool) : Except Nat Nat :=
  if (if write then t.w else t.r) then .ok (t.phys + (iova - t.page)) else .error fcPERM

/-- The address of one access made for a ring, translated where the ring's `XLT_EN` says so (R275, R276). -/
def Chip.xlate (c : Chip) (r iova : Nat) (write : Bool) (mem : List MemSeg) : Chip × Except Nat Nat :=
  if c.ringGet r F.DMA_RCFG_XLT_EN = 0 then (c, .ok iova)
  else
    let k := c.ringGet r F.DMA_RCFG_CTX
    if ¬ c.ready pDXLT ∨ c.get pDXLT (ctxFld F.DXLT_CTX_c_CFG_EN k) = 0 then (c, .error fcCTX_OFF)
    else if iova / 2 ^ 39 % 2 ^ 9 ≠ c.get pDXLT (ctxFld F.DXLT_CTX_c_CFG_WINDOW k) then (c, .error fcWINDOW)
    else match c.tlb.find? fun (t : TlbEntry) => t.covers k iova with
      | some t => ({ c with tlb := c.tlb.erase t ++ [t] }.count pDXLT K.DXLT_TLB_HIT, t.use iova write)
      | none =>
        let c := ((c.count pDXLT K.DXLT_TLB_MISS).perf 0x2C2 1).count pDXLT K.DXLT_WALKS
        match walk mem (c.ctxBase k) k iova with
        | .error x => (c, .error x)
        | .ok t =>
          let l := c.tlb ++ [t]
          ({ c with tlb := l.drop (l.length - 64) }, t.use iova write)

/-! ## Interrupts (R273) -/

/-- The ring's interrupt. -/
def Chip.ringIrq (c : Chip) (r : Nat) : Chip :=
  let c := c.setRing r { c.ring r with frames := 0, firstAt := none }
  if c.ringGet r F.DMA_RCFG_IRQ_EN = 1 then c.sendMsix (c.ringGet r F.DMA_RCFG_VECTOR) else c

/-- A frame of the ring has completed: its descriptors are written back. -/
def Chip.ringFrame (c : Chip) (r : Nat) : Chip :=
  if c.ringGet r F.DMA_RCFG_IRQ_EN = 0 then c
  else
    let x := c.ring r
    let c := c.setRing r { x with frames := x.frames + 1, firstAt := some (x.firstAt.getD c.cycles) }
    if c.ringGet r F.DMA_RMOD_FRAMES ≤ x.frames + 1 then c.ringIrq r else c

/-- The time limit of a ring's interrupt is up. -/
def Chip.itrExpire (c : Chip) (r : Nat) : Chip :=
  match (c.ring r).firstAt with
  | some t =>
    let us := c.ringGet r F.DMA_RMOD_ITR_US
    if r < 32 ∧ us ≠ 0 ∧ t + usCycles us ≤ c.cycles then c.ringIrq r else c
  | none => c

/-! ## Faults (R277) -/

/-- A ring moves to a state; port 30's link follows (R280). -/
def Chip.ringTo (c : Chip) (r st : Nat) : Chip := (c.ringPut r F.DMA_RSTATUS_STATE st).hostEdge c

/-- `FLT_HEAD0` to `FLT_HEAD3` of an entry (R283). -/
def FltEntry.words (e : FltEntry) : List Word :=
  [BitVec.ofNat 32 (e.iova % 2 ^ 32),
   BitVec.ofNat 32 (e.iova / 2 ^ 32 % 2 ^ 16 + 2 ^ 16 * (e.ring % 32) + 2 ^ 21 * (e.ctx % 4) + 2 ^ 23 * e.write.toNat + 2 ^ 24 * (e.cause % 16)),
   BitVec.ofNat 32 (e.desc % 2 ^ 13 + 2 ^ 16), BitVec.ofNat 32 (e.seq % 65536)]

/-- A fault of a ring's transfer: logged, captured, counted; the ring halts, or ends a STOP (log entry 46). Its interrupt, at once,
announces the frame that it ended too (R273). -/
def Chip.dmaFault (c : Chip) (r iova : Nat) (write : Bool) (cause desc : Nat) : Chip :=
  let e : FltEntry := { iova := iova, ring := r, ctx := c.ringGet r F.DMA_RCFG_CTX, write := write, cause := cause, desc := desc, seq := c.fltSeq }
  let c := c.count pDXLT K.DXLT_FAULTS
  let c := if c.flts.length < 16 then { c with flts := c.flts ++ [e], fltSeq := (c.fltSeq + 1) % 65536 }
    else (c.count pDXLT K.DXLT_FLT_LOST).raise pDXLT E.DXLT_FLT_LOST
  let c := ((c.raise pDXLT E.DXLT_FAULT).capture 2 e.words).count pDMA K.DMA_DMA_FAULTS
  let c := c.ringPut r F.DMA_RSTATUS_FAULT_CAUSE cause
  if c.ringState r = rgRUNNING then ((c.ringTo r rgHALTED).raise pDMA E.DMA_RING_HALT).ringIrq r else c.ringIrq r

/-! ## Descriptors (R265 to R269) -/

/-- The index after `i` in a ring. -/
def Chip.ringNext (c : Chip) (r i : Nat) : Nat := if i + 1 < c.ringGet r F.DMA_RCFG_SIZE then i + 1 else 0

def Chip.rhead (c : Chip) (r : Nat) : Nat := c.ringGet r F.DMA_RHEAD_V
def Chip.rtail (c : Chip) (r : Nat) : Nat := c.ringGet r F.DMA_RTAIL_V
def Chip.setHead (c : Chip) (r i : Nat) : Chip := c.ringPut r F.DMA_RHEAD_V i

/-- The address of a descriptor: 32 bytes each, from RBASE on. -/
def Chip.descAddr (c : Chip) (r i : Nat) : Nat := c.ringGet r F.DMA_RBASE_LO_V * 2 ^ 12 + c.ringGet r F.DMA_RBASE_HI_V * 2 ^ 32 + 32 * i

/-- The first `n` bytes of a descriptor, or the cause of the fault. -/
def Chip.readDesc (c : Chip) (r i n : Nat) (mem : List MemSeg) : Chip × Except Nat (List Byte) :=
  match c.xlate r (c.descAddr r i) false mem with
  | (c, .error x) => (c, .error x)
  | (c, .ok a) => match memRead mem a n with
    | some bs => (c, .ok bs)
    | none => (c, .error fcDATA_ERR)

/-- A write-back into a descriptor at a byte offset. RHEAD moves past the descriptor; when the write faults, the descriptor is not
processed and RHEAD stays on it (R277). It answers whether it was written. -/
def Chip.writeBack (c : Chip) (r i off : Nat) (ws : List Word) (mem : List MemSeg) : Chip × Bool :=
  let a := c.descAddr r i + off
  match c.xlate r a true mem with
  | (c, .error x) => ((c.setHead r i).dmaFault r a true x i, false)
  | (c, .ok p) => ((c.emit (.memWrite p (ws.flatMap fun (w : Word) => leBytes 4 w.toNat))).setHead r (c.ringNext r i), true)

/-- STATUS of a write-back. -/
abbrev wbOK : Nat := 0
abbrev wbFAULT : Nat := 1
abbrev wbTOO_LONG : Nat := 2
abbrev wbDISCARDED : Nat := 3

/-- Word 7. -/
def statusWord (status cause : Nat) : Word := BitVec.ofNat 32 (1 + 2 * status + 256 * cause)

/-- Words 6 and 7 of transmit descriptors written back in order, as far as no fault stops it. -/
def Chip.writeBackTx (c : Chip) (r : Nat) (ds : List TxDesc) (stamp status cause : Nat) (mem : List MemSeg) : Chip :=
  (ds.foldl (fun (a : Chip × Bool) (d : TxDesc) =>
    if a.2 then a.1.writeBack r d.index 24 [BitVec.ofNat 32 stamp, statusWord status cause] mem else a) (c, true)).1

/-! ## Transmit descriptors fetched and checked (R267) -/

def parseDesc (i : Nat) (bs : List Byte) : TxDesc :=
  let w2 := leAt bs 8 4
  { index := i, addr := leAt bs 0 6, len := leAt bs 6 2, sop := w2.testBit 1, eop := w2.testBit 0, cls := w2 / 4 % 8
    launch := if w2.testBit 5 then some { e := leAt bs 16 8, lead := w2 / 256 % 256, execLate := w2.testBit 6, tag := w2 / 65536 } else none }

/-- Descriptors written back DISCARDED. The frame never entered port 30: its STAMP is a free value (log entry 47). -/
def Chip.discardTx (c : Chip) (r : Nat) (ds : List TxDesc) (mem : List MemSeg) : Chip :=
  let (v, c) := c.takeFree
  c.writeBackTx r ds (v % 2 ^ 32) wbDISCARDED 0 mem

/-- A malformed frame: its descriptors so far are written back DISCARDED, and with `skip` those up to the next EOP will be. -/
def Chip.malformed (c : Chip) (r : Nat) (ds : List TxDesc) (skip : Bool) (mem : List MemSeg) : Chip :=
  let c := (c.count pDMA K.DMA_TX_MALFORMED).setRing r { c.ring r with descs := [], whole := false, skip := skip }
  (c.discardTx r ds mem).ringFrame r

/-- A frame whose descriptors are all fetched: TOO_LONG, or whole. -/
def Chip.fetchedWhole (c : Chip) (r : Nat) (ds : List TxDesc) (mem : List MemSeg) : Chip :=
  let n := (ds.map fun (d : TxDesc) => d.len).sum
  if c.get (pPORT 30) F.PORT_MAC_CFG_MAX_LEN < n then
    let (v, c) := (c.count pDMA K.DMA_TOO_LONG).takeFree
    let c := c.setRing r { c.ring r with descs := [], whole := false }
    (c.writeBackTx r ds (v % 2 ^ 32) wbTOO_LONG 0 mem).ringFrame r
  else c.setRing r { c.ring r with descs := ds, whole := true }

/-- A fetched descriptor joins the frame in progress. -/
def Chip.joinDesc (c : Chip) (r : Nat) (d : TxDesc) (mem : List MemSeg) : Chip :=
  let ds := (c.ring r).descs ++ [d]
  if d.len = 0 ∨ 16384 < d.len then c.malformed r ds (!d.eop) mem
  else if d.eop then c.fetchedWhole r ds mem
  else if 16 ≤ ds.length then c.malformed r ds true mem
  else c.setRing r { c.ring r with descs := ds }

/-- One fetched descriptor. -/
def Chip.takeDesc (c : Chip) (r : Nat) (d : TxDesc) (mem : List MemSeg) : Chip :=
  let x := c.ring r
  if d.sop then
    let c := if x.descs ≠ [] then c.malformed r x.descs false mem else c.setRing r { x with skip := false }
    if c.ringState r = rgRUNNING then c.joinDesc r d mem else c
  else if x.descs ≠ [] then c.joinDesc r d mem
  else if x.skip then (c.setRing r { x with skip := !d.eop }).discardTx r [d] mem
  else c.malformed r [d] (!d.eop) mem

/-- The engine moves data: its page works, and the host lets the function master the bus. -/
def Chip.dmaRuns (c : Chip) : Bool := c.ready pDMA && c.is pHOST F.HOST_PCIE_STATUS_LINK_UP && c.is pHOST F.HOST_PCIE_STATUS_BME

/-- The index at which the next fetch of a transmit ring stands. -/
def Chip.fetchAt (c : Chip) (r : Nat) : Nat :=
  (c.ring r).descs.foldl (fun i _ => c.ringNext r i) (c.rhead r)

/-- The engine fetches descriptors of a transmit ring: through the EOP of a frame that can be sent, or until the ring is empty. A
fetch that faults lets the descriptors of its frame be fetched again after RESUME (DEDUCED, log entry 48). -/
def Chip.fetchDescs (mem : List MemSeg) (r : Nat) : Nat → Chip → Chip
  | 0, c => c
  | n + 1, c =>
    let i := c.fetchAt r
    if c.ringState r ≠ rgRUNNING ∨ (c.ring r).whole ∨ i = c.rtail r then c
    else match c.readDesc r i 32 mem with
      | (c, .error x) => (c.setRing r { c.ring r with descs := [] }).dmaFault r (c.descAddr r i) false x i
      | (c, .ok bs) => Chip.fetchDescs mem r n (c.takeDesc r (parseDesc i bs) mem)

/-! ## The end of a STOP (R272) -/

/-- The ring has a frame in transfer. -/
def Chip.inTransfer (c : Chip) (r : Nat) : Bool := (c.ring r).whole || c.rxDma.any fun (e : Nat × Copy) => decide (e.1 = r)

/-- A STOPPING ring without a frame in transfer goes to DISABLED: a partial frame is discarded (R267), held frames are dropped. -/
def Chip.settleStop (c : Chip) (r : Nat) (mem : List MemSeg) : Chip :=
  if c.ringState r ≠ rgSTOPPING ∨ c.inTransfer r then c
  else
    let ds := (c.ring r).descs
    let c := if ds = [] then c else c.malformed r ds false mem
    (c.ringOff r).hostEdge c

/-! ## Transmit data (R266, R274, R277) -/

/-- The descriptor that holds byte `pos` of a frame, with the offset in its buffer. -/
def descAt : List TxDesc → Nat → Option (TxDesc × Nat)
  | [], _ => none
  | d :: ds, pos => if pos < d.len then some (d, pos) else descAt ds (pos - d.len)

/-- A frame that the ring `x` has read whole enters the fabric at port 30, and its descriptors are written back. -/
def Chip.txEnter (c : Chip) (r : Nat) (x : RingRt) (mem : List MemSeg) : Chip :=
  let bs := x.data ++ List.replicate (60 - x.data.length) 0
  let cls := (x.descs.head?.map fun (d : TxDesc) => d.cls).getD 0
  let launch := x.descs.head?.bind fun (d : TxDesc) => d.launch
  let c := if c.ready (pPORT 30) ∧ c.is (pPORT 30) F.PORT_MAC_CFG_RX_EN then
      (c.rxStats 30 bs .good (c.get (pPORT 30) F.PORT_MAC_CFG_MAX_LEN)).ingestWhole {
        fid := 0, bytes := bs, ingress := 30, origin := 30, stamp := x.stamp, cls := cls, fixed := true, launch := launch
        seen := c.mono, time := c.fullNs x.stamp }
    else c
  ((c.writeBackTx r x.descs x.stamp wbOK 0 mem).ringFrame r).settleStop r mem

/-- A frame has been read whole. -/
def Chip.txDone (c : Chip) (r : Nat) (mem : List MemSeg) : Chip :=
  let x := c.ring r
  let c := c.setRing r { x with descs := [], whole := false, data := [], stamp := 0 }
  ((c.count pDMA K.DMA_TX_FRAMES).addCnt pDMA K.DMA_TX_BYTES x.data.length).txEnter r x mem

/-- A fault in the data of a frame: it ends bad at port 30 and its descriptors are written back with FAULT. The STAMP of a frame whose
first chunk faults, which never entered port 30, is a free value (log entry 47). -/
def Chip.txFault (c : Chip) (r iova cause desc : Nat) (mem : List MemSeg) : Chip :=
  let x := c.ring r
  let c := (c.setRing r { x with descs := [], whole := false, data := [], stamp := 0 }).count (pPORT 30) K.PORT_RX_ERR
  let (v, c) := if x.data = [] then c.takeFree else (x.stamp, c)
  let c := c.writeBackTx r x.descs (v % 2 ^ 32) wbFAULT cause mem
  (c.dmaFault r iova false cause desc).settleStop r mem

/-- One chunk of a transmit frame: up to the next multiple of 256 of its host address. -/
def Chip.txChunk (c : Chip) (r : Nat) (mem : List MemSeg) : Chip :=
  let x := c.ring r
  match descAt x.descs x.data.length with
  | none => c
  | some (d, off) =>
    let a := d.addr + off
    let n := min (256 - a % 256) (d.len - off)
    let sop := (x.descs.head?.map fun (d : TxDesc) => d.index).getD d.index
    match c.xlate r a false mem with
    | (c, .error f) => c.txFault r a f sop mem
    | (c, .ok p) => match memRead mem p n with
      | none => c.txFault r a fcDATA_ERR sop mem
      | some bs =>
        let x := { x with stamp := if x.data = [] then c.stamp else x.stamp, data := x.data ++ bs }
        let c := (c.perf 0x2C0 1).setRing r x
        if (descAt x.descs x.data.length).isNone then c.txDone r mem else c

/-! ## Receive frames (R268 to R270) -/

/-- The receive ring of a class. -/
def Chip.rxRing (c : Chip) (cls : Nat) : Nat := bitsAt (c.reg pDMA 0x940) (4 * cls) 4

/-- Frames that a ring holds while HALTED, and the bytes that all held frames take of the hold memory, in units of 64 bytes. -/
def Chip.heldOf (c : Chip) (r : Nat) : List Copy := (c.rxHeld.filter fun (e : Nat × Copy) => decide (e.1 = r)).map fun e => e.2
def Chip.heldUnits (c : Chip) : Nat := (c.rxHeld.map fun (e : Nat × Copy) => (e.2.bytes.length + 63) / 64).sum

/-- The hold of a ring has room for a frame: quota and memory (R270). -/
def Chip.holdRoom (c : Chip) (r : Nat) (k : Copy) : Bool :=
  decide ((c.heldOf r).length < 16 * c.ringGet r F.DMA_RMOD_HOLD_QUOTA ∧ 64 * (c.heldUnits + (k.bytes.length + 63) / 64) ≤ 131072)

/-- A frame for a HALTED ring: held, or dropped beyond the quota or the memory. -/
def Chip.holdRx (c : Chip) (r : Nat) (k : Copy) : Chip :=
  if c.holdRoom r k then { c with rxHeld := c.rxHeld ++ [(r, k)] }
  else (c.count pDMA K.DMA_RING_HALT_DROP).refuseCopy k

/-- H takes frames. -/
def Chip.rxRuns (c : Chip) : Bool := c.dmaRuns && c.hostUp && c.ready (pPORT 30) && c.is (pPORT 30) F.PORT_MAC_CFG_TX_EN

/-- The copy at the head of a class at H leaves its queue: as it starts, or refused on its way out. -/
def Chip.takeRx (c : Chip) (k : Copy) (ecc : EccResult) : Chip × Option Copy :=
  match (c.takeCopy 30 k).prepare k false ecc with
  | (c, some k) => ((c.perf (0x60 + 30) k.cells), some k)
  | x => x

/-- Of the classes whose ring is DISABLED or HALTED, the highest that has a frame to take. -/
def Chip.rxAside (c : Chip) : Option Copy :=
  c.nextCopy 30 fun cls => let st := c.ringState (c.rxRing cls); decide (st = rgDISABLED ∨ st = rgHALTED)

def Chip.takeAside (c : Chip) (k : Copy) (ecc : EccResult) : Chip :=
  let r := c.rxRing k.cls
  match c.takeRx k ecc with
  | (c, none) => c
  | (c, some k) =>
    if c.ringState r = rgHALTED then c.holdRx r k else (c.count pDMA K.DMA_RX_RING_OFF_DROP).refuseCopy k

/-- A ring has a free receive descriptor. -/
def Chip.rxFree (c : Chip) (r : Nat) : Bool := decide (c.rhead r ≠ c.rtail r)

/-- The frame being written to a ring. -/
def Chip.rxCopy (c : Chip) (r : Nat) : Option Copy := (c.rxDma.find? fun (e : Nat × Copy) => decide (e.1 = r)).map fun e => e.2

/-- The frame's bytes as host memory receives them. -/
def rxBytes (k : Copy) : List Byte := k.sent (k.going.getD {})

/-- A receive ring has work: a chunk to write or a frame's end to report, a held frame to deliver, a frame to take. -/
def Chip.rxWork (c : Chip) (r : Nat) : Bool :=
  match c.rxCopy r with
  | some k => ((c.ring r).buffer.isSome || c.rxFree r) && (k.rx.isNone || k.bad || decide ((c.ring r).pos < (rxBytes k).length))
  | none => decide (c.ringState r = rgRUNNING) && c.rxFree r
    && (decide (c.heldOf r ≠ []) || (c.nextCopy 30 fun cls => decide (c.rxRing cls = r)).isSome)

/-- The ring begins its next frame: a held one first (R272). -/
def Chip.rxBegin (c : Chip) (r : Nat) (ecc : EccResult) : Chip :=
  let start := fun (c : Chip) (k : Copy) => { c.setRing r { c.ring r with buffer := none, filled := 0, pos := 0 } with rxDma := c.rxDma ++ [(r, { k with xing := c.portEpoch 30 })] }
  match c.heldOf r with
  | k :: _ => start { c with rxHeld := c.rxHeld.erase (r, k) } k
  | [] => match c.nextCopy 30 fun cls => decide (c.rxRing cls = r) with
    | none => c
    | some k => match c.takeRx k ecc with
      | (c, none) => c
      | (c, some k) => start (if k.rx.isSome then c.count pFAB K.FAB_CT_COPIES else c) k

/-- The frame of a ring is done with, complete or not. -/
def Chip.rxEnd (c : Chip) (r : Nat) : Chip :=
  let c := { c with rxDma := c.rxDma.filter fun (e : Nat × Copy) => decide (e.1 ≠ r) }
  c.setRing r { c.ring r with buffer := none, filled := 0, pos := 0 }

/-- Words 2 to 7 of the descriptor being filled. -/
def Chip.rxWriteBack (c : Chip) (r : Nat) (k : Copy) (eop : Bool) (status cause : Nat) (mem : List MemSeg) : Chip × Bool :=
  let x := c.ring r
  match x.buffer with
  | none => (c, true)
  | some (i, _) =>
    let sop := decide (x.pos = x.filled)
    let w2 := x.filled % 65536 + 2 ^ 16 * sop.toNat + 2 ^ 17 * eop.toNat + 2 ^ 18 * k.cls + 2 ^ 21 * k.handle.isSome.toNat
    let w3 := (k.handle.getD 0) % 4096 + 2 ^ 16 * (k.origin % 64)
    (c.setRing r { x with buffer := none, filled := 0 }).writeBack r i 8
      [BitVec.ofNat 32 w2, BitVec.ofNat 32 w3, BitVec.ofNat 32 k.stamp, BitVec.ofNat 32 k.epoch, 0, statusWord status cause] mem

/-- A fault while a frame is being written (R277): the rest of it is discarded. -/
def Chip.rxFault (c : Chip) (r iova : Nat) (write : Bool) (cause desc : Nat) (k : Copy) (mem : List MemSeg) : Chip :=
  let c := (c.rxWriteBack r k true wbFAULT cause mem).1
  (((c.rxEnd r).refuseCopy k).dmaFault r iova write cause desc).settleStop r mem

/-- The descriptor fetch of a frame faults: before its first byte the frame joins the hold of the ring, which is HALTED now, ahead of
those held there: it is the next in order (R272). -/
def Chip.rxFetchFault (c : Chip) (r cause desc : Nat) (k : Copy) (mem : List MemSeg) : Chip :=
  let first := decide ((c.ring r).pos = 0)
  let c := (c.rxEnd r).dmaFault r (c.descAddr r desc) false cause desc
  let c := if first && decide (c.ringState r = rgHALTED) then (if c.holdRoom r k then { c with rxHeld := (r, k) :: c.rxHeld } else (c.count pDMA K.DMA_RING_HALT_DROP).refuseCopy k)
    else c.refuseCopy k
  c.settleStop r mem

/-- The end of a frame: written back OK, or DISCARDED when its tail was bad (R268). -/
def Chip.rxDone (c : Chip) (r : Nat) (k : Copy) (mem : List MemSeg) : Chip :=
  let bs := rxBytes k
  let (c, k) := c.settleCut k (k.going.getD {})
  let c := c.txStats 30 k (k.going.getD {}) bs
  let c := if k.bad then c.count (pPORT 30) K.PORT_STOMPED else (c.count pDMA K.DMA_RX_FRAMES).addCnt pDMA K.DMA_RX_BYTES bs.length
  match c.rxWriteBack r k true (if k.bad then wbDISCARDED else wbOK) 0 mem with
  | (c, _) => ((c.rxEnd r).ringFrame r).settleStop r mem

/-- An uncorrectable error in a cell not yet written (R94, R268). -/
def Chip.rxEcc (c : Chip) (r : Nat) (k : Copy) (mem : List MemSeg) : Chip :=
  let c := ((c.raise pBUF E.BUF_ECC_UNCORR).count pBUF K.BUF_BUF_ECC_DROP).refuseCopy k
  match c.rxWriteBack r k true wbDISCARDED 0 mem with
  | (c, _) => ((c.rxEnd r).ringFrame r).settleStop r mem

/-- One chunk of a frame into the buffer of the descriptor being filled; of one that has ended bad no more is written (R268). -/
def Chip.rxWrite (c : Chip) (r : Nat) (k : Copy) (i addr : Nat) (mem : List MemSeg) : Chip :=
  if k.bad then c.rxDone r k mem else
  let x := c.ring r
  let bs := rxBytes k
  let cap := 256 * c.ringGet r F.DMA_RMOD_BUF
  let a := addr + x.filled
  let n := min (256 - a % 256) (min (cap - x.filled) (bs.length - x.pos))
  match (if n = 0 then (c, .ok a) else c.xlate r a true mem) with
  | (c, .error f) => c.rxFault r a true f i k mem
  | (c, .ok p) =>
    let c := if n = 0 then c else (c.emit (.memWrite p ((bs.drop x.pos).take n))).perf 0x2C1 1
    let c := c.setRing r { x with filled := x.filled + n, pos := x.pos + n }
    if x.pos + n = bs.length then (if k.rx.isNone then c.rxDone r k mem else c)
    else if x.filled + n = cap then
      match c.rxWriteBack r k false wbOK 0 mem with
      | (c, true) => c
      | (c, false) => ((c.rxEnd r).refuseCopy k).settleStop r mem
    else c

/-- EXPRESS of a ring. -/
def Chip.express (c : Chip) (r : Nat) : Bool := decide (c.ringGet r F.DMA_RCFG_EXPRESS = 1)

/-- Whom a path serves: express rings in ring order, the transfer in progress, round robin from the ring after the last. -/
def Chip.serve (c : Chip) (base last : Nat) (work busy : Nat → Bool) : Option Nat :=
  let rings := (List.range 16).map fun i => base + i
  match rings.find? fun r => c.express r && work r with
  | some r => some r
  | none => match rings.find? fun r => !c.express r && busy r && work r with
    | some r => some r
    | none => ((List.range 16).map fun i => base + (last - base + 1 + i) % 16).find? fun r => !c.express r && work r

/-- A transmit ring has something to read: the data of a frame whose descriptors are fetched, or descriptors. -/
def Chip.txWork (c : Chip) (r : Nat) : Bool := (c.ring r).whole || (decide (c.ringState r = rgRUNNING) && decide (c.fetchAt r ≠ c.rtail r))

/-- A transmit ring's frame is being read. -/
def Chip.txBusy (c : Chip) (r : Nat) : Bool := c.txWork r && (decide ((c.ring r).data ≠ []) || decide ((c.ring r).descs ≠ []))

/-- An express ring takes the read path: the transfer of another that it interrupts is counted once. -/
def Chip.readClaim (c : Chip) (r : Nat) : Chip :=
  if c.express r && c.txBusy c.readRing && !c.express c.readRing && !c.readPre then
    ({ c with readPre := true }.count pDMA K.DMA_PREEMPTIONS).perf 0x2C3 1
  else c

/-- One chunk of the ring's frame: a descriptor is fetched on the read path where none is being filled. -/
def Chip.rxChunk (c : Chip) (r : Nat) (ecc : EccResult) (mem : List MemSeg) : Chip :=
  let begun := (c.rxCopy r).isSome
  let c := if begun then c else c.rxBegin r ecc
  match c.rxCopy r with
  | none => c
  | some k =>
    let go := fun (c : Chip) (i addr : Nat) =>
      if begun ∧ ecc = .uncorrectable then c.rxEcc r k mem
      else (if begun ∧ ecc = .corrected then c.count pBUF K.BUF_BUF_ECC_CORR else c).rxWrite r k i addr mem
    match (c.ring r).buffer with
    | some (i, addr) => go c i addr
    | none =>
      if ¬ c.rxFree r then c
      else
        let i := c.rhead r
        match (c.readClaim r).readDesc r i 6 mem with
        | (c, .error x) => c.rxFetchFault r x i k mem
        | (c, .ok b) => go (c.setRing r { c.ring r with buffer := some (i, leNat b), filled := 0 }) i (leNat b)

/-! ## The paths (R274) -/

/-- The ring that the read path serves now. -/
def Chip.readTurn (c : Chip) : Chip × Option Nat :=
  match c.serve 16 c.readRing c.txWork c.txBusy with
  | none => (c, none)
  | some r => if c.express r then (c.readClaim r, some r) else ({ c with readRing := r, readPre := false }, some r)

/-- The engine fetches descriptors of a transmit ring when the read path serves it. -/
def Chip.descriptorFetch (c : Chip) (r : Nat) (mem : List MemSeg) : Chip :=
  if ¬ c.dmaRuns then c
  else match c.readTurn with
    | (d, some q) => if q = r then Chip.fetchDescs mem r 4096 d else c
    | (_, none) => c

/-- The ring that the write path serves now. -/
def Chip.writeTurn (c : Chip) : Chip × Option Nat :=
  let busy := fun r => (c.rxCopy r).isSome
  match c.serve 0 c.writeRing c.rxWork busy with
  | none => (c, none)
  | some r =>
    if c.express r then
      if busy c.writeRing && !c.express c.writeRing && !c.writePre then
        (({ c with writePre := true }.count pDMA K.DMA_PREEMPTIONS).perf 0x2C3 1, some r)
      else (c, some r)
    else ({ c with writeRing := r, writePre := false }, some r)

/-- One chunk on a path. -/
def Chip.dmaChunk (c : Chip) (write : Bool) (ecc : EccResult) (mem : List MemSeg) : Chip :=
  if write then
    if ¬ c.rxRuns then c
    else match c.writeTurn with
      | (c, some r) => c.rxChunk r ecc mem
      | (c, none) => c
  else if ¬ c.dmaRuns then c
  else match c.readTurn with
    | (c, some r) => if (c.ring r).whole then c.txChunk r mem else Chip.fetchDescs mem r 1 c
    | (c, none) => c

/-- The chunks of a ring's transmit frame up to its end. -/
def Chip.txChunks (mem : List MemSeg) (r : Nat) : Nat → Chip → Chip
  | 0, c => c
  | n + 1, c => if (c.ring r).whole then Chip.txChunks mem r n (c.txChunk r mem) else c

/-- The chunks of a ring's receive frame up to its end, to the end of what has arrived of it, or until no descriptor is free. -/
def Chip.rxChunks (mem : List MemSeg) (r : Nat) : Nat → Chip → Chip
  | 0, c => c
  | n + 1, c => if (c.rxCopy r).isSome && c.rxWork r then Chip.rxChunks mem r n (c.rxChunk r .good mem) else c

/-- DMA_TX_FRAME: the rest of the frame that the read path serves, its descriptors first. -/
def Chip.dmaTxFrame (c : Chip) (mem : List MemSeg) : Chip :=
  if ¬ c.dmaRuns then c
  else match c.readTurn with
    | (c, some r) => Chip.txChunks mem r 128 (Chip.fetchDescs mem r 4096 c)
    | (c, none) => c

/-- DMA_RX_FRAME: a frame whose ring is DISABLED or HALTED is taken aside; else the rest of the frame that the write path serves. -/
def Chip.dmaRxFrame (c : Chip) (ecc : EccResult) (mem : List MemSeg) : Chip :=
  if ¬ c.rxRuns then c
  else match c.rxAside with
    | some k => c.takeAside k ecc
    | none => match c.writeTurn with
      | (c, some r) => Chip.rxChunks mem r 256 (c.rxChunk r ecc mem)
      | (c, none) => c

/-- STOP_COMPLETE: the frame in transfer on a STOPPING ring completes. -/
def Chip.stopComplete (c : Chip) (r : Nat) (mem : List MemSeg) : Chip :=
  if ¬ (r < 32 ∧ c.ringState r = rgSTOPPING) then c
  else
    let c := if ¬ c.dmaRuns then c else if r < 16 then Chip.rxChunks mem r 256 c else Chip.txChunks mem r 128 c
    c.settleStop r mem

/-- Advanced Error Reporting notes a completion timeout (R248; PRESUMED, log entry 106). -/
def Chip.noteTimeout (c : Chip) : Chip := { c with aer := setBit c.aer 14 }

/-- A read made for a ring has had no completion for 10 ms (R277): of its table walk, or of its data or descriptor. -/
def Chip.completionTimeout (c : Chip) (r : Nat) (isWalk : Bool) (mem : List MemSeg) : Chip :=
  let cause := if isWalk then fcWALK_ERR else fcDATA_ERR
  let st := c.ringState r
  if ¬ c.dmaRuns ∨ 32 ≤ r ∨ ¬ (st = rgRUNNING ∨ st = rgSTOPPING) ∨ (isWalk ∧ c.ringGet r F.DMA_RCFG_XLT_EN = 0) then c
  else if 16 ≤ r then
    let x := c.ring r
    if x.whole then
      match descAt x.descs x.data.length with
      | some (d, off) => c.noteTimeout.txFault r (d.addr + off) cause ((x.descs.head?.map fun (d : TxDesc) => d.index).getD 0) mem
      | none => c
    else
      let i := c.fetchAt r
      if st = rgRUNNING ∧ i ≠ c.rtail r then (c.noteTimeout.setRing r { x with descs := [] }).dmaFault r (c.descAddr r i) false cause i else c
  else match c.rxCopy r with
    | none => c
    | some k => match (c.ring r).buffer with
      | some (i, addr) => if isWalk then c.noteTimeout.rxFault r (addr + (c.ring r).filled) true cause i k mem else c
      | none => if c.rxFree r then c.noteTimeout.rxFetchFault r cause (c.rhead r) k mem else c

/-! ## Ring commands (R265, R272) -/

/-- A write of a ring's RTAIL, directly or through the user page. -/
def Chip.doorbell (c : Chip) (r v : Nat) (user : Bool) : Chip × Nat :=
  if user ∧ c.ringGet r F.DMA_RCFG_USER_DB = 0 then (c, errRoWrite)
  else if c.locked pDMA then (c, errLocked)
  else if c.ringGet r F.DMA_RCFG_SIZE ≤ v % 2 ^ 13 then (c.raise pDMA E.DMA_BAD_DOORBELL, 0)
  else (c.ringPut r F.DMA_RTAIL_V v, 0)

def Chip.ringStart (c : Chip) (r : Nat) : Chip :=
  if r < 32 ∧ c.ringState r = rgDISABLED ∧ c.ringGet r F.DMA_RCFG_SIZE ≠ 0 ∧ c.ready pDMA then
    (((c.setRing r {}).setHead r 0).ringPut r F.DMA_RTAIL_V 0).ringTo r rgRUNNING
  else c

def Chip.ringStop (c : Chip) (r : Nat) : Chip :=
  if 32 ≤ r then c
  else if c.ringState r = rgRUNNING then c.ringTo r rgSTOPPING
  else if c.ringState r = rgHALTED then (c.ringOff r).hostEdge c
  else c

def Chip.ringResume (c : Chip) (r : Nat) (discard : Bool) : Chip :=
  if r < 32 ∧ c.ringState r = rgHALTED then (if discard then c.dropHeldOf r else c).ringTo r rgRUNNING else c

/-! ## Invalidation (R276, R283) -/

/-- The invalidation selects a translation: it covers some IOVA of the range. -/
def InvCmd.selects (v : InvCmd) (t : TlbEntry) : Bool :=
  if v.scope = 1 then true
  else if v.scope = 2 then decide (t.ctx = v.ctx)
  else decide (t.ctx = v.ctx ∧ t.page < v.addr + 4096 * v.pages ∧ v.addr < t.page + (if t.big then 2 ^ 21 else 2 ^ 12))

def Chip.dropTlb (c : Chip) (v : InvCmd) : Chip := { c with tlb := c.tlb.filter fun (t : TlbEntry) => !v.selects t }

/-- The oldest invalidation runs: its translations go, BUSY reads 1. -/
def Chip.runInv (c : Chip) : Chip :=
  match c.invs with
  | v :: _ => (c.dropTlb v).put pDXLT F.DXLT_INV_STATUS_BUSY 1
  | [] => c.put pDXLT F.DXLT_INV_STATUS_BUSY 0

def Chip.invCmd (c : Chip) (w : Word) : Chip :=
  let scope := bitsAt w 0 2
  let pages := c.get pDXLT F.DXLT_INV_PAGES_N
  if bitsAt w 31 1 = 0 ∨ scope = 0 ∨ (scope = 3 ∧ (pages = 0 ∨ 262144 < pages)) then c
  else
    let addr := c.get pDXLT F.DXLT_INV_ADDR_LO_V * 2 ^ 12 + c.get pDXLT F.DXLT_INV_ADDR_HI_V * 2 ^ 32
    let first := c.invs.isEmpty
    let c := { c with invs := c.invs ++ [⟨scope, bitsAt w 4 2, addr, pages⟩] }
    if first then c.runInv else c

def Chip.invDone (c : Chip) : Chip :=
  match c.invs with
  | [] => c
  | v :: l =>
    let c := ({ c with invs := l }.dropTlb v).put pDXLT F.DXLT_INV_STATUS_SEQ (c.get pDXLT F.DXLT_INV_STATUS_SEQ + 1)
    ((c.count pDXLT K.DXLT_INVALIDATIONS).raise pDXLT E.DXLT_INV_DONE).runInv

/-- A write of `FLT_ACK` (R264). -/
def Chip.fltAck (c : Chip) (seq : Nat) : Chip :=
  match c.flts with
  | e :: l => if e.seq = seq % 65536 then { c with flts := l } else c
  | [] => c

/-- `FLT_HEAD0` to `FLT_HEAD3`. -/
def Chip.fltHead (c : Chip) (i : Nat) : Word := match c.flts with | e :: _ => e.words.getD i 0 | [] => 0

/-! ## Validation (R284) -/

/-- A ring's staged words differ from the active ones. -/
def Chip.ringChanges (c : Chip) (r : Nat) : Bool :=
  [0x200, 0x204, 0x208, 0x20C].any fun off => decide (c.reg pDMA (off + 0x20 * r) ≠ c.reg pDMA (off + 0x20 * r + 0x800))

def Chip.validateDma (c : Chip) (group : List Nat) : Nat × Nat :=
  let rings := List.range 32
  let g := fun (f : Fld) r => c.staged pDMA (ringFld f r)
  firstBad [
    (rings.any fun r => c.ringChanges r && decide (c.ringState r ≠ rgDISABLED), rsnInvalid, 1),
    (rings.any fun r =>
      let n := g F.DMA_RCFG_SIZE r
      decide ((0 < n ∧ n < 8) ∨ 4096 < n ∨ g F.DMA_RMOD_FRAMES r = 0 ∨ g F.DMA_RMOD_BUF r = 0 ∨ 64 < g F.DMA_RMOD_BUF r), rsnRange, 2),
    ((List.range 8).any fun cls => decide (15 < bitsAt (c.reg pDMA 0x140) (4 * cls) 4), rsnRange, 3),
    (rings.any fun r => decide (g F.DMA_RCFG_XLT_EN r = 1 ∧ c.peer group pDXLT (ctxFld F.DXLT_CTX_c_CFG_EN (g F.DMA_RCFG_CTX r)) = 0), rsnTableRef, 4)]

/-- A ring that is not DISABLED uses a context, by its registers as the commit sees them. -/
def Chip.ctxUsed (c : Chip) (group : List Nat) (k : Nat) : Bool :=
  (List.range 32).any fun r => decide (c.ringState r ≠ rgDISABLED ∧ c.peer group pDMA (ringFld F.DMA_RCFG_XLT_EN r) = 1
    ∧ c.peer group pDMA (ringFld F.DMA_RCFG_CTX r) = k)

/-- A context's base or window changes. -/
def Chip.ctxMoves (c : Chip) (k : Nat) : Bool :=
  [F.DXLT_CTX_c_L1_LO_V, F.DXLT_CTX_c_L1_HI_V, F.DXLT_CTX_c_CFG_WINDOW].any fun f => decide (c.staged pDXLT (ctxFld f k) ≠ c.get pDXLT (ctxFld f k))

def Chip.validateDxlt (c : Chip) (group : List Nat) : Nat × Nat :=
  let en := ctxFld F.DXLT_CTX_c_CFG_EN
  firstBad [
    ((List.range 4).any fun k => c.ctxUsed group k && (c.ctxMoves k || decide (c.get pDXLT (en k) = 1 ∧ c.staged pDXLT (en k) = 0)), rsnInvalid, 1)]

def Chip.validateQspis (c : Chip) : Nat × Nat := firstBad [(decide (c.staged pQSPIS F.QSPIS_QS_CFG_DUMMY < 4), rsnRange, 1)]

/-- The contexts that a commit changed lose their translations (R276). -/
def Chip.appliedDxlt (c old : Chip) : Chip :=
  let changed := fun k => decide (c.ctxBase k ≠ old.ctxBase k) || [F.DXLT_CTX_c_CFG_WINDOW, F.DXLT_CTX_c_CFG_EN].any fun f => decide (c.get pDXLT (ctxFld f k) ≠ old.get pDXLT (ctxFld f k))
  { c with tlb := c.tlb.filter fun (t : TlbEntry) => !changed t.ctx }

/-- A soft reset of DXLT: its contexts are off, its log and its invalidations are gone. -/
def Chip.softResetDxlt (c : Chip) : Chip := { c with tlb := [], flts := [], fltSeq := 0, invs := [] }

/-! ## Meanings -/

/-- DOORBELL (R265): `user` writes through the user page. -/
def execDoorbell (dt : Nat) (req : Requester) (ring value : Nat) (user : Bool) (s : State) : Host.Outcome State Fault Refusal :=
  .next (s.run dt fun c =>
    if 32 ≤ ring then c
    else c.posted (if user then .pcie else req) pDMA (0x214 + 0x20 * ring) (BitVec.ofNat 32 value) fun c => c.doorbell ring value user)

/-- DESCRIPTOR_FETCH (R267). -/
def execDescriptorFetch (dt ring : Nat) (mem : List MemSeg) (s : State) : Host.Outcome State Fault Refusal :=
  .next (s.run dt fun c => c.descriptorFetch ring mem)

/-- DMA_TX_FRAME (R266). -/
def execDmaTxFrame (dt : Nat) (mem : List MemSeg) (s : State) : Host.Outcome State Fault Refusal := .next (s.run dt fun c => c.dmaTxFrame mem)

/-- DMA_RX_FRAME (R269). -/
def execDmaRxFrame (dt : Nat) (ecc : EccResult) (mem : List MemSeg) (s : State) : Host.Outcome State Fault Refusal :=
  .next (s.run dt fun c => (c.dmaRxFrame ecc mem).retryT)

/-- DMA_CHUNK (R274). -/
def execDmaChunk (dt : Nat) (write : Bool) (ecc : EccResult) (mem : List MemSeg) (s : State) : Host.Outcome State Fault Refusal :=
  .next (s.run dt fun c => c.dmaChunk write ecc mem)

/-- COMPLETION_TIMEOUT (R277). -/
def execCompletionTimeout (dt ring : Nat) (isWalk : Bool) (mem : List MemSeg) (s : State) : Host.Outcome State Fault Refusal :=
  .next (s.run dt fun c => c.completionTimeout ring isWalk mem)

/-- ITR_EXPIRE (R273). -/
def execItrExpire (dt ring : Nat) (s : State) : Host.Outcome State Fault Refusal := .next (s.run dt fun c => c.itrExpire ring)

/-- RCMD of a ring as a write. -/
def Chip.rcmd (c : Chip) (req : Requester) (r : Nat) (v : Word) (f : Chip → Chip) : Chip :=
  if 32 ≤ r then c else c.command req pDMA (0x21C + 0x20 * r) v f

/-- START (R272). -/
def execStart (dt : Nat) (req : Requester) (ring : Nat) (s : State) : Host.Outcome State Fault Refusal :=
  .next (s.run dt fun c => c.rcmd req ring 1 fun c => c.ringStart ring)

/-- STOP (R272). -/
def execStop (dt : Nat) (req : Requester) (ring : Nat) (s : State) : Host.Outcome State Fault Refusal :=
  .next (s.run dt fun c => c.rcmd req ring 2 fun c => c.ringStop ring)

/-- RESUME (R272). -/
def execResume (dt : Nat) (req : Requester) (ring : Nat) (discard : Bool) (s : State) : Host.Outcome State Fault Refusal :=
  .next (s.run dt fun c => c.rcmd req ring (if discard then 0x103 else 3) fun c => c.ringResume ring discard)

/-- STOP_COMPLETE (R272). -/
def execStopComplete (dt ring : Nat) (mem : List MemSeg) (s : State) : Host.Outcome State Fault Refusal :=
  .next (s.run dt fun c => c.stopComplete ring mem)

/-- INV_CMD (R276): the word written. -/
def execInvCmd (dt : Nat) (req : Requester) (value : Word) (s : State) : Host.Outcome State Fault Refusal :=
  .next (s.run dt fun c => c.command req pDXLT 0x180 value fun c => c.invCmd value)

/-- INV_DONE (R276). -/
def execInvDone (dt : Nat) (s : State) : Host.Outcome State Fault Refusal := .next (s.run dt Chip.invDone)

/-- FLT_ACK (R264). -/
def execFltAck (dt : Nat) (req : Requester) (seq : Nat) (s : State) : Host.Outcome State Fault Refusal :=
  .next (s.run dt fun c => c.command req pDXLT 0x1B0 (BitVec.ofNat 32 seq) fun c => c.fltAck seq)

end Sys2Proof.Machine
end

