-- ==== Sys2Proof/Machine/Tenon.lean ====
section
/-! DEFINITION. Tenon links and the ring (R285 to R300): link states, flits, credits, the ring's topology, register requests to peers. -/
namespace Sys2Proof.Machine

open Sys2Proof

abbrev tlOFF : Nat := 0
abbrev tlTRAIN : Nat := 1
abbrev tlCALIBRATE : Nat := 2
abbrev tlUP : Nat := 3

def Chip.tlState (c : Chip) (t : Nat) : Nat := c.get (pTENON t) F.TENON_TL_STATUS_STATE
def Chip.tlTo (c : Chip) (t st : Nat) : Chip := c.put (pTENON t) F.TENON_TL_STATUS_STATE st

/-! ## The ring (R289) -/

/-- The ring IDs that a link reaches, while it is up. -/
def Chip.reachOf (c : Chip) (t : Nat) : Nat := if c.tenonUp t then (c.tenon t).reach % 16 else 0

/-- Hops to a ring ID by a link in a ring of `n`: T1 leads upwards, T0 downwards (R289). -/
def ringHops (own k n t : Nat) : Nat := if t = 1 then (k + n - own % n) % n else (own + n - k % n) % n

/-- PATH of a ring ID (R291, R299): 0 self, 1 via T0, 2 via T1, 3 none; the shortest, T1 before T0. -/
def Chip.pathTo (c : Chip) (k : Nat) : Nat :=
  let own := c.ringId
  let n := max 1 (c.get pTRING F.TRING_RING_CFG_SIZE)
  let via := fun t => (c.reachOf t).testBit k
  if k = own then 0
  else if via 1 ∧ (¬ via 0 ∨ ringHops own k n 1 ≤ ringHops own k n 0) then 2
  else if via 0 then 1 else 3

/-- What RING_STATUS shows of the ring: members, topology, INCOMPLETE. -/
def Chip.ringView (c : Chip) : Nat × Nat × Bool :=
  let own := 2 ^ c.ringId
  let a := c.reachOf 0 &&& (15 - own)
  let b := c.reachOf 1 &&& (15 - own)
  let members := own ||| a ||| b
  (members, if a = 0 ∧ b = 0 then 0 else if a = b then 2 else 1, decide (popCount members 4 < c.get pTRING F.TRING_RING_CFG_SIZE))

/-- `RING_STATUS.ID_CONFLICT`: a link's partner has the own ring ID (R288), or firmware has seen the own device ID (R296). -/
def Chip.showConflict (c : Chip) : Chip :=
  let bit := (c.tenon 0).conflict.isSome || (c.tenon 1).conflict.isSome || c.ehruzConflict.isSome
  c.put pTRING F.TRING_RING_STATUS_ID_CONFLICT bit.toNat

/-- RING_STATUS and ROUTE_STATUS as the links are. -/
def Chip.ringShow (c : Chip) : Chip :=
  let v := c.ringView
  let c := ((c.put pTRING F.TRING_RING_STATUS_PRESENT v.1).put pTRING F.TRING_RING_STATUS_TOPOLOGY v.2.1).put pTRING F.TRING_RING_STATUS_INCOMPLETE v.2.2.toNat
  c.setReg pTRING 0x154 (BitVec.ofNat 32 (c.pathTo 0 + 4 * c.pathTo 1 + 16 * c.pathTo 2 + 64 * c.pathTo 3))

/-- RING_STATUS and ROUTE_STATUS follow the links; a change raises RING_CHANGE. -/
def Chip.ringUpdate (c : Chip) : Chip :=
  let f := fun k => c.get pTRING k
  let old := (f F.TRING_RING_STATUS_PRESENT, f F.TRING_RING_STATUS_TOPOLOGY, decide (f F.TRING_RING_STATUS_INCOMPLETE = 1))
  let v := c.ringView
  let c := c.ringShow
  if v = old then c
  else (c.put pTRING F.TRING_RING_STATUS_CHANGES (c.get pTRING F.TRING_RING_STATUS_CHANGES + 1)).raise pTRING E.TRING_RING_CHANGE

/-! ## Register requests to peers (R252, R262, R291) -/

abbrev pePEER_RESET : Nat := 9
abbrev pePEER_DOWN : Nat := 10
abbrev pePEER_TIMEOUT : Nat := 11
abbrev pePEER_ABSENT : Nat := 12

/-- A 26-bit address: the ring ID over the byte offset. -/
def remoteAddr (dev addr : Nat) : Nat := dev % 4 * 2 ^ 24 + addr % 2 ^ 24

/-- A request fails: a host's write as a posted write, a read with Unsupported Request. One whose requester has been reset since is only
counted. -/
def Chip.remoteFail (c : Chip) (req : Requester) (write : Bool) (dev addr : Nat) (data : Word) (wseq cause : Nat) : Chip :=
  let c := c.count pTRING K.TRING_REMOTE_FAIL
  let a := remoteAddr dev addr
  if write then (if isHost req then c.postedFail req a data cause wseq else c)
  else
    if req = .qspi then c
    else if req = .pcie then (c.emit (.busError req a)).noteUr a else c.emit (.busError req a)

/-- A write to a peer is decided. -/
def Chip.decided (c : Chip) (req : Requester) : Chip :=
  let k := reqCode req
  { c with undecided := store 0 c.undecided k (c.undecidedOf k - 1) }.settleFences

/-- Requests in flight fail for one cause. -/
def Chip.failRemotes (c : Chip) (p : RemoteReq → Bool) (cause : Nat) : Chip :=
  let bad := c.remotes.filter p
  let c := { c with remotes := c.remotes.filter fun (e : RemoteReq) => !p e }
  (bad.foldl (fun c (e : RemoteReq) =>
    if e.orphan then c.count pTRING K.TRING_REMOTE_FAIL
    else
      let c := c.remoteFail e.req e.write e.dev e.addr e.data e.wseq cause
      if e.write then c.decided e.req else c) c).qsSettle

/-- A register request that names another ring device: it leaves on the shortest path that is up, or fails. A host that is not on
the ring head reaches only its own device. How many may be under way is for the host's credit (R258, log entry 143). -/
def Chip.sendRemote (c : Chip) (req : Requester) (write : Bool) (dev addr : Nat) (data : Word) (wseq : Nat) : Chip :=
  let c := c.count pTRING (if write then K.TRING_REMOTE_WR else K.TRING_REMOTE_RD)
  if (isHost req ∧ c.ringId ≠ 0) ∨ c.get pTRING F.TRING_RING_CFG_SIZE ≤ dev then c.remoteFail req write dev addr data wseq pePEER_ABSENT
  else
    let path := c.pathTo dev
    if path = 3 then c.remoteFail req write dev addr data wseq pePEER_DOWN
    else
      let t := path - 1
      let k := reqCode req
      let waits := decide (c.tlState t ≠ tlUP)
      let c := if waits then c else c.flitsOut t 1
      let c := if write then { c with undecided := store 0 c.undecided k (c.undecidedOf k + 1) } else c
      { c with remotes := c.remotes ++ [{ req := req, write := write, dev := dev, addr := addr, data := data, wseq := wseq, link := t, at' := c.cycles, waits := waits }] }

/-- The requests that have waited for the end of a CALIBRATE leave (R288). -/
def Chip.sendWaiting (c : Chip) (t : Nat) : Chip :=
  let mine := fun (e : RemoteReq) => e.waits && decide (e.link = t)
  { c with remotes := c.remotes.map fun (e : RemoteReq) => if mine e then { e with waits := false } else e }.flitsOut t (c.remotes.filter mine).length

/-- A peer answers the oldest request on its way to it: it has applied a write or refused it, it returns what was read or refuses. -/
def Chip.remoteAnswer (c : Chip) (dev cause : Nat) (data : Word) : Chip :=
  match c.remotes.find? fun (e : RemoteReq) => decide (e.dev = dev) && !e.waits with
  | none => c
  | some e =>
    let c := { c with remotes := c.remotes.erase e }
    if e.orphan then c else
    let c := if cause % 16 ≠ 0 then c.remoteFail e.req e.write e.dev e.addr e.data e.wseq (cause % 16)
      else if e.write then c
      else if e.req = .qspi then (if (c.qsRead.bind fun (q : QsRead) => q.sent) = some e then c.qsPush data else c)
      else c.emit (.readData e.req (remoteAddr e.dev e.addr) data)
    (if e.write then c.decided e.req else c).qsSettle

/-- The oldest request to a peer has not been confirmed within 100 µs (R291). -/
def Chip.peerTimeout (c : Chip) (dev : Nat) : Chip :=
  match c.remotes.find? fun (e : RemoteReq) => decide (e.dev = dev) with
  | some e => if e.at' + usCycles 100 ≤ c.cycles then c.failRemotes (fun x => decide (x = e)) pePEER_TIMEOUT else c
  | none => c

/-! ## Link states (R288) -/

/-- A link stops carrying frames (R63, R104, R291), from UP with LINK_DOWN (R288). No credit is given back on it any more. -/
def Chip.tenonLost (c : Chip) (t : Nat) (partnerReset : Bool) : Chip :=
  let p := pTENON t
  let peer := c.get p F.TENON_TL_STATUS_PEER_RING_ID
  let c := if c.tlState t = tlUP then
      let c := (c.count p K.TENON_LINK_DOWN).raise p E.TENON_LINK_DOWN
      (c.count (pPORT (28 + t)) K.PORT_LINK_DOWN).raise (pPORT (28 + t)) E.PORT_LINK_DOWN
    else c
  let c := (c.flushPort (28 + t)).rxAbandon (28 + t)
  let c := { c with tOwed := c.tOwed.filter fun (o : CreditOwed) => decide (o.port ≠ 28 + t) }
  let c := if partnerReset then c.failRemotes (fun e => decide (e.dev = peer)) pePEER_RESET else c
  c.failRemotes (fun e => decide (e.link = t)) pePEER_DOWN

/-- The link leaves its state for OFF or TRAIN. -/
def Chip.tenonDown (c : Chip) (t st : Nat) (partnerReset : Bool) : Chip :=
  let c := if c.tenonUp t then c.tenonLost t partnerReset else c
  let c := (c.setTenon t {}).setReg (pTENON t) 0x148 (BitVec.ofNat 32 st)
  (c.showConflict).ringUpdate

/-- The modes in which an enabled link trains. -/
def Chip.tenonMode (c : Chip) : Bool := let m := c.mode; decide (m = modeRun ∨ m = modeLimp ∨ m = modeService ∨ m = modeQuarantine)

/-- The link follows `CTRL.EN` and the mode. -/
def Chip.tenonFollow (c : Chip) (t : Nat) : Chip :=
  let st := c.tlState t
  if ¬ c.enabled (pTENON t) ∨ c.mode = modeSentry ∨ c.mode = modeDormant then (if st = tlOFF then c else c.tenonDown t tlOFF false)
  else if st = tlOFF ∧ c.tenonMode then c.tenonDown t tlTRAIN false
  else c

/-- All lanes are locked and the ring IDs are exchanged. After an ID conflict nothing happens before the retry. -/
def Chip.tenonTrained (c : Chip) (t peer : Nat) (reversed : Bool) : Chip :=
  let p := pTENON t
  if ¬ (t < 2 ∧ c.tlState t = tlTRAIN) ∨ (c.tenon t).conflict.isSome then c
  else
    let c := (c.put p F.TENON_TL_STATUS_LANES 15).put p F.TENON_TL_STATUS_LANE_REVERSED reversed.toNat
    let c := (c.put p F.TENON_TL_STATUS_PEER_RING_ID peer).put p F.TENON_TL_STATUS_PEER_VALID 1
    if peer % 4 = c.ringId then
      (((c.setTenon t { c.tenon t with conflict := some c.cycles }).showConflict).count pTRING K.TRING_ID_CONFLICT).raise pTRING E.TRING_ID_CONFLICT
    else (c.tlTo t tlCALIBRATE).setTenon t { c.tenon t with remeasure := false }

/-- 100 ms after an ID conflict training is tried again. -/
def Chip.tenonRetry (c : Chip) (t : Nat) : Chip :=
  match (c.tenon t).conflict with
  | some at' => if t < 2 ∧ at' + msCycles 100 ≤ c.cycles then (c.setTenon t { c.tenon t with conflict := none }).showConflict else c
  | none => c

/-- The one-way latency that 16 calibration flits show, each with its round trip and the turnaround that the partner reports, in ps (R292):
half of what remains, averaged and rounded down. -/
def latencyOf (flits : List (Nat × Nat)) : Nat := ((flits.take 16).map fun (f : Nat × Nat) => f.1 - f.2).sum / 32

/-- The latency is measured (R292): with the 16th calibration flit that has returned; LAT_ASYM is added. The ring IDs that the partner
reaches come with it (log entry 49). The device has returned as many of the partner's. -/
def Chip.tenonCalibrated (c : Chip) (t : Nat) (flits : List (Nat × Nat)) (reach : Nat) : Chip :=
  let p := pTENON t
  if ¬ (t < 2 ∧ c.tlState t = tlCALIBRATE) ∨ flits.length < 16 then c
  else
    let lat := latencyOf flits
    let c := (c.addCnt p K.TENON_FLITS_TX 32).addCnt p K.TENON_FLITS_RX 32
    let again := (c.tenon t).remeasure
    let ps : Int := (lat : Int) + signedOf (c.get p F.TENON_LAT_ASYM_PS) 16
    let c := (c.put p F.TENON_LINK_LAT_PS (unsignedOf (max 0 ps) 20)).tlTo t tlUP
    let reach := if again then (c.tenon t).reach else reach ||| 2 ^ c.get p F.TENON_TL_STATUS_PEER_RING_ID
    let c := (c.setTenon t { c.tenon t with remeasure := false, reach := reach, lat := lat }).raise p E.TENON_LINK_UP
    let c := if again then c else c.raise (pPORT (28 + t)) E.PORT_LINK_UP
    (c.sendWaiting t).ringUpdate

def Chip.tenonRetrain (c : Chip) (t : Nat) : Chip := if t < 2 ∧ c.tlState t = tlUP then c.tenonDown t tlTRAIN false else c

def Chip.tenonRemeasure (c : Chip) (t : Nat) : Chip :=
  if t < 2 ∧ c.tlState t = tlUP then (c.tlTo t tlCALIBRATE).setTenon t { c.tenon t with remeasure := true } else c

/-- Lane lock is lost, or the partner resets; a lane that loses lock takes a calibrating link down too (R285). -/
def Chip.tenonLaneLoss (c : Chip) (t : Nat) (partnerReset : Bool) : Chip :=
  if t < 2 ∧ (c.tlState t = tlUP ∨ c.tlState t = tlCALIBRATE) then c.tenonDown t tlTRAIN partnerReset else c

/-! ## Flits (R287) and credit (R293) -/

/-- A flit arrives (R287). Each but an acknowledgement is answered by one, which is itself not acknowledged (DESIGN CHOICE, log entry 69).
A path that is lost fails the requests on it with PEER_DOWN, a device that was reset those to it with PEER_RESET (R291). -/
def Chip.flitRx (c : Chip) (t : Nat) (f : Flit) : Chip :=
  let p := pTENON t
  if ¬ (t < 2 ∧ (c.tlState t = tlUP ∨ c.tlState t = tlCALIBRATE)) then c
  else
    let c := c.count p K.TENON_FLITS_RX
    let x := c.tenon t
    let ack := fun (c : Chip) => c.count p K.TENON_FLITS_TX
    match f with
    | .content => ack c
    | .bad => ack (c.count p K.TENON_CRC_ERR)
    | .ack n => c.setTenon t { x with tries := 0, unacked := x.unacked - n }
    | .replay good =>
      let left := x.unacked - good
      let c := (c.count p K.TENON_REPLAYS).setTenon t { x with tries := x.tries + 1, unacked := left }
      if c.get p F.TENON_TL_CFG_RETRY_LIMIT ≤ x.tries + 1 then
        ((c.count p K.TENON_RETRY_FAIL).raise p E.TENON_RETRY_FAIL).tenonDown t tlTRAIN false
      else c.addCnt p K.TENON_FLITS_TX left
    | .reach ids =>
      let reach := ids % 16 ||| 2 ^ c.get p F.TENON_TL_STATUS_PEER_RING_ID
      let c := (ack c).setTenon t { x with reach := reach }
      (c.failRemotes (fun e => decide (e.link = t) && !reach.testBit e.dev) pePEER_DOWN).ringUpdate
    | .peerReset dev => (ack c).failRemotes (fun e => decide (e.dev = dev % 4)) pePEER_RESET

def Chip.creditReturn (c : Chip) (t cls bytes : Nat) : Chip :=
  if t < 2 ∧ cls < 8 ∧ c.tenonUp t then
    let x := c.tenon t
    c.setTenon t { x with used := store 0 x.used cls (c.creditUsed t cls - bytes) }
  else c

/-- `CREDIT_STATUS.WAITING`. -/
def Chip.creditWaiting (c : Chip) (t : Nat) : Nat :=
  ((List.range 8).filter fun cls => c.heldClass cls && (match c.headOf (28 + t) cls with
    | some k => !c.creditLets (28 + t) k
    | none => false)).foldl (fun a cls => a + 2 ^ cls) 0

/-- `PORT28` and `PORT29` `LINK_STATUS.STATE` (R298). -/
def Chip.tenonPortState (c : Chip) (t : Nat) : Nat :=
  let st := c.tlState t
  if st = tlUP then lsUp else if st = tlOFF then lsOff else lsTrain

/-! ## Commit (R297, R300) -/

def Chip.validateTenon (c : Chip) (t : Nat) : Nat × Nat :=
  let p := pTENON t
  let asym := signedOf (c.staged p F.TENON_LAT_ASYM_PS) 16
  firstBad [
    (decide (c.staged p F.TENON_TL_CFG_RETRY_LIMIT = 0 ∨ 10 < c.staged p F.TENON_TL_CFG_TX_PRESET), rsnRange, 1),
    (decide (asym < -10000 ∨ 10000 < asym), rsnRange, 2)]

/-- An enabled bypass EtherType of MACSEC (R214). -/
def Chip.bypassEtypes (c : Chip) (group : List Nat) : List Nat :=
  (List.range 4).filterMap fun i =>
    if c.peer group pMACSEC { F.MACSEC_BYPASS_EN with off := 0x140 + 4 * i } = 1 then
      some (c.peer group pMACSEC { F.MACSEC_BYPASS_ETYPE with off := 0x140 + 4 * i }) else none

def Chip.validateTring (c : Chip) (group : List Nat) : Nat × Nat :=
  let n := c.staged pTRING F.TRING_RING_CFG_SIZE
  let link := c.staged pTRING F.TRING_RING_CFG_TIME_LINK
  let et := c.staged pTRING F.TRING_EHRUZ_CFG_ETYPE
  let protects := (List.range 22).any fun y => decide (c.tpeer group pMACSEC 0 y fSyProtect = 1)
  firstBad [
    (decide (n = 0 ∨ 4 < n ∨ n ≤ c.ringId), rsnRange, 1),
    (decide (link = 3 ∨ (link ≠ 0 ∧ c.ringId = 0)), rsnRange, 2),
    (decide (et < 0x0600) || [0x0800, 0x86DD, 0x888E, 0x88F7, 0x22F0, 0xF1C1].contains et, rsnInvalid, 3),
    (decide (c.staged pTRING F.TRING_EHRUZ_CFG_EN = 1 ∧ c.staged pTRING F.TRING_DOMAIN_CFG_ID_VALID = 0), rsnInvalid, 4),
    ((c.bypassEtypes group).contains et && protects, rsnInvalid, 5)]

/-- After a commit of TRING: a new device ID ends a conflict (R296), the ring is seen with the new size. -/
def Chip.appliedTring (c old : Chip) : Chip :=
  let c := if c.get pTRING F.TRING_DOMAIN_CFG_DEVICE_ID = old.get pTRING F.TRING_DOMAIN_CFG_DEVICE_ID then c else { c with ehruzConflict := none }
  c.showConflict.ringUpdate

/-- A soft reset of a TENON page: CTRL.EN reads 0, the link goes to OFF. -/
def Chip.softResetTenon (c : Chip) (t : Nat) : Chip := c.tenonFollow t

/-! ## Meanings -/

/-- FLIT_RX (R287). -/
def execFlitRx (dt link : Nat) (flit : Flit) (s : State) : Host.Outcome State Fault Refusal := .next (s.run dt fun c => c.flitRx link flit)

/-- TENON_TRAINED (R288): the partner's ring ID, and whether lanes were reversed. -/
def execTenonTrained (dt link peer : Nat) (reversed : Bool) (s : State) : Host.Outcome State Fault Refusal :=
  .next (s.run dt fun c => c.tenonTrained link peer reversed)

/-- TENON_ID_RETRY (R288). -/
def execTenonIdRetry (dt link : Nat) (s : State) : Host.Outcome State Fault Refusal := .next (s.run dt fun c => c.tenonRetry link)

/-- TENON_CALIBRATED (R292). -/
def execTenonCalibrated (dt link : Nat) (flits : List (Nat × Nat)) (reach : Nat) (s : State) : Host.Outcome State Fault Refusal :=
  .next (s.run dt fun c => c.tenonCalibrated link flits reach)

/-- A write to TL_CMD. -/
def Chip.tlCmd (c : Chip) (req : Requester) (t v : Nat) (f : Chip → Chip) : Chip := c.command req (pTENON t) 0x150 (BitVec.ofNat 32 v) f

/-- RETRAIN (R288). -/
def execRetrain (dt : Nat) (req : Requester) (link : Nat) (s : State) : Host.Outcome State Fault Refusal :=
  .next (s.run dt fun c => c.tlCmd req link 1 fun c => c.tenonRetrain link)

/-- REMEASURE (R288). -/
def execRemeasure (dt : Nat) (req : Requester) (link : Nat) (s : State) : Host.Outcome State Fault Refusal :=
  .next (s.run dt fun c => c.tlCmd req link 2 fun c => c.tenonRemeasure link)

/-- TENON_LANE_LOSS (R288). -/
def execTenonLaneLoss (dt link : Nat) (partnerReset : Bool) (s : State) : Host.Outcome State Fault Refusal :=
  .next (s.run dt fun c => c.tenonLaneLoss link partnerReset)

/-- PEER_TIMEOUT (R291). -/
def execPeerTimeout (dt dev : Nat) (s : State) : Host.Outcome State Fault Refusal := .next (s.run dt fun c => c.peerTimeout dev)

/-- CREDIT_RETURN (R293). -/
def execCreditReturn (dt link cls bytes : Nat) (s : State) : Host.Outcome State Fault Refusal :=
  .next (s.run dt fun c => c.creditReturn link cls bytes)

end Sys2Proof.Machine
end

