-- ==== Sys2Proof/Machine/Resets.lean ====
section
/-! DEFINITION. Device resets (R317, R320, R331), the watchdog (R319), flushes of crossings (R322). -/
namespace Sys2Proof.Machine

open Sys2Proof

/-- Registers that every device reset but power-on keeps: the AON page apart from its header, the reset causes, the straps. -/
def keptReg (k : Nat) : Bool :=
  decide (pageBase pAON + 0x140 ≤ k ∧ k < pageBase pAON + 0x1000) || decide (k = regKey pRST 0x140) || decide (k = regKey pSYS 0x144)

/-- What RING_ID of the straps changes at reset (R134, R299). -/
def Chip.applyStraps (c : Chip) : Chip :=
  let id := c.ringId
  if id = 0 then c
  else
    let c := (c.setReg pTIME 0x140 0x00640006).setReg pTIME 0x940 0x00640006
    c.put pTRING F.TRING_RING_STATUS_PRESENT (2 ^ id)

/-- The core as it leaves a reset or a loss of its power, with what the AON domain keeps (R317, R331). -/
def Chip.freshCore (c : Chip) : Chip :=
  let f := fun x => c.get pCLK x
  let d : Chip := { cycles := c.cycles, rstAt := c.cycles, tm := { monoAt := c.cycles }, free := c.free, outs := c.outs, regs := keepKeys keptReg c.regs, warm := c.warm, aon := c.aon
                    testHold := c.testHold
                    spillAt := c.cycles, tAnchor := c.cycles, ageAt := c.cycles, wear := { at' := c.cycles, senseAt := c.cycles, lifeAt := c.cycles } }
  let d := ((d.put pCLK F.CLK_XTAL_CFG_XSD (f F.CLK_XTAL_CFG_XSD)).put pCLK F.CLK_XTAL_CFG_XIN_MODE (f F.CLK_XTAL_CFG_XIN_MODE))
  let d := (d.put pCLK F.CLK_HFRC_STATUS_TRIM (f F.CLK_HFRC_STATUS_TRIM)).put pCLK F.CLK_HFRC_STATUS_TRIM_TEMP (f F.CLK_HFRC_STATUS_TRIM_TEMP)
  (d.put pCLK F.CLK_HFRC_STATUS_TRIMMED (f F.CLK_HFRC_STATUS_TRIMMED)).applyStraps

/-- The bits of RST_CAUSE. -/
abbrev rcPOR : Nat := 0
abbrev rcPIN : Nat := 1
abbrev rcCORE_BOR : Nat := 2
abbrev rcSW : Nat := 3
abbrev rcWDT : Nat := 4
abbrev rcCLOCK : Nat := 5

/-- The crystal starts anew: it is checked after the start delay (R302), in reset or not. -/
def Chip.startXtal (c : Chip) (por hold : Bool) : Chip :=
  let c := (c.put pCLK F.CLK_XTAL_STATUS_RUNNING 0).put pCLK F.CLK_PLL_STATUS_POWERED 0
  { c with clk := { c.clk with xtalStart := some (c.cycles, 0, por), xsd := c.get pCLK F.CLK_XTAL_CFG_XSD, hold := hold } }

/-- The crystal runs on through the reset; the PLLs are powered from it. -/
def Chip.keepXtal (c : Chip) : Chip :=
  let c := ((c.put pCLK F.CLK_XTAL_STATUS_RUNNING 1).put pCLK F.CLK_XTAL_STATUS_AMP_OK 1).put pCLK F.CLK_PLL_STATUS_POWERED 255
  { c with clk := { c.clk with xtalStart := none, hold := false } }

/-- The crystal has failed and stays so through the reset: SCLK, TCLK, HCLK and GCLK run on HFRC (R315), and the boot follows. -/
def Chip.keepFailed (c : Chip) : Chip :=
  let c := [F.CLK_CLK_SEL_SCLK_HFRC, F.CLK_CLK_SEL_TCLK_HFRC, F.CLK_CLK_SEL_HCLK_HFRC, F.CLK_CLK_SEL_GCLK_HFRC].foldl (fun (c : Chip) f => c.put pCLK f 1) c
  { c.put pCLK F.CLK_XTAL_STATUS_FAILED 1 with clk := { c.clk with xtalStart := none, hold := false } }

/-- The start of the crystal that a power-on reset began goes on through a later reset, with its check (R303). -/
def Chip.atPowerOn (c : Chip) : Bool := match c.clk.xtalStart with | some (_, _, por) => por | none => false

/-- The crystal at a device reset (R317): a core brown-out and a loss of SCLK start it anew; the other resets leave it as it is, running,
failed or in a start with its delay. One that SENTRY had stopped starts (DEDUCED, log entry 136). -/
def Chip.resetXtal (d : Chip) (was : Chip) (cause : Nat) : Chip :=
  if cause = rcCORE_BOR ∨ cause = rcCLOCK then d.startXtal was.atPowerOn true
  else match was.clk.xtalStart with
    | some x => { d with clk := { d.clk with xtalStart := some x, xsd := was.clk.xsd, hold := true } }
    | none =>
      if was.is pCLK F.CLK_XTAL_STATUS_RUNNING then d.keepXtal
      else if was.is pCLK F.CLK_XTAL_STATUS_FAILED then d.keepFailed
      else d.startXtal false true

/-- A device reset other than power-on (R317). The root of Prisil stays where the core keeps its power (R382). A ring peer raises
PEER_RESET for the ring head's record (R291). -/
def Chip.deviceReset (c : Chip) (cause : Nat) : Chip :=
  let d : Chip := c.freshCore
  let root : Option (List Byte) := if cause = rcCORE_BOR then none else c.root
  let d : Chip := { d with root := root, aon := { d.aon with wakeTo := none, restore := false, waking := none, failedAt := none, retried := false } }
  let d := d.resetXtal c cause
  let d := d.setReg pRST 0x140 (d.reg pRST 0x140 ||| BitVec.ofNat 32 (2 ^ cause))
  let d := d.put pRST F.RST_RST_CAUSE_RESETS (d.get pRST F.RST_RST_CAUSE_RESETS + 1)
  if d.ringId = 0 then d else d.raise pTRING E.TRING_PEER_RESET

/-- Power-on reset (R317): everything; the straps are sampled, XSD and XIN_MODE come from OTP word 0 (R301, R302). TEST_EN high
holds the device in reset, with no mode entered (R428). -/
def Chip.powerOn (c : Chip) (bootMode ringId : Nat) (testEn : Bool) (otp0 : Word) : Chip :=
  let d : Chip := { cycles := c.cycles, rstAt := c.cycles, tm := { monoAt := c.cycles }, free := c.free, outs := c.outs, spillAt := c.cycles, tAnchor := c.cycles, ageAt := c.cycles
                    wear := { at' := c.cycles, senseAt := c.cycles, lifeAt := c.cycles }
                    clk := { xtalStart := some (c.cycles, 0, true) }, testHold := testEn, aon := { rtcAt := c.cycles } }
  let d := (d.put pSYS F.SYS_STRAPS_BOOT_MODE bootMode).put pSYS F.SYS_STRAPS_RING_ID ringId
  let n : Nat := if bitsAt otp0 4 1 = 1 then bitsAt otp0 0 4 else 7
  let d := { d.put pCLK F.CLK_XTAL_CFG_XSD n with clk := { d.clk with xsd := n } }
  (d.put pCLK F.CLK_XTAL_CFG_XIN_MODE (bitsAt otp0 5 1)).applyStraps

/-- An OTP word. -/
def Ext.otpWord (x : Ext) (i : Nat) : Word := lookupD 0 x.otp i

/-! ## The watchdog (R319) -/

/-- TIMEOUT in cycles. -/
def Chip.wdtTimeout (c : Chip) : Nat := msCycles (max 10 (c.get pRST F.RST_WDT_CFG_TIMEOUT))
def Chip.wdtOn (c : Chip) : Bool := c.is pRST F.RST_WDT_CFG_EN && !c.dormant

/-- A write of WDT_CFG: once EN is 1, it stays. -/
def Chip.writeWdt (c : Chip) (req : Requester) (v : Word) : Chip × Nat :=
  let was : Bool := c.is pRST F.RST_WDT_CFG_EN
  match c.writePlain req pRST 0x150 v with
  | (c, 0) =>
    let c := if was then c.put pRST F.RST_WDT_CFG_EN 1 else c
    (if ¬ was ∧ c.is pRST F.RST_WDT_CFG_EN then { c with wdt := { c.wdt with at' := c.cycles, warned := false } } else c, 0)
  | x => x

/-- A write of WDT_KICK. -/
def Chip.wdtKick (c : Chip) (v : Nat) : Chip :=
  let next := c.get pRST F.RST_WDT_STATUS_NEXT
  if v % 65536 = (if next = 0 then 0x5A5A else 0xA5A5) then
    { c.put pRST F.RST_WDT_STATUS_NEXT (1 - next) with wdt := { c.wdt with at' := c.cycles, warned := false } }
  else c.count pRST K.RST_WDT_BAD_KICK

/-- 75 % of TIMEOUT. -/
def Chip.wdtWarn (c : Chip) : Chip :=
  if c.wdtOn ∧ ¬ c.wdt.warned ∧ c.wdt.at' + c.wdtTimeout * 3 / 4 ≤ c.cycles then
    { c with wdt := { c.wdt with warned := true } }.raise pRST E.RST_WDT_WARN
  else c

def Chip.wdtReset (c : Chip) : Chip := if c.wdtOn ∧ c.wdt.at' + c.wdtTimeout ≤ c.cycles then c.deviceReset rcWDT else c

/-- `WDT_STATUS.MS`: what remains, 0 while the watchdog is off. -/
def Chip.wdtMs (c : Chip) : Nat := if c.wdtOn then (c.wdt.at' + c.wdtTimeout - c.cycles) / 500000 else 0

/-! ## Meanings -/

/-- POWER_ON_RESET (R317, R428): with the straps and TEST_EN on the pins. -/
def execPowerOnReset (dt : Nat) (pins : PorPins) (ringId : Nat) (s : State) : Host.Outcome State Fault Refusal :=
  .next (s.run dt fun c => c.powerOn pins.bootMode ringId pins.testEn (s.ext.otpWord 0))

/-- PIN_RESET (R317): RST_N was low for `ns`. A pulse of 100 ns to 1 µs may or may not reset: a free value decides. -/
def execPinReset (dt ns : Nat) (s : State) : Host.Outcome State Fault Refusal :=
  .next (s.run dt fun c =>
    if 1000 ≤ ns then c.deviceReset rcPIN
    else if ns < 100 then c
    else let (v, c) := c.takeFree; if v % 2 = 1 then c.deviceReset rcPIN else c)

/-- CORE_BOR (R317, R434). In DORMANT the core has no power to lose. -/
def execCoreBor (dt : Nat) (s : State) : Host.Outcome State Fault Refusal := .next (s.run dt fun c => if c.dormant then c else c.deviceReset rcCORE_BOR)

/-- DEV_RST (R317): a wrong key is ignored. -/
def execDevRst (dt : Nat) (req : Requester) (key : Nat) (s : State) : Host.Outcome State Fault Refusal :=
  .next (s.run dt fun c => c.command req pRST 0x144 (BitVec.ofNat 32 key) fun c => if key % 65536 = 0x9648 then c.deviceReset rcSW else c)

/-- WDT_KICK (R319). -/
def execWdtKick (dt : Nat) (req : Requester) (value : Nat) (s : State) : Host.Outcome State Fault Refusal :=
  .next (s.run dt fun c => c.command req pRST 0x154 (BitVec.ofNat 32 value) fun c => c.wdtKick value)

/-- WDT_WARN (R319). -/
def execWdtWarn (dt : Nat) (s : State) : Host.Outcome State Fault Refusal := .next (s.run dt Chip.wdtWarn)

/-- WATCHDOG_RESET (R319). -/
def execWatchdogReset (dt : Nat) (s : State) : Host.Outcome State Fault Refusal := .next (s.run dt Chip.wdtReset)

end Sys2Proof.Machine
end

