-- ==== Sys2Proof/Machine/Clocks.lean ====
section
/-! DEFINITION. Oscillators, PLLs and clock domains (R301 to R316, R323). -/
namespace Sys2Proof.Machine

open Sys2Proof

/-- PLLs in the order of PLL_STATUS. -/
abbrev pllC : Nat := 0
abbrev pllS : Nat := 1
abbrev pllG : Nat := 2
abbrev pllP0 : Nat := 3
abbrev pllP1 : Nat := 4
abbrev pllP2 : Nat := 5
abbrev pllD : Nat := 6
abbrev pllT : Nat := 7

def Chip.setClk (c : Chip) (x : ClkRt) : Chip := { c with clk := x }

def Chip.pllLocked (c : Chip) (k : Nat) : Bool := (c.get pCLK F.CLK_PLL_STATUS_LOCKED).testBit k
def Chip.setLocked (c : Chip) (k : Nat) (on : Bool) : Chip :=
  let w := c.get pCLK F.CLK_PLL_STATUS_LOCKED
  c.put pCLK F.CLK_PLL_STATUS_LOCKED (if on then setBit w k else clearBit w k)
def Chip.setFreqOk (c : Chip) (k : Nat) (on : Bool) : Chip :=
  let w := c.get pCLK F.CLK_PLL_STATUS_FREQ_OK
  c.put pCLK F.CLK_PLL_STATUS_FREQ_OK (if on then setBit w k else clearBit w k)

def Chip.xtalRuns (c : Chip) : Bool := c.is pCLK F.CLK_XTAL_STATUS_RUNNING
def Chip.hfrcFailed (c : Chip) : Bool := c.is pCLK F.CLK_HFRC_STATUS_FAILED
def Chip.trimmed (c : Chip) : Bool := c.is pCLK F.CLK_HFRC_STATUS_TRIMMED
def Chip.dieTemp (c : Chip) : Int := signedOf (c.get pPWR F.PWR_DIE_TEMP_C) 8

/-! ## Switches (R311 to R313) -/

/-- One domain on HFRC or back on its PLL: a switch where that changes it. -/
def Chip.switchTo (c : Chip) (f : Fld) (hfrc : Bool) : Chip :=
  if c.get pCLK f = hfrc.toNat then c else (c.put pCLK f hfrc.toNat).count pCLK K.CLK_SWITCHES

/-- SCLK, TCLK and HCLK. -/
def Chip.switchCore (c : Chip) (hfrc : Bool) : Chip :=
  let c := ((c.switchTo F.CLK_CLK_SEL_SCLK_HFRC hfrc).switchTo F.CLK_CLK_SEL_TCLK_HFRC hfrc).switchTo F.CLK_CLK_SEL_HCLK_HFRC hfrc
  if c.timeHfrc = hfrc then c else c.timeOnHfrc hfrc

/-- GCLK on untrimmed HFRC is out of tolerance: the legacy channels act as on its loss; on trimmed HFRC they run (R305). -/
def Chip.gclkCheck (c : Chip) : Chip :=
  if c.is pCLK F.CLK_CLK_SEL_GCLK_HFRC then (if c.trimmed then c.gclkBack else c.gclkLoss) else c

/-- A GCLK switch that waits is cancelled (R313). -/
def Chip.gclkCancel (c : Chip) : Chip := (c.put pCLK F.CLK_CLK_SEL_GCLK_WAIT 0).setClk { c.clk with gwait := none }

/-- A GCLK switch begins to wait for idle channels. One towards the source that GCLK has cancels what waits; a planned switch is
absorbed into that of a crystal failure, which waits from the failure on (R312, R313). None goes to an HFRC that has failed (R310). -/
def Chip.gclkWant (c : Chip) (hfrc failure : Bool) : Chip :=
  if c.is pCLK F.CLK_CLK_SEL_GCLK_HFRC = hfrc ∨ (hfrc ∧ c.hfrcFailed) then (if c.clk.gwait.isSome then c.gclkCancel else c)
  else
    let since : Nat := match c.clk.gwait with | some (t, _, f) => (if f = failure then t else c.cycles) | none => c.cycles
    (c.put pCLK F.CLK_CLK_SEL_GCLK_WAIT 1).setClk { c.clk with gwait := some (since, hfrc, failure) }

/-- PLL_G is powered off in SENTRY once GCLK has left it (R329). -/
def Chip.pllGOff (c : Chip) : Chip :=
  let off := fun (c : Chip) (f : Fld) => c.put pCLK f (clearBit (c.get pCLK f) pllG)
  off (off (off c F.CLK_PLL_STATUS_POWERED) F.CLK_PLL_STATUS_LOCKED) F.CLK_PLL_STATUS_FREQ_OK

/-- The waiting GCLK switch is made. -/
def Chip.gclkMake (c : Chip) : Chip :=
  match c.clk.gwait with
  | some (_, hfrc, _) =>
    let c := (c.gclkCancel.switchTo F.CLK_CLK_SEL_GCLK_HFRC hfrc).gclkCheck
    if hfrc ∧ c.mode = modeSentry then c.pllGOff else c
  | none => c

/-- No LIN frame slot runs and no UART channel sends or receives (R312). A CAN frame is one command, so between two commands every CAN bus
is idle as far as the state shows; that each of them is indeed at bus idle is what the event GCLK_SWITCH says (log entry
134). -/
def Chip.gclkIdle (c : Chip) : Bool :=
  ((List.range 8).all fun n => decide ((c.linRt n).slotEnd ≤ c.cycles))
    && (List.range 4).all fun n => let x := c.uartRt n; decide (x.rx = [] ∧ x.txEnd ≤ c.cycles)

/-- The limit of a waiting GCLK switch in cycles. -/
def Chip.gclkLimit (c : Chip) (failure : Bool) : Nat :=
  let us := max 100 (c.get pCLK F.CLK_GCLK_SW_TMO_US)
  usCycles (if failure then min us 2000 else us)

/-- A CAN channel at the instant of a forced switch (R312): its bus is idle, or the frame in transmission ends in an error and is retried
(R231), or a frame being received is lost and counted as a receive error. Which of them, and the kind of the error, are free values
(log entry 134). -/
def Chip.abandonCan (c : Chip) (n : Nat) : Chip :=
  if c.canState n = caACTIVE ∨ c.canState n = caPASSIVE then
    let (v, c) := c.takeFree
    let e : CanError := if v / 3 % 4 = 0 then .bit else if v / 3 % 4 = 1 then .stuff else if v / 3 % 4 = 2 then .form else .crc
    if v % 3 = 0 then c
    else if v % 3 = 1 then
      match c.canPick n with
      | (c, some p) => c.canTxError n p e
      | (c, none) => c
    else c.canRxError n e (v.testBit 8)
  else c

/-- LIN slots and UART messages in progress are abandoned, CAN frames end as `abandonCan` says. -/
def Chip.abandonLegacy (c : Chip) : Chip :=
  let c := (List.range 16).foldl (fun (c : Chip) n => c.abandonCan n) c
  let c := (List.range 8).foldl (fun c n => let x := c.linRt n; if c.cycles < x.slotEnd then c.setLin n { x with slotEnd := c.cycles } else c) c
  (List.range 4).foldl (fun c n => let x := c.uartRt n; c.setUart n { x with rx := [], rxBad := false, txEnd := min x.txEnd c.cycles, deEnd := min x.deEnd c.cycles }) c

/-- The limit has come: the switch is made anyway. -/
def Chip.gclkForced (c : Chip) : Chip :=
  match c.clk.gwait with
  | some (t, _, failure) =>
    if t + c.gclkLimit failure ≤ c.cycles then
      ((c.abandonLegacy.gclkMake).count pCLK K.CLK_GCLK_SW_FORCED).raise pCLK E.CLK_GCLK_SW_FORCED
    else c
  | none => c

/-! ## PLLs (R308, R309, R314) -/

/-- The loss counter of a PLL. -/
def pllCounter (k : Nat) : Nat :=
  if k = pllC then K.CLK_PLL_C_LOSS else if k = pllS then K.CLK_PLL_S_LOSS else if k = pllG then K.CLK_PLL_G_LOSS
  else if k = pllD then K.CLK_PLL_D_LOSS else if k = pllT then K.CLK_PLL_T_LOSS else K.CLK_PLL_P_LOSS

/-- The ports that a PHY PLL clocks. -/
def pllPorts (k : Nat) : List Nat :=
  if k = pllP0 then [0, 1] ++ (List.range 12).map (· + 8) else if k = pllP1 then [2, 3] else if k = pllP2 then [4, 5]
  else if k = pllT then [6, 7] else []

/-- Every spilled frame is lost with its number (R314). -/
def Chip.spillLost (c : Chip) : Chip :=
  let c := c.put pSPILL F.SPILL_SPILL_STATUS_TRAINED 0
  let c := c.setReg pSPILL F.SPILL_SPILL_CAP_CELLS.off 0
  c.queues.foldl (fun c (e : Nat × Queue) =>
    match e.2.items.filter fun (k : Copy) => k.spilled && !k.back with
    | [] => c
    | ks =>
      let x := c.queue e.1
      let c := c.setQueue e.1 { x with items := x.items.filter fun (k : Copy) => !(k.spilled && !k.back) }
      ks.foldl (fun c k => (c.count pSPILL K.SPILL_SPILL_ECC_DROP).numberLost k) c) c

/-- No clock is left for SCLK (R310). -/
def Chip.noClock (c : Chip) : Chip := c.deviceReset rcCLOCK

/-- The effects of the loss of a PLL. On the loss of PLL_G a switch that waited for HFRC is made after the channels have entered CLK_SAFE,
one that waited for PLL_G is cancelled (R313). -/
def Chip.pllEffect (c : Chip) (k : Nat) : Chip :=
  if k = pllC then (c.xingFlush pFAB).fabricLoss
  else if k = pllS then
    if c.hfrcFailed then c.noClock else (c.switchCore true).pllSLost
  else if k = pllG then
    match c.clk.gwait with
    | some (_, true, _) => ((c.xingFlush pGW).gclkLoss).gclkMake
    | some _ => c.gclkCancel
    | none => if c.is pCLK F.CLK_CLK_SEL_GCLK_HFRC then c else (c.xingFlush pGW).gclkLoss
  else if k = pllD then { (c.xingFlush pSPILL).spillLost with spillTraining := false }
  else
    let c := (pllPorts k).foldl (fun c n => ((c.xingFlush (pPORT n)).rxAbandon n).pcsLockLoss n) c
    if k = pllT then (((c.xingFlush (pTENON 0)).xingFlush (pTENON 1)).tenonLaneLoss 0 false).tenonLaneLoss 1 false else c

/-- A PLL is lost: it is unlocked, counted, its effects follow. -/
def Chip.pllLost (c : Chip) (k : Nat) : Chip :=
  if k < 8 ∧ c.pllLocked k then
    let c := ((c.setLocked k false).setFreqOk k false).setClk { c.clk with lost := setBit c.clk.lost k }
    ((c.count pCLK (pllCounter k)).raise pCLK E.CLK_PLL_LOSS).pllEffect k
  else c

/-- The frequency monitors act (R309). -/
def Chip.monitors (c : Chip) : Bool := c.trimmed && !c.hfrcFailed

def Chip.freqWindow (c : Chip) (k : Nat) (ok : Bool) : Chip :=
  if k < 8 ∧ c.monitors ∧ c.pllLocked k then (if ok then c.setFreqOk k true else c.pllLost k) else c

/-- A PLL locks, at a start or after a loss: its domains return by planned switches. -/
def Chip.pllRelock (c : Chip) (k : Nat) : Chip :=
  if k < 8 ∧ c.xtalRuns ∧ (c.get pCLK F.CLK_PLL_STATUS_POWERED).testBit k ∧ ¬ c.pllLocked k then
    let was : Bool := c.clk.lost.testBit k
    let c := ((c.setLocked k true).setFreqOk k true).setClk { c.clk with lost := clearBit c.clk.lost k }
    let c := if was then c.raise pCLK E.CLK_PLL_RELOCK else c
    if k = pllC then c.fabricRelock
    else if k = pllS then c.switchCore false
    else if k = pllG then c.gclkWant false false
    else if k = pllD then (if c.enabled pSPILL ∧ ¬ c.is pSPILL F.SPILL_SPILL_STATUS_TRAINED then { c with spillTraining := true } else c)
    else c
  else c

/-! ## The crystal (R302, R303, R310, R315, R316) -/

/-- XSD of the start in progress in cycles (R302). -/
def Chip.xsdCycles (c : Chip) : Nat := 62500 * 2 ^ min 9 c.clk.xsd

/-- An S port follows the crystal (R306): without it a coordinator or a port that runs CSMA/CD is powered off, a follower that has fallen
back to CSMA/CD with them. -/
def Chip.sPortFollow (c : Chip) (n : Nat) : Chip :=
  if c.follower n && decide (c.linkState n = lsUp) && !c.is (pPORT n) F.PORT_LINK_STATUS_PLCA_ACTIVE && !c.xtalRuns then c.linkTo n lsOff
  else c.portFollow n

def Chip.sPortsFollow (c : Chip) : Chip := (List.range 8).foldl (fun c k => c.sPortFollow (20 + k)) c

/-- Every PLL is powered; in SENTRY, and on a wake to it, none is (R308). -/
def Chip.powerPlls (c : Chip) : Chip :=
  if c.mode = modeSentry ∨ c.aon.wakeTo = some modeSentry then c else c.put pCLK F.CLK_PLL_STATUS_POWERED 255

/-- The records saved at a temperature more than 50 °C from that of the wake are discarded, of ports that the wake does not power too (R66). -/
def Chip.dropCold (c : Chip) (temp : Int) : Chip :=
  { c with warm := c.warm.filter fun (e : Nat × Option WarmRec) => match e.2 with | some w => decide ((w.temp - temp).natAbs ≤ 50) | none => false }

/-- After a wake from DORMANT the ports start with the settings that AON kept (R331, R335): those that their records let resume, at the
die temperature of the wake. A wake to SENTRY starts S ports alone. -/
def Chip.resumePorts (c : Chip) : Chip :=
  if ¬ c.aon.restore then c
  else
    let temp := c.dieTemp
    let sentry : Bool := decide (c.aon.wakeTo = some modeSentry)
    let c := { c with aon := { c.aon with restore := false } }
    (c.aon.portCfg.foldl (fun (c : Chip) (e : Nat × List Word) =>
      if sentry && !isS e.1 then c
      else
        let p := pPORT e.1
        let put := fun (c : Chip) (off k : Nat) => (c.setReg p off (e.2.getD k 0)).setReg p (off + 0x800) (e.2.getD k 0)
        let c := (put (put (put c 0x144 0) 0x148 1) 0x154 2).put p F.CTRL_EN (bitsAt (e.2.getD 3 0) 0 1)
        c.portWake e.1 temp) c).dropCold temp

/-- The clock domains go to HFRC, the PLLs unlock (R315); without HFRC nothing is left (R310). -/
def Chip.xtalEffect (c : Chip) : Chip :=
  if c.hfrcFailed then c.noClock
  else
    let c := [pllC, pllP0, pllP1, pllP2, pllD, pllT].foldl Chip.pllLost c
    let held := c.clk.lost ||| (c.get pCLK F.CLK_PLL_STATUS_LOCKED &&& 6)
    let c := ((c.setLocked pllS false).setLocked pllG false).setClk { c.clk with lost := held }
    let c := (c.switchCore true).pllSLost
    (c.gclkWant true true).sPortsFollow

/-- The crystal has failed (R315). -/
def Chip.xtalFailed (c : Chip) : Chip :=
  let c := (c.put pCLK F.CLK_XTAL_STATUS_RUNNING 0).put pCLK F.CLK_XTAL_STATUS_FAILED 1
  (((c.setClk { c.clk with xtalStart := none }).count pCLK K.CLK_XTAL_FAIL).raise pCLK E.CLK_XTAL_FAIL).xtalEffect

/-- The amplitude has been lost for 2 us. -/
def Chip.xtalLost (c : Chip) : Chip := if c.xtalRuns then (c.put pCLK F.CLK_XTAL_STATUS_AMP_OK 0).xtalFailed else c

/-- The check at the end of the start delay: the amplitude, and the deviation of the count in ppm (R303). -/
def Chip.xtalCheck (c : Chip) (amp : Bool) (ppm : Int) : Chip :=
  match c.clk.xtalStart with
  | none => c
  | some (since, fails, por) =>
    if c.cycles < since + c.xsdCycles then c
    else
      let ok := amp && decide (ppm.natAbs ≤ if c.trimmed then 10000 else 60000)
      let c := (c.put pCLK F.CLK_XTAL_STATUS_AMP_OK amp.toNat).put pCLK F.CLK_XTAL_STATUS_COUNT_OK (decide (ppm.natAbs ≤ 10000)).toNat
      if ok then
        let c := (c.put pCLK F.CLK_XTAL_STATUS_RUNNING 1).put pCLK F.CLK_XTAL_STATUS_FAILED 0
        let c := if c.clk.hold ∨ c.aon.wakeTo.isSome then c.bootStage 3 else c
        ((c.setClk { c.clk with xtalStart := none }).powerPlls.sPortsFollow).resumePorts
      else
        let c := c.count pCLK K.CLK_XTAL_START_RETRY
        if ¬ por ∧ 2 ≤ fails then c.xtalFailed else c.setClk { c.clk with xtalStart := some (c.cycles, fails + 1, por) }

/-- The Ethernet links train afresh after XTAL_BACK (R316). DEDUCED (log entry 135): a B or G port that searches for its
partner then uses no warm record. -/
def Chip.trainAfresh (c : Chip) : Chip :=
  (List.range 20).foldl (fun (c : Chip) n => if (isB n || isG n) && decide (c.linkState n = lsSearch ∨ c.linkState n = lsResume) then c.setWarm n none else c) c

/-- The crystal is powered: in SENTRY as SENTRY_XTAL says. -/
def Chip.xtalPowered (c : Chip) : Bool := decide (c.mode ≠ modeSentry) || c.is pCLK F.CLK_XTAL_CFG_SENTRY_XTAL

/-- A failed crystal has been good for 10 ms (R316). Its counts lay within the tolerance of R303, 6 % while HFRC is untrimmed: whether the
last of them lay within 1 % (COUNT_OK) is a free value then (log entry 135). -/
def Chip.xtalBack (c : Chip) : Chip :=
  if c.is pCLK F.CLK_XTAL_STATUS_FAILED && c.clk.xtalStart.isNone && c.xtalPowered then
    let c := (c.put pCLK F.CLK_XTAL_STATUS_FAILED 0).put pCLK F.CLK_XTAL_STATUS_RUNNING 1
    let c : Chip := if c.trimmed then c.put pCLK F.CLK_XTAL_STATUS_COUNT_OK 1
      else let (v, c) := c.takeFree; c.put pCLK F.CLK_XTAL_STATUS_COUNT_OK (v % 2)
    (((c.put pCLK F.CLK_XTAL_STATUS_AMP_OK 1).raise pCLK E.CLK_XTAL_BACK).powerPlls.sPortsFollow).trainAfresh
  else c

/-- Two counts of the crystal against HFRC out of tolerance (R309, R310): no switch to HFRC is made from now on, trimming stops. -/
def Chip.hfrcFail (c : Chip) : Chip :=
  if c.xtalRuns ∧ c.monitors then
    let c := c.put pCLK F.CLK_XTAL_STATUS_COUNT_OK 0
    let c : Chip := match c.clk.gwait with | some (_, true, _) => c.gclkCancel | _ => c
    (((c.setClk { c.clk with good := 0 }).put pCLK F.CLK_HFRC_STATUS_FAILED 1).count pCLK K.CLK_HFRC_FAIL).raise pCLK E.CLK_HFRC_FAIL
  else c

/-! ## Trims (R304, R305, R307) -/

/-- The first available reference: 1 crystal, 2 beacons, 3 LIN sync fields. -/
def Chip.trimRef (c : Chip) : Nat :=
  if c.xtalRuns ∧ ¬ c.is pCLK F.CLK_XTAL_STATUS_FAILED then 1
  else if c.is pCLK F.CLK_HFRC_CFG_T1S_REF_EN ∧ (List.range 8).any (fun k => c.follower (20 + k) && decide (c.linkState (20 + k) = lsUp)) then 2
  else if c.is pCLK F.CLK_HFRC_CFG_LIN_REF_EN ∧ (List.range 8).any (fun n => c.ready (pLIN n) && !c.linMaster n
      && c.is (pLIN n) F.LIN_LIN_CFG_AUTOBAUD && c.is (pLIN n) F.LIN_LIN_CFG_TRIM_REF) then 3
  else 0

/-- Without a reference the trim holds within 30 °C of its temperature (R305). -/
def Chip.trimHolds (c : Chip) : Chip :=
  let away := (c.dieTemp - signedOf (c.get pCLK F.CLK_HFRC_STATUS_TRIM_TEMP) 8).natAbs
  if c.trimmed ∧ (c.trimRef = 0 ∨ ¬ c.is pCLK F.CLK_HFRC_CFG_TRIM_AUTO) ∧ 30 < away then
    let c := (c.setClk { c.clk with good := 0 }).put pCLK F.CLK_HFRC_STATUS_TRIMMED 0
    ((c.count pCLK K.CLK_TRIM_LOST).raise pCLK E.CLK_TRIM_LOST).gclkCheck
  else c

/-- The trim code that a measured error of HFRC in ppm sets at once (R304): 10 bits in steps of 0.0125 %. DESIGN CHOICE (log entry 50): two's
complement, a higher code is a higher frequency. -/
def trimCode (old : Nat) (ppm : Int) : Nat :=
  let v := signedOf old 10 - ppm / 125
  unsignedOf (if v < -512 then -512 else if 511 < v then 511 else v) 10

/-- A measurement of HFRC against its reference: the error in ppm (R304). A beacon cycle with a collision or an undecoded frame is not
`usable` and changes nothing. -/
def Chip.hfrcTrim (c : Chip) (ppm : Int) (usable : Bool) : Chip :=
  let ref := c.trimRef
  let c := c.put pCLK F.CLK_HFRC_STATUS_REF (if c.is pCLK F.CLK_HFRC_CFG_TRIM_AUTO ∧ ¬ c.hfrcFailed then ref else 0)
  if ¬ c.is pCLK F.CLK_HFRC_CFG_TRIM_AUTO ∨ c.hfrcFailed then c.setClk { c.clk with good := 0 }
  else if ref = 0 then c.trimHolds
  else if ref = 2 ∧ ¬ usable then c
  else
    let good := if ppm.natAbs ≤ 1000 then c.clk.good + 1 else 0
    let c := (c.setClk { c.clk with good := good }).put pCLK F.CLK_HFRC_STATUS_TRIM (trimCode (c.get pCLK F.CLK_HFRC_STATUS_TRIM) ppm)
    let c := c.put pCLK F.CLK_HFRC_STATUS_TRIM_TEMP (unsignedOf c.dieTemp 8)
    if 2 ≤ good ∧ ¬ c.trimmed then (c.put pCLK F.CLK_HFRC_STATUS_TRIMMED 1).gclkCheck else c

/-- A write of HFRC_CFG: while TRIM_AUTO is 0 the code is TRIM_MANUAL. -/
def Chip.writeHfrcCfg (c : Chip) (req : Requester) (v : Word) : Chip × Nat :=
  match c.writePlain req pCLK 0x148 v with
  | (c, 0) =>
    (if c.is pCLK F.CLK_HFRC_CFG_TRIM_AUTO then c
     else ((c.setClk { c.clk with good := 0 }).put pCLK F.CLK_HFRC_STATUS_TRIM (c.get pCLK F.CLK_HFRC_CFG_TRIM_MANUAL)).put pCLK F.CLK_HFRC_STATUS_REF 0, 0)
  | x => x

def Chip.lfrcTrim (c : Chip) : Chip :=
  if c.xtalRuns ∧ ¬ c.is pCLK F.CLK_XTAL_CFG_XTAL32_EN then c.setClk { c.clk with lfrcTemp := some c.dieTemp } else c

/-! ## Meanings -/

/-- XTAL_START_CHECK (R303). -/
def execXtalStartCheck (dt : Nat) (amp : Bool) (ppm : Int) (s : State) : Host.Outcome State Fault Refusal :=
  .next (s.run dt fun c => c.xtalCheck amp ppm)

/-- HFRC_TRIM (R304). -/
def execHfrcTrim (dt : Nat) (ppm : Int) (usable : Bool) (s : State) : Host.Outcome State Fault Refusal := .next (s.run dt fun c => c.hfrcTrim ppm usable)

/-- LFRC_TRIM (R307). -/
def execLfrcTrim (dt : Nat) (s : State) : Host.Outcome State Fault Refusal := .next (s.run dt Chip.lfrcTrim)

/-- PLL_LOSS (R314). -/
def execPllLoss (dt pll : Nat) (s : State) : Host.Outcome State Fault Refusal := .next (s.run dt fun c => c.pllLost pll)

/-- FREQ_MONITOR_WINDOW (R309). -/
def execFreqMonitorWindow (dt pll : Nat) (ok : Bool) (s : State) : Host.Outcome State Fault Refusal := .next (s.run dt fun c => c.freqWindow pll ok)

/-- PLL_RELOCK (R314). -/
def execPllRelock (dt pll : Nat) (s : State) : Host.Outcome State Fault Refusal := .next (s.run dt fun c => c.pllRelock pll)

/-- XTAL_FAIL (R315). -/
def execXtalFail (dt : Nat) (s : State) : Host.Outcome State Fault Refusal := .next (s.run dt Chip.xtalLost)

/-- HFRC_FAIL (R310). -/
def execHfrcFail (dt : Nat) (s : State) : Host.Outcome State Fault Refusal := .next (s.run dt Chip.hfrcFail)

/-- GCLK_SWITCH (R312). -/
def execGclkSwitch (dt : Nat) (s : State) : Host.Outcome State Fault Refusal := .next (s.run dt fun c => if c.gclkIdle then c.gclkMake else c)

/-- GCLK_SW_FORCED (R312). -/
def execGclkSwForced (dt : Nat) (s : State) : Host.Outcome State Fault Refusal := .next (s.run dt Chip.gclkForced)

/-- XTAL_BACK (R316). -/
def execXtalBack (dt : Nat) (s : State) : Host.Outcome State Fault Refusal := .next (s.run dt Chip.xtalBack)

end Sys2Proof.Machine
end

