-- ==== Sys2Proof/Machine/Modes.lean ====
section
/-! DEFINITION. The operating modes (R325 to R329): commands, causes of LIMP and QUARANTINE, entries to SENTRY and DORMANT. -/
namespace Sys2Proof.Machine

open Sys2Proof

def Chip.setPwr (c : Chip) (x : PwrRt) : Chip := { c with pwr := x }
def Chip.setAon (c : Chip) (x : AonRt) : Chip := { c with aon := x }

/-! ## The cluster as the modes move it (R362, R363) -/

abbrev trOFF : Nat := 0
abbrev trSOLO : Nat := 1
abbrev trPAIR : Nat := 2
abbrev trTRIPLE : Nat := 3
abbrev trRESTART : Nat := 4
abbrev trHALTED : Nat := 5

def Chip.trMode (c : Chip) : Nat := c.get pTRESTLE F.TRESTLE_TR_STATUS_MODE
def Chip.setTr (c : Chip) (x : TrRt) : Chip := { c with tr := x }

/-- The trial image's clean run begins anew (R411). -/
def Chip.unclean (c : Chip) : Chip := { c with upd := { c.upd with cleanAt := c.cycles } }

/-- A change of the cluster's mode (R363). -/
def Chip.trTo (c : Chip) (m : Nat) : Chip :=
  if c.trMode = m then c else ((c.put pTRESTLE F.TRESTLE_TR_STATUS_MODE m).raise pTRESTLE E.TRESTLE_TR_MODE).unclean

/-! ## The update stage as splits and modes move it (R403, R406) -/

/-- `UPD_STATUS.STAGE`. -/
abbrev usEMPTY : Nat := 0
abbrev usSTAGED : Nat := 1
abbrev usVERIFYING : Nat := 2
abbrev usVERIFIED : Nat := 3
abbrev usREJECTED : Nat := 4
abbrev usARMED : Nat := 5
abbrev usPREPARING : Nat := 6
abbrev usREADY : Nat := 7

def Chip.stage (c : Chip) : Nat := c.get pUPD F.UPD_UPD_STATUS_STAGE
def Chip.setStage (c : Chip) (st : Nat) : Chip := c.put pUPD F.UPD_UPD_STATUS_STAGE st

/-- A preparation is lost: VERIFIED, ACT_FAIL. -/
def Chip.prepLost (c : Chip) : Chip :=
  if c.stage = usPREPARING ∨ c.stage = usREADY then (c.setStage usVERIFIED).raise pUPD E.UPD_ACT_FAIL else c

/-- `ACT_RESULT.RESULT`. -/
abbrev arDONE : Nat := 1
abbrev arNOTREADY : Nat := 2
abbrev arABANDONED : Nat := 3
abbrev arPAST : Nat := 4
abbrev arTIMEINVALID : Nat := 5
abbrev arTAG : Nat := 6
abbrev arMODE : Nat := 7
abbrev arSTAGE : Nat := 8

/-- A FW_ACTIVATE action has failed. -/
def Chip.actFailed (c : Chip) (r : Nat) : Chip :=
  ((c.put pUPD F.UPD_ACT_RESULT_RESULT r).count pUPD K.UPD_ACT_FAILED).raise pUPD E.UPD_ACT_FAIL

/-- An activation that had begun ends without the switch of banks: VERIFIED. -/
def Chip.actLost (c : Chip) (r : Nat) : Chip := ((c.put pUPD F.UPD_UPD_STATUS_STAGE usVERIFIED).actFailed r)

/-- An action that ends unexecuted is recorded (R406). -/
def Chip.actUnrun (c : Chip) (i r : Nat) : Chip :=
  if c.one i fOsKind = 4 then
    (c.put pUPD F.UPD_ACT_RESULT_RESULT r).put pUPD F.UPD_ACT_RESULT_METHOD (c.one i fOsTarget)
  else c

/-- `TR_CMD_STATUS.RESULT`. -/
abbrev tcOK : Nat := 0
abbrev tcKEY : Nat := 1
abbrev tcSTATE : Nat := 2
abbrev tcTIMEOUT : Nat := 3
abbrev tcABANDONED : Nat := 4
abbrev tcNOTREADY : Nat := 5
abbrev tcDIGEST : Nat := 6

def Chip.trResult (c : Chip) (r : Nat) : Chip :=
  (c.put pTRESTLE F.TRESTLE_TR_CMD_STATUS_RESULT r).put pTRESTLE F.TRESTLE_TR_CMD_STATUS_BUSY 0

/-- The split, rejoin or activation in progress ends with a result; what firmware's update handling loses by it. -/
def Chip.trEnd (c : Chip) (r : Nat) : Chip :=
  match c.tr.work with
  | some w =>
    let c := (c.setTr { c.tr with work := none, paused := false }).trResult r
    if r = tcOK then c else if w.kind = 3 then c.actLost (if r = tcNOTREADY then arNOTREADY else arABANDONED)
    else if w.kind = 1 ∧ w.byFw then c.prepLost else c
  | none => c

/-- SOLO, at the checkpoint boundary of an entry to SENTRY (R363). -/
def Chip.trSolo (c : Chip) : Chip :=
  if c.trMode = trTRIPLE ∨ c.trMode = trPAIR then
    let c := (((c.trEnd tcABANDONED).prepLost).put pTRESTLE F.TRESTLE_TR_STATUS_SPLIT 0).put pTRESTLE F.TRESTLE_TR_STATUS_RESYNC 0
    (c.setTr { c.tr with odd := none, violated := none, soloDue := false }).trTo trSOLO
  else c

/-- A transition towards RUN: TRIPLE, or PAIR while TRIPLE is not available. -/
def Chip.trUnsolo (c : Chip) : Chip :=
  let c := c.setTr { c.tr with soloDue := false }
  if c.trMode = trSOLO then c.trTo (if c.is pTRESTLE F.TRESTLE_TR_STATUS_TRIPLE_AVAIL then trTRIPLE else trPAIR) else c

/-! ## A change of mode (R326) -/

/-- Ports, channels and the gateway as the present mode powers them; a port that loses its power abandons its reception. `waking`
ports may resume (R67). -/
def Chip.followMode (c : Chip) (waking : Bool) : Chip :=
  let c := (List.range 28).foldl (fun (c : Chip) n =>
    if ¬ c.portPowered n then (c.rxAbandon n).portFollow n else if waking then c.portWake n c.dieTemp else c.portFollow n) c
  let c : Chip := if waking then c.dropCold c.dieTemp else c
  let c := (List.range 2).foldl (fun (c : Chip) t => c.tenonFollow t) c
  let c := (List.range 16).foldl (fun (c : Chip) n => c.canFollow n) c.forwardKept
  ((List.range 8).foldl (fun (c : Chip) n => c.linFollow n) c).gwModeEntry

/-- What the SENTRY bypass still holds is lost: its frames wait for no later mode (R32). -/
def Chip.dropBypass (c : Chip) : Chip := { c.addCnt pFDB K.FDB_BYPASS_DROP c.bypass.length with bypass := [] }

/-- A start of the crystal on leaving SENTRY (R302): where SENTRY_XTAL is 0, or where it stands still for another reason than a failure. -/
def Chip.xtalStarts (c : Chip) : Bool :=
  !c.xtalRuns && c.clk.xtalStart.isNone && (!c.is pCLK F.CLK_XTAL_CFG_SENTRY_XTAL || !c.is pCLK F.CLK_XTAL_STATUS_FAILED)

/-- The core powers up again after SENTRY (R335): the crystal where it stopped, else the PLLs at once. -/
def Chip.powerUp (c : Chip) : Chip :=
  let c := (c.dropBypass).gclkWant (c.is pCLK F.CLK_CLK_SEL_GCLK_HFRC) false
  (if c.xtalRuns then c.powerPlls else if c.xtalStarts then c.startXtal false false else c).trUnsolo

/-- Outside RUN and SERVICE no preparation goes on (R403): the spare leg rejoins. -/
def Chip.prepEnd (c : Chip) : Chip :=
  if c.stage = usPREPARING ∨ c.stage = usREADY then
    let c := (c.trEnd tcABANDONED).prepLost
    if c.trMode = trPAIR ∧ c.is pTRESTLE F.TRESTLE_TR_STATUS_SPLIT then c.setTr { c.tr with work := some ⟨2, c.cycles, none, true⟩ } else c
  else c

/-- A completed transition. What an overridden entry had latched to wake from it (R330) ends with it. FRER starts afresh on a return to RUN and stops for SENTRY (R184). -/
def Chip.modeTo (c : Chip) (m : Nat) : Chip :=
  let prev : Nat := c.mode
  let c := ((c.put pPWR F.PWR_MODE_STATUS_PREV prev).put pPWR F.PWR_MODE_STATUS_MODE m).put pPWR F.PWR_MODE_STATUS_BUSY 0
  let c : Chip := if m = modeSentry then c else (c.setPwr { c.pwr with filterDue := false }).put pAON F.AON_WAKE_PEND_S 0
  let c := (((c.setPwr { c.pwr with entry := none, heard := c.cycles, shortDue := false }).count pPWR K.PWR_MODE_CHANGES).raise pPWR E.PWR_MODE_CHANGE).unclean
  let c : Chip := if m = modeRun ∨ m = modeService then c else c.prepEnd
  let up : Bool := decide (prev = modeSentry ∧ m ≠ modeSentry)
  let c : Chip := if up then c.powerUp else c
  let c : Chip := if m = modeRun ∧ prev ≠ modeBoot then c.frerRestart else if m = modeSentry then c.frerStop else c
  c.followMode up

/-- A command or an idle entry in progress is overridden (R327). -/
def Chip.overrideEntry (c : Chip) : Chip :=
  match c.pwr.entry with
  | some e =>
    let c := (c.setPwr { c.pwr with entry := none }).put pPWR F.PWR_MODE_STATUS_BUSY 0
    if e.byCmd then c.put pPWR F.PWR_MODE_STATUS_RESULT 5 else c
  | none => c

/-- A mass emission begins, at this cycle where none was in progress (R163). -/
def Chip.massStart (c : Chip) : Chip :=
  let busy : Bool := c.is pCINCH F.CINCH_CINCH_STATUS_MASS_BUSY
  let c := c.massEmit
  if busy then c else c.setPwr { c.pwr with massAt := c.cycles }

/-! ## LIMP (R328) -/

abbrev lcCMD : Nat := 0
abbrev lcSCRIBE : Nat := 1
abbrev lcDOUBLE : Nat := 2
abbrev lcRETEST : Nat := 3
abbrev lcSETTINGS : Nat := 4
abbrev lcTHERMAL : Nat := 5

/-- LIMP is entered: from RUN or SERVICE the fallback configuration is to be read, unless it was applied at boot (R354). -/
def Chip.enterLimp (c : Chip) : Chip :=
  let fallback : Bool := decide (c.mode = modeRun ∨ c.mode = modeService) && !c.pwr.fallbackAtBoot
  let c := c.overrideEntry.modeTo modeLimp
  let c := c.setPwr { c.pwr with fallbackDue := c.pwr.fallbackDue || fallback }
  ((c.count pPWR K.PWR_LIMP_ENTRIES).raise pPWR E.PWR_LIMP).massStart

/-- A cause of LIMP is latched; in RUN and SERVICE it takes effect at once (R326). -/
def Chip.limpCause (c : Chip) (bit : Nat) : Chip :=
  let w := c.reg pPWR 0x150
  let c := c.setReg pPWR 0x150 (w ||| BitVec.ofNat 32 (2 ^ bit))
  if ¬ w.toNat.testBit bit ∧ (c.mode = modeRun ∨ c.mode = modeService) then c.enterLimp else c

/-- RUN, or LIMP when a cause is pending. -/
def Chip.towardsRun (c : Chip) : Chip := if c.reg pPWR 0x150 = 0 then c.modeTo modeRun else c.enterLimp

/-- A W1C of LIMP_CAUSE (R328). -/
def Chip.clearLimp (c : Chip) (v : Nat) : Chip :=
  let may := fun bit =>
    decide (bit = lcCMD) || (decide (bit = lcDOUBLE) && decide (c.trMode = trTRIPLE))
      || (decide (bit = lcTHERMAL) && decide (c.dieTemp + 10 ≤ (c.get pPWR F.PWR_THERM_CFG_THERM_LIMP : Int)))
  let gone := ((bitList v 6).filter may).foldl (fun a b => a + 2 ^ b) 0
  c.setReg pPWR 0x150 (c.reg pPWR 0x150 &&& ~~~ BitVec.ofNat 32 gone)

/-! ## QUARANTINE (R326, R398) -/

/-- QUARANTINE is entered from every mode but DORMANT, by a trigger of R397 or by MODE_CMD. Out of BOOT_FAIL only a device reset leads
(R353): no trigger moves it (log entry 127). -/
def Chip.quarantine (c : Chip) (code : Nat) (cmd : Bool) : Chip :=
  if c.dark ∨ c.bootFail ∨ c.mode = modeQuarantine then c
  else
    let c := ((c.put pPWR F.PWR_Q_CAUSE_CODE code).put pPWR F.PWR_Q_CAUSE_CMD cmd.toNat).put pPRISIL F.PRISIL_STATUS_P_WITHHELD 1
    let c := c.overrideEntry.modeTo modeQuarantine
    ((c.count pPWR K.PWR_QUAR_ENTRIES).raise pPWR E.PWR_QUARANTINE).massStart

/-! ## Entries to SENTRY and DORMANT (R329 to R331) -/

/-- An armed action ends unexecuted for want of a valid time (R151). -/
def Chip.endAction (c : Chip) (i : Nat) : Chip :=
  let c := c.actUnrun i arTIMEINVALID
  let c := c.tput pSTORYTBL 1 i fOsState oTIMEINVALID
  let c := ({ c with ones := store none c.ones i none }.count pSTORY K.STORY_ONESHOT_TIME_INVALID).raise pSTORY E.STORY_ONESHOT_TIME_INVALID
  c.rejectBound i rsnTimeInvalid

/-- Every armed action ends so. -/
def Chip.endActions (c : Chip) : Chip := c.armed.foldl (fun (c : Chip) i => c.endAction i) c

/-- Step 3 of R329. -/
def Chip.entryStop (c : Chip) : Chip := ((c.invalidate icMODE).disarmAll).endActions

/-- Step 4: sleep requests and warm records of the B and G ports that are UP (R65). -/
def Chip.saveWarms (c : Chip) : Chip :=
  (List.range 20).foldl (fun (c : Chip) n =>
    c.saveWarm n c.dieTemp) c

/-- Step 5 of a SENTRY entry: clocks on HFRC, unless it has failed (R310; then PLL_S, PLL_G and the crystal run on, log entry 112), GCLK
once the channels are idle, with PLL_G powered until then; PLLs and the spill memory off, the crystal as SENTRY_XTAL says, SOLO at the next checkpoint boundary. The
fabric stops as R105 says of a halt. -/
def Chip.sentryPower (c : Chip) : Chip :=
  let c := ((c.xingFlush pFAB).fabricHalt).put pFAB F.FAB_FAB_STATUS_CLK_OK 0
  let c := { (c.put pSPILL F.SPILL_SPILL_STATUS_TRAINED 0).setReg pSPILL F.SPILL_SPILL_CAP_CELLS.off 0 with spillTraining := false }
  let c : Chip := if c.hfrcFailed then c else
    let c := c.gclkWant true false
    (if c.pllLocked pllG then c else c.gclkMake).switchCore true
  let keep : Nat := if c.hfrcFailed then 6 else if c.clk.gwait.isSome then 4 else 0
  let c := (c.put pCLK F.CLK_PLL_STATUS_POWERED keep).put pCLK F.CLK_PLL_STATUS_LOCKED (c.get pCLK F.CLK_PLL_STATUS_LOCKED &&& keep)
  let c := (c.put pCLK F.CLK_PLL_STATUS_FREQ_OK (c.get pCLK F.CLK_PLL_STATUS_FREQ_OK &&& keep)).setClk { c.clk with lost := 0 }
  let c : Chip := if c.is pCLK F.CLK_XTAL_CFG_SENTRY_XTAL ∨ c.hfrcFailed then c
    else ((c.put pCLK F.CLK_XTAL_STATUS_RUNNING 0).put pCLK F.CLK_XTAL_STATUS_AMP_OK 0).sPortsFollow
  c.setTr { c.tr with soloDue := decide (c.trMode = trTRIPLE ∨ c.trMode = trPAIR) }

/-- A wake is recorded (R332). -/
def Chip.noteWake (c : Chip) (sources : Nat) (filter : Bool) : Chip :=
  let c := (c.put pAON F.AON_WAKE_CAUSE_SRC sources).put pAON F.AON_WAKE_CAUSE_FILTER filter.toNat
  (c.put pAON F.AON_WAKE_CAUSE_WAKES (c.get pAON F.AON_WAKE_CAUSE_WAKES + 1)).put pAON F.AON_WAKE_PEND_S 0

/-- SENTRY ends by a wake source or a wake filter. -/
def Chip.sentryWake (c : Chip) (sources : Nat) (filter : Bool) : Chip := ((c.noteWake sources filter).put pAON F.AON_WAKE_CAUSE_FAIL 0).towardsRun

/-- Steps 3 to 5 of a SENTRY entry; what asked for RUN meanwhile is followed at once (R330). -/
def Chip.goSentry (c : Chip) : Chip :=
  let filter : Bool := c.pwr.filterDue
  let c := ((c.entryStop.saveWarms).pcieReset .linkLoss).modeTo modeSentry
  let c := ((c.idlePins.sentryPower).count pPWR K.PWR_SENTRY_ENTRIES).setPwr { c.pwr with filterDue := false }
  let pend := c.get pAON F.AON_WAKE_PEND_S
  if pend = 0 ∧ ¬ filter then c else c.sentryWake pend filter

/-- What AON keeps of a port (R331). -/
def Chip.portRecord (c : Chip) (n : Nat) : Nat × List Word :=
  (n, [c.reg (pPORT n) (0x144 + 0x800), c.reg (pPORT n) (0x148 + 0x800), c.reg (pPORT n) (0x154 + 0x800), c.reg (pPORT n) 0x010])

/-- PWR_EN falls (R331): the core is lost; AON, the warm store and the RTC stay. -/
def Chip.coreOff (c : Chip) (short : Bool) : Chip :=
  let c := (c.count pPWR K.PWR_DORMANT_ENTRIES).raise pPWR E.PWR_MODE_CHANGE
  let records := (List.range 28).map fun n => c.portRecord n
  let d : Chip := c.freshCore
  let aon : AonRt := { c.aon with portCfg := records, fwdWake := [], sleptAt := c.cycles, short := short, waking := none, failedAt := none, retried := false, wakeTo := none, restore := false }
  { d with dormant := true, tStopped := true, aon := aon }

/-- Steps 3 to 5 of a DORMANT entry. From SENTRY the records of the SENTRY entry stay. -/
def Chip.goDormant (c : Chip) : Chip := ((c.entryStop.saveWarms).pcieReset .linkLoss).coreOff false

/-- An entry is requested: BUSY, firmware notified (step 1). -/
def Chip.beginEntry' (c : Chip) (target : Nat) (byCmd : Bool) : Chip :=
  let c := (c.setPwr { c.pwr with entry := some ⟨target, c.cycles, byCmd⟩ }).put pPWR F.PWR_MODE_STATUS_BUSY 1
  c.emit (.entryNotice target)

/-- The entry goes on after step 2. -/
def Chip.entryGo (c : Chip) : Chip :=
  match c.pwr.entry with
  | some e => if e.target = modeSentry then c.goSentry else c.goDormant
  | none => c

/-- ENTRY_TMO expires. -/
def Chip.entryForced (c : Chip) : Chip :=
  match c.pwr.entry with
  | some e =>
    if e.since + msCycles (c.get pPWR F.PWR_PWR_POLICY_ENTRY_TMO) ≤ c.cycles then (c.count pPWR K.PWR_ENTRY_FORCED).entryGo else c
  | none => c

/-- SENTRY_IDLE_S seconds without a message. -/
def Chip.sentryIdle (c : Chip) : Chip :=
  let n := c.get pPWR F.PWR_PWR_POLICY_SENTRY_IDLE_S
  if c.mode = modeSentry ∧ c.pwr.entry.isNone ∧ n ≠ 0 ∧ c.pwr.heard + secCycles n ≤ c.cycles then c.beginEntry' modeDormant false else c

/-! ## MODE_CMD (R325, R326) -/

/-- The targets that R326 lists from a mode. -/
def modeListed (mode target : Nat) : Bool :=
  let rls := decide (mode = modeRun ∨ mode = modeLimp ∨ mode = modeService)
  if target = modeSentry then rls
  else if target = modeDormant then rls || decide (mode = modeSentry)
  else if target = modeRun then decide (mode = modeSentry ∨ mode = modeLimp ∨ mode = modeService)
  else if target = modeLimp then decide (mode = modeRun ∨ mode = modeService)
  else if target = modeService then decide (mode = modeRun ∨ mode = modeLimp)
  else decide (target = modeQuarantine ∧ mode ≠ modeQuarantine)

/-- A command is handled: RESULT and SEQ. -/
def Chip.modeResult (c : Chip) (r : Nat) : Chip :=
  (c.put pPWR F.PWR_MODE_STATUS_RESULT r).put pPWR F.PWR_MODE_STATUS_SEQ (c.get pPWR F.PWR_MODE_STATUS_SEQ + 1)

/-- A write of MODE_CMD. -/
def Chip.modeCmd (c : Chip) (target key : Nat) : Chip :=
  if key % 65536 ≠ 0x4D44 then c.modeResult 2
  else if c.is pPWR F.PWR_MODE_STATUS_BUSY then c.modeResult 1
  else if c.bootFail ∨ ¬ modeListed c.mode target then c.modeResult 3
  else if target = modeRun ∧ c.mode = modeLimp ∧ c.reg pPWR 0x150 ≠ 0 then c.modeResult 4
  else
    let c := c.modeResult 0
    if target = modeSentry ∨ target = modeDormant then c.beginEntry' target true
    else if target = modeRun then c.towardsRun
    else if target = modeLimp then c.limpCause lcCMD
    else if target = modeService then c.modeTo modeService
    else c.quarantine 0 true

/-- The write as its requester posts it. -/
def Chip.modeWrite (c : Chip) (req : Requester) (target key : Nat) : Chip :=
  c.command req pPWR 0x148 (BitVec.ofNat 32 (target % 8 + 65536 * key)) fun c => c.modeCmd target key

/-- The checks of a PWR commit (R339). -/
def Chip.validatePwr (c : Chip) : Nat × Nat :=
  let t := c.staged pPWR F.PWR_THERM_CFG_THERM_LIMP
  firstBad [(decide (c.staged pPWR F.PWR_PWR_POLICY_ENTRY_TMO = 0), rsnRange, 1), (decide (t < 100 ∨ 135 < t), rsnRange, 2)]

/-! ## Heat (R328, R339) -/

/-- DIE_TEMP at or above THERM_LIMP, for 10 ms as the event says. -/
def Chip.thermal (c : Chip) : Chip :=
  if (c.get pPWR F.PWR_THERM_CFG_THERM_LIMP : Int) ≤ c.dieTemp then c.limpCause lcTHERMAL else c

def Chip.dieTempRefresh (c : Chip) (temp : Int) : Chip :=
  if c.dark then c
  else
    let peak : Int := match c.wear.peak with | some t => max t temp | none => temp
    { (c.put pPWR F.PWR_DIE_TEMP_C (unsignedOf temp 8)).trimHolds with wear := { c.wear with peak := some peak } }

/-! ## The end of a mass emission (R163, R398) -/

/-- QUARANTINE after its emission: lists, actions, watches and keys are stopped or erased (R143, R151, R157, R161, R213, R398). -/
def Chip.quarantineEnd (c : Chip) : Chip :=
  let c := ((c.listsFailsafe.endActions).releasesInvalid).disarmAll
  let c := { c.addCnt pCINCH K.CINCH_SAFE_DROP c.safeFrames.length with safeFrames := [], storyHalted := true }
  let c := { c with root := none, slots := [], succ := none, saKeys := [] }
  ((c.put pPRISIL F.PRISIL_STATUS_P_ROOT 0).put pPRISIL F.PRISIL_STATUS_P_BRANCH_FW 0).put pPRISIL F.PRISIL_STATUS_P_SUCC_DECLARED 0

/-- The emission is complete: its frames have left, or 500 us have passed and they wait at their transmitters. The short path to
DORMANT follows (R336). On entry to QUARANTINE every frame has left, so that keys are withheld only after them (R163). -/
def Chip.massDone (c : Chip) : Chip :=
  let ends : Bool := decide (c.mode = modeQuarantine) && !c.storyHalted && !c.pwr.shortDue
  if ¬ c.is pCINCH F.CINCH_CINCH_STATUS_MASS_BUSY ∨ (c.safeFrames ≠ [] ∧ (ends ∨ c.cycles < c.pwr.massAt + usCycles 500)) then c
  else
    let c := c.put pCINCH F.CINCH_CINCH_STATUS_MASS_BUSY 0
    if c.pwr.shortDue then c.coreOff true
    else if c.mode = modeQuarantine ∧ ¬ c.storyHalted then c.quarantineEnd
    else c

/-! ## Meanings -/

/-- MODE_CMD SENTRY (R329). -/
def execModeCmdSentry (dt : Nat) (req : Requester) (key : Nat) (s : State) : Host.Outcome State Fault Refusal :=
  .next (s.run dt fun c => c.modeWrite req modeSentry key)

/-- MODE_CMD RUN (R326). -/
def execModeCmdRun (dt : Nat) (req : Requester) (key : Nat) (s : State) : Host.Outcome State Fault Refusal :=
  .next (s.run dt fun c => c.modeWrite req modeRun key)

/-- MODE_CMD LIMP (R328). -/
def execModeCmdLimp (dt : Nat) (req : Requester) (key : Nat) (s : State) : Host.Outcome State Fault Refusal :=
  .next (s.run dt fun c => c.modeWrite req modeLimp key)

/-- MODE_CMD SERVICE (R326). -/
def execModeCmdService (dt : Nat) (req : Requester) (key : Nat) (s : State) : Host.Outcome State Fault Refusal :=
  .next (s.run dt fun c => c.modeWrite req modeService key)

/-- MODE_CMD QUARANTINE (R326). -/
def execModeCmdQuarantine (dt : Nat) (req : Requester) (key : Nat) (s : State) : Host.Outcome State Fault Refusal :=
  .next (s.run dt fun c => c.modeWrite req modeQuarantine key)

/-- MODE_CMD DORMANT (R329). -/
def execModeCmdDormant (dt : Nat) (req : Requester) (key : Nat) (s : State) : Host.Outcome State Fault Refusal :=
  .next (s.run dt fun c => c.modeWrite req modeDormant key)

/-- ENTRY_ACK (R329). -/
def execEntryAck (dt : Nat) (s : State) : Host.Outcome State Fault Refusal := .next (s.run dt Chip.entryGo)

/-- ENTRY_FORCED (R329). -/
def execEntryForced (dt : Nat) (s : State) : Host.Outcome State Fault Refusal := .next (s.run dt Chip.entryForced)

/-- SENTRY_IDLE (R326). -/
def execSentryIdle (dt : Nat) (s : State) : Host.Outcome State Fault Refusal := .next (s.run dt Chip.sentryIdle)

/-- THERMAL (R328): DIE_TEMP has been at THERM_LIMP for 10 ms. -/
def execThermal (dt : Nat) (s : State) : Host.Outcome State Fault Refusal := .next (s.run dt fun c => if c.dark then c else c.thermal)

/-- LIMP_CAUSE_CLEAR (R328): a W1C write. -/
def execLimpCauseClear (dt : Nat) (req : Requester) (bits : Nat) (s : State) : Host.Outcome State Fault Refusal :=
  .next (s.run dt fun c => c.command req pPWR 0x150 (BitVec.ofNat 32 bits) fun c => c.clearLimp bits)

/-- DIE_TEMP_REFRESH (R339). -/
def execDieTempRefresh (dt : Nat) (temp : Int) (s : State) : Host.Outcome State Fault Refusal := .next (s.run dt fun c => c.dieTempRefresh temp)

/-- MASS_EMIT_DONE (R163). -/
def execMassEmitDone (dt : Nat) (s : State) : Host.Outcome State Fault Refusal := .next (s.run dt Chip.massDone)

end Sys2Proof.Machine
end

