-- ==== Sys2Proof/Machine/Power.lean ====
section
/-! DEFINITION. Wake sources, the wake from DORMANT, the power-fail warning, the RTC (R330 to R337, R340). -/
namespace Sys2Proof.Machine

open Sys2Proof

/-! ## Wake sources (R330, R332) -/

/-- A source's target: 0 ignored, 1 SENTRY, 2 RUN. -/
def Chip.wakeTarget (c : Chip) (i : Nat) : Nat :=
  let t := bitsAt (c.reg pAON 0x144) (2 * i) 2
  if t = 3 ∨ 11 ≤ i then 0 else t

def Chip.latchWake (c : Chip) (i : Nat) : Chip := c.put pAON F.AON_WAKE_PEND_S (setBit (c.get pAON F.AON_WAKE_PEND_S) i)

/-- PWR_EN rises (R333), not before 500 us after it fell (R330). -/
def Chip.raisePower (c : Chip) : Chip :=
  if c.dormant ∧ c.aon.waking.isNone ∧ c.aon.sleptAt + usCycles 500 ≤ c.cycles then c.setAon { c.aon with waking := some c.cycles } else c

/-- The mode that an entry in progress goes to; the short path of R336 leads to DORMANT. -/
def Chip.entryTarget (c : Chip) : Option Nat := if c.pwr.shortDue then some modeDormant else match c.pwr.entry with | some e => some e.target | none => none

/-- A source becomes active. -/
def Chip.wakeSource (c : Chip) (i : Nat) : Chip :=
  let t := c.wakeTarget i
  if t = 0 then c
  else if c.dormant then (c.latchWake i).raisePower
  else if c.entryTarget = some modeDormant ∨ (c.entryTarget = some modeSentry ∧ t = 2) then
    (c.latchWake i).count pPWR K.PWR_WAKE_DURING_ENTRY
  else if c.mode = modeSentry ∧ t = 2 then c.sentryWake (2 ^ i) false
  else c

/-- A WAKE pin has held a level for `periods` LFRC periods; `edge` tells whether it changed to it. -/
def Chip.wakePin (c : Chip) (pin : Nat) (high edge : Bool) (periods : Nat) : Chip :=
  let is := fun f => (c.get pAON f).testBit pin
  if pin < 8 ∧ is F.AON_WAKE_PIN_CFG_EN ∧ is F.AON_WAKE_PIN_CFG_ACTIVE_HIGH = high ∧ (edge ∨ is F.AON_WAKE_PIN_CFG_LEVEL)
      ∧ c.get pAON F.AON_WAKE_PIN_CFG_FILTER + 1 ≤ periods then c.wakeSource pin
  else c

/-- A wake pulse on a port that an enabled slot of TC10_WAKE names; one that arrives in DORMANT, or in SENTRY on a port that is OFF there, is
kept to be forwarded (R69). -/
def Chip.tc10Pulse (c : Chip) (port : Nat) : Chip :=
  let w := c.reg pAON 0x148
  if hasTc10 port ∧ (List.range 4).any (fun s => decide (bitsAt w (8 * s) 6 = port ∧ bitsAt w (8 * s + 6) 1 = 1)) then
    let aon : AonRt := { c.aon with fwdWake := store [] c.aon.fwdWake port [port] }
    (if c.dormant ∨ (c.mode = modeSentry ∧ c.linkState port = lsOff) then { c with aon := aon } else c).wakeSource 9
  else c

/-- POWER_FAIL_N has been high for 10 ms after the short path. -/
def Chip.powerReturn (c : Chip) : Chip := if c.dormant ∧ c.aon.short then c.wakeSource 10 else c

/-- 500 us after PWR_EN fell. -/
def Chip.wakeAfterEntry (c : Chip) : Chip := if c.get pAON F.AON_WAKE_PEND_S = 0 then c else c.raisePower

/-- A valid wake filter that a CAN message matches (R332). -/
def Chip.wakeFilter (c : Chip) (channel : Nat) (m : Msg) : Bool :=
  (List.range 8).any fun i =>
    let w := fun k => c.tword pPWR 0 i k
    decide (bitsAt (w 0) 31 1 = 1 ∧ bitsAt (w 2) 0 4 = channel ∧ bitsAt (w 0) 29 1 = m.ide.toNat)
      && decide ((m.id ^^^ bitsAt (w 0) 0 29) &&& bitsAt (w 1) 0 29 = 0)

/-- A message that a wake filter matches, in SENTRY or during an entry to it. -/
def Chip.filterWake (c : Chip) (channel : Nat) (m : Msg) : Chip :=
  if c.dormant ∨ ¬ c.wakeFilter channel m then c
  else if c.entryTarget = some modeSentry then (c.setPwr { c.pwr with filterDue := true }).count pPWR K.PWR_WAKE_DURING_ENTRY
  else if c.mode = modeSentry ∧ c.entryTarget.isNone then c.sentryWake 0 true
  else c

/-! ## The wake (R333, R334) -/

/-- PWR_GOOD rises: the core leaves reset at a die temperature, HFRC trimmed where that lies within 30 °C of its last trim (R305);
the boot sequence follows, for the highest target. -/
def Chip.coreOn (c : Chip) (temp : Int) : Chip :=
  match c.aon.waking with
  | none => c
  | some _ =>
    let pend := c.get pAON F.AON_WAKE_PEND_S
    let target : Nat := if (bitList pend 11).any fun i => decide (c.wakeTarget i = 2) then modeRun else modeSentry
    let failed : Bool := c.aon.failedAt.isSome
    let aon : AonRt := { c.aon with waking := none, failedAt := none, retried := false, wakeTo := some target, restore := true }
    let d : Chip := c.freshCore
    let d := { d with aon := aon }.noteWake pend false
    let d := (d.put pAON F.AON_WAKE_CAUSE_FAIL failed.toNat).put pPWR F.PWR_DIE_TEMP_C (unsignedOf temp 8)
    let away := (temp - signedOf (d.get pCLK F.CLK_HFRC_STATUS_TRIM_TEMP) 8).natAbs
    let d := if 30 < away then d.put pCLK F.CLK_HFRC_STATUS_TRIMMED 0 else d
    d.startXtal false false

/-- PWR_GOOD has not risen within 10 ms: after the retry the sources are given up. -/
def Chip.powerTimeout (c : Chip) : Chip :=
  match c.aon.waking with
  | some t =>
    if t + msCycles 10 ≤ c.cycles then
      let again : Bool := c.aon.retried
      let failed : Option Nat := if again then none else some c.cycles
      let c := (c.put pAON F.AON_WAKE_CAUSE_FAIL 1).setAon { c.aon with waking := none, failedAt := failed, retried := false }
      if again then c.put pAON F.AON_WAKE_PEND_S 0 else c
    else c
  | none => c

/-- 100 ms after a failed wake. -/
def Chip.wakeRetry (c : Chip) : Chip :=
  match c.aon.failedAt with
  | some t =>
    if c.dormant ∧ c.aon.waking.isNone ∧ t + msCycles 100 ≤ c.cycles then c.setAon { c.aon with waking := some c.cycles, retried := true } else c
  | none => c

/-! ## The power-fail warning (R336, R337) -/

/-- POWER_FAIL_N has been low for `us` microseconds. The short path is a transition in progress (BUSY) until the emission is complete:
commands are refused meanwhile, LIMP and QUARANTINE override it (R327; DEDUCED, log entry 138). -/
def Chip.powerFail (c : Chip) (us : Nat) : Chip :=
  if c.dark ∨ c.is pCINCH F.CINCH_CINCH_STATUS_PF_ACTIVE ∨ us < max 1 (c.get pCINCH F.CINCH_CINCH_CFG_PF_FILTER) then c
  else
    let c := ((c.put pCINCH F.CINCH_CINCH_STATUS_PF_ACTIVE 1).count pPWR K.PWR_PF_EVENTS).raise pPWR E.PWR_PF
    let c := c.setPwr { c.pwr with pfBudget := 4096 }
    if ¬ c.is pCINCH F.CINCH_CINCH_CFG_PF_EN then c
    else
      let m := c.mode
      let c : Chip := if m = modeSentry then c else c.massStart
      if ¬ c.is pPWR F.PWR_PWR_POLICY_PF_DORMANT ∨ ¬ (m = modeRun ∨ m = modeLimp ∨ m = modeService ∨ m = modeSentry) then c
      else
        let c := c.overrideEntry
        if c.safeFrames = [] then c.coreOff true
        else (c.setPwr { c.pwr with shortDue := true }).put pPWR F.PWR_MODE_STATUS_BUSY 1

/-- POWER_FAIL_N has been high for 100 ms. -/
def Chip.pfClear (c : Chip) : Chip :=
  if c.is pCINCH F.CINCH_CINCH_STATUS_PF_ACTIVE then
    (c.put pCINCH F.CINCH_CINCH_STATUS_PF_ACTIVE 0).put pXMEM F.XMEM_XSPI_STATUS_PF_BLOCK 0
  else c

/-! ## The RTC (R340) -/

/-- The RTC in 32,768ths of a second. -/
def Chip.rtcNow (c : Chip) : Nat := c.aon.rtc + (c.cycles - c.aon.rtcAt) * 32768 / 500000000
def Chip.rtcSec (c : Chip) : Nat := c.rtcNow / 32768 % 2 ^ 48

/-- A write of RTC_CMD: LOAD, then CAPTURE. -/
def Chip.rtcCmd (c : Chip) (v : Nat) : Chip :=
  let c := if v.testBit 0 then c.setAon { c.aon with rtc := w48Of (c.reg pAON 0x154) (c.reg pAON 0x158) * 32768, rtcAt := c.cycles, rtcFired := none } else c
  if v.testBit 1 then
    let c := (c.setReg pAON 0x160 (BitVec.ofNat 32 (c.rtcSec % 2 ^ 32))).setReg pAON 0x164 (BitVec.ofNat 32 (c.rtcSec / 2 ^ 32))
    (c.put pAON F.AON_RTC_CAP_FRAC_FRAC (c.rtcNow % 32768)).put pAON F.AON_RTC_CAP_FRAC_SEQ (c.get pAON F.AON_RTC_CAP_FRAC_SEQ + 1)
  else c

/-- The RTC's seconds reach RTC_ALARM. -/
def Chip.rtcAlarm (c : Chip) : Chip :=
  let sec := c.rtcSec
  if c.is pAON F.AON_RTC_ALARM_HI_ALARM_EN ∧ sec = w48Of (c.reg pAON 0x16C) (c.reg pAON 0x170) ∧ c.aon.rtcFired ≠ some sec then
    let c := c.setAon { c.aon with rtcFired := some sec }
    let c := if c.dormant then c else c.raise pAON E.AON_RTC_ALARM
    c.wakeSource 8
  else c

/-! ## Meanings -/

/-- WAKE_PIN (R332). -/
def execWakePin (dt pin : Nat) (high edge : Bool) (periods : Nat) (s : State) : Host.Outcome State Fault Refusal :=
  .next (s.run dt fun c => c.wakePin pin high edge periods)

/-- RTC_ALARM (R332, R340). -/
def execRtcAlarm (dt : Nat) (s : State) : Host.Outcome State Fault Refusal := .next (s.run dt Chip.rtcAlarm)

/-- TC10_WAKE_PULSE (R332). -/
def execTc10WakePulse (dt port : Nat) (s : State) : Host.Outcome State Fault Refusal := .next (s.run dt fun c => c.tc10Pulse port)

/-- POWER_RETURN (R332). -/
def execPowerReturn (dt : Nat) (s : State) : Host.Outcome State Fault Refusal := .next (s.run dt Chip.powerReturn)

/-- WAKE_AFTER_ENTRY (R330). -/
def execWakeAfterEntry (dt : Nat) (s : State) : Host.Outcome State Fault Refusal := .next (s.run dt Chip.wakeAfterEntry)

/-- PWR_GOOD (R333, R334). -/
def execPwrGood (dt : Nat) (temp : Int) (s : State) : Host.Outcome State Fault Refusal := .next (s.run dt fun c => c.coreOn temp)

/-- PWR_GOOD_TIMEOUT (R333). -/
def execPwrGoodTimeout (dt : Nat) (s : State) : Host.Outcome State Fault Refusal := .next (s.run dt Chip.powerTimeout)

/-- WAKE_RETRY (R333). -/
def execWakeRetry (dt : Nat) (s : State) : Host.Outcome State Fault Refusal := .next (s.run dt Chip.wakeRetry)

/-- POWER_FAIL (R336). -/
def execPowerFail (dt us : Nat) (s : State) : Host.Outcome State Fault Refusal := .next (s.run dt fun c => c.powerFail us)

/-- PF_CLEAR (R337). -/
def execPfClear (dt : Nat) (s : State) : Host.Outcome State Fault Refusal := .next (s.run dt Chip.pfClear)

/-- LOAD (R340): a write of RTC_CMD. -/
def execLoad (dt : Nat) (req : Requester) (s : State) : Host.Outcome State Fault Refusal :=
  .next (s.run dt fun c => c.command req pAON 0x15C 1 fun c => c.rtcCmd 1)

/-- CAPTURE (R340): a write of RTC_CMD. -/
def execCapture (dt : Nat) (req : Requester) (s : State) : Host.Outcome State Fault Refusal :=
  .next (s.run dt fun c => c.command req pAON 0x15C 2 fun c => c.rtcCmd 2)

end Sys2Proof.Machine
end

