-- ==== Sys2Proof/Machine/Legacy.lean ====
section
/-! DEFINITION. Messages that arrive on the legacy channels (R215, R232, R233, R236, R332). -/
namespace Sys2Proof.Machine

open Sys2Proof

/-- A CAN message that a channel can receive as it is configured: its format and its length (R230). -/
def Chip.canAccepts (c : Chip) (n : Nat) (m : Msg) : Bool :=
  let p := pCAN n
  decide (m.kind = .can)
    && (if m.xl then c.is p F.CAN_CAN_CFG_XL_EN && decide (m.data.length ≤ 2048)
        else if m.fdf then c.is p F.CAN_CAN_CFG_FD_EN && decide (m.data.length ≤ 64)
        else decide (m.data.length ≤ 8))
    && decide (m.id < (if m.ide then 2 ^ 29 else 2 ^ 11))

/-- A CAN message ends good: counted, its error counter falls, handed to the routes; a wake filter may match it. -/
def Chip.canReceive (c : Chip) (n : Nat) (m : Msg) (ago : Nat) : Chip :=
  if c.canAccepts n m && (decide (c.canState n = caACTIVE) || decide (c.canState n = caPASSIVE)) then
    let c : Chip := { c with pwr := { c.pwr with heard := c.cycles } }
    (((c.count (pCAN n) K.CAN_RX_FRAMES).canRxOk n).toRoutes (32 + n) m ago).filterWake n m
  else c

/-- The response to a LIN header of a subscribed ID. -/
def Chip.linFrame (c : Chip) (n id : Nat) (r : LinResponse) (ago : Nat) : Chip :=
  if c.ready (pLIN n) && (decide (c.linState n = liIDLE) || decide (c.linState n = liRUN)) && c.tis (pLIN n) 0 (id % 64) fFcSubscribe then
    c.linReceive n (id % 64) r ago
  else c

/-- What arrives on a channel's port; its start of frame lies `ago` cycles back. -/
def Chip.legacyRx (c : Chip) (port : Nat) (rx : LegacyRx) (ago : Nat) : Chip :=
  match rx with
  | .can m => if isCan port then c.canReceive (port - 32) m ago else c
  | .lin id r => if isLin port then c.linFrame (port - 48) id r ago else c
  | .uart chars parity framing idle => if isUart port then c.uartRx (port - 56) chars parity framing idle ago else c

/-- LEGACY_MESSAGE_RECEIVED (R215). -/
def execLegacyMessageReceived (dt port : Nat) (rx : LegacyRx) (ago : Nat) (s : State) : Host.Outcome State Fault Refusal :=
  .next (s.run dt fun c => c.legacyRx port rx ago)

end Sys2Proof.Machine
end

