-- ==== Sys2Proof/Machine/Trestle.lean ====
section
/-! DEFINITION. Trestle (R358 to R381): heartbeat, checkpoints, mailbox, Scribe, restarts, split and rejoin. -/
namespace Sys2Proof.Machine

open Sys2Proof

def Chip.trPut (c : Chip) (f : Fld) (v : Nat) : Chip := c.put pTRESTLE f v
def Chip.trIs (c : Chip) (f : Fld) : Bool := c.is pTRESTLE f
/-- The cores execute: SOLO, PAIR or TRIPLE. -/
def Chip.trRuns (c : Chip) : Bool := decide (1 ≤ c.trMode ∧ c.trMode ≤ 3)

/-! ## The mismatch log (R381) -/

abbrev mkMISMATCH : Nat := 1
abbrev mkDOUBLE : Nat := 2
abbrev mkCHECKER : Nat := 3
abbrev mkPARITY : Nat := 4
abbrev mkMEM : Nat := 5
abbrev mkSPARE : Nat := 6
abbrev mkHALT : Nat := 7

/-- A trace record of a level (R361); its event code and its argument are free values (log entry 105). -/
def Chip.traceAdd (c : Chip) (level : Nat) : Chip :=
  let n := (c.reg pHOST 0x150).toNat / 16
  let (a, c) := c.takeFree
  let ws := [BitVec.ofNat 32 n, BitVec.ofNat 32 c.stamp, BitVec.ofNat 32 (a % 65536 + 65536 * level + 2 ^ 20 * c.trMode), BitVec.ofNat 32 (a / 65536)]
  let at' := 4 * (n % 8192)
  let ring := (ws.foldl (fun (r : List (Nat × Word) × Nat) w => (store 0 r.1 r.2 w, r.2 + 1)) (c.tr.traceRing, at')).1
  (c.setTr { c.tr with traceRing := ring }).setReg pHOST 0x150 (c.reg pHOST 0x150 + 16)

/-- An event enters the log; where it is full, MLOG_LOST and a trace record at level 0 (R361). -/
def Chip.mlogAdd (c : Chip) (kind leg scribe group : Nat) : Chip :=
  if c.tr.mlog.length < 16 then
    let e : MlogEntry := ⟨c.stamp, kind, leg, scribe, group, c.trMode, c.tr.mlogSeq⟩
    c.setTr { c.tr with mlog := c.tr.mlog ++ [e], mlogSeq := (c.tr.mlogSeq + 1) % 65536 }
  else (c.traceAdd 0).raise pTRESTLE E.TRESTLE_MLOG_LOST

/-- A word of the head entry. -/
def Chip.mlogHead (c : Chip) (i : Nat) : Word :=
  match c.tr.mlog with
  | [] => 0
  | e :: _ => BitVec.ofNat 32 (match i with
    | 0 => e.stamp
    | 1 => e.kind + 16 * e.leg + 64 * e.scribe + 256 * e.group + 4096 * e.mode + 65536
    | _ => e.seq)

def Chip.mlogAck (c : Chip) (seq : Nat) : Chip :=
  match c.tr.mlog with
  | e :: l => if e.seq = seq % 65536 then c.setTr { c.tr with mlog := l } else c
  | [] => c

/-! ## The mailbox (R360) -/

/-- An interface of the host side. -/
def mbxSide : Requester → Bool
  | .pcie | .qspi | .peer => true
  | _ => false

def Chip.mbxReq (c : Chip) (req : Requester) : Option MbxReq := lookupD none c.tr.reqs (reqCode req)
def Chip.setMbxReq (c : Chip) (req : Requester) (x : Option MbxReq) : Chip :=
  c.setTr { c.tr with reqs := store none c.tr.reqs (reqCode req) x }

/-- The response of a request: its words and its result. -/
def Chip.mbxPlace (c : Chip) (req : Requester) (x : MbxReq) (words : List Word) (result : Nat) : Chip :=
  let k := fun off => sideKey pTRESTLE off (reqCode req)
  let c := c.setMbxReq req none
  let c := (words.foldl (fun (a : Chip × Nat) w => (a.1.setRegAt (k (0x280 + 4 * a.2)) w, a.2 + 1)) (c, 0)).1
  let st := x.seq % 65536 + 65536 * result + 2 ^ 24 * words.length + 2 ^ 31
  (c.setRegAt (k 0x2C0) (BitVec.ofNat 32 st)).raise pTRESTLE E.TRESTLE_MBX_RSP

/-- Firmware answers a request; CHECKPOINT_NOW waits for the next checkpoint. -/
def Chip.mbxAnswer (c : Chip) (req : Requester) : Chip :=
  match c.mbxReq req with
  | none => c
  | some x =>
    let w := fun n => BitVec.ofNat 32 n
    match x.service with
    | 1 => c.mbxPlace req x x.words 0
    | 2 => c.mbxPlace req x [c.reg pBOOT 0x148, w (c.get pBOOT F.BOOT_FW_SECVER_SEC_VER), w c.tr.bank] 0
    | 3 => c.mbxPlace req x [w (c.mono / 1000000000), w (c.get pTRESTLE F.TRESTLE_CKPT_STATUS_SEQ), w c.tr.cause] 0
    | 4 =>
      let level := bitsAt (x.words.getD 0 0) 0 4
      if 7 < level then c.mbxPlace req x [] 2
      else (c.setTr { c.tr with trace := level }).mbxPlace req x [w c.tr.trace] 0
    | 5 => c
    | _ => c.mbxPlace req x [] 1

/-- A doorbell. -/
def Chip.mbxDoorbell (c : Chip) (req : Requester) (seq service : Nat) : Chip :=
  if ¬ mbxSide req then c
  else if (c.mbxReq req).isSome then c.count pTRESTLE K.TRESTLE_MBX_BUSY
  else
    let words := (List.range 16).map fun i => c.regAt (sideKey pTRESTLE (0x200 + 4 * i) (reqCode req))
    let c := c.setMbxReq req (some ⟨seq % 65536, service % 256, words⟩)
    if c.fwRuns then c.mbxAnswer req else c

def Chip.mbxWrite (c : Chip) (req : Requester) (seq service : Nat) : Chip :=
  c.command req pTRESTLE 0x240 (BitVec.ofNat 32 (seq % 65536 + 65536 * (service % 256))) fun c => c.mbxDoorbell req seq service

/-- A response is removed (R264). -/
def Chip.rspAck (c : Chip) (req : Requester) (seq : Nat) : Chip :=
  let k := sideKey pTRESTLE 0x2C0 (reqCode req)
  let w := c.regAt k
  if bitsAt w 31 1 = 1 ∧ bitsAt w 0 16 = seq % 65536 then c.setRegAt k 0 else c

abbrev mbxSides : List Requester := [.pcie, .qspi, .peer]

/-! ## Heartbeat and checkpoints (R358, R359) -/

/-- Firmware's services resume: it takes up the GPTP pages and answers the requests that wait. -/
def Chip.fwResume (c : Chip) : Chip := mbxSides.foldl (fun (c : Chip) r => c.mbxAnswer r) c.takeUpGptp

/-- Between two heartbeats firmware may write a trace record, of a level at or below the trace level (R361): free values say whether it does
and at which (log entry 105). -/
def Chip.traceSome (c : Chip) : Chip :=
  let (v, c) := c.takeFree
  if v % 2 = 1 then c.traceAdd (v / 2 % (min 7 c.tr.trace + 1)) else c

/-- A heartbeat; one that ends a stop, and the first of a new image after its activation (R379), lets the services resume. -/
def Chip.heartbeat (c : Chip) : Chip :=
  if ¬ c.trRuns then c
  else
    let c := (c.setTr { c.tr with beatAt := c.cycles }).trPut F.TRESTLE_HB_STATUS_COUNT (c.get pTRESTLE F.TRESTLE_HB_STATUS_COUNT + 1)
    if c.trIs F.TRESTLE_TR_STATUS_STOPPED then
      (((c.trPut F.TRESTLE_TR_STATUS_STOPPED 0).raise pTRESTLE E.TRESTLE_FW_RESUMED).fwResume).traceSome
    else if c.tr.paused ∧ c.tr.work.isNone then (c.setTr { c.tr with paused := false }).fwResume
    else c.traceSome

/-- No heartbeat for 1 ms while the cluster is not OFF. -/
def Chip.fwStopped (c : Chip) : Chip :=
  if c.trMode ≠ trOFF ∧ ¬ c.trIs F.TRESTLE_TR_STATUS_STOPPED ∧ c.tr.beatAt + msCycles 1 ≤ c.cycles then
    ((c.trPut F.TRESTLE_TR_STATUS_STOPPED 1).count pTRESTLE K.TRESTLE_FW_STOPPED).raise pTRESTLE E.TRESTLE_FW_STOPPED
  else c

/-- The half of the checkpoint area that the next checkpoint is written into: the one that does not hold the last (R359). -/
def Chip.nextHalf (c : Chip) : Nat := match c.tr.ckpt with | some k => 1 - k.half | none => 0

/-- What starts at a checkpoint boundary: the resynchronisation of the spare leg for a rejoin that has passed its hand-over point (R378), or
of one that was stopped (R377); SOLO on an entry to SENTRY (R363). -/
def Chip.ckptBoundary (c : Chip) : Chip :=
  let rejoins : Bool := match c.tr.work with | some w => decide (w.kind = 2) && w.handover.isSome | none => false
  let c := if c.trMode = trPAIR ∧ (rejoins ∨ c.tr.violated.isSome) then
      (c.trPut F.TRESTLE_TR_STATUS_RESYNC 1).setTr { c.tr with odd := some (c.get pTRESTLE F.TRESTLE_TR_STATUS_SPARE_LEG) }
    else c
  if c.tr.soloDue then c.trSolo else c

/-- A checkpoint is completed, which is a boundary: CHECKPOINT_NOW requests are answered with its SEQ. -/
def Chip.checkpoint (c : Chip) (seq : Nat) : Chip :=
  if ¬ c.trRuns then c
  else
    let k : TrCkpt := ⟨c.nextHalf, seq % 65536, c.tr.trace, c.tr.subs⟩
    let c := (c.setTr { c.tr with ckptAt := c.cycles, ckpt := some k }).ckptBoundary
    let c := c.trPut F.TRESTLE_CKPT_STATUS_SEQ seq
    mbxSides.foldl (fun (c : Chip) r => match c.mbxReq r with
      | some x => if x.service = 5 then c.mbxPlace r x [BitVec.ofNat 32 (seq % 65536)] 0 else c
      | none => c) c

/-- A write that only firmware may make (R358). -/
def Chip.fwWrite (c : Chip) (req : Requester) (off : Nat) (v : Word) (f : Chip → Chip) : Chip :=
  c.posted req pTRESTLE off v fun c => if req = Requester.trestle then (f c, 0) else (c, errRoWrite)

/-- Microseconds since a cycle, saturating at 65,535. -/
def Chip.ageUs (c : Chip) (t : Nat) : Nat := min 65535 ((c.cycles - t) / 500)

/-! ## Restarts (R363, R370 to R373) -/

/-- What every stop of the cores ends: a resynchronisation, a split, the work in progress, the pause of an activation, unanswered requests. -/
def Chip.trStop (c : Chip) (mode cause : Nat) : Chip :=
  let c := (((c.trEnd tcABANDONED).prepLost).trPut F.TRESTLE_TR_STATUS_RESYNC 0).trPut F.TRESTLE_TR_STATUS_SPLIT 0
  let noTriple : Bool := !c.trIs F.TRESTLE_TR_STATUS_TRIPLE_AVAIL
  (c.setTr { c.tr with odd := none, violated := none, reqs := [], paused := false, noTriple := noTriple, cause := cause }).trTo mode

def Chip.trRestart (c : Chip) (cause : Nat) : Chip := c.trStop trRESTART cause

/-- A failure names a leg; while TRIPLE is not available the pair stays as it is. -/
def Chip.trName (c : Chip) (leg : Option Nat) : Chip := if c.tr.noTriple then c else c.setTr { c.tr with named := leg }

/-- The leg left out of a PAIR that stands for TRIPLE (R363): TC2, or the leg that the failure named. -/
def Chip.leftOut (c : Chip) : Nat := match c.tr.named with | some l => if l < 2 then l else 2 | none => 2

def Chip.trHalt (c : Chip) (cause : Nat) : Chip := c.trStop trHALTED cause

/-- The copy of Scribe in use flags, or both in TRIPLE. -/
def Chip.scribeFlags (c : Chip) : Nat :=
  if c.trMode = trTRIPLE then 3 else if c.get pTRESTLE F.TRESTLE_TR_STATUS_PAIR_CHECKER = 0 then 1 else 2

/-- The widths of the compared groups (R364). -/
def legGroups : List Nat := [7, 32, 7, 32, 36, 72, 9]

/-- What a leg puts out in a cycle: its groups within their widths. -/
def legOut (o : LegOutputs) (k : Nat) : List Nat :=
  let l := match k with | 0 => o.tc0 | 1 => o.tc1 | _ => o.tc2
  (List.range 7).map fun g => l.getD g 0 % 2 ^ legGroups.getD g 0

/-- The leg of three that differs from the two others, which agree (R369). -/
def legOdd (o : LegOutputs) (legs : List Nat) : Option Nat :=
  if legs.length = 3 then
    legs.find? fun k => (legs.filter fun j => decide (j ≠ k)).all fun j =>
      decide (legOut o j ≠ legOut o k) && (legs.filter fun i => decide (i ≠ k)).all fun i => decide (legOut o i = legOut o j)
  else none

/-- A copy's verdict on the legs that it compares: none where they agree in every bit; else the odd leg where there is one, and the first
group that differs (R364, R365; DEDUCED, log entry 141). -/
def legVerdict (o : LegOutputs) (legs : List Nat) : Option (Option Nat × Nat) :=
  match (List.range 7).find? fun g => legs.any fun k => legs.any fun j => decide ((legOut o k).getD g 0 ≠ (legOut o j).getD g 0) with
  | some g => some (legOdd o legs, g)
  | none => none

/-- The legs that are compared: in TRIPLE all, within a resynchronisation window those besides its odd leg (R369); the two of a PAIR. -/
def Chip.comparedLegs (c : Chip) : List Nat :=
  let out : Option Nat := if c.trMode = trPAIR then some (c.get pTRESTLE F.TRESTLE_TR_STATUS_SPARE_LEG)
    else if c.trIs F.TRESTLE_TR_STATUS_RESYNC then c.tr.odd else none
  [0, 1, 2].filter fun k => decide (some k ≠ out)

/-- A second mismatch in a window, or one without a majority (R370). It names the odd leg of the window, where there is one (DEDUCED: the
leg that the failure named, R363). -/
def Chip.doubleMismatch (c : Chip) (group : Nat) : Chip :=
  let leg := c.tr.odd
  let c := (c.count pTRESTLE K.TRESTLE_DOUBLE_MISMATCH).mlogAdd mkDOUBLE (leg.getD 0) c.scribeFlags group
  ((c.trRestart mkDOUBLE).trName leg).limpCause lcDOUBLE

/-- A mismatch (R369, R370): its odd leg where two of three legs agree, its group. -/
def Chip.mismatch (c : Chip) (odd : Option Nat) (group : Nat) : Chip :=
  let d := (c.count pTRESTLE K.TRESTLE_MISMATCHES).raise pTRESTLE E.TRESTLE_MISMATCH
  if c.trMode = trTRIPLE then
    match odd, c.trIs F.TRESTLE_TR_STATUS_RESYNC with
    | some leg, false =>
      let d := (d.mlogAdd mkMISMATCH leg c.scribeFlags group).trEnd tcABANDONED
      (d.setTr { d.tr with odd := some leg }).trPut F.TRESTLE_TR_STATUS_RESYNC 1
    | _, _ => d.doubleMismatch group
  else if c.trMode = trPAIR then ((d.mlogAdd mkMISMATCH 0 c.scribeFlags group).trRestart mkMISMATCH).trName none
  else c

/-- The odd leg, or a spare leg stopped for a violation, has been resynchronised; the latter after a checkpoint boundary. -/
def Chip.resyncDone (c : Chip) : Chip :=
  if c.trMode = trTRIPLE ∧ c.trIs F.TRESTLE_TR_STATUS_RESYNC then
    ((c.trPut F.TRESTLE_TR_STATUS_RESYNC 0).count pTRESTLE K.TRESTLE_RESYNCS).setTr { c.tr with odd := none }
  else if c.trMode = trPAIR ∧ c.tr.violated.isSome ∧ c.trIs F.TRESTLE_TR_STATUS_RESYNC then
    let c := ((c.setTr { c.tr with violated := none, odd := none }).count pTRESTLE K.TRESTLE_RESYNCS).trPut F.TRESTLE_TR_STATUS_RESYNC 0
    (c.trPut F.TRESTLE_TR_STATUS_SPARE_LEG 0).trTo trTRIPLE
  else c

/-- A checker fault (R371 to R373): by parity, or the two copies disagree; the third within 10 ms halts the cluster. -/
def Chip.checkerFault (c : Chip) (parity : Bool) (leg scribe group : Nat) : Chip :=
  if c.trMode = trTRIPLE ∨ (c.trMode = trPAIR ∧ parity) then
    let kind := if parity then mkPARITY else mkCHECKER
    let recent := c.tr.checkers.filter fun t => decide (c.cycles ≤ t + msCycles 10)
    let c := (c.setTr { c.tr with checkers := recent ++ [c.cycles] }).count pTRESTLE K.TRESTLE_CHECKER_FAULTS
    let c := (c.raise pTRESTLE E.TRESTLE_CHECKER_FAULT).mlogAdd kind leg scribe group
    if 2 ≤ recent.length then c.trHalt kind else (c.trRestart kind).trName (if parity then some leg else none)
  else c

/-- One cycle of the cluster as each copy of Scribe sees the legs' outputs (R364, R371): in TRIPLE a disagreement of the copies on the odd leg,
or on whether there is a mismatch, is a checker fault; in a PAIR the copy in use decides. -/
def Chip.scribeCycle (c : Chip) (a b : LegOutputs) : Chip :=
  let va := legVerdict a c.comparedLegs
  let vb := legVerdict b c.comparedLegs
  if c.trMode = trTRIPLE then
    if va.map (fun v => v.1) ≠ vb.map (fun v => v.1) then
      let v : Option Nat × Nat := match va, vb with | some v, _ => v | none, some v => v | none, none => (none, 0)
      c.checkerFault false (v.1.getD 0) (va.isSome.toNat + 2 * vb.isSome.toNat) v.2
    else match va with
      | some v => c.mismatch v.1 v.2
      | none => c
  else match (if c.get pTRESTLE F.TRESTLE_TR_STATUS_PAIR_CHECKER = 0 then va else vb) with
    | some v => c.mismatch none v.2
    | none => c

/-- A copy of Scribe passes its test (R368): it flagged every one of the 585 injections right and nothing in the clean cycle, and at no step
did the copies disagree, which fails both. -/
def scribePasses (t o : ScribeTest) : Bool :=
  (t.wrong.all fun k => decide (585 ≤ k)) && !t.noisy && !t.disagrees && !o.disagrees

/-- The results of the tests of the two Scribe copies (R368). -/
def Chip.scribeTest (c : Chip) (a b triple : Bool) : Chip :=
  let c := ((c.trPut F.TRESTLE_TR_STATUS_SCRIBE_A_OK a.toNat).trPut F.TRESTLE_TR_STATUS_SCRIBE_B_OK b.toNat)
  (c.trPut F.TRESTLE_TR_STATUS_TRIPLE_AVAIL triple.toNat).trPut F.TRESTLE_TR_STATUS_PAIR_CHECKER (if a then 0 else 1)

/-- The cores are released in a mode, in SENTRY one of them; requests that came while none ran are lost (R360), firmware takes up its pages. -/
def Chip.trRelease (c : Chip) (triple : Bool) : Chip :=
  let c := c.setTr { c.tr with beatAt := c.cycles, reqs := [], soloDue := false, testAt := none }
  let c := (c.trPut F.TRESTLE_TR_STATUS_FALLBACK_INPUTS (if triple then 0 else 1)).trPut F.TRESTLE_TR_STATUS_SPARE_LEG (if triple then 0 else c.leftOut)
  (c.trTo (if c.mode = modeSentry then trSOLO else if triple then trTRIPLE else trPAIR)).takeUpGptp

/-- A restart resumes from the last completed checkpoint (R359, R373 step 4). -/
def Chip.trResume (c : Chip) : Chip :=
  match c.tr.ckpt with
  | some k => c.setTr { c.tr with trace := k.trace, subs := k.subs }
  | none => c.setTr { c.tr with trace := 0, subs := [] }

/-- A warm restart completes (R363, R373): what the cycle of detection held is discarded, Scribe has been re-tested, the last checkpoint is
loaded. -/
def Chip.warmRestart (c : Chip) (held : Nat) (a b : Bool) : Chip :=
  if c.trMode ≠ trRESTART then c
  else
    let none' := c.tr.noTriple
    let c := c.addCnt pTRESTLE K.TRESTLE_HELD_DISCARDED held
    let c := c.scribeTest a b (a && b && !none')
    let failed : Bool := !(a && b)
    if ¬ a ∧ ¬ b then (c.trHalt c.tr.cause).limpCause lcRETEST
    else
      let c := ((c.count pTRESTLE K.TRESTLE_WARM_RESTARTS).trResume).trRelease (a && b && !none')
      if failed ∧ ¬ none' then c.limpCause lcRETEST else c

/-- The start of the cluster (R363, R368), at step 11 of R351 and at a cold restart: the checkpoint area is cleared, trace records count from
0 again (R361; DEDUCED, log entry 105: with TRACE_WPTR, by which a record's place tells its number). -/
def Chip.trStart (c : Chip) (a b : Bool) : Chip :=
  let c := ((c.setTr { c.tr with ckpt := none, named := none, noTriple := false }).trResume).trPut F.TRESTLE_CKPT_STATUS_SEQ 0
  let c := c.setReg pHOST 0x150 0
  let c := c.scribeTest a b (a && b)
  if a ∧ b then c.trRelease true
  else if a ∨ b then (c.trRelease false).limpCause lcSCRIBE
  else (c.trTo trHALTED).limpCause lcSCRIBE

/-- A self-test of the exchange is due (R366): at the start, then every SELFTEST_MS. -/
def Chip.testDue (c : Chip) : Bool :=
  match c.tr.testAt with
  | none => true
  | some t => decide (t + msCycles (c.get pTRESTLE F.TRESTLE_AGREE_CFG_SELFTEST_MS) ≤ c.cycles)

/-- A self-test of the agreement exchange (R366): it fails where the majority lost against a forced sample. -/
def Chip.agreeTest (c : Chip) (won : SampleTest) : Chip :=
  if c.trMode = trTRIPLE ∧ c.trIs F.TRESTLE_AGREE_CFG_EXCH_EN ∧ c.testDue then
    let c := c.setTr { c.tr with testAt := some c.cycles }
    if won.tc0 && won.tc1 && won.tc2 then c
    else (c.count pTRESTLE K.TRESTLE_AGREE_SELFTEST_FAIL).trPut F.TRESTLE_TR_STATUS_FALLBACK_INPUTS 1
  else c

/-- What the scrubber, or a read, finds in the cluster's memories (R374). -/
def Chip.trMemory (c : Chip) (area : TrMem) (ecc : EccResult) : Chip :=
  if c.trMode = trOFF then c
  else match ecc with
    | .good => c
    | .corrected => c.count pTRESTLE K.TRESTLE_MEM_CORR
    | .uncorrectable =>
      let c := c.count pTRESTLE K.TRESTLE_MEM_UNCORR
      match area with
      | .inactiveBank => c.setTr { c.tr with bankBad := true }
      | .activeBank => (c.mlogAdd mkMEM 0 0 0).trHalt mkMEM
      | .checkpoint => if c.trMode = trRESTART then (c.mlogAdd mkMEM 0 0 0).trHalt mkMEM
          else if c.trRuns then ((c.mlogAdd mkMEM 0 0 0).trRestart mkMEM).trName none else c
      | .data => if c.trRuns then ((c.mlogAdd mkMEM 0 0 0).trRestart mkMEM).trName none else c

/-! ## Split and rejoin (R376 to R378) -/

def Chip.trBegin (c : Chip) (kind : Nat) (byFw : Bool) : Chip :=
  (c.setTr { c.tr with work := some ⟨kind, c.cycles, none, byFw⟩ }).trPut F.TRESTLE_TR_CMD_STATUS_BUSY 1

/-- A split is requested; it answers whether it was accepted. -/
def Chip.trSplit (c : Chip) (byFw : Bool) : Chip × Bool :=
  if c.tr.work.isNone ∧ (c.mode = modeRun ∨ c.mode = modeService) ∧ c.trMode = trTRIPLE ∧ c.trIs F.TRESTLE_TR_STATUS_TRIPLE_AVAIL then
    (c.trBegin 1 byFw, true)
  else (c.put pTRESTLE F.TRESTLE_TR_CMD_STATUS_RESULT tcSTATE, false)

/-- A rejoin without activation is requested; one by TR_CMD ends what firmware prepared. -/
def Chip.trRejoin (c : Chip) (byFw : Bool) : Chip :=
  if c.tr.work.isNone ∧ c.trMode = trPAIR ∧ c.trIs F.TRESTLE_TR_STATUS_SPLIT then (if byFw then c else c.prepLost).trBegin 2 byFw
  else c.put pTRESTLE F.TRESTLE_TR_CMD_STATUS_RESULT tcSTATE

/-- HALT: in SERVICE alone (R363). -/
def Chip.trHaltCmd (c : Chip) : Chip :=
  if c.mode = modeService ∧ c.trMode ≠ trOFF then ((c.mlogAdd mkHALT 0 0 0).trHalt mkHALT).put pTRESTLE F.TRESTLE_TR_CMD_STATUS_RESULT tcOK
  else c.put pTRESTLE F.TRESTLE_TR_CMD_STATUS_RESULT tcSTATE

/-- TR_CMD (R380): a wrong key, or a command handled; other codes are ignored. -/
def Chip.trCmd (c : Chip) (cmd key : Nat) : Chip :=
  let d := c.trPut F.TRESTLE_TR_CMD_STATUS_SEQ (c.get pTRESTLE F.TRESTLE_TR_CMD_STATUS_SEQ + 1)
  if key % 65536 ≠ 0x5452 then d.put pTRESTLE F.TRESTLE_TR_CMD_STATUS_RESULT tcKEY
  else match cmd with
    | 1 => (d.trSplit false).1
    | 2 => d.trRejoin false
    | 3 => d.trHaltCmd
    | _ => c

def Chip.trCmdWrite (c : Chip) (req : Requester) (cmd key : Nat) : Chip :=
  c.command req pTRESTLE 0x144 (BitVec.ofNat 32 (cmd + 65536 * key)) fun c => c.trCmd cmd key

/-- Firmware is at a hand-over point; a split waits for the end of a resynchronisation, and at an activation the control plane's services
stop from here on (R379). -/
def Chip.handover (c : Chip) : Chip :=
  match c.tr.work with
  | some w => if w.handover.isNone ∧ ¬ c.trIs F.TRESTLE_TR_STATUS_RESYNC then c.setTr { c.tr with work := some { w with handover := some c.cycles }, paused := decide (w.kind = 3) } else c
  | none => c

/-- No hand-over point within HANDOVER_TMO_MS. -/
def Chip.handoverTimeout (c : Chip) : Chip :=
  match c.tr.work with
  | some w =>
    if w.kind = 1 ∧ w.handover.isNone ∧ w.since + msCycles (c.get pTRESTLE F.TRESTLE_SPLIT_CFG_HANDOVER_TMO_MS) ≤ c.cycles then c.trEnd tcTIMEOUT else c
  | none => c

/-- The work of a kind has passed its hand-over point and a checkpoint boundary. -/
def Chip.trAtBoundary (c : Chip) (kind : Nat) : Bool :=
  match c.tr.work with
  | some w => decide (w.kind = kind) && (match w.handover with | some h => decide (h ≤ c.tr.ckptAt) | none => false)
  | none => false

/-- The spare leg is detached. -/
def Chip.splitDone (c : Chip) : Chip :=
  if c.trAtBoundary 1 ∧ c.trMode = trTRIPLE ∧ ¬ c.trIs F.TRESTLE_TR_STATUS_RESYNC then
    let c := (c.trPut F.TRESTLE_TR_STATUS_SPLIT 1).trPut F.TRESTLE_TR_STATUS_SPARE_LEG (c.get pTRESTLE F.TRESTLE_SPLIT_CFG_SPARE_LEG)
    let c := ((c.trPut F.TRESTLE_TR_STATUS_PAIR_CHECKER 0).trEnd tcOK).trTo trPAIR
    (c.count pTRESTLE K.TRESTLE_SPLITS).raise pTRESTLE E.TRESTLE_SPLIT_DONE
  else c

/-- The spare leg is back: TRIPLE. -/
def Chip.trJoined (c : Chip) : Chip :=
  let c := ((c.trPut F.TRESTLE_TR_STATUS_SPLIT 0).trPut F.TRESTLE_TR_STATUS_SPARE_LEG 0).trTo trTRIPLE
  (c.count pTRESTLE K.TRESTLE_REJOINS).raise pTRESTLE E.TRESTLE_REJOIN_DONE

/-- A rejoin without activation completes: the resynchronisation that began at its checkpoint boundary ends. -/
def Chip.rejoinDone (c : Chip) : Chip :=
  if c.trAtBoundary 2 ∧ c.trMode = trPAIR then
    let c := ((c.setTr { c.tr with odd := none }).trEnd tcOK).trPut F.TRESTLE_TR_STATUS_RESYNC 0
    c.trJoined.count pTRESTLE K.TRESTLE_RESYNCS
  else c

/-- The spare leg writes where it may not (R377). -/
def Chip.spareViolation (c : Chip) : Chip :=
  if c.trMode = trPAIR ∧ c.trIs F.TRESTLE_TR_STATUS_SPLIT then
    let leg := c.get pTRESTLE F.TRESTLE_TR_STATUS_SPARE_LEG
    let c := ((c.count pTRESTLE K.TRESTLE_SPARE_VIOLATION).mlogAdd mkSPARE leg 0 0).trEnd tcABANDONED
    let c := c.prepLost
    (c.trPut F.TRESTLE_TR_STATUS_SPLIT 0).setTr { c.tr with violated := some c.cycles }
  else c

/-- The checks of a TRESTLE commit (R381). -/
def Chip.validateTrestle (c : Chip) : Nat × Nat :=
  let leg := c.staged pTRESTLE F.TRESTLE_SPLIT_CFG_SPARE_LEG
  firstBad [
    (decide (leg = 3), rsnRange, 1),
    (decide (c.staged pTRESTLE F.TRESTLE_SPLIT_CFG_HANDOVER_TMO_MS = 0), rsnRange, 2),
    (decide (c.staged pTRESTLE F.TRESTLE_AGREE_CFG_SELFTEST_MS = 0), rsnRange, 3),
    (decide (leg ≠ c.get pTRESTLE F.TRESTLE_SPLIT_CFG_SPARE_LEG) && c.trIs F.TRESTLE_TR_STATUS_SPLIT, rsnInvalid, 4)]

/-- The safe point of a GO commit: a checkpoint boundary after the request entered WAIT_SAFE. -/
def Chip.safeTrestle (c : Chip) (since : Nat) : Bool := decide (since ≤ c.tr.ckptAt)

/-! ## Meanings -/

/-- HEARTBEAT (R358): a write of firmware; any other requester's is logged. -/
def execHeartbeat (dt : Nat) (req : Requester) (value : Word) (s : State) : Host.Outcome State Fault Refusal :=
  .next (s.run dt fun c => c.fwWrite req 0x14C value Chip.heartbeat)

/-- FW_STOPPED (R358). -/
def execFwStopped (dt : Nat) (s : State) : Host.Outcome State Fault Refusal := .next (s.run dt Chip.fwStopped)

/-- CHECKPOINT (R359). -/
def execCheckpoint (dt : Nat) (req : Requester) (seq : Nat) (s : State) : Host.Outcome State Fault Refusal :=
  .next (s.run dt fun c => c.fwWrite req 0x150 (BitVec.ofNat 32 seq) fun c => c.checkpoint seq)

/-- ECHO (R360): a doorbell with code 1. -/
def execEcho (dt : Nat) (req : Requester) (seq : Nat) (s : State) : Host.Outcome State Fault Refusal :=
  .next (s.run dt fun c => c.mbxWrite req seq 1)

/-- VERSION (R360). -/
def execVersion (dt : Nat) (req : Requester) (seq : Nat) (s : State) : Host.Outcome State Fault Refusal :=
  .next (s.run dt fun c => c.mbxWrite req seq 2)

/-- HEALTH (R360). -/
def execHealth (dt : Nat) (req : Requester) (seq : Nat) (s : State) : Host.Outcome State Fault Refusal :=
  .next (s.run dt fun c => c.mbxWrite req seq 3)

/-- TRACE_LEVEL (R360). -/
def execTraceLevel (dt : Nat) (req : Requester) (seq : Nat) (s : State) : Host.Outcome State Fault Refusal :=
  .next (s.run dt fun c => c.mbxWrite req seq 4)

/-- CHECKPOINT_NOW (R360). -/
def execCheckpointNow (dt : Nat) (req : Requester) (seq : Nat) (s : State) : Host.Outcome State Fault Refusal :=
  .next (s.run dt fun c => c.mbxWrite req seq 5)

/-- UNKNOWN_SERVICE (R360): a doorbell with another code; codes 1 to 5 are the other rows'. -/
def execUnknownService (dt : Nat) (req : Requester) (seq service : Nat) (s : State) : Host.Outcome State Fault Refusal :=
  .next (s.run dt fun c => c.mbxWrite req seq (if 1 ≤ service % 256 ∧ service % 256 ≤ 5 then 0 else service))

/-- RSP_ACK (R360, R264). -/
def execRspAck (dt : Nat) (req : Requester) (seq : Nat) (s : State) : Host.Outcome State Fault Refusal :=
  .next (s.run dt fun c => c.command req pTRESTLE 0x2C4 (BitVec.ofNat 32 seq) fun c => c.rspAck req seq)

/-- MISMATCH (R369, R370): the outputs of the legs in a cycle, as copy A and copy B of Scribe see them. -/
def execMismatch (dt : Nat) (a b : LegOutputs) (s : State) : Host.Outcome State Fault Refusal :=
  .next (s.run dt fun c => c.scribeCycle a b)

/-- RESYNC_DONE (R369). -/
def execResyncDone (dt : Nat) (s : State) : Host.Outcome State Fault Refusal := .next (s.run dt Chip.resyncDone)

/-- CHECKER_FAULT (R372). -/
def execCheckerFault (dt : Nat) (parity : Bool) (leg scribe group : Nat) (s : State) : Host.Outcome State Fault Refusal :=
  .next (s.run dt fun c => c.checkerFault parity leg scribe group)

/-- WARM_RESTART (R373). -/
def execWarmRestart (dt held : Nat) (a b : ScribeTest) (s : State) : Host.Outcome State Fault Refusal :=
  .next (s.run dt fun c => c.warmRestart held (scribePasses a b) (scribePasses b a))

/-- AGREE_SELFTEST (R366). -/
def execAgreeSelftest (dt : Nat) (won : SampleTest) (s : State) : Host.Outcome State Fault Refusal := .next (s.run dt fun c => c.agreeTest won)

/-- MEMORY_SCRUB (R374). -/
def execMemoryScrub (dt : Nat) (area : TrMem) (ecc : EccResult) (s : State) : Host.Outcome State Fault Refusal :=
  .next (s.run dt fun c => c.trMemory area ecc)

/-- SPLIT (R376): a write of TR_CMD. -/
def execSplit (dt : Nat) (req : Requester) (key : Nat) (s : State) : Host.Outcome State Fault Refusal :=
  .next (s.run dt fun c => c.trCmdWrite req 1 key)

/-- HANDOVER_POINT (R376). -/
def execHandoverPoint (dt : Nat) (s : State) : Host.Outcome State Fault Refusal := .next (s.run dt Chip.handover)

/-- HANDOVER_TIMEOUT (R376). -/
def execHandoverTimeout (dt : Nat) (s : State) : Host.Outcome State Fault Refusal := .next (s.run dt Chip.handoverTimeout)

/-- SPLIT_DONE (R376). -/
def execSplitDone (dt : Nat) (s : State) : Host.Outcome State Fault Refusal := .next (s.run dt Chip.splitDone)

/-- SPARE_VIOLATION (R377). -/
def execSpareViolation (dt : Nat) (s : State) : Host.Outcome State Fault Refusal := .next (s.run dt Chip.spareViolation)

/-- REJOIN (R378): a write of TR_CMD. -/
def execRejoin (dt : Nat) (req : Requester) (key : Nat) (s : State) : Host.Outcome State Fault Refusal :=
  .next (s.run dt fun c => c.trCmdWrite req 2 key)

/-- REJOIN_DONE (R378). -/
def execRejoinDone (dt : Nat) (s : State) : Host.Outcome State Fault Refusal := .next (s.run dt Chip.rejoinDone)

/-- HALT (R363): a write of TR_CMD. -/
def execHalt (dt : Nat) (req : Requester) (key : Nat) (s : State) : Host.Outcome State Fault Refusal :=
  .next (s.run dt fun c => c.trCmdWrite req 3 key)

/-- MLOG_ACK (R264). -/
def execMlogAck (dt : Nat) (req : Requester) (seq : Nat) (s : State) : Host.Outcome State Fault Refusal :=
  .next (s.run dt fun c => c.command req pTRESTLE 0x17C (BitVec.ofNat 32 seq) fun c => c.mlogAck seq)

end Sys2Proof.Machine
end

