-- ==== Sys2Proof/Machine/Flash.lean ====
section
/-! DEFINITION. The boot flash and OTP (R341 to R347, R355 to R357, R386): cells, directory, images, XMEM, OTP commands. -/
namespace Sys2Proof.Machine

open Sys2Proof

/-! ## Cells: an unlisted one reads as erased -/

def flashByte (m : List Host.Cell) (a : Nat) : Byte := lookupD 0xFF m a

/-- `n` bytes from `a` on. -/
def flashRead (m : List Host.Cell) (a n : Nat) : List Byte := (List.range n).map fun i => flashByte m (a + i)

/-- Bytes programmed from `a` on: as on any NOR device a bit only goes from 1 to 0 (PRESUMED, log entry 51). -/
def flashProgram : List Host.Cell → Nat → List Byte → List Host.Cell
  | m, _, [] => m
  | m, a, b :: bs => flashProgram (store 0xFF m a (flashByte m a &&& b)) (a + 1) bs

/-- `n` bytes from `a` on erased. -/
def flashErase (m : List Host.Cell) (a n : Nat) : List Host.Cell := keepKeys (fun k => decide (k < a ∨ a + n ≤ k)) m

/-- Bytes set from `a` on, whatever was there. -/
def flashWrite (m : List Host.Cell) (a : Nat) (bs : List Byte) : List Host.Cell := flashProgram (flashErase m a bs.length) a bs

def Ext.program (x : Ext) (a : Nat) (bs : List Byte) : Ext := { x with flash := flashProgram x.flash a bs }
def Ext.eraseFlash (x : Ext) (a n : Nat) : Ext := { x with flash := flashErase x.flash a n }
def Ext.read (x : Ext) (a n : Nat) : List Byte := flashRead x.flash a n

/-- `n` bytes that the spec leaves open. -/
def Chip.freeBytes (c : Chip) (n : Nat) : List Byte × Chip :=
  ((List.range n).map fun i => BitVec.ofNat 8 (Config.freeWord (c.free + i)).toNat, { c with free := c.free + n })

/-! ## OTP (R357, R386) -/

/-- Bits set in a word; none is ever cleared. -/
def Ext.burn (x : Ext) (i : Nat) (bits : Word) : Ext := { x with otp := store 0 x.otp i (x.otpWord i ||| bits) }

/-- Words of OTP as bytes, byte 0 in bits [7:0]. -/
def Ext.otpBytes (x : Ext) (first n : Nat) : List Byte := ((List.range n).map fun i => leBytes 4 (x.otpWord (first + i)).toNat).flatten

def Ext.configLock (x : Ext) : Bool := (x.otpWord 33).toNat.testBit 0
def Ext.ownerLock (x : Ext) : Bool := (x.otpWord 33).toNat.testBit 1
def Ext.enrolled (x : Ext) : Bool := (x.otpWord 34).toNat.testBit 1

/-- The 1 bits in SECURITY_VERSION. -/
def Ext.thermCount (x : Ext) : Nat := ((List.range 8).map fun i => popCount (x.otpWord (25 + i)).toNat 32).sum

/-- A burn of the thermometer to `v` (R409): bits 0 to v − 1. -/
def Ext.burnTherm (x : Ext) (v : Nat) : Ext :=
  if v ≤ x.thermCount then x
  else (List.range 8).foldl (fun (x : Ext) i => x.burn (25 + i) (BitVec.ofNat 32 (2 ^ min 32 (v - 32 * i) - 1))) x

/-- A word closed to OTP_CMD PROGRAM. -/
def Ext.otpClosed (x : Ext) (i : Nat) : Bool :=
  if i = 0 then x.configLock
  else if 13 ≤ i ∧ i ≤ 24 then x.ownerLock
  else if i = 33 ∨ i = 34 then false
  else if 35 ≤ i ∧ i ≤ 46 then x.enrolled
  else true

/-! ## The directory (R343 to R345) -/

abbrev rgHELPER : Nat := 0
abbrev rgSLOTA : Nat := 1
abbrev rgSLOTB : Nat := 2
abbrev rgSTAGING : Nat := 3
abbrev rgPRIMARY : Nat := 4
abbrev rgFALLBACK : Nat := 5
abbrev rgJOURNAL : Nat := 6

def BootDir.region (d : BootDir) (i : Nat) : Nat × Nat := d.regions.getD i (0, 0)

/-- The regions are aligned, within the capacity, clear of the directory copies and of each other; one of size 0 is absent. -/
def regionsOk (rs : List (Nat × Nat)) (capacity : Nat) : Bool :=
  let used := rs.filter fun r => decide (r.2 ≠ 0)
  (used.all fun r => decide (r.1 % 65536 = 0 ∧ 0x20000 ≤ r.1 ∧ r.1 + r.2 ≤ capacity))
    && (List.range used.length).all fun i => (List.range i).all fun j =>
      let a := used.getD i (0, 0); let b := used.getD j (0, 0)
      decide (a.1 + a.2 ≤ b.1 ∨ b.1 + b.2 ≤ a.1)

def crcBytes (bs : List Byte) : Nat := crc32 (bs.map fun b => b.toNat)

/-- A copy of the directory, when it is valid. -/
def parseDir (m : List Host.Cell) (copy capacity : Nat) : Option BootDir :=
  let b := flashRead m (copy * 0x10000) 256
  let rs := (List.range 8).map fun i => (leAt b (16 + 8 * i) 4, leAt b (20 + 8 * i) 4)
  if leAt b 0 4 = 0x444E4449 ∧ leAt b 8 4 = 1 ∧ crcBytes (b.take 252) = leAt b 252 4 ∧ regionsOk rs capacity then
    some { copy := copy, seq := leAt b 4 4, regions := rs, active := leAt b 0x50 4 % 2, trial := (leAt b 0x54 4).testBit 0, left := leAt b 0x54 4 / 16 % 16 }
  else none

/-- The copy that the boot ROM chooses; copies of which neither is later count as the first (DESIGN CHOICE, log entry 52). -/
def chooseDir (m : List Host.Cell) (capacity : Nat) : Option BootDir :=
  match parseDir m 0 capacity, parseDir m 1 capacity with
  | some a, some b => let d := (b.seq + 2 ^ 32 - a.seq) % 2 ^ 32; if 1 ≤ d ∧ d < 2 ^ 31 then some b else some a
  | some a, none => some a
  | none, b => b

/-- A directory copy written: the copy not chosen, SEQ one above; every other byte as in the chosen copy (DEDUCED, log entry 52). -/
def writeDir (x : Ext) (d : BootDir) (active : Nat) (trial : Bool) (left : Nat) : Ext × BootDir :=
  let seq := (d.seq + 1) % 2 ^ 32
  let b := x.read (d.copy * 0x10000) 252
  let b := setBytes b 4 (leBytes 4 seq)
  let b := setBytes (setBytes b 0x50 (leBytes 4 active)) 0x54 (leBytes 4 (trial.toNat + 16 * left))
  let at' := (1 - d.copy) * 0x10000
  let x := (x.eraseFlash at' 4096).program at' (b ++ leBytes 4 (crcBytes b))
  (x, { d with copy := 1 - d.copy, seq := seq, active := active, trial := trial, left := left })

/-! ## Images (R346, R347) -/

/-- The header at an address, as it stands. -/
def headAt (m : List Host.Cell) (a : Nat) : ImgHead :=
  let b := flashRead m a 0x538
  { magic := leAt b 0 4, ver := leAt b 4 4, kind := leAt b 8 4, secVer := leAt b 12 4, release := leAt b 16 4, count := leAt b 20 4
    total := leAt b 24 4
    segs := (List.range (min 16 (leAt b 20 4))).map fun i =>
      let e := 0x40 + 64 * i
      { type := leAt b e 4, target := leAt b (e + 4) 4, off := leAt b (e + 8) 4, len := leAt b (e + 12) 4, digest := (b.drop (e + 16)).take 48 }
    covered := b.take 0x440, meas := (b.drop 0x440).take 48, pub := (b.drop 0x470).take 97, sig := (b.drop 0x4D8).take 96 }

/-- The limit of a segment's type for a kind; 0 for a type that the kind does not have. -/
def segLimit (kind type : Nat) : Nat :=
  match kind, type with
  | 1, 1 => 0x100000
  | 1, 2 => 0x100000
  | 2, 16 => 0x40000
  | 2, 17 => 0x100000
  | 2, 18 => 0x80000
  | _, _ => 0

/-- The fields that R347 judges; SEC_VER is not among them. -/
def ImgHead.formatOk (h : ImgHead) : Bool :=
  decide (h.magic = 0x444E4B31 ∧ h.ver = 1 ∧ (h.kind = 1 ∨ h.kind = 2) ∧ 1 ≤ h.count ∧ h.count ≤ 16)
    && h.segs.all fun s => decide (segLimit h.kind s.type ≠ 0 ∧ s.len ≤ segLimit h.kind s.type)

/-- The OTP key hash for a kind: the vendor's for firmware, and for settings while the owner's is unprogrammed. -/
def Ext.keyHash (x : Ext) (kind : Nat) : List Byte :=
  let owner := x.otpBytes 13 12
  if kind = 1 ∨ owner.all (fun b => decide (b = 0)) then x.otpBytes 1 12 else owner

def ImgHead.keyOk (h : ImgHead) (x : Ext) : Bool := decide (Config.sha384 h.pub = x.keyHash h.kind)

/-- MEAS_DIGEST is the digest of what it covers, and the signature over it verifies. -/
def ImgHead.sigOk (h : ImgHead) : Bool := decide (h.meas = Config.sha384 h.covered) && Config.ecdsaVerify h.pub h.meas h.sig

def ImgHead.rollback (h : ImgHead) (x : Ext) : Bool := decide (h.kind = 1 ∧ h.secVer < x.thermCount)

/-- The boot ROM accepts the header, of a kind. -/
def ImgHead.accepted (h : ImgHead) (x : Ext) (kind : Nat) : Bool :=
  decide (h.kind = kind) && h.formatOk && h.keyOk x && h.sigOk && !h.rollback x

/-- The digest of a segment of an image at `base` matches. -/
def segOk (m : List Host.Cell) (base : Nat) (s : Segment) : Bool := decide (Config.sha384 (flashRead m (base + s.off) s.len) = s.digest)

def ImgHead.has (h : ImgHead) (type : Nat) : Bool := h.segs.any fun s => decide (s.type = type)

/-! ## XMEM (R336, R355, R401) -/

/-- The capacity in bytes that XSPI_STATUS shows. -/
def Chip.flashSize (c : Chip) : Nat := if c.is pXMEM F.XMEM_XSPI_STATUS_READY then 2 ^ (20 + c.get pXMEM F.XMEM_XSPI_STATUS_CAP) else 0

def within (a n : Nat) (r : Nat × Nat) : Bool := decide (a < r.1 + r.2 ∧ r.1 < a + n)

/-- The region that a target of the staged image names: 0 the slot that is not ACTIVE, 1 and 2 the settings. -/
def BootDir.target (d : BootDir) (t : Nat) : Nat × Nat :=
  d.region (if t = 1 then rgPRIMARY else if t = 2 then rgFALLBACK else if d.active = 0 then rgSLOTB else rgSLOTA)

/-- A range that the update stage protects. -/
def Chip.flashProtected (c : Chip) (a n : Nat) : Bool :=
  match c.boot.dir with
  | none => false
  | some d =>
    let st := c.stage
    decide (st = usARMED ∨ st = usPREPARING ∨ st = usREADY)
      && (within a n (d.region rgSTAGING) || within a n (d.target (if st = usARMED then c.get pUPD F.UPD_STAGED_INFO_ARM_TARGET else 0)))

abbrev flOK : Nat := 0
abbrev flPROTECTED : Nat := 1
abbrev flPF : Nat := 2
abbrev flRANGE : Nat := 3
abbrev flALIGN : Nat := 4
abbrev flDEVICE : Nat := 5

/-- In SERVICE or BOOT_FAIL. -/
def Chip.serviceOrFail (c : Chip) : Bool := decide (c.mode = modeService) || c.bootFail

/-- What a START finds: the result that refuses it, 0 when it is carried out. -/
def Chip.flCheck (c : Chip) (req : Requester) (cmd a n : Nat) : Nat :=
  let pf : Bool := c.is pCINCH F.CINCH_CINCH_STATUS_PF_ACTIVE
  if ¬ c.is pXMEM F.XMEM_XSPI_STATUS_READY then flDEVICE
  else if (cmd ≤ 2 ∧ (n = 0 ∨ 256 < n)) ∨ c.flashSize < a + n then flRANGE
  else if cmd = 1 then flOK
  else if (cmd = 2 ∧ 256 < a % 256 + n) ∨ (2 < cmd ∧ a % n ≠ 0) then flALIGN
  else if (reqSide req = 0 ∧ ¬ c.serviceOrFail) ∨ c.flashProtected a n then flPROTECTED
  else if pf ∧ (2 < cmd ∨ c.pwr.pfBudget < n) then flPF
  else flOK

/-- A write of FL_CMD with START. -/
def Chip.flStart (c : Chip) (req : Requester) (cmd : Nat) : Chip :=
  if cmd = 0 ∨ 4 < cmd then c
  else
    let k := fun off => c.regAt (sideKey pXMEM off (reqSide req))
    let a := bitsAt (k 0x144) 0 30
    let n := if cmd = 3 then 4096 else if cmd = 4 then 65536 else bitsAt (k 0x148) 0 9
    let r := c.flCheck req cmd a n
    let data := if cmd = 2 then ((List.range 64).map fun i => leBytes 4 (k (0x200 + 4 * i)).toNat).flatten.take n else []
    let pf : Bool := c.is pCINCH F.CINCH_CINCH_STATUS_PF_ACTIVE
    let c := if pf ∧ r = flOK ∧ cmd = 2 then c.setPwr { c.pwr with pfBudget := c.pwr.pfBudget - n } else c
    let c := if pf ∧ (c.pwr.pfBudget = 0 ∨ r = flPF) then c.put pXMEM F.XMEM_XSPI_STATUS_PF_BLOCK 1 else c
    let first : Bool := c.flOps.isEmpty
    let op : FlashOp := { side := reqSide req, cmd := cmd, addr := a, len := n, data := data, result := r, at' := c.cycles, judged := pf || first }
    let c := { c with flOps := c.flOps ++ [op] }
    let st := sideKey pXMEM 0x150 (reqSide req)
    c.setRegAt st (putBits (c.regAt st) 0 1 1)

def Chip.flWrite (c : Chip) (req : Requester) (cmd : Nat) : Chip :=
  c.command req pXMEM 0x14C (BitVec.ofNat 32 (cmd + 2 ^ 31)) fun c => c.flStart req cmd

/-- The stage that the first word of STAGING shows (R400). -/
def stagedOrEmpty (x : Ext) (d : BootDir) : Nat := if leAt (x.read (d.region rgSTAGING).1 4) 0 4 = 0x444E4B31 then usSTAGED else usEMPTY

/-- A completed program or erase in STAGING (R401, R403). -/
def Chip.stagingWritten (c : Chip) (x : Ext) (a n : Nat) : Chip :=
  match c.boot.dir with
  | none => c
  | some d =>
    let st := c.stage
    if within a n (d.region rgSTAGING) ∧ (st = usEMPTY ∨ st = usSTAGED ∨ st = usVERIFIED ∨ st = usREJECTED) then
      let c := (c.setStage (stagedOrEmpty x d)).setReg pUPD 0x150 0
      let c := (List.range 12).foldl (fun (c : Chip) i => c.setReg pUPD (0x160 + 4 * i) 0) (c.setReg pUPD 0x154 0)
      { c with upd := { c.upd with image := none } }
    else c

/-- A program (`erased` false) or an erase reaches the settings journal (R349): a fence block programmed over fails its tag, as do the
records of a half; what is erased is gone. -/
def Chip.journalTouched (c : Chip) (x : Ext) (a n : Nat) (erased : Bool) : Ext :=
  match c.boot.dir with
  | none => x
  | some d =>
    let r := d.region rgJOURNAL
    let hit := fun (f : FenceBlock) => within a n (r.1 + 0x8000 * f.block, 0x8000)
    let fs := if erased then x.fences.filter fun f => !hit f else x.fences.map fun f => if hit f then { f with key := [] } else f
    let half := fun (h : JournalHalf) => within a n (r.1 + 0x10000 + 0x38000 * h.half, 0x38000)
    let hs := if erased then x.journal.filter fun (h : JournalHalf) => !half h
      else x.journal.map fun (h : JournalHalf) => if half h then { h with recs := h.recs.map fun (k : JournalRec) => { k with key := [] } } else h
    let life := if within a n (r.1 + 0x10000, r.2 - 0x10000) then (if erased then none else x.life.map fun (l : LifeSaved) => { l with keys := [] }) else x.life
    { x with fences := fs, journal := hs, life := life }

/-- What an operation does to the memory, and to the buffer of its side. -/
def Chip.flAct (c : Chip) (x : Ext) (o : FlashOp) : Chip × Ext :=
  match o.cmd with
  | 1 =>
    let bs := x.read o.addr o.len
    let put := fun (a : Chip × Nat) (b : Byte) =>
      let k := sideKey pXMEM (0x200 + a.2 / 4 * 4) o.side
      (a.1.setRegAt k (putBits (a.1.regAt k) (8 * (a.2 % 4)) 8 b.toNat), a.2 + 1)
    ((bs.foldl put (c, 0)).1.count pXMEM K.XMEM_READS, x)
  | 2 =>
    let x := c.journalTouched (x.program o.addr o.data) o.addr o.len false
    ((c.count pXMEM K.XMEM_PROGRAMS).stagingWritten x o.addr o.len, x)
  | _ =>
    let x := c.journalTouched (x.eraseFlash o.addr o.len) o.addr o.len true
    ((c.count pXMEM K.XMEM_ERASES).stagingWritten x o.addr o.len, x)

/-- The next operation begins. The one that was in progress when PF_ACTIVE rose is completed; one that waited behind it is judged as it
begins: an erase is refused, a program is charged to the 4 KiB (R336; DEDUCED, log entry 137). -/
def Chip.flBegin (c : Chip) : Chip :=
  match c.flOps with
  | [] => c
  | o :: os =>
    if o.judged then c
    else
      let refused : Bool := c.is pCINCH F.CINCH_CINCH_STATUS_PF_ACTIVE && decide (o.result = flOK) && (decide (2 < o.cmd) || decide (o.cmd = 2 ∧ c.pwr.pfBudget < o.len))
      let charged : Bool := c.is pCINCH F.CINCH_CINCH_STATUS_PF_ACTIVE && decide (o.result = flOK ∧ o.cmd = 2) && !refused
      let d : Chip := { c with flOps := { o with judged := true, result := if refused then flPF else o.result } :: os }
      let d := if charged then d.setPwr { d.pwr with pfBudget := d.pwr.pfBudget - o.len } else d
      if refused ∨ (charged ∧ d.pwr.pfBudget = 0) then d.put pXMEM F.XMEM_XSPI_STATUS_PF_BLOCK 1 else d

/-- The oldest operation ends: BUSY falls when its side has no other. -/
def Chip.flEnd (c : Chip) (o : FlashOp) (result : Nat) : Chip :=
  let c := { c with flOps := c.flOps.drop 1 }.flBegin
  let st := sideKey pXMEM 0x150 o.side
  let busy := c.flOps.any fun (p : FlashOp) => decide (p.side = o.side)
  let w := c.regAt st
  let c := c.setRegAt st (BitVec.ofNat 32 (busy.toNat + 16 * result + 65536 * ((bitsAt w 16 16 + 1) % 65536)))
  let c := c.raise pXMEM E.XMEM_FL_DONE
  if result = flOK then c
  else
    let c := c.raise pXMEM E.XMEM_FL_ERR
    if result = flPROTECTED then c.count pXMEM K.XMEM_PROTECTED else if result = flPF then c.count pXMEM K.XMEM_PF_REFUSED
    else if result = flDEVICE then c.count pXMEM K.XMEM_DEVICE_ERR else c

/-- The memory reports an error in the middle of an operation: what it was writing holds free values. -/
def Chip.flBroken (c : Chip) (x : Ext) (o : FlashOp) : Chip × Ext :=
  if o.cmd = 1 then (c.flEnd o flDEVICE, x)
  else
    let (bs, c) := c.freeBytes o.len
    let x := x.program o.addr (if o.cmd = 2 then (bs.zip o.data).map fun e => e.1 ||| e.2 else bs)
    let x := c.journalTouched x o.addr o.len (decide (2 < o.cmd))
    ((c.stagingWritten x o.addr o.len).flEnd o flDEVICE, x)

/-- The oldest operation finishes; `ok` is false when the memory reports an error. -/
def Chip.flDone (c : Chip) (x : Ext) (ok : Bool) : Chip × Ext :=
  match c.flOps with
  | [] => (c, x)
  | o :: _ =>
    if o.result ≠ flOK then (c.flEnd o o.result, x)
    else if ok then let r := c.flAct x o; (r.1.flEnd o flOK, r.2)
    else c.flBroken x o

/-- An erase not finished within 5 s. -/
def Chip.flTimeout (c : Chip) (x : Ext) : Chip × Ext :=
  match c.flOps with
  | o :: _ => if 2 < o.cmd ∧ o.result = flOK ∧ o.at' + secCycles 5 ≤ c.cycles then c.flBroken x o else (c, x)
  | [] => (c, x)

/-! ## OTP commands (R356) -/

def Chip.otpEnd (c : Chip) (result : Nat) : Chip :=
  let c := (c.put pBOOT F.BOOT_OTP_STATUS_BUSY 0).put pBOOT F.BOOT_OTP_STATUS_RESULT result
  ({ c with otpOp := none }.put pBOOT F.BOOT_OTP_STATUS_SEQ (c.get pBOOT F.BOOT_OTP_STATUS_SEQ + 1)).raise pBOOT E.BOOT_OTP_DONE

/-- A write of OTP_CMD; one while a command is in progress is ignored. -/
def Chip.otpStart (c : Chip) (x : Ext) (cmd key : Nat) : Chip :=
  let a := c.get pBOOT F.BOOT_OTP_ADDR_A
  if c.otpOp.isSome ∨ cmd = 0 ∨ 2 < cmd then c
  else if key % 65536 ≠ 0x4F54 then c.otpEnd 1
  else if ¬ c.serviceOrFail then c.otpEnd 2
  else if cmd = 2 ∧ x.otpClosed a then c.otpEnd 3
  else { c.put pBOOT F.BOOT_OTP_STATUS_BUSY 1 with otpOp := some ⟨cmd, a, c.reg pBOOT 0x1C4⟩ }

def Chip.otpWrite (c : Chip) (x : Ext) (req : Requester) (cmd key : Nat) : Chip :=
  c.command req pBOOT 0x1C8 (BitVec.ofNat 32 (cmd + 65536 * key)) fun c => c.otpStart x cmd key

/-- An OTP word whose ECC fails (R386, R397). -/
def Chip.otpFault (c : Chip) (i : Nat) : Chip := if 1 ≤ i ∧ i ≤ 46 then c.quarantine 4 false else c

/-- An OTP command finishes: `ok` is false when a READ meets an uncorrectable error, or when the read-back of a PROGRAM differs; then
free values stand for what was read and for the bits that took. -/
def Chip.otpDone (c : Chip) (x : Ext) (ok : Bool) : Chip × Ext :=
  match c.otpOp with
  | none => (c, x)
  | some o =>
    if o.cmd = 1 then
      if ok then ((c.setReg pBOOT 0x1D0 (x.otpWord o.addr)).otpEnd 0, x)
      else
        let (v, c) := c.takeFree
        (((c.setReg pBOOT 0x1D0 (BitVec.ofNat 32 v)).otpEnd 0).otpFault o.addr, x)
    else if ok then (c.otpEnd 0, x.burn o.addr o.data)
    else
      let (v, c) := c.takeFree
      (c.otpEnd 4, x.burn o.addr (o.data &&& BitVec.ofNat 32 v))

/-! ## Meanings -/

/-- FL_READ (R355): a START. -/
def execFlRead (dt : Nat) (req : Requester) (s : State) : Host.Outcome State Fault Refusal := .next (s.run dt fun c => c.flWrite req 1)

/-- FL_PROGRAM (R355). -/
def execFlProgram (dt : Nat) (req : Requester) (s : State) : Host.Outcome State Fault Refusal := .next (s.run dt fun c => c.flWrite req 2)

/-- ERASE_4K (R355). -/
def execErase4k (dt : Nat) (req : Requester) (s : State) : Host.Outcome State Fault Refusal := .next (s.run dt fun c => c.flWrite req 3)

/-- ERASE_64K (R355). -/
def execErase64k (dt : Nat) (req : Requester) (s : State) : Host.Outcome State Fault Refusal := .next (s.run dt fun c => c.flWrite req 4)

/-- FL_DONE (R355). -/
def execFlDone (dt : Nat) (ok : Bool) (s : State) : Host.Outcome State Fault Refusal := .next (s.runExt dt fun c x => c.flDone x ok)

/-- FL_ERASE_TIMEOUT (R355). -/
def execFlEraseTimeout (dt : Nat) (s : State) : Host.Outcome State Fault Refusal := .next (s.runExt dt fun c x => c.flTimeout x)

/-- OTP_READ (R356): a write of OTP_CMD. -/
def execOtpRead (dt : Nat) (req : Requester) (key : Nat) (s : State) : Host.Outcome State Fault Refusal :=
  .next (s.run dt fun c => c.otpWrite s.ext req 1 key)

/-- OTP_PROGRAM (R356): a write of OTP_CMD. -/
def execOtpProgram (dt : Nat) (req : Requester) (key : Nat) (s : State) : Host.Outcome State Fault Refusal :=
  .next (s.run dt fun c => c.otpWrite s.ext req 2 key)

/-- OTP_DONE (R356). -/
def execOtpDone (dt : Nat) (ok : Bool) (s : State) : Host.Outcome State Fault Refusal := .next (s.runExt dt fun c x => c.otpDone x ok)

end Sys2Proof.Machine
end

