-- ==== Sys2Proof/Machine/Prisil.lean ====
section
/-! DEFINITION. Prisil (chapter 16): root, measurements, derivation tree, key slots, operations, enrolment, faults. -/
namespace Sys2Proof.Machine

open Sys2Proof

/-! ## The derivation tree (R387, R388) -/

def ascii (s : String) : List Byte := s.toList.map fun ch => BitVec.ofNat 8 ch.toNat

/-- KDF of R387: the first 256 bits. -/
def kdf (parent label ctx : List Byte) : List Byte :=
  (Config.hmac384 parent (beBytes 4 1 ++ label ++ [0] ++ ctx ++ beBytes 4 256)).take 32

/-- M_rom over given words 25 to 32 of OTP. -/
def romMeasure (x : Ext) (therm : List Byte) : List Byte :=
  Config.sha384 (leBytes 4 Config.romVersion.toNat ++ x.otpBytes 0 25 ++ therm ++ x.otpBytes 33 1)

/-- The thermometer of words 25 to 32 with `v` bits, as bytes. -/
def thermBytes (v : Nat) : List Byte := leBytes 32 (2 ^ v - 1)

/-- The value of branch ROM, FW or ALL (0, 1, 2) for given measurements. -/
def branchOf (root : List Byte) (which : Nat) (m : Successor) : List Byte :=
  match which with
  | 0 => kdf root (ascii "STOTEN/ROM") m.rom
  | 1 => kdf root (ascii "STOTEN/FW") (m.rom ++ m.fw)
  | _ => kdf root (ascii "STOTEN/ALL") (m.rom ++ m.fw ++ m.set)

/-- The present measurements (R352). -/
def Chip.measured (c : Chip) : Successor := ⟨c.boot.rom, c.boot.fw, c.boot.set⟩

/-! ## Slots (R389 to R393) -/

abbrev slEMPTY : Nat := 0
abbrev slLIVE : Nat := 1
abbrev slINVALID : Nat := 2

abbrev poDERIVE : Nat := 0
abbrev poSEAL : Nat := 1
abbrev poMAC : Nat := 2
abbrev poHOST : Nat := 4
abbrev poUNSEAL : Nat := 5

def SlotRt.may (s : SlotRt) (bit : Nat) : Bool := s.policy.testBit bit

/-- The context of a slot's derivation: POLICY byte, PROT byte. -/
def slotCtx (policy : Nat) (checked : Bool) : List Byte := [BitVec.ofNat 8 policy, BitVec.ofNat 8 checked.toNat]

/-- The journal key goes into slot 0 (R383 step 4, R389). -/
def Chip.deriveJournal (c : Chip) : Chip :=
  match c.root with
  | none => c
  | some r => c.setSlot 0 { state := slLIVE, policy := 4, kind := 1
                            value := kdf (branchOf r 0 c.measured) (ascii "STOTEN/JOURNAL") (slotCtx 4 false) }

/-- A slot's memory fails (R392, R393): an uncorrectable share, or the integrity tag; a burst of share faults ends in QUARANTINE
(R397). -/
def Chip.slotFault (c : Chip) (i : Nat) : Chip :=
  let s := c.slot i
  if s.state ≠ slLIVE then c
  else
    let c := (c.setSlot i { s with state := slINVALID }).raise pPRISIL E.PRISIL_SLOT_FAULT
    if s.checked then c.count pPRISIL K.PRISIL_CHECK_FAIL
    else
      let fs := (c.shareFaults.filter fun f => decide (c.cycles ≤ f.2 + secCycles 1)) ++ [(i, c.cycles)]
      let c := { c.count pPRISIL K.PRISIL_SHARE_FAULT with shareFaults := fs }
      if 3 ≤ (fs.map fun f => f.1).eraseDups.length ∨ 3 ≤ (fs.filter fun f => decide (f.1 = i)).length then c.quarantine 3 false else c

/-- REMASK (R392, R393): the scan of every slot; `faults` names those whose memory fails. -/
def Chip.remask (c : Chip) (faults : List Nat) : Chip := faults.foldl (fun (c : Chip) i => c.slotFault i) c

/-- A glitch detected (R397). -/
def Chip.glitch (c : Chip) : Chip :=
  if c.dark then c
  else ((c.count pPRISIL K.PRISIL_GLITCH).raise pPRISIL E.PRISIL_GLITCH).quarantine 2 false

/-! ## Results (R399) -/

abbrev prOK : Nat := 0
abbrev prBUSY : Nat := 1
abbrev prEMPTY : Nat := 2
abbrev prPOLICY : Nat := 3
abbrev prNOTREADY : Nat := 4
abbrev prTAGFAIL : Nat := 5
abbrev prRANGE : Nat := 6
abbrev prWITHHELD : Nat := 7
abbrev prINVALID : Nat := 8
abbrev prNOSUCC : Nat := 9
abbrev prREQUESTER : Nat := 10
abbrev prNOROOT : Nat := 11
abbrev prKEY : Nat := 12
abbrev prMODE : Nat := 13

/-! ## One side's registers -/

def Chip.pReg (c : Chip) (side off : Nat) : Word := c.regAt (sideKey pPRISIL off side)
def Chip.pGet (c : Chip) (side : Nat) (f : Fld) : Nat := bitsAt (c.pReg side f.off) f.lo f.width

/-- `n` bytes from a register on. -/
def Chip.pBytes (c : Chip) (side off n : Nat) : List Byte :=
  ((List.range ((n + 3) / 4)).map fun i => leBytes 4 (c.pReg side (off + 4 * i)).toNat).flatten.take n

/-- Bytes put from a register on, whole words and the low bytes of the last. -/
def Chip.pPut (c : Chip) (side off : Nat) (bs : List Byte) : Chip :=
  (List.range ((bs.length + 3) / 4)).foldl (fun (c : Chip) i =>
    let k := sideKey pPRISIL (off + 4 * i) side
    let part := (bs.drop (4 * i)).take 4
    c.setRegAt k (putBits (c.regAt k) 0 (8 * part.length) (leAt part 0 part.length))) c

/-! ## Operations (R391) -/

/-- The policy refuses a request. -/
def Chip.policyRefused (c : Chip) : Chip × Nat := (c.count pPRISIL K.PRISIL_POLICY_REFUSED, prPOLICY)

/-- The parent of a DERIVE: its value with the child's limits, or the result that refuses it. -/
def Chip.deriveParent (c : Chip) (root : List Byte) (kind parent : Nat) : Except Nat (List Byte × Bool) :=
  match kind with
  | 0 =>
    let s := c.slot parent
    if s.state = slEMPTY then .error prEMPTY else if s.state = slINVALID then .error prINVALID
    else if ¬ s.may poDERIVE then .error prPOLICY else .ok (s.value, s.may poHOST)
  | 1 => .ok (branchOf root 0 c.measured, true)
  | 2 => if c.is pPRISIL F.PRISIL_STATUS_P_BRANCH_FW then .ok (branchOf root 1 c.measured, true) else .error prNOTREADY
  | 3 => if c.is pPRISIL F.PRISIL_STATUS_P_BRANCH_FW then .ok (branchOf root 2 c.measured, true) else .error prNOTREADY
  | _ => match c.succ with
    | none => .error prNOTREADY
    | some m => .ok (branchOf root (kind - 4) m, true)

/-- The result of a refused DERIVE; only one by a policy is counted. -/
def Chip.deriveRefused (c : Chip) (e : Nat) : Chip × Nat := if e = prPOLICY then c.policyRefused else (c, e)

/-- DERIVE. -/
def Chip.opDerive (c : Chip) (root : List Byte) (side slot parent kind : Nat) (checked : Bool) : Chip × Nat :=
  let policy := c.pGet side F.PRISIL_CMD_ARG_POLICY
  let n := c.pGet side F.PRISIL_CMD_ARG_LABEL_LEN
  if kind = 7 ∨ 64 ≤ policy ∨ n = 0 ∨ 32 < n ∨ (c.slot slot).state ≠ slEMPTY then (c, prRANGE)
  else match c.deriveParent root kind parent with
    | .error e => c.deriveRefused e
    | .ok (key, host) =>
      if policy.testBit poHOST ∧ ¬ host then c.policyRefused
      else
        let s : SlotRt := { state := slLIVE, checked := checked, successor := decide (4 ≤ kind), policy := policy, kind := kind
                            parent := if kind = 0 then parent else 0
                            value := kdf key (c.pBytes side 0x170 n) (slotCtx policy checked) }
        ((c.setSlot slot s).count pPRISIL K.PRISIL_DERIVES, prOK)

/-- What refuses the use of a slot for SEAL, UNSEAL or MAC: 0 when nothing does. -/
def Chip.useRefused (c : Chip) (side slot op : Nat) : Nat :=
  let s := c.slot slot
  if 512 < c.pGet side F.PRISIL_CMD_ARG_LEN ∨ (op ≠ 5 ∧ c.pGet side F.PRISIL_CMD_ARG_LEN < c.pGet side F.PRISIL_CMD_ARG2_AAD_LEN) then prRANGE
  else if s.state = slEMPTY then prEMPTY
  else if s.state = slINVALID then prINVALID
  else if side = 0 ∧ ¬ s.may poHOST then prPOLICY
  else if op = 5 then (if s.may poMAC then prOK else prPOLICY)
  else if ¬ s.may poSEAL ∨ (op = 3 ∧ s.may poUNSEAL) then prPOLICY
  else prOK

/-- SEAL: the nonce is drawn from the random source (free values). -/
def Chip.opSeal (c : Chip) (side slot : Nat) : Chip × Nat :=
  let n := c.pGet side F.PRISIL_CMD_ARG_LEN
  let a := c.pGet side F.PRISIL_CMD_ARG2_AAD_LEN
  let buf := c.pBytes side 0x400 n
  let (nonce, c) := c.freeBytes 12
  let r := Config.gcmSeal (c.slot slot).value nonce (buf.take a) (buf.drop a)
  let c := ((c.pPut side 0x1F4 nonce).pPut side 0x400 (buf.take a ++ (r.1.take (n - a)))).pPut side 0x200 (r.2.take 16)
  (c.count pPRISIL K.PRISIL_SEALS, prOK)

/-- UNSEAL; a failed tag zeroes the buffer. -/
def Chip.opUnseal (c : Chip) (side slot : Nat) : Chip × Nat :=
  let n := c.pGet side F.PRISIL_CMD_ARG_LEN
  let a := c.pGet side F.PRISIL_CMD_ARG2_AAD_LEN
  let buf := c.pBytes side 0x400 n
  match Config.gcmOpen (c.slot slot).value (c.pBytes side 0x1F4 12) (buf.take a) (buf.drop a) (c.pBytes side 0x200 16) with
  | some p => (c.pPut side 0x400 (buf.take a ++ p.take (n - a)), prOK)
  | none => ((c.pPut side 0x400 (List.replicate 512 0)).count pPRISIL K.PRISIL_UNSEAL_TAG_FAIL, prTAGFAIL)

/-- MAC. -/
def Chip.opMac (c : Chip) (side slot : Nat) : Chip × Nat :=
  (c.pPut side 0x210 ((Config.hmac384 (c.slot slot).value (c.pBytes side 0x400 (c.pGet side F.PRISIL_CMD_ARG_LEN))).take 48), prOK)

/-- DECLARE_SUCCESSOR (R394): the image reported as verified in STAGING decides. -/
def Chip.opDeclare (c : Chip) (x : Ext) (side : Nat) : Chip × Nat :=
  let f : Fld → Bool := fun fl => decide (c.pGet side fl = 1)
  let v := c.pGet side F.PRISIL_CMD_ARG2_SUCC_SECVER
  let fw := c.pBytes side 0x190 48
  let set := c.pBytes side 0x1C0 48
  let image := if c.stage = usVERIFIED ∨ c.stage = usARMED ∨ c.stage = usPREPARING ∨ c.stage = usREADY then c.upd.image else none
  let isImage : Nat → List Byte → Bool := fun kind m => match image with | some h => decide (h.kind = kind ∧ h.meas = m) | none => false
  let secOk : Bool := match image with | some h => decide (h.kind ≠ 1 ∨ v ≤ h.secVer) | none => true
  if (f F.PRISIL_CMD_ARG2_SUCC_FW ∧ ¬ isImage 1 fw) ∨ (f F.PRISIL_CMD_ARG2_SUCC_SET ∧ ¬ isImage 2 set)
      ∨ (f F.PRISIL_CMD_ARG2_SUCC_ROM ∧ (v < x.thermCount ∨ (f F.PRISIL_CMD_ARG2_SUCC_FW ∧ ¬ secOk))) then (c, prNOSUCC)
  else
    let m : Successor := ⟨if f F.PRISIL_CMD_ARG2_SUCC_ROM then romMeasure x (thermBytes v) else c.boot.rom,
      if f F.PRISIL_CMD_ARG2_SUCC_FW then fw else c.boot.fw, if f F.PRISIL_CMD_ARG2_SUCC_SET then set else c.boot.set⟩
    ({ c with succ := some m }.put pPRISIL F.PRISIL_STATUS_P_SUCC_DECLARED 1, prOK)

/-- WITHDRAW_SUCCESSOR. -/
def Chip.opWithdraw (c : Chip) : Chip × Nat := ({ c with succ := none }.put pPRISIL F.PRISIL_STATUS_P_SUCC_DECLARED 0, prOK)

/-- The slot that an operation uses as a key. -/
def usedSlot (w : Word) : Option Nat :=
  let op := bitsAt w 0 4
  if op = 1 then (if bitsAt w 16 3 = 0 then some (bitsAt w 10 6) else none)
  else if 3 ≤ op ∧ op ≤ 5 then some (bitsAt w 4 6) else none

/-- An operation's effect and result; `fault` when the memory of the slot that it uses fails. What its side may not request uses no
slot. -/
def Chip.opRun (c : Chip) (x : Ext) (root : List Byte) (req : Requester) (w : Word) (fault : Bool) : Chip × Nat :=
  let side := reqSide req
  let op := bitsAt w 0 4
  let slot := bitsAt w 4 6
  if op = 0 ∨ 7 < op then (c, prRANGE)
  else if (op ≤ 2 ∨ 6 ≤ op) ∧ side = 0 then (c, prREQUESTER)
  else if op ≤ 2 ∧ slot = 0 ∧ req ≠ .bootRom then (c, prREQUESTER)
  else
  let c := if fault then match usedSlot w with | some i => c.slotFault i | none => c else c
  if 3 ≤ op ∧ op ≤ 5 ∧ c.useRefused side slot op ≠ prOK then
    (if c.useRefused side slot op = prPOLICY then c.policyRefused else (c, c.useRefused side slot op))
  else match op with
    | 1 => c.opDerive root side slot (bitsAt w 10 6) (bitsAt w 16 3) ((bitsAt w 19 1) == 1)
    | 2 => (c.setSlot slot {}, prOK)
    | 3 => c.opSeal side slot
    | 4 => c.opUnseal side slot
    | 5 => c.opMac side slot
    | 6 => c.opDeclare x side
    | _ => c.opWithdraw

/-- Enrolment (R385): its effect and result. -/
def Chip.enrolRun (c : Chip) (x : Ext) (req : Requester) (key : Nat) : Chip × Ext × Nat :=
  if reqSide req ≠ 0 then (c, x, prREQUESTER)
  else if key ≠ 0x454E then (c, x, prKEY)
  else if x.enrolled ∨ c.mode ≠ modeBoot then (c, x, prMODE)
  else match c.boot.dir with
    | none => (c, x, prRANGE)
    | some d =>
      let r := d.region rgHELPER
      if r.2 = 0 then (c, x, prRANGE)
      else
        let h := (Config.enrolment c.free ++ List.replicate 16384 0).take 16384
        let m := flashWrite (flashWrite x.flash r.1 h) (r.1 + 0x10000) h
        let hash := Config.sha384 h
        let x : Ext := (List.range 12).foldl (fun (x : Ext) i => x.burn (35 + i) (BitVec.ofNat 32 (leAt hash (4 * i) 4))) { x with flash := m }
        let c := { c with free := c.free + 1, root := none }
        ((c.put pPRISIL F.PRISIL_STATUS_P_ENROLLED 1).put pPRISIL F.PRISIL_STATUS_P_ROOT 0, x.burn 34 2, prOK)

/-- A request is taken: BUSY of its side, or RESULT BUSY while the side has one in progress. -/
def Chip.opStart (c : Chip) (o : PrisilOp) : Chip :=
  let st := sideKey pPRISIL 0x16C (reqSide o.req)
  let w := c.regAt st
  if bitsAt w 0 1 = 1 then c.setRegAt st (putBits w 4 4 prBUSY)
  else { c with prisilOps := c.prisilOps ++ [o] }.setRegAt st (putBits w 0 1 1)

/-- A write of CMD: only one with START starts anything. -/
def Chip.prisilCmd (c : Chip) (req : Requester) (w : Word) : Chip :=
  if bitsAt w 31 1 = 0 then c else c.opStart { cmd := some w, req := req, withheld := c.is pPRISIL F.PRISIL_STATUS_P_WITHHELD }

/-- A write of ENROL. -/
def Chip.prisilEnrol (c : Chip) (req : Requester) (key : Nat) : Chip :=
  c.opStart { cmd := none, key := key, req := req, withheld := c.is pPRISIL F.PRISIL_STATUS_P_WITHHELD }

/-- The end of an operation: BUSY, RESULT, SEQ of its side, CMD_DONE. -/
def Chip.opEnd (c : Chip) (o : PrisilOp) (result : Nat) : Chip :=
  let st := sideKey pPRISIL 0x16C (reqSide o.req)
  let w := c.regAt st
  ({ c with prisilOps := c.prisilOps.drop 1 }.setRegAt st
    (BitVec.ofNat 32 (16 * result + 65536 * ((bitsAt w 16 16 + 1) % 65536)))).raise pPRISIL E.PRISIL_CMD_DONE

/-- CMD_DONE: the oldest operation executes and ends. -/
def Chip.opDone (c : Chip) (x : Ext) (fault : Bool) : Chip × Ext :=
  match c.prisilOps with
  | [] => (c, x)
  | o :: _ =>
    if o.withheld then (c.opEnd o prWITHHELD, x)
    else match o.cmd with
      | none => let r := c.enrolRun x o.req o.key; (r.1.opEnd o r.2.2, r.2.1)
      | some w => match c.root with
        | none => (c.opEnd o prNOROOT, x)
        | some root => let r := c.opRun x root o.req w fault; (r.1.opEnd o r.2, x)

/-! ## Regeneration of the root (R383, R384) -/

/-- A copy of the helper data. -/
def helperCopy (x : Ext) (d : BootDir) (i : Nat) : List Byte := x.read ((d.region rgHELPER).1 + 0x10000 * i) 16384

/-- The SHA-384 of the root that a copy holds, its last part (DESIGN CHOICE, log entry 128: the copy's last 48 bytes). -/
def helperRootHash (h : List Byte) : List Byte := h.drop 16336

/-- Steps 2 to 4 with one copy: it is authentic, its code decodes, the candidate root has the copy's root hash. -/
def tryHelper (x : Ext) (h grain : List Byte) : Option (List Byte) :=
  if Config.sha384 h = x.otpBytes 35 12 then (Config.regenerate grain h).filter fun r => decide (Config.sha384 r = helperRootHash h)
  else none

/-- The root is READY from a copy: FLIP, PUF_MARGIN, slot 0. -/
def Chip.rootReady (c : Chip) (copy : Nat) (root h grain : List Byte) : Chip :=
  let flip := Config.flipped grain h
  let c := ((c.put pPRISIL F.PRISIL_STATUS_P_ROOT 2).put pPRISIL F.PRISIL_STATUS_P_HELPER_COPY copy).put pPRISIL F.PRISIL_STATUS_P_FLIP (min flip 255)
  let c := if 100 < flip then c.raise pPRISIL E.PRISIL_PUF_MARGIN else c
  { c with root := some root }.deriveJournal

/-- Step 6 of R351: Grain is read and the root regenerated. An unenrolled device has no root (DEDUCED, log entry 60). -/
def Chip.rootStep (c : Chip) (x : Ext) (grain : List Byte) : Chip :=
  let c := { c.put pPRISIL F.PRISIL_STATUS_P_ENROLLED x.enrolled.toNat with
             boot := { c.boot with rom := romMeasure x (x.otpBytes 25 8) }, root := none }
  match x.enrolled, c.boot.dir with
  | true, some d =>
    match tryHelper x (helperCopy x d 0) grain with
    | some r => c.rootReady 0 r (helperCopy x d 0) grain
    | none =>
      let c := (c.count pPRISIL K.PRISIL_ROOT_RETRY).raise pPRISIL E.PRISIL_HELPER_COPY_BAD
      match tryHelper x (helperCopy x d 1) grain with
      | some r => c.rootReady 1 r (helperCopy x d 1) grain
      | none =>
        let c := (c.put pPRISIL F.PRISIL_STATUS_P_ROOT 3).raise pPRISIL E.PRISIL_ROOT_FAIL
        if (x.otpWord 34).toNat.testBit 0 then c.quarantine 1 false else c
  | true, none => (c.put pPRISIL F.PRISIL_STATUS_P_ROOT 3).raise pPRISIL E.PRISIL_ROOT_FAIL
  | false, _ => c

/-! ## What SLOT_INFO and SLOT_MAP read as (R399) -/

def Chip.slotInfo (c : Chip) : Word :=
  let s := c.slot (c.get pPRISIL F.PRISIL_SLOT_SEL_V)
  BitVec.ofNat 32 (s.state + 4 * s.checked.toNat + 8 * s.successor.toNat + 256 * s.policy + 65536 * s.kind + 2 ^ 24 * s.parent)

def Chip.slotMap (c : Chip) (half : Nat) : Word :=
  BitVec.ofNat 32 (((List.range 32).map fun i => if (c.slot (32 * half + i)).state = slLIVE then 2 ^ i else 0).sum)

/-! ## Meanings -/

/-- The word of CMD. -/
def cmdWord (op slot parent kind : Nat) (checked : Bool) : Word :=
  BitVec.ofNat 32 (op + 16 * (slot % 64) + 1024 * (parent % 64) + 65536 * (kind % 8) + 2 ^ 19 * checked.toNat + 2 ^ 31)

def Chip.cmdWrite (c : Chip) (req : Requester) (w : Word) : Chip := c.command req pPRISIL 0x160 w fun c => c.prisilCmd req w

/-- DERIVE (R391): the start of the operation. -/
def execDerive (dt : Nat) (req : Requester) (slot parent kind : Nat) (checked : Bool) (s : State) : Host.Outcome State Fault Refusal :=
  .next (s.run dt fun c => c.cmdWrite req (cmdWord 1 slot parent kind checked))

/-- CLEAR (R391). -/
def execClear (dt : Nat) (req : Requester) (slot : Nat) (s : State) : Host.Outcome State Fault Refusal :=
  .next (s.run dt fun c => c.cmdWrite req (cmdWord 2 slot 0 0 false))

/-- SEAL (R391). -/
def execSeal (dt : Nat) (req : Requester) (slot : Nat) (s : State) : Host.Outcome State Fault Refusal :=
  .next (s.run dt fun c => c.cmdWrite req (cmdWord 3 slot 0 0 false))

/-- UNSEAL (R391). -/
def execUnseal (dt : Nat) (req : Requester) (slot : Nat) (s : State) : Host.Outcome State Fault Refusal :=
  .next (s.run dt fun c => c.cmdWrite req (cmdWord 4 slot 0 0 false))

/-- MAC (R391). -/
def execMac (dt : Nat) (req : Requester) (slot : Nat) (s : State) : Host.Outcome State Fault Refusal :=
  .next (s.run dt fun c => c.cmdWrite req (cmdWord 5 slot 0 0 false))

/-- DECLARE_SUCCESSOR (R394). -/
def execDeclareSuccessor (dt : Nat) (req : Requester) (s : State) : Host.Outcome State Fault Refusal :=
  .next (s.run dt fun c => c.cmdWrite req (cmdWord 6 0 0 0 false))

/-- WITHDRAW_SUCCESSOR (R394). -/
def execWithdrawSuccessor (dt : Nat) (req : Requester) (s : State) : Host.Outcome State Fault Refusal :=
  .next (s.run dt fun c => c.cmdWrite req (cmdWord 7 0 0 0 false))

/-- ENROL (R385): the start of enrolment. -/
def execEnrol (dt : Nat) (req : Requester) (key : Nat) (s : State) : Host.Outcome State Fault Refusal :=
  .next (s.run dt fun c => c.command req pPRISIL 0x1F0 (BitVec.ofNat 32 key) fun c => c.prisilEnrol req (key % 65536))

/-- CMD_DONE (R391, R385). -/
def execCmdDone (dt : Nat) (fault : Bool) (s : State) : Host.Outcome State Fault Refusal := .next (s.runExt dt fun c x => c.opDone x fault)

/-- REMASK (R392, R393). -/
def execRemask (dt : Nat) (faults : List Nat) (s : State) : Host.Outcome State Fault Refusal := .next (s.run dt fun c => c.remask faults)

/-- GLITCH (R397). -/
def execGlitch (dt : Nat) (s : State) : Host.Outcome State Fault Refusal := .next (s.run dt fun c => c.glitch)

end Sys2Proof.Machine
end

