-- ==== Sys2Proof/Machine/Journal.lean ====
section
/-! DEFINITION. The fence blocks of the settings journal (R208, R349, R396), which firmware writes and the boot ROM reads. -/
namespace Sys2Proof.Machine

open Sys2Proof

/-- The FENCED and RETIRED entries as a fence block keeps them. -/
def Chip.fenceEntries (c : Chip) : List FenceEntry :=
  (c.units.filter fun (e : Nat × UnitRt) => decide (uFENCED ≤ e.2.state)).map fun e =>
    ⟨e.1, [c.tword pUNITS 0 e.1 0, c.tword pUNITS 0 e.1 1, c.tword pUNITS 0 e.1 2], e.2.state, e.2.incarnation, e.2.peer⟩

/-- The block that verifies under a key and has the higher generation (R349). -/
def Ext.fenceBlock (x : Ext) (key : List Byte) : Option FenceBlock :=
  if key = [] then none
  else (x.fences.filter fun f => decide (f.key = key)).foldl (fun (a : Option FenceBlock) f => match a with
    | some g => if g.gen < f.gen then some f else some g
    | none => some f) none

/-- A non-erased block fails its tag. -/
def Ext.fenceTorn (x : Ext) (key : List Byte) : Bool := key = [] && !x.fences.isEmpty || x.fences.any fun f => decide (f.key ≠ key)

/-- The memory answers and the directory names the region of the journal. -/
def Chip.journalThere (c : Chip) : Bool :=
  c.is pXMEM F.XMEM_XSPI_STATUS_READY && (match c.boot.dir with | some d => decide (0x10000 ≤ (d.region rgJOURNAL).2) | none => false)

/-- Firmware can write the journal: it runs, the journal is there, no power failure. -/
def Chip.journalOpen (c : Chip) : Bool := c.fwRuns && c.journalThere && !c.is pCINCH F.CINCH_CINCH_STATUS_PF_ACTIVE

/-- The journal key in slot 0; none where it is not LIVE. -/
def Chip.journalKey (c : Chip) : List Byte := if (c.slot 0).state = slLIVE then (c.slot 0).value else []

/-- Firmware rewrites the block not in use, one generation higher, under a key. -/
def Chip.writeFence (c : Chip) (x : Ext) (key : List Byte) : Ext :=
  if key = [] ∨ c.journalKey = [] ∨ ¬ c.journalOpen then x
  else
    let (b, g) := match x.fenceBlock c.journalKey with | some f => (1 - f.block, f.gen + 1) | none => (0, 1)
    { x with fences := (x.fences.filter fun f => decide (f.block ≠ b)) ++ [⟨b, key, g, c.fenceEntries⟩] }

/-! ## The journal halves (R208, R349) -/

/-- The half in use under a key: the one whose header verifies with the higher generation. -/
def Ext.journalHalf (x : Ext) (key : List Byte) : Option JournalHalf :=
  if key = [] then none
  else (x.journal.filter fun h => decide (h.key = key)).foldl (fun (a : Option JournalHalf) h => match a with
    | some g => if g.gen < h.gen then some h else some g
    | none => some h) none

def Ext.setHalf (x : Ext) (h : JournalHalf) : Ext := { x with journal := (x.journal.filter fun (k : JournalHalf) => decide (k.half ≠ h.half)) ++ [h] }

/-- What compaction keeps of a half under a key: of every entry the last record that names it, its tag anew. -/
def JournalHalf.kept (h : JournalHalf) (key : List Byte) : List JournalRec :=
  let good := h.recs.filter fun (r : JournalRec) => decide (r.key = h.key)
  ((good.zipIdx.filter fun (e : JournalRec × Nat) => (good.drop (e.2 + 1)).all fun (r : JournalRec) => decide (r.unit ≠ e.1.unit)).map
    fun e => { e.1 with key := key })

/-- Compaction into the erased other half, whose header is written last, one generation higher (R349, R396). -/
def Ext.compact (x : Ext) (h : JournalHalf) (key : List Byte) : Ext := x.setHalf ⟨1 - h.half, key, h.gen + 1, h.kept key⟩

/-- Firmware appends a record; where the half is full it is compacted first. The spec gives a record no size: a free value says whether the
half is full (log entry 64). -/
def Chip.journalAdd (c : Chip) (x : Ext) (r : JournalRec) : Chip × Ext :=
  if r.key = [] ∨ ¬ c.journalOpen then (c, x)
  else match x.journalHalf r.key with
    | none => (c, x.setHalf ⟨0, r.key, 1, [r]⟩)
    | some h =>
      let (v, c) := c.takeFree
      let x := if v % 2 = 1 then x.compact h r.key else x
      match x.journalHalf r.key with
      | some g => (c, x.setHalf { g with recs := g.recs ++ [r] })
      | none => (c, x)

/-- A non-erased record fails its tag, the lifetime record among them: one of the half in use, or of any half where none verifies. -/
def Ext.journalTorn (x : Ext) (key : List Byte) : Bool :=
  match x.journalHalf key with
  | some h => h.recs.any (fun (r : JournalRec) => decide (r.key ≠ key)) || x.life.any fun (l : LifeSaved) => l.keys.isEmpty
  | none => x.journal.any (fun (h : JournalHalf) => !h.recs.isEmpty) || x.life.any fun (l : LifeSaved) => !l.keys.contains key

/-- At a start firmware reads the records of the half in use: the incarnations that they hold (DEDUCED, log entry 108), JOURNAL_TRUNC. -/
def Chip.journalRestore (c : Chip) (x : Ext) : Chip :=
  let key := c.journalKey
  let recs := match x.journalHalf key with | some h => h.recs.filter fun (r : JournalRec) => decide (r.key = key) | none => []
  let c := (recs.map fun (r : JournalRec) => r.incs).flatten.foldl (fun (c : Chip) (e : Nat × Nat) => c.setUnit e.1 { c.unit e.1 with incarnation := e.2 }) c
  if x.journalTorn key then c.setReg pBOOT 0x140 (c.reg pBOOT 0x140 ||| 0x4000) else c

/-- The journal key of the next start: KDF(FWD_ROM, "STOTEN/JOURNAL") for a successor (R388, R396). -/
def Chip.nextJournalKey (c : Chip) (m : Successor) : List Byte :=
  match c.root with
  | some r => kdf (branchOf r 0 m) (ascii "STOTEN/JOURNAL") (slotCtx 4 false)
  | none => []

/-- The fence block and the journal half not in use, with the lifetime record, are written under the key of the next start. -/
def Chip.writeNext (c : Chip) (x : Ext) (key : List Byte) : Ext :=
  let x := c.writeFence x key
  if key = [] ∨ ¬ c.journalOpen then x
  else
    let x := match x.journalHalf c.journalKey with | some h => x.compact h key | none => x
    { x with life := x.life.map fun l => if l.keys.contains c.journalKey then { l with keys := l.keys ++ [key] } else l }

/-- Before SECURITY_VERSION advances to `v` firmware declares it and tags the block and the half not in use for the next start (R396, R409). -/
def Chip.retag (c : Chip) (x : Ext) (v : Nat) : Chip × Ext :=
  let m : Successor := { c.measured with rom := romMeasure x (thermBytes v) }
  if c.root.isNone then (c, x)
  else ({ c with succ := some m }.put pPRISIL F.PRISIL_STATUS_P_SUCC_DECLARED 1, c.writeNext x (c.nextJournalKey m))

/-- The boot ROM restores the entries of the block that verifies (R208, R349); a block that does not is noted. -/
def Chip.fenceApply (c : Chip) (x : Ext) : Chip :=
  let c := match x.fenceBlock c.journalKey with
    | some f =>
      f.entries.foldl (fun (c : Chip) (e : FenceEntry) =>
        let c := (List.range 3).foldl (fun (c : Chip) w => c.setTword pUNITS 0 e.unit w (e.words.getD w 0)) c
        c.setUnit e.unit { state := e.state, incarnation := e.incarnation, peer := e.peer }) c
    | none => c
  if x.fenceTorn c.journalKey then c.setReg pBOOT 0x140 (c.reg pBOOT 0x140 ||| 0x4000) else c

/-- The record of a unit command that is done: its code and its two entries with their incarnations. -/
def Chip.unitRecord (c : Chip) (v : Word) : JournalRec :=
  let u := bitsAt v 0 10
  let o := match (c.unit u).peer with | some k => k | none => u
  ⟨bitsAt v 28 4, u, o, [(u, (c.unit u).incarnation), (o, (c.unit o).incarnation)], c.journalKey⟩

/-- A unit command of REPLACE, REINSTATE, RETIRE or RELEASE that succeeds is recorded: in the fence block, and as a record of the journal. -/
def Chip.unitRecorded (c : Chip) (x : Ext) : Chip × Ext :=
  let d := c.unitDone
  match c.unitCmd with
  | some (v, _) =>
    let cmd := bitsAt v 28 4
    if 1 ≤ cmd ∧ cmd ≤ 4 ∧ d.get pUNITS F.UNITS_UNIT_CMD_STATUS_RESULT = ucOK then d.journalAdd (d.writeFence x d.journalKey) (d.unitRecord v) else (d, x)
  | none => (d, x)

/-- UNIT_CMD_DONE (R208). -/
def execUnitCmdDone (dt : Nat) (s : State) : Host.Outcome State Fault Refusal := .next (s.runExt dt fun c x => c.unitRecorded x)

end Sys2Proof.Machine
end

