-- ==== Sys2Proof/Machine/Update.lean ====
section
/-! DEFINITION. Field update and activation (chapter 17): verification, arming, preparation, activation, trial, confirmation. -/
namespace Sys2Proof.Machine

open Sys2Proof

/-! ## What the page shows of the directory and the thermometer -/

/-- TRIAL, TRIAL_LEFT and ACTIVE_SLOT are the directory's. -/
def Chip.showDir (c : Chip) (d : BootDir) : Chip :=
  let c := ((c.put pUPD F.UPD_UPD_STATUS_TRIAL d.trial.toNat).put pUPD F.UPD_UPD_STATUS_TRIAL_LEFT d.left).put pUPD F.UPD_UPD_STATUS_ACTIVE_SLOT d.active
  { c.setReg pBOOT 0x144 (BitVec.ofNat 32 d.seq) with boot := { c.boot with dir := some d } }

/-- A directory copy written by the UPD engine, firmware or the boot ROM (R345). -/
def Chip.putDir (c : Chip) (x : Ext) (d : BootDir) (active : Nat) (trial : Bool) (left : Nat) : Chip × Ext :=
  let r := writeDir x d active trial left
  (c.showDir r.2, r.1)

/-- THERM_COUNT and FW_SECVER[15:8] show the count. -/
def Chip.showTherm (c : Chip) (x : Ext) : Chip :=
  (c.put pUPD F.UPD_UPD_STATUS_THERM_COUNT x.thermCount).put pBOOT F.BOOT_FW_SECVER_COUNT x.thermCount

/-- TRIAL 0 and the running SEC_VER above the count. -/
def Chip.burnPending (c : Chip) : Bool :=
  !c.is pUPD F.UPD_UPD_STATUS_TRIAL && decide (c.get pUPD F.UPD_UPD_STATUS_THERM_COUNT < c.get pBOOT F.BOOT_FW_SECVER_SEC_VER)

/-- The release and security version of the running image. -/
def Chip.showImage (c : Chip) (h : ImgHead) : Chip :=
  { (c.setReg pBOOT 0x148 (BitVec.ofNat 32 h.release)).put pBOOT F.BOOT_FW_SECVER_SEC_VER h.secVer with boot := { c.boot with image := some h } }

/-! ## The request record (R404) -/

/-- Its place: the last sector of STAGING. -/
def recordAt (d : BootDir) : Nat := (d.region rgSTAGING).1 + (d.region rgSTAGING).2 - 4096

/-- Its bytes. -/
def recordBytes (target : Nat) (h : ImgHead) : List Byte :=
  let b := leBytes 4 0x41524D31 ++ leBytes 4 target ++ leBytes 4 h.total ++ leBytes 4 0xFFFFFFFF ++ (h.meas ++ List.replicate 48 0xFF).take 48
  let b := b ++ List.replicate (252 - b.length) 0xFF
  b ++ leBytes 4 (crcBytes b)

/-- The target of a valid record that matches the STAGING header. -/
def recordTarget (x : Ext) (d : BootDir) : Option Nat :=
  let b := x.read (recordAt d) 256
  let h := headAt x.flash (d.region rgSTAGING).1
  if (d.region rgSTAGING).2 ≠ 0 ∧ leAt b 0 4 = 0x41524D31 ∧ crcBytes (b.take 252) = leAt b 252 4 ∧ (b.drop 16).take 48 = h.meas ∧ leAt b 4 4 ≤ 2 then
    some (leAt b 4 4)
  else none

/-- The record sector erased. -/
def Ext.eraseRecord (x : Ext) (d : BootDir) : Ext := x.eraseFlash (recordAt d) 4096

/-! ## Verification (R402) -/

abbrev uvFORMAT : Nat := 1
abbrev uvLENGTH : Nat := 2
abbrev uvKEY : Nat := 3
abbrev uvSIGNATURE : Nat := 4
abbrev uvROLLBACK : Nat := 5
abbrev uvSEGMENT : Nat := 6
abbrev uvCONTENT : Nat := 7

/-- The first check that an image at `base` fails in a region of `size` bytes, 0 when it passes all. -/
def verifyImage (x : Ext) (base size : Nat) : Nat :=
  let h := headAt x.flash base
  if ¬ h.formatOk then uvFORMAT
  else if size < h.total + 4096 ∨ h.segs.any (fun s => decide (h.total < s.off + s.len)) then uvLENGTH
  else if ¬ h.keyOk x then uvKEY
  else if ¬ h.sigOk then uvSIGNATURE
  else if h.rollback x then uvROLLBACK
  else if ¬ h.segs.all (fun s => segOk x.flash base s) then uvSEGMENT
  else if (h.kind = 1 ∧ ¬ (h.has 1 ∧ h.has 2)) ∨ (h.kind = 2 ∧ ¬ (h.has 16 ∧ h.has 17)) then uvCONTENT
  else 0

/-- What the page showed of a verified image, forgotten. -/
def Chip.forgetImage (c : Chip) : Chip :=
  let c := (c.setReg pUPD 0x150 0).setReg pUPD 0x154 0
  let c := (List.range 12).foldl (fun (c : Chip) i => c.setReg pUPD (0x160 + 4 * i) 0) c
  { c with upd := { c.upd with image := none } }

/-- A verified image shown. -/
def Chip.showStaged (c : Chip) (h : ImgHead) : Chip :=
  let c := (c.put pUPD F.UPD_STAGED_INFO_KIND h.kind).put pUPD F.UPD_STAGED_INFO_SEC_VER h.secVer
  let c := (List.range 12).foldl (fun (c : Chip) i => c.setReg pUPD (0x160 + 4 * i) (BitVec.ofNat 32 (leAt h.meas (4 * i) 4)))
    (c.setReg pUPD 0x154 (BitVec.ofNat 32 h.release))
  { c with upd := { c.upd with image := some h } }

/-! ## Commands (R403, R414) -/

abbrev uqOK : Nat := 0
abbrev uqBUSY : Nat := 1
abbrev uqKEY : Nat := 2
abbrev uqSTATE : Nat := 3
abbrev uqMODE : Nat := 4
abbrev uqTRIAL : Nat := 5
abbrev uqPF : Nat := 6
abbrev uqFLASH : Nat := 7
abbrev uqFWSTOPPED : Nat := 8
abbrev uqKIND : Nat := 9

/-- A command is handled. -/
def Chip.updEnd (c : Chip) (r : Nat) : Chip :=
  let c := (c.put pUPD F.UPD_UPD_CMD_STATUS_BUSY 0).put pUPD F.UPD_UPD_CMD_STATUS_RESULT r
  { c.put pUPD F.UPD_UPD_CMD_STATUS_SEQ (c.get pUPD F.UPD_UPD_CMD_STATUS_SEQ + 1) with upd := { c.upd with cmd := none } }

/-- A command goes on until its completion. -/
def Chip.updBegin (c : Chip) (cmd target : Nat) : Chip :=
  { c.put pUPD F.UPD_UPD_CMD_STATUS_BUSY 1 with upd := { c.upd with cmd := some (cmd, target) } }

def Chip.pfActive (c : Chip) : Bool := c.is pCINCH F.CINCH_CINCH_STATUS_PF_ACTIVE

/-- TARGET agrees with KIND. -/
def Chip.kindAgrees (c : Chip) (target : Nat) : Bool :=
  match c.upd.image with
  | some h => if h.kind = 1 then decide (target = 0) else decide (target = 1 ∨ target = 2)
  | none => false

/-- `n` bytes rounded up to sectors of 64 KiB, within a region. -/
def sectorBytes (r : Nat × Nat) (n : Nat) : Nat := min r.2 ((n + 65535) / 65536 * 65536)

def Chip.runOrService (c : Chip) : Bool := decide (c.mode = modeRun ∨ c.mode = modeService)

/-- What refuses ARM_NEXT_START or PREPARE_HITLESS (in this order: DESIGN CHOICE, log entry 62), 0 when nothing does. -/
def Chip.armRefused (c : Chip) (target : Nat) (prep : Bool) : Nat :=
  if c.stage ≠ usVERIFIED then uqSTATE
  else if prep ∧ ¬ c.runOrService then uqMODE
  else if ¬ c.kindAgrees target then uqKIND
  else if prep ∧ (target ≠ 0 ∨ ¬ c.is pTRESTLE F.TRESTLE_TR_STATUS_TRIPLE_AVAIL) then uqSTATE
  else if target = 0 ∧ c.is pUPD F.UPD_UPD_STATUS_TRIAL then uqTRIAL
  else if c.pfActive then uqPF
  else 0

/-- The target region erased for the staged image. -/
def Chip.eraseTarget (c : Chip) (x : Ext) (d : BootDir) (target : Nat) : Ext :=
  let r := d.target target
  match c.upd.image with
  | some h => x.eraseFlash r.1 (sectorBytes r h.total)
  | none => x

/-- The staged image copied into a region: what lies within it. -/
def copyImage (x : Ext) (d : BootDir) (r : Nat × Nat) (total : Nat) : Ext :=
  (x.eraseFlash r.1 (sectorBytes r total)).program r.1 (x.read (d.region rgSTAGING).1 (min total r.2))

/-- The spare leg rejoins after a preparation that did not lead to an activation (R378, R403). -/
def Chip.prepRejoin (c : Chip) : Chip :=
  let c := match c.tr.work with | some w => if w.kind ≠ 2 then c.trEnd tcABANDONED else c | none => c
  if c.is pTRESTLE F.TRESTLE_TR_STATUS_SPLIT ∧ c.tr.work.isNone then c.trRejoin true else c

/-- PREPARE_HITLESS (R407): steps 1 and 2 at once; a copy whose digests fail ends it; then the split. -/
def Chip.prepHitless (c : Chip) (x : Ext) (d : BootDir) (h : ImgHead) : Chip × Ext :=
  let r := d.target 0
  let x := copyImage x d r h.total
  let c := c.setStage usPREPARING
  if h.segs.all (fun s => segOk x.flash r.1 s) then
    match c.trSplit true with
    | (c, true) => (c, x)
    | (c, false) => (c.prepLost, x)
  else (c.prepLost, x)

/-- What refuses CONFIRM (R409). -/
def Chip.confirmRefused (c : Chip) : Nat :=
  if ¬ c.is pUPD F.UPD_UPD_STATUS_TRIAL ∨ c.get pUPD F.UPD_UPD_STATUS_RUN_SLOT ≠ c.get pUPD F.UPD_UPD_STATUS_ACTIVE_SLOT
      ∨ c.stage = usPREPARING ∨ c.stage = usREADY then uqSTATE
  else if ¬ c.runOrService then uqMODE
  else if c.pfActive then uqPF
  else 0

/-- A command with the right key, none in progress. -/
def Chip.updCmd (c : Chip) (x : Ext) (cmd target : Nat) : Chip × Ext :=
  match c.boot.dir with
  | none => (c.updEnd uqSTATE, x)
  | some d =>
    match cmd with
    | 1 => if c.stage = usSTAGED ∨ c.stage = usVERIFIED ∨ c.stage = usREJECTED then ((c.setStage usVERIFYING).updBegin 1 0, x) else (c.updEnd uqSTATE, x)
    | 2 => let r := c.armRefused target false
           if r ≠ 0 then (c.updEnd r, x) else (c.updBegin 2 target, c.eraseTarget x d target)
    | 3 => if c.stage ≠ usARMED then (c.updEnd uqSTATE, x) else if c.pfActive then (c.updEnd uqPF, x) else (c.updBegin 3 0, x)
    | 4 => let r := c.armRefused target true
           match r, c.upd.image with
           | 0, some h => let p := c.prepHitless x d h; (p.1.updEnd uqOK, p.2)
           | _, _ => (c.updEnd r, x)
    | 5 => if c.stage = usPREPARING ∨ c.stage = usREADY then (((c.setStage usVERIFIED).prepRejoin).updEnd uqOK, x) else (c.updEnd uqSTATE, x)
    | 6 => if c.confirmRefused ≠ 0 then (c.updEnd c.confirmRefused, x) else (c.updBegin 6 0, x)
    | 7 => if ¬ d.trial ∨ ¬ c.live pUPD then (c.updEnd uqSTATE, x) else if c.pfActive then (c.updEnd uqPF, x)
           else let r := c.putDir x d (1 - d.active) false 0; ((r.1.raise pUPD E.UPD_REVERTED).updEnd uqOK, r.2)
    | _ => (c.updEnd uqSTATE, x)

/-- A command that changes nothing, not even the one in progress. -/
def Chip.updRefuse (c : Chip) (r : Nat) : Chip :=
  (c.put pUPD F.UPD_UPD_CMD_STATUS_RESULT r).put pUPD F.UPD_UPD_CMD_STATUS_SEQ (c.get pUPD F.UPD_UPD_CMD_STATUS_SEQ + 1)

/-- A write of UPD_CMD. -/
def Chip.updWrite (c : Chip) (x : Ext) (w : Word) : Chip × Ext :=
  if bitsAt w 16 16 ≠ 0x5550 then (c.updRefuse uqKEY, x)
  else if c.upd.cmd.isSome then (c.updRefuse uqBUSY, x)
  else c.updCmd x (bitsAt w 0 4) (bitsAt w 4 2)

/-- The same as its requester posts it: the memory changes only when the write reaches the page. -/
def Chip.updPosted (c : Chip) (x : Ext) (req : Requester) (w : Word) : Chip × Ext :=
  let reached : Bool := !c.dark && (decide (req ≠ .pcie) || c.pciePowered) && !(decide (req = .trestle) && c.fwHeld)
  (c.command req pUPD 0x144 w fun c => (c.updWrite x w).1, if reached then (c.updWrite x w).2 else x)

/-! ## Completions -/

/-- The target of the command in progress, when it is `cmd`. -/
def Chip.updTarget (c : Chip) (cmd : Nat) : Option Nat :=
  match c.upd.cmd with
  | some (n, t) => if n = cmd then some t else none
  | none => none

/-- VERIFY_DONE; `ok` is false when the memory reports an error. -/
def Chip.verifyDone (c : Chip) (x : Ext) (ok : Bool) : Chip :=
  match c.updTarget 1, c.boot.dir with
  | some _, some d =>
    if ¬ ok then ((c.forgetImage).setStage (stagedOrEmpty x d)).updEnd uqFLASH
    else
      let r := d.region rgSTAGING
      let bad := verifyImage x r.1 r.2
      let c := c.forgetImage
      let c : Chip := if bad = 0 then ((c.showStaged (headAt x.flash r.1)).setStage usVERIFIED).count pUPD K.UPD_VERIFY_OK
        else ((c.put pUPD F.UPD_STAGED_INFO_REASON bad).setStage usREJECTED).count pUPD K.UPD_VERIFY_FAIL
      (c.raise pUPD E.UPD_VERIFY_DONE).updEnd uqOK
  | _, _ => c

/-- ARM_COMPLETE: the record is written and the stage is ARMED. -/
def Chip.armComplete (c : Chip) (x : Ext) (ok : Bool) : Chip × Ext :=
  match c.updTarget 2, c.boot.dir, c.upd.image with
  | some t, some d, some h =>
    if ¬ ok then (c.updEnd uqFLASH, x)
    else if c.pfActive then (c.updEnd uqPF, x)
    else if c.stage ≠ usVERIFIED then (c.updEnd uqSTATE, x)
    else (((c.put pUPD F.UPD_STAGED_INFO_ARM_TARGET t).setStage usARMED).updEnd uqOK, (x.eraseRecord d).program (recordAt d) (recordBytes t h))
  | some _, _, _ => (c.updEnd uqSTATE, x)
  | none, _, _ => (c, x)

/-- DISARM_COMPLETE: the record sector is erased. -/
def Chip.disarmComplete (c : Chip) (x : Ext) (ok : Bool) : Chip × Ext :=
  match c.updTarget 3, c.boot.dir with
  | some _, some d =>
    if ¬ ok then (c.updEnd uqFLASH, x)
    else if c.pfActive then (c.updEnd uqPF, x)
    else (((c.put pUPD F.UPD_STAGED_INFO_ARM_TARGET 0).setStage usVERIFIED).updEnd uqOK, x.eraseRecord d)
  | _, _ => (c, x)

/-- PREP_READY: steps 3 to 5 of R407 are complete; a failed step loses the preparation. -/
def Chip.prepReady (c : Chip) (ok : Bool) : Chip :=
  if c.stage ≠ usPREPARING ∨ (ok ∧ ¬ c.fwRuns) then c
  else if ¬ ok then c.prepLost.prepRejoin
  else if c.trMode = trPAIR ∧ c.is pTRESTLE F.TRESTLE_TR_STATUS_SPLIT then
    let banks := match c.upd.image with | some h => store [] c.tr.banks (1 - c.tr.bank) h.meas | none => c.tr.banks
    ((c.setTr { c.tr with bankBad := false, banks := banks }).setStage usREADY).raise pUPD E.UPD_PREP_READY
  else c

/-- CONFIRMED (R409): firmware has acknowledged, or has not where it must. -/
def Chip.confirmed (c : Chip) (x : Ext) (ack ok : Bool) : Chip × Ext :=
  match c.updTarget 6, c.boot.dir with
  | some _, some d =>
    let v := c.get pBOOT F.BOOT_FW_SECVER_SEC_VER
    let burns : Bool := decide (x.thermCount < v)
    if burns ∧ ¬ (ack ∧ c.fwRuns) then (c.updEnd uqFWSTOPPED, x)
    else if ¬ ok then (c.updEnd uqFLASH, x)
    else if c.pfActive then (c.updEnd uqPF, x)
    else
      let (c, x) := if burns then c.retag x v else (c, x)
      let r := c.putDir x d d.active false 0
      let x := r.2.burnTherm v
      let c := r.1.showTherm x
      let c : Chip := if burns then (c.count pUPD K.UPD_BURNS).raise pUPD E.UPD_BURN_DONE else c
      ((((c.count pUPD K.UPD_CONFIRMS).raise pUPD E.UPD_CONFIRMED)).updEnd uqOK, x)
  | _, _ => (c, x)

/-- The trial image has run clean for AUTO_CONFIRM_S (R411). -/
def Chip.autoDue (c : Chip) : Bool :=
  let n := c.get pUPD F.UPD_UPD_CFG_AUTO_CONFIRM_S
  decide (n ≠ 0) && c.fwRuns && c.is pUPD F.UPD_UPD_STATUS_TRIAL && decide (c.mode = modeRun) && decide (c.trMode = trTRIPLE) && decide (c.reg pPWR 0x150 = 0)
    && decide (c.upd.cleanAt + secCycles n ≤ c.cycles)

/-- Firmware writes CONFIRM itself. -/
def Chip.autoConfirm (c : Chip) (x : Ext) : Chip × Ext :=
  if c.autoDue ∧ c.upd.cmd.isNone then c.updPosted x .trestle (BitVec.ofNat 32 (6 + 65536 * 0x5550)) else (c, x)

/-! ## Activation at a Story pole instant (R379, R406, R407) -/

/-- FW_ACTIVATE executes: METHOD and ARG of the action. -/
def Chip.fwActivate (c : Chip) (method arg : Nat) : Chip :=
  let c := (c.put pUPD F.UPD_ACT_RESULT_METHOD method).put pUPD F.UPD_ACT_RESULT_SEQ (c.get pUPD F.UPD_ACT_RESULT_SEQ + 1)
  let m := c.mode
  if arg ≠ (c.reg pUPD 0x160).toNat then c.actFailed arTAG
  else if ¬ ((method = 1 ∧ c.stage = usREADY) ∨ (method = 2 ∧ c.stage = usARMED ∧ c.get pUPD F.UPD_STAGED_INFO_ARM_TARGET = 0)) then c.actFailed arSTAGE
  else if ¬ (c.runOrService ∨ (method = 2 ∧ m = modeLimp)) then c.actFailed arMODE
  else if method = 1 then c.trBegin 3 true
  else c.deviceReset rcSW

/-- 1.4 ms have passed since the hand-over point of an activation. -/
def Chip.readyLate (c : Chip) : Bool :=
  match c.tr.work with
  | some w => decide (w.kind = 3) && (match w.handover with | some h => decide (h + usCycles 1400 ≤ c.cycles) | none => false)
  | none => false

/-- NOT_READY: no readiness within 1.4 ms of the hand-over point; the running image's services resume. -/
def Chip.notReady (c : Chip) : Chip :=
  if c.readyLate then
    let c := (c.trEnd tcNOTREADY).put pTRESTLE F.TRESTLE_TR_STATUS_SPLIT 0
    (c.setTr { c.tr with violated := some c.cycles }).fwResume
  else c

/-- SPARE_READY: the spare leg has converted the final checkpoint; all cores switch banks, unless the bank is damaged (R374)
or 1.4 ms have passed since the hand-over point. The services resume with the first heartbeat of the new image. -/
def Chip.spareReady (c : Chip) : Chip :=
  if ¬ (c.trAtBoundary 3 ∧ c.trMode = trPAIR) then c
  else if c.readyLate then c.notReady
  else if c.tr.bankBad then
    let c := (c.trEnd tcABANDONED).put pTRESTLE F.TRESTLE_TR_STATUS_SPLIT 0
    (c.setTr { c.tr with violated := some c.cycles }).fwResume
  else
    let c := ((c.trEnd tcOK).setTr { c.tr with work := none, bank := 1 - c.tr.bank, beatAt := c.cycles, paused := true }).trJoined
    let c := ((c.put pUPD F.UPD_ACT_RESULT_RESULT arDONE).setStage usSTAGED).put pUPD F.UPD_UPD_STATUS_RUN_SLOT (1 - c.get pUPD F.UPD_UPD_STATUS_RUN_SLOT)
    let c := match c.upd.image with | some h => c.showImage h | none => c
    let c := { c with upd := { c.upd with dirDue := true } }.unclean
    (c.count pUPD K.UPD_ACTIVATIONS).raise pUPD E.UPD_ACTIVATED

/-- ACTIVATION_DIRECTORY_WRITE: the new image names its slot, in trial. -/
def Chip.activationDir (c : Chip) (x : Ext) : Chip × Ext :=
  match c.upd.dirDue, c.boot.dir with
  | true, some d =>
    let r := c.putDir x d (c.get pUPD F.UPD_UPD_STATUS_RUN_SLOT) true 3
    ({ r.1 with upd := { r.1.upd with dirDue := false } }, r.2)
  | _, _ => (c, x)

/-- The checks of an UPD commit (R414). -/
def Chip.validateUpd (c : Chip) : Nat × Nat :=
  let n := c.staged pUPD F.UPD_UPD_CFG_AUTO_CONFIRM_S
  firstBad [(decide (1 ≤ n ∧ n < 60), rsnRange, 1)]

/-! ## Meanings -/

/-- The word of UPD_CMD. -/
def updWord (cmd target key : Nat) : Word := BitVec.ofNat 32 (cmd + 16 * (target % 4) + 65536 * (key % 65536))

/-- VERIFY (R402). -/
def execVerify (dt : Nat) (req : Requester) (key : Nat) (s : State) : Host.Outcome State Fault Refusal :=
  .next (s.runExt dt fun c x => c.updPosted x req (updWord 1 0 key))

/-- VERIFY_DONE (R402, R403). -/
def execVerifyDone (dt : Nat) (ok : Bool) (s : State) : Host.Outcome State Fault Refusal :=
  .next (s.runExt dt fun c x => (c.verifyDone x ok, x))

/-- ARM_NEXT_START (R404). -/
def execArmNextStart (dt : Nat) (req : Requester) (target key : Nat) (s : State) : Host.Outcome State Fault Refusal :=
  .next (s.runExt dt fun c x => c.updPosted x req (updWord 2 target key))

/-- ARM_COMPLETE (R403, R404). -/
def execArmComplete (dt : Nat) (ok : Bool) (s : State) : Host.Outcome State Fault Refusal := .next (s.runExt dt fun c x => c.armComplete x ok)

/-- DISARM (R403). -/
def execDisarm (dt : Nat) (req : Requester) (key : Nat) (s : State) : Host.Outcome State Fault Refusal :=
  .next (s.runExt dt fun c x => c.updPosted x req (updWord 3 0 key))

/-- DISARM_COMPLETE (R403). -/
def execDisarmComplete (dt : Nat) (ok : Bool) (s : State) : Host.Outcome State Fault Refusal :=
  .next (s.runExt dt fun c x => c.disarmComplete x ok)

/-- PREPARE_HITLESS (R407). -/
def execPrepareHitless (dt : Nat) (req : Requester) (target key : Nat) (s : State) : Host.Outcome State Fault Refusal :=
  .next (s.runExt dt fun c x => c.updPosted x req (updWord 4 target key))

/-- PREP_READY (R407). -/
def execPrepReady (dt : Nat) (ok : Bool) (s : State) : Host.Outcome State Fault Refusal := .next (s.run dt fun c => c.prepReady ok)

/-- CANCEL_PREP (R403). -/
def execCancelPrep (dt : Nat) (req : Requester) (key : Nat) (s : State) : Host.Outcome State Fault Refusal :=
  .next (s.runExt dt fun c x => c.updPosted x req (updWord 5 0 key))

/-- SPARE_READY (R379). -/
def execSpareReady (dt : Nat) (s : State) : Host.Outcome State Fault Refusal := .next (s.run dt Chip.spareReady)

/-- NOT_READY (R379). -/
def execNotReady (dt : Nat) (s : State) : Host.Outcome State Fault Refusal := .next (s.run dt Chip.notReady)

/-- ACTIVATION_DIRECTORY_WRITE (R407). -/
def execActivationDirectoryWrite (dt : Nat) (s : State) : Host.Outcome State Fault Refusal := .next (s.runExt dt fun c x => c.activationDir x)

/-- CONFIRM (R409). -/
def execConfirm (dt : Nat) (req : Requester) (key : Nat) (s : State) : Host.Outcome State Fault Refusal :=
  .next (s.runExt dt fun c x => c.updPosted x req (updWord 6 0 key))

/-- CONFIRMED (R409): `ack` when firmware has acknowledged. -/
def execConfirmed (dt : Nat) (ack ok : Bool) (s : State) : Host.Outcome State Fault Refusal := .next (s.runExt dt fun c x => c.confirmed x ack ok)

/-- REVERT (R411). -/
def execRevert (dt : Nat) (req : Requester) (key : Nat) (s : State) : Host.Outcome State Fault Refusal :=
  .next (s.runExt dt fun c x => c.updPosted x req (updWord 7 0 key))

/-- AUTO_CONFIRM (R411). -/
def execAutoConfirm (dt : Nat) (s : State) : Host.Outcome State Fault Refusal := .next (s.runExt dt fun c x => c.autoConfirm x)

end Sys2Proof.Machine
end

