-- ==== Sys2Proof/Machine/Health.lean ====
section
/-! DEFINITION. Counters, ageing and remaining life (chapter 18): the controls of PERF, sensors, temperature bins, lifetime record,
estimate. -/
namespace Sys2Proof.Machine

open Sys2Proof

/-! ## PERF (R415 to R417) -/

/-- Counter `i` cleared. -/
def Chip.perfClear (c : Chip) (i : Nat) : Chip := c.setCntAt (cntKey pPERF i) 0

/-- A write of CTR_SEL_i: the selection changes and the counter is cleared. -/
def Chip.writeCtrSel (c : Chip) (req : Requester) (i : Nat) (v : Word) : Chip × Nat :=
  match c.writePlain req pPERF (0x180 + 4 * (i % 32)) v with
  | (c, 0) => (c.perfClear (i % 32), 0)
  | x => x

/-- A write of PERF_CLR. -/
def Chip.perfClr (c : Chip) (mask : Nat) : Chip := (bitList mask 32).foldl (fun (c : Chip) i => c.perfClear i) c

/-- PERF_CTRL written with one of its fields changed. -/
def Chip.writePerfCtrl (c : Chip) (req : Requester) (f : Fld) (on : Bool) : Chip :=
  let v := putBits (c.reg pPERF 0x140) f.lo f.width on.toNat
  c.posted req pPERF 0x140 v fun c => c.writePlain req pPERF 0x140 v

/-! ## Sensors (R419) -/

/-- SENSE_MIN in cycles; 0 acts as 1. -/
def Chip.sensePeriod (c : Chip) : Nat := secCycles (60 * max 1 (c.get pWEAR F.WEAR_WEAR_CFG_SENSE_MIN))

/-- A sensor's drift recorded. -/
def Chip.senseOne (c : Chip) (i drift : Nat) : Chip :=
  let d := min drift 65535
  let w := c.tword pWEAR 0 i 0
  (c.setTword pWEAR 0 i 0 (BitVec.ofNat 32 (d + 65536 * max d (bitsAt w 16 16)))).setTword pWEAR 0 i 1 (BitVec.ofNat 32 c.stamp)

/-- The measurement of every sensor is due. -/
def Chip.senseDue (c : Chip) : Bool :=
  let m := c.mode
  (decide (m = modeRun) || decide (m = modeLimp) || decide (m = modeService) || decide (m = modeQuarantine))
    && c.is pWEAR F.WEAR_WEAR_CFG_SENSE_EN && decide (c.wear.senseAt + c.sensePeriod ≤ c.cycles)

/-- WEAR_SENSE: the drifts measured; one that fell inside a clock switch is discarded and repeated 1 s later. -/
def Chip.wearSense (c : Chip) (drifts : List Nat) (switched : Bool) : Chip :=
  if ¬ c.senseDue then c
  else if switched then { c with wear := { c.wear with senseAt := c.cycles + secCycles 1 - c.sensePeriod } }
  else
    let c := (List.range 24).foldl (fun (c : Chip) i => c.senseOne i (drifts.getD i 0)) c
    { c.count pWEAR 16 with wear := { c.wear with senseAt := c.cycles } }

/-! ## Temperature bins (R420) -/

/-- The bin of a reading. -/
def tempBin (t : Int) : Nat := if t < -20 then 0 else if 120 ≤ t then 15 else ((t + 30) / 10).toNat

/-- TEMP_BIN_SECOND: a whole second of core power ends. -/
def Chip.tempBinSecond (c : Chip) : Chip :=
  if c.dark ∨ c.cycles < c.wear.at' + secCycles 1 then c
  else
    { c.count pWEAR (tempBin (c.wear.peak.getD c.dieTemp)) with wear := { c.wear with at' := c.wear.at' + secCycles 1, peak := none } }

/-! ## The lifetime record (R421) -/

/-- The weight of a bin, in hundredths. -/
def binWeight (k : Nat) : Nat := [1, 1, 1, 1, 1, 1, 3, 6, 13, 26, 52, 100, 185, 332, 577, 977].getD k 0

/-- Lifetime seconds in a bin. -/
def Chip.lifeSec (c : Chip) (k : Nat) : Nat := w48Of (c.tword pWEAR 1 k 0) (c.tword pWEAR 1 k 1)

/-- A 48-bit figure put into two words of LIFE. -/
def Chip.putLife48 (c : Chip) (k word v : Nat) : Chip :=
  (c.setTword pWEAR 1 k word (BitVec.ofNat 32 (v % 2 ^ 32))).setTword pWEAR 1 k (word + 1) (BitVec.ofNat 32 (v / 2 ^ 32 % 2 ^ 16))

/-- The bins since the start added to the totals. -/
def Chip.addBins (c : Chip) : Chip :=
  let now := (List.range 16).map fun k => (c.cntAt (cntKey pWEAR k)).toNat
  let c := (List.range 16).foldl (fun (c : Chip) k => c.putLife48 k 0 (c.lifeSec k + (now.getD k 0 - c.wear.added.getD k 0))) c
  { c with wear := { c.wear with added := now } }

/-- Equivalent hours × 100 from the totals. -/
def Chip.equivalentHours (c : Chip) : Nat := ((List.range 16).map fun k => c.lifeSec k * binWeight k).sum / 3600

/-- Seconds of operating time since firmware last carried the calendar age on. -/
def Chip.lifeElapsed (c : Chip) : Nat := (c.cycles - c.wear.lifeAt) / secCycles 1

/-- Calendar age in seconds: from PROD_SEC while the time is valid, else carried on by operating time (R421). -/
def Chip.calendarSec (c : Chip) : Nat :=
  if c.timeValid then secOf c.localTime - w48Of (c.reg pWEAR 0x154) (c.reg pWEAR 0x158) else c.wear.lifeAge + c.lifeElapsed

/-- The same in whole days. -/
def Chip.calendarDays (c : Chip) : Nat := c.calendarSec / 86400

/-- Firmware carries the calendar age on to the present second. -/
def Chip.carryAge (c : Chip) : Chip :=
  { c with wear := { c.wear with lifeAge := c.calendarSec, lifeAt := c.wear.lifeAt + secCycles c.lifeElapsed } }

/-- Table LIFE brought up to date. -/
def Chip.lifeUpdate (c : Chip) (n : LifeInput) : Chip :=
  let c := c.addBins.carryAge
  let c := c.putLife48 0 4 c.equivalentHours
  let c := c.setTword pWEAR 1 0 6 (BitVec.ofNat 32 (min (c.wear.lifeAge / 86400) 65535 + 65536 * (n.history % 65536)))
  let c := ((c.setTword pWEAR 1 1 2 (BitVec.ofNat 32 (n.eraseJournal % 2 ^ 24))).setTword pWEAR 1 1 3 (BitVec.ofNat 32 (n.eraseLog % 2 ^ 24)))
  let c := c.setTword pWEAR 1 1 4 (BitVec.ofNat 32 (n.eraseOther % 2 ^ 24))
  let c := c.setTword pWEAR 1 1 5 (BitVec.ofNat 32 (n.marginPort % 32 + 65536 * (n.margin % 65536)))
  c.setTword pWEAR 1 1 6 (BitVec.ofNat 32 (n.flip % 65536))

/-- The record as it goes to the journal. -/
def Chip.lifeSaved (c : Chip) : LifeSaved :=
  { age := c.wear.lifeAge, rtc := c.rtcSec, keys := [c.journalKey]
    words := ((List.range 16).map fun k => (List.range 7).map fun w => c.tword pWEAR 1 k w).flatten
    prodLo := c.reg pWEAR 0x154, prodHi := c.reg pWEAR 0x158, armed5 := c.wear.armed5, armed1 := c.wear.armed1 }

/-- LIFE_RECORD_WRITE: firmware writes the record to the settings journal, tagged under the journal key (R349), two pages of 256 bytes;
under `PF_ACTIVE` within what R336 allows. -/
def Chip.lifeWrite (c : Chip) (x : Ext) (n : LifeInput) : Chip × Ext :=
  if ¬ c.fwRuns then (c, x)
  else
    let c := c.lifeUpdate n
    if ¬ c.journalThere ∨ c.journalKey = [] then (c, x)
    else if ¬ c.pfActive then (c, { x with life := some c.lifeSaved })
    else if c.pwr.pfBudget < 512 then (c, x)
    else (c.setPwr { c.pwr with pfBudget := c.pwr.pfBudget - 512 }, { x with life := some c.lifeSaved })

/-- The record that a half under the journal key holds. -/
def Chip.lifeRecord (c : Chip) (x : Ext) : Option LifeSaved := x.life.filter fun r => r.keys.contains c.journalKey && !c.journalKey.isEmpty

/-- At a start firmware reads the record back, after a wake adding the time in DORMANT by the RTC to the calendar age; a start on which
`RST_CAUSE.POR` reads 1 is a power cycle. -/
def Chip.lifeRestore (c : Chip) (x : Ext) : Chip :=
  let c := match c.lifeRecord x with
    | some r =>
      let slept := if c.aon.wakeTo.isSome then c.rtcSec - r.rtc else 0
      let c := (List.range 112).foldl (fun (c : Chip) i => c.setTword pWEAR 1 (i / 7) (i % 7) (r.words.getD i 0)) c
      let c := (c.setReg pWEAR 0x154 r.prodLo).setReg pWEAR 0x158 r.prodHi
      { c with wear := { c.wear with armed5 := r.armed5, armed1 := r.armed1, lifeAge := r.age + slept, lifeAt := c.cycles } }
    | none => c
  if (c.reg pRST 0x140).toNat.testBit 0 then c.putLife48 0 2 (w48Of (c.tword pWEAR 1 0 2) (c.tword pWEAR 1 0 3) + 1) else c

/-! ## The estimate (R423, R424) -/

/-- The mechanism has reached its limit (R423), by the record and table SENSOR: nothing remains. -/
def Chip.limitReached (c : Chip) (code : Nat) : Bool :=
  let life := fun k w lo n => bitsAt (c.tword pWEAR 1 k w) lo n
  match code with
  | 2 => decide (6000000 ≤ w48Of (c.tword pWEAR 1 0 4) (c.tword pWEAR 1 0 5))
  | 3 => (List.range 24).any fun i => decide (30000 ≤ bitsAt (c.tword pWEAR 0 i 0) 0 16)
  | 4 => decide (life 1 5 16 16 ≤ 300)
  | 5 => decide (100000 ≤ max (life 1 2 0 24) (max (life 1 3 0 24) (life 1 4 0 24)))
  | 6 => decide (150 ≤ life 1 6 0 16)
  | 7 => decide (100000 ≤ w48Of (c.tword pWEAR 1 0 2) (c.tword pWEAR 1 0 3))
  | _ => false

/-- A mechanism projects its daily values (SILICON, PHY_MARGIN, PUF); the others are counted. -/
def trendMech (code : Nat) : Bool := decide (code = 3 ∨ code = 4 ∨ code = 6)

/-- A mechanism as it takes part: a trend of fewer than 30 days is not valid, a counted one gives one value for all three percentiles, and
one at its limit gives no days (R423). -/
def Chip.mechanism (c : Chip) (m : Mech) : Mech :=
  let m : Mech := if trendMech m.code then { m with valid := m.valid && decide (30 ≤ m.history) } else { m with p50 := m.p10, p90 := m.p10 }
  if c.limitReached m.code then { m with p10 := 0, p50 := 0, p90 := 0 } else m

/-- Every mechanism: CALENDAR is known, firmware has projected the others (DEDUCED, log entry 88). -/
def Chip.mechanisms (c : Chip) (given : List Mech) : List Mech :=
  let days := c.calendarDays
  ⟨1, true, 10957 - days, 10957 - days, 10957 - days, 0⟩ ::
    ((List.range 6).map fun i => match given.find? fun (m : Mech) => decide (m.code = i + 2) with
      | some m => c.mechanism m
      | none => ⟨i + 2, false, 0, 0, 0, 0⟩)

/-- The smallest value among the valid mechanisms with the first that gives it. -/
def least (v : Mech → Nat) (ms : List Mech) : Nat × Nat :=
  (ms.filter fun (m : Mech) => m.valid).foldl (fun a m => if v m < a.1 then (v m, m.code) else a) (65535, 0)

/-- A crossing of a threshold raises its event once; it is armed again 90 days above. -/
def crossing (armed : Bool) (p10 limit : Nat) : Bool × Bool :=
  if armed ∧ p10 < limit then (true, false) else (false, armed || decide (limit + 90 ≤ p10))

/-- LIFE_ESTIMATE: firmware computes and publishes; nothing while Trestle is stopped. -/
def Chip.lifeEstimate (c : Chip) (x : Ext) (given : List Mech) : Chip :=
  if ¬ c.fwRuns then c
  else
    let ms := c.mechanisms given
    let c := ms.foldl (fun (c : Chip) (m : Mech) =>
      let c := ((c.setTword pWEAR 2 m.code 0 (BitVec.ofNat 32 (min m.p10 65535))).setTword pWEAR 2 m.code 1 (BitVec.ofNat 32 (min m.p50 65535)))
      (c.setTword pWEAR 2 m.code 2 (BitVec.ofNat 32 (min m.p90 65535))).setTword pWEAR 2 m.code 3
        (BitVec.ofNat 32 (m.valid.toNat + 65536 * (m.history % 65536)))) c
    let p := least (fun (m : Mech) => m.p10) ms
    let c := (c.put pWEAR F.WEAR_LIFE_P10_D p.1).put pWEAR F.WEAR_LIFE_P50_D (least (fun (m : Mech) => m.p50) ms).1
    let c := (c.put pWEAR F.WEAR_LIFE_P90_D (least (fun (m : Mech) => m.p90) ms).1).put pWEAR F.WEAR_LIFE_STATUS_LIMIT p.2
    let c := (c.put pWEAR F.WEAR_LIFE_STATUS_VALID 1).put pWEAR F.WEAR_LIFE_STATUS_EST_SEQ (c.get pWEAR F.WEAR_LIFE_STATUS_EST_SEQ + 1)
    let a := crossing c.wear.armed5 p.1 1826
    let b := crossing c.wear.armed1 p.1 365
    let c := { c with wear := { c.wear with armed5 := a.2, armed1 := b.2 } }
    let c := if a.1 then c.raise pWEAR E.WEAR_LIFE_5Y else c
    let c := if b.1 then c.raise pWEAR E.WEAR_LIFE_1Y else c
    let c := if 240 < x.thermCount then c.raise pWEAR E.WEAR_OTP_LOW else c
    c.raise pWEAR E.WEAR_EST_DONE

/-! ## Meanings -/

/-- CTR_SEL (R415). -/
def execCtrSel (dt : Nat) (req : Requester) (counter : Nat) (value : Word) (s : State) : Host.Outcome State Fault Refusal :=
  .next (s.run dt fun c => c.posted req pPERF (0x180 + 4 * (counter % 32)) value fun c => c.writeCtrSel req counter value)

/-- PERF_CLR (R416). -/
def execPerfClr (dt : Nat) (req : Requester) (mask : Nat) (s : State) : Host.Outcome State Fault Refusal :=
  .next (s.run dt fun c => c.command req pPERF 0x144 (BitVec.ofNat 32 mask) fun c => c.perfClr mask)

/-- FREEZE (R416). -/
def execFreeze (dt : Nat) (req : Requester) (on : Bool) (s : State) : Host.Outcome State Fault Refusal :=
  .next (s.run dt fun c => c.writePerfCtrl req F.PERF_PERF_CTRL_FREEZE on)

/-- USER_EN (R417). -/
def execUserEn (dt : Nat) (req : Requester) (on : Bool) (s : State) : Host.Outcome State Fault Refusal :=
  .next (s.run dt fun c => c.writePerfCtrl req F.PERF_PERF_CTRL_USER_EN on)

/-- WEAR_SENSE (R419). -/
def execWearSense (dt : Nat) (drifts : List Nat) (switched : Bool) (s : State) : Host.Outcome State Fault Refusal :=
  .next (s.run dt fun c => c.wearSense drifts switched)

/-- TEMP_BIN_SECOND (R420). -/
def execTempBinSecond (dt : Nat) (s : State) : Host.Outcome State Fault Refusal := .next (s.run dt Chip.tempBinSecond)

/-- LIFE_RECORD_WRITE (R421). -/
def execLifeRecordWrite (dt : Nat) (input : LifeInput) (s : State) : Host.Outcome State Fault Refusal :=
  .next (s.runExt dt fun c x => c.lifeWrite x input)

/-- LIFE_ESTIMATE (R423). -/
def execLifeEstimate (dt : Nat) (mechs : List Mech) (s : State) : Host.Outcome State Fault Refusal :=
  .next (s.run dt fun c => c.lifeEstimate s.ext mechs)

end Sys2Proof.Machine
end

