-- ==== Sys2Proof/Machine/Commit.lean ====
section
/-! DEFINITION. Staging, validation and commit (R41 to R50, R58): pages and groups. -/
namespace Sys2Proof.Machine

open Sys2Proof

/-! ## What the chapters say of each page -/

/-- The checks of a page's commit; `group` holds the summary indices of the pages that commit with it. -/
def Chip.validate (c : Chip) (p : Page) (group : List Nat) : Nat × Nat :=
  match p.kind with
  | .pwr => c.validatePwr
  | .upd => c.validateUpd
  | .trestle => c.validateTrestle
  | .time => c.validateTime group
  | .gptp => c.validateGptp p.inst group
  | .story => c.validateStory
  | .cinch => c.validateCinch
  | .fab => c.validateFab
  | .buf => c.validateBuf group
  | .spill => c.validateSpill group
  | .rseq => c.validateRseq group
  | .fdb => c.validateFdb group
  | .frer => c.validateFrer (2 ^ max 1 (c.peer group pTRING F.TRING_RING_CFG_SIZE) - 1)
  | .bridle => c.validateBridle group
  | .macsec => c.validateMacsec
  | .port => c.validatePort p.inst
  | .phy => c.validatePhy p.inst
  | .gw => c.validateGw
  | .can => c.validateCan p.inst group
  | .lin => c.validateLin p.inst group
  | .uart => c.validateUart p.inst
  | .pulse => c.validatePulse
  | .dma => c.validateDma group
  | .dxlt => c.validateDxlt group
  | .qspis => c.validateQspis
  | .tenon => c.validateTenon p.inst
  | .tring => c.validateTring group
  | _ => (0, 0)

/-- What a commit does at T_apply beyond the new active set; `old` is the state before it. -/
def Chip.applied (c old : Chip) (p : Page) : Chip :=
  match p.kind with
  | .time => c.appliedTime old
  | .gptp => c.appliedGptp p.inst
  | .story => c.appliedStory old
  | .evio => c.appliedEvio old
  | .pulse => c.appliedPulse old
  | .fdb => c.appliedFdb old
  | .frer => c.appliedFrer old
  | .bridle => c.appliedBridle old
  | .macsec => c.appliedMacsec old
  | .port => c.appliedPort old p.inst
  | .gw => c.appliedGw old
  | .can => c.appliedCan old p.inst
  | .lin => c.appliedLin p.inst
  | .dxlt => c.appliedDxlt old
  | .tring => c.appliedTring old
  | _ => c

/-- The safe point is an event of the block's traffic: the next lookup, admission, decision, translation, flit boundary, checkpoint,
bus idle. Elsewhere the state shows it, or the commit applies at once. -/
def eventSafe (p : Page) : Bool :=
  match p.kind with
  | .buf | .spill | .fdb | .frer | .bridle | .gw | .can | .dxlt | .qspis | .tenon | .trestle => true
  | _ => false

/-- The block may be at its safe point now, for a request that waits since a cycle. -/
def Chip.safePoint (c : Chip) (p : Page) (since : Nat) : Bool :=
  match p.kind with
  | .fab => c.safeFab
  | .port | .phy => c.macIdle p.inst
  | .macsec => c.safeMacsec
  | .lin => c.safeLin p.inst
  | .uart => c.safeUart p.inst
  | .trestle => c.safeTrestle since
  | _ => true

/-- Nothing has to be waited for: the page is disabled (R46), or the state shows that it is at its safe point. -/
def Chip.safeNow (c : Chip) (p : Page) : Bool := !c.enabled p || (!eventSafe p && c.safePoint p c.cycles)

/-! ## T_apply (R45, R55) -/

/-- The offsets of the staged registers of a page. -/
def stagedOffsets (p : Page) : List Nat :=
  ((ownRows p.kind).filter fun (r : RegRow) => decide (r.acc = .rws)).flatMap fun r => (List.range r.count).map fun k => r.off + r.stride * k

/-- The active copies of a page's staged registers take the staged values. -/
def Chip.copyRegs (c : Chip) (p : Page) : Chip := (stagedOffsets p).foldl (fun (c : Chip) off => c.setReg p (off + 0x800) (c.reg p off)) c

/-- Is a table key one of a staged table of the page? -/
def stagedKey (p : Page) (k : Nat) : Bool := (stagedTables p).any fun t => decide (tblPageTable k = pageIdx p * 16 + t)

/-- The staged banks become active; after the refill the staged banks equal them. -/
def Chip.copyTables (c : Chip) (p : Page) : Chip :=
  let a := keepKeys (fun k => !stagedKey p k) c.tblA
  let c : Chip := { c with tblA := (c.tblS.filter fun e => stagedKey p e.1).foldl (fun m e => store (tblDefault e.1) m e.1 e.2) a }
  if stagedTables p = [] ∨ c.syncs.contains (pageIdx p) then c else { c with syncs := c.syncs ++ [pageIdx p] }

/-- The request in progress is an AT_TIME request, the page's own or its group's. -/
def Chip.atTime (c : Chip) (p : Page) : Bool := if c.commitState p = csGROUP then c.group.atTime else (c.commitRt p).atTime

/-- One page's set becomes active; its request is done. An AT_TIME commit shows in LATE whether it executed late (R36). -/
def Chip.swapPage (c : Chip) (p : Page) (late : Bool) : Chip :=
  let timed := c.atTime p
  let c := (c.copyRegs p).copyTables p
  let c := (c.put p F.COMMIT_STATUS_STATE csIDLE).put p F.COMMIT_STATUS_APPLIED_GEN (c.get p F.COMMIT_STATUS_PENDING_GEN)
  let c := c.put p F.COMMIT_STATUS_REASON rsnNone
  let c := if timed then c.put p F.COMMIT_STATUS_LATE late.toNat else c
  (c.setCommitRt p {}).raise p E.COMMIT_DONE

/-- A page's request applies, unless its block is off in the present mode (R43, R46). -/
def Chip.applyPage (c : Chip) (p : Page) (late : Bool) : Chip :=
  if ¬ c.live p then c.rejectPage p rsnMode 0 else (c.swapPage p late).applied c p

/-- The pages of the group. -/
def Chip.groupPages (c : Chip) : List Page := c.group.members.filterMap pageOfIdx

/-- The group applies at one instant, unless a member is off (R43, R49). -/
def Chip.applyGroup (c : Chip) (late : Bool) : Chip :=
  match c.groupPages.find? fun p => !c.live p with
  | some p => c.rejectGroup (pageIdx p) rsnMode 0
  | none =>
    let ps := c.groupPages
    let old := c
    let c := ps.foldl (fun (c : Chip) p => c.swapPage p late) c
    let c := ps.foldl (fun (c : Chip) p => c.applied old p) c
    c.endGroup rsnNone none

/-! ## Requests of one page (R42 to R47) -/

/-- SAFE_TMO in cycles. -/
def Chip.safeTmo (c : Chip) : Nat := usCycles (max 1 (bitsAt (c.reg pSYS 0x188) 0 16))

/-- A GO or AT_TIME request of a page whose commit state is IDLE. -/
def Chip.requestPage (c : Chip) (p : Page) (atTime : Bool) (h : Nat) : Chip :=
  let c := (c.acceptCommit p csVALIDATING).setCommitRt p { atTime := atTime, handle := h, since := c.cycles }
  if atTime ∧ ¬ c.timeValid then c.rejectPage p rsnTimeInvalid 0 else c

/-- A write of COMMIT: 1 GO, 2 AT_TIME, 3 ABORT (R42, R44, R51). -/
def Chip.commitWrite (c : Chip) (p : Page) (action h : Nat) : Chip × Nat :=
  let st := c.commitState p
  match action with
  | 1 | 2 =>
    if c.locked p then (c, errLocked) else if st ≠ csIDLE then (c, errStagedBusy)
    else (c.requestPage p (decide (action = 2)) (h % 4096), 0)
  | 3 => if st = csGROUP then (c, errStagedBusy) else if st = csIDLE then (c, 0) else (c.rejectPage p rsnAborted 0, 0)
  | _ => (c, 0)

/-- The handle names an armed one-shot action of the commit kind. -/
def Chip.handleOk (c : Chip) (h : Nat) : Bool := decide (c.one h fOsState = oARMED ∧ c.one h fOsKind = 1)

/-- The validation of a page ends (R43, R46, R47). A page whose `CTRL.EN` is 0 applies at once, an AT_TIME request too (R46). -/
def Chip.validated (c : Chip) (p : Page) : Chip :=
  if c.commitState p ≠ csVALIDATING then c
  else if ¬ c.live p then c.rejectPage p rsnMode 0
  else
    let v := c.validate p [pageIdx p]
    let rt := c.commitRt p
    if v.1 ≠ 0 then c.rejectPage p v.1 v.2
    else if rt.atTime then
      if ¬ c.handleOk rt.handle then c.rejectPage p rsnHandle 0
      else if c.enabled p then c.put p F.COMMIT_STATUS_STATE csARMED else c.applyPage p false
    else if c.safeNow p then c.applyPage p false
    else (c.put p F.COMMIT_STATUS_STATE csWAIT).setCommitRt p { rt with since := c.cycles }

/-- The safe point of a waiting page has come: within SAFE_TMO the set applies, later the request is rejected (R46). -/
def Chip.commitApply (c : Chip) (p : Page) : Chip :=
  if c.commitState p = csWAIT ∧ c.safePoint p (c.commitRt p).since then
    (if c.cycles ≤ (c.commitRt p).since + c.safeTmo then c.applyPage p false else c.rejectPage p rsnSafeTimeout 0)
  else c

/-- The safe point has not come within SAFE_TMO. -/
def Chip.safeTimeout (c : Chip) (p : Page) : Chip :=
  let rt := c.commitRt p
  if c.commitState p = csWAIT ∧ rt.since + c.safeTmo ≤ c.cycles ∧ (eventSafe p ∨ ¬ c.safePoint p rt.since) then c.rejectPage p rsnSafeTimeout 0 else c

/-! ## Group requests (R48 to R50, R58) -/

/-- The implemented pages, but SYS, that the masks select. -/
def Chip.masked (c : Chip) : List Nat :=
  (List.range 126).filter fun i => decide (i ≠ 0) && (c.reg pSYS (0x170 + 4 * (i / 32))).toNat.testBit (i % 32) && (pageOfIdx i).isSome

/-- A group request while none is in progress. -/
def Chip.requestGroup (c : Chip) (atTime : Bool) (h : Nat) : Chip :=
  let ms := c.masked
  let c := (c.put pSYS F.SYS_GRP_STATUS_GEN (c.get pSYS F.SYS_GRP_STATUS_GEN + 1)).endGroup rsnNone none
  match ms.find? fun i => match pageOfIdx i with | some p => decide (c.commitState p ≠ csIDLE) | none => false with
  | some i => c.endGroup rsnGroupPeer (some i)
  | none =>
    if ms = [] then c
    else
      let c := ms.foldl (fun (c : Chip) i => match pageOfIdx i with | some p => c.acceptCommit p csGROUP | none => c) c
      let c := { c with group := { atTime := atTime, handle := h, since := c.cycles, members := ms } }
      if atTime ∧ ¬ c.timeValid then (c.rejectMembers rsnTimeInvalid).endGroup rsnTimeInvalid ms.head?
      else c.put pSYS F.SYS_GRP_STATUS_STATE csVALIDATING

/-- A write of GRP_CMD. -/
def Chip.groupWrite (c : Chip) (action h : Nat) : Chip × Nat :=
  match action with
  | 1 | 2 => if c.groupState ≠ csIDLE then (c, errStagedBusy) else (c.requestGroup (decide (action = 2)) (h % 4096), 0)
  | 3 => if c.groupState = csIDLE then (c, 0) else ((c.rejectMembers rsnAborted).endGroup rsnAborted none, 0)
  | _ => (c, 0)

/-- What a member's validation answers: locked, off, or its own checks. -/
def Chip.memberCheck (c : Chip) (i : Nat) : Nat × Nat :=
  match pageOfIdx i with
  | some p => if c.locked p then (rsnLocked, 0) else if ¬ c.live p then (rsnMode, 0) else c.validate p c.group.members
  | none => (0, 0)

/-- All members of a group at their safe points. -/
def Chip.groupSafe (c : Chip) (events : Bool) : Bool :=
  c.groupPages.all fun p => c.safeNow p || (events && eventSafe p && c.safePoint p c.group.since)

/-- The members' validations end (R48, R49). -/
def Chip.groupValidated (c : Chip) : Chip :=
  if c.groupState ≠ csVALIDATING then c
  else match c.group.members.find? fun i => decide ((c.memberCheck i).1 ≠ 0) with
    | some i => c.rejectGroup i (c.memberCheck i).1 (c.memberCheck i).2
    | none =>
      if c.group.atTime then
        if c.handleOk c.group.handle then c.put pSYS F.SYS_GRP_STATUS_STATE csARMED
        else (c.rejectMembers rsnHandle).endGroup rsnHandle c.group.members.head?
      else if c.groupSafe false then c.applyGroup false
      else { c.put pSYS F.SYS_GRP_STATUS_STATE csWAIT with group := { c.group with since := c.cycles } }

/-- A common safe point has come: within SAFE_TMO every member applies, later every member is rejected (R49). -/
def Chip.groupApply (c : Chip) : Chip :=
  if c.groupState = csWAIT ∧ c.groupSafe true then
    (if c.cycles ≤ c.group.since + c.safeTmo then c.applyGroup false
     else (c.rejectMembers rsnSafeTimeout).endGroup rsnSafeTimeout c.group.members.head?)
  else c

/-- No common safe point within SAFE_TMO. -/
def Chip.groupTimeout (c : Chip) : Chip :=
  if c.groupState = csWAIT ∧ c.group.since + c.safeTmo ≤ c.cycles ∧ ¬ c.groupSafe false then
    (c.rejectMembers rsnSafeTimeout).endGroup rsnSafeTimeout c.group.members.head?
  else c

/-! ## A Story pole action of the commit kind executes (R47, R49) -/

/-- The pages and the group bound to action `h` apply, or reject for want of a valid time. A request still being validated names no
armed action any more: it is rejected with HANDLE. -/
def Chip.fireBound (c : Chip) (h : Nat) (late : Bool) : Chip :=
  if ¬ c.timeValid then c.rejectBound h rsnTimeInvalid
  else
    let c := c.rejectNaming h csVALIDATING rsnHandle
    let c := (c.pagesNaming h csARMED).foldl (fun (c : Chip) p => c.applyPage p late) c
    if c.groupNames h csARMED then c.applyGroup late else c

/-! ## Snapshots (R56) -/

/-- A snapshot of a page is in progress. -/
def Chip.snapBusy (c : Chip) (p : Page) : Bool := (c.reg p 0x134).toNat.testBit 16

/-- TAKE: a snapshot starts, or joins the one in progress. -/
def Chip.snapTake (c : Chip) (p : Page) : Chip := c.setReg p 0x134 (c.reg p 0x134 ||| 0x10000)

/-- The captured set replaces the previous one; SEQ advances. -/
def Chip.snapEnd (c : Chip) (p : Page) : Chip :=
  let mine := fun k => decide (cntPage k = pageIdx p)
  let s := keepKeys (fun k => !mine k) c.snap
  let c : Chip := { c with snap := (c.cnt.filter fun e => mine e.1).foldl (fun m e => store 0 m e.1 e.2) s }
  (c.setReg p 0x134 (BitVec.ofNat 32 ((bitsAt (c.reg p 0x134) 0 16 + 1) % 65536))).raise p E.SNAP_DONE

/-- The pages of SNAP_ALL. -/
def snapPages : List Page := allPages.filter hasSnap

/-- SNAP_ALL: one snapshot in every snapshot page. -/
def Chip.snapAllTake (c : Chip) : Chip := { snapPages.foldl (fun (c : Chip) p => c.snapTake p) c with snapAll := snapPages.map pageIdx }

/-- A snapshot completes; one that SNAP_ALL started completes in every page. -/
def Chip.snapDone (c : Chip) (p : Page) : Chip :=
  if ¬ c.snapBusy p then c
  else if c.snapAll.contains (pageIdx p) then
    let c := { (c.snapAll.filterMap pageOfIdx).foldl (fun (c : Chip) q => c.snapEnd q) c with snapAll := [] }
    c.setReg pSYS 0x194 (BitVec.ofNat 32 (((c.reg pSYS 0x194).toNat + 1) % 65536))
  else c.snapEnd p

/-! ## Meanings -/

/-- A write of COMMIT as its requester posts it. -/
def Chip.commitPosted (c : Chip) (req : Requester) (p : Page) (action h : Nat) : Chip :=
  c.posted req p 0x028 (BitVec.ofNat 32 (action + 65536 * (h % 4096))) fun c => c.commitWrite p action h

/-- A write of GRP_CMD as its requester posts it. -/
def Chip.groupPosted (c : Chip) (req : Requester) (action h : Nat) : Chip :=
  c.posted req pSYS 0x180 (BitVec.ofNat 32 (action + 65536 * (h % 4096))) fun c => c.groupWrite action h

/-- COMMIT_GO (R42). -/
def execCommitGo (dt : Nat) (req : Requester) (page : Page) (s : State) : Host.Outcome State Fault Refusal :=
  .next (s.run dt fun c => c.commitPosted req page 1 0)

/-- COMMIT_AT_TIME (R42). -/
def execCommitAtTime (dt : Nat) (req : Requester) (page : Page) (handle : Nat) (s : State) : Host.Outcome State Fault Refusal :=
  .next (s.run dt fun c => c.commitPosted req page 2 handle)

/-- COMMIT_ABORT (R44). -/
def execCommitAbort (dt : Nat) (req : Requester) (page : Page) (s : State) : Host.Outcome State Fault Refusal :=
  .next (s.run dt fun c => c.commitPosted req page 3 0)

/-- VALIDATION_DONE (R43). -/
def execValidationDone (dt : Nat) (page : Page) (s : State) : Host.Outcome State Fault Refusal :=
  .next (s.run dt fun c => if pageValid page then c.validated page else c)

/-- COMMIT_APPLY (R45). -/
def execCommitApply (dt : Nat) (page : Page) (s : State) : Host.Outcome State Fault Refusal :=
  .next (s.run dt fun c => if pageValid page then c.commitApply page else c)

/-- SAFE_TIMEOUT (R46). -/
def execSafeTimeout (dt : Nat) (page : Page) (s : State) : Host.Outcome State Fault Refusal :=
  .next (s.run dt fun c => if pageValid page then c.safeTimeout page else c)

/-- GROUP_GO (R48). -/
def execGroupGo (dt : Nat) (req : Requester) (s : State) : Host.Outcome State Fault Refusal := .next (s.run dt fun c => c.groupPosted req 1 0)

/-- GROUP_AT_TIME (R49). -/
def execGroupAtTime (dt : Nat) (req : Requester) (handle : Nat) (s : State) : Host.Outcome State Fault Refusal :=
  .next (s.run dt fun c => c.groupPosted req 2 handle)

/-- GROUP_ABORT (R50). -/
def execGroupAbort (dt : Nat) (req : Requester) (s : State) : Host.Outcome State Fault Refusal := .next (s.run dt fun c => c.groupPosted req 3 0)

/-- GROUP_VALIDATION_DONE (R48). -/
def execGroupValidationDone (dt : Nat) (s : State) : Host.Outcome State Fault Refusal := .next (s.run dt Chip.groupValidated)

/-- GROUP_APPLY (R49). -/
def execGroupApply (dt : Nat) (s : State) : Host.Outcome State Fault Refusal := .next (s.run dt Chip.groupApply)

/-- GROUP_SAFE_TIMEOUT (R49). -/
def execGroupSafeTimeout (dt : Nat) (s : State) : Host.Outcome State Fault Refusal := .next (s.run dt Chip.groupTimeout)

/-- LOCK (R51). -/
def execLock (dt : Nat) (req : Requester) (page : Page) (s : State) : Host.Outcome State Fault Refusal :=
  .next (s.run dt fun c => c.posted req page 0x030 1 fun c => c.writeLock page 1)

/-- EVT_RAW_CLEAR (R52). -/
def execEvtRawClear (dt : Nat) (req : Requester) (page : Page) (bits : Word) (s : State) : Host.Outcome State Fault Refusal :=
  .next (s.run dt fun c => c.command req page 0x018 bits fun c => c.clearEvents page bits)

/-- SNAP_TAKE (R56): in a page without counters the offset is reserved. -/
def execSnapTake (dt : Nat) (req : Requester) (page : Page) (s : State) : Host.Outcome State Fault Refusal :=
  .next (s.run dt fun c => c.posted req page 0x130 1 fun c => if hasSnap page then (c.snapTake page, 0) else (c, errRsvWrite))

/-- SNAP_DONE (R56). -/
def execSnapDone (dt : Nat) (page : Page) (s : State) : Host.Outcome State Fault Refusal :=
  .next (s.run dt fun c => if pageValid page && hasSnap page then c.snapDone page else c)

/-- SNAP_ALL (R56). -/
def execSnapAll (dt : Nat) (req : Requester) (s : State) : Host.Outcome State Fault Refusal :=
  .next (s.run dt fun c => c.command req pSYS 0x190 1 Chip.snapAllTake)

end Sys2Proof.Machine
end

