-- ==== Sys2Proof/Machine/Oneshots.lean ====
section
/-! DEFINITION. One-shot and distance-keyed actions (R148 to R152, R158 to R160). -/
namespace Sys2Proof.Machine

open Sys2Proof

/-! ## What an action does (R147, R148) -/

/-- The stored frame of a slot of table FRAME as a copy for an Ethernet port: it crosses no fabric and takes no number. -/
def Chip.sendFrame (c : Chip) (slot : Nat) : Copy :=
  let bs := c.slotBytes slot (c.fr slot fFrLen)
  { fid := c.nextFid, bytes := bs, ingress := 31, origin := 31, egress := c.fr slot fFrPort, cls := c.fr slot fFrClass, seq := 0, vid := 0, pcp := 0
    multi := isMulticast bs, stamp := c.stamp, epoch := c.epoch, enq := c.cycles, send := true
    ring := c.ringId, ringPort := 31 }

/-- The frame at the tail of its egress queue, behind the resequencer. -/
def Chip.sendTail (c : Chip) (k : Copy) : Chip :=
  if ¬ c.linkUp k.egress then c.countLinkDown k
  else
    let q := qIndex k.egress k.cls
    let x := c.queue q
    if c.heldClass k.cls then c.setQueue q { x with items := x.items ++ [k] } else c.setQueue q { x with ready := x.ready ++ [k] }

/-- A SEND action: to a release queue at the instant of its execution, or to an egress queue. An empty slot sends nothing. -/
def Chip.sendAction (c : Chip) (slot : Nat) (distance : Bool) : Chip :=
  let port := c.fr slot fFrPort
  let q : RelReq := { target := port, r := c.localNs, notime := distance && !c.timeValid }
  match c.fr slot fFrMedium with
  | 1 =>
    let k := c.sendFrame slot
    let c := { c with nextFid := c.nextFid + 1 }
    if ¬ isS port then c.sendTail k
    else if ¬ c.linkUp port then c.countLinkDown k
    else (c.release { q with copy := some k } true).1
  | 2 => (c.release { q with msg := some { msg := c.slotMsg slot, at' := c.cycles } } true).1
  | _ => c

/-- Action `i` executes: DONE, or DONE_LATE when `late`; stamp and EPOCH are recorded, MARK returns its tag. -/
def Chip.fire (c : Chip) (i : Nat) (late : Bool) : Chip :=
  let kind := c.one i fOsKind
  let distance : Bool := decide (c.one i fOsTrigger = 1)
  let target := c.one i fOsTarget
  let arg := c.one i fOsArg
  let c := { c.perf 0x281 1 with ones := store none c.ones i none }
  let c := (c.tput pSTORYTBL 1 i fOsState (if late then oDONELATE else oDONE)).tput pSTORYTBL 1 i fOsEpoch c.epoch
  let c := c.tput pSTORYTBL 1 i fOsStamp (if kind = 5 then arg else c.stamp)
  let c := c.count pSTORY (if late then K.STORY_ONESHOT_LATE else K.STORY_ONESHOT_DONE)
  let c := if late ∧ distance then c.count pSTORY K.STORY_DIST_LATE else c
  match kind with
  | 1 => c.fireBound i late
  | 2 => c.pinAction target arg
  | 3 => c.watchAction (target % 512) (arg.testBit 0)
  | 4 => c.fwActivate (target % 4) arg
  | 5 => c.raise pSTORY E.STORY_MARK
  | 6 => c.sendAction (target % 2048) distance
  | _ => c

/-- Action `i` is not executed, being past (R150). -/
def Chip.endPast (c : Chip) (i : Nat) : Chip :=
  let c := (c.actUnrun i arPAST).tput pSTORYTBL 1 i fOsState oPAST
  let c := { c with ones := store none c.ones i none }
  ((c.count pSTORY K.STORY_ONESHOT_PAST).raise pSTORY E.STORY_ONESHOT_PAST).rejectBound i rsnPast

/-- An ARMED action gives way to a WRITE or a CLEAR of its entry (R151). -/
def Chip.abortAction (c : Chip) (i : Nat) : Chip :=
  if (lookupD none c.ones i).isNone then c
  else
    let c := { c with ones := store none c.ones i none }.tput pSTORYTBL 1 i fOsState oFREE
    (c.count pSTORY K.STORY_ONESHOT_ABORTED).rejectBound i rsnAborted

/-! ## Lateness (R150) -/

/-- An action whose instant lies `late` ns back is judged: not past, it waits. -/
def Chip.judge (c : Chip) (i : Nat) (late : Int) : Chip :=
  if late ≤ 0 then c
  else if late ≤ c.lateTol ∨ c.one i fOsLate = 1 then c.fire i true
  else c.endPast i

/-- A time-triggered ARMED action judged against the local time (R150, R151). -/
def Chip.judgeTime (c : Chip) (i : Nat) : Chip :=
  match lookupD none c.ones i with
  | some o => if c.one i fOsTrigger = 0 then c.judge i ((c.localNs : Int) - o.rel) else c
  | none => c

/-! ## Distance (R158 to R160) -/

/-- D of an action, in pulses and 16 bits of fraction. -/
def Chip.oneD (c : Chip) (i : Nat) : Nat := (c.one i fOsLo + 2 ^ 32 * c.one i fOsHi) * 65536 + c.one i fOsFrac

/-- N has reached D. -/
def Chip.distReached (c : Chip) (i : Nat) : Bool := decide (c.oneD i ≤ c.pulseCount (c.one i fOsPulse) * 65536)

/-- How far, in ns times 65,536, the monotonic time lies past the interpolated crossing less the lead; none where the input is not
MOVING (R159). -/
def Chip.distPast (c : Chip) (i : Nat) (lead : Nat) : Option Int :=
  let x := c.pulse (c.one i fOsPulse)
  match x.mLast with
  | some t =>
    if x.moving then
      let since := c.mono - t
      let left : Int := (c.oneD i : Int) - c.pulseCount (c.one i fOsPulse) * 65536
      some (((since + lead : Nat) : Int) * 65536 - left * max x.tp since)
    else none
  | none => none

/-- A distance action as it is armed (R160). -/
def Chip.judgeDist (c : Chip) (i : Nat) (lead : Nat) : Chip :=
  if c.distReached i then (if c.one i fOsLate = 1 then c.fire i true else c.endPast i)
  else match c.distPast i lead with
    | some p => c.judge i (p / 65536)
    | none => c

/-- A distance action on a tick of the 1 us grid (R159). -/
def Chip.distAction (c : Chip) (i : Nat) : Chip :=
  match lookupD none c.ones i with
  | some o =>
    if c.one i fOsTrigger = 0 then c
    else if c.distReached i then c.fire i (decide (c.one i fOsLeadEn = 1))
    else match c.distPast i o.lead with
      | some p => if 0 ≤ p then c.fire i false else c
      | none => c
  | none => c

/-- DISTANCE_TICK: every ARMED distance action is evaluated once a tick, in index order. -/
def Chip.distTick (c : Chip) : Chip :=
  let k := c.mono / 1000
  if k ≤ c.distIndex then c
  else
    let c := { c with distIndex := k }
    if ¬ c.storyRuns then c else c.armed.foldl (fun (c : Chip) i => c.distAction i) c

/-! ## Arming and execution (R149, R151, R152) -/

/-- The instant of a time-triggered action in ns. -/
def Chip.oneNs (c : Chip) (i : Nat) : Nat := (c.one i fOsLo + 2 ^ 32 * c.one i fOsHi) * 1000000000 + c.one i fOsNs

/-- A WRITE has put an action into entry `i`: it is ARMED, its lead is read once, and it is judged. -/
def Chip.arm (c : Chip) (i : Nat) : Chip :=
  let lead := if c.one i fOsLeadEn = 1 then c.leadNs (c.one i fOsLeadIdx) else 0
  let o : OneRt := ⟨(c.oneNs i : Int) - lead, lead⟩
  let c : Chip := { c.tput pSTORYTBL 1 i fOsState oARMED with ones := store none c.ones i (some o) }
  if c.one i fOsTrigger = 1 then c.judgeDist i lead
  else if c.timeValid then c.judgeTime i else c

/-- An action whose instant has come executes, or ends TIME_INVALID while the time is INVALID or the Story pole is halted. -/
def Chip.runAction (c : Chip) (i : Nat) : Chip :=
  match lookupD none c.ones i with
  | some o =>
    if c.one i fOsTrigger = 0 ∧ o.rel ≤ c.localNs then (if c.timeValid ∧ c.storyRuns then c.fire i false else c.endAction i) else c
  | none => c

/-- The TCLK cycle of 2 ns in which a release instant is reached (R149). -/
def tclkOf (rel : Int) : Int := (rel + 1) / 2

/-- An index placed by the TCLK cycle of its release instant, then by itself. -/
def Chip.byInstant (c : Chip) (i : Nat) : List Nat → List Nat
  | [] => [i]
  | j :: l =>
    let rel := fun k => match lookupD none c.ones k with | some (o : OneRt) => o.rel | none => 0
    if tclkOf (rel i) < tclkOf (rel j) then i :: j :: l else j :: Chip.byInstant c i l

/-- ONESHOT_EXECUTE: every time-triggered action whose instant has come, in order of the TCLK cycle of its instant, then of index. -/
def Chip.runActions (c : Chip) : Chip :=
  (c.armed.foldl (fun l i => c.byInstant i l) []).foldl (fun (c : Chip) i => c.runAction i) c

/-- At an accepted step every time-triggered ARMED action is judged against the new time (R121, R151). -/
def Chip.rejudge (c : Chip) : Chip := c.armed.foldl (fun (c : Chip) i => c.judgeTime i) c

/-! ## Meanings -/

/-- ONESHOT_EXECUTE (R149). -/
def execOneshotExecute (dt : Nat) (s : State) : Host.Outcome State Fault Refusal := .next (s.run dt Chip.runActions)

/-- DISTANCE_TICK (R159). -/
def execDistanceTick (dt : Nat) (s : State) : Host.Outcome State Fault Refusal := .next (s.run dt Chip.distTick)

end Sys2Proof.Machine
end

