-- ==== Sys2Proof/Machine/Steps.lean ====
section
/-! DEFINITION. Steps of the time (R118, R119, R127), gPTP Sync (R131), time words of the ring (R133, R292). -/
namespace Sys2Proof.Machine

open Sys2Proof

/-! ## Steps -/

/-- The one step is accepted (R118, R121, R122): the time is `t` in 2^-40 ns, and the Story pole evaluates lists and actions anew. A
waiting arm is locked out (R119); a loss of PLL_S in the same SCLK cycle makes the time INVALID after it (R120). -/
def Chip.stepTo (c : Chip) (t req : Nat) (handled : Bool) : Chip :=
  let c := (c.anchor t).put pTIME F.TIME_TIME_STATUS_STATE tTRACKING
  let c := c.put pTIME F.TIME_TIME_STATUS_EPOCH (c.epoch + 1)
  let c := (c.count pTIME K.TIME_STEP_ACCEPTED).stepResult stDONE req handled
  let c : Chip := { c with corrAt := c.cycles, stepAt := some c.sclk, ppsArm := c.ppsArm.map fun (a : PpsArm) => { a with locked := true } }
  let c := c.raise pTIME E.TIME_STEP_DONE
  let c := c.listsStep.rejudge
  match c.lossAt with
  | some (k, _) => if k = c.sclk then c.invalidate icPLLS else c
  | none => c

/-- Seconds and nanoseconds as 2^-40 ns. -/
def timeOf (sec ns : Nat) : Nat := (sec * 1000000000 + ns) * 2 ^ 40

/-- STEP_SEC and STEP_NS as they stand. -/
def Chip.stepAmount (c : Chip) : Nat := timeOf (w48Of (c.reg pTIME 0x158) (c.reg pTIME 0x15C)) (c.get pTIME F.TIME_STEP_NS_NS)

/-- STEP_SET (R119). -/
def Chip.stepSet (c : Chip) (req : Requester) : Chip :=
  let gone := (c.localNs + 2 ^ 32 - c.get pTIME F.TIME_STEP_REF_STAMP_STAMP) % 2 ^ 32
  match c.stepCheck req false (c.stepNsBad || decide (2 ^ 31 ≤ gone)) with
  | 0 => c.stepTo (c.stepAmount + gone * 2 ^ 40) (reqCode req) true
  | e => c.refuseCmd e 3 req

/-- STEP_ADD (R119). -/
def Chip.stepAdd (c : Chip) (req : Requester) : Chip :=
  let neg : Bool := c.is pTIME F.TIME_STEP_NS_NEG
  match c.stepCheck req false (c.stepNsBad || (neg && decide (c.localTime < c.stepAmount))) with
  | 0 => c.stepTo (if neg then c.localTime - c.stepAmount else c.localTime + c.stepAmount) (reqCode req) true
  | e => c.refuseCmd e 4 req

/-- A PPS_IN edge (R119, R127): the capture, then a waiting arm's step, which another accepted step has locked out. An arm older than
2 s has lapsed. -/
def Chip.ppsIn (c : Chip) (rising : Bool) : Chip :=
  if ¬ c.is pTIME F.TIME_TIME_CFG_PPS_IN_EN ∨ rising = c.is pTIME F.TIME_TIME_CFG_PPS_IN_EDGE then c
  else
    let c := c.ppsArmTimeout.ppsCapture
    match c.ppsArm with
    | some a =>
      let c := { c with ppsArm := none }
      if c.timeState = tINVALID ∧ ¬ a.locked ∧ c.mode ≠ modeSentry then c.stepTo ((timeOf a.sec 0 : Int) + c.ppsDelay).toNat a.req false
      else c.refuseStep stLOCKED a.req false
    | none => c

/-! ## Commands of one SCLK cycle (R120) -/

/-- A step that was refused as STEP_LOCKED before an INVALIDATE of its SCLK cycle is taken back: it comes after it. -/
def Chip.retakeStep (c : Chip) (l : LockedStep) : Chip :=
  let c := { c with tm := { c.tm with lockedStep := none } }.addCnt pTIME K.TIME_STEP_LOCKED (2 ^ 48 - 1)
  let c := if l.fresh then c.setReg pTIME 0x018 (c.reg pTIME 0x018 &&& ~~~ BitVec.ofNat 32 (2 ^ E.TIME_STEP_REFUSED)) else c
  let c := c.put pTIME F.TIME_STEP_RESULT_SEQ (c.get pTIME F.TIME_STEP_RESULT_SEQ + 65535)
  match l.cmd with
  | 3 => c.stepSet l.req
  | 4 => c.stepAdd l.req
  | _ => c.ppsStepArm l.req

/-- A rate write of the SCLK cycle comes after its INVALIDATE, so that it ends no holdover. -/
def Chip.untrack (c : Chip) : Chip :=
  if c.tm.trackedAt = some c.sclk then
    { c.setReg pTIME 0x018 (c.reg pTIME 0x018 &&& ~~~ BitVec.ofNat 32 (2 ^ E.TIME_TRACKING)) with tm := { c.tm with trackedAt := none } }
  else c

/-- INVALIDATE (R120, R122): the steps and rate writes of its SCLK cycle come after it. A step accepted there found the time INVALID; one
refused as STEP_LOCKED is carried out now. What the earlier commands have sent to the host has left (DEDUCED, log entry 125). -/
def Chip.invalidateCmd (c : Chip) (req : Requester) : Chip :=
  let cause := if hostSide req then icHOST else icFW
  if c.stepAt = some c.sclk then c.put pTIME F.TIME_TIME_STATUS_INV_CAUSE cause
  else
    let c := c.untrack.invalidate cause
    match c.tm.lockedStep with
    | some l => if l.sclk = c.sclk then c.retakeStep l else c
    | none => c

/-! ## gPTP Sync (R131, R132) -/

/-- Firmware writes a register of TIME. -/
def Chip.fwTime (c : Chip) (off : Nat) (v : Word) : Chip := c.posted .trestle pTIME off v fun c => c.writePlain .trestle pTIME off v

/-- The Sync of the source instance steps an INVALID time, once the slave port is asCapable: at the instant of the 32-bit stamp the time
was `gm` ns. -/
def Chip.syncStep (c : Chip) (gm stamp : Nat) : Chip :=
  let c := ((c.fwTime 0x158 (BitVec.ofNat 32 (gm / 1000000000))).fwTime 0x15C (BitVec.ofNat 32 (gm / 1000000000 / 2 ^ 32))).fwTime 0x160 (BitVec.ofNat 32 (gm % 1000000000))
  (c.fwTime 0x164 (BitVec.ofNat 32 stamp)).timeCmd .trestle 3 fun c => c.stepSet .trestle

/-- Firmware processes a Sync of a slave instance: the grandmaster's time `gm` in ns at the ingress stamp, the rate that firmware
writes, the rate ratio. -/
def Chip.gptpSync (c : Chip) (g port : Nat) (followUp : Bool) (gm stamp : Nat) (rate ratio : Int) : Chip :=
  let p := pGPTP g
  if c.gptpOn g port ∧ c.get p F.GPTP_INST_STATUS_ROLE = gSLAVE ∧ c.get p F.GPTP_INST_STATUS_SLAVE_PORT = port then
    let gone : Nat := (c.localNs + 2 ^ 32 - stamp % 2 ^ 32) % 2 ^ 32
    let c := if c.source ≠ g + 1 then c
      else if c.timeState = tINVALID then (if c.tis p 0 port fPdCapable then c.syncStep gm stamp else c)
      else c.posted .trestle pTIME 0x170 (BitVec.ofInt 32 rate) fun c => c.writeRate .trestle (BitVec.ofInt 32 rate)
    let ahead : Int := (gm : Int) - ((c.localNs : Int) - Int.ofNat gone)
    (c.syncRecord g followUp ahead ratio).syncSend g ahead
  else c

/-! ## Time words (R133, R292) -/

/-- The one-way latency of a T link in ps, the LAT_ASYM in force added. -/
def Chip.linkPs (c : Chip) (t : Nat) : Nat := (((c.tenon t).lat : Int) + signedOf (c.get (pTENON t) F.TENON_LAT_ASYM_PS) 16).toNat

/-- A time word leaves on a T link that is UP. -/
def Chip.sendWord (c : Chip) (t time epoch : Nat) (valid : Bool) : Chip :=
  if c.tlState t = tlUP then (c.flitsOut t 1).emit (.timeWord (28 + t) time epoch valid) else c

/-- TIME_WORD_TX: the head's word on both links. -/
def Chip.timeWordTx (c : Chip) : Chip :=
  if c.ringId = 0 then (c.sendWord 0 c.localTime c.epoch c.timeValid).sendWord 1 c.localTime c.epoch c.timeValid else c

/-- The link from which a follower takes its words: the one named, or the one nearer to the head; the other while it is not UP. -/
def Chip.timeLink (c : Chip) : Nat :=
  let named := match c.get pTRING F.TRING_RING_CFG_TIME_LINK with
    | 1 => 0
    | 2 => 1
    | _ => if c.pathTo 0 = 2 then 1 else 0
  if c.tlState named = tlUP then named else 1 - named

/-- What a word of the head does to a follower's time; `rate` is what the ring hardware writes to stay with the head. -/
def Chip.follow (c : Chip) (time epoch : Nat) (valid : Bool) (rate : Int) : Chip :=
  let changed : Bool := match c.headEpoch with | some e => decide (e ≠ epoch) | none => false
  let c := { c with headEpoch := some epoch }
  if c.timeState = tINVALID then (if valid then c.stepTo time 0 false else c)
  else if ¬ valid ∨ changed then c.invalidate icTENON
  else if rate < -65536000 ∨ 65536000 < rate then c.correction
  else (c.setReg pTIME 0x170 (BitVec.ofInt 32 rate)).correction

/-- TIME_WORD_RX: a word arrives on a link, the latencies of earlier hops added by those who relayed it; one that a replay delivered is
discarded (R287). -/
def Chip.timeWordRx (c : Chip) (t time epoch : Nat) (valid replayed : Bool) (rate : Int) : Chip :=
  if replayed ∨ ¬ (t < 2 ∧ c.tlState t = tlUP) ∨ c.ringId = 0 then c
  else
    let time := time + c.linkPs t * 2 ^ 40 / 1000
    let c := c.put (pTENON t) F.TENON_LINK_LAT_PS (c.linkPs t)
    let c := c.sendWord (1 - t) time epoch valid
    if c.source = 6 ∧ t = c.timeLink then c.follow time epoch valid rate else c

/-! ## Meanings -/

/-- STEP_SET (R119): a write of TIME_CMD. -/
def execStepSet (dt : Nat) (req : Requester) (s : State) : Host.Outcome State Fault Refusal :=
  .next (s.run dt fun c => c.timeCmd req 3 fun c => c.stepSet req)

/-- STEP_ADD (R119): a write of TIME_CMD. -/
def execStepAdd (dt : Nat) (req : Requester) (s : State) : Host.Outcome State Fault Refusal :=
  .next (s.run dt fun c => c.timeCmd req 4 fun c => c.stepAdd req)

/-- PPS_IN (R127). -/
def execPpsIn (dt : Nat) (rising : Bool) (s : State) : Host.Outcome State Fault Refusal := .next (s.run dt fun c => c.ppsIn rising)

/-- GPTP_SYNC_RX (R131). -/
def execGptpSyncRx (dt inst port : Nat) (followUp : Bool) (gm stamp : Nat) (rate ratio : Int) (s : State) : Host.Outcome State Fault Refusal :=
  .next (s.run dt fun c => c.gptpSync inst port followUp gm stamp rate ratio)

/-- TIME_INVALIDATE (R122). -/
def execTimeInvalidate (dt : Nat) (req : Requester) (s : State) : Host.Outcome State Fault Refusal :=
  .next (s.run dt fun c => c.timeCmd req 2 fun c => c.invalidateCmd req)

/-- GPTP_TX_INTERVAL (R129). -/
def execGptpTxInterval (dt inst kind : Nat) (s : State) : Host.Outcome State Fault Refusal := .next (s.run dt fun c => c.gptpTx inst kind)

/-- TIME_WORD_TX (R133). -/
def execTimeWordTx (dt : Nat) (s : State) : Host.Outcome State Fault Refusal := .next (s.run dt Chip.timeWordTx)

/-- TIME_WORD_RX (R133). -/
def execTimeWordRx (dt link time epoch : Nat) (valid replayed : Bool) (rate : Int) (s : State) : Host.Outcome State Fault Refusal :=
  .next (s.run dt fun c => c.timeWordRx link time epoch valid replayed rate)

end Sys2Proof.Machine
end

