-- ==== Sys2Proof/Machine/Tables.lean ====
section
/-! DEFINITION. Tables and their windows (R54, R55): entries as a window shows them, operations, the refill of a staged bank. -/
namespace Sys2Proof.Machine

open Sys2Proof

/-! ## What a window shows of a table -/

/-- Where an entry holds 48-bit counters: the slot of the counter that a word is half of. -/
def tblCounter (p : Page) (t word : Nat) : Option Nat :=
  let from' := fun first last => if first ≤ word ∧ word ≤ last then some ((word - first) / 2) else none
  match p.kind, t with
  | .buf, 1 | .rseq, 0 | .bridle, 6 => from' 0 7
  | .bridle, 7 => from' 0 5
  | .story, 3 => from' 4 7
  | .cinch, 0 => from' 6 7
  | .frer, 2 => from' 2 19
  | .frer, 3 => from' 2 7
  | .units, 1 => from' 4 7
  | .macsec, 3 => from' 0 15
  | .macsec, 4 => from' 2 3
  | .gw, 8 => from' 0 3
  | .gw, 9 => from' 2 7
  | _, _ => none

/-- A word of an entry of the bank that the block acts on, its counters as the latest snapshot holds them (R56). -/
def Chip.tblWord (c : Chip) (p : Page) (t i word : Nat) : Word :=
  match tblCounter p t word with
  | some slot =>
    let v := (lookupD 0 c.snap (tblCntKey p t i slot)).toNat
    BitVec.ofNat 32 (if word % 2 = 0 then v else v / 2 ^ 32)
  | none =>
    match p.kind, t with
    | .story, 3 => c.listStatWord i word
    | .cinch, 0 => if word = 5 then BitVec.ofNat 32 (c.watch i).state else c.tword p t i word
    | .frer, 2 => if word < 2 then c.cstatWord i word else 0
    | .frer, 3 => if word = 0 then c.mstatWord i else 0
    | .bridle, 8 => c.sessWord i word
    | .units, 1 => c.ustatWord i word
    | .units, 2 => c.claimWord i word
    | .macsec, 1 => if word = 0 then putBits (c.tword p t i 0) 1 1 (c.keyLoaded i).toNat else c.tword p t i word
    | .macsec, 4 => c.sastatWord i word
    | .gw, 9 => if word = 0 then c.astatWord i else 0
    | .gw, 10 => c.nstatWord i word
    | .lin, 1 => c.pubBufWord p.inst i word
    | _, _ => c.tword p t i word

/-- A word of an entry of the staged bank. -/
def Chip.tblStagedWord (c : Chip) (p : Page) (t i word : Nat) : Word :=
  if p.kind = .macsec ∧ t = 1 ∧ word = 0 then putBits (c.tstaged p t i 0) 1 1 (c.keyLoaded i).toNat else c.tstaged p t i word

/-! ## Windows -/

def winKey (p : Page) (side : Nat) : Nat := pageIdx p * 2 + side

def Chip.win (c : Chip) (p : Page) (side : Nat) : Option WinOp := lookupD none c.wins (winKey p side)
def Chip.setWin (c : Chip) (p : Page) (side : Nat) (o : Option WinOp) : Chip := { c with wins := store none c.wins (winKey p side) o }

/-- A word of the entry buffer. -/
def Chip.bufWord (c : Chip) (p : Page) (side word : Nat) : Word := lookupD 0 c.wbuf (winKey p side * 128 + word)
def Chip.setBufWord (c : Chip) (p : Page) (side word : Nat) (w : Word) : Chip := { c with wbuf := store 0 c.wbuf (winKey p side * 128 + word) w }

/-- TBL_ADDR of one side. -/
def Chip.tblAddr (c : Chip) (p : Page) (side : Nat) : Word := c.regAt (sideKey p 0x100 side)

/-- INDEX returned in TBL_ADDR. -/
def Chip.putIndex (c : Chip) (p : Page) (side i : Nat) : Chip := c.setRegAt (sideKey p 0x100 side) (putBits (c.tblAddr p side) 0 20 i)

/-- The words of an entry copied into the buffer. -/
def Chip.fillBuf (c : Chip) (p : Page) (side parts : Nat) (w : Nat → Word) : Chip :=
  (List.range (8 * parts)).foldl (fun (c : Chip) k => c.setBufWord p side k (w k)) c

/-! ## Results (R54) -/

abbrev tbOK : Nat := 0
abbrev tbNOTFOUND : Nat := 1
abbrev tbRANGE : Nat := 2
abbrev tbFULL : Nat := 3
abbrev tbSTAGEDBUSY : Nat := 4
abbrev tbLOCKED : Nat := 5
abbrev tbMODE : Nat := 6
abbrev tbECC : Nat := 7

/-! ## Writes of entries -/

/-- Words 0 to n − 1 of an entry of the acting bank. -/
def Chip.putEntry (c : Chip) (p : Page) (t i n : Nat) (w : Nat → Word) : Chip :=
  (List.range n).foldl (fun (c : Chip) k => c.setTword p t i k (w k)) c

/-- An entry of the acting bank emptied: its words take their reset values. -/
def Chip.emptyEntry (c : Chip) (p : Page) (t i : Nat) : Chip :=
  { c with tblA := keepKeys (fun k => decide (k / 128 ≠ tblKey p t i 0 / 128)) c.tblA }

/-- Every entry of the acting bank emptied. -/
def Chip.emptyTable (c : Chip) (p : Page) (t : Nat) : Chip :=
  { c with tblA := keepKeys (fun k => decide (tblPageTable k ≠ pageIdx p * 16 + t)) c.tblA }

/-- The limits of a ONESHOT entry (R148). -/
def Chip.oneOk (c : Chip) (w : Nat → Word) : Bool :=
  let kind := bitsAt (w 3) 0 3
  let distance : Bool := (w 3).toNat.testBit 4
  let lead : Bool := (w 3).toNat.testBit 8
  decide (kind ≠ 7) && !(decide (kind = 1 ∨ kind = 4) && (distance || lead))
    && (decide (kind = 0) || (if distance then c.is pPULSE (pulseFld F.PULSE_PCFG_p_EN (bitsAt (w 3) 5 2)) else decide (bitsAt (w 2) 0 30 ≤ 999999999)))

/-- A WRITE of a ONESHOT entry (R148, R151): DATA6 and DATA7 are ignored. -/
def Chip.writeOne (c : Chip) (i : Nat) (w : Nat → Word) : Chip × Nat :=
  if ¬ c.oneOk w then (c, tbRANGE)
  else
    let c := (c.abortAction i).putEntry pSTORYTBL 1 i 6 w
    (if c.one i fOsKind = 0 then c.tput pSTORYTBL 1 i fOsState oFREE else c.arm i, tbOK)

/-- A UNIT entry that a WRITE or CLEAR may change (R211). -/
def Chip.unitOpen (c : Chip) (u : Nat) : Bool := decide ((c.unit u).state = uUNKNOWN ∨ (c.unit u).state = uRETIRED)

/-- A WRITE of a UNIT entry (R211): a RETIRED entry stays RETIRED. -/
def Chip.writeUnit (c : Chip) (u : Nat) (w : Nat → Word) : Chip × Nat :=
  let twin : Bool := match c.unitWith (unitKeyOf w) with | some v => decide (v ≠ u) | none => false
  if ¬ c.unitOpen u ∨ ¬ unitOk w ∨ (bitsAt (w 0) 0 3 ≠ 0 ∧ twin) then (c, tbRANGE) else (c.putEntry pUNITS 0 u 4 w, tbOK)

/-- A UNIT entry emptied to UNKNOWN; its incarnation stays. -/
def Chip.clearUnit (c : Chip) (u : Nat) : Chip := (c.emptyEntry pUNITS 0 u).setUnit u { incarnation := (c.unit u).incarnation }

/-- A refused write or clear of guarded entries (R142). -/
def Chip.guardRefused (c : Chip) : Chip × Nat := (c.raise pSTORYTBL E.STORY_TBL_ENTRY_GUARDED, tbRANGE)

/-- A WRITE to a direct table. -/
def Chip.writeDirect (c : Chip) (p : Page) (side : Nat) (o : WinOp) (parts : Nat) (w : Nat → Word) : Chip × Nat :=
  match p.kind, o.table with
  | .fdb, _ =>
    match c.fdbWrite w with
    | some (i, c) => (c.putIndex p side i, tbOK)
    | none => (c, tbFULL)
  | .storyTbl, 0 => if c.guarded o.index then c.guardRefused else (c.putEntry p 0 o.index (8 * parts) w, tbOK)
  | .storyTbl, _ => c.writeOne o.index w
  | .cinch, 0 => if watchOk w then ((c.putEntry p 0 o.index 5 w).watchWritten o.index, tbOK) else (c, tbRANGE)
  | .cinch, _ => if slotOk w then (c.putEntry p 1 o.index (8 * parts) w, tbOK) else (c, tbRANGE)
  | .units, _ => c.writeUnit o.index w
  | _, _ => (c.putEntry p o.table o.index (8 * parts) w, tbOK)

/-- A CLEAR in a direct table. -/
def Chip.clearDirect (c : Chip) (p : Page) (o : WinOp) (w : Nat → Word) : Chip × Nat :=
  match p.kind, o.table with
  | .fdb, _ =>
    match c.fdbFind (fdbKey w).1 (fdbKey w).2 with
    | some i => (c.fdbErase i, tbOK)
    | none => (c, tbNOTFOUND)
  | .storyTbl, 0 => if c.guarded o.index then c.guardRefused else (c.emptyEntry p 0 o.index, tbOK)
  | .storyTbl, _ => ((c.abortAction o.index).emptyEntry p 1 o.index, tbOK)
  | .cinch, 0 => ((c.emptyEntry p 0 o.index).setWatch o.index {}, tbOK)
  | .units, _ => if c.unitOpen o.index then (c.clearUnit o.index, tbOK) else (c, tbRANGE)
  | _, _ => (c.emptyEntry p o.table o.index, tbOK)

/-- A CLEAR_ALL of a direct table. -/
def Chip.clearAllDirect (c : Chip) (p : Page) (t : Nat) : Chip × Nat :=
  match p.kind, t with
  | .storyTbl, 0 => if c.guardedCount ≠ 0 then c.guardRefused else (c.emptyTable p 0, tbOK)
  | .storyTbl, _ => ((c.armed.foldl (fun (c : Chip) i => c.abortAction i) c).emptyTable p 1, tbOK)
  | .cinch, 0 => ({ c.emptyTable p 0 with watches := [] }, tbOK)
  | .units, _ =>
    if c.units.any fun (e : Nat × UnitRt) => !c.unitOpen e.1 then (c, tbRANGE)
    else (((tblIndices c.tblA p 0 ++ c.units.map fun e => e.1).eraseDups.foldl (fun (c : Chip) u => c.clearUnit u) c).emptyTable p 0, tbOK)
  | _, _ => (c.emptyTable p t, tbOK)

/-- A WRITE, CLEAR or CLEAR_ALL of the staged bank. -/
def Chip.changeStaged (c : Chip) (p : Page) (o : WinOp) (parts : Nat) (w : Nat → Word) : Chip :=
  match o.op with
  | 3 =>
    (List.range (8 * parts)).foldl (fun (c : Chip) k =>
      c.setTstaged p o.table o.index k (if p.kind = .macsec ∧ o.table = 1 ∧ k = 0 then putBits (w 0) 1 1 0 else w k)) c
  | 4 => { c with tblS := keepKeys (fun k => decide (k / 128 ≠ tblKey p o.table o.index 0 / 128)) c.tblS }
  | _ => { c with tblS := keepKeys (fun k => decide (tblPageTable k ≠ pageIdx p * 16 + o.table)) c.tblS }

/-! ## Operations -/

/-- The pages whose table operations end in MODE while they are off (R166, R167). -/
def Chip.tblMode (c : Chip) (p : Page) : Bool :=
  match p.kind with
  | .storyTbl => decide (c.mode = modeSentry)
  | .cinch => !c.live p
  | _ => false

/-- A SEARCH: tables without a key hold no entry of any. -/
def Chip.tblSearch (c : Chip) (p : Page) (side : Nat) (o : WinOp) (w : Nat → Word) : Chip × Nat :=
  let found := match p.kind, o.table with
    | .fdb, 0 => c.fdbFind (fdbKey w).1 (fdbKey w).2
    | .units, 0 => if bitsAt (w 0) 0 3 = 0 then none else c.unitWith (unitKeyOf w)
    | _, _ => none
  match found with
  | some i => (c.putIndex p side i, tbOK)
  | none => (c, tbNOTFOUND)

/-- The operations that place or find an entry by its key alone, or that name none. -/
def keyed (p : Page) (o : WinOp) : Bool := decide (o.op = 5 ∨ o.op = 6) || (decide (p.kind = .fdb) && decide (o.table = 0 ∧ 2 < o.op))

/-- WRITE, CLEAR, CLEAR_ALL. -/
def changes (op : Nat) : Bool := decide (op = 3 ∨ op = 4 ∨ op = 6)

/-- An operation acts. An operation on a table that the page does not have, and one that changes a read-only table, end with RANGE: the
spec names no RESULT for them (DESIGN CHOICE, log entry 107). -/
def Chip.tblAct (c : Chip) (p : Page) (side : Nat) (o : WinOp) (ecc : Bool) : Chip × Nat :=
  let w := c.bufWord p side
  if c.tblMode p then (c, tbMODE)
  else match tblInfo p o.table with
    | none => (c, tbRANGE)
    | some t =>
      let busy : Bool := decide (t.kind = .staged) && decide (c.commitState p ≠ 0)
      if ¬ keyed p o ∧ t.entries ≤ o.index then (c, tbRANGE)
      else if changes o.op ∧ t.kind = .readOnly then (c, tbRANGE)
      else if changes o.op ∧ c.locked p then (c.logAccess p errLocked o.req (regKey p 0x124), tbLOCKED)
      else if changes o.op ∧ busy then (c.logAccess p errStagedBusy o.req (regKey p 0x124), tbSTAGEDBUSY)
      else match o.op with
        | 1 | 2 =>
          if ecc then
            let (bs, c) := c.freeBytes (32 * t.parts)
            (c.fillBuf p side t.parts fun k => BitVec.ofNat 32 (leAt bs (4 * k) 4), tbECC)
          else if t.kind = .staged ∧ o.op = 1 then (c.fillBuf p side t.parts (c.tblStagedWord p o.table o.index), tbOK)
          else (c.fillBuf p side t.parts (c.tblWord p o.table o.index), tbOK)
        | 5 => c.tblSearch p side o w
        | op =>
          if t.kind = .staged then (c.changeStaged p o t.parts w, tbOK)
          else if op = 3 then c.writeDirect p side o t.parts w
          else if op = 4 then c.clearDirect p o w
          else c.clearAllDirect p o.table

/-- A write of TBL_CMD: an unassigned OP starts nothing. What a lock or a commit refuses is logged now and ends with its RESULT. -/
def Chip.tblCmd (c : Chip) (req : Requester) (p : Page) (op tag : Nat) : Chip × Nat :=
  let side := reqSide req
  let a := c.tblAddr p side
  if ¬ hasTable p then (c, errRsvWrite)
  else if (c.win p side).isSome then (c, errTblBusy)
  else if op = 0 ∨ 6 < op then (c, 0)
  else
    let t := bitsAt a 20 4
    let staged : Bool := match tblInfo p t with | some i => decide (i.kind = .staged) | none => false
    let other : Bool := match c.win p (1 - side) with | some o => decide (o.table = t) | none => false
    let e := if changes op ∧ c.locked p then errLocked else if changes op ∧ staged ∧ c.commitState p ≠ 0 then errStagedBusy else 0
    let o : WinOp := { op := op, table := t, index := bitsAt a 0 20, tag := tag % 256, req := req, waiting := other
                       result := if e = errLocked then tbLOCKED else if e = errStagedBusy then tbSTAGEDBUSY else tbOK }
    (c.setWin p side (some o), e)

/-- TBL_CMD as its requester posts it. -/
def Chip.tblPosted (c : Chip) (req : Requester) (p : Page) (op tag : Nat) : Chip :=
  c.posted req p 0x124 (BitVec.ofNat 32 (op + 256 * (tag % 256))) fun c => c.tblCmd req p op tag

/-- An operation waits: for the other window's, or for the refill of its staged bank. -/
def Chip.tblWaits (c : Chip) (p : Page) (o : WinOp) : Bool :=
  o.waiting || ((stagedTables p).contains o.table && c.syncs.contains (pageIdx p))

/-- TBL_DONE: the operation of a window takes effect and ends with RESULT and TAG; the other window's may follow. -/
def Chip.tblDone (c : Chip) (p : Page) (side : Nat) (ecc : Bool) : Chip :=
  match c.win p side with
  | none => c
  | some o =>
    if c.tblWaits p o then c
    else
      let r := if o.result ≠ tbOK then (c, o.result) else c.tblAct p side o ecc
      let c := r.1.setWin p side none
      let c := match c.win p (1 - side) with | some q => c.setWin p (1 - side) (some { q with waiting := false }) | none => c
      (c.setRegAt (sideKey p 0x128 side) (BitVec.ofNat 32 (16 * r.2 + 256 * o.tag))).raise p E.TBL_DONE

/-- BANK_SYNC_DONE: the refill ends. -/
def Chip.bankSyncDone (c : Chip) (p : Page) : Chip := { c with syncs := c.syncs.filter fun i => decide (i ≠ pageIdx p) }

def sideNo : Side → Nat
  | .host => 0
  | .fw => 1

/-! ## Meanings -/

/-- TBL_READ (R54). -/
def execTblRead (dt : Nat) (req : Requester) (page : Page) (tag : Byte) (s : State) : Host.Outcome State Fault Refusal :=
  .next (s.run dt fun c => c.tblPosted req page 1 tag.toNat)

/-- TBL_READ_ACTIVE (R55). -/
def execTblReadActive (dt : Nat) (req : Requester) (page : Page) (tag : Byte) (s : State) : Host.Outcome State Fault Refusal :=
  .next (s.run dt fun c => c.tblPosted req page 2 tag.toNat)

/-- TBL_WRITE (R55). -/
def execTblWrite (dt : Nat) (req : Requester) (page : Page) (tag : Byte) (s : State) : Host.Outcome State Fault Refusal :=
  .next (s.run dt fun c => c.tblPosted req page 3 tag.toNat)

/-- TBL_CLEAR (R55). -/
def execTblClear (dt : Nat) (req : Requester) (page : Page) (tag : Byte) (s : State) : Host.Outcome State Fault Refusal :=
  .next (s.run dt fun c => c.tblPosted req page 4 tag.toNat)

/-- TBL_SEARCH (R54). -/
def execTblSearch (dt : Nat) (req : Requester) (page : Page) (tag : Byte) (s : State) : Host.Outcome State Fault Refusal :=
  .next (s.run dt fun c => c.tblPosted req page 5 tag.toNat)

/-- TBL_CLEAR_ALL (R55). -/
def execTblClearAll (dt : Nat) (req : Requester) (page : Page) (tag : Byte) (s : State) : Host.Outcome State Fault Refusal :=
  .next (s.run dt fun c => c.tblPosted req page 6 tag.toNat)

/-- TBL_DONE (R55); `ecc` says that the entry read has an uncorrectable memory error. -/
def execTblDone (dt : Nat) (side : Side) (page : Page) (ecc : Bool) (s : State) : Host.Outcome State Fault Refusal :=
  .next (s.run dt fun c => c.onPage page fun c => c.tblDone page (sideNo side) ecc)

/-- BANK_SYNC_DONE (R55). -/
def execBankSyncDone (dt : Nat) (page : Page) (s : State) : Host.Outcome State Fault Refusal := .next (s.run dt fun c => c.onPage page fun c => c.bankSyncDone page)

end Sys2Proof.Machine
end

