-- ==== Sys2Proof/Machine/SoftReset.lean ====
section
/-! DEFINITION. `CTRL`: enabling a block (R36) and its soft reset (R37, R101, R134, R322). -/
namespace Sys2Proof.Machine

open Sys2Proof

/-! ## CTRL.EN -/

/-- The link of a T port or of the host port after a change of what it depends on. -/
def Chip.enFollow (c old : Chip) (p : Page) : Chip :=
  match p.kind with
  | .port => if p.inst < 28 then (c.portFollow p.inst).forwardKept else if p.inst = 30 then c.hostEdge old else c
  | .can => c.canFollow p.inst
  | .lin => c.linFollow p.inst
  | .spill => if c.enabled p = old.enabled p then c else c.spillEnable (c.enabled p)
  | .dma => (if c.enabled p then c else c.ringsOff).hostEdge old
  | .tenon => c.tenonFollow p.inst
  | _ => c

/-- `CTRL.EN` takes a value, and the block follows. -/
def Chip.enTo (c : Chip) (p : Page) (en : Bool) : Chip := (c.put p F.CTRL_EN en.toNat).enFollow c p

/-! ## CTRL.SOFT_RST -/

/-- The pages that are reset through RST alone (R37). -/
def noSoftReset (p : Page) : Bool :=
  match p.kind with
  | .sys | .clk | .pwr | .rst | .aon => true
  | _ => false

/-- A register of the page at 0x140 to 0xFFF, on every requester's side. -/
def ownKey (p : Page) (k : Nat) : Bool :=
  let a := k % 0x1000000
  decide (pageBase p + 0x140 ≤ a ∧ a < pageBase p + 0x1000)

/-- The page's own registers, tables, counters and captured counters at their reset values; operations of its windows ended. -/
def Chip.clearPage (c : Chip) (p : Page) : Chip :=
  let i := pageIdx p
  { c with
    regs := keepKeys (fun k => !ownKey p k) c.regs
    tblA := keepKeys (fun k => decide (tblPage k ≠ i)) c.tblA
    tblS := keepKeys (fun k => decide (tblPage k ≠ i)) c.tblS
    cnt := keepKeys (fun k => decide (cntPage k ≠ i)) c.cnt
    snap := keepKeys (fun k => decide (cntPage k ≠ i)) c.snap
    wins := keepKeys (fun k => decide (k / 2 ≠ i)) c.wins
    syncs := c.syncs.filter fun j => decide (j ≠ i) }

/-- What the reset of a system page's block ends while its registers still stand. -/
def Chip.resetSystem (c : Chip) (p : Page) : Chip :=
  match p.kind with
  | .xmem => { c with flOps := [] }
  | .boot => { c with otpOp := none }
  | .upd => { (if c.stage = usPREPARING ∨ c.stage = usREADY then c.prepRejoin else c) with upd := { cleanAt := c.cycles } }
  | .prisil => { c with root := none, slots := [], succ := none, prisilOps := [], shareFaults := [] }
  | .trestle => { c.trStop trOFF 0 with tr := {} }
  | .wear => { c with wear := { at' := c.cycles, senseAt := c.cycles, lifeAge := c.wear.lifeAge, lifeAt := c.wear.lifeAt } }
  | .evio => { c with pinPulses := [], ilog := [], ilogSeq := 0 }
  | .host =>
    { c.pcieDown .linkLoss with wseq := [], failed := [], undecided := [], pel := [], pelSeq := 0, capRing := [], fences := [] }
  | .dma => { c.ringsOff with rings := [], rxDma := [], rxHeld := [], readRing := 31, writeRing := 15, readPre := false, writePre := false }
  | .dxlt => c.softResetDxlt
  | .tenon => if c.tlState p.inst = tlOFF then c else c.tenonDown p.inst tlOFF false
  | .tring => { c with ehruzConflict := none }
  | .qspis => { c with qsRead := none, fences := c.qsFences }
  | _ => c

/-- The same for the pages of time, the Story pole and Cinch. -/
def Chip.resetTimed (c : Chip) (p : Page) : Chip :=
  match p.kind with
  | .time => { c with ppsArm := none, ppsOut := none, ppsSecond := 0, ppsOld := none, stepAt := none, lossAt := none, headEpoch := none, corrAt := c.cycles, holdoverAt := c.cycles, holdoverLong := false }
  | .gptp => { c with ptp := erase c.ptp p.inst }
  | .story =>
    let before := c.pinsNamed
    { c with lists := [], rels := [], rlog := [], rlogSeq := 0 }.unnamePins before
  | .storyTbl => { (c.armed.foldl (fun (c : Chip) i => c.abortAction i) c) with ones := [] }
  | .cinch => { c with watches := [], safeFrames := [] }
  | .pulse => { c with pulses := [] }
  | _ => c

/-- The same for the pages of the data plane; RSEQ and BUF discard every queue (R101). FDB drops the frames of the SENTRY bypass, and the
frames that SPILL loses count as SPILL_ECC_DROP and are told lost, as at a loss of PLL_D (R314) (DESIGN CHOICE, log entry 132). -/
def Chip.resetPlane (c : Chip) (p : Page) : Chip :=
  match p.kind with
  | .buf | .rseq => c.flushAllQueues
  | .spill => { c.spillLost with spillTraining := false, spillCredit := 131072, spillAt := c.cycles }
  | .fdb => { c.dropBypass with ageAt := c.cycles, flush := none }
  | .frer => { c with holds := [], comps := [], members := [] }
  | .bridle => { c with policers := [], sessions := [] }
  | .units => { c with units := [], claims := [], unitCmd := none }
  | .macsec => { c with pns := [], saKeys := [], keyInstall := none }
  | .port =>
    let n := p.inst
    let c := c.rxAbandon n
    if n < 28 then (if c.linkState n = lsOff then c else c.linkTo n lsOff) else c.flushPort n
  | .gw => { c with inq := [], acfs := [], asms := [], sigs := [], nius := [] }
  | .can => (c.canOff p.inst).setCan p.inst {}
  | .lin => c.setLin p.inst {}
  | .uart => c.setUart p.inst {}
  | _ => c

/-- The PHY's link is lost with its state: a port that had begun to train trains anew (DEDUCED, log entry 70). -/
def Chip.phyReset (c : Chip) (n : Nat) : Chip :=
  let c := c.setPortRt n { c.portRt n with kept := none }
  let st := c.linkState n
  if st = lsOff ∨ st = lsSearch ∨ st = lsSleep then c else c.restart n

/-- TIME after its soft reset (R134): as at INVALID by RESET, EPOCH one further. -/
def Chip.timeReset (c : Chip) (epoch : Nat) : Chip :=
  let c : Chip := if c.ringId = 0 then c else (c.setReg pTIME 0x140 0x00640006).setReg pTIME 0x940 0x00640006
  ((c.anchor 0).refreshIncr.put pTIME F.TIME_TIME_STATUS_EPOCH epoch).invalidNow icRESET

/-- UPD after its soft reset reads directory, thermometer and STAGING anew (DEDUCED, log entry 70). -/
def Chip.updStart (c : Chip) (x : Ext) : Chip :=
  let c := c.showTherm x
  match c.boot.dir with
  | some d =>
    let c := c.showDir d
    match recordTarget x d with
    | some t => (c.put pUPD F.UPD_STAGED_INFO_ARM_TARGET t).setStage usARMED
    | none => c.setStage (stagedOrEmpty x d)
  | none => c

/-- A clock that FAB or GW reports is not its own: while it is lost the status stays (DEDUCED, log entry 70). -/
def Chip.keepWord (c old : Chip) (p : Page) (off : Nat) : Chip := c.setReg p off (old.reg p off)

/-- What the block shows of the rest of the device once its registers are at reset. -/
def Chip.resetShown (c old : Chip) (x : Ext) (p : Page) : Chip :=
  match p.kind with
  | .time => c.timeReset old.epoch
  | .upd => (c.put pUPD F.UPD_UPD_STATUS_RUN_SLOT (old.get pUPD F.UPD_UPD_STATUS_RUN_SLOT)).updStart x
  | .fab => if old.is pFAB F.FAB_FAB_STATUS_CLK_OK then c else c.keepWord old pFAB 0x148
  | .gw => if old.clkSafe then c.keepWord old pGW 0x150 else c
  | .pwr => c
  | .spill => if c.enabled p then c.spillEnable true else c
  | .tring =>
    let seen := old.reg p 0x150 &&& BitVec.ofNat 32 0x23F
    ((c.setReg p 0x150 seen).ringUpdate).showConflict
  | .phy => c.phyReset p.inst
  | _ => c.enFollow old p

/-- A soft reset (R37): a pending commit ends ABORTED, the logic, registers and tables go to reset, the crossings are flushed. -/
def Chip.softReset (c : Chip) (x : Ext) (p : Page) : Chip :=
  let c := (c.abortPage p).xingFlush p
  let d := ((c.resetSystem p).resetTimed p).resetPlane p
  (d.clearPage p).resetShown c x p

/-- A write to CTRL (R36, R37). -/
def Chip.writeCtrl (c : Chip) (x : Ext) (p : Page) (v : Word) : Chip × Nat :=
  if c.locked p then (c, errLocked)
  else
    let c := c.enTo p (v.toNat.testBit 0)
    (if v.toNat.testBit 1 ∧ ¬ noSoftReset p then c.softReset x p else c, 0)

/-! ## Meanings -/

/-- BLOCK_ENABLE (R36). -/
def execBlockEnable (dt : Nat) (req : Requester) (page : Page) (en : Bool) (s : State) : Host.Outcome State Fault Refusal :=
  .next (s.run dt fun c => c.posted req page 0x010 (BitVec.ofNat 32 en.toNat) fun c => c.writeCtrl s.ext page (BitVec.ofNat 32 en.toNat))

/-- SOFT_RST (R37), with the value of EN that the write carries. -/
def execSoftRst (dt : Nat) (req : Requester) (page : Page) (en : Bool) (s : State) : Host.Outcome State Fault Refusal :=
  .next (s.run dt fun c => c.posted req page 0x010 (BitVec.ofNat 32 (2 + en.toNat)) fun c => c.writeCtrl s.ext page (BitVec.ofNat 32 (2 + en.toNat)))

end Sys2Proof.Machine
end

