-- ==== Sys2Proof/Machine/Reads.lean ====
section
/-! DEFINITION. What every register reads as (R36, R38, R39, R40, R54, R56): reading changes nothing. -/
namespace Sys2Proof.Machine

open Sys2Proof

/-! ## Header, window, counters -/

/-- `STATUS.LINK_UP` of a PORT page: the port's link is up (R80; of a T port and of port 30, R280 and R298). -/
def Chip.showsUp (c : Chip) (n : Nat) : Bool :=
  if n = 30 then decide (c.hostLinkState = lsUp) else if 28 ≤ n then decide (c.tenonPortState (n - 28) = lsUp) else c.linkState n == lsUp

/-- `STATUS` (R36). -/
def Chip.statusWord (c : Chip) (p : Page) : Word :=
  let table : Bool := (c.win p 0).isSome || (c.win p 1).isSome || c.syncs.contains (pageIdx p)
  let err : Bool := decide (c.get p F.ERR_CAUSE_CODE ≠ 0)
  let commit : Bool := decide (c.commitState p ≠ 0)
  BitVec.ofNat 32 ((c.ready p).toNat + 2 * err.toNat + 4 * (c.locked p).toNat + 8 * commit.toNat
    + 16 * (hasSnap p && c.snapBusy p).toNat + 32 * table.toNat + 65536 * (p.kind == .port && c.showsUp p.inst).toNat)

/-- `TBL_STATUS` of one side (R54): BUSY and SYNC over the result of the last operation. -/
def Chip.tblStatusWord (c : Chip) (p : Page) (side : Nat) : Word :=
  let w := c.regAt (sideKey p 0x128 side)
  let w := putBits w F.TBL_STATUS_BUSY.lo 1 (c.win p side).isSome.toNat
  putBits w F.TBL_STATUS_SYNC.lo 1 (c.syncs.contains (pageIdx p)).toNat

/-- Where the counters of a page stand (the Counters line of each page chapter). -/
def cntBase (p : Page) : Nat :=
  match p.kind with
  | .host | .prisil => 0x300
  | .dma => 0x600
  | _ => 0x400

/-- A half of a counter as the latest snapshot holds it (R56). -/
def Chip.snapHalf (c : Chip) (k : Nat) (high : Bool) : Word :=
  let v := (lookupD 0 c.snap k).toNat
  BitVec.ofNat 32 (if high then v / 2 ^ 32 else v)

/-- Does an offset of a page show a counter? -/
def isCounter (p : Page) (off : Nat) : Bool :=
  hasSnap p && decide (cntBase p ≤ off) && (decide (p.kind ≠ .host) || decide (off < 0x330))

/-! ## Registers that show what other state holds -/

/-- `LINK_STATUS` of a T port and of port 30 (R280, R298): only STATE is meaningful. -/
def Chip.portStatusWord (c : Chip) (n : Nat) (w : Word) : Word :=
  if n = 30 then BitVec.ofNat 32 c.hostLinkState
  else if 28 ≤ n then BitVec.ofNat 32 (c.tenonPortState (n - 28))
  else w

/-- `ILOG_HEAD0` and `ILOG_HEAD1` (R169). -/
def Chip.ilogHead (c : Chip) (i : Nat) : Word :=
  match c.ilog with
  | [] => 0
  | e :: _ => BitVec.ofNat 32 (if i = 0 then e.stamp else e.pin + 8 * e.rising.toNat + 16 + 256 * e.epoch + 65536 * e.seq)

/-- `AON.WARM_STATUS`: bit i for Bi, bit 6 + i for Gi. -/
def Chip.warmMap (c : Chip) : Word :=
  BitVec.ofNat 32 (((List.range 18).map fun i => if (c.warmOf (if i < 6 then i else i + 2)).isSome then 2 ^ i else 0).sum)

/-- `EVT_SUMn` (R52): bit i is set while the page with summary index 32 n + i has an event pending. -/
def Chip.evtSum (c : Chip) (n : Nat) : Word :=
  BitVec.ofNat 32 (((List.range 32).map fun i =>
    match pageOfIdx (32 * n + i) with
    | some p => if c.evtPend p = 0 then 0 else 2 ^ i
    | none => 0).sum)

/-- `DMA.HALTED`: bit r for ring r. -/
def Chip.haltedMap (c : Chip) : Word :=
  BitVec.ofNat 32 (((List.range 32).map fun r => if c.ringState r = rgHALTED then 2 ^ r else 0).sum)

/-- The measurement that `MEAS_SEL` names (R352). -/
def Chip.measWord (c : Chip) (i : Nat) : Word :=
  let m := match c.get pBOOT F.BOOT_MEAS_SEL_V with | 0 => c.boot.rom | 1 => c.boot.fw | 2 => c.boot.set | _ => []
  (wordsOf m 12).getD i 0

/-- The data plane and time pages. -/
def Chip.planeWord (c : Chip) (p : Page) (off : Nat) (w : Word) : Word :=
  match p.kind, off with
  | .port, 0x150 => c.portStatusWord p.inst w
  | .phy, 0x14C => c.warmStatus p.inst
  | .buf, 0x144 => BitVec.ofNat 32 c.poolFree
  | .buf, 0x148 => BitVec.ofNat 32 c.heldFree
  | .buf, 0x14C => BitVec.ofNat 32 c.heldUnreserved
  | .spill, 0x148 => putBits w 1 1 c.spillActive.toNat
  | .spill, 0x14C => BitVec.ofNat 32 c.spillUsed
  | .fdb, 0x144 => w &&& 0x7FFFFFFF
  | .fdb, 0x148 => BitVec.ofNat 32 c.fdbCount
  | .fdb, 0x150 => BitVec.ofNat 32 c.flush.isSome.toNat
  | .time, 0x150 => putBits w 20 1 (decide (c.rateActive ≠ c.rateTarget)).toNat
  | .story, 0x144 => BitVec.ofNat 32 ((c.storyRuns && c.timeValid).toNat
      + 2 * (c.lists.any fun (e : Nat × ListRt) => decide (e.2.state = 3)).toNat)
  | .story, 0x164 => BitVec.ofNat 32 c.rlog.length
  | .storyTbl, 0x140 => BitVec.ofNat 32 (4096 - (c.ones.filter fun (e : Nat × Option OneRt) => e.2.isSome).length)
  | .storyTbl, 0x144 => BitVec.ofNat 32 c.guardedCount
  | .cinch, 0x144 => putBits w 0 10 c.trippedCount
  | .frer, 0x144 => putBits w 0 7 c.holds.length
  | .frer, 0x14C => BitVec.ofNat 32 c.degradedCnt
  | .bridle, 0x168 => putBits w 0 10 c.openSessions
  | .units, 0x148 => BitVec.ofNat 32 (c.unitsIn 4 + 65536 * c.unitsIn 3)
  | .tenon, 0x154 => BitVec.ofNat 32 (c.creditWaiting p.inst)
  | .story, o => if 0x150 ≤ o ∧ o < 0x160 then c.rlogHead ((o - 0x150) / 4) else w
  | .evio, o => if o = 0x160 ∨ o = 0x164 then c.ilogHead ((o - 0x160) / 4) else w
  | .pulse, o =>
    if 0x140 ≤ o ∧ o < 0x1C0 ∧ o % 0x20 = 4 then c.snapHalf (pulseKey ((o - 0x144) / 0x20)) false
    else if 0x140 ≤ o ∧ o < 0x1C0 ∧ o % 0x20 = 8 then c.snapHalf (pulseKey ((o - 0x148) / 0x20)) true
    else w
  | _, _ => w

/-- `DOM_RST`: the domain resets that are not yet complete (R318). -/
def Chip.domBits (c : Chip) : Word :=
  BitVec.ofNat 32 ((c.wdt.doms.filter fun (e : Nat × Nat) => decide (c.cycles < e.2)).foldl (fun w e => setBit w e.1) 0)

/-- The gateway, host and system pages. -/
def Chip.systemWord (c : Chip) (req : Requester) (p : Page) (off : Nat) (w : Word) : Word :=
  match p.kind, off with
  | .gw, 0x150 => putBits w F.GW_GW_STATUS_HFRC_TIMING.lo 1 (c.is pCLK F.CLK_CLK_SEL_GCLK_HFRC).toNat
  | .gw, 0x148 => putBits w 0 13 c.inq.length
  | .can, 0x168 => putBits w 0 16 (c.canRt p.inst).queue.length
  | .uart, 0x154 => c.uartStatus p.inst
  | .host, 0x148 => c.fenceWord (reqCode req) false
  | .host, 0x14C => c.wseqOf req
  | .host, 0x174 => BitVec.ofNat 32 c.pel.length
  | .host, o => if 0x160 ≤ o ∧ o < 0x170 then c.pelHead ((o - 0x160) / 4) else w
  | .dma, 0x144 => BitVec.ofNat 32 (c.rxHeld.length + 65536 * c.heldUnits)
  | .dma, 0x148 => c.haltedMap
  | .dma, o => if 0x200 ≤ o ∧ o < 0x600 ∧ o % 0x20 = 0x18 then putBits w 16 13 (c.heldOf ((o - 0x218) / 0x20)).length else w
  | .dxlt, 0x1B4 => BitVec.ofNat 32 c.flts.length
  | .dxlt, o => if 0x1A0 ≤ o ∧ o < 0x1B0 then c.fltHead ((o - 0x1A0) / 4) else w
  | .qspis, 0x144 => putBits w 0 1 c.qsRead.isSome.toNat
  | .rst, 0x148 => c.domBits
  | .rst, 0x158 => putBits w 0 16 c.wdtMs
  | .aon, 0x174 => c.warmMap
  | .boot, o => if 0x180 ≤ o ∧ o < 0x1B0 then c.measWord ((o - 0x180) / 4) else w
  | .trestle, 0x154 => putBits w 16 16 (c.ageUs c.tr.beatAt)
  | .trestle, 0x158 => putBits w 16 16 (c.ageUs c.tr.ckptAt)
  | .trestle, 0x180 => BitVec.ofNat 32 c.tr.mlog.length
  | .trestle, o => if 0x170 ≤ o ∧ o < 0x17C then c.mlogHead ((o - 0x170) / 4) else w
  | .prisil, 0x148 => c.slotInfo
  | .prisil, 0x14C => c.slotMap 0
  | .prisil, 0x150 => c.slotMap 1
  | .upd, 0x14C => putBits w 10 1 c.burnPending.toNat
  | .sys, o => if 0x150 ≤ o ∧ o < 0x160 then c.evtSum ((o - 0x150) / 4) else w
  | _, _ => w

/-! ## The read -/

/-- The offset of a register below 0x800 as `req` reads it. -/
def Chip.readRow (c : Chip) (req : Requester) (p : Page) (off : Nat) (r : RegRow) : Word :=
  let side := sideOf p off req
  let w := c.regAt (sideKey p off side)
  if r.acc = .wo then 0
  else if off = 0x014 then c.statusWord p
  else if off = 0x01C then c.evtEn p
  else if off = 0x020 then c.evtPend p
  else if off < 0x100 then w
  else if hasTable p ∧ 0x104 ≤ off ∧ off < 0x124 then
    c.bufWord p side (8 * bitsAt (c.tblAddr p side) F.TBL_ADDR_PART.lo F.TBL_ADDR_PART.width + (off - 0x104) / 4)
  else if hasTable p ∧ off = 0x128 then c.tblStatusWord p side
  else if isCounter p off ∧ r.acc = .ro then c.snapHalf (cntKey p ((off - cntBase p) / 8)) (off % 8 = 4)
  else c.systemWord req p off (c.planeWord p off w)

/-- What a read of a page answers: the active copies from 0x800 on (R38), 0 at a reserved offset (R40) and for what can only be
written (R38). -/
def Chip.read (c : Chip) (req : Requester) (p : Page) (off : Nat) : Word :=
  if 0x800 ≤ off then
    match regRow p (off - 0x800) with
    | some r => if r.acc = .rws then c.reg p off else 0
    | none => 0
  else match regRow p off with
    | some r => c.readRow req p off r
    | none => 0

/-! ## The user page, the trace memory, the function's configuration space (R248, R254, R279) -/

/-- What an offset of the user page reads as. -/
def Chip.userRead (c : Chip) (off : Nat) : Word :=
  if off < 0x100 then (if c.is pPERF F.PERF_PERF_CTRL_USER_EN then c.read .pcie pPERF (0x400 + off) else 0)
  else if off = 0x104 then c.read .pcie pPERF 0x134
  else if 0x1000 ≤ off ∧ off < 0x3000 ∧ off % 0x100 = 0 then c.read .pcie pDMA (0x214 + 0x20 * ((off - 0x1000) / 0x100))
  else 0

/-- Word `i` of the capture record in a place of the ring. -/
def Chip.capWord (c : Chip) (place i : Nat) : Word :=
  match c.capRing.find? fun (e : CapRecord) => decide (e.number % 2048 = place) with
  | some e => match i with
    | 0 => BitVec.ofNat 32 e.number
    | 1 => BitVec.ofNat 32 e.stamp
    | 2 => BitVec.ofNat 32 e.kind
    | k + 3 => e.words.getD k 0
  | none => 0

/-- A byte of the trace memory. -/
def Chip.traceByte (c : Chip) (a : Nat) : Byte :=
  let w := if a < 0x20000 then lookupD 0 c.tr.traceRing (a / 4)
    else if a < 0x40000 then c.capWord ((a - 0x20000) / 64) (a % 64 / 4) else 0
  BitVec.ofNat 8 (w.toNat / 2 ^ (8 * (a % 4)))

/-- The offset of a capability of the configuration space, by its ID: power management 0x01, PCI Express 0x10, MSI-X 0x11. -/
def capBase (id : Nat) : Nat := 0x40 + 4 * (Config.capAt id).toNat

/-- The bits that R248, R249, R252 and PCIE_STATUS (R280) give a word of the configuration space: first bit, width, value. Where they stand
is PRESUMED from the PCI Express specification (log entry 106). -/
def Chip.configBits (c : Chip) (off : Nat) : List (Nat × Nat × Nat) :=
  let st := fun f => c.get pHOST f
  if off = 0x04 then [(2, 1, st F.HOST_PCIE_STATUS_BME), (20, 1, 1)]
  else if off = 0x0C then [(16, 8, 0)]
  else if off = 0x10 then [(0, 26, 0x4)]
  else if off = 0x18 then [(0, 24, 0xC)]
  else if off = 0x20 then [(0, 16, 0x4)]
  else if off = 0x30 then [(0, 32, 0)]
  else if off = 0x3C then [(8, 8, 0)]
  else if off = 0x100 then [(0, 16, 0x0001)]
  else if off = capBase 0x01 then [(0, 8, 0x01), (25, 2, 0)]
  else if off = capBase 0x01 + 4 then [(0, 2, 3 * st F.HOST_PCIE_STATUS_D3HOT)]
  else if off = capBase 0x11 then
    [(0, 8, 0x11), (16, 11, 63), (30, 1, st F.HOST_PCIE_STATUS_FUNC_MASK), (31, 1, st F.HOST_PCIE_STATUS_MSIX_EN)]
  else if off = capBase 0x10 then [(0, 8, 0x10), (20, 4, 0)]
  else if off = capBase 0x10 + 4 then [(0, 3, 2), (5, 1, 1), (28, 1, 1)]
  else if off = capBase 0x10 + 0x0C then [(0, 4, 3), (4, 6, 4), (10, 2, 2)]
  else if off = capBase 0x10 + 0x10 then
    (if c.is pHOST F.HOST_PCIE_STATUS_LINK_UP then [(16, 4, st F.HOST_PCIE_STATUS_SPEED), (20, 6, st F.HOST_PCIE_STATUS_WIDTH)] else [])
  else if off = capBase 0x10 + 0x2C then [(1, 7, 7)]
  else []

/-- A word of the configuration space: Device and Vendor ID, class code and revision, the errors reported, and the bits of `configBits`
(R248); every other bit has the layout and the value of the PCI Express specification: free (log entry 106). -/
def Chip.configRead (c : Chip) (off : Nat) : Word × Chip :=
  if off = 0 then (0x96481F3C, c)
  else if off = 8 then (BitVec.ofNat 32 (0x02000000 + bitsAt (c.reg pSYS 0x140) 0 8), c)
  else if off = 0x104 then (BitVec.ofNat 32 c.aer, c)
  else
    let (v, d) := c.takeFree
    ((c.configBits off).foldl (fun w (b : Nat × Nat × Nat) => putBits w b.1 b.2.1 b.2.2) (BitVec.ofNat 32 v), d)

end Sys2Proof.Machine
end

