-- ==== Sys2Proof/Machine/Bus.lean ====
section
/-! DEFINITION. Register writes from every requester (R33 to R40, R51, R252, R253, R279), domain resets (R318, R375). -/
namespace Sys2Proof.Machine

open Sys2Proof

/-! ## Domain resets (R318) -/

/-- The running slot still holds what was measured, and its INSTR and DATA segments match their digests (R375). -/
def Chip.runImageOk (c : Chip) (x : Ext) : Bool :=
  match c.boot.dir with
  | some d =>
    let base := (d.region (rgSLOTA + c.get pUPD F.UPD_UPD_STATUS_RUN_SLOT)).1
    let h := headAt x.flash base
    !c.boot.fw.isEmpty && decide (h.meas = c.boot.fw) && decide (h.meas = Config.sha384 h.covered) && h.segs.all fun s => segOk x.flash base s
  | none => false

/-- What every domain reset does: it is counted, its crossings are flushed (R322), its bit of DOM_RST reads 1 until it is complete. Its
effects begin at the write; how long it lasts, at most 100 us (R318), is a free value (log entry 85). -/
def Chip.domReset (c : Chip) (bit : Nat) (p : Page) : Chip :=
  let (v, c) := c.takeFree
  let doms := (c.wdt.doms.filter fun (e : Nat × Nat) => decide (e.1 ≠ bit)) ++ [(bit, c.cycles + v % usCycles 100)]
  ({ c with wdt := { c.wdt with doms := doms } }.count pRST K.RST_DOM_RESETS).xingFlush p

/-- A cold restart of the cluster (R375) with the results of the Scribe tests: INSTR and DATA of the running slot are loaded again, the
checkpoint area is cleared. -/
def Chip.domTrestle (c : Chip) (x : Ext) (a b : Bool) : Chip :=
  let c := ((c.domReset 0 pTRESTLE).count pTRESTLE K.TRESTLE_COLD_RESTARTS).trStop trOFF 0
  if c.runImageOk x then (c.setTr { c.tr with banks := store [] c.tr.banks c.tr.bank c.boot.fw, dataOf := c.boot.fw }).trStart a b else (c.trResult tcDIGEST).trTo trHALTED

/-- The counter CLK_SAFE_DROP of a channel's page. -/
def clkSafeIdx (port : Nat) : Nat := if isCan port then K.CAN_CLK_SAFE_DROP else if isLin port then K.LIN_CLK_SAFE_DROP else K.UART_CLK_SAFE_DROP

/-- The gateway and the channels take a soft reset; what their queues held is counted as CLK_SAFE_DROP. -/
def Chip.domLegacy (c : Chip) (x : Ext) : Chip :=
  let ports := (List.range 28).map fun k => 32 + k
  let cntOf := fun (c : Chip) n => (c.cntAt (cntKey (chanPage n) (clkSafeIdx n))).toNat
  let d := ports.foldl Chip.clkDrop c
  let lost := ports.map fun n => (n, cntOf d n - cntOf c n)
  let d : Chip := { d with inq := [], rels := d.rels.filter fun (q : RelReq) => decide (q.target < 32) }
  let d := (pGW :: ports.map chanPage).foldl (fun (d : Chip) p => d.softReset x p) d
  (lost.foldl (fun (d : Chip) (e : Nat × Nat) => d.addCnt (chanPage e.1) (clkSafeIdx e.1) e.2) d).domReset 1 pGW

/-- The host-side reset of R251. -/
def Chip.domPcie (c : Chip) : Chip := (c.domReset 2 pHOST).pcieDown .hotReset

/-- R105 from step 2 on; where the fabric has its clock and is on, the free list is rebuilt at once. -/
def Chip.domFabric (c : Chip) : Chip :=
  let c := (c.domReset 3 pFAB).fabricHalt
  if c.is pFAB F.FAB_FAB_STATUS_CLK_OK ∧ c.live pFAB then c.put pFAB F.FAB_FAB_STATUS_REBUILD 1 else c

/-- A write to DOM_RST: the domains in the order of their bits. The results of the Scribe tests are free where no command gives them
(log entry 4). -/
def Chip.domWrite (c : Chip) (x : Ext) (v : Word) : Chip :=
  let c := if v.toNat.testBit 0 then
      let (a, c) := c.takeFree
      c.domTrestle x (a.testBit 0) (a.testBit 1)
    else c
  let c := if v.toNat.testBit 1 then c.domLegacy x else c
  let c := if v.toNat.testBit 2 then c.domPcie else c
  if v.toNat.testBit 3 then c.domFabric else c

/-! ## What writes to the pages' own registers do; none where a write does no more than R38 says -/

/-- A write that starts something and cannot be refused. -/
def acts (c : Chip) : Option (Chip × Nat) := some (c, 0)

/-- A write that is kept, and what follows from it. -/
def Chip.writeThen (c : Chip) (req : Requester) (p : Page) (off : Nat) (v : Word) (f : Chip → Chip) : Option (Chip × Nat) :=
  match c.writePlain req p off v with
  | (c, 0) => some (f c, 0)
  | r => some r

/-- The header, the window and the snapshot control (R36, R54, R56). -/
def Chip.writeHeader (c : Chip) (x : Ext) (req : Requester) (p : Page) (off : Nat) (v : Word) : Option (Chip × Nat) :=
  let w := v.toNat
  if off = 0x010 then some (c.writeCtrl x p v)
  else if off = 0x018 then acts (c.clearEvents p v)
  else if off = 0x01C then some (c.writeEvtEn p v)
  else if off = 0x028 then some (c.commitWrite p (w % 4) (bitsAt v 16 12))
  else if off = 0x030 then some (c.writeLock p w)
  else if 0x104 ≤ off ∧ off < 0x124 then
    let side := reqSide req
    acts (c.setBufWord p side (8 * bitsAt (c.tblAddr p side) 24 4 + (off - 0x104) / 4) v)
  else if off = 0x124 then some (c.tblCmd req p (bitsAt v 0 4) (bitsAt v 8 8))
  else if off = 0x130 then acts (if w.testBit 0 then c.snapTake p else c)
  else none

/-- The data plane, time and channel pages. -/
def Chip.writePlane (c : Chip) (req : Requester) (p : Page) (off : Nat) (v : Word) : Option (Chip × Nat) :=
  let w := v.toNat
  let one := fun (f : Chip) => acts (if w.testBit 0 then f else c)
  match p.kind, off with
  | .port, 0x14C => acts (c.linkCmd p.inst (w % 8))
  | .phy, 0x150 => one (c.cableDiagStart p.inst)
  | .phy, 0x15C => some (c.writeTestMode p.inst w)
  | .spill, 0x158 => one (c.setReg pSPILL 0x154 0)
  | .rseq, 0x148 => one (c.setReg pRSEQ 0x144 0)
  | .fdb, 0x14C => acts (c.fdbFlush v)
  | .frer, 0x140 => acts (c.frerCmd v)
  | .frer, 0x148 => one (c.put pFRER F.FRER_HOLD_STATUS_MAX 0)
  | .bridle, 0x16C => one (c.put pBRIDLE F.BRIDLE_SESSION_STATUS_MAX 0)
  | .units, 0x140 => acts (c.unitStart v req)
  | .macsec, 0x154 => acts (c.keyCmd v)
  | .gw, 0x14C => one (c.put pGW F.GW_INQ_STATUS_MAX 0)
  | .can, 0x164 => acts (c.canCmd p.inst (w % 4))
  | .lin, 0x14C => acts (c.linCmd p.inst (w % 4))
  | .pulse, 0x1C0 => acts (c.pulsePreset (w % 16))
  | .story, 0x160 => acts (c.rlogAck (w % 65536))
  | .evio, 0x148 => c.writeThen req p off v Chip.manualPins
  | .evio, 0x168 => acts (c.ilogAck (w % 65536))
  | .time, 0x170 => some (c.writeRate req v)
  | .time, 0x154 => acts (match w % 16 with
      | 1 => c.captureTime
      | 2 => c.invalidateCmd req
      | 3 => c.stepSet req
      | 4 => c.stepAdd req
      | 5 => c.ppsStepArm req
      | 6 => c.ppsStepDisarm req
      | _ => c)
  | .macsec, o => if 0x160 ≤ o ∧ o < 0x188 then acts (c.setReg p o v) else none
  | _, _ => none

/-- The ring registers (R265, R272). -/
def Chip.ringRegWrite (c : Chip) (off : Nat) (v : Word) : Option (Chip × Nat) :=
  let r := (off - 0x200) / 0x20
  if off % 0x20 = 0x14 then some (c.doorbell r v.toNat false)
  else if off % 0x20 = 0x1C then acts (match bitsAt v 0 2 with
    | 1 => c.ringStart r
    | 2 => c.ringStop r
    | 3 => c.ringResume r (v.toNat.testBit 8)
    | _ => c)
  else none

/-- The host, ring, clock and mode pages. -/
def Chip.writeHost (c : Chip) (x : Ext) (req : Requester) (p : Page) (off : Nat) (v : Word) : Option (Chip × Nat) :=
  let w := v.toNat
  match p.kind, off with
  | .host, 0x170 => acts (c.pelAck (w % 65536))
  | .dxlt, 0x180 => acts (c.invCmd v)
  | .dxlt, 0x1B0 => acts (c.fltAck (w % 65536))
  | .tenon, 0x150 => acts (match w % 4 with | 1 => c.tenonRetrain p.inst | 2 => c.tenonRemeasure p.inst | _ => c)
  | .clk, 0x148 => some (c.writeHfrcCfg req v)
  | .rst, 0x140 => acts (c.setReg pRST 0x140 (c.reg pRST 0x140 &&& ~~~ (v &&& 0x3F)))
  | .rst, 0x144 => acts (if w % 65536 = 0x9648 then c.deviceReset rcSW else c)
  | .rst, 0x148 => acts (c.domWrite x v)
  | .rst, 0x150 => some (c.writeWdt req v)
  | .rst, 0x154 => acts (c.wdtKick (w % 65536))
  | .pwr, 0x148 => acts (c.modeCmd (w % 8) (bitsAt v 16 16))
  | .pwr, 0x150 => acts (c.clearLimp w)
  | .aon, 0x15C => acts (c.rtcCmd (w % 4))
  | .host, o => if 0x400 ≤ o then some (c.writeMsix req o v) else none
  | .dma, o => if 0x200 ≤ o ∧ o < 0x600 then c.ringRegWrite o v else none
  | _, _ => none

/-- HEARTBEAT and CHECKPOINT answer firmware alone (R358, R359). -/
def fwOnly (req : Requester) (c d : Chip) : Option (Chip × Nat) := if req = .trestle then acts d else some (c, errRoWrite)

/-- The boot memory, cluster, key and counter pages, and SYS. UPD_CMD is not among them: it changes the flash. -/
def Chip.writeSystem (c : Chip) (x : Ext) (req : Requester) (p : Page) (off : Nat) (v : Word) : Option (Chip × Nat) :=
  let w := v.toNat
  match p.kind, off with
  | .xmem, 0x14C => acts (if w.testBit 31 then c.flStart req (w % 8) else c)
  | .boot, 0x1C8 => acts (c.otpStart x (w % 4) (bitsAt v 16 16))
  | .trestle, 0x144 => acts (c.trCmd (w % 8) (bitsAt v 16 16))
  | .trestle, 0x14C => fwOnly req c c.heartbeat
  | .trestle, 0x150 => fwOnly req c (c.checkpoint (w % 65536))
  | .trestle, 0x17C => acts (c.mlogAck (w % 65536))
  | .trestle, 0x240 => acts (c.mbxDoorbell req (w % 65536) (bitsAt v 16 8))
  | .trestle, 0x2C4 => acts (c.rspAck req (w % 65536))
  | .prisil, 0x160 => acts (c.prisilCmd req v)
  | .prisil, 0x1F0 => acts (c.prisilEnrol req (w % 65536))
  | .perf, 0x144 => acts (c.perfClr w)
  | .sys, 0x180 => some (c.groupWrite (w % 4) (bitsAt v 16 12))
  | .sys, 0x190 => acts (if w.testBit 0 then c.snapAllTake else c)
  | .perf, o => if 0x180 ≤ o ∧ o < 0x200 then some (c.writeCtrSel req ((o - 0x180) / 4) v) else none
  | .sys, o => if 0x170 ≤ o ∧ o < 0x180 ∧ c.get pSYS F.SYS_GRP_STATUS_STATE ≠ 0 then some (c, errStagedBusy) else none
  | _, _ => none

/-- What a register's access type says of a write that starts nothing (R38). -/
def Chip.writeByType (c : Chip) (req : Requester) (p : Page) (off : Nat) (v : Word) (r : RegRow) : Chip × Nat :=
  match r.acc with
  | .w1c => (c.setReg p off (c.reg p off &&& ~~~ v), 0)
  | .wo | .w1s => (c, 0)
  | _ => c.writePlain req p off v

/-- A write to a page: the cause that refuses it, 0 where it acts. -/
def Chip.writeReg (c : Chip) (x : Ext) (req : Requester) (p : Page) (off : Nat) (v : Word) : Chip × Nat :=
  match (if off < 0x800 then regRow p off else none) with
  | none => (c, c.refuseWrite p off true)
  | some r =>
    if r.acc = .ro then (c, errRoWrite)
    else match c.writeHeader x req p off v with
    | some a => a
    | none => match c.writePlane req p off v with
      | some a => a
      | none => match c.writeHost x req p off v with
        | some a => a
        | none => match c.writeSystem x req p off v with
          | some a => a
          | none => c.writeByType req p off v r

/-! ## Accesses by address (R33, R34, R252, R253) -/

/-- The page in which an access of a wrong size through BAR0 is logged (R40). An access through BAR4 falls in DMA, whose doorbells the user
page holds, and a read of BAR2 that crosses 4 KiB in HOST: the rules name no page for these two (DESIGN CHOICE, log entry 130). -/
def sizePage (a : Nat) : Page := (pageOfAddr (a % 2 ^ 24)).getD pSYS

/-- A write of a size or alignment that the register bus does not carry (R40, R253). -/
def Chip.badSize (c : Chip) (req : Requester) (p : Page) (addr : Nat) (v : Word) : Chip :=
  let n := c.wseqOf req + 1
  let c := if isHost req then { c with wseq := store 0 c.wseq (reqCode req) n } else c
  let c := (c.count pHOST K.HOST_BAD_ACCESS).logAccess p errBusSize req addr
  if isHost req then c.postedFail req addr v errBusSize n.toNat else c

/-- A read that completes with Unsupported Request (R253). -/
def Chip.readFails (c : Chip) (req : Requester) (addr : Nat) : Chip :=
  let c := c.emit (.busError req addr)
  if req = .pcie then c.noteUr addr else c

/-- A read of such a size or alignment. -/
def Chip.badRead (c : Chip) (req : Requester) (p : Page) (addr : Nat) : Chip :=
  ((c.count pHOST K.HOST_BAD_ACCESS).logAccess p errBusSize req addr).readFails req addr

/-- Does the register bus carry an access of this size at this address (R253)? -/
def carried (addr : Nat) : AccSize → Bool
  | .word => decide (addr % 4 = 0)
  | .double => decide (addr % 8 = 0)
  | .other _ => false

/-- A write within the 16 MiB of this device, and its cause of failure. -/
def Chip.localWrite (c : Chip) (x : Ext) (req : Requester) (addr : Nat) (v : Word) : Chip × Ext × Nat :=
  let a := addr % 2 ^ 24
  if c.dark then (c.emit (.busError req a), x, errUnimpl)
  else if a % 4 ≠ 0 then (c.badSize req (sizePage a) a v, x, errBusSize)
  else match pageOfAddr a with
    | none => (c.unimplAccess req a true v, x, errUnimpl)
    | some p =>
      let off := a % 0x1000
      if p = pUPD ∧ off = 0x144 then
        let r := c.updPosted x req v
        (r.1, r.2, 0)
      else
        let r := c.postedE req p off v fun c => c.writeReg x req p off v
        (r.1, x, r.2)

/-- Does an address name this device? A host's offset 0 does (R252); firmware's addresses name it by its ring ID too. -/
def Chip.isLocal (c : Chip) (req : Requester) (dev : Nat) : Bool := decide (dev = 0) || (!isHost req && decide (dev = c.ringId))

/-- The BARs that PCI Express addresses name beside BAR0, and its configuration space (log entry 106): from 2^26 on BAR4, BAR2, that
space. -/
def barOf (req : Requester) (addr : Nat) : Nat := if req = .pcie ∧ 2 ^ 26 ≤ addr then addr / 2 ^ 24 else 0

/-- One 32-bit write through the user page, to the trace memory or to the configuration space (R254, R279). -/
def Chip.userWrite (c : Chip) (bar off : Nat) (v : Word) : Chip :=
  if bar = 4 ∧ off = 0x100 then
    c.posted .pcie pPERF 0x130 v fun c => (if v.toNat.testBit 0 ∧ c.is pPERF F.PERF_PERF_CTRL_USER_EN then c.snapTake pPERF else c, 0)
  else if bar = 4 ∧ 0x1000 ≤ off ∧ off < 0x3000 ∧ off % 0x100 = 0 then
    let r := (off - 0x1000) / 0x100
    c.posted .pcie pDMA (0x214 + 0x20 * r) v fun c => c.doorbell r v.toNat true
  else if bar = 6 then (if off = 0x104 then { c with aer := c.aer &&& (2 ^ 32 - 1 - v.toNat) } else c)
  else c.posted .pcie (if bar = 4 then pDMA else pHOST) (off % 0x1000) v fun c => (c, errRoWrite)

/-- One 32-bit write at a 26-bit address, ring ID over offset. -/
def Chip.wordWrite (c : Chip) (x : Ext) (req : Requester) (addr : Nat) (v : Word) : Chip × Ext :=
  let dev := addr / 2 ^ 24 % 4
  if c.isLocal req dev then
    let r := c.localWrite x req addr v
    (r.1, r.2.1)
  else
    let n := c.wseqOf req + 1
    let c := if isHost req then { c with wseq := store 0 c.wseq (reqCode req) n } else c
    (c.sendRemote req true dev (addr % 2 ^ 24) v n.toNat, x)

/-- A write at a 26-bit address, or through BAR2 or BAR4: of 64 bits, its two halves one after the other (R253). -/
def Chip.busWrite (c : Chip) (x : Ext) (req : Requester) (addr : Nat) (size : AccSize) (v high : Word) : Chip × Ext :=
  let bar := barOf req addr
  let a := addr % 2 ^ 26
  if c.dark ∨ (req = .pcie ∧ ¬ c.pciePowered) then (c.emit (.busError req (addr % 2 ^ 24)), x)
  else if req = .trestle ∧ c.fwHeld then (c.discardHeld, x)
  else if bar = 5 then (c.userWrite 5 (addr % 2 ^ 24) v, x)
  else if ¬ carried addr size then
    if bar = 4 then (c.badSize req pDMA (regKey pDMA (addr % 0x1000)) v, x)
    else if bar = 0 then (c.badSize req (if c.isLocal req (a / 2 ^ 24) then sizePage a else pSYS) a v, x)
    else (c, x)
  else if bar = 0 then
    let r := c.wordWrite x req a v
    if size = .double then r.1.wordWrite r.2 req (a + 4) high else r
  else
    let d := c.userWrite bar (addr % 2 ^ 24) v
    (if size = .double then d.userWrite bar (addr % 2 ^ 24 + 4) high else d, x)

/-- One 32-bit read at a 26-bit address. A read of BRG_FENCE completes when it may (R263). -/
def Chip.wordRead (c : Chip) (req : Requester) (addr : Nat) : Chip :=
  let dev := addr / 2 ^ 24 % 4
  let a := addr % 2 ^ 24
  if ¬ c.isLocal req dev then c.sendRemote req false dev a 0 0
  else match pageOfAddr a with
    | none => c.unimplAccess req a false 0
    | some p =>
      if p = pHOST ∧ a % 0x1000 = 0x148 then c.fenceRead req
      else c.emit (.readData req addr (c.read req p (a % 0x1000)))

/-- One 32-bit read of the user page or of the configuration space. -/
def Chip.userWordRead (c : Chip) (bar off addr : Nat) : Chip :=
  if bar = 4 then c.emit (.readData .pcie addr (c.userRead off))
  else
    let (w, c) := c.configRead off
    c.emit (.readData .pcie addr w)

/-- The bytes that an access names. -/
def accBytes : AccSize → Nat
  | .word => 4
  | .double => 8
  | .other n => n

/-- A read of the trace memory: of any size that crosses no 4 KiB boundary (R254). -/
def Chip.traceRead (c : Chip) (addr n : Nat) : Chip :=
  let a := addr % 2 ^ 24
  if a % 4096 + n ≤ 4096 then c.emit (.traceData addr ((List.range n).map fun i => c.traceByte (a + i)))
  else c.badRead .pcie pHOST (regKey pHOST (a % 0x1000))

/-- A read at a 26-bit address, or through BAR2 or BAR4 (R252, R253). -/
def Chip.busRead (c : Chip) (req : Requester) (addr : Nat) (size : AccSize) : Chip :=
  let bar := barOf req addr
  let a := addr % 2 ^ 26
  if c.dark ∨ (req = .pcie ∧ ¬ c.pciePowered) then c.emit (.busError req (addr % 2 ^ 24))
  else if bar = 5 then c.traceRead addr (accBytes size)
  else if ¬ carried addr size then
    if bar = 4 then c.badRead req pDMA (regKey pDMA (addr % 0x1000))
    else if bar = 0 then c.badRead req (if c.isLocal req (a / 2 ^ 24) then sizePage a else pSYS) a
    else c.readFails req addr
  else if bar = 0 then
    let d := c.wordRead req a
    if size = .double then d.wordRead req (a + 4) else d
  else
    let off := addr % 2 ^ 24
    let d := c.userWordRead bar off addr
    if size = .double then d.userWordRead bar (off + 4) (addr + 4) else d

/-- An access by address that is no REGISTER_WRITE (R34, R253; log entry 106): a read, or a write to a page that is not implemented. -/
def Chip.unimplPage (c : Chip) (req : Requester) (addr : Nat) (write : Bool) (size : AccSize) : Chip :=
  if ¬ write then c.busRead req addr size
  else
    let a := addr % 2 ^ 24
    if c.dark then c.emit (.busError req a)
    else if (req = .pcie ∧ ¬ c.pciePowered) ∨ (pageOfAddr a).isSome then c
    else if carried a size then c.unimplAccess req a true 0
    else c.badSize req pSYS a 0

/-! ## Meanings -/

/-- REGISTER_WRITE (R40, R253): by address, with the upper half of a 64-bit write. -/
def execRegisterWrite (dt : Nat) (req : Requester) (addr : Nat) (value : BusData) (s : State) : Host.Outcome State Fault Refusal :=
  .next (s.runExt dt fun c x => c.busWrite x req addr value.size value.lo value.hi)

/-- UNIMPL_PAGE (R34), and every other read by address. -/
def execUnimplPage (dt : Nat) (req : Requester) (addr : Nat) (access : BusAccess) (s : State) : Host.Outcome State Fault Refusal :=
  .next (s.run dt fun c => c.unimplPage req addr access.write access.size)

/-- DOM_RST_TRESTLE (R318, R375), with the results of the Scribe tests. -/
def execDomRstTrestle (dt : Nat) (req : Requester) (scribeA scribeB : ScribeTest) (s : State) : Host.Outcome State Fault Refusal :=
  .next (s.run dt fun c => c.command req pRST 0x148 1 fun c => c.domTrestle s.ext (scribePasses scribeA scribeB) (scribePasses scribeB scribeA))

/-- DOM_RST_LEGACY (R318). -/
def execDomRstLegacy (dt : Nat) (req : Requester) (s : State) : Host.Outcome State Fault Refusal :=
  .next (s.run dt fun c => c.command req pRST 0x148 2 fun c => c.domLegacy s.ext)

/-- DOM_RST_PCIE (R318). -/
def execDomRstPcie (dt : Nat) (req : Requester) (s : State) : Host.Outcome State Fault Refusal :=
  .next (s.run dt fun c => c.command req pRST 0x148 4 Chip.domPcie)

/-- DOM_RST_FABRIC (R318). -/
def execDomRstFabric (dt : Nat) (req : Requester) (s : State) : Host.Outcome State Fault Refusal :=
  .next (s.run dt fun c => c.command req pRST 0x148 8 Chip.domFabric)

end Sys2Proof.Machine
end

