-- ==== Sys2Proof/Machine/Requests.lean ====
section
/-! DEFINITION. Register requests that arrive as messages: QSPI transactions (R255 to R257), ring peers (R291), Ehruz (R295, R296). -/
namespace Sys2Proof.Machine

open Sys2Proof

/-! ## QSPI transactions (R255 to R257) -/

/-- CMD, ADDR and LEN of a transaction: opcode, ring ID, address, word count; none where opcode, CMD[4:2] or ADDR is malformed. -/
def qsHead (bs : List Byte) (opcode : Nat) : Option (Nat × Nat × Nat) :=
  let cmd := leAt bs 0 1
  let addr := leAt bs 1 1 * 65536 + leAt bs 2 1 * 256 + leAt bs 3 1
  let n := leAt bs 4 1 + 1
  if cmd / 32 = opcode ∧ cmd / 4 % 8 = 0 ∧ addr % 4 = 0 ∧ n ≤ 64 then some (cmd % 4, addr, n) else none

/-- The last byte is the CRC of the others. -/
def qsCrcOk (bs : List Byte) : Bool := decide (bs.getLast? = some (crc8 bs.dropLast))

/-- A read in progress is abandoned, which changes nothing (R257). -/
def Chip.qsAbandon (c : Chip) : Chip := { c with qsRead := none, fences := c.qsFences }

/-- `QS_STATUS[1]`. -/
def Chip.qsCrc (c : Chip) (failed : Bool) : Chip := c.put pQSPIS F.QSPIS_QS_STATUS_CRC_FAIL failed.toNat

def Chip.qsBadCmd (c : Chip) : Chip := (c.count pQSPIS K.QSPIS_BAD_CMD).raise pQSPIS E.QSPIS_BAD_CMD

/-- A word of a write's data. -/
def qsWord (bs : List Byte) (i : Nat) : Word :=
  let b := fun k => leAt bs (5 + 4 * i + k) 1
  BitVec.ofNat 32 (((b 0 * 256 + b 1) * 256 + b 2) * 256 + b 3)

/-- A write transaction at the rise of QSPI_CS_N (R256): its words are applied in ascending order within the space of its ring ID. -/
def Chip.qspiWrite (c : Chip) (x : Ext) (bs : List Byte) : Chip × Ext :=
  if c.dark then (c, x)
  else
    let c := c.qsAbandon
    if bs ≠ [] ∧ ¬ qsCrcOk bs then (((c.qsCrc true).count pQSPIS K.QSPIS_WR_CRC_ERR).raise pQSPIS E.QSPIS_CRC_ERR, x)
    else
      let c := c.qsCrc false
      match qsHead bs 1 with
      | none => (c.qsBadCmd, x)
      | some (dev, addr, n) =>
        if bs.length ≠ 6 + 4 * n then (c.qsBadCmd, x)
        else (List.range n).foldl (fun (r : Chip × Ext) i => r.1.busWrite r.2 .qspi (dev * 2 ^ 24 + (addr + 4 * i) % 2 ^ 24) .word (qsWord bs i) 0)
          (c.count pQSPIS K.QSPIS_QS_WRITES, x)

/-- A word of the read cannot be read: UR, with a capture record (R253, R254). -/
def Chip.qsFail (c : Chip) (q : QsRead) : Chip := (c.capture 4 [BitVec.ofNat 32 (q.dev * 2 ^ 24 + q.next), 2]).qsUr

/-- The read in progress goes on by one word where it can; with its last word it is answered. -/
def Chip.qsStep (c : Chip) : Chip :=
  match c.qsRead with
  | none => c
  | some q =>
    if q.asked then c
    else if q.n ≤ q.got.length then { c.qsSend (1 :: (q.got.map qsBytes).flatten) with qsRead := none }
    else if q.dev = 0 then
      match pageOfAddr q.next with
      | none => (c.logAccess pSYS errUnimpl .qspi q.next).qsFail q
      | some p =>
        if p = pHOST ∧ q.next % 0x1000 = 0x148 then { c with qsRead := some { q with asked := true } }.fenceRead .qspi
        else c.qsPush (c.read .qspi p (q.next % 0x1000))
    else
      let held := c.remotes.length
      let d := c.sendRemote .qspi false q.dev q.next 0 0
      if held < d.remotes.length then { d with qsRead := some { q with asked := true, sent := d.remotes.getLast? } } else d.qsFail q

/-- The same as far as it goes. -/
def Chip.qsAdvance (c : Chip) : Chip := (List.range 65).foldl (fun (c : Chip) _ => c.qsStep) c

/-- A read transaction's command (R255, R256). -/
def Chip.qspiCommand (c : Chip) (bs : List Byte) : Chip :=
  let c := (c.qsAbandon).count pQSPIS K.QSPIS_QS_READS
  if ¬ qsCrcOk bs then ((c.qsCrc true).count pQSPIS K.QSPIS_CMD_CRC_ERR).qsSend [3]
  else
    let c := c.qsCrc false
    match qsHead bs 2 with
    | some (dev, addr, n) => if bs.length = 6 then { c with qsRead := some { dev := dev, addr := addr, n := n, at' := c.cycles } }.qsAdvance else c.qsBadCmd.qsUr
    | none => c.qsBadCmd.qsUr

/-- A read transaction: its command; or, with no bytes, the host clocks on for the answer; `giveUp` raises QSPI_CS_N. -/
def Chip.qspiRead (c : Chip) (bs : List Byte) (giveUp : Bool) : Chip :=
  if c.dark then c
  else
    let c := if bs = [] then c.qsAdvance else c.qspiCommand bs
    if giveUp then c.qsAbandon else c

/-- The read has not completed within 200 µs (R257). -/
def Chip.qspiTimeout (c : Chip) : Chip :=
  match c.qsRead with
  | some q => if q.at' + usCycles 200 ≤ c.cycles then
      { c with fences := c.qsFences }.qsFail q
    else c
  | none => c

/-! ## Requests of ring peers (R291) -/

/-- The address of RST.DEV_RST: the write that starts a software reset is never confirmed (R317). -/
def addrIsDevRst (a : Nat) : Bool := decide (a = pageBase pRST + 0x144)

/-- A register flit on a T link that is UP; in CALIBRATE they wait (R288). -/
def Chip.remoteRequest (c : Chip) (x : Ext) (link : Nat) (op : RemoteOp) : Chip × Ext :=
  if ¬ (link < 2 ∧ c.tlState link = tlUP) then (c, x)
  else
    let reply := fun (c : Chip) a e v => (c.flitsOut link 1).emit (.reply a e v)
    match op with
    | .write addr v =>
      let a := addr % 2 ^ 24
      let r := c.localWrite x .peer a v
      if addrIsDevRst a && decide (v.toNat % 65536 = 0x9648 ∧ r.2.2 = 0) then (r.1, r.2.1) else (reply r.1 a r.2.2 0, r.2.1)
    | .read addr =>
      let a := addr % 2 ^ 24
      match pageOfAddr a with
      | some p => (reply c a 0 (c.read .peer p (a % 0x1000)), x)
      | none => (reply (c.unimplAccess .peer a false 0) a errUnimpl 0, x)
    | .confirm dev cause v => ((c.remoteAnswer dev cause v).qsAdvance, x)
    | .relay => ((c.count pTRING K.TRING_RELAYED).flitsOut (1 - link) 1, x)

/-! ## Ehruz (R295, R296) -/

/-- The port may carry Ehruz requests. -/
def Chip.ehruzPort (c : Chip) (port : Nat) : Bool :=
  let listed := (c.get pTRING F.TRING_EHRUZ_PORTS_PORTS).testBit port
  let strict := match c.secyAt port with | some y => decide (c.sy y fSyValidate = 2 ∧ c.sy y fSyProtect = 1) | none => false
  decide (port = 30) || (decide (port < 30) && listed && (strict || c.is pTRING F.TRING_EHRUZ_CFG_OPEN))

def Chip.ehruzReject (c : Chip) : Chip := (c.count pTRING K.TRING_EHRUZ_REJECT).raise pTRING E.TRING_EHRUZ_REJECT

/-- Firmware answers a request by its sequence number. -/
def Chip.ehruzSend (c : Chip) (port seq : Nat) (ws : List Word) : Chip := (c.count pTRING K.TRING_EHRUZ_TX).emit (.ehruzAnswer port (seq % 65536) ws)

/-- Firmware reads one address: of this device, which its ring ID names, or of a ring peer, whose word follows when the peer has
answered. -/
def Chip.ehruzRead (r : Chip × List Word) (addr : Nat) : Chip × List Word :=
  let c := r.1
  let dev := addr / 2 ^ 24 % 4
  let a := addr % 2 ^ 24 / 4 * 4
  if dev = c.ringId then
    match pageOfAddr a with
    | some p => (c, r.2 ++ [c.read .trestle p (a % 0x1000)])
    | none => (c.unimplAccess .trestle a false 0, r.2)
  else (c.sendRemote .trestle false dev a 0 0, r.2)

/-- Firmware writes one word: of this device, or of a ring peer. -/
def Chip.ehruzWrite (r : Chip × Ext) (e : Nat × Word) : Chip × Ext :=
  let dev := e.1 / 2 ^ 24 % 4
  if dev = r.1.ringId then r.1.busWrite r.2 .trestle (e.1 % 2 ^ 24) .word e.2 0
  else (r.1.sendRemote .trestle true dev (e.1 % 2 ^ 24) e.2 0, r.2)

/-- An accepted request is performed and answered; its source is subscribed by EVENT_SUBSCRIBE. -/
def Chip.ehruzPerform (c : Chip) (x : Ext) (port : Nat) (src : EhruzSource) (op : EhruzOp) : Chip × Ext :=
  match op with
  | .read addrs =>
    let r := (addrs.take 64).foldl Chip.ehruzRead (c, [])
    (r.1.ehruzSend port src.seq r.2, x)
  | .write ws =>
    if c.ehruzConflict.isSome then (c.ehruzReject, x)
    else
      let r := (ws.take 64).foldl Chip.ehruzWrite (c, x)
      (r.1.ehruzSend port src.seq [], r.2)
  | .fence => ((c.fenceRead .trestle).ehruzSend port src.seq [], x)
  | .subscribe =>
    let c := { c with tr := { c.tr with subs := if c.tr.subs.contains (port, src.id) then c.tr.subs else c.tr.subs ++ [(port, src.id)] } }
    (c.ehruzSend port src.seq [], x)

/-- The own device ID as the source of a frame from another MAC address (R296). -/
def Chip.ehruzSource (c : Chip) (src : Nat) (other : Bool) : Chip :=
  let own := c.get pTRING F.TRING_DOMAIN_CFG_DEVICE_ID
  if other ∧ src = own ∧ c.is pTRING F.TRING_DOMAIN_CFG_ID_VALID then
    (({ c with ehruzConflict := some own }.showConflict).count pTRING K.TRING_ID_CONFLICT).raise pTRING E.TRING_ID_CONFLICT
  else c

/-- Firmware has an Ehruz request before it (R295, R296). One for another device's ID it leaves alone. -/
def Chip.ehruzRequest (c : Chip) (x : Ext) (port : Nat) (src : EhruzSource) (other : Bool) (dst : Nat) (broadcast : Bool) (op : EhruzOp) : Chip × Ext :=
  if ¬ c.fwRuns then (c, x)
  else if ¬ (c.is pTRING F.TRING_EHRUZ_CFG_EN ∧ c.is pTRING F.TRING_DOMAIN_CFG_ID_VALID) then (c.ehruzReject, x)
  else
    let c := (c.count pTRING K.TRING_EHRUZ_RX).ehruzSource src.id other
    if ¬ c.ehruzPort port then (c.ehruzReject, x)
    else if broadcast ∨ dst = c.get pTRING F.TRING_DOMAIN_CFG_DEVICE_ID then c.ehruzPerform x port src op
    else (c, x)

/-! ## Meanings -/

/-- QSPI_WRITE (R256): the bytes that the host has sent. -/
def execQspiWrite (dt : Nat) (bytes : List Byte) (s : State) : Host.Outcome State Fault Refusal :=
  .next (s.runExt dt fun c x => c.qspiWrite x bytes)

/-- QSPI_READ (R257). -/
def execQspiRead (dt : Nat) (bytes : List Byte) (giveUp : Bool) (s : State) : Host.Outcome State Fault Refusal :=
  .next (s.run dt fun c => c.qspiRead bytes giveUp)

/-- QSPI_BUSY_TIMEOUT (R257). -/
def execQspiBusyTimeout (dt : Nat) (s : State) : Host.Outcome State Fault Refusal := .next (s.run dt fun c => c.qspiTimeout)

/-- REMOTE_REQUEST (R291). -/
def execRemoteRequest (dt link : Nat) (op : RemoteOp) (s : State) : Host.Outcome State Fault Refusal :=
  .next (s.runExt dt fun c x => c.remoteRequest x link op)

/-- EHRUZ_REQUEST (R296): its port, source ID, whether another MAC address sent it, its destination ID, its operation. -/
def execEhruzRequest (dt port : Nat) (src : EhruzSource) (other : Bool) (dst : Nat) (broadcast : Bool) (op : EhruzOp) (s : State) :
    Host.Outcome State Fault Refusal :=
  .next (s.runExt dt fun c x => c.ehruzRequest x port src other dst broadcast op)

end Sys2Proof.Machine
end

