-- ==== Sys2Proof/Machine/Boot.lean ====
section
/-! DEFINITION. The boot sequence (R342 to R354, R405, R408, R410) and the fallback settings on LIMP entry (R354). -/
namespace Sys2Proof.Machine

open Sys2Proof

/-! ## Write lists (R348) -/

/-- May a list of a segment type name a page? -/
def listMay (type : Nat) (p : Page) : Bool :=
  match p.kind with
  | .gw | .can | .lin | .uart | .bridle => true
  | .sys | .rst | .aon | .xmem | .boot | .upd | .prisil | .trestle => false
  | _ => decide (type = 17)

/-- A list being applied: chip, memories, still good, the staged pages touched so far. -/
structure ListRun where
  chip : Chip
  ext : Ext
  good : Bool := true
  pages : List Nat := []

/-- The operation that a write of TBL_CMD started is waited for; its RESULT is OK. -/
def Chip.romTable (c : Chip) (p : Page) : Chip × Bool :=
  if (c.win p 1).isNone then (c, true)
  else
    let c := if c.syncs.contains (pageIdx p) then c.bankSyncDone p else c
    let c := match c.win p 1 with | some o => if o.waiting then c.tblDone p 0 false else c | none => c
    let c := c.tblDone p 1 false
    (c, decide (bitsAt (c.regAt (sideKey p 0x128 1)) 4 4 = tbOK))

/-- One entry of a list: address and data. -/
def ListRun.entry (r : ListRun) (type addr : Nat) (v : Word) : ListRun :=
  match (if addr < 2 ^ 24 then pageOfAddr addr else none) with
  | none => { r with good := false }
  | some p =>
    if ¬ listMay type p then { r with good := false }
    else
      let (c, x, cause) := r.chip.localWrite r.ext .bootRom addr v
      let (c, ok) := if cause = 0 ∧ addr % 0x1000 = 0x124 ∧ hasTable p then c.romTable p else (c, true)
      let pages := if hasStaged p ∧ ¬ r.pages.contains (pageIdx p) then r.pages ++ [pageIdx p] else r.pages
      { chip := c, ext := x, good := ok && decide (cause = 0), pages := pages }

/-- The bytes of a list, entry by entry, up to the first that fails. -/
def ListRun.list (r : ListRun) (type : Nat) (bs : List Byte) : ListRun :=
  (List.range (bs.length / 8)).foldl (fun (r : ListRun) i =>
    if r.good then r.entry type (leAt bs (8 * i) 4) (BitVec.ofNat 32 (leAt bs (8 * i + 4) 4)) else r) r

/-- The segments of a type of a container at `base`: each is checked against its digest and applied. -/
def ListRun.segments (r : ListRun) (h : ImgHead) (base type : Nat) : ListRun :=
  (h.segs.filter fun s => decide (s.type = type)).foldl (fun (r : ListRun) s =>
    if ¬ r.good then r
    else if ¬ segOk r.ext.flash base s then { r with good := false }
    else r.list type (r.ext.read (base + s.off) s.len)) r

/-- The group commit of the pages touched (R48), without a change of GRP_MASK; its safe point comes at once (DEDUCED, log entry 71). -/
def Chip.romGroup (c : Chip) (ms : List Nat) : Chip × Bool :=
  if ms = [] then (c, true)
  else if c.groupState ≠ csIDLE then (c, false)
  else
    let offs := [0x170, 0x174, 0x178, 0x17C]
    let old := offs.map fun o => c.reg pSYS o
    let mask := fun k => BitVec.ofNat 32 (((ms.filter fun i => decide (i / 32 = k)).map fun i => 2 ^ (i % 32)).sum)
    let d := (List.range 4).foldl (fun (c : Chip) k => c.setReg pSYS (0x170 + 4 * k) (mask k)) c
    let d := d.requestGroup false 0
    let d := (List.range 4).foldl (fun (c : Chip) k => c.setReg pSYS (0x170 + 4 * k) (old.getD k 0)) d
    let d := d.groupValidated
    let d := if d.groupState = csWAIT then d.applyGroup false else d
    (d, decide (d.groupState = csIDLE ∧ d.get pSYS F.SYS_GRP_STATUS_REASON = rsnNone))

/-- A list of a container with its group commit. -/
def applyList (c : Chip) (x : Ext) (h : ImgHead) (base type : Nat) : Chip × Ext × Bool :=
  let r := ({ chip := c, ext := x } : ListRun).segments h base type
  if r.good then
    let g := r.chip.romGroup r.pages
    (g.1, r.ext, g.2)
  else (r.chip, r.ext, false)

/-! ## Findings (R353) -/

abbrev btNODIR : Nat := 1
abbrev btNOIMAGE : Nat := 2
abbrev btDIGEST : Nat := 3
abbrev btFALLBACK : Nat := 4
abbrev btNOSETTINGS : Nat := 5
abbrev btHALTED : Nat := 6

def Chip.bootResult (c : Chip) (r : Nat) : Chip := c.setReg pBOOT 0x140 (putBits (c.reg pBOOT 0x140) 8 4 r)

/-- BOOT_FAIL. -/
def Chip.bootStop (c : Chip) (r : Nat) : Chip := { c.bootResult r with bootFail := true }

/-- The boot goes on: it has neither stopped nor ended in QUARANTINE. -/
def Chip.booting (c : Chip) : Bool := decide (c.mode = modeBoot) && !c.bootFail

/-- SLOT and SLOT_ALT. -/
def Chip.bootSlot (c : Chip) (slot : Nat) (alt : Bool) : Chip :=
  let c := c.setReg pBOOT 0x140 (putBits (c.reg pBOOT 0x140) 12 1 slot)
  if alt then (c.setReg pBOOT 0x140 (putBits (c.reg pBOOT 0x140) 13 1 1)).raise pBOOT E.BOOT_SLOT_ALT else c

/-! ## Step 5: memory, directory, what an update has left (R405, R408, R410) -/

abbrev lbNORMAL : Nat := 0
abbrev lbACTIVATED : Nat := 1
abbrev lbREVERTED : Nat := 2
abbrev lbBURN : Nat := 3
abbrev lbCOPYFAIL : Nat := 4

def Chip.lastBoot (c : Chip) (v : Nat) : Chip := c.put pUPD F.UPD_UPD_STATUS_LAST_BOOT v

/-- A request record that matches the STAGING header (R405). -/
def Chip.bootRecord (c : Chip) (x : Ext) (d : BootDir) : Chip × Ext :=
  match recordTarget x d with
  | none => (c, x)
  | some t =>
    let base := (d.region rgSTAGING).1
    let h := headAt x.flash base
    let held := headAt x.flash (if t = 0 then d.region (rgSLOTA + d.active) else d.target t).1
    let r := d.target t
    if held.meas = h.meas then (c.lastBoot lbNORMAL, x.eraseRecord d)
    else if ¬ (h.accepted x (if t = 0 then 1 else 2) ∧ h.segs.all fun s => segOk x.flash base s) then (c.lastBoot lbCOPYFAIL, x.eraseRecord d)
    else
      let x := copyImage x d r h.total
      if h.segs.all fun s => segOk x.flash r.1 s then
        let (c, x) := if t = 0 then c.putDir x d (1 - d.active) true 2 else (c, x)
        (c.lastBoot lbACTIVATED, x.eraseRecord d)
      else (c.lastBoot lbCOPYFAIL, x.eraseRecord d)

/-- The trial rules (R408). -/
def Chip.bootTrial (c : Chip) (x : Ext) (d : BootDir) : Chip × Ext :=
  if ¬ d.trial then (c, x)
  else if d.left ≠ 0 then c.putDir x d d.active true (d.left - 1)
  else
    let r := c.putDir x d (1 - d.active) false 0
    (((r.1.lastBoot lbREVERTED).count pUPD K.UPD_REVERTS).raise pUPD E.UPD_REVERTED, r.2)

/-- A burn that was cut off (R410). -/
def Chip.bootBurn (c : Chip) (x : Ext) (d : BootDir) : Chip × Ext :=
  let h := headAt x.flash (d.region (rgSLOTA + d.active)).1
  if ¬ d.trial ∧ h.accepted x 1 ∧ x.thermCount < h.secVer then
    (((c.lastBoot lbBURN).count pUPD K.UPD_BURN_RESUMED).raise pUPD E.UPD_BURN_DONE, x.burnTherm h.secVer)
  else (c, x)

/-- The directory as the chip holds it, applied to a step. -/
def Chip.withDir (r : Chip × Ext) (f : Chip → Ext → BootDir → Chip × Ext) : Chip × Ext :=
  match r.1.boot.dir with
  | some d => f r.1 r.2 d
  | none => r

/-- Step 5. What an update has left is acted on only after a device reset; the image that R405 has just activated is in its first
trial boot. -/
def Chip.bootDirectory (c : Chip) (x : Ext) (capacity : Nat) (wake : Bool) : Chip × Ext :=
  let c := c.bootStage 5
  let strap := c.get pSYS F.SYS_STRAPS_BOOT_MODE
  match chooseDir x.flash capacity with
  | none => (c.bootStop (if strap = 3 then btHALTED else btNODIR), x)
  | some d =>
    let c := c.showDir d
    if strap = 3 then (c.bootStop btHALTED, x)
    else if wake then (c, x)
    else
      let r := c.bootRecord x d
      let first : Bool := decide (r.1.boot.dir ≠ some d)
      let r := if first then r else Chip.withDir r Chip.bootTrial
      Chip.withDir r Chip.bootBurn

/-! ## Steps 6 to 8 and 10: root, headers, settings -/

/-- Step 6: where the root has outlived the reset it is not regenerated (R382). -/
def Chip.bootRoot (c : Chip) (x : Ext) (grain : List Byte) : Chip :=
  let c := c.bootStage 6
  if c.root.isSome then
    ({ c.put pPRISIL F.PRISIL_STATUS_P_ENROLLED x.enrolled.toNat with boot := { c.boot with rom := romMeasure x (x.otpBytes 25 8) } }.put
      pPRISIL F.PRISIL_STATUS_P_ROOT 2).deriveJournal
  else c.rootStep x grain

/-- Step 7, the slots: the ACTIVE one, else the other (R353). -/
def Chip.bootSlots (c : Chip) (x : Ext) (d : BootDir) : Chip :=
  let c := c.bootStage 7
  let ok := fun k => (headAt x.flash (d.region (rgSLOTA + k)).1).accepted x 1
  if ok d.active then c.bootSlot d.active false
  else if ok (1 - d.active) then c.bootSlot (1 - d.active) true
  else c.bootStop btNOIMAGE

/-- A settings container from step 7 to step 10; it answers whether it held. -/
def Chip.bootContainer (c : Chip) (x : Ext) (h : ImgHead) (base : Nat) : Chip × Ext × Bool :=
  if ¬ h.accepted x 2 then (c, x, false)
  else
    let c := { c with boot := { c.boot with set := h.meas } }
    let (c, x, ok) := applyList ((c.bootStage 8).fenceApply x) x h base 16
    if ok then applyList (c.bootStage 10) x h base 17 else (c, x, false)

/-- The settings (R350, R353, R354): SET_FALLBACK where the strap asks for it or SET_PRIMARY fails. -/
def Chip.bootSettings (c : Chip) (x : Ext) (d : BootDir) : Chip × Ext :=
  let base := fun k => (d.region k).1
  let fb := headAt x.flash (base rgFALLBACK)
  let c := if fb.accepted x 2 then { c with boot := { c.boot with fallback := some fb } } else c
  let strap : Bool := decide (c.get pSYS F.SYS_STRAPS_BOOT_MODE = 2)
  let (c, x, ok) := if strap then (c, x, false) else c.bootContainer x (headAt x.flash (base rgPRIMARY)) (base rgPRIMARY)
  if ok then (c, x)
  else
    let c := c.bootStage 7
    let (c, x, ok) := c.bootContainer x fb (base rgFALLBACK)
    if ¬ ok then (c.bootStop btNOSETTINGS, x)
    else
      let c := (c.limpCause lcSETTINGS).setPwr { c.pwr with fallbackAtBoot := true }
      (if strap then c else (c.bootResult btFALLBACK).raise pBOOT E.BOOT_SETTINGS_FALLBACK, x)

/-! ## Step 11: firmware (R353) and the end -/

/-- The firmware in a slot: its header is accepted and every segment matches. -/
def slotRuns (x : Ext) (d : BootDir) (slot : Nat) : Bool :=
  let base := (d.region (rgSLOTA + slot)).1
  let h := headAt x.flash base
  h.accepted x 1 && h.segs.all fun s => segOk x.flash base s

/-- Every DATA_PLANE page is disabled. -/
def Chip.planeOff (c : Chip) : Chip :=
  (allPages.filter fun p => listMay 17 p).foldl (fun (c : Chip) p => c.enTo p false) c

/-- The slot named at step 7, else the other; neither ends the boot. -/
def Chip.bootFirmware (c : Chip) (x : Ext) (d : BootDir) : Chip :=
  let c := c.bootStage 11
  let first := bitsAt (c.reg pBOOT 0x140) 12 1
  let load := fun (c : Chip) slot =>
    let h := headAt x.flash (d.region (rgSLOTA + slot)).1
    { (c.showImage h).put pUPD F.UPD_UPD_STATUS_RUN_SLOT slot with
      boot := { (c.showImage h).boot with fw := h.meas }, tr := { c.tr with banks := store [] c.tr.banks c.tr.bank h.meas, dataOf := h.meas } }
  if slotRuns x d first then load c first
  else if slotRuns x d (1 - first) then load (c.bootSlot (1 - first) true) (1 - first)
  else c.planeOff.bootStop btDIGEST

/-- The boot is complete: the mode that a wake, the straps and LIMP_CAUSE give (R326, R350), the cluster (R368). -/
def Chip.bootEnd (c : Chip) (x : Ext) (a b : Bool) : Chip :=
  let wake := c.aon.wakeTo
  let c := c.updStart x
  let c := if wake = some modeSentry then
      let d := c.modeTo modeSentry
      let d := if d.is pCLK F.CLK_XTAL_CFG_SENTRY_XTAL then d else d.setClk { d.clk with xtalStart := none }
      (d.idlePins.sentryPower).trStart a b
    else
      let c := c.trStart a b
      if c.reg pPWR 0x150 ≠ 0 then c.enterLimp
      else c.modeTo (if wake.isNone ∧ c.get pSYS F.SYS_STRAPS_BOOT_MODE = 1 then modeService else modeRun)
  let c := if c.trRuns then (c.journalRestore x).lifeRestore x else c
  let c := if wake.isSome then c.put pPWR F.PWR_MODE_STATUS_PREV modeDormant else c
  let c := if (List.range 6).any fun n => decide (c.linkState n = lsUp) then c.bootStage 12 else c
  c.setAon { c.aon with wakeTo := none }

/-- A step of the boot where it still goes on and has its directory. -/
def Chip.bootOn (r : Chip × Ext) (f : Chip → Ext → BootDir → Chip × Ext) : Chip × Ext := if r.1.booting then Chip.withDir r f else r

/-- The boot sequence may run: after a reset or a wake, once the crystal runs or has failed; a wake to SENTRY does not wait (R334). -/
def Chip.bootMay (c : Chip) : Bool :=
  c.booting && !c.dark && !c.pwr.booted
    && (c.xtalRuns || c.is pCLK F.CLK_XTAL_STATUS_FAILED || decide (c.aon.wakeTo = some modeSentry))

/-- The boot sequence (R351): WAKE_FAIL (R340), the pulse on XSPI_RST_N (R342), steps 5 to 11. Its operands are the memory's capacity as log2 MiB, whether it has 8D-8D-8D, the Grain read, the Scribe tests' results,
and an OTP word whose ECC fails as step 2 reads it (R397). -/
def Chip.bootSequence (c : Chip) (x : Ext) (cap : Nat) (octal : Bool) (grain : List Byte) (a b : Bool) (otpBad : Option Nat) : Chip × Ext :=
  if ¬ c.bootMay then (c, x)
  else
    let cap := max 5 (min 10 cap)
    let c := ((c.bootStage 4).setPwr { c.pwr with booted := true }).resumePorts
    let c := if c.is pAON F.AON_WAKE_CAUSE_FAIL then c.raise pAON E.AON_WAKE_FAIL else c
    let c := if c.aon.wakeTo.isNone then c.emit .xspiReset else c
    let c := match otpBad with | some i => c.otpFault i | none => c
    if ¬ c.booting then (c, x) else
    let c := c.setReg pXMEM 0x140 (BitVec.ofNat 32 (1 + 2 * octal.toNat + 256 * cap))
    let r := c.bootDirectory x (2 ^ (20 + cap)) c.aon.wakeTo.isSome
    let r := Chip.bootOn (r.1.showTherm r.2, r.2) fun c x _ => (c.bootRoot x grain, x)
    let r := Chip.bootOn r fun c x d => (c.bootSlots x d, x)
    let r := Chip.bootOn r fun c x d => c.bootSettings x d
    let r := Chip.bootOn r fun c x d => (c.bootFirmware x d, x)
    Chip.bootOn r fun c x _ => (c.bootEnd x a b, x)

/-! ## The fallback engine (R354) -/

/-- On LIMP entry: SET_FALLBACK's lists, checked against the digests accepted at boot, applied as one group commit. -/
def Chip.fallbackApply (c : Chip) (x : Ext) : Chip × Ext :=
  if ¬ c.pwr.fallbackDue ∨ c.mode ≠ modeLimp then (c, x)
  else
    let c := c.setPwr { c.pwr with fallbackDue := false }
    let bad := fun (c : Chip) => c.raise pBOOT E.BOOT_FALLBACK_FAIL
    match c.boot.dir, c.boot.fallback with
    | some d, some h =>
      let base := (d.region rgFALLBACK).1
      let lists := h.segs.filter fun s => decide (s.type = 16 ∨ s.type = 17)
      if ¬ c.is pXMEM F.XMEM_XSPI_STATUS_READY ∨ ¬ lists.all (fun s => segOk x.flash base s) then (bad c, x)
      else
        let r := (({ chip := c, ext := x } : ListRun).segments h base 16).segments h base 17
        if ¬ r.good then (bad r.chip, r.ext)
        else match r.chip.romGroup r.pages with
          | (c, true) => (c, r.ext)
          | (c, false) => (bad c, r.ext)
    | _, _ => (bad c, x)

/-! ## Meanings -/

/-- BOOT_SEQUENCE (R351). -/
def execBootSequence (dt cap : Nat) (octal : Bool) (grain : List Byte) (scribeA scribeB : ScribeTest) (otpBad : Option Nat) (s : State) :
    Host.Outcome State Fault Refusal :=
  .next (s.runExt dt fun c x => c.bootSequence x cap octal grain (scribePasses scribeA scribeB) (scribePasses scribeB scribeA) otpBad)

/-- FALLBACK_APPLY (R354). -/
def execFallbackApply (dt : Nat) (s : State) : Host.Outcome State Fault Refusal := .next (s.runExt dt fun c x => c.fallbackApply x)

end Sys2Proof.Machine
end

