-- ==== Sys2Proof/Machine/Dispatch.lean ====
section
/-! DEFINITION. The dispatch: one arm per command, each one direct call of its meaning. -/
namespace Sys2Proof.Machine

open Sys2Proof

/-- What a command does to everything but the queue. -/
def exec (i : Instr) (s : State) : Host.Outcome State Fault Refusal :=
  match i with
  | .registerWrite dt req addr value => Sys2Proof.Machine.execRegisterWrite dt req addr value s
  | .unimplPage dt req addr access => Sys2Proof.Machine.execUnimplPage dt req addr access s
  | .blockEnable dt req page en => Sys2Proof.Machine.execBlockEnable dt req page en s
  | .softRst dt req page en => Sys2Proof.Machine.execSoftRst dt req page en s
  | .evtRawClear dt req page bits => Sys2Proof.Machine.execEvtRawClear dt req page bits s
  | .commitGo dt req page => Sys2Proof.Machine.execCommitGo dt req page s
  | .commitAtTime dt req page handle => Sys2Proof.Machine.execCommitAtTime dt req page handle s
  | .commitAbort dt req page => Sys2Proof.Machine.execCommitAbort dt req page s
  | .validationDone dt page => Sys2Proof.Machine.execValidationDone dt page s
  | .commitApply dt page => Sys2Proof.Machine.execCommitApply dt page s
  | .safeTimeout dt page => Sys2Proof.Machine.execSafeTimeout dt page s
  | .groupGo dt req => Sys2Proof.Machine.execGroupGo dt req s
  | .groupAtTime dt req handle => Sys2Proof.Machine.execGroupAtTime dt req handle s
  | .groupAbort dt req => Sys2Proof.Machine.execGroupAbort dt req s
  | .groupValidationDone dt => Sys2Proof.Machine.execGroupValidationDone dt s
  | .groupApply dt => Sys2Proof.Machine.execGroupApply dt s
  | .groupSafeTimeout dt => Sys2Proof.Machine.execGroupSafeTimeout dt s
  | .lock dt req page => Sys2Proof.Machine.execLock dt req page s
  | .tblRead dt req page tag => Sys2Proof.Machine.execTblRead dt req page tag s
  | .tblReadActive dt req page tag => Sys2Proof.Machine.execTblReadActive dt req page tag s
  | .tblWrite dt req page tag => Sys2Proof.Machine.execTblWrite dt req page tag s
  | .tblClear dt req page tag => Sys2Proof.Machine.execTblClear dt req page tag s
  | .tblSearch dt req page tag => Sys2Proof.Machine.execTblSearch dt req page tag s
  | .tblClearAll dt req page tag => Sys2Proof.Machine.execTblClearAll dt req page tag s
  | .tblDone dt side page ecc => Sys2Proof.Machine.execTblDone dt side page ecc s
  | .bankSyncDone dt page => Sys2Proof.Machine.execBankSyncDone dt page s
  | .snapTake dt req page => Sys2Proof.Machine.execSnapTake dt req page s
  | .snapDone dt page => Sys2Proof.Machine.execSnapDone dt page s
  | .snapAll dt req => Sys2Proof.Machine.execSnapAll dt req s
  | .frameReception dt port rx node origin frags ago => Sys2Proof.Machine.execFrameReception dt port rx node origin frags ago s
  | .egressFrameStart dt port ecc waited collisions => Sys2Proof.Machine.execEgressFrameStart dt port ecc waited collisions s
  | .egressFrameEnd dt tx => Sys2Proof.Machine.execEgressFrameEnd dt tx s
  | .gateDeadlineDrop dt port cls => Sys2Proof.Machine.execGateDeadlineDrop dt port cls s
  | .rseqWindowEntry dt egress cls => Sys2Proof.Machine.execRseqWindowEntry dt egress cls s
  | .rseqTimeout dt egress cls ingress => Sys2Proof.Machine.execRseqTimeout dt egress cls ingress s
  | .spillRead dt egress queue => Sys2Proof.Machine.execSpillRead dt egress queue s
  | .spillReadDone dt egress cls ecc => Sys2Proof.Machine.execSpillReadDone dt egress cls ecc s
  | .spillTrainDone dt ok => Sys2Proof.Machine.execSpillTrainDone dt ok s
  | .spillLatClr dt req => Sys2Proof.Machine.execSpillLatClr dt req s
  | .rseqClr dt req => Sys2Proof.Machine.execRseqClr dt req s
  | .ageingPass dt => Sys2Proof.Machine.execAgeingPass dt s
  | .fdbFlush dt req value => Sys2Proof.Machine.execFdbFlush dt req value s
  | .flushDone dt => Sys2Proof.Machine.execFlushDone dt s
  | .rebuildDone dt => Sys2Proof.Machine.execRebuildDone dt s
  | .partnerSignal dt port => Sys2Proof.Machine.execPartnerSignal dt port s
  | .trainComplete dt port rate partnerLongBed resumeAble inverted => Sys2Proof.Machine.execTrainComplete dt port rate partnerLongBed resumeAble inverted s
  | .linkTrainFail dt port partnerLongBed => Sys2Proof.Machine.execLinkTrainFail dt port partnerLongBed s
  | .resumeOk dt port => Sys2Proof.Machine.execResumeOk dt port s
  | .resumeFail dt port => Sys2Proof.Machine.execResumeFail dt port s
  | .pcsLockLoss dt port => Sys2Proof.Machine.execPcsLockLoss dt port s
  | .beaconLoss dt port => Sys2Proof.Machine.execBeaconLoss dt port s
  | .plcaBeaconRx dt port => Sys2Proof.Machine.execPlcaBeaconRx dt port s
  | .plcaBeaconTx dt port => Sys2Proof.Machine.execPlcaBeaconTx dt port s
  | .linkCmdRestart dt req port => Sys2Proof.Machine.execLinkCmdRestart dt req port s
  | .linkCmdSleep dt req port => Sys2Proof.Machine.execLinkCmdSleep dt req port s
  | .linkCmdWake dt req port => Sys2Proof.Machine.execLinkCmdWake dt req port s
  | .linkCmdForget dt req port => Sys2Proof.Machine.execLinkCmdForget dt req port s
  | .partnerSleepRequest dt port => Sys2Proof.Machine.execPartnerSleepRequest dt port s
  | .sleepDone dt port => Sys2Proof.Machine.execSleepDone dt port s
  | .sleepDrain dt port => Sys2Proof.Machine.execSleepDrain dt port s
  | .wakeRx dt port => Sys2Proof.Machine.execWakeRx dt port s
  | .verifyFail dt port => Sys2Proof.Machine.execVerifyFail dt port s
  | .cableDiagStart dt req port => Sys2Proof.Machine.execCableDiagStart dt req port s
  | .cableDiagDone dt port result dist => Sys2Proof.Machine.execCableDiagDone dt port result dist s
  | .testMode dt req port mode => Sys2Proof.Machine.execTestMode dt req port mode s
  | .sqiRefresh dt port sqi margin => Sys2Proof.Machine.execSqiRefresh dt port sqi margin s
  | .timeCapture dt req => Sys2Proof.Machine.execTimeCapture dt req s
  | .timeInvalidate dt req => Sys2Proof.Machine.execTimeInvalidate dt req s
  | .stepSet dt req => Sys2Proof.Machine.execStepSet dt req s
  | .stepAdd dt req => Sys2Proof.Machine.execStepAdd dt req s
  | .ppsStepArm dt req => Sys2Proof.Machine.execPpsStepArm dt req s
  | .ppsStepDisarm dt req => Sys2Proof.Machine.execPpsStepDisarm dt req s
  | .ppsArmTimeout dt => Sys2Proof.Machine.execPpsArmTimeout dt s
  | .rateAdj dt req value => Sys2Proof.Machine.execRateAdj dt req value s
  | .rateSlewTick dt => Sys2Proof.Machine.execRateSlewTick dt s
  | .holdover dt => Sys2Proof.Machine.execHoldover dt s
  | .holdoverLong dt => Sys2Proof.Machine.execHoldoverLong dt s
  | .ppsIn dt rising => Sys2Proof.Machine.execPpsIn dt rising s
  | .ppsOutRise dt => Sys2Proof.Machine.execPpsOutRise dt s
  | .ppsOutFall dt => Sys2Proof.Machine.execPpsOutFall dt s
  | .timeWordTx dt => Sys2Proof.Machine.execTimeWordTx dt s
  | .timeWordRx dt link time epoch valid replayed rate => Sys2Proof.Machine.execTimeWordRx dt link time epoch valid replayed rate s
  | .gptpSyncRx dt inst port followUp gm stamp rate ratio => Sys2Proof.Machine.execGptpSyncRx dt inst port followUp gm stamp rate ratio s
  | .syncTimeout dt inst => Sys2Proof.Machine.execSyncTimeout dt inst s
  | .listEntryStart dt list => Sys2Proof.Machine.execListEntryStart dt list s
  | .listSwap dt list => Sys2Proof.Machine.execListSwap dt list s
  | .oneshotExecute dt => Sys2Proof.Machine.execOneshotExecute dt s
  | .pinPulseEnd dt => Sys2Proof.Machine.execPinPulseEnd dt s
  | .distanceTick dt => Sys2Proof.Machine.execDistanceTick dt s
  | .pulseEdge dt input level held => Sys2Proof.Machine.execPulseEdge dt input level held s
  | .pulseStop dt input => Sys2Proof.Machine.execPulseStop dt input s
  | .pulsePreset dt req mask => Sys2Proof.Machine.execPulsePreset dt req mask s
  | .releaseRequest dt port cls => Sys2Proof.Machine.execReleaseRequest dt port cls s
  | .releaseStart dt target result waited => Sys2Proof.Machine.execReleaseStart dt target result waited s
  | .rlogAck dt req seq => Sys2Proof.Machine.execRlogAck dt req seq s
  | .cinchDeadline dt entry => Sys2Proof.Machine.execCinchDeadline dt entry s
  | .cinchRepeat dt entry => Sys2Proof.Machine.execCinchRepeat dt entry s
  | .powerFail dt us => Sys2Proof.Machine.execPowerFail dt us s
  | .massEmitDone dt => Sys2Proof.Machine.execMassEmitDone dt s
  | .inputEdge dt pin rising held => Sys2Proof.Machine.execInputEdge dt pin rising held s
  | .ilogAck dt req seq => Sys2Proof.Machine.execIlogAck dt req seq s
  | .outManual dt req mask levels => Sys2Proof.Machine.execOutManual dt req mask levels s
  | .recovReset dt index => Sys2Proof.Machine.execRecovReset dt index s
  | .resetRecov dt req index => Sys2Proof.Machine.execResetRecov dt req index s
  | .resetGen dt req index => Sys2Proof.Machine.execResetGen dt req index s
  | .memberSilent dt member => Sys2Proof.Machine.execMemberSilent dt member s
  | .memberReturn dt member => Sys2Proof.Machine.execMemberReturn dt member s
  | .latentErr dt index => Sys2Proof.Machine.execLatentErr dt index s
  | .latentReset dt index => Sys2Proof.Machine.execLatentReset dt index s
  | .holdClr dt req => Sys2Proof.Machine.execHoldClr dt req s
  | .legacyMessageReceived dt port rx ago => Sys2Proof.Machine.execLegacyMessageReceived dt port rx ago s
  | .gwRouteProcess dt => Sys2Proof.Machine.execGwRouteProcess dt s
  | .acfBatchTimeout dt index => Sys2Proof.Machine.execAcfBatchTimeout dt index s
  | .asmPeriod dt index => Sys2Proof.Machine.execAsmPeriod dt index s
  | .asmGapEnd dt index => Sys2Proof.Machine.execAsmGapEnd dt index s
  | .signalStale dt signal => Sys2Proof.Machine.execSignalStale dt signal s
  | .canFrameTx dt channel result waited => Sys2Proof.Machine.execCanFrameTx dt channel result waited s
  | .canIntegrated dt channel => Sys2Proof.Machine.execCanIntegrated dt channel s
  | .recovered dt channel => Sys2Proof.Machine.execRecovered dt channel s
  | .recover dt req channel => Sys2Proof.Machine.execRecover dt req channel s
  | .flushTx dt req channel => Sys2Proof.Machine.execFlushTx dt req channel s
  | .clrMax dt req channel => Sys2Proof.Machine.execClrMax dt req channel s
  | .linSlotStart dt channel response => Sys2Proof.Machine.execLinSlotStart dt channel response s
  | .linHeaderRx dt channel id bitNs parityOk response ago => Sys2Proof.Machine.execLinHeaderRx dt channel id bitNs parityOk response ago s
  | .wake dt req channel => Sys2Proof.Machine.execWake dt req channel s
  | .linSleep dt req channel => Sys2Proof.Machine.execLinSleep dt req channel s
  | .wakeRxLin dt channel => Sys2Proof.Machine.execWakeRxLin dt channel s
  | .linSchedRestart dt channel => Sys2Proof.Machine.execLinSchedRestart dt channel s
  | .uartTx dt channel waited => Sys2Proof.Machine.execUartTx dt channel waited s
  | .gclkRestored dt => Sys2Proof.Machine.execGclkRestored dt s
  | .gwClr dt req => Sys2Proof.Machine.execGwClr dt req s
  | .niuClaim dt inst member event => Sys2Proof.Machine.execNiuClaim dt inst member event s
  | .tpDtGap dt session => Sys2Proof.Machine.execTpDtGap dt session s
  | .tpCtsWait dt session => Sys2Proof.Machine.execTpCtsWait dt session s
  | .tpHold dt session => Sys2Proof.Machine.execTpHold dt session s
  | .sessionClr dt req => Sys2Proof.Machine.execSessionClr dt req s
  | .replace dt req unit other force => Sys2Proof.Machine.execReplace dt req unit other force s
  | .reinstate dt req unit => Sys2Proof.Machine.execReinstate dt req unit s
  | .retire dt req unit => Sys2Proof.Machine.execRetire dt req unit s
  | .release dt req unit => Sys2Proof.Machine.execRelease dt req unit s
  | .ackReturned dt req unit => Sys2Proof.Machine.execAckReturned dt req unit s
  | .setAlive dt req unit => Sys2Proof.Machine.execSetAlive dt req unit s
  | .setSuspect dt req unit => Sys2Proof.Machine.execSetSuspect dt req unit s
  | .setDead dt req unit => Sys2Proof.Machine.execSetDead dt req unit s
  | .livenessScan dt => Sys2Proof.Machine.execLivenessScan dt s
  | .keyInstall dt req sa slot => Sys2Proof.Machine.execKeyInstall dt req sa slot s
  | .pcieReset dt kind => Sys2Proof.Machine.execPcieReset dt kind s
  | .qspiWrite dt bytes => Sys2Proof.Machine.execQspiWrite dt bytes s
  | .qspiRead dt bytes giveUp => Sys2Proof.Machine.execQspiRead dt bytes giveUp s
  | .qspiBusyTimeout dt => Sys2Proof.Machine.execQspiBusyTimeout dt s
  | .brgFenceRead dt req => Sys2Proof.Machine.execBrgFenceRead dt req s
  | .fenceTimeout dt req => Sys2Proof.Machine.execFenceTimeout dt req s
  | .pelAck dt req seq => Sys2Proof.Machine.execPelAck dt req seq s
  | .doorbell dt req ring value user => Sys2Proof.Machine.execDoorbell dt req ring value user s
  | .descriptorFetch dt ring mem => Sys2Proof.Machine.execDescriptorFetch dt ring mem s
  | .dmaTxFrame dt mem => Sys2Proof.Machine.execDmaTxFrame dt mem s
  | .dmaRxFrame dt ecc mem => Sys2Proof.Machine.execDmaRxFrame dt ecc mem s
  | .dmaChunk dt write ecc mem => Sys2Proof.Machine.execDmaChunk dt write ecc mem s
  | .itrExpire dt ring => Sys2Proof.Machine.execItrExpire dt ring s
  | .start dt req ring => Sys2Proof.Machine.execStart dt req ring s
  | .stop dt req ring => Sys2Proof.Machine.execStop dt req ring s
  | .resume dt req ring discard => Sys2Proof.Machine.execResume dt req ring discard s
  | .stopComplete dt ring mem => Sys2Proof.Machine.execStopComplete dt ring mem s
  | .invCmd dt req value => Sys2Proof.Machine.execInvCmd dt req value s
  | .invDone dt => Sys2Proof.Machine.execInvDone dt s
  | .fltAck dt req seq => Sys2Proof.Machine.execFltAck dt req seq s
  | .msixUnmask dt req vector => Sys2Proof.Machine.execMsixUnmask dt req vector s
  | .flitRx dt link flit => Sys2Proof.Machine.execFlitRx dt link flit s
  | .tenonTrained dt link peer reversed => Sys2Proof.Machine.execTenonTrained dt link peer reversed s
  | .tenonIdRetry dt link => Sys2Proof.Machine.execTenonIdRetry dt link s
  | .tenonCalibrated dt link flits reach => Sys2Proof.Machine.execTenonCalibrated dt link flits reach s
  | .retrain dt req link => Sys2Proof.Machine.execRetrain dt req link s
  | .remeasure dt req link => Sys2Proof.Machine.execRemeasure dt req link s
  | .tenonLaneLoss dt link partnerReset => Sys2Proof.Machine.execTenonLaneLoss dt link partnerReset s
  | .remoteRequest dt link op => Sys2Proof.Machine.execRemoteRequest dt link op s
  | .peerTimeout dt dev => Sys2Proof.Machine.execPeerTimeout dt dev s
  | .creditReturn dt link cls bytes => Sys2Proof.Machine.execCreditReturn dt link cls bytes s
  | .ehruzRequest dt port src other dst broadcast op => Sys2Proof.Machine.execEhruzRequest dt port src other dst broadcast op s
  | .xtalStartCheck dt amp ppm => Sys2Proof.Machine.execXtalStartCheck dt amp ppm s
  | .hfrcTrim dt ppm usable => Sys2Proof.Machine.execHfrcTrim dt ppm usable s
  | .lfrcTrim dt => Sys2Proof.Machine.execLfrcTrim dt s
  | .pllLoss dt pll => Sys2Proof.Machine.execPllLoss dt pll s
  | .freqMonitorWindow dt pll ok => Sys2Proof.Machine.execFreqMonitorWindow dt pll ok s
  | .pllRelock dt pll => Sys2Proof.Machine.execPllRelock dt pll s
  | .xtalFail dt => Sys2Proof.Machine.execXtalFail dt s
  | .hfrcFail dt => Sys2Proof.Machine.execHfrcFail dt s
  | .gclkSwitch dt => Sys2Proof.Machine.execGclkSwitch dt s
  | .gclkSwForced dt => Sys2Proof.Machine.execGclkSwForced dt s
  | .xtalBack dt => Sys2Proof.Machine.execXtalBack dt s
  | .powerOnReset dt pins ringId => Sys2Proof.Machine.execPowerOnReset dt pins ringId s
  | .pinReset dt ns => Sys2Proof.Machine.execPinReset dt ns s
  | .coreBor dt => Sys2Proof.Machine.execCoreBor dt s
  | .devRst dt req key => Sys2Proof.Machine.execDevRst dt req key s
  | .wdtKick dt req value => Sys2Proof.Machine.execWdtKick dt req value s
  | .wdtWarn dt => Sys2Proof.Machine.execWdtWarn dt s
  | .watchdogReset dt => Sys2Proof.Machine.execWatchdogReset dt s
  | .domRstTrestle dt req scribeA scribeB => Sys2Proof.Machine.execDomRstTrestle dt req scribeA scribeB s
  | .domRstLegacy dt req => Sys2Proof.Machine.execDomRstLegacy dt req s
  | .domRstPcie dt req => Sys2Proof.Machine.execDomRstPcie dt req s
  | .domRstFabric dt req => Sys2Proof.Machine.execDomRstFabric dt req s
  | .modeCmdSentry dt req key => Sys2Proof.Machine.execModeCmdSentry dt req key s
  | .modeCmdRun dt req key => Sys2Proof.Machine.execModeCmdRun dt req key s
  | .modeCmdLimp dt req key => Sys2Proof.Machine.execModeCmdLimp dt req key s
  | .modeCmdService dt req key => Sys2Proof.Machine.execModeCmdService dt req key s
  | .modeCmdQuarantine dt req key => Sys2Proof.Machine.execModeCmdQuarantine dt req key s
  | .modeCmdDormant dt req key => Sys2Proof.Machine.execModeCmdDormant dt req key s
  | .entryAck dt => Sys2Proof.Machine.execEntryAck dt s
  | .entryForced dt => Sys2Proof.Machine.execEntryForced dt s
  | .sentryIdle dt => Sys2Proof.Machine.execSentryIdle dt s
  | .wakePin dt pin high edge periods => Sys2Proof.Machine.execWakePin dt pin high edge periods s
  | .rtcAlarm dt => Sys2Proof.Machine.execRtcAlarm dt s
  | .tc10WakePulse dt port => Sys2Proof.Machine.execTc10WakePulse dt port s
  | .powerReturn dt => Sys2Proof.Machine.execPowerReturn dt s
  | .wakeAfterEntry dt => Sys2Proof.Machine.execWakeAfterEntry dt s
  | .pwrGood dt temp => Sys2Proof.Machine.execPwrGood dt temp s
  | .pwrGoodTimeout dt => Sys2Proof.Machine.execPwrGoodTimeout dt s
  | .wakeRetry dt => Sys2Proof.Machine.execWakeRetry dt s
  | .pfClear dt => Sys2Proof.Machine.execPfClear dt s
  | .thermal dt => Sys2Proof.Machine.execThermal dt s
  | .limpCauseClear dt req bits => Sys2Proof.Machine.execLimpCauseClear dt req bits s
  | .dieTempRefresh dt temp => Sys2Proof.Machine.execDieTempRefresh dt temp s
  | .load dt req => Sys2Proof.Machine.execLoad dt req s
  | .capture dt req => Sys2Proof.Machine.execCapture dt req s
  | .bootSequence dt cap octal grain scribeA scribeB otpBad => Sys2Proof.Machine.execBootSequence dt cap octal grain scribeA scribeB otpBad s
  | .fallbackApply dt => Sys2Proof.Machine.execFallbackApply dt s
  | .flRead dt req => Sys2Proof.Machine.execFlRead dt req s
  | .flProgram dt req => Sys2Proof.Machine.execFlProgram dt req s
  | .erase4k dt req => Sys2Proof.Machine.execErase4k dt req s
  | .erase64k dt req => Sys2Proof.Machine.execErase64k dt req s
  | .flDone dt ok => Sys2Proof.Machine.execFlDone dt ok s
  | .flEraseTimeout dt => Sys2Proof.Machine.execFlEraseTimeout dt s
  | .otpRead dt req key => Sys2Proof.Machine.execOtpRead dt req key s
  | .otpProgram dt req key => Sys2Proof.Machine.execOtpProgram dt req key s
  | .heartbeat dt req value => Sys2Proof.Machine.execHeartbeat dt req value s
  | .fwStopped dt => Sys2Proof.Machine.execFwStopped dt s
  | .checkpoint dt req seq => Sys2Proof.Machine.execCheckpoint dt req seq s
  | .echo dt req seq => Sys2Proof.Machine.execEcho dt req seq s
  | .version dt req seq => Sys2Proof.Machine.execVersion dt req seq s
  | .health dt req seq => Sys2Proof.Machine.execHealth dt req seq s
  | .traceLevel dt req seq => Sys2Proof.Machine.execTraceLevel dt req seq s
  | .checkpointNow dt req seq => Sys2Proof.Machine.execCheckpointNow dt req seq s
  | .rspAck dt req seq => Sys2Proof.Machine.execRspAck dt req seq s
  | .mismatch dt a b => Sys2Proof.Machine.execMismatch dt a b s
  | .resyncDone dt => Sys2Proof.Machine.execResyncDone dt s
  | .checkerFault dt parity leg scribe group => Sys2Proof.Machine.execCheckerFault dt parity leg scribe group s
  | .warmRestart dt held a b => Sys2Proof.Machine.execWarmRestart dt held a b s
  | .agreeSelftest dt won => Sys2Proof.Machine.execAgreeSelftest dt won s
  | .memoryScrub dt area ecc => Sys2Proof.Machine.execMemoryScrub dt area ecc s
  | .split dt req key => Sys2Proof.Machine.execSplit dt req key s
  | .handoverPoint dt => Sys2Proof.Machine.execHandoverPoint dt s
  | .handoverTimeout dt => Sys2Proof.Machine.execHandoverTimeout dt s
  | .splitDone dt => Sys2Proof.Machine.execSplitDone dt s
  | .spareViolation dt => Sys2Proof.Machine.execSpareViolation dt s
  | .rejoin dt req key => Sys2Proof.Machine.execRejoin dt req key s
  | .rejoinDone dt => Sys2Proof.Machine.execRejoinDone dt s
  | .halt dt req key => Sys2Proof.Machine.execHalt dt req key s
  | .spareReady dt => Sys2Proof.Machine.execSpareReady dt s
  | .notReady dt => Sys2Proof.Machine.execNotReady dt s
  | .mlogAck dt req seq => Sys2Proof.Machine.execMlogAck dt req seq s
  | .enrol dt req key => Sys2Proof.Machine.execEnrol dt req key s
  | .derive dt req slot parent kind checked => Sys2Proof.Machine.execDerive dt req slot parent kind checked s
  | .clear dt req slot => Sys2Proof.Machine.execClear dt req slot s
  | .seal dt req slot => Sys2Proof.Machine.execSeal dt req slot s
  | .unseal dt req slot => Sys2Proof.Machine.execUnseal dt req slot s
  | .mac dt req slot => Sys2Proof.Machine.execMac dt req slot s
  | .declareSuccessor dt req => Sys2Proof.Machine.execDeclareSuccessor dt req s
  | .withdrawSuccessor dt req => Sys2Proof.Machine.execWithdrawSuccessor dt req s
  | .remask dt faults => Sys2Proof.Machine.execRemask dt faults s
  | .glitch dt => Sys2Proof.Machine.execGlitch dt s
  | .verify dt req key => Sys2Proof.Machine.execVerify dt req key s
  | .verifyDone dt ok => Sys2Proof.Machine.execVerifyDone dt ok s
  | .armNextStart dt req target key => Sys2Proof.Machine.execArmNextStart dt req target key s
  | .armComplete dt ok => Sys2Proof.Machine.execArmComplete dt ok s
  | .disarm dt req key => Sys2Proof.Machine.execDisarm dt req key s
  | .prepareHitless dt req target key => Sys2Proof.Machine.execPrepareHitless dt req target key s
  | .prepReady dt ok => Sys2Proof.Machine.execPrepReady dt ok s
  | .cancelPrep dt req key => Sys2Proof.Machine.execCancelPrep dt req key s
  | .activationDirectoryWrite dt => Sys2Proof.Machine.execActivationDirectoryWrite dt s
  | .confirm dt req key => Sys2Proof.Machine.execConfirm dt req key s
  | .confirmed dt ack ok => Sys2Proof.Machine.execConfirmed dt ack ok s
  | .revert dt req key => Sys2Proof.Machine.execRevert dt req key s
  | .autoConfirm dt => Sys2Proof.Machine.execAutoConfirm dt s
  | .ctrSel dt req counter value => Sys2Proof.Machine.execCtrSel dt req counter value s
  | .perfClr dt req mask => Sys2Proof.Machine.execPerfClr dt req mask s
  | .freeze dt req on => Sys2Proof.Machine.execFreeze dt req on s
  | .userEn dt req on => Sys2Proof.Machine.execUserEn dt req on s
  | .wearSense dt drifts switched => Sys2Proof.Machine.execWearSense dt drifts switched s
  | .tempBinSecond dt => Sys2Proof.Machine.execTempBinSecond dt s
  | .lifeRecordWrite dt input => Sys2Proof.Machine.execLifeRecordWrite dt input s
  | .lifeEstimate dt mechs => Sys2Proof.Machine.execLifeEstimate dt mechs s
  | .partnerSleepReject dt port => Sys2Proof.Machine.execPartnerSleepReject dt port s
  | .gptpTxInterval dt inst kind => Sys2Proof.Machine.execGptpTxInterval dt inst kind s
  | .announceRx dt inst port gm prio1 quality prio2 path => Sys2Proof.Machine.execAnnounceRx dt inst port gm prio1 quality prio2 path s
  | .pdelayExchange dt port delay ratio capable => Sys2Proof.Machine.execPdelayExchange dt port delay ratio capable s
  | .keyDone dt => Sys2Proof.Machine.execKeyDone dt s
  | .cmdDone dt fault => Sys2Proof.Machine.execCmdDone dt fault s
  | .otpDone dt ok => Sys2Proof.Machine.execOtpDone dt ok s
  | .unitCmdDone dt => Sys2Proof.Machine.execUnitCmdDone dt s
  | .disarmComplete dt ok => Sys2Proof.Machine.execDisarmComplete dt ok s
  | .canRxError dt channel error dominant => Sys2Proof.Machine.execCanRxError dt channel error dominant s
  | .pcieLinkUp dt width speed msixEn funcMask d3hot => Sys2Proof.Machine.execPcieLinkUp dt width speed msixEn funcMask d3hot s
  | .completionTimeout dt ring isWalk mem => Sys2Proof.Machine.execCompletionTimeout dt ring isWalk mem s
  | .unknownService dt req seq service => Sys2Proof.Machine.execUnknownService dt req seq service s

end Sys2Proof.Machine
end

