-- ==== Sys2Proof/Safety.lean ====
section
/-! DEFINITION. The terms in which claims are stated: what a command that completes leaves, and what every step keeps. -/
namespace Sys2Proof.Machine

open Sys2Proof

/-- The command completes: `exec` answers a next state in which the flash, the OTP words and the queue stand as before and the chip
is as `P` says. -/
def Does (i : Instr) (s : State) (P : Chip → Prop) : Prop :=
  ∃ t, exec i s = .next t ∧ t.ext = s.ext ∧ t.pending = s.pending ∧ P t.chip

/-- The command completes: `exec` answers a next state in which the queue stands as before and chip and memories are as `P` says. -/
def DoesExt (i : Instr) (s : State) (P : Chip → Ext → Prop) : Prop :=
  ∃ t, exec i s = .next t ∧ t.pending = s.pending ∧ P t.chip t.ext

/-- The register interface takes an access of this requester: the chip is out of reset and of DORMANT (R303, R331, R428) and, for PCI Express, in a mode in which that
interface is powered (R251); firmware's outputs are not held (R372). -/
def Chip.takes (c : Chip) (req : Requester) : Bool := !c.dark && (decide (req ≠ .pcie) || c.pciePowered) && (decide (req ≠ .trestle) || !c.fwHeld)

/-- An event of a page is latched in its `EVT_RAW` (R52). -/
def Chip.latched (c : Chip) (p : Page) (bit : Nat) : Bool := (c.reg p 0x018).getLsbD bit

/-- `d` is `c` but for registers, counters, outputs, the requester's write sequence number and what `own` puts back; registers differ
in the named pages only. -/
def Chip.changesOnly (c d : Chip) (pages : List Page) (own : Chip → Chip) : Prop :=
  { own d with regs := c.regs, cnt := c.cnt, outs := c.outs, wseq := c.wseq } = c
    ∧ ∀ q a, pageValid q = true → q ∉ pages → a < 0x1000 → d.reg q a = c.reg q a

/-- The commands that can write the boot flash, the OTP words or what firmware keeps in the settings journal: a register write that may
reach UPD or PRISIL's page by its address, and the operations that program, erase and burn. -/
def writesMemory : Instr → Bool
  | .registerWrite _ _ _ _ | .qspiWrite _ _ | .remoteRequest _ _ _ | .ehruzRequest _ _ _ _ _ _ _ | .unitCmdDone _ | .cmdDone _ _ => true
  | .bootSequence _ _ _ _ _ _ _ | .fallbackApply _ | .flDone _ _ | .flEraseTimeout _ | .otpDone _ _ | .lifeRecordWrite _ _ => true
  | .armNextStart _ _ _ _ | .armComplete _ _ | .disarmComplete _ _ | .prepareHitless _ _ _ _ | .revert _ _ _ => true
  | .activationDirectoryWrite _ | .confirmed _ _ _ | .verify _ _ _ | .verifyDone _ _ | .disarm _ _ _ | .cancelPrep _ _ _ | .confirm _ _ _ | .autoConfirm _ => true
  | _ => false

/-- The canonical form of the flash: addresses strictly rising, no listed byte that reads as erased. -/
def Memory.wf (m : List Host.Cell) : Bool := canonical (fun _ => 0xFF#8) m

/-- Flash and OTP words are in their canonical form. -/
def Ext.wf (x : Ext) : Bool := Memory.wf x.flash && canonical (fun _ => 0#32) x.otp

end Sys2Proof.Machine
end

