-- ==== Sys2Proof/Certificates/Slice0/Obligations.lean ====
section
/-! DEFINITION. The statements for the provers. `Does i s P`: `exec i s` answers a next state with flash, OTP and queue as before, whose chip is as `P` says;
`DoesExt` says the same of chip and memories. `c` is the chip as the command finds it, after the `dt` cycles that pass first. -/
open Sys2Proof Sys2Proof.Machine

/-- COMMIT_GO, COMMIT_AT_TIME, COMMIT_ABORT, VALIDATION_DONE, SAFE_TIMEOUT (R42 to R47): what each makes of the record in `COMMIT_STATUS`.
`c` is the chip as the command finds it, after `dt` cycles. -/
def Obligations.CommitRequests : Prop :=
  ∀ (s : State) (dt : Nat) (req : Requester) (p : Page) (h : Nat), let c := s.chip.pass dt
    pageValid p = true →
    (c.takes req → c.locked p = false → c.commitState p = 0 →
      Does (.commitGo dt req p) s fun d => d.commitState p = 1 ∧ d.get p F.COMMIT_STATUS_REASON = 0
        ∧ d.get p F.COMMIT_STATUS_PENDING_GEN = (c.get p F.COMMIT_STATUS_PENDING_GEN + 1) % 256
        ∧ d.commitRt p = { atTime := false, handle := 0, since := c.cycles })
    ∧ (c.takes req → c.locked p = false → c.commitState p = 0 → c.timeValid = true →
      Does (.commitAtTime dt req p h) s fun d => d.commitState p = 1 ∧ d.get p F.COMMIT_STATUS_REASON = 0
        ∧ d.get p F.COMMIT_STATUS_PENDING_GEN = (c.get p F.COMMIT_STATUS_PENDING_GEN + 1) % 256
        ∧ d.commitRt p = { atTime := true, handle := h % 4096, since := c.cycles })
    ∧ (c.takes req → c.commitState p = 1 ∨ c.commitState p = 2 ∨ c.commitState p = 3 →
      Does (.commitAbort dt req p) s fun d => d.commitState p = 0 ∧ d.get p F.COMMIT_STATUS_REASON = 7
        ∧ d.latched p E.COMMIT_REJECT ∧ d.commitRt p = {})
    ∧ (c.commitState p = 1 → c.live p = true → (c.validate p [pageIdx p]).1 = 0 → (c.commitRt p).atTime = false → c.safeNow p = false →
      Does (.validationDone dt p) s fun d => d.commitState p = 2 ∧ d.commitRt p = { c.commitRt p with since := c.cycles })
    ∧ (c.commitState p = 1 → c.live p = true → (c.validate p [pageIdx p]).1 = 0 → (c.commitRt p).atTime = true →
      c.handleOk (c.commitRt p).handle = true → c.enabled p = true → Does (.validationDone dt p) s fun d => d.commitState p = 3)
    ∧ (c.commitState p = 1 → c.live p = true → (c.validate p [pageIdx p]).1 ≠ 0 →
      Does (.validationDone dt p) s fun d => d.commitState p = 0 ∧ d.latched p E.COMMIT_REJECT ∧ d.commitRt p = {}
        ∧ d.get p F.COMMIT_STATUS_REASON = (c.validate p [pageIdx p]).1 % 16
        ∧ d.get p F.COMMIT_STATUS_DETAIL = (c.validate p [pageIdx p]).2 % 256)
    ∧ (c.commitState p = 2 → (c.commitRt p).since + c.safeTmo ≤ c.cycles → (eventSafe p = true ∨ c.safePoint p (c.commitRt p).since = false) →
      Does (.safeTimeout dt p) s fun d => d.commitState p = 0 ∧ d.get p F.COMMIT_STATUS_REASON = 9 ∧ d.latched p E.COMMIT_REJECT)

/-- GROUP_GO, GROUP_AT_TIME, GROUP_ABORT, GROUP_VALIDATION_DONE, GROUP_APPLY, GROUP_SAFE_TIMEOUT (R48 to R50): what each makes of the
group's record in `GRP_STATUS`. -/
def Obligations.GroupRequests : Prop :=
  ∀ (s : State) (dt : Nat) (req : Requester) (h : Nat), let c := s.chip.pass dt
    let idle : Bool := c.masked.all fun i => match pageOfIdx i with | some p => decide (c.commitState p = 0) | none => true
    (c.takes req → c.groupState = 0 → c.masked ≠ [] → idle = true →
      Does (.groupGo dt req) s fun d => d.groupState = 1
        ∧ (c.masked.all fun i => match pageOfIdx i with | some p => decide (d.commitState p = 4) | none => false) = true
        ∧ d.group = { atTime := false, handle := 0, since := c.cycles, members := c.masked })
    ∧ (c.takes req → c.groupState = 0 → c.masked ≠ [] → idle = true → c.timeValid = true →
      Does (.groupAtTime dt req h) s fun d => d.groupState = 1
        ∧ d.group = { atTime := true, handle := h % 4096, since := c.cycles, members := c.masked })
    ∧ (c.takes req → c.groupState ≠ 0 →
      Does (.groupAbort dt req) s fun d => d.groupState = 0 ∧ d.group = {} ∧ d.get pSYS F.SYS_GRP_STATUS_REASON = 7)
    ∧ (c.groupState = 1 → (c.group.members.all fun i => decide ((c.memberCheck i).1 = 0)) = true → c.group.atTime = false →
        c.groupSafe false = false →
      Does (.groupValidationDone dt) s fun d => d.groupState = 2 ∧ d.group = { c.group with since := c.cycles })
    ∧ (c.groupState = 1 → (c.group.members.all fun i => decide ((c.memberCheck i).1 = 0)) = true → c.group.atTime = true →
        c.handleOk c.group.handle = true →
      Does (.groupValidationDone dt) s fun d => d.groupState = 3 ∧ d.group = c.group)
    ∧ (∀ i, c.groupState = 1 → c.group.members.find? (fun i => decide ((c.memberCheck i).1 ≠ 0)) = some i →
      Does (.groupValidationDone dt) s fun d => d.groupState = 0 ∧ d.group = {}
        ∧ d.get pSYS F.SYS_GRP_STATUS_REASON = (c.memberCheck i).1 % 16 ∧ d.get pSYS F.SYS_GRP_STATUS_FAIL_VALID = 1
        ∧ d.get pSYS F.SYS_GRP_STATUS_FAIL_PAGE = i % 128)
    ∧ (c.groupState = 2 → c.groupSafe true = true → c.cycles ≤ c.group.since + c.safeTmo → (c.groupPages.all fun p => c.live p) = true →
      Does (.groupApply dt) s fun d => d.groupState = 0 ∧ d.group = {} ∧ d.get pSYS F.SYS_GRP_STATUS_REASON = 0
        ∧ d.get pSYS F.SYS_GRP_STATUS_FAIL_VALID = 0)
    ∧ (c.groupState = 2 → c.group.since + c.safeTmo ≤ c.cycles → c.groupSafe false = false →
      Does (.groupSafeTimeout dt) s fun d => d.groupState = 0 ∧ d.group = {} ∧ d.get pSYS F.SYS_GRP_STATUS_REASON = 9)

/-- COMMIT_APPLY (R45): at the safe point every staged register's active copy takes its staged value, `APPLIED_GEN` takes `PENDING_GEN`, the
state is IDLE and COMMIT_DONE is latched; what the block does with its new set follows. A soft reset's page (R37): its own registers, active
copies, tables and counters at their reset values, no operation of its windows. SNAP_TAKE, SNAP_DONE, SNAP_ALL (R56): a capture in progress,
the captured set, a capture in every page that has counters. -/
def Obligations.CommitsApplyAndSnapshots : Prop :=
  (∀ (s : State) (dt : Nat) (p : Page), let c := s.chip.pass dt
    pageValid p = true → c.commitState p = 2 → c.live p = true → c.safePoint p (c.commitRt p).since = true →
    c.cycles ≤ (c.commitRt p).since + c.safeTmo → Does (.commitApply dt p) s fun d => ∃ e : Chip, d = e.applied c p
      ∧ (∀ off ∈ stagedOffsets p, e.reg p (off + 0x800) = c.reg p off)
      ∧ e.commitState p = 0 ∧ e.get p F.COMMIT_STATUS_APPLIED_GEN = c.get p F.COMMIT_STATUS_PENDING_GEN
      ∧ e.get p F.COMMIT_STATUS_REASON = 0 ∧ e.latched p E.COMMIT_DONE ∧ e.commitRt p = {})
  ∧ (∀ (c : Chip) (p : Page), pageValid p = true →
    (∀ a, 0x140 ≤ a → a < 0x1000 → (c.clearPage p).reg p a = regReset p a)
    ∧ (∀ a, a < 0x140 → (c.clearPage p).reg p a = c.reg p a)
    ∧ (∀ q a, pageValid q = true → q ≠ p → a < 0x1000 → (c.clearPage p).reg q a = c.reg q a)
    ∧ (∀ i, i < 1024 → (c.clearPage p).cntAt (cntKey p i) = 0 ∧ lookupD 0 (c.clearPage p).snap (cntKey p i) = 0)
    ∧ (∀ t i w, t < 16 → i < 2 ^ 20 → w < 128 → (c.clearPage p).tword p t i w = tblReset p t i w
        ∧ (c.clearPage p).tstaged p t i w = tblReset p t i w)
    ∧ (∀ side, side < 2 → (c.clearPage p).win p side = none))
  ∧ (∀ (s : State) (dt : Nat) (req : Requester) (p : Page), let c := s.chip.pass dt
    pageValid p = true → hasSnap p = true →
    (c.takes req → Does (.snapTake dt req p) s fun d => d.snapBusy p = true ∧ d.snap = c.snap)
    ∧ (c.snapBusy p = true → c.snapAll.contains (pageIdx p) = false → canonical (fun _ => 0#48) c.cnt = true →
      Does (.snapDone dt p) s fun d => d.snapBusy p = false ∧ d.latched p E.SNAP_DONE
        ∧ bitsAt (d.reg p 0x134) 0 16 = (bitsAt (c.reg p 0x134) 0 16 + 1) % 65536
        ∧ ∀ i, i < 1024 → lookupD 0 d.snap (cntKey p i) = c.cntAt (cntKey p i))
    ∧ (c.takes req → Does (.snapAll dt req) s fun d => d.snapBusy p = true ∧ d.snapAll = snapPages.map pageIdx))

/-- LOCK, EVT_RAW_CLEAR, BLOCK_ENABLE, SOFT_RST (R36, R37, R51, R52). REGISTER_WRITE and UNIMPL_PAGE (R34, R38, R40, R253): a plain write
takes the writable bits; what cannot be written is logged; an access that no page takes ends in a bus error and is logged in SYS; a read
answers the register; a misaligned access is logged as BUS_SIZE. -/
def Obligations.RegisterAccesses : Prop :=
  (∀ (s : State) (dt : Nat) (req : Requester) (p : Page) (en : Bool) (v : Word), let c := s.chip.pass dt
    pageValid p = true → c.takes req →
    (c.commitState p = 0 → Does (.lock dt req p) s fun d => d.locked p = true
      ∧ ∀ a, a < 0x1000 → a ≠ 0x030 → d.reg p a = c.reg p a)
    ∧ (v.getLsbD E.ACCESS_ERR = false → Does (.evtRawClear dt req p v) s fun d => d.reg p 0x018 = c.reg p 0x018 &&& ~~~ v)
    ∧ (v.getLsbD E.ACCESS_ERR = true → Does (.evtRawClear dt req p v) s fun d => d.reg p 0x018 = c.reg p 0x018 &&& ~~~ v
      ∧ d.reg p 0x034 = 0 ∧ d.reg p 0x038 = 0)
    ∧ (c.locked p = false → Does (.blockEnable dt req p en) s fun d => ∃ e b : Chip, d = e.enFollow b p ∧ e.enabled p = en
      ∧ ∀ a, a < 0x1000 → a ≠ 0x010 → e.reg p a = c.reg p a)
    ∧ (c.locked p = false → noSoftReset p = false → Does (.softRst dt req p en) s fun d => ∃ b : Chip,
      d = ((((b.resetSystem p).resetTimed p).resetPlane p).clearPage p).resetShown b s.ext p ∧ b.latched pRST E.RST_XING_FLUSH
        ∧ b.get pRST F.RST_XING_STATUS_PAGE = pageIdx p ∧ b.pageEpoch p = !c.pageEpoch p ∧ (c.commitState p ≠ 4 → b.commitState p = 0) ∧ b.enabled p = en))
  ∧ (∀ (s : State) (dt : Nat) (req : Requester) (p : Page) (addr : Nat) (v w : Word), let c := s.chip.pass dt
    c.takes req →
    (pageValid p = true → DoesExt (.registerWrite dt req (regKey p 0x03C) ⟨.word, v, w⟩) s fun d x => x = s.ext ∧ d.reg p 0x03C = v
      ∧ ∀ q a, pageValid q = true → a < 0x1000 → (q ≠ p ∨ a ≠ 0x03C) → d.reg q a = c.reg q a)
    ∧ (pageValid p = true → c.get p F.ERR_CAUSE_CODE = 0 → DoesExt (.registerWrite dt req (regKey p 0x014) ⟨.word, v, w⟩) s fun d x => x = s.ext
      ∧ d.get p F.ERR_CAUSE_CODE = 2 ∧ d.get p F.ERR_CAUSE_REQUESTER = reqCode req ∧ d.reg p 0x038 = BitVec.ofNat 32 (regKey p 0x014)
      ∧ d.latched p E.ACCESS_ERR)
    ∧ (addr < 2 ^ 24 → addr % 4 = 0 → pageOfAddr addr = none → c.get pSYS F.ERR_CAUSE_CODE = 0 → ∀ b, Does (.unimplPage dt req addr ⟨b, .word⟩) s fun d =>
        .busError req addr ∈ d.outs ∧ d.get pSYS F.ERR_CAUSE_CODE = 7 ∧ d.reg pSYS 0x038 = BitVec.ofNat 32 addr ∧ d.latched pSYS E.ACCESS_ERR)
    ∧ (pageValid p = true → addr < 0x1000 → addr % 4 = 0 → (p = pHOST → addr ≠ 0x148) → Does (.unimplPage dt req (regKey p addr) ⟨false, .word⟩) s fun d =>
        d = c.emit (.readData req (regKey p addr) (c.read req p addr)))
    ∧ (addr < 2 ^ 24 → addr % 4 ≠ 0 → (∀ b, b = pSYS ∨ pageOfAddr addr = some b → c.get b F.ERR_CAUSE_CODE = 0) →
      ∀ b, (b = true → pageOfAddr addr = none) → Does (.unimplPage dt req addr ⟨b, .word⟩) s fun d => d.get (sizePage addr) F.ERR_CAUSE_CODE = 6
        ∧ d.cntAt (cntKey pHOST K.HOST_BAD_ACCESS) = c.cntAt (cntKey pHOST K.HOST_BAD_ACCESS) + 1))

/-- TBL_READ, TBL_READ_ACTIVE, TBL_WRITE, TBL_CLEAR, TBL_SEARCH, TBL_CLEAR_ALL (R54, R55): the operation waits in its requester's window
with the table and index of `TBL_ADDR` and its tag. TBL_DONE and BANK_SYNC_DONE (R54, R55): a read fills the buffer, a write of a staged
table fills the staged entry, the window is free, RESULT and TAG stand in `TBL_STATUS`, TBL_DONE is latched; the refill of a page's staged
banks ends. -/
def Obligations.TableAccesses : Prop :=
  (∀ (s : State) (dt : Nat) (req : Requester) (p : Page) (tag : Byte), let c := s.chip.pass dt
    let a := c.tblAddr p (reqSide req)
    let t := bitsAt a 20 4
    let op := fun (k : Nat) (d : Chip) => d.win p (reqSide req) = some { op := k, table := t, index := bitsAt a 0 20, tag := tag.toNat, req := req, result := 0, waiting := match c.win p (1 - reqSide req) with | some o => decide (o.table = t) | none => false }
    pageValid p = true → hasTable p = true → c.takes req → c.win p (reqSide req) = none →
    Does (.tblRead dt req p tag) s (op 1) ∧ Does (.tblReadActive dt req p tag) s (op 2) ∧ Does (.tblSearch dt req p tag) s (op 5)
    ∧ (c.locked p = false → (t ∉ stagedTables p ∨ c.commitState p = 0) →
      Does (.tblWrite dt req p tag) s (op 3) ∧ Does (.tblClear dt req p tag) s (op 4) ∧ Does (.tblClearAll dt req p tag) s (op 6)))
  ∧ (∀ (s : State) (dt : Nat) (side : Side) (p : Page) (o : WinOp) (t : TblInfo), let c := s.chip.pass dt
    let k := sideNo side
    pageValid p = true → c.win p k = some o → c.tblWaits p o = false → o.result = 0 → c.tblMode p = false →
    tblInfo p o.table = some t → o.index < t.entries → t.kind = .staged → p.kind ≠ .fdb → p.kind ≠ .macsec →
    (o.op = 1 → Does (.tblDone dt side p false) s fun d => d.win p k = none ∧ d.latched p E.TBL_DONE
      ∧ d.regAt (sideKey p 0x128 k) = BitVec.ofNat 32 (256 * o.tag) ∧ ∀ n, n < 8 * t.parts → d.bufWord p k n = c.tblStagedWord p o.table o.index n)
    ∧ (o.op = 3 → c.locked p = false → c.commitState p = 0 → Does (.tblDone dt side p false) s fun d => d.win p k = none
      ∧ d.latched p E.TBL_DONE ∧ d.regAt (sideKey p 0x128 k) = BitVec.ofNat 32 (256 * o.tag)
      ∧ ∀ n, n < 8 * t.parts → d.tstaged p o.table o.index n = c.bufWord p k n)
    ∧ Does (.bankSyncDone dt p) s fun d => d.syncs.contains (pageIdx p) = false)

/-- PARTNER_SIGNAL, TRAIN_COMPLETE, LINK_TRAIN_FAIL, RESUME_OK, RESUME_FAIL, PCS_LOCK_LOSS, PLCA_BEACON_RX, BEACON_LOSS, PLCA_BEACON_TX (R61
to R67, R70 to R72): the link states (0 OFF, 1 SEARCH, 2 TRAIN, 3 RESUME, 4 UP, 5 SLEEP_NEG, 6 SLEEP) between which each moves a port. -/
def Obligations.LinkEvents : Prop :=
  ∀ (s : State) (dt n rate : Nat) (lb able inv : Bool), let c := s.chip.pass dt
    isWire n = true →
    (isS n = false → c.linkState n = 1 → c.testing n = false → Does (.partnerSignal dt n) s fun d =>
        d.linkState n = if (isB n || isG n) && c.warmUsable n then 3 else 2)
    ∧ (c.linkState n = 2 → (∀ l, c.trainLimit n = some l → c.linkAge n < l) → Does (.trainComplete dt n rate lb able inv) s fun d => d.linkState n = 4 ∧ d.latched (pPORT n) E.PORT_LINK_UP
        ∧ d.get (pPORT n) F.PORT_LINK_STATUS_RESUMED = 0
        ∧ d.get (pPORT n) F.PORT_LINK_STATUS_RATE = (if c.offersLongBed n && lb then 1 else c.trainRate n rate) % 8)
    ∧ (∀ l, c.trainLimit n = some l → c.linkState n = 2 → l ≤ c.linkAge n → Does (.linkTrainFail dt n lb) s fun d =>
        d.linkState n = 1 ∧ d.latched (pPORT n) E.PORT_TRAIN_FAIL)
    ∧ (isB n || isG n → c.linkState n = 3 → c.linkAge n < msCycles 6 → Does (.resumeOk dt n) s fun d => d.linkState n = 4 ∧ d.latched (pPORT n) E.PORT_LINK_UP
        ∧ d.get (pPORT n) F.PORT_LINK_STATUS_RESUMED = 1)
    ∧ (isB n || isG n → c.linkState n = 3 → msCycles 6 ≤ c.linkAge n → Does (.resumeFail dt n) s fun d => d.linkState n = 2
        ∧ d.warmOf n = none ∧ d.latched (pPORT n) E.PORT_RESUME_FAIL)
    ∧ (isB n || isX n || isG n → c.linkState n = 4 → Does (.pcsLockLoss dt n) s fun d => d.linkState n = 1
        ∧ d.latched (pPORT n) E.PORT_LINK_DOWN)
    ∧ (c.follower n = true → c.testing n = false → c.linkState n = 1 → Does (.plcaBeaconRx dt n) s fun d => d.linkState n = 4
        ∧ d.latched (pPORT n) E.PORT_LINK_UP)
    ∧ (∀ t, c.follower n = true → c.linkState n = 4 → c.is (pPORT n) F.PORT_LINK_STATUS_PLCA_ACTIVE = true → (c.portRt n).beacon = some t →
        t + msCycles 2 ≤ c.cycles → Does (.beaconLoss dt n) s fun d => d.latched (pPORT n) E.PORT_BEACON_LOSS
        ∧ d.get (pPORT n) F.PORT_LINK_STATUS_PLCA_ACTIVE = 0
        ∧ d.linkState n = if c.is (pPORT n) F.PORT_PLCA_CFG_FALLBACK_CSMA && c.is pCLK F.CLK_XTAL_STATUS_RUNNING then 4 else 1)
    ∧ (isS n = true → c.is (pPORT n) F.PORT_PLCA_CFG_PLCA_EN = true → c.get (pPORT n) F.PORT_PLCA_CFG_NODE_ID = 0 → c.linkUp n = true →
        c.cycleOver n = true → c.txOf n = none → c.rxOf n = none → Does (.plcaBeaconTx dt n) s fun d => d.outs = c.outs ++ [.beacon n] ∧ (d.portRt n).beacon = some c.cycles)

/-- LINK_CMD_RESTART, LINK_CMD_SLEEP, LINK_CMD_WAKE, LINK_CMD_FORGET (R62, R66). PARTNER_SLEEP_REQUEST, PARTNER_SLEEP_REJECT, SLEEP_DONE,
SLEEP_DRAIN, WAKE_RX (R62, R68, R69). -/
def Obligations.LinkAndSleepCommands : Prop :=
  (∀ (s : State) (dt n : Nat) (req : Requester), let c := s.chip.pass dt
    isWire n = true → c.takes req →
    (isS n = false → c.linkState n ≠ 0 → c.testing n = false → Does (.linkCmdRestart dt req n) s fun d => d.linkState n = 2)
    ∧ (isS n = true → c.sAlone n = false → c.linkState n ≠ 0 → Does (.linkCmdRestart dt req n) s fun d => d.linkState n = 1)
    ∧ (isS n = true → c.sAlone n = true → c.is pCLK F.CLK_XTAL_STATUS_RUNNING = true → c.testing n = false → c.linkState n ≠ 0 → Does (.linkCmdRestart dt req n) s fun d => d.linkState n = 4
        ∧ d.latched (pPORT n) E.PORT_LINK_UP)
    ∧ (hasTc10 n = true → c.linkState n = 4 → Does (.linkCmdSleep dt req n) s fun d => d.linkState n = 5 ∧ d.outs = c.outs ++ [.sleepRequest n])
    ∧ (hasTc10 n = true → c.linkState n = 6 → Does (.linkCmdWake dt req n) s fun d => d.linkState n = (if isS n then 4 else 3)
        ∧ .wakePulse n ∈ d.outs)
    ∧ Does (.linkCmdForget dt req n) s fun d => d.warmOf n = none ∧ ∀ m, m ≠ n → d.warmOf m = c.warmOf m)
  ∧ (∀ (s : State) (dt n : Nat), let c := s.chip.pass dt
    hasTc10 n = true →
    (c.linkState n = 4 → c.is (pPORT n) F.PORT_TC10_CFG_SLEEP_ACCEPT = true → Does (.partnerSleepRequest dt n) s fun d => d.linkState n = 5)
    ∧ (c.linkState n = 4 → c.is (pPORT n) F.PORT_TC10_CFG_SLEEP_ACCEPT = false → Does (.partnerSleepRequest dt n) s fun d => d.linkState n = 4
        ∧ d.latched (pPORT n) E.PORT_SLEEP_REJECT ∧ .sleepReject n ∈ d.outs)
    ∧ (c.linkState n = 5 → Does (.partnerSleepReject dt n) s fun d => d.linkState n = 4 ∧ d.latched (pPORT n) E.PORT_SLEEP_REJECT)
    ∧ (c.linkState n = 5 → c.egressEmpty n = true → Does (.sleepDone dt n) s fun d => d.linkState n = 6 ∧ d.latched (pPORT n) E.PORT_SLEEP_DONE)
    ∧ (c.linkState n = 5 → c.egressEmpty n = false → usCycles (100 * c.get (pPORT n) F.PORT_TC10_CFG_SLEEP_DRAIN) ≤ c.linkAge n →
        Does (.sleepDrain dt n) s fun d => d.linkState n = 4 ∧ d.latched (pPORT n) E.PORT_SLEEP_REJECT)
    ∧ (c.linkState n = 6 → Does (.wakeRx dt n) s fun d => d.linkState n = (if isS n then 4 else 3) ∧ d.latched (pPORT n) E.PORT_WAKE_RX))

/-- VERIFY_FAIL, CABLE_DIAG_START, CABLE_DIAG_DONE, TEST_MODE, SQI_REFRESH (R74, R83, R84). -/
def Obligations.PhyOperations : Prop :=
  ∀ (s : State) (dt n result dist mode sqi : Nat) (req : Requester), let c := s.chip.pass dt
    pageValid (pPHY n) = true →
    (isB n || isX n || isG n → c.linkState n = 4 → c.get (pPORT n) F.PORT_PREEMPT_STATUS_VERIFY = 2 →
        (c.portRt n).verifyAt + msCycles (c.get (pPORT n) F.PORT_PREEMPT_CFG_VERIFY_TIME) ≤ c.cycles → Does (.verifyFail dt n) s fun d => (d.portRt n).verifyTries = (c.portRt n).verifyTries + 1
          ∧ (c.get (pPORT n) F.PORT_PREEMPT_CFG_VERIFY_LIMIT ≤ (c.portRt n).verifyTries + 1 →
              d.get (pPORT n) F.PORT_PREEMPT_STATUS_VERIFY = 4 ∧ d.latched (pPORT n) E.PORT_VERIFY_FAIL))
    ∧ (c.takes req → c.linkState n = 1 → Does (.cableDiagStart dt req n) s fun d => d.is (pPHY n) F.PHY_CABLE_DIAG_RESULT_BUSY = true)
    ∧ (c.is (pPHY n) F.PHY_CABLE_DIAG_RESULT_BUSY = true → Does (.cableDiagDone dt n result dist) s fun d =>
        d.is (pPHY n) F.PHY_CABLE_DIAG_RESULT_BUSY = false ∧ d.get (pPHY n) F.PHY_CABLE_DIAG_RESULT_RESULT = result % 4
          ∧ d.get (pPHY n) F.PHY_CABLE_DIAG_RESULT_DIST_DM = dist % 4096 ∧ d.latched (pPHY n) E.PHY_CABLE_DIAG_DONE)
    ∧ (c.takes req → c.locked (pPHY n) = false → mode % 16 ≠ 0 → c.commitState (pPHY n) = 0 → Does (.testMode dt req n mode) s fun d =>
        d.get (pPHY n) F.PHY_TEST_MODE_MODE = mode % 16 ∧ d.linkState n = if c.linkState n = 0 then 0 else 1)
    ∧ (∀ m, c.linkState n = 4 → Does (.sqiRefresh dt n sqi m) s fun d => d.get (pPHY n) F.PHY_SQI_VALUE = sqi % 8
        ∧ d.is (pPHY n) F.PHY_SQI_VALID = true)

/-- FRAME_RECEPTION (R60, R73, R74, R418): a bad frame is counted and goes no further; a PAUSE frame ends at the MAC (every frame of its
EtherType, the model's choice: log entry 122); a good frame enters the parser and Bridle after its statistics; a verify response makes
verification succeed; the first bytes of a frame, fewer than 128, are kept until its tail. -/
def Obligations.FrameReceptions : Prop :=
  ∀ (s : State) (dt n : Nat) (bs : List Byte) (e : RxEnd) (node : Option Nat) (o : RingOrigin) (frags ago : Nat), let c := s.chip.pass dt
    let cnt := fun (d : Chip) (i : Nat) => d.cntAt (cntKey (pPORT n) i)
    let maxLen := c.get (pPORT n) F.PORT_MAC_CFG_MAX_LEN
    isWire n = true → c.receives n = true →
    (c.rxOf n = none → e ≠ .assyError → (macError n (bs.length + 4) maxLen e).isSome = true →
        Does (.frameReception dt n (.whole bs e) node o frags ago) s fun d => d.queues = c.queues ∧ d.nextFid = c.nextFid
          ∧ cnt d K.PORT_RX_ERR = cnt c K.PORT_RX_ERR + 1 ∧ cnt d K.PORT_RX_FRAMES = cnt c K.PORT_RX_FRAMES + 1
          ∧ cnt d K.PORT_RX_OCTETS = cnt c K.PORT_RX_OCTETS + BitVec.ofNat 48 (bs.length + 4)
          ∧ cnt d K.PORT_RX_FRAMES_GOOD = cnt c K.PORT_RX_FRAMES_GOOD)
    ∧ (c.rxOf n = none → macError n (bs.length + 4) maxLen .good = none → beAt bs 12 2 = 0x8808 →
        Does (.frameReception dt n (.whole bs .good) node o frags ago) s fun d => d.queues = c.queues
          ∧ cnt d K.PORT_PAUSE_RX = cnt c K.PORT_PAUSE_RX + 1 ∧ cnt d K.PORT_RX_FRAMES_GOOD = cnt c K.PORT_RX_FRAMES_GOOD + 1)
    ∧ (c.rxOf n = none → macError n (bs.length + 4) maxLen .good = none → beAt bs 12 2 ≠ 0x8808 → c.secyAt n = none →
        Does (.frameReception dt n (.whole bs .good) node o frags ago) s fun d => ∃ (a : Chip) (f : Frame), d = (a.ingestWhole f).plcaHeard n f.node f.began
          ∧ f.bytes = bs ∧ f.ingress = n ∧ f.origin = n ∧ f.stamp = c.rxStamp n ago ∧ a.queues = c.queues
          ∧ cnt a K.PORT_RX_FRAMES_GOOD = cnt c K.PORT_RX_FRAMES_GOOD + 1)
    ∧ (c.linkState n = 4 → c.get (pPORT n) F.PORT_PREEMPT_STATUS_VERIFY = 2 →
        Does (.frameReception dt n .verifyResponse node o frags ago) s fun d => d.get (pPORT n) F.PORT_PREEMPT_STATUS_VERIFY = 3)
    ∧ (c.rxOf n = none → bs.length < 128 →
        Does (.frameReception dt n (.head bs) node o frags ago) s fun d => (d.rxOf n).map (fun f => f.raw) = some bs ∧ d.queues = c.queues)

/-- EGRESS_FRAME_START (R144, R162): the copy that an idle port picks is in transmission once what lies before the wire has passed it; a
safe frame goes before every copy. EGRESS_FRAME_END (R15, R94, R418): the frame has left, its statistics count, the port is idle; an
uncorrectable error in its cells makes its end bad. GATE_DEADLINE_DROP (R145): the head copy that has stood for DEADLINE_US is discarded and
counted in STORY. -/
def Obligations.EgressTransmission : Prop :=
  (∀ (s : State) (dt n collisions : Nat) (ecc : EccResult) (waited : Bool), let c := s.chip.pass dt
    c.sends n = true → c.txOf n = none → c.opportunity n = true →
    (∀ k k' a, c.pick n = some (.copy k) → (c.takeCopy n k).prepare k false ecc = (a, some k') → a.tWait = [] →
        Does (.egressFrameStart dt n ecc waited collisions) s fun d => d.txOf n = some { k' with xing := c.portEpoch n })
    ∧ (∀ f, c.safeOf n = some f → c.secyAt n = none → f.port = n → c.tWait = [] →
        Does (.egressFrameStart dt n ecc waited collisions) s fun d => d.safeFrames = c.safeFrames.erase f
          ∧ (d.txOf n).map (fun k => (k.bytes, k.safe, k.egress)) = some (f.bytes, true, n)))
  ∧ (∀ (s : State) (dt n : Nat) (k : Copy), let c := s.chip.pass dt
    let cnt := fun (d : Chip) (i : Nat) => d.cntAt (cntKey (pPORT n) i)
    let bs := k.sent (k.going.getD {})
    isWire n = true → c.txOf n = some k → k.rx = none → k.cls < 8 → (k.going.getD {}).cut = false → c.tWait = [] →
    Does (.egressFrameEnd dt ⟨n, .good⟩) s (fun d => d.txOf n = none ∧ .frame n bs (!k.bad) ∈ d.outs
      ∧ cnt d K.PORT_TX_FRAMES = cnt c K.PORT_TX_FRAMES + 1)
    ∧ (k.safe = false → k.send = false → Does (.egressFrameEnd dt ⟨n, .uncorrectable⟩) s fun d => d.txOf n = none ∧ .frame n bs false ∈ d.outs
      ∧ cnt d K.PORT_STOMPED = cnt c K.PORT_STOMPED + 1 ∧ d.latched pBUF E.BUF_ECC_UNCORR))
  ∧ (∀ (s : State) (dt n cls i limit t : Nat) (k : Copy), let c := s.chip.pass dt
    n < 32 → cls < 8 → c.gateDeadline n = some (i, limit) → c.headOf n cls = some k → k.head = some t → t + limit ≤ c.cycles →
    k.mirror = false → k.multi = false → c.tWait = [] →
    Does (.gateDeadlineDrop dt n cls) s fun d => d.latched pSTORY E.STORY_GATE_DEADLINE
      ∧ d.cntAt (cntKey pSTORY K.STORY_GATE_DEADLINE_DROP) = c.cntAt (cntKey pSTORY K.STORY_GATE_DEADLINE_DROP) + 1
      ∧ d.queues = (c.takeCopy n k).queues)

/-- RELEASE_REQUEST and RELEASE_START (R153 to R156): a copy with a launch time joins the release queue of its S port; at its instant it is
in transmission and its request is gone. -/
def Obligations.TimedRelease : Prop :=
  ∀ (s : State) (dt n cls : Nat) (k : Copy) (l : Launch) (q : RelReq) (res : CanResult) (waited : Bool), let c := s.chip.pass dt
    isS n = true →
    ((c.queue (qIndex n cls)).next.find? (fun k => k.launch.isSome && k.present) = some k → k.launch = some l → c.noRelease = false → c.localNs ≤ c.effect l.e - c.leadNs l.lead →
        c.effect l.e - c.leadNs l.lead ≤ c.localNs + 4000000000 → (c.relsOf n).length < relCapacity n →
        Does (.releaseRequest dt n cls) s fun d => ∃ r ∈ d.rels, r.target = n ∧ r.r = c.effect l.e - c.leadNs l.lead ∧ r.tag = l.tag
          ∧ r.copy = some { k with launch := none })
    ∧ (∀ k' a, c.relDue n = some q → q.copy = some k → c.safeOf n = none → c.sends n = true → c.txOf n = none → c.opportunity n = true →
        c.prepare k true .good = (a, some k') →
        Does (.releaseStart dt n res waited) s fun d => d.txOf n = some { k' with xing := c.portEpoch n } ∧ d.rels = a.rels.erase q)

/-- RSEQ_WINDOW_ENTRY and RSEQ_TIMEOUT (R99, R100): the expected frame is released, one that lies ahead waits until its timer, one that lies
behind is discarded; at the timer of a gap the missing numbers are lost and the first waiting frame is released. -/
def Obligations.ReorderWindow : Prop :=
  ∀ (s : State) (dt egress cls ingress : Nat) (k f : Copy), let c := s.chip.pass dt
    let q := qIndex egress cls
    let x := c.queue q
    let ahead := seqAhead k.seq (x.expectedOf k.ingress)
    let cnt := fun (d : Chip) (i : Nat) => d.cntAt (cntKey pRSEQ i)
    cls < 8 → c.heldClass cls = false →
    (x.toWindow.find? Copy.present = some k → ahead = 0 → Does (.rseqWindowEntry dt egress cls) s fun d =>
        (d.queue q).items = x.items.filter (fun j => j ≠ k)
          ∧ ∃ more, (d.queue q).ready.map Copy.fid = (x.ready ++ k :: more).map Copy.fid)
    ∧ (x.toWindow.find? Copy.present = some k → 0 < ahead → ahead ≤ 32767 → x.window.length < 1024 → x.lost = [] →
        (∀ j ∈ x.window, j.ingress = k.ingress → j.seq ≠ x.expectedOf k.ingress) → Does (.rseqWindowEntry dt egress cls) s fun d =>
        (∃ j ∈ (d.queue q).window, j.fid = k.fid ∧ j.winDue = c.cycles + usCycles (c.get pRSEQ F.RSEQ_RSEQ_TIMEOUT_US))
          ∧ cnt d K.RSEQ_RSEQ_HELD = cnt c K.RSEQ_RSEQ_HELD + 1)
    ∧ (x.toWindow.find? Copy.present = some k → 32767 < ahead → Does (.rseqWindowEntry dt egress cls) s fun d =>
        (d.queue q).items = x.items.filter (fun j => j ≠ k) ∧ (d.queue q).window = x.window
          ∧ cnt d K.RSEQ_RSEQ_LATE = cnt c K.RSEQ_RSEQ_LATE + 1)
    ∧ (x.gapOpener ingress = some k → k.winDue ≤ c.cycles → x.firstWaiting ingress = some f → f.seq < 65536 → x.lost = [] →
        Does (.rseqTimeout dt egress cls ingress) s fun d => d.latched pRSEQ E.RSEQ_LOST
          ∧ (∃ r ∈ (d.queue q).ready, r.ingress = ingress ∧ r.seq = f.seq)
          ∧ cnt d K.RSEQ_RSEQ_LOST = cnt c K.RSEQ_RSEQ_LOST + BitVec.ofNat 48 (seqAhead f.seq (x.expectedOf ingress)))

/-- SPILL_READ, SPILL_READ_DONE, SPILL_TRAIN_DONE, SPILL_LAT_CLR, RSEQ_CLR (R96 to R98, R110, R111). -/
def Obligations.SpillPath : Prop :=
  ∀ (s : State) (dt egress cls : Nat) (req : Requester) (k : Copy), let c := s.chip.pass dt
    let q := qIndex egress cls
    let items := (c.queue q).items
    cls < 8 → c.heldClass cls = false →
    (nextRead items = some k → (k.writing = false → c.returnBytes + k.bytes.length + 4 ≤ 262144 → ∀ b, Does (.spillRead dt egress ⟨cls, b⟩) s fun d =>
          ∃ j ∈ (d.queue q).items, j.fid = k.fid ∧ j.reading = some c.cycles)
        ∧ (k.writing = true → Does (.spillRead dt egress ⟨cls, true⟩) s fun d => ∃ j ∈ (d.queue q).items, j.fid = k.fid ∧ j.back = true))
    ∧ (items.find? (fun j => j.spilled && !j.back && j.reading.isSome) = some k →
        (∀ ecc, ecc ≠ .uncorrectable → Does (.spillReadDone dt egress cls ecc) s fun d =>
          ∃ j ∈ (d.queue q).items, j.fid = k.fid ∧ j.back = true)
        ∧ Does (.spillReadDone dt egress cls .uncorrectable) s fun d => k ∉ (d.queue q).items ∧ d.latched pSPILL E.SPILL_ECC_UNCORR
          ∧ d.cntAt (cntKey pSPILL K.SPILL_SPILL_ECC_DROP) = c.cntAt (cntKey pSPILL K.SPILL_SPILL_ECC_DROP) + 1)
    ∧ (c.spillTraining = true → (c.get pCLK F.CLK_PLL_STATUS_LOCKED).testBit 6 = true →
        (Does (.spillTrainDone dt true) s fun d => d.spillTraining = false ∧ d.is pSPILL F.SPILL_SPILL_STATUS_TRAINED = true
          ∧ d.get pSPILL F.SPILL_SPILL_CAP_CELLS = 14680064 * c.get pSPILL F.SPILL_SPILL_CFG_DENSITY ∧ d.latched pSPILL E.SPILL_TRAIN_DONE)
        ∧ Does (.spillTrainDone dt false) s fun d => d.spillTraining = false ∧ d.is pSPILL F.SPILL_SPILL_STATUS_TRAIN_FAIL = true
          ∧ d.latched pSPILL E.SPILL_TRAIN_FAIL)
    ∧ (c.takes req → (Does (.spillLatClr dt req) s fun d => d.reg pSPILL 0x154 = 0) ∧ Does (.rseqClr dt req) s fun d => d.reg pRSEQ 0x144 = 0)

/-- AGEING_PASS, FDB_FLUSH, FLUSH_DONE, REBUILD_DONE (R88, R105, R112): at the end of an ageing period the dynamic entries that were not hit
are gone and the HIT bits of those left are 0; a flush removes exactly the entries that match. -/
def Obligations.FdbUpkeep : Prop :=
  ∀ (s : State) (dt : Nat) (req : Requester) (v : Word), let c := s.chip.pass dt
    let period := secCycles (c.get pFDB F.FDB_FDB_CFG_AGE_TIME)
    (c.ready pFDB = true → period ≠ 0 → c.ageAt + period ≤ c.cycles → Does (.ageingPass dt) s fun d => d.ageAt = c.ageAt + period
        ∧ ∀ i, i < 32768 → (c.tis pFDB 0 i fFdbValid = true → d.tis pFDB 0 i fFdbHit = false)
          ∧ d.tis pFDB 0 i fFdbValid = (c.tis pFDB 0 i fFdbValid && (c.tis pFDB 0 i fFdbStatic || c.tis pFDB 0 i fFdbHit)))
    ∧ (c.takes req → v.getLsbD 31 = true → c.flush = none → Does (.fdbFlush dt req v) s fun d => d.flush = some v ∧ d.tblA = c.tblA)
    ∧ (c.flush = some v → Does (.flushDone dt) s fun d => d.flush = none ∧ d.latched pFDB E.FDB_FLUSH_DONE
        ∧ ∀ i, i < 32768 → (c.flushMatches v i = true → d.tis pFDB 0 i fFdbValid = false)
          ∧ (c.flushMatches v i = false → ∀ w, w < 8 → d.tword pFDB 0 i w = c.tword pFDB 0 i w))
    ∧ (c.is pFAB F.FAB_FAB_STATUS_REBUILD = true → Does (.rebuildDone dt) s fun d => d.is pFAB F.FAB_FAB_STATUS_REBUILD = false
        ∧ d.is pFAB F.FAB_FAB_STATUS_HALTED = false ∧ d.latched pFAB E.FAB_REBUILD_DONE)

/-- STEP_SET, STEP_ADD, PPS_STEP_ARM, PPS_STEP_DISARM, PPS_ARM_TIMEOUT, PPS_IN (R116 to R119, R127): an accepted step sets the time, makes
it TRACKING in a new epoch, and only then are lists and actions judged anew; a valid time takes no step. -/
def Obligations.TimeSteps : Prop :=
  ∀ (s : State) (dt : Nat) (req : Requester) (rising : Bool) (arm : PpsArm), let c := s.chip.pass dt
    let gone := (c.localNs + 2 ^ 32 - c.get pTIME F.TIME_STEP_REF_STAMP_STAMP) % 2 ^ 32
    let stepped := fun (t : Int) (d : Chip) => ∃ e : Chip, d = e.listsStep.rejudge ∧ (e.localTime : Int) = t ∧ e.timeState = tTRACKING
      ∧ e.epoch = (c.epoch + 1) % 256 ∧ e.latched pTIME E.TIME_STEP_DONE ∧ e.get pTIME F.TIME_STEP_RESULT_RESULT = stDONE
    let edge : Bool := c.is pTIME F.TIME_TIME_CFG_PPS_IN_EN && decide (rising ≠ c.is pTIME F.TIME_TIME_CFG_PPS_IN_EDGE)
    let judged : Bool := decide (c.mode ≠ modeSentry ∧ c.lossAt = none)
    (c.takes req → mayStep c.source req false = true → judged = true → c.timeState = tINVALID → c.stepNsBad = false →
        (gone < 2 ^ 31 → Does (.stepSet dt req) s (stepped (c.stepAmount + gone * 2 ^ 40 : Nat)))
        ∧ (c.is pTIME F.TIME_STEP_NS_NEG = false → Does (.stepAdd dt req) s (stepped (c.localTime + c.stepAmount : Nat)))
        ∧ (c.is pTIME F.TIME_STEP_NS_NEG = true → c.stepAmount ≤ c.localTime →
            Does (.stepAdd dt req) s (stepped (c.localTime - c.stepAmount : Nat))))
    ∧ (c.takes req → mayStep c.source req false = true → (c.timeState ≠ tINVALID ∧ c.lossAt = none) ∨ c.mode = modeSentry →
        ∀ i, i = Instr.stepSet dt req ∨ i = Instr.stepAdd dt req → Does i s fun d => d.localTime = c.localTime
          ∧ d.get pTIME F.TIME_STEP_RESULT_RESULT = stLOCKED ∧ d.latched pTIME E.TIME_STEP_REFUSED)
    ∧ (c.takes req → mayStep c.source req true = true →
        (judged = true → c.timeState = tINVALID → c.is pTIME F.TIME_TIME_CFG_PPS_IN_EN = true → c.stepNsBad = false → Does (.ppsStepArm dt req) s fun d =>
          d.get pTIME F.TIME_STEP_RESULT_RESULT = stARMED
            ∧ d.ppsArm = some ⟨w48Of (c.reg pTIME 0x158) (c.reg pTIME 0x15C), reqCode req, c.cycles, false⟩)
        ∧ (c.ppsArm ≠ none → Does (.ppsStepDisarm dt req) s fun d => d.ppsArm = none ∧ d.get pTIME F.TIME_STEP_RESULT_RESULT = stDISARMED))
    ∧ (c.ppsArm = some arm → arm.at' + secCycles 2 ≤ c.cycles → Does (.ppsArmTimeout dt) s fun d => d.ppsArm = none
        ∧ d.get pTIME F.TIME_STEP_RESULT_RESULT = stTIMEOUT)
    ∧ (edge = true → c.ppsArm = none → Does (.ppsIn dt rising) s fun d => d.latched pTIME E.TIME_PPS_IN
        ∧ d.get pTIME F.TIME_PPS_IN_STATUS_SEQ = (c.get pTIME F.TIME_PPS_IN_STATUS_SEQ + 1) % 65536
        ∧ d.cntAt (cntKey pTIME K.TIME_PPS_IN_EDGES) = c.cntAt (cntKey pTIME K.TIME_PPS_IN_EDGES) + 1)
    ∧ (edge = true → c.ppsArm = some arm → arm.locked = false → c.cycles < arm.at' + secCycles 2 → judged = true → c.timeState = tINVALID → Does (.ppsIn dt rising) s fun d => d.ppsArm = none
        ∧ stepped (((timeOf arm.sec 0 : Int) + c.ppsDelay).toNat : Nat) d)

/-- TIME_CAPTURE, TIME_INVALIDATE, RATE_ADJ, RATE_SLEW_TICK, HOLDOVER, HOLDOVER_LONG, PPS_OUT_RISE, PPS_OUT_FALL (R115 to R117, R121, R122,
R125, R128): an invalid time is in a new epoch, every list falls back and no release waits; the rate moves towards its target without a jump
of the time. -/
def Obligations.TimeStates : Prop :=
  ∀ (s : State) (dt due : Nat) (req : Requester) (v : Word), let c := s.chip.pass dt
    let limit := c.get pTIME F.TIME_SLEW_LIMIT_TENTH_PPM_S
    (c.takes req → Does (.timeCapture dt req) s fun d => d.reg pTIME 0x190 = BitVec.ofNat 32 (secOf c.localTime)
        ∧ d.reg pTIME 0x198 = BitVec.ofNat 32 (nsOf c.localTime) ∧ d.reg pTIME 0x1A0 = BitVec.ofNat 32 c.localNs
        ∧ d.get pTIME F.TIME_CAP_STATUS_SEQ = (c.get pTIME F.TIME_CAP_STATUS_SEQ + 1) % 65536)
    ∧ (c.takes req → c.timeState ≠ tINVALID → c.stepAt ≠ some c.sclk → Does (.timeInvalidate dt req) s fun d => d.timeState = tINVALID ∧ d.epoch = (c.epoch + 1) % 256
        ∧ d.get pTIME F.TIME_TIME_STATUS_INV_CAUSE = (if hostSide req then icHOST else icFW) ∧ d.latched pTIME E.TIME_INVALID
        ∧ d.rels = [] ∧ d.ppsOut = none ∧ ∀ i, (d.list i).state ≠ lWAIT ∧ (d.list i).state ≠ lRUN)
    ∧ (c.takes req → c.locked pTIME = false → mayRate c.source req = true → -65536000 ≤ v.toInt → v.toInt ≤ 65536000 →
        Does (.rateAdj dt req v) s fun d => d.rateTarget = v.toInt ∧ d.localTime = c.localTime
          ∧ d.timeState = if c.timeState = tHOLDOVER then tTRACKING else c.timeState)
    ∧ (c.takes req → c.locked pTIME = false → mayRate c.source req = false → Does (.rateAdj dt req v) s fun d => d.rateTarget = c.rateTarget
        ∧ d.get pTIME F.TIME_RATE_RESULT_RESULT = stNOTSOURCE ∧ d.latched pTIME E.TIME_RATE_REFUSED)
    ∧ (c.slewIndex < c.mono / 1000000 → c.source ≠ 7 → c.timeHfrc = false → Does (.rateSlewTick dt) s fun d => d.localTime = c.localTime
        ∧ d.rateActive = if limit = 0 then c.rateTarget else if c.rateActive < c.rateTarget then min c.rateTarget (c.rateActive + c.slewStep)
          else max c.rateTarget (c.rateActive - c.slewStep))
    ∧ (c.timeState = tTRACKING → c.corrAt + msCycles (c.get pTIME F.TIME_HOLDOVER_CFG_DETECT) ≤ c.cycles → Does (.holdover dt) s fun d =>
        d.timeState = tHOLDOVER ∧ d.latched pTIME E.TIME_HOLDOVER ∧ d.holdoverAt = c.cycles)
    ∧ (c.timeState = tHOLDOVER → c.get pTIME F.TIME_HOLDOVER_CFG_LONG ≠ 0 → c.holdoverLong = false →
        c.holdoverAt + secCycles (c.get pTIME F.TIME_HOLDOVER_CFG_LONG) ≤ c.cycles → Does (.holdoverLong dt) s fun d =>
        d.latched pTIME E.TIME_HOLDOVER_LONG ∧ d.holdoverLong = true)
    ∧ (c.is pTIME F.TIME_TIME_CFG_PPS_OUT_EN = true → c.timeValid = true → c.ppsOld = none →
        (c.localTime + c.get pTIME F.TIME_PPS_OUT_ADV_PS * 2 ^ 40 / 1000) % secondFine < c.incr → Does (.ppsOutRise dt) s fun d =>
        d.ppsOut = some (c.cycles + msCycles (c.get pTIME F.TIME_TIME_CFG_PPS_OUT_WIDTH)))
    ∧ (c.ppsOut = some due → due ≤ c.cycles → Does (.ppsOutFall dt) s fun d => d.ppsOut = none)

/-- TIME_WORD_TX, TIME_WORD_RX, GPTP_SYNC_RX, SYNC_TIMEOUT, GPTP_TX_INTERVAL, ANNOUNCE_RX, PDELAY_EXCHANGE (R129 to R133, R136). How the
best master is found and which fields a message has are IEEE 802.1AS-2020's, presumed (log entry 104). -/
def Obligations.TimeDistribution : Prop :=
  ∀ (s : State) (dt t time epoch g port gm stamp prio1 quality prio2 delay : Nat) (path : AnnouncePath) (fu able : Bool) (rate ratio : Int),
    let c := s.chip.pass dt
    let p := pGPTP g
    let word := fun (valid : Bool) => Instr.timeWordRx dt t time epoch valid false rate
    (c.ringId = 0 → Does (.timeWordTx dt) s fun d => ∀ l, l < 2 → c.tlState l = tlUP → .timeWord (28 + l) c.localTime c.epoch c.timeValid ∈ d.outs)
    ∧ (t < 2 → c.tlState t = tlUP → c.ringId ≠ 0 → c.source = 6 → t = c.timeLink → c.lossAt = none →
        (c.timeState = tINVALID → Does (word true) s fun d => ∃ e : Chip, d = e.listsStep.rejudge ∧ e.timeState = tTRACKING
            ∧ e.localTime = time + c.linkPs t * 2 ^ 40 / 1000)
        ∧ (c.timeState ≠ tINVALID → c.headEpoch = some epoch → -65536000 ≤ rate → rate ≤ 65536000 → Does (word true) s fun d =>
            d.rateTarget = rate ∧ d.corrAt = c.cycles)
        ∧ (c.timeState ≠ tINVALID → (∃ e, c.headEpoch = some e ∧ e ≠ epoch) → Does (word true) s fun d => d.timeState = tINVALID)
        ∧ (c.timeState ≠ tINVALID → Does (word false) s fun d => d.timeState = tINVALID))
    ∧ (c.gptpOn g port = true → c.get p F.GPTP_INST_STATUS_ROLE = gSLAVE → c.get p F.GPTP_INST_STATUS_SLAVE_PORT = port → c.source ≠ g + 1 →
        Does (.gptpSyncRx dt g port fu gm stamp rate ratio) s fun d => d.localTime = c.localTime ∧ d.is p F.GPTP_INST_STATUS_OFFSET_VALID = true
          ∧ (d.ptpRt g).lastSync = c.cycles ∧ d.cntAt (cntKey p K.GPTP_SYNC_RX) = c.cntAt (cntKey p K.GPTP_SYNC_RX) + 1)
    ∧ (g < 4 → c.fwRuns = true → c.is p F.GPTP_INST_CFG_EN = true → c.get p F.GPTP_INST_STATUS_ROLE = gSLAVE → (c.ptpRt g).silent = false →
        (c.ptpRt g).lastSync + c.get p F.GPTP_INTERVALS_SYNC_RX_TIMEOUT * c.syncInterval g ≤ c.cycles → Does (.syncTimeout dt g) s fun d =>
        d.is p F.GPTP_INST_STATUS_OFFSET_VALID = false ∧ d.latched p E.GPTP_SYNC_TIMEOUT ∧ (d.ptpRt g).silent = true)
    ∧ (g < 4 → (c.get p F.GPTP_INST_STATUS_ROLE = 1 → Does (.gptpTxInterval dt g 0) s fun d =>
          d.cntAt (cntKey p K.GPTP_SYNC_TX) = c.cntAt (cntKey p K.GPTP_SYNC_TX) + BitVec.ofNat 48 (c.masterPorts g)
            ∧ ∀ n ∈ c.masterList g, .gptpMessage n g 0 [c.get p F.GPTP_INST_CFG_DOMAIN] (c.txStamp n) ∈ d.outs
              ∧ .gptpMessage n g 3 [c.get p F.GPTP_INST_CFG_DOMAIN, c.txNs n / 1000000000, c.txNs n % 1000000000] (c.txStamp n) ∈ d.outs)
        ∧ (c.is p F.GPTP_INST_STATUS_GM_PRESENT = true → Does (.gptpTxInterval dt g 1) s fun d =>
          d.cntAt (cntKey p K.GPTP_ANNOUNCE_TX) = c.cntAt (cntKey p K.GPTP_ANNOUNCE_TX) + BitVec.ofNat 48 (c.masterPorts g)
            ∧ ∀ n ∈ c.masterList g, .gptpMessage n g 1 (c.ptpFields g 1 n 0) (c.txStamp n) ∈ d.outs)
        ∧ Does (.gptpTxInterval dt g 2) s fun d =>
          ∀ n ∈ c.delayPorts g, .gptpMessage n g 2 [c.get p F.GPTP_INST_CFG_DOMAIN] (c.txStamp n) ∈ d.outs)
    ∧ (c.gptpOn g port = true →
        let o : Offer := { prio1 := prio1, quality := quality, prio2 := prio2, gm := gm, path := path }
        let e : Chip := { c with tm := { c.tm with offers := store none c.tm.offers (g * 32 + port) (some o) } }
        let own := path.sender / 2 ^ 16 % 2 ^ 64 = Config.clockIdentity.toNat
        Does (.announceRx dt g port gm prio1 quality prio2 path) s fun d =>
          d.cntAt (cntKey p K.GPTP_ANNOUNCE_RX) = c.cntAt (cntKey p K.GPTP_ANNOUNCE_RX) + 1
          ∧ (255 ≤ path.steps ∨ own → d.reg p 0x154 = c.reg p 0x154)
          ∧ (path.steps < 255 → ¬ own →
              d.get p F.GPTP_INST_STATUS_ROLE = (if (e.parent g).isSome then gSLAVE else if c.gmCapable g then 1 else 3)
              ∧ d.is p F.GPTP_INST_STATUS_GM_PRESENT = (e.grandmaster g).isSome ∧ d.reg p 0x158 = BitVec.ofNat 32 ((e.grandmaster g).getD 0)
              ∧ (∀ q, q < 20 → d.tget p 0 q fPdRole = e.portRole g q)
              ∧ (c.is p F.GPTP_INST_STATUS_GM_PRESENT = false → (e.grandmaster g).isSome = true → d.latched p E.GPTP_GM_CHANGE)
              ∧ (c.tm.offers = [] → c.linkUp port = true → o.root < (c.ownOffer g).root →
                  d.get p F.GPTP_INST_STATUS_ROLE = gSLAVE ∧ d.get p F.GPTP_INST_STATUS_SLAVE_PORT = port ∧ d.tget p 0 port fPdRole = prSLAVE)))
    ∧ (c.gptpOn g port = true → (Does (.pdelayExchange dt port (some delay) ratio able) s fun d => d.tis p 0 port fPdCapable = able
          ∧ ∀ h, h < 4 → d.tword (pGPTP h) 0 port 1 = BitVec.ofNat 32 delay)
        ∧ Does (.pdelayExchange dt port none ratio able) s fun d => d.tis p 0 port fPdCapable = able
          ∧ d.cntAt (cntKey p K.GPTP_PDELAY_FAIL) = c.cntAt (cntKey p K.GPTP_PDELAY_FAIL) + 1)

/-- LIST_ENTRY_START and LIST_SWAP (R140, R141, R143): at its boundary the next entry's value is applied; at its change time the pending
descriptor operates from its first entry. ONESHOT_EXECUTE and DISTANCE_TICK (R149 to R151, R158, R159) for the one armed action of a plain
kind (CINCH, PIN, MARK, SEND): it executes and its entry says so; while the time is INVALID a time-triggered one ends unexecuted. -/
def Obligations.StoryPole : Prop :=
  (∀ (s : State) (dt i : Nat) (a : LDesc), let c := s.chip.pass dt
    let l := c.list i
    let b := c.boundary a l.idx l.entryAt l.cycleAt
    c.storyRuns = true →
    (l.state = lRUN → l.oper = some a → l.pend = none → b.1 ≤ c.localNs → Does (.listEntryStart dt i) s fun d =>
        (d.list i).entryAt = b.1 ∧ (d.list i).idx = b.2.1 ∧ (d.list i).cycleAt = b.2.2 ∧ (d.list i).value = c.entryVal a b.2.1
          ∧ (d.list i).oper = some a ∧ ∀ j, j ≠ i → d.list j = c.list j)
    ∧ (l.state = lRUN ∨ l.state = lWAIT → l.pend = some a → l.pendCt ≤ c.localNs → Does (.listSwap dt i) s fun d =>
        d.latched pSTORY E.STORY_LIST_SWAP ∧ (d.list i).state = lRUN ∧ (d.list i).oper = some a ∧ (d.list i).pend = none
          ∧ (d.list i).idx = 0 ∧ (d.list i).entryAt = l.pendCt ∧ (d.list i).value = c.entryVal a 0))
  ∧ (∀ (s : State) (dt i : Nat) (o : OneRt), let c := s.chip.pass dt
    let state := fun (d : Chip) => d.one i fOsState
    i < 4096 → c.armed = [i] → lookupD none c.ones i = some o →
    (c.one i fOsTrigger = 0 → o.rel ≤ c.localNs → c.timeValid = true → c.storyRuns = true → c.one i fOsKind ≠ 1 → c.one i fOsKind ≠ 4 →
        Does (.oneshotExecute dt) s fun d => state d = oDONE ∧ d.one i fOsEpoch = c.epoch ∧ lookupD none d.ones i = none
          ∧ d.cntAt (cntKey pSTORY K.STORY_ONESHOT_DONE) = c.cntAt (cntKey pSTORY K.STORY_ONESHOT_DONE) + 1
          ∧ (c.one i fOsKind = 5 → d.latched pSTORY E.STORY_MARK ∧ d.one i fOsStamp = c.one i fOsArg))
    ∧ (c.one i fOsTrigger = 0 → o.rel ≤ c.localNs → c.timeValid = false → c.one i fOsKind ≠ 1 →
        Does (.oneshotExecute dt) s fun d => state d = oTIMEINVALID ∧ lookupD none d.ones i = none ∧ d.latched pSTORY E.STORY_ONESHOT_TIME_INVALID)
    ∧ (c.distIndex < c.mono / 1000 → c.storyRuns = true → c.one i fOsTrigger = 1 → c.distReached i = true → c.one i fOsKind ≠ 1 →
        c.one i fOsKind ≠ 4 → Does (.distanceTick dt) s fun d => d.distIndex = c.mono / 1000 ∧ lookupD none d.ones i = none
          ∧ state d = if c.one i fOsLeadEn = 1 then oDONELATE else oDONE))

/-- PULSE_EDGE, PULSE_STOP, PULSE_PRESET, PIN_PULSE_END, INPUT_EDGE, ILOG_ACK, RLOG_ACK, OUT_MANUAL (R147, R148, R156, R158, R160, R168,
R169, R264). -/
def Obligations.PinsAndLogs : Prop :=
  ∀ (s : State) (dt p held mask levels : Nat) (req : Requester) (rising : Bool) (k : PinPulse) (r : RlogEntry) (rs : List RlogEntry) (e : IlogEntry)
      (es : List IlogEntry), let c := s.chip.pass dt
    let pin := fun (d : Chip) (b : Nat) => (d.get pEVIO F.EVIO_OUT_LEVEL_L).testBit b
    let en := fun b => (c.get pEVIO F.EVIO_OUT_CFG_EN).testBit b
    (c.pulseOn p = true → rising ≠ (c.pulse p).level →
        (c.pulseFilter p (c.cycles - held) ≤ held → rising = !c.is pPULSE (pulseFld F.PULSE_PCFG_p_EDGE p) →
          Does (.pulseEdge dt p rising held) s fun d => d.pulseCount p = (c.pulseCount p + 1) % 2 ^ 48 ∧ (d.pulse p).level = rising)
        ∧ (held < c.pulseFilter p (c.cycles - held) → Does (.pulseEdge dt p rising held) s fun d => d.pulseCount p = c.pulseCount p
          ∧ (d.pulse p).level = (c.pulse p).level ∧ d.cntAt (cntKey pPULSE p) = c.cntAt (cntKey pPULSE p) + 1))
    ∧ (p < 4 → c.pulseOn p = false → c.pulseFilter p (c.cycles - held) ≤ held → rising ≠ (c.pulse p).level → Does (.pulseEdge dt p rising held) s fun d =>
        d.pulseCount p = c.pulseCount p ∧ (d.pulse p).level = rising)
    ∧ (∀ t, p < 4 → (c.pulse p).edges = true → (c.pulse p).mLast = some t → t + (c.pulse p).stop * 1000000 ≤ c.mono →
        Does (.pulseStop dt p) s fun d => d.is pPULSE (pulseFld F.PULSE_PSTATUS_p_MOVING p) = false ∧ (d.pulse p).moving = false)
    ∧ (p < 4 → c.takes req →
        (c.armedOn p = [] → Does (.pulsePreset dt req (2 ^ p)) s fun d => d.get pPULSE (pulseFld F.PULSE_PSTATUS_p_PRESET p) = 1
          ∧ d.pulseCount p = w48Of (c.reg pPULSE (0x158 + 0x20 * p)) (c.reg pPULSE (0x15C + 0x20 * p)))
        ∧ (c.armedOn p ≠ [] → Does (.pulsePreset dt req (2 ^ p)) s fun d => d.get pPULSE (pulseFld F.PULSE_PSTATUS_p_PRESET p) = 2
          ∧ d.pulseCount p = c.pulseCount p ∧ d.latched pPULSE E.PULSE_PRESET_REFUSED))
    ∧ (c.pinPulses = [k] → k.due ≤ c.cycles → c.mode ≠ modeSentry → Does (.pinPulseEnd dt) s fun d => d.pinPulses = []
        ∧ ∀ b, b < 8 → pin d b = if k.mask.testBit b && en b then k.levels.testBit b else pin c b)
    ∧ (p < 8 → c.ready pEVIO = true → (c.get pEVIO F.EVIO_IN_CFG_EN).testBit p = true →
        (if rising then c.get pEVIO F.EVIO_IN_CFG_RISE else c.get pEVIO F.EVIO_IN_CFG_FALL).testBit p = true →
        5 * c.get pEVIO F.EVIO_IN_FILTER_F ≤ held →
        (c.ilog.length < 64 → Does (.inputEdge dt p rising held) s fun d => d.latched pEVIO E.EVIO_ILOG
          ∧ d.ilog = c.ilog ++ [⟨c.stampAgo held, p, rising, c.epoch, c.ilogSeq⟩])
        ∧ (64 ≤ c.ilog.length → Does (.inputEdge dt p rising held) s fun d => d.latched pEVIO E.EVIO_ILOG_LOST ∧ d.ilog = c.ilog))
    ∧ (c.takes req → (c.ilog = e :: es → e.seq < 65536 → Does (.ilogAck dt req e.seq) s fun d => d.ilog = es)
        ∧ (c.rlog = r :: rs → r.seq < 65536 → Does (.rlogAck dt req r.seq) s fun d => d.rlog = rs)
        ∧ (c.locked pEVIO = false → c.mode ≠ modeSentry → Does (.outManual dt req mask levels) s fun d =>
          d.get pEVIO F.EVIO_OUT_MANUAL_MASK = mask % 256 ∧ d.get pEVIO F.EVIO_OUT_MANUAL_LEVELS = levels % 256
            ∧ ∀ b, b < 8 → pin d b = if mask.testBit b && en b && !c.pinsNamed.testBit b then levels.testBit b else pin c b))

/-- CINCH_DEADLINE, CINCH_REPEAT, POWER_FAIL, MASS_EMIT_DONE (R161 to R163, R336): a trip counts, is reported and hands over the safe frames
of its entry behind those that wait; a repeat hands them over again; a warning that has held long enough starts a mass emission of every
armed entry, and with PF_DORMANT ends in DORMANT; the emission ends when no frame waits or 500 us have passed, in QUARANTINE with the halt. -/
def Obligations.SafetyActions : Prop :=
  ∀ (s : State) (dt i us : Nat), let c := s.chip.pass dt
    let x := c.watch i
    let period := c.wt i fWtRepeat * 1000000
    let busy := fun (d : Chip) => d.is pCINCH F.CINCH_CINCH_STATUS_MASS_BUSY
    let all := c.safeFrames ++ c.massEntries.flatMap fun e => c.handedFrames e.1
    let warned := fun (d : Chip) => d.is pCINCH F.CINCH_CINCH_STATUS_PF_ACTIVE = true ∧ d.latched pPWR E.PWR_PF
      ∧ d.cntAt (cntKey pPWR K.PWR_PF_EVENTS) = c.cntAt (cntKey pPWR K.PWR_PF_EVENTS) + 1
    let off := fun (d : Chip) => d.dormant = true ∧ d.aon.short = true
    (c.ready pCINCH = true → x.state = wWATCHING → x.deadline ≤ c.mono / 1000 * 1000 → Does (.cinchDeadline dt i) s fun d =>
        d.watch i = { x with state := wTRIPPED, repeatAt := c.mono + period } ∧ (∀ j, j ≠ i → d.watch j = c.watch j) ∧ d.latched pCINCH E.CINCH_TRIP
          ∧ d.safeFrames = c.safeFrames ++ c.handedFrames i ∧ d.cntAt (cntKey pCINCH K.CINCH_TRIPS) = c.cntAt (cntKey pCINCH K.CINCH_TRIPS) + 1)
    ∧ (c.ready pCINCH = true → x.state = wTRIPPED → period ≠ 0 → x.repeatAt ≤ c.mono → Does (.cinchRepeat dt i) s fun d =>
        d.watch i = { x with repeatAt := x.repeatAt + period } ∧ (∀ j, j ≠ i → d.watch j = c.watch j)
          ∧ d.safeFrames = if c.safeWaiting i then c.safeFrames else c.safeFrames ++ c.handedFrames i)
    ∧ (c.dark = false → c.is pCINCH F.CINCH_CINCH_STATUS_PF_ACTIVE = false → max 1 (c.get pCINCH F.CINCH_CINCH_CFG_PF_FILTER) ≤ us →
        (c.is pCINCH F.CINCH_CINCH_CFG_PF_EN = false → Does (.powerFail dt us) s fun d => warned d ∧ d.safeFrames = c.safeFrames ∧ d.mode = c.mode)
        ∧ (c.is pCINCH F.CINCH_CINCH_CFG_PF_EN = true → busy c = false → c.enabled pCINCH = true → c.mode = modeRun ∨ c.mode = modeLimp ∨ c.mode = modeService →
          (c.is pPWR F.PWR_PWR_POLICY_PF_DORMANT = false → Does (.powerFail dt us) s fun d => warned d ∧ busy d = true ∧ d.latched pCINCH E.CINCH_MASS_EMIT
            ∧ d.safeFrames = all ∧ d.pwr.massAt = c.cycles ∧ d.mode = c.mode)
          ∧ (c.is pPWR F.PWR_PWR_POLICY_PF_DORMANT = true → all ≠ [] → Does (.powerFail dt us) s fun d => warned d ∧ busy d = true
            ∧ d.safeFrames = all ∧ d.pwr.shortDue = true)
          ∧ (c.is pPWR F.PWR_PWR_POLICY_PF_DORMANT = true → all = [] → Does (.powerFail dt us) s off)))
    ∧ (busy c = true →
        (c.safeFrames = [] → c.pwr.shortDue = true → Does (.massEmitDone dt) s off)
        ∧ (c.pwr.shortDue = false → c.mode ≠ modeQuarantine ∨ c.storyHalted = true → c.safeFrames = [] ∨ c.pwr.massAt + usCycles 500 ≤ c.cycles →
          Does (.massEmitDone dt) s fun d => busy d = false ∧ d.safeFrames = c.safeFrames ∧ d.mode = c.mode ∧ d.watches = c.watches)
        ∧ (c.safeFrames = [] → c.pwr.shortDue = false → c.mode = modeQuarantine → c.storyHalted = false → Does (.massEmitDone dt) s fun d =>
          busy d = false ∧ d.storyHalted = true ∧ d.root = none ∧ d.slots = [] ∧ d.saKeys = [] ∧ d.rels = []
            ∧ ∀ j ∈ tblIndices c.tblA pCINCH 0, (d.watch j).state = wDISARMED))

/-- RECOV_RESET, RESET_RECOV, RESET_GEN, MEMBER_SILENT, MEMBER_RETURN, LATENT_ERR, LATENT_RESET, HOLD_CLR (R174, R180, R182, R185). -/
def Obligations.RedundancyTimers : Prop :=
  ∀ (s : State) (dt i t : Nat) (req : Requester), let c := s.chip.pass dt
    let x := c.comp i
    let m := c.member i
    let ms := fun f => msCycles (c.tget pFRER 1 i f)
    let anew := fun (d : Chip) => (d.comp i).recov.takeAny = true ∧ d.latched pFRER E.FRER_RECOV_RESET ∧ ∀ j, j ≠ i → d.comp j = c.comp j
    let differ := ((x.latPassed : Int) * ((c.tget pFRER 0 i fCpLatPaths : Int) - 1) - x.latDiscarded).natAbs
    (c.ready pFRER = true → c.tis pFRER 0 i fCpValid = true → c.tis pFRER 0 i fCpElim = true → x.recov.timer = some t →
        t + c.resetLimit i ≤ c.cycles → Does (.recovReset dt i) s anew)
    ∧ (c.takes req → i < 1024 → Does (.resetRecov dt req i) s anew
        ∧ Does (.resetGen dt req i) s fun d => (d.comp i).gen = 0 ∧ (d.comp i).recov = x.recov)
    ∧ (c.ready pFRER = true → c.tis pFRER 1 i fMbValid = true → m.state ≠ mFailed → m.lastGood + ms fMbSilent ≤ c.cycles →
        Does (.memberSilent dt i) s fun d => (d.member i).state = mFailed ∧ (d.member i).cause = 1
          ∧ (m.state ≠ mProbation → d.latched pFRER E.FRER_MEMBER_FAIL) ∧ ∀ j, j ≠ i → d.member j = c.member j)
    ∧ (c.ready pFRER = true → c.tis pFRER 1 i fMbValid = true → m.state = mProbation → m.entered + ms fMbHoldoff ≤ c.cycles →
        c.cycles < m.lastGood + ms fMbSilent → Does (.memberReturn dt i) s fun d => (d.member i).state = mActive
          ∧ d.latched pFRER E.FRER_MEMBER_RETURN ∧ ∀ j, j ≠ i → d.member j = c.member j)
    ∧ (c.ready pFRER = true → c.tis pFRER 0 i fCpValid = true → c.tis pFRER 0 i fCpLatEn = true →
        (x.latAt + msCycles (c.tget pFRER 0 i fCpLatPeriod) ≤ c.cycles → c.tget pFRER 0 i fCpLatDiff < differ → Does (.latentErr dt i) s fun d =>
          d.latched pFRER E.FRER_LATENT_ERR ∧ (d.comp i).latAt = nextDue c.cycles x.latAt (msCycles (c.tget pFRER 0 i fCpLatPeriod))
            ∧ d.cntAt (cntKey pFRER K.FRER_LATENT_ERR) = c.cntAt (cntKey pFRER K.FRER_LATENT_ERR) + 1)
        ∧ (x.latResetAt + secCycles (c.tget pFRER 0 i fCpLatReset) ≤ c.cycles → Does (.latentReset dt i) s fun d =>
          (d.comp i).latPassed = 0 ∧ (d.comp i).latDiscarded = 0 ∧ (d.comp i).recov = x.recov))
    ∧ (c.takes req → Does (.holdClr dt req) s fun d => d.get pFRER F.FRER_HOLD_STATUS_MAX = 0)

/-- REPLACE, REINSTATE, RETIRE, RELEASE, ACK_RETURNED, SET_ALIVE, SET_SUSPECT, SET_DEAD (R206, R208, R211): the command of `UNIT_CMD` waits
for its execution, BUSY shows it. TP_DT_GAP, TP_CTS_WAIT, TP_HOLD, SESSION_CLR, KEY_INSTALL, KEY_DONE (R202, R209, R213): an open session
whose timer has run out is free; a key installed from a LIVE slot of a policy that allows it is the SA's key, as its unwrapping answers. -/
def Obligations.UnitsSessionsAndKeys : Prop :=
  (∀ (s : State) (dt u o : Nat) (req : Requester) (force : Bool), let c := s.chip.pass dt
    let waits := fun (cmd other : Nat) (d : Chip) => d.is pUNITS F.UNITS_UNIT_CMD_STATUS_BUSY = true
      ∧ ∃ v, d.unitCmd = some (v, req) ∧ bitsAt v 28 4 = cmd ∧ bitsAt v 0 10 = u ∧ bitsAt v 16 10 = other
    c.takes req → c.unitCmd = none → u < 1024 → o < 1024 →
    Does (.replace dt req u o force) s (fun d => waits 1 o d ∧ ∃ v, d.unitCmd = some (v, req) ∧ v.getLsbD 27 = force)
    ∧ Does (.reinstate dt req u) s (waits 2 0) ∧ Does (.retire dt req u) s (waits 3 0) ∧ Does (.release dt req u) s (waits 4 0)
    ∧ Does (.ackReturned dt req u) s (waits 5 0) ∧ Does (.setAlive dt req u) s (waits 8 0) ∧ Does (.setSuspect dt req u) s (waits 9 0)
    ∧ Does (.setDead dt req u) s (waits 10 0))
  ∧ (∀ (s : State) (dt i sa slot : Nat) (req : Requester) (k : KeyInstall), let c := s.chip.pass dt
    let x := c.sess i
    let due := fun (f : Fld) => x.at' + msCycles (c.get pBRIDLE f) ≤ c.cycles
    let gone := fun (d : Chip) => d.sess i = {} ∧ (∀ j, j ≠ i → d.sess j = c.sess j)
      ∧ d.cntAt (cntKey pBRIDLE K.BRIDLE_TP_TIMEOUT) = c.cntAt (cntKey pBRIDLE K.BRIDLE_TP_TIMEOUT) + 1
    (x.state = 1 →
      (x.phase = 0 → due F.BRIDLE_TP_CFG0_DT_GAP_MS → Does (.tpDtGap dt i) s gone)
      ∧ (x.phase = 1 → due F.BRIDLE_TP_CFG0_CTS_WAIT_MS → Does (.tpCtsWait dt i) s gone)
      ∧ (x.phase = 2 → due F.BRIDLE_TP_CFG1_HOLD_MS → Does (.tpHold dt i) s gone))
    ∧ (c.takes req → (Does (.sessionClr dt req) s fun d => d.get pBRIDLE F.BRIDLE_SESSION_STATUS_MAX = 0)
      ∧ (c.keyInstall = none → Does (.keyInstall dt req sa slot) s fun d => d.is pMACSEC F.MACSEC_KEY_STATUS_BUSY = true
        ∧ ∃ bs, d.keyInstall = some ⟨sa % 4096, slot % 64, bs⟩ ∧ bs.length = 40))
    ∧ (c.keyInstall = some k → c.mode ≠ modeQuarantine → k.sa < 2816 → (c.slot k.slot).state = 1 → (c.slot k.slot).policy.testBit 3 = true →
        c.root ≠ none → Does (.keyDone dt) s fun d => d.keyInstall = none ∧ d.latched pMACSEC E.MACSEC_KEY_DONE
          ∧ d.get pMACSEC F.MACSEC_KEY_STATUS_RESULT = (match Config.keyUnwrap (c.slot k.slot).value k.wrapped with | some _ => kyOK | none => kyUNWRAP)
          ∧ (∀ sak, Config.keyUnwrap (c.slot k.slot).value k.wrapped = some sak → d.saKey k.sa = sak) ∧ ∀ j, j ≠ k.sa → d.saKey j = c.saKey j)
    ∧ (c.keyInstall = some k → c.mode = modeQuarantine → Does (.keyDone dt) s fun d => d.saKeys = c.saKeys
        ∧ d.get pMACSEC F.MACSEC_KEY_STATUS_RESULT = kyWITHHELD))

/-- UNIT_CMD_DONE and LIVENESS_SCAN (R206 to R208): what each unit command makes of the entries it names. Which moves a liveness command
makes is the model's reading (log entry 144). -/
def Obligations.UnitChanges : Prop :=
  ∀ (s : State) (dt : Nat) (v : Word) (req : Requester), let c := s.chip.pass dt
    let u := bitsAt v 0 10
    let o := bitsAt v 16 10
    let cmd := bitsAt v 28 4
    let x := c.unit u
    let bound := c.un u fUnKind ≠ 0
    let ends := fun (P : Chip → Prop) => DoesExt (.unitCmdDone dt) s fun d _ => d.unitCmd = none ∧ d.is pUNITS F.UNITS_UNIT_CMD_STATUS_BUSY = false
      ∧ d.get pUNITS F.UNITS_UNIT_CMD_STATUS_RESULT = ucOK ∧ P d
    let swapped := fun (a b : Nat) (d : Chip) => d.unitKey a = c.unitKey b ∧ d.unitKey b = c.unitKey a
      ∧ (d.unit a).incarnation = ((c.unit a).incarnation + 1) % 65536 ∧ (d.unit b).state = uFENCED ∧ (d.unit b).peer = some a
    (c.unitCmd = some (v, req) →
      (cmd = 1 → bound → x.state = uDEAD ∨ (v.getLsbD 27 = true ∧ (x.state = uALIVE ∨ x.state = uSUSPECT)) → c.un o fUnSpare = 1 →
          (c.unit o).state = uUNKNOWN ∨ (c.unit o).state = uALIVE → c.un u fUnKind = c.un o fUnKind → c.unitKey u ≠ c.unitKey o →
          ends fun d => swapped u o d ∧ (d.unit u).state = (c.unit o).state ∧ d.latched pUNITS E.UNITS_UNIT_REPLACED)
      ∧ (∀ p, cmd = 2 → bound → x.state ≤ uDEAD → x.peer = some p → (c.unit p).state = uFENCED → c.un p fUnKind = c.un u fUnKind →
          ends fun d => swapped u p d ∧ (d.unit u).state = if (c.unit p).returned then uALIVE else uUNKNOWN)
      ∧ (cmd = 3 → bound → x.state ≠ uFENCED → ends fun d => (d.unit u).state = uRETIRED ∧ ∀ j, j ≠ u → d.unit j = c.unit j)
      ∧ (cmd = 4 → uFENCED ≤ x.state → ends fun d => (d.unit u).state = uUNKNOWN ∧ d.un u fUnKind = 0 ∧ ∀ j, j ≠ u → d.unit j = c.unit j)
      ∧ (cmd = 5 → x.state = uFENCED → ends fun d => (d.unit u).returned = false ∧ (d.unit u).state = uFENCED)
      ∧ (∀ st, (cmd = 8 ∧ st = uALIVE) ∨ (cmd = 9 ∧ st = uSUSPECT) ∨ (cmd = 10 ∧ st = uDEAD) → hostSide req = false → bound → x.state < uFENCED → livenessMove x.state st = true →
          ends fun d => (d.unit u).state = st ∧ ∀ j, j ≠ u → d.unit j = c.unit j)
      ∧ (8 ≤ cmd → cmd ≤ 10 → bound → hostSide req = true → Does (.unitCmdDone dt) s fun d => d.units = c.units
          ∧ d.get pUNITS F.UNITS_UNIT_CMD_STATUS_RESULT = ucNOTSOURCE))
    ∧ (c.fwRuns = true → c.ready pUNITS = true → Does (.livenessScan dt) s fun d => ∀ w ∈ c.validUnits, let y := c.unit w
        let limit := fun f => c.un w f * msCycles (c.un w fUnExpect)
        (y.fresh = true → y.state < uFENCED → d.unit w = { y with state := uALIVE, fresh := false } ∧ (y.state = uDEAD → d.latched pUNITS E.UNITS_UNIT_REVIVED))
          ∧ (y.fresh = false → y.state = uALIVE → limit fUnSuspect ≤ c.cycles - y.seenAt → (d.unit w).state = uSUSPECT ∧ d.latched pUNITS E.UNITS_UNIT_SUSPECT)
          ∧ (y.fresh = false → y.state = uSUSPECT → limit fUnDead ≤ c.cycles - y.seenAt → (d.unit w).state = uDEAD ∧ d.latched pUNITS E.UNITS_UNIT_DEAD)
          ∧ (y.fresh = false ∨ uFENCED ≤ y.state → y.state ≠ uALIVE → y.state ≠ uSUSPECT → d.unit w = y))

/-- CAN_FRAME_TX, CAN_INTEGRATED, RECOVERED, RECOVER, FLUSH_TX, CLR_MAX, CAN_RX_ERROR (R231, R232, R245): the queued frame whose turn it is
leaves its queue when sent and stays when it loses arbitration or ends in an error; the states that the channel enters. -/
def Obligations.CanChannels : Prop :=
  ∀ (s : State) (dt n : Nat) (req : Requester) (waited dom : Bool) (t : TxMsg) (err : CanError), let c := s.chip.pass dt
    let p := pCAN n
    let x := c.canRt n
    let cnt := fun (d : Chip) (i : Nat) => d.cntAt (cntKey p i)
    n < 16 →
    (c.canSends n = true → (∀ f ∈ c.safeFrames, f.port ≠ 32 + n) → c.mode ≠ modeQuarantine → c.relDue (32 + n) = none → x.aborts = [] →
        c.guardBlocks (32 + n) = false → c.canNext n = some t → c.get p F.CAN_CAN_CFG_MAX_AGE_MS = 0 → x.tec ≤ 255 →
        (Does (.canFrameTx dt n .sent waited) s fun d => (d.canRt n).queue = x.queue.erase t ∧ (d.canRt n).tec = x.tec - 1
          ∧ cnt d K.CAN_TX_FRAMES = cnt c K.CAN_TX_FRAMES + 1)
        ∧ (Does (.canFrameTx dt n .arbitrationLost waited) s fun d => d.canRt n = x ∧ cnt d K.CAN_ARB_LOST = cnt c K.CAN_ARB_LOST + 1)
        ∧ (c.get p F.CAN_CAN_CFG_RETRY_LIMIT = 0 → x.tec + 8 ≤ 255 → Does (.canFrameTx dt n .bitError waited) s fun d =>
          (d.canRt n).tec = x.tec + 8 ∧ (d.canRt n).queue.length = x.queue.length ∧ { t with retries := t.retries + 1 } ∈ (d.canRt n).queue
            ∧ cnt d K.CAN_BIT_ERR = cnt c K.CAN_BIT_ERR + 1))
    ∧ (c.canState n = caINTEGRATING → x.tec ≤ 127 → x.rxe ≤ 127 → Does (.canIntegrated dt n) s fun d => d.canState n = caACTIVE)
    ∧ (c.canState n = caRECOVERING → Does (.recovered dt n) s fun d => d.canState n = caACTIVE ∧ d.latched p E.CAN_RECOVERED
        ∧ (d.canRt n).tec = 0 ∧ (d.canRt n).rxe = 0)
    ∧ (c.takes req → (c.canState n = caBUSOFF → Does (.recover dt req n) s fun d => d.canState n = caRECOVERING)
        ∧ (Does (.flushTx dt req n) s fun d => (d.canRt n).queue = []
          ∧ cnt d K.CAN_TX_FULL_DROP = cnt c K.CAN_TX_FULL_DROP + BitVec.ofNat 48 x.queue.length)
        ∧ Does (.clrMax dt req n) s fun d => d.get p F.CAN_TXQ_STATUS_MAX = 0)
    ∧ (c.canState n = caACTIVE → x.tec ≤ 127 → x.rxe ≤ 127 → Does (.canRxError dt n err dom) s fun d =>
        (d.canRt n).rxe = x.rxe + (if dom then 9 else 1) ∧ cnt d (canErrCounter err) = cnt c (canErrCounter err) + 1
          ∧ (127 < x.rxe + (if dom then 9 else 1) → d.canState n = caPASSIVE ∧ d.latched p E.CAN_ERR_PASSIVE))

/-- LIN_SLOT_START, LIN_HEADER_RX, WAKE, LIN_SLEEP, WAKE_RX_LIN, LIN_SCHED_RESTART, UART_TX, GCLK_RESTORED (R233 to R237, R241, R246). -/
def Obligations.LinAndUart : Prop :=
  ∀ (s : State) (dt n t id bitNs ago : Nat) (req : Requester) (waited : Bool) (b : LinBuf) (m : TxMsg) (ms : List TxMsg), let c := s.chip.pass dt
    let p := pLIN n
    let x := c.linRt n
    let sent := fun (k : Nat) => b.data.take (c.tget p 0 k fFcLen)
    let publishes := fun (d : Chip) (k : Nat) => d.linBuf n k = some { b with fresh := false }
      ∧ d.outs = c.outs ++ [.linResponse n k (sent k ++ [linChecksum (c.tis p 0 k fFcClassic) k (sent k)])]
      ∧ d.cntAt (cntKey p K.LIN_TX_FRAMES) = c.cntAt (cntKey p K.LIN_TX_FRAMES) + 1
    (n < 8 → c.ready p = true → c.mode ≠ modeQuarantine →
        (∀ k, k = c.sched x.table x.entry fSeId → c.linState n = liRUN → x.slotEnd ≤ c.cycles → c.relDue (48 + n) = none → c.guardBlocks (48 + n) = false →
          c.get p F.LIN_LIN_SCHED_TABLE = x.home → c.tis pGW 4 x.table fSdValid = true → c.sched x.table x.entry fSeType = 0 →
          c.tis p 0 k fFcPublish = true → c.linBuf n k = some b → Does (.linSlotStart dt n .none) s fun d =>
          publishes d k ∧ (d.linRt n).slotEnd = c.cycles + tenthMs (c.sched x.table x.entry fSeSlot))
        ∧ (c.linMaster n = false → c.linState n = liIDLE → c.is p F.LIN_LIN_CFG_AUTOBAUD = false → id < 64 → c.tis p 0 id fFcPublish = true →
          c.linBuf n id = some b → (Does (.linHeaderRx dt n id bitNs true .none ago) s fun d => publishes d id)
            ∧ Does (.linHeaderRx dt n id bitNs false .none ago) s fun d => d.linRt n = x
              ∧ d.cntAt (cntKey p K.LIN_PID_ERR) = c.cntAt (cntKey p K.LIN_PID_ERR) + 1))
    ∧ (n < 8 → c.linState n = liSLEEP →
        (c.takes req → c.mode ≠ modeQuarantine → Does (.wake dt req n) s fun d => d.linState n = liIDLE ∧ d.outs = c.outs ++ [.wakePulse (48 + n)])
        ∧ Does (.wakeRxLin dt n) s fun d => d.linState n = liIDLE ∧ d.latched p E.LIN_WAKE_RX ∧ (d.linRt n).wokeAt = some c.cycles)
    ∧ (n < 8 → c.takes req → c.linState n = liIDLE ∨ c.linState n = liRUN → Does (.linSleep dt req n) s fun d =>
        d.linState n = liSLEEP ∧ d.latched p E.LIN_SLEEP_DONE)
    ∧ (n < 8 → x.wokeAt = some t → t + msCycles 100 ≤ c.cycles → c.linState n = liIDLE → c.linMaster n = true → c.is p F.LIN_LIN_SCHED_RUN = true →
        Does (.linSchedRestart dt n) s fun d => d.linState n = liRUN ∧ (d.linRt n).entry = 0 ∧ (d.linRt n).wokeAt = none)
    ∧ (c.uartFree n = true → c.relDue (56 + n) = none → c.guardBlocks (56 + n) = false → (c.uartRt n).queue = m :: ms →
        Does (.uartTx dt n waited) s fun d => (d.uartRt n).queue = ms
          ∧ (d.uartRt n).txEnd = c.cycles + c.uartEighths n (c.rs485 n F.UART_RS485_CFG_DE_LEAD) + c.uartBits n (c.uartChar n * m.msg.data.length)
          ∧ (d.uartRt n).deEnd = (d.uartRt n).txEnd + c.uartEighths n (c.rs485 n F.UART_RS485_CFG_DE_LAG)
          ∧ d.cntAt (cntKey (pUART n) K.UART_TX_MSGS) = c.cntAt (cntKey (pUART n) K.UART_TX_MSGS) + 1)
    ∧ (c.clkSafe = true → Does (.gclkRestored dt) s fun d => d.clkSafe = false ∧ d.is pGW F.GW_GW_STATUS_CLK_OK = true
        ∧ ∀ k, k < 16 → d.canState k = if c.canState k = caCLKSAFE then caINTEGRATING else c.canState k)

/-- LEGACY_MESSAGE_RECEIVED, GW_ROUTE_PROCESS, GW_CLR, NIU_CLAIM (R215, R218, R220, R230, R233, R236, R239, R243): a message received good
joins the gateway's input queue; the one route that takes it puts its copy into the queue of its channel. -/
def Obligations.GatewayMessages : Prop :=
  ∀ (s : State) (dt n ago port r k idle : Nat) (req : Requester) (chars : List Byte) (m m' : Msg) (x : GwItem) (xs : List GwItem), let c := s.chip.pass dt
    let joined := fun (q : Nat) (y : Msg) (d : Chip) => ∃ i : GwItem, d.inq = c.inq ++ [i] ∧ i.msg = some y ∧ i.port = q ∧ i.stamp = c.stampAgo ago
    let way : Way := { item := x, kind := 0, msg := m }
    let routes := (tblIndices c.tblA pGW 0).filter (c.routeMatches way)
    let inst := k / 4
    (c.mode ≠ modeQuarantine → c.mode ≠ modeSentry → c.pwr.entry = none → c.inq.length < 4096 → c.inqBytes + m.data.length ≤ 65536 →
        (n < 16 → c.canAccepts n m = true → c.canState n = caACTIVE ∨ c.canState n = caPASSIVE →
          Does (.legacyMessageReceived dt (32 + n) (.can m) ago) s fun d => joined (32 + n) m d
            ∧ d.cntAt (cntKey (pCAN n) K.CAN_RX_FRAMES) = c.cntAt (cntKey (pCAN n) K.CAN_RX_FRAMES) + 1)
        ∧ (n < 8 → c.ready (pLIN n) = true → c.linState n = liIDLE ∨ c.linState n = liRUN → m.id < 64 → c.tis (pLIN n) 0 m.id fFcSubscribe = true →
          m = { kind := .lin, id := m.id, data := m.data } → m.data.length = c.tget (pLIN n) 0 m.id fFcLen →
          Does (.legacyMessageReceived dt (48 + n) (.lin m.id (.data m.data)) ago) s fun d => joined (48 + n) m d
            ∧ d.cntAt (cntKey (pLIN n) K.LIN_RX_FRAMES) = c.cntAt (cntKey (pLIN n) K.LIN_RX_FRAMES) + 1)
        ∧ (n < 4 → c.ready (pUART n) = true → c.clkSafe = false → c.is (pUART n) F.UART_RS485_CFG_EN = false → c.get (pUART n) F.UART_UART_FRAME_MODE = 0 →
          c.get (pUART n) F.UART_UART_CFG_DATA ≠ 0 → c.get (pUART n) F.UART_UART_FRAME_GAP_BITS ≤ idle → (c.uartRt n).rx = [] → (c.uartRt n).rxBad = false →
          chars ≠ [] → chars.length ≤ 256 → m = { kind := .uart, data := chars } → Does (.legacyMessageReceived dt (56 + n) (.uart chars false false idle) ago) s fun d =>
            joined (56 + n) m d ∧ (d.uartRt n).rx = [] ∧ d.cntAt (cntKey (pUART n) K.UART_RX_MSGS) = c.cntAt (cntKey (pUART n) K.UART_RX_MSGS) + 1))
    ∧ (n < 16 → c.mode = modeQuarantine → c.canAccepts n m = true → c.canState n = caACTIVE → (c.canRt n).rxe = 0 →
        Does (.legacyMessageReceived dt (32 + n) (.can m) ago) s fun d => d.inq = c.inq
          ∧ d.cntAt (cntKey (pCAN n) K.CAN_MODE_DROP) = c.cntAt (cntKey (pCAN n) K.CAN_MODE_DROP) + 1)
    ∧ (c.gwRuns = true → c.inq = x :: xs → x.msg = some m → m.kind = .can → isCan x.port = true →
        (routes = [] → Does (.gwRouteProcess dt) s fun d => d.inq = xs
          ∧ d.cntAt (cntKey (chanPage x.port) K.CAN_NO_ROUTE) = c.cntAt (cntKey (chanPage x.port) K.CAN_NO_ROUTE) + 1)
        ∧ (routes = [r] → c.modeRoute (c.itemMode x) r = true → c.ready pUNITS = false → c.ready pBRIDLE = false → n < 16 → c.ro r fRoDst = 0 →
          c.ro r fRoCans = 2 ^ n → c.ro r fRoTimed = 0 →
          formatted (c.ro r fRoFormat) (c.ro r fRoBrs = 1) (c.ro r fRoPad) (c.translated r m) = some m' → c.canFormat n m' = true →
          c.canTakes n = true → c.ramRoom (32 + n) m' = true → Does (.gwRouteProcess dt) s fun d => d.inq = xs
            ∧ (d.canRt n).queue.map TxMsg.msg = (c.canRt n).queue.map TxMsg.msg ++ [m']))
    ∧ (c.takes req → Does (.gwClr dt req) s fun d => d.get pGW F.GW_INQ_STATUS_MAX = 0)
    ∧ (inst < 8 → c.ni inst fNiValid = 1 → c.fwRuns = true → c.gwRuns = true → (bitList (c.ni inst fNiChannels) 16)[k % 4]? = some port →
        ((c.niu k).state = 0 → Does (.niuClaim dt inst (k % 4) .claim) s fun d => d.niu k = { sa := c.ni inst fNiPref, state := 1 })
        ∧ ((c.niu k).state = 1 → Does (.niuClaim dt inst (k % 4) .won) s fun d => d.niu k = { c.niu k with state := 2 })
        ∧ ((c.niu k).state = 1 ∨ (c.niu k).state = 2 → c.ni inst fNiSelf = 0 → Does (.niuClaim dt inst (k % 4) .lost) s fun d =>
          d.niu k = { sa := 254, state := 3 } ∧ d.latched pGW E.GW_NIU_CLAIM))

/-- ACF_BATCH_TIMEOUT, ASM_PERIOD, ASM_GAP_END, SIGNAL_STALE (R223, R226, R227): the open frame enters the fabric at GW; a PDU goes out, or
waits for the end of MIN_GAP; a signal without an update reads as its substitute. -/
def Obligations.Assemblers : Prop :=
  ∀ (s : State) (dt a i o : Nat) (asked : Bool) (rw : Rewrite), let c := s.chip.pass dt
    let g := c.am a
    let mayGo := c.modeTakes (g fAsClass) (g fAsActuating = 1) (g fAsDiag = 1) = true ∧ (g fAsStopStale = 0 ∨ c.allStale a = false)
    let goes := fun (P : GwItem → Prop) (d : Chip) => ∃ (e : Chip) (y : GwItem), d = e.pduOut a y ∧ P y
      ∧ e.asm a = { c.asm a with periodAt := c.cycles, deferred := none, sentAt := some c.cycles }
    c.gwRuns = true →
    ((c.acf a).msgs ≠ [] → (c.acf a).at' + usCycles (c.ao a fAoUs) ≤ c.cycles → Does (.acfBatchTimeout dt a) s fun d =>
        ∃ (e : Chip) (f : Frame), d = e.ingestWhole f ∧ f.ingress = 31 ∧ f.cls = (c.acf a).cls ∧ e.acf a = { seq := ((c.acf a).seq + 1) % 256 })
    ∧ (a < 1024 → g fAsValid = 1 → g fAsPeriod ≠ 0 → (c.asm a).periodAt + tenthMs (g fAsPeriod) ≤ c.cycles →
        (c.gapOver a = true → mayGo → Does (.asmPeriod dt a) s (goes fun y => y.origin = 31 ∧ y.asked = true))
        ∧ (c.gapOver a = false → (c.asm a).deferred = none → Does (.asmPeriod dt a) s fun d =>
          d.asm a = { c.asm a with periodAt := c.cycles, deferred := some (31, true, {}) }))
    ∧ ((c.asm a).deferred = some (o, asked, rw) → c.gapOver a = true → mayGo →
        Does (.asmGapEnd dt a) s (goes fun y => y.origin = o ∧ y.asked = asked ∧ y.rewrite = rw))
    ∧ (i < 16384 → c.sg i fSgValid = 1 → c.sg i fSgTmo ≠ 0 → (c.sig i).stale = false → (c.sig i).at' + msCycles (c.sg i fSgTmo) ≤ c.cycles →
        Does (.signalStale dt i) s fun d => ∃ e : Chip, (d = e ∨ ∃ y : GwItem, d = e.asmWant (c.sg i fSgAsm) y true)
          ∧ e.sig i = { c.sig i with value := none, stale := true } ∧ e.sigValue i = c.subst i ∧ e.latched pGW E.GW_SIGNAL_STALE
          ∧ e.cntAt (cntKey pGW K.GW_SIGNAL_STALE) = c.cntAt (cntKey pGW K.GW_SIGNAL_STALE) + 1)

/-- PCIE_RESET, PCIE_LINK_UP, MSIX_UNMASK, BRG_FENCE_READ, FENCE_TIMEOUT, PEL_ACK, FLT_ACK (R251, R260, R263, R264, R280): what a reset of
the PCI Express side clears, what the host's setup shows, and that a fence answers when no posted write is undecided or when its time is up. -/
def Obligations.HostBridge : Prop :=
  ∀ (s : State) (dt v t width speed : Nat) (k : PcieReset) (req : Requester) (en mask d3 : Bool) (e : PelEntry) (es : List PelEntry) (x : FltEntry)
      (xs : List FltEntry), let c := s.chip.pass dt
    let ctl := 0x400 + 16 * v + 12
    let fence := fun (tmo : Bool) => Output.readData req (regKey pHOST 0x148) (c.fenceWord (reqCode req) tmo)
    (c.dark = false → Does (.pcieReset dt k) s fun d => d.latched pHOST E.HOST_PCIE_RESET ∧ d.tlb = [] ∧ d.hostUp = false ∧ (∀ r, r < 32 → d.ringState r = rgDISABLED)
        ∧ (∀ u, u < 64 → d.reg pHOST (0x400 + 16 * u + 12) = 1) ∧ (∀ p ∈ d.pel, p.req ≠ .pcie) ∧ d.wseqOf .pcie = 0
        ∧ (k ≠ .flr → k ≠ .bmeClear → d.is pHOST F.HOST_PCIE_STATUS_LINK_UP = false))
    ∧ (c.pciePowered = true → width < 16 → speed < 16 → Does (.pcieLinkUp dt width speed en mask d3) s fun d =>
        d.is pHOST F.HOST_PCIE_STATUS_LINK_UP = true ∧ d.is pHOST F.HOST_PCIE_STATUS_BME = true ∧ d.get pHOST F.HOST_PCIE_STATUS_WIDTH = width
          ∧ d.get pHOST F.HOST_PCIE_STATUS_SPEED = speed ∧ d.is pHOST F.HOST_PCIE_STATUS_MSIX_EN = en ∧ d.is pHOST F.HOST_PCIE_STATUS_FUNC_MASK = mask
          ∧ d.is pHOST F.HOST_PCIE_STATUS_D3HOT = d3)
    ∧ (c.takes req → v < 64 → c.locked pHOST = false → c.is pHOST F.HOST_PCIE_STATUS_LINK_UP = true → c.is pHOST F.HOST_PCIE_STATUS_MSIX_EN = true →
        (c.reg pHOST (0x380 + 4 * (v / 32))).toNat.testBit (v % 32) = true → c.is pHOST F.HOST_PCIE_STATUS_FUNC_MASK = false →
        Does (.msixUnmask dt req (some v)) s fun d => d.outs = c.outs ++ [.msix v] ∧ bitsAt (d.reg pHOST ctl) 0 1 = 0
          ∧ (d.reg pHOST (0x380 + 4 * (v / 32))).toNat.testBit (v % 32) = false)
    ∧ (Does (.msixUnmask dt req none) s fun d => d.is pHOST F.HOST_PCIE_STATUS_FUNC_MASK = false)
    ∧ (c.dark = false → c.qsFence = false → c.fences = [] → c.undecidedOf (reqCode req) = 0 → Does (.brgFenceRead dt req) s fun d =>
        d.outs = c.outs ++ [fence false] ∧ d.fences = [])
    ∧ (c.qsFence = false → c.fences = [(reqCode req, t)] → t + usCycles c.fenceLimit ≤ c.cycles → c.undecidedOf (reqCode req) ≠ 0 →
        Does (.fenceTimeout dt req) s fun d => d.outs = c.outs ++ [fence true] ∧ d.fences = []
          ∧ d.cntAt (cntKey pHOST K.HOST_FENCE_TIMEOUT) = c.cntAt (cntKey pHOST K.HOST_FENCE_TIMEOUT) + 1)
    ∧ (c.takes req → (c.pel = e :: es → e.seq < 65536 → Does (.pelAck dt req e.seq) s fun d => d.pel = es)
        ∧ (c.flts = x :: xs → x.seq < 65536 → Does (.fltAck dt req x.seq) s fun d => d.flts = xs))

/-- QSPI_WRITE, QSPI_READ, QSPI_BUSY_TIMEOUT (R255 to R257): a transaction whose CRC fails changes nothing but what reports it; a good write
of one word is one write to a register; a good read of one word answers OK with it; a read that takes too long answers UR. -/
def Obligations.QspiTransactions : Prop :=
  ∀ (s : State) (dt dev addr : Nat) (bs : List Byte) (giveUp : Bool) (p : Page) (q : QsRead), let c := s.chip.pass dt
    let answer := fun (body : List Byte) => Output.qspiAnswer (body ++ [crc8 body])
    let cnt := fun (d : Chip) (i : Nat) => d.cntAt (cntKey pQSPIS i)
    let fails := fun (d : Chip) => d.is pQSPIS F.QSPIS_QS_STATUS_CRC_FAIL
    c.dark = false →
    (bs ≠ [] → qsCrcOk bs = false →
        (DoesExt (.qspiWrite dt bs) s fun d x => x = s.ext ∧ fails d = true ∧ d.latched pQSPIS E.QSPIS_CRC_ERR ∧ cnt d K.QSPIS_WR_CRC_ERR = cnt c K.QSPIS_WR_CRC_ERR + 1)
        ∧ Does (.qspiRead dt bs giveUp) s fun d => d.outs = c.outs ++ [answer [3]] ∧ fails d = true ∧ cnt d K.QSPIS_CMD_CRC_ERR = cnt c K.QSPIS_CMD_CRC_ERR + 1)
    ∧ (qsCrcOk bs = true → qsHead bs 1 = some (dev, addr, 1) → bs.length = 10 → DoesExt (.qspiWrite dt bs) s fun d x =>
        ∃ e : Chip, (d, x) = e.busWrite s.ext .qspi (dev * 2 ^ 24 + addr) .word (qsWord bs 0) 0 ∧ fails e = false ∧ e.qsRead = none
          ∧ cnt e K.QSPIS_QS_WRITES = cnt c K.QSPIS_QS_WRITES + 1)
    ∧ (qsCrcOk bs = true → qsHead bs 2 = some (0, addr, 1) → bs.length = 6 → pageOfAddr addr = some p → p ≠ pQSPIS → (p = pHOST → addr % 0x1000 ≠ 0x148) →
        Does (.qspiRead dt bs giveUp) s fun d => d.outs = c.outs ++ [answer (1 :: qsBytes (c.read .qspi p (addr % 0x1000)))] ∧ fails d = false
          ∧ d.qsRead = none ∧ cnt d K.QSPIS_QS_READS = cnt c K.QSPIS_QS_READS + 1)
    ∧ (c.qsRead = some q → q.at' + usCycles 200 ≤ c.cycles → Does (.qspiBusyTimeout dt) s fun d => d.qsRead = none ∧ d.outs = c.outs ++ [answer [2]]
          ∧ cnt d K.QSPIS_UR_READS = cnt c K.QSPIS_UR_READS + 1)

/-- DOORBELL, START, STOP, RESUME, STOP_COMPLETE, ITR_EXPIRE (R265, R272, R273): the states of a ring and its indices. INV_CMD and INV_DONE
(R276): the translations that an invalidation selects are gone when it starts and when it ends. -/
def Obligations.RingsAndInvalidations : Prop :=
  (∀ (s : State) (dt r v t : Nat) (req : Requester) (user discard : Bool) (mem : List MemSeg), let c := s.chip.pass dt
    let st := c.ringState r
    let size := c.ringGet r F.DMA_RCFG_SIZE
    r < 32 →
    (c.takes (if user then .pcie else req) → c.locked pDMA = false → (user = true → c.ringGet r F.DMA_RCFG_USER_DB ≠ 0) → v < 8192 →
        (v < size → Does (.doorbell dt req r v user) s fun d => d.rtail r = v)
        ∧ (size ≤ v → Does (.doorbell dt req r v user) s fun d => d.rtail r = c.rtail r ∧ d.latched pDMA E.DMA_BAD_DOORBELL))
    ∧ (c.takes req →
        (st = rgDISABLED → size ≠ 0 → c.ready pDMA = true → Does (.start dt req r) s fun d => d.ringState r = rgRUNNING ∧ d.rhead r = 0 ∧ d.rtail r = 0
          ∧ d.ring r = {})
        ∧ (st = rgRUNNING → Does (.stop dt req r) s fun d => d.ringState r = rgSTOPPING)
        ∧ (st = rgHALTED → Does (.stop dt req r) s fun d => d.ringState r = rgDISABLED ∧ d.heldOf r = [])
        ∧ (st = rgHALTED → Does (.resume dt req r discard) s fun d => d.ringState r = rgRUNNING ∧ d.heldOf r = if discard then [] else c.heldOf r))
    ∧ (st = rgSTOPPING → c.inTransfer r = false → (c.ring r).descs = [] → Does (.stopComplete dt r mem) s fun d => d.ringState r = rgDISABLED)
    ∧ ((c.ring r).firstAt = some t → c.ringGet r F.DMA_RMOD_ITR_US ≠ 0 → t + usCycles (c.ringGet r F.DMA_RMOD_ITR_US) ≤ c.cycles →
        Does (.itrExpire dt r) s fun d => (d.ring r).frames = 0 ∧ (d.ring r).firstAt = none))
  ∧ (∀ (s : State) (dt : Nat) (req : Requester) (value : Word) (x : InvCmd) (xs : List InvCmd), let c := s.chip.pass dt
    let pages := c.get pDXLT F.DXLT_INV_PAGES_N
    let v : InvCmd := ⟨bitsAt value 0 2, bitsAt value 4 2, c.get pDXLT F.DXLT_INV_ADDR_LO_V * 2 ^ 12 + c.get pDXLT F.DXLT_INV_ADDR_HI_V * 2 ^ 32, pages⟩
    (c.takes req → bitsAt value 31 1 = 1 → v.scope ≠ 0 → (v.scope = 3 → pages ≠ 0 ∧ pages ≤ 262144) → Does (.invCmd dt req value) s fun d =>
        d.invs = c.invs ++ [v] ∧ (c.invs = [] → d.is pDXLT F.DXLT_INV_STATUS_BUSY = true ∧ d.tlb = c.tlb.filter fun e => !v.selects e))
    ∧ (c.invs = x :: xs → Does (.invDone dt) s fun d => d.invs = xs ∧ d.latched pDXLT E.DXLT_INV_DONE ∧ (∀ e ∈ d.tlb, e ∈ c.tlb ∧ x.selects e = false)
        ∧ d.is pDXLT F.DXLT_INV_STATUS_BUSY = !xs.isEmpty
        ∧ d.get pDXLT F.DXLT_INV_STATUS_SEQ = (c.get pDXLT F.DXLT_INV_STATUS_SEQ + 1) % 65536))

/-- DESCRIPTOR_FETCH, DMA_TX_FRAME, DMA_CHUNK, DMA_RX_FRAME, COMPLETION_TIMEOUT (R265 to R270, R274, R277) on a ring without translation: a
frame of one descriptor and one chunk is fetched, read and sent on; a held frame of one chunk is written to its buffer; a frame for a
DISABLED ring is dropped; a read that never completes halts its ring. -/
def Obligations.DmaTransfers : Prop :=
  ∀ (s : State) (dt r a i : Nat) (mem : List MemSeg) (bs b : List Byte) (ecc : EccResult) (k k' : Copy) (y : TxDesc) (f g : Chip), let c := s.chip.pass dt
    let x := c.ring r
    let buf := 256 * f.ringGet r F.DMA_RMOD_BUF
    r < 32 →
    (c.dmaRuns = true → 16 ≤ r → c.ringState r = rgRUNNING → x.descs = [] → x.whole = false → c.rhead r ≠ c.rtail r → c.ringGet r F.DMA_RCFG_XLT_EN = 0 →
        memRead mem (c.descAddr r (c.rhead r)) 32 = some bs → parseDesc (c.rhead r) bs = y → y.sop = true → y.eop = true → 0 < y.len → y.len ≤ 16384 →
        y.len ≤ c.get (pPORT 30) F.PORT_MAC_CFG_MAX_LEN → Does (.descriptorFetch dt r mem) s fun d => (d.ring r).descs = [y] ∧ (d.ring r).whole = true
          ∧ d.rhead r = c.rhead r)
    ∧ (c.dmaRuns = true → c.readTurn = (f, some r) → f.ringGet r F.DMA_RCFG_XLT_EN = 0 → (f.ring r).descs = [y] → (f.ring r).data = [] →
        0 < y.len → y.len + y.addr % 256 ≤ 256 → memRead mem y.addr y.len = some bs → bs.length = y.len → Does (.dmaTxFrame dt mem) s fun d =>
          ∃ e : Chip, d = e.txEnter r { f.ring r with data := bs, stamp := f.stamp } mem ∧ (e.ring r).whole = false
            ∧ e.cntAt (cntKey pDMA K.DMA_TX_FRAMES) = f.cntAt (cntKey pDMA K.DMA_TX_FRAMES) + 1)
    ∧ (c.dmaRuns = true → c.readTurn = (f, some r) → f.ringGet r F.DMA_RCFG_XLT_EN = 0 → (f.ring r).descs = [y] → (f.ring r).data = b →
        256 < (y.addr + b.length) % 256 + (y.len - b.length) →
        memRead mem (y.addr + b.length) (256 - (y.addr + b.length) % 256) = some bs → bs.length = 256 - (y.addr + b.length) % 256 →
        Does (.dmaChunk dt false ecc mem) s fun d => (d.ring r).data = b ++ bs ∧ (d.ring r).descs = [y])
    ∧ (c.rxRuns = true → c.rxAside = none → c.writeTurn = (f, some r) → r < 16 → f.ringGet r F.DMA_RCFG_XLT_EN = 0 → f.rxCopy r = none → f.heldOf r = [k] →
        f.rhead r = i → f.rhead r ≠ f.rtail r → memRead mem (f.descAddr r i) 6 = some b → leNat b = a → k.rx = none → rxBytes k ≠ [] →
        (rxBytes k).length + a % 256 ≤ 256 → (rxBytes k).length ≤ buf → Does (.dmaRxFrame dt ecc mem) s fun d =>
          ∃ e : Chip, d = (e.rxDone r k mem).retryT ∧ Output.memWrite a (rxBytes k) ∈ e.outs ∧ (e.ring r).pos = (rxBytes k).length ∧ e.heldOf r = [])
    ∧ (c.rxRuns = true → c.rxAside = some k → c.ringState (c.rxRing k.cls) = rgDISABLED → c.takeRx k ecc = (g, some k') →
        g.ringState (c.rxRing k.cls) = rgDISABLED → Does (.dmaRxFrame dt ecc mem) s fun d =>
          ∃ e : Chip, d = (e.refuseCopy k').retryT ∧ e.cntAt (cntKey pDMA K.DMA_RX_RING_OFF_DROP) = g.cntAt (cntKey pDMA K.DMA_RX_RING_OFF_DROP) + 1)
    ∧ (c.dmaRuns = true → 16 ≤ r → c.ringState r = rgRUNNING → x.whole = false → c.fetchAt r ≠ c.rtail r → Does (.completionTimeout dt r false mem) s fun d =>
        d.ringState r = rgHALTED ∧ d.ringGet r F.DMA_RSTATUS_FAULT_CAUSE = fcDATA_ERR ∧ d.latched pDXLT E.DXLT_FAULT ∧ d.latched pDMA E.DMA_RING_HALT
          ∧ (c.flts.length < 16 → d.flts = c.flts ++ [⟨c.descAddr r (c.fetchAt r), r, c.ringGet r F.DMA_RCFG_CTX, false, fcDATA_ERR, c.fetchAt r, c.fltSeq⟩]))

/-- FLIT_RX, TENON_TRAINED, TENON_ID_RETRY, TENON_CALIBRATED, RETRAIN, REMEASURE, TENON_LANE_LOSS, CREDIT_RETURN (R287, R288, R289, R292,
R293): the states that a Tenon link goes through, what its flits count, and the credit that a partner gives back. Acknowledgement flits are
the model's choice (log entry 69), calibration flits come as operands (log entry 49). -/
def Obligations.TenonLinks : Prop :=
  ∀ (s : State) (dt t peer reach at' cls bytes ids n dev : Nat) (flits : List (Nat × Nat)) (req : Requester) (b : Bool), let c := s.chip.pass dt
    let p := pTENON t
    let st := c.tlState t
    let x := c.tenon t
    let cnt := fun (d : Chip) (i : Nat) => d.cntAt (cntKey p i)
    t < 2 →
    (st = tlUP ∨ st = tlCALIBRATE →
        (Does (.flitRx dt t .content) s fun d => cnt d K.TENON_FLITS_RX = cnt c K.TENON_FLITS_RX + 1 ∧ cnt d K.TENON_FLITS_TX = cnt c K.TENON_FLITS_TX + 1)
        ∧ (Does (.flitRx dt t .bad) s fun d => cnt d K.TENON_CRC_ERR = cnt c K.TENON_CRC_ERR + 1)
        ∧ (Does (.flitRx dt t (.ack n)) s fun d => (d.tenon t).tries = 0 ∧ (d.tenon t).unacked = x.unacked - n)
        ∧ (let now := ids % 16 ||| 2 ^ c.get p F.TENON_TL_STATUS_PEER_RING_ID
          Does (.flitRx dt t (.reach ids)) s fun d => (d.tenon t).reach = now
            ∧ d.remotes = c.remotes.filter fun e => !(decide (e.link = t) && !now.testBit e.dev))
        ∧ (Does (.flitRx dt t (.peerReset dev)) s fun d => d.remotes = c.remotes.filter fun e => !decide (e.dev = dev % 4))
        ∧ (x.tries + 1 < c.get p F.TENON_TL_CFG_RETRY_LIMIT → Does (.flitRx dt t (.replay n)) s fun d => (d.tenon t).tries = x.tries + 1 ∧ d.tlState t = st
          ∧ cnt d K.TENON_REPLAYS = cnt c K.TENON_REPLAYS + 1 ∧ cnt d K.TENON_FLITS_TX = cnt c K.TENON_FLITS_TX + BitVec.ofNat 48 (x.unacked - n))
        ∧ (c.get p F.TENON_TL_CFG_RETRY_LIMIT ≤ x.tries + 1 → Does (.flitRx dt t (.replay n)) s fun d => d.tlState t = tlTRAIN ∧ d.latched p E.TENON_RETRY_FAIL)
        ∧ Does (.tenonLaneLoss dt t b) s fun d => d.tlState t = tlTRAIN ∧ d.tenonUp t = false ∧ (st = tlUP → d.latched p E.TENON_LINK_DOWN))
    ∧ (st = tlTRAIN → x.conflict = none → peer < 4 →
        (peer ≠ c.ringId → Does (.tenonTrained dt t peer b) s fun d => d.tlState t = tlCALIBRATE ∧ d.get p F.TENON_TL_STATUS_PEER_RING_ID = peer
          ∧ d.is p F.TENON_TL_STATUS_LANE_REVERSED = b)
        ∧ (peer = c.ringId → Does (.tenonTrained dt t peer b) s fun d => d.tlState t = tlTRAIN ∧ d.latched pTRING E.TRING_ID_CONFLICT
          ∧ d.is pTRING F.TRING_RING_STATUS_ID_CONFLICT = true ∧ (d.tenon t).conflict = some c.cycles))
    ∧ (x.conflict = some at' → at' + msCycles 100 ≤ c.cycles → Does (.tenonIdRetry dt t) s fun d => (d.tenon t).conflict = none)
    ∧ (st = tlCALIBRATE →
        let lat := ((flits.take 16).map fun f => f.1 - f.2).sum / 32
        (flits.length < 16 → Does (.tenonCalibrated dt t flits reach) s fun d => d.tlState t = tlCALIBRATE)
        ∧ (16 ≤ flits.length → Does (.tenonCalibrated dt t flits reach) s fun d => d.tlState t = tlUP ∧ d.tenonUp t = true ∧ d.latched p E.TENON_LINK_UP
          ∧ (c.get p F.TENON_LAT_ASYM_PS = 0 → lat < 2 ^ 20 → d.get p F.TENON_LINK_LAT_PS = lat)))
    ∧ (c.takes req → st = tlUP → (Does (.retrain dt req t) s fun d => d.tlState t = tlTRAIN ∧ d.latched p E.TENON_LINK_DOWN)
        ∧ Does (.remeasure dt req t) s fun d => d.tlState t = tlCALIBRATE ∧ d.tenonUp t = true ∧ d.queues = c.queues)
    ∧ (cls < 8 → c.tenonUp t = true → Does (.creditReturn dt t cls bytes) s fun d => d.creditUsed t cls = c.creditUsed t cls - bytes)

/-- REMOTE_REQUEST, PEER_TIMEOUT, EHRUZ_REQUEST (R291, R295, R296): a ring peer's access is applied as this device's own and answered; an
answer decides the oldest request to its device; an unanswered one fails; an Ehruz request is answered only where it is enabled and
permitted. -/
def Obligations.RingRequests : Prop :=
  ∀ (s : State) (dt t addr port dst : Nat) (src : EhruzSource) (other bc : Bool) (v data : Word) (p : Page) (e : RemoteReq) (es : List RemoteReq) (f : Chip) (x : Ext) (err : Nat)
      (op : EhruzOp), let c := s.chip.pass dt
    let cnt := fun (d : Chip) (p : Page) (i : Nat) => d.cntAt (cntKey p i)
    let served := c.is pTRING F.TRING_EHRUZ_CFG_EN && c.is pTRING F.TRING_DOMAIN_CFG_ID_VALID
    t < 2 →
    (c.tlState t = tlUP → addr < 2 ^ 24 →
        (c.localWrite s.ext .peer addr v = (f, x, err) → DoesExt (.remoteRequest dt t (.write addr v)) s fun d y => y = x
          ∧ d.outs = if addr = pageBase pRST + 0x144 ∧ v.toNat % 65536 = 0x9648 ∧ err = 0 then f.outs else f.outs ++ [.reply addr err 0])
        ∧ (pageOfAddr addr = some p → Does (.remoteRequest dt t (.read addr)) s fun d => d.outs = c.outs ++ [.reply addr 0 (c.read .peer p (addr % 0x1000))])
        ∧ (Does (.remoteRequest dt t .relay) s fun d => cnt d pTRING K.TRING_RELAYED = cnt c pTRING K.TRING_RELAYED + 1
          ∧ cnt d (pTENON (1 - t)) K.TENON_FLITS_TX = cnt c (pTENON (1 - t)) K.TENON_FLITS_TX + 1)
        ∧ (c.remotes = e :: es → e.req = .trestle → e.waits = false → e.orphan = false → c.fences = [] → c.qsRead = none → Does (.remoteRequest dt t (.confirm e.dev 0 data)) s fun d => d.remotes = es
          ∧ (e.write = false → d.outs = c.outs ++ [.readData .trestle (remoteAddr e.dev e.addr) data])
          ∧ (e.write = true → d.undecidedOf (reqCode .trestle) = c.undecidedOf (reqCode .trestle) - 1)))
    ∧ (c.remotes = e :: es → e ∉ es → e.at' + usCycles 100 ≤ c.cycles → Does (.peerTimeout dt e.dev) s fun d => d.remotes = es
        ∧ cnt d pTRING K.TRING_REMOTE_FAIL = cnt c pTRING K.TRING_REMOTE_FAIL + 1)
    ∧ (c.fwRuns = true →
        (served = false → DoesExt (.ehruzRequest dt port src other dst bc op) s fun d y => y = s.ext ∧ d.latched pTRING E.TRING_EHRUZ_REJECT
          ∧ cnt d pTRING K.TRING_EHRUZ_REJECT = cnt c pTRING K.TRING_EHRUZ_REJECT + 1)
        ∧ (served = true → other = false → bc = true → c.ehruzPort port = false → DoesExt (.ehruzRequest dt port src other dst bc op) s fun d y =>
          y = s.ext ∧ d.latched pTRING E.TRING_EHRUZ_REJECT ∧ cnt d pTRING K.TRING_EHRUZ_RX = cnt c pTRING K.TRING_EHRUZ_RX + 1)
        ∧ (served = true → other = false → bc = true → c.ehruzPort port = true → pageOfAddr addr = some p → addr < 2 ^ 24 →
          Does (.ehruzRequest dt port src other dst bc (.read [c.ringId * 2 ^ 24 + addr / 4 * 4])) s fun d =>
            d.outs = c.outs ++ [.ehruzAnswer port (src.seq % 65536) [c.read .trestle p (addr / 4 * 4 % 0x1000)]] ∧ cnt d pTRING K.TRING_EHRUZ_TX = cnt c pTRING K.TRING_EHRUZ_TX + 1)
        ∧ (served = true → other = false → bc = true → c.ehruzPort port = true → Does (.ehruzRequest dt port src other dst bc .subscribe) s fun d =>
          (port, src.id) ∈ d.tr.subs ∧ d.outs = c.outs ++ [.ehruzAnswer port (src.seq % 65536) []])
        ∧ (served = true → other = true → src.id = c.get pTRING F.TRING_DOMAIN_CFG_DEVICE_ID → Does (.ehruzRequest dt 30 src other dst bc (.write [])) s fun d =>
          d.latched pTRING E.TRING_ID_CONFLICT ∧ d.is pTRING F.TRING_RING_STATUS_ID_CONFLICT = true))

/-- XTAL_START_CHECK, XTAL_FAIL, XTAL_BACK, HFRC_FAIL, HFRC_TRIM, LFRC_TRIM (R303, R304, R307, R310, R315, R316): what the crystal and the
two RC oscillators show before the effects that follow. How the trim code counts is the model's choice (log entry 50). -/
def Obligations.Oscillators : Prop :=
  ∀ (s : State) (dt since fails : Nat) (amp por usable : Bool) (ppm : Int), let c := s.chip.pass dt
    let good := amp && decide (ppm.natAbs ≤ if c.trimmed then 10000 else 60000)
    let trims := if ppm.natAbs ≤ 1000 then c.clk.good + 1 else 0
    let code := trimCode (c.get pCLK F.CLK_HFRC_STATUS_TRIM) ppm
    let measures := c.is pCLK F.CLK_HFRC_CFG_TRIM_AUTO = true ∧ c.hfrcFailed = false ∧ c.trimRef ≠ 0 ∧ (usable = true ∨ c.trimRef ≠ 2)
    let cnt := fun (d : Chip) (i : Nat) => d.cntAt (cntKey pCLK i)
    let shows := fun (f : Fld) (d : Chip) => d.is pCLK f
    (c.clk.xtalStart = some (since, fails, por) → since + c.xsdCycles ≤ c.cycles →
        (good = true → Does (.xtalStartCheck dt amp ppm) s fun d => ∃ e : Chip, d = e.powerPlls.sPortsFollow.resumePorts ∧ e.xtalRuns = true
          ∧ shows F.CLK_XTAL_STATUS_FAILED e = false ∧ e.clk.xtalStart = none ∧ shows F.CLK_XTAL_STATUS_COUNT_OK e = decide (ppm.natAbs ≤ 10000))
        ∧ (good = false → por = true ∨ fails < 2 → Does (.xtalStartCheck dt amp ppm) s fun d => d.clk.xtalStart = some (c.cycles, fails + 1, por)
          ∧ cnt d K.CLK_XTAL_START_RETRY = cnt c K.CLK_XTAL_START_RETRY + 1)
        ∧ (good = false → por = false → 2 ≤ fails → Does (.xtalStartCheck dt amp ppm) s fun d => ∃ e : Chip, d = e.xtalFailed
          ∧ cnt e K.CLK_XTAL_START_RETRY = cnt c K.CLK_XTAL_START_RETRY + 1))
    ∧ (c.xtalRuns = true → Does (.xtalFail dt) s fun d => ∃ e : Chip, d = e.xtalEffect ∧ e.xtalRuns = false ∧ shows F.CLK_XTAL_STATUS_FAILED e = true
        ∧ e.latched pCLK E.CLK_XTAL_FAIL ∧ cnt e K.CLK_XTAL_FAIL = cnt c K.CLK_XTAL_FAIL + 1)
    ∧ (shows F.CLK_XTAL_STATUS_FAILED c = true → c.clk.xtalStart = none → c.xtalPowered = true → Does (.xtalBack dt) s fun d =>
        ∃ e : Chip, d = e.powerPlls.sPortsFollow.trainAfresh ∧ e.xtalRuns = true
        ∧ shows F.CLK_XTAL_STATUS_FAILED e = false ∧ e.latched pCLK E.CLK_XTAL_BACK)
    ∧ (c.xtalRuns = true → c.monitors = true → Does (.hfrcFail dt) s fun d => d.hfrcFailed = true ∧ d.latched pCLK E.CLK_HFRC_FAIL
        ∧ cnt d K.CLK_HFRC_FAIL = cnt c K.CLK_HFRC_FAIL + 1 ∧ d.clk.good = 0 ∧ ∀ g, d.clk.gwait = some g → g.2.1 = false)
    ∧ (measures → c.trimmed = true ∨ trims < 2 → Does (.hfrcTrim dt ppm usable) s fun d =>
        d.get pCLK F.CLK_HFRC_STATUS_TRIM = code ∧ d.get pCLK F.CLK_HFRC_STATUS_REF = c.trimRef ∧ d.clk.good = trims ∧ d.trimmed = c.trimmed
          ∧ d.get pCLK F.CLK_HFRC_STATUS_TRIM_TEMP = c.get pPWR F.PWR_DIE_TEMP_C)
    ∧ (c.is pCLK F.CLK_HFRC_CFG_TRIM_AUTO = true → c.hfrcFailed = false → c.trimRef = 2 → Does (.hfrcTrim dt ppm false) s fun d =>
        d.get pCLK F.CLK_HFRC_STATUS_TRIM = c.get pCLK F.CLK_HFRC_STATUS_TRIM ∧ d.clk = c.clk)
    ∧ (measures → c.trimmed = false → 2 ≤ trims → Does (.hfrcTrim dt ppm usable) s fun d =>
        ∃ e : Chip, d = e.gclkCheck ∧ e.trimmed = true ∧ e.get pCLK F.CLK_HFRC_STATUS_TRIM = code)
    ∧ (c.xtalRuns = true → shows F.CLK_XTAL_CFG_XTAL32_EN c = false → Does (.lfrcTrim dt) s fun d => d.clk.lfrcTemp = some c.dieTemp)

/-- PLL_LOSS, FREQ_MONITOR_WINDOW, PLL_RELOCK, GCLK_SWITCH, GCLK_SW_FORCED (R308, R309, R312, R314). -/
def Obligations.PllsAndSwitches : Prop :=
  ∀ (s : State) (dt k t : Nat) (hfrc failure : Bool), let c := s.chip.pass dt
    let lost := fun (d : Chip) => ∃ e : Chip, d = e.pllEffect k ∧ e.pllLocked k = false ∧ e.latched pCLK E.CLK_PLL_LOSS
      ∧ e.cntAt (cntKey pCLK (pllCounter k)) = c.cntAt (cntKey pCLK (pllCounter k)) + 1 ∧ ∀ j, j < 8 → j ≠ k → e.pllLocked j = c.pllLocked j
    let was := fun (e : Chip) => e.pllLocked k = true ∧ (c.clk.lost.testBit k = true → e.latched pCLK E.CLK_PLL_RELOCK)
    let off := fun (e : Chip) => if hfrc = true ∧ e.mode = modeSentry then e.pllGOff else e
    let made := fun (e : Chip) => e.is pCLK F.CLK_CLK_SEL_GCLK_HFRC = hfrc ∧ e.is pCLK F.CLK_CLK_SEL_GCLK_WAIT = false ∧ e.clk.gwait = none
    (k < 8 → c.pllLocked k = true →
        (Does (.pllLoss dt k) s lost)
        ∧ (c.monitors = true → Does (.freqMonitorWindow dt k false) s lost)
        ∧ (c.monitors = true → Does (.freqMonitorWindow dt k true) s fun d => d.pllLocked k = true ∧ (d.get pCLK F.CLK_PLL_STATUS_FREQ_OK).testBit k = true))
    ∧ (k < 8 → c.pllLocked k = false → c.xtalRuns = true → (c.get pCLK F.CLK_PLL_STATUS_POWERED).testBit k = true →
        (k = pllC → Does (.pllRelock dt k) s fun d => ∃ e : Chip, d = e.fabricRelock ∧ was e)
        ∧ (k = pllS → Does (.pllRelock dt k) s fun d => ∃ e : Chip, d = e.switchCore false ∧ was e)
        ∧ (k ≠ pllC → k ≠ pllS → Does (.pllRelock dt k) s was))
    ∧ (c.clk.gwait = some (t, hfrc, failure) →
        (c.gclkIdle = true → Does (.gclkSwitch dt) s fun d => ∃ e : Chip, d = off e.gclkCheck ∧ made e)
        ∧ (t + c.gclkLimit failure ≤ c.cycles → Does (.gclkSwForced dt) s fun d => d.latched pCLK E.CLK_GCLK_SW_FORCED
          ∧ ∃ e : Chip, d = ((off e.gclkCheck).count pCLK K.CLK_GCLK_SW_FORCED).raise pCLK E.CLK_GCLK_SW_FORCED ∧ made e))

/-- POWER_ON_RESET, PIN_RESET, CORE_BOR, DEV_RST, WATCHDOG_RESET (R317, R319): a device reset leaves the core as at reset in BOOT, with the
cause that AON keeps; below 100 ns RST_N does nothing, and a wrong key does nothing. WDT_KICK, WDT_WARN, DOM_RST_TRESTLE, DOM_RST_LEGACY,
DOM_RST_PCIE, DOM_RST_FABRIC (R318, R319, R322, R375). How long a domain reset takes is free (log entry 85). -/
def Obligations.DeviceAndDomainResets : Prop :=
  (∀ (s : State) (dt ns key mode id : Nat) (test : Bool) (req : Requester), let c := s.chip.pass dt
    let fresh := fun (d : Chip) => d.mode = modeBoot ∧ d.mono = 0 ∧ d.cycles = c.cycles ∧ d.queues = [] ∧ d.inq = [] ∧ d.tlb = [] ∧ d.units = [] ∧ d.slots = []
      ∧ d.storyHalted = false ∧ d.lists = [] ∧ d.ones = []
    let did := fun (cause : Nat) (d : Chip) => fresh d ∧ d.warm = c.warm
      ∧ d.aon = { c.aon with wakeTo := none, restore := false, waking := none, failedAt := none, retried := false } ∧ d.root = (if cause = rcCORE_BOR then none else c.root)
      ∧ (∀ b, b < 6 → (d.reg pRST 0x140).getLsbD b = ((c.reg pRST 0x140).getLsbD b || decide (b = cause)))
      ∧ d.get pRST F.RST_RST_CAUSE_RESETS = (c.get pRST F.RST_RST_CAUSE_RESETS + 1) % 65536
    (mode < 4 → id < 4 → Does (.powerOnReset dt ⟨mode, test⟩ id) s fun d => fresh d ∧ d.testHold = test ∧ d.root = none ∧ d.ringId = id ∧ d.get pSYS F.SYS_STRAPS_BOOT_MODE = mode
        ∧ d.get pRST F.RST_RST_CAUSE_RESETS = 0 ∧ (d.reg pRST 0x140).getLsbD rcPOR = true)
    ∧ (1000 ≤ ns → Does (.pinReset dt ns) s (did rcPIN)) ∧ (ns < 100 → Does (.pinReset dt ns) s fun d => d = c)
    ∧ (c.dormant = false → Does (.coreBor dt) s (did rcCORE_BOR))
    ∧ (c.takes req → (key % 65536 = 0x9648 → Does (.devRst dt req key) s (did rcSW))
        ∧ (key % 65536 ≠ 0x9648 → Does (.devRst dt req key) s fun d => d.regs = c.regs ∧ d.rstAt = c.rstAt))
    ∧ (c.wdtOn = true → c.wdt.at' + c.wdtTimeout ≤ c.cycles → Does (.watchdogReset dt) s (did rcWDT)))
  ∧ (∀ (s : State) (dt v : Nat) (req : Requester) (a b : ScribeTest), let c := s.chip.pass dt
    let next := c.get pRST F.RST_WDT_STATUS_NEXT
    let right := if next = 0 then 0x5A5A else 0xA5A5
    let flushed := fun (p : Page) (d : Chip) => d.get pRST F.RST_XING_STATUS_PAGE = pageIdx p ∧ d.latched pRST E.RST_XING_FLUSH
    let busy := fun (bit : Nat) (d : Chip) => ∃ x ∈ d.wdt.doms, x.1 = bit ∧ x.2 ≤ c.cycles + usCycles 100
    (c.takes req →
        (v % 65536 = right → Does (.wdtKick dt req v) s fun d => d.get pRST F.RST_WDT_STATUS_NEXT = 1 - next ∧ d.wdt.at' = c.cycles ∧ d.wdt.warned = false)
        ∧ (v % 65536 ≠ right → Does (.wdtKick dt req v) s fun d => d.wdt = c.wdt
          ∧ d.cntAt (cntKey pRST K.RST_WDT_BAD_KICK) = c.cntAt (cntKey pRST K.RST_WDT_BAD_KICK) + 1)
        ∧ (Does (.domRstTrestle dt req a b) s fun d => ∃ e : Chip, d = (if e.runImageOk s.ext then
              (e.setTr { e.tr with banks := store [] e.tr.banks e.tr.bank e.boot.fw, dataOf := e.boot.fw }).trStart (scribePasses a b) (scribePasses b a)
            else (e.trResult tcDIGEST).trTo trHALTED) ∧ flushed pTRESTLE e ∧ e.trMode = trOFF ∧ busy 0 e)
        ∧ (Does (.domRstLegacy dt req) s fun d => flushed pGW d ∧ busy 1 d ∧ d.enabled pGW = c.enabled pGW ∧ d.inq = [] ∧ ∀ q ∈ d.rels, q.target < 32)
        ∧ (Does (.domRstPcie dt req) s fun d => flushed pHOST d ∧ busy 2 d ∧ d.latched pHOST E.HOST_PCIE_RESET ∧ d.tlb = [] ∧ ∀ r, r < 32 → d.ringState r = rgDISABLED)
        ∧ (Does (.domRstFabric dt req) s fun d => flushed pFAB d ∧ busy 3 d ∧ d.is pFAB F.FAB_FAB_STATUS_HALTED = true ∧ d.queues = []))
    ∧ (c.wdtOn = true → c.wdt.warned = false → c.wdt.at' + c.wdtTimeout * 3 / 4 ≤ c.cycles → Does (.wdtWarn dt) s fun d =>
        d.wdt.warned = true ∧ d.latched pRST E.RST_WDT_WARN))

/-- MODE_CMD to each target, LIMP_CAUSE_CLEAR, THERMAL, DIE_TEMP_REFRESH (R325, R326, R328, R339): a command turned away changes no more
than RESULT and SEQ; an accepted one begins its entry or its transition; which causes of LIMP a write clears. -/
def Obligations.ModeCommands : Prop :=
  ∀ (s : State) (dt key bits : Nat) (req : Requester) (temp : Int), let c := s.chip.pass dt
    let cmds : List (Nat × (Nat → Instr)) := [(modeSentry, .modeCmdSentry dt req), (modeRun, .modeCmdRun dt req), (modeLimp, .modeCmdLimp dt req),
      (modeService, .modeCmdService dt req), (modeQuarantine, .modeCmdQuarantine dt req), (modeDormant, .modeCmdDormant dt req)]
    let busy := c.is pPWR F.PWR_MODE_STATUS_BUSY
    let turned := fun (r : Nat) (d : Chip) => d.regs = (c.modeResult r).regs ∧ d.pwr = c.pwr ∧ d.outs = c.outs ∧ d.get pPWR F.PWR_MODE_STATUS_RESULT = r ∧ d.mode = c.mode
      ∧ d.get pPWR F.PWR_MODE_STATUS_SEQ = (c.get pPWR F.PWR_MODE_STATUS_SEQ + 1) % 65536
    let begun := fun (t : Nat) (d : Chip) => d.pwr.entry = some ⟨t, c.cycles, true⟩ ∧ d.outs = c.outs ++ [.entryNotice t] ∧ d.is pPWR F.PWR_MODE_STATUS_BUSY = true
    let causes := fun (d : Chip) (b : Nat) => (d.reg pPWR 0x150).getLsbD b
    let clears := fun (b : Nat) => decide (b = lcCMD) || (decide (b = lcDOUBLE) && decide (c.trMode = trTRIPLE))
      || (decide (b = lcTHERMAL) && decide (c.dieTemp + 10 ≤ (c.get pPWR F.PWR_THERM_CFG_THERM_LIMP : Int)))
    (c.takes req →
        (key % 65536 ≠ 0x4D44 → ∀ x ∈ cmds, Does (x.2 key) s (turned 2))
        ∧ (busy = true → ∀ x ∈ cmds, Does (x.2 0x4D44) s (turned 1))
        ∧ (busy = false → ∀ x ∈ cmds, modeListed c.mode x.1 = false → Does (x.2 0x4D44) s (turned 3))
        ∧ (busy = false → c.bootFail = false → c.mode = modeLimp → c.reg pPWR 0x150 ≠ 0 → Does (.modeCmdRun dt req 0x4D44) s (turned 4)))
    ∧ (c.takes req → busy = false → c.bootFail = false →
        (modeListed c.mode modeSentry = true → Does (.modeCmdSentry dt req 0x4D44) s (begun modeSentry))
        ∧ (modeListed c.mode modeDormant = true → Does (.modeCmdDormant dt req 0x4D44) s (begun modeDormant))
        ∧ (modeListed c.mode modeRun = true → c.reg pPWR 0x150 = 0 → Does (.modeCmdRun dt req 0x4D44) s fun d => ∃ (e : Chip) (b : Bool), d = e.followMode b ∧ e.mode = modeRun)
        ∧ (modeListed c.mode modeService = true → Does (.modeCmdService dt req 0x4D44) s fun d => ∃ e : Chip, d = e.followMode false ∧ e.mode = modeService)
        ∧ (modeListed c.mode modeLimp = true → causes c lcCMD = false → Does (.modeCmdLimp dt req 0x4D44) s fun d => ∃ e : Chip, d = e.massStart ∧ e.latched pPWR E.PWR_LIMP)
        ∧ (c.mode ≠ modeQuarantine → Does (.modeCmdQuarantine dt req 0x4D44) s fun d => ∃ e : Chip, d = e.massStart ∧ e.latched pPWR E.PWR_QUARANTINE))
    ∧ (c.takes req → Does (.limpCauseClear dt req bits) s fun d => ∀ b, b < 6 → causes d b = (causes c b && !(bits.testBit b && clears b)))
    ∧ (c.dark = false → (c.get pPWR F.PWR_THERM_CFG_THERM_LIMP : Int) ≤ c.dieTemp →
        (c.mode ≠ modeRun → c.mode ≠ modeService → Does (.thermal dt) s fun d => causes d lcTHERMAL = true ∧ d.mode = c.mode)
        ∧ (c.mode = modeRun ∨ c.mode = modeService → causes c lcTHERMAL = false → Does (.thermal dt) s fun d => ∃ e : Chip, d = e.massStart ∧ e.latched pPWR E.PWR_LIMP))
    ∧ (c.dark = false → Does (.dieTempRefresh dt temp) s fun d => d.wear.peak = some (match c.wear.peak with | some t => max t temp | none => temp)
        ∧ ∃ e : Chip, d = { e.trimHolds with wear := d.wear } ∧ e.get pPWR F.PWR_DIE_TEMP_C = unsignedOf temp 8)

/-- ENTRY_ACK, ENTRY_FORCED, SENTRY_IDLE, PWR_GOOD, PWR_GOOD_TIMEOUT, WAKE_RETRY, PF_CLEAR (R326, R329, R331, R333, R337): entries end, and
the core comes back in BOOT with what AON kept. -/
def Obligations.EntriesAndPower : Prop :=
  ∀ (s : State) (dt t : Nat) (e : EntryRt) (temp : Int), let c := s.chip.pass dt
    let n := c.get pPWR F.PWR_PWR_POLICY_SENTRY_IDLE_S
    let sentry := fun (d : Chip) => ∃ (f : Chip) (pend : Nat), f.pwr.filterDue = false ∧ d = if pend = 0 then f else f.sentryWake pend false
    (c.pwr.entry = some e →
        (e.target = modeDormant → Does (.entryAck dt) s fun d => d.dormant = true ∧ d.aon.sleptAt = c.cycles ∧ d.aon.short = false)
        ∧ (e.target = modeSentry → c.pwr.filterDue = false → Does (.entryAck dt) s sentry)
        ∧ (e.since + msCycles (c.get pPWR F.PWR_PWR_POLICY_ENTRY_TMO) ≤ c.cycles →
          (e.target = modeDormant → Does (.entryForced dt) s fun d => d.dormant = true ∧ d.aon.sleptAt = c.cycles)
          ∧ (e.target = modeSentry → c.pwr.filterDue = false → Does (.entryForced dt) s sentry)))
    ∧ (c.mode = modeSentry → c.pwr.entry = none → n ≠ 0 → c.pwr.heard + secCycles n ≤ c.cycles → Does (.sentryIdle dt) s fun d =>
        d.pwr.entry = some ⟨modeDormant, c.cycles, false⟩ ∧ d.outs = c.outs ++ [.entryNotice modeDormant])
    ∧ (c.aon.waking = some t → Does (.pwrGood dt temp) s fun d => d.mode = modeBoot ∧ d.dormant = false ∧ d.aon.waking = none ∧ d.aon.restore = true
        ∧ d.aon.wakeTo = some (if (bitList (c.get pAON F.AON_WAKE_PEND_S) 11).any fun i => decide (c.wakeTarget i = 2) then modeRun else modeSentry)
        ∧ d.get pPWR F.PWR_DIE_TEMP_C = unsignedOf temp 8 ∧ d.warm = c.warm ∧ d.clk.xtalStart = some (c.cycles, 0, false)
        ∧ d.get pAON F.AON_WAKE_CAUSE_SRC = c.get pAON F.AON_WAKE_PEND_S ∧ d.get pAON F.AON_WAKE_PEND_S = 0)
    ∧ (c.aon.waking = some t → t + msCycles 10 ≤ c.cycles → Does (.pwrGoodTimeout dt) s fun d => d.aon.waking = none
        ∧ d.is pAON F.AON_WAKE_CAUSE_FAIL = true ∧ d.aon.failedAt = (if c.aon.retried then none else some c.cycles)
        ∧ (c.aon.retried = true → d.get pAON F.AON_WAKE_PEND_S = 0))
    ∧ (c.aon.failedAt = some t → c.dormant = true → c.aon.waking = none → t + msCycles 100 ≤ c.cycles → Does (.wakeRetry dt) s fun d =>
        d.aon.waking = some c.cycles ∧ d.aon.retried = true)
    ∧ (c.is pCINCH F.CINCH_CINCH_STATUS_PF_ACTIVE = true → Does (.pfClear dt) s fun d => d.is pCINCH F.CINCH_CINCH_STATUS_PF_ACTIVE = false
        ∧ d.is pXMEM F.XMEM_XSPI_STATUS_PF_BLOCK = false)

/-- WAKE_PIN, RTC_ALARM, TC10_WAKE_PULSE, POWER_RETURN, WAKE_AFTER_ENTRY, LOAD, CAPTURE (R330, R332, R333, R340): in DORMANT each source
with a target is latched and raises PWR_EN; the RTC is set and captured. -/
def Obligations.WakesAndClock : Prop :=
  ∀ (s : State) (dt pin port periods : Nat) (high edge : Bool) (req : Requester), let c := s.chip.pass dt
    let held := fun f => (c.get pAON f).testBit pin
    let woken := fun (i : Nat) (d : Chip) => d.aon.waking = some c.cycles ∧ (d.get pAON F.AON_WAKE_PEND_S).testBit i = true
    (c.dormant = true → c.aon.waking = none → c.aon.sleptAt + usCycles 500 ≤ c.cycles →
        (pin < 8 → c.wakeTarget pin ≠ 0 → held F.AON_WAKE_PIN_CFG_EN = true → held F.AON_WAKE_PIN_CFG_ACTIVE_HIGH = high →
          edge = true ∨ held F.AON_WAKE_PIN_CFG_LEVEL = true → c.get pAON F.AON_WAKE_PIN_CFG_FILTER + 1 ≤ periods → Does (.wakePin dt pin high edge periods) s (woken pin))
        ∧ (c.wakeTarget 8 ≠ 0 → c.is pAON F.AON_RTC_ALARM_HI_ALARM_EN = true → c.rtcSec = w48Of (c.reg pAON 0x16C) (c.reg pAON 0x170) →
          c.aon.rtcFired ≠ some c.rtcSec → Does (.rtcAlarm dt) s (woken 8))
        ∧ (c.wakeTarget 9 ≠ 0 → hasTc10 port = true → bitsAt (c.reg pAON 0x148) 0 6 = port → bitsAt (c.reg pAON 0x148) 6 1 = 1 → Does (.tc10WakePulse dt port) s (woken 9))
        ∧ (c.wakeTarget 10 ≠ 0 → c.aon.short = true → Does (.powerReturn dt) s (woken 10))
        ∧ (c.get pAON F.AON_WAKE_PEND_S ≠ 0 → Does (.wakeAfterEntry dt) s fun d => d.aon.waking = some c.cycles))
    ∧ (c.takes req → (Does (.load dt req) s fun d => d.rtcSec = w48Of (c.reg pAON 0x154) (c.reg pAON 0x158))
        ∧ Does (.capture dt req) s fun d => w48Of (d.reg pAON 0x160) (d.reg pAON 0x164) = c.rtcSec
          ∧ d.get pAON F.AON_RTC_CAP_FRAC_FRAC = c.rtcNow % 32768
          ∧ d.get pAON F.AON_RTC_CAP_FRAC_SEQ = (c.get pAON F.AON_RTC_CAP_FRAC_SEQ + 1) % 65536)

/-- FL_READ, FL_PROGRAM, ERASE_4K, ERASE_64K, FL_DONE, FL_ERASE_TIMEOUT (R336, R341, R355): a START queues one operation with what its check
found; at its end a read fills the buffer of its side, a program clears bits, an erase sets its range to FFh, no other byte of the memory
changes, and the next operation begins, an erase only where no power failure has come. -/
def Obligations.FlashCommands : Prop :=
  ∀ (s : State) (dt : Nat) (req : Requester) (ok : Bool) (o : FlashOp) (os : List FlashOp), let c := s.chip.pass dt
    let side := reqSide req
    let a := bitsAt (c.regAt (sideKey pXMEM 0x144 side)) 0 30
    let cmds : List (Nat × Nat × Instr) := [(1, bitsAt (c.regAt (sideKey pXMEM 0x148 side)) 0 9, .flRead dt req),
      (2, bitsAt (c.regAt (sideKey pXMEM 0x148 side)) 0 9, .flProgram dt req), (3, 4096, .erase4k dt req), (4, 65536, .erase64k dt req)]
    let status := fun (d : Chip) (k : Nat) => d.regAt (sideKey pXMEM 0x150 k)
    let pf := c.is pCINCH F.CINCH_CINCH_STATUS_PF_ACTIVE
    let begins := fun (d : Chip) => (os = [] → d.flOps = []) ∧ ∀ p ps, os = p :: ps →
      (pf = false → d.flOps = { p with judged := true } :: ps)
      ∧ (pf = true → p.judged = false → p.result = flOK → 2 < p.cmd → d.flOps = { p with judged := true, result := flPF } :: ps)
    let ended := fun (r : Nat) (d : Chip) => begins d ∧ d.latched pXMEM E.XMEM_FL_DONE ∧ (r ≠ flOK → d.latched pXMEM E.XMEM_FL_ERR)
      ∧ bitsAt (status d o.side) 4 4 = r ∧ bitsAt (status d o.side) 16 16 = (bitsAt (status c o.side) 16 16 + 1) % 65536
    (c.takes req → ∀ x ∈ cmds, Does x.2.2 s fun d => ∃ data, d.flOps = c.flOps ++ [⟨side, x.1, a, x.2.1, data, c.flCheck req x.1 a x.2.1, c.cycles, pf || c.flOps.isEmpty⟩]
        ∧ (x.1 ≠ 2 → data = []) ∧ bitsAt (status d side) 0 1 = 1)
    ∧ (c.flOps = o :: os → o.cmd ≤ 4 → o.result ≤ 5 → o.side < 2 →
        (o.result = flOK → o.cmd = 1 → o.len ≤ 256 → DoesExt (.flDone dt true) s fun d x => x = s.ext ∧ ended flOK d
          ∧ ∀ i, i < o.len → bitsAt (d.regAt (sideKey pXMEM (0x200 + i / 4 * 4) o.side)) (8 * (i % 4)) 8 = (flashByte s.ext.flash (o.addr + i)).toNat)
        ∧ (o.result = flOK → o.cmd = 2 → DoesExt (.flDone dt true) s fun d x => x.otp = s.ext.otp ∧ ended flOK d
          ∧ ∀ b, flashByte x.flash b = if o.addr ≤ b ∧ b < o.addr + o.data.length then flashByte s.ext.flash b &&& o.data.getD (b - o.addr) 0xFF else flashByte s.ext.flash b)
        ∧ (o.result = flOK → 2 < o.cmd → DoesExt (.flDone dt true) s fun d x => x.otp = s.ext.otp ∧ ended flOK d
          ∧ ∀ b, flashByte x.flash b = if o.addr ≤ b ∧ b < o.addr + o.len then 0xFF else flashByte s.ext.flash b)
        ∧ (o.result ≠ flOK → DoesExt (.flDone dt ok) s fun d x => x = s.ext ∧ ended o.result d)
        ∧ (o.result = flOK → 2 < o.cmd → o.at' + secCycles 5 ≤ c.cycles → DoesExt (.flEraseTimeout dt) s fun d x => x.otp = s.ext.otp ∧ ended flDEVICE d
          ∧ ∀ b, b < o.addr ∨ o.addr + o.len ≤ b → flashByte x.flash b = flashByte s.ext.flash b))

/-- OTP_READ, OTP_PROGRAM, OTP_DONE (R356, R357, R386): what refuses a command, what a read answers, and that a program only sets bits of
its word. -/
def Obligations.OtpCommands : Prop :=
  ∀ (s : State) (dt key : Nat) (req : Requester) (o : OtpOp), let c := s.chip.pass dt
    let a := c.get pBOOT F.BOOT_OTP_ADDR_A
    let cmds : List (Nat × (Nat → Instr)) := [(1, .otpRead dt req), (2, .otpProgram dt req)]
    let ended := fun (r : Nat) (d : Chip) => d.otpOp = none ∧ d.is pBOOT F.BOOT_OTP_STATUS_BUSY = false ∧ d.get pBOOT F.BOOT_OTP_STATUS_RESULT = r
      ∧ d.latched pBOOT E.BOOT_OTP_DONE
    (c.takes req → c.otpOp = none → ∀ x ∈ cmds,
        (key % 65536 ≠ 0x4F54 → Does (x.2 key) s (ended 1))
        ∧ (c.serviceOrFail = false → Does (x.2 0x4F54) s (ended 2))
        ∧ (c.serviceOrFail = true → x.1 = 2 → s.ext.otpClosed a = true → Does (x.2 0x4F54) s (ended 3))
        ∧ (c.serviceOrFail = true → x.1 = 1 ∨ s.ext.otpClosed a = false → Does (x.2 0x4F54) s fun d => d.otpOp = some ⟨x.1, a, c.reg pBOOT 0x1C4⟩
          ∧ d.is pBOOT F.BOOT_OTP_STATUS_BUSY = true))
    ∧ (c.otpOp = some o →
        (o.cmd = 1 → Does (.otpDone dt true) s fun d => ended 0 d ∧ d.reg pBOOT 0x1D0 = s.ext.otpWord o.addr)
        ∧ (o.cmd = 2 → DoesExt (.otpDone dt true) s fun d x => ended 0 d ∧ x.flash = s.ext.flash
          ∧ ∀ i, x.otpWord i = if i = o.addr then s.ext.otpWord i ||| o.data else s.ext.otpWord i)
        ∧ (o.cmd = 2 → DoesExt (.otpDone dt false) s fun d x => ended 4 d ∧ x.flash = s.ext.flash
          ∧ ∀ i, x.otpWord i &&& s.ext.otpWord i = s.ext.otpWord i ∧ (i ≠ o.addr → x.otpWord i = s.ext.otpWord i)))

/-- BOOT_SEQUENCE and FALLBACK_APPLY (R342, R351, R353, R354): the boot ends, in BOOT_FAIL or in another mode; without a directory it ends
in BOOT_FAIL with NO_DIRECTORY; the fallback lists take effect as one group commit, and what keeps them from it is reported. -/
def Obligations.BootAndFallback : Prop :=
  ∀ (s : State) (dt cap : Nat) (octal : Bool) (a b : ScribeTest) (grain : List Byte) (bad : Option Nat) (dir : BootDir) (h : ImgHead) (g : Chip) (ok : Bool), let c := s.chip.pass dt
    let lists := h.segs.filter fun i => decide (i.type = 16 ∨ i.type = 17)
    let base := (dir.region rgFALLBACK).1
    let start : ListRun := { chip := c.setPwr { c.pwr with fallbackDue := false }, ext := s.ext }
    let run := (start.segments h base 16).segments h base 17
    let failed := fun (d : Chip) => d.latched pBOOT E.BOOT_FALLBACK_FAIL
    (c.bootMay = true → DoesExt (.bootSequence dt cap octal grain a b bad) s fun d _ => d.bootFail = true ∨ d.mode ≠ modeBoot)
    ∧ (c.bootMay = true → c.aon.restore = false → c.get pSYS F.SYS_STRAPS_BOOT_MODE ≠ 3 → chooseDir s.ext.flash (2 ^ (20 + max 5 (min 10 cap))) = none →
        Does (.bootSequence dt cap octal grain a b none) s fun d => d.bootFail = true ∧ d.mode = modeBoot ∧ bitsAt (d.reg pBOOT 0x140) 0 4 = 5
          ∧ bitsAt (d.reg pBOOT 0x140) 8 4 = btNODIR ∧ d.is pXMEM F.XMEM_XSPI_STATUS_READY = true)
    ∧ (c.pwr.fallbackDue = true → c.mode = modeLimp →
        (c.boot.fallback = none → Does (.fallbackApply dt) s fun d => failed d ∧ d.pwr.fallbackDue = false)
        ∧ (c.boot.dir = some dir → c.boot.fallback = some h → c.is pXMEM F.XMEM_XSPI_STATUS_READY = true → lists.all (fun i => segOk s.ext.flash base i) = true →
          (run.good = true → run.chip.romGroup run.pages = (g, ok) → DoesExt (.fallbackApply dt) s fun d x => x = run.ext ∧ (ok = true → d = g) ∧ (ok = false → failed d))
          ∧ (run.good = false → DoesExt (.fallbackApply dt) s fun d _ => failed d)))

/-- HEARTBEAT, FW_STOPPED, CHECKPOINT, ECHO, VERSION, HEALTH, TRACE_LEVEL, CHECKPOINT_NOW, UNKNOWN_SERVICE, RSP_ACK, MLOG_ACK, MEMORY_SCRUB,
AGREE_SELFTEST (R358 to R361, R366, R374): what firmware's signs of life show, and how the mailbox answers each service. What a checkpoint
keeps is the model's choice (log entry 129). -/
def Obligations.TrestleServices : Prop :=
  ∀ (s : State) (dt seq service : Nat) (req : Requester) (value : Word) (e : MlogEntry) (es : List MlogEntry) (area : TrMem) (x : MbxReq) (won : SampleTest), let c := s.chip.pass dt
    let key := fun off => sideKey pTRESTLE off (reqCode req)
    let word := fun (d : Chip) (i : Nat) => d.regAt (key (0x280 + 4 * i))
    let sent := fun (i : Nat) => c.regAt (key (0x200 + 4 * i))
    let st := fun (d : Chip) => d.regAt (key 0x2C0)
    let answer := fun (result n : Nat) (d : Chip) => d.latched pTRESTLE E.TRESTLE_MBX_RSP ∧ d.mbxReq req = none ∧ bitsAt (st d) 31 1 = 1
      ∧ bitsAt (st d) 0 16 = seq % 65536 ∧ bitsAt (st d) 16 8 = result ∧ bitsAt (st d) 24 5 = n
    let level := bitsAt (sent 0) 0 4
    let cnt := fun (d : Chip) (i : Nat) => d.cntAt (cntKey pTRESTLE i)
    (c.dark = false → c.trRuns = true →
        (Does (.heartbeat dt .trestle value) s fun d => d.get pTRESTLE F.TRESTLE_HB_STATUS_COUNT = (c.get pTRESTLE F.TRESTLE_HB_STATUS_COUNT + 1) % 65536
          ∧ d.tr.beatAt = c.cycles ∧ d.trIs F.TRESTLE_TR_STATUS_STOPPED = false ∧ (c.trIs F.TRESTLE_TR_STATUS_STOPPED = true → d.latched pTRESTLE E.TRESTLE_FW_RESUMED)
          ∧ (c.trIs F.TRESTLE_TR_STATUS_STOPPED = false → c.tr.work = none → d.tr.paused = false))
        ∧ (Does (.checkpoint dt .trestle seq) s fun d => d.get pTRESTLE F.TRESTLE_CKPT_STATUS_SEQ = seq % 65536 ∧ d.tr.ckptAt = c.cycles
          ∧ d.tr.ckpt = some ⟨c.nextHalf, seq % 65536, c.tr.trace, c.tr.subs⟩
          ∧ (c.trMode = trTRIPLE ∨ c.trMode = trPAIR → c.tr.soloDue = true → d.trMode = trSOLO)
          ∧ (mbxSide req = true → c.mbxReq req = some x → x.service = 5 → d.mbxReq req = none ∧ word d 0 = BitVec.ofNat 32 (seq % 65536))))
    ∧ (c.trMode ≠ trOFF → c.trIs F.TRESTLE_TR_STATUS_STOPPED = false → c.tr.beatAt + msCycles 1 ≤ c.cycles → Does (.fwStopped dt) s fun d =>
        d.trIs F.TRESTLE_TR_STATUS_STOPPED = true ∧ d.latched pTRESTLE E.TRESTLE_FW_STOPPED ∧ cnt d K.TRESTLE_FW_STOPPED = cnt c K.TRESTLE_FW_STOPPED + 1)
    ∧ (c.takes req → mbxSide req = true → c.mbxReq req = none → c.fwRuns = true →
        (Does (.echo dt req seq) s fun d => answer 0 16 d ∧ ∀ i, i < 16 → word d i = sent i)
        ∧ (Does (.version dt req seq) s fun d => answer 0 3 d ∧ word d 0 = c.reg pBOOT 0x148)
        ∧ (Does (.health dt req seq) s fun d => answer 0 3 d ∧ word d 0 = BitVec.ofNat 32 (c.mono / 1000000000))
        ∧ (level ≤ 7 → Does (.traceLevel dt req seq) s fun d => answer 0 1 d ∧ d.tr.trace = level ∧ word d 0 = BitVec.ofNat 32 c.tr.trace)
        ∧ (7 < level → Does (.traceLevel dt req seq) s fun d => answer 2 0 d ∧ d.tr.trace = c.tr.trace)
        ∧ (Does (.checkpointNow dt req seq) s fun d => ∃ y, d.mbxReq req = some y ∧ y.seq = seq % 65536 ∧ y.service = 5)
        ∧ (5 < service % 256 → Does (.unknownService dt req seq service) s (answer 1 0)))
    ∧ (c.takes req →
        (bitsAt (st c) 31 1 = 1 → bitsAt (st c) 0 16 = seq → Does (.rspAck dt req seq) s fun d => st d = 0)
        ∧ (c.tr.mlog = e :: es → e.seq < 65536 → Does (.mlogAck dt req e.seq) s fun d => d.tr.mlog = es))
    ∧ (c.trRuns = true →
        (Does (.memoryScrub dt area .corrected) s fun d => cnt d K.TRESTLE_MEM_CORR = cnt c K.TRESTLE_MEM_CORR + 1 ∧ d.trMode = c.trMode)
        ∧ (Does (.memoryScrub dt .inactiveBank .uncorrectable) s fun d => d.tr.bankBad = true ∧ d.trMode = c.trMode)
        ∧ (Does (.memoryScrub dt .activeBank .uncorrectable) s fun d => d.trMode = trHALTED ∧ d.tr.cause = mkMEM)
        ∧ (Does (.memoryScrub dt .data .uncorrectable) s fun d => d.trMode = trRESTART ∧ d.tr.cause = mkMEM))
    ∧ (c.trMode = trTRIPLE → c.trIs F.TRESTLE_AGREE_CFG_EXCH_EN = true →
        let wins := won.tc0 && won.tc1 && won.tc2
        (c.testDue = true → Does (.agreeSelftest dt won) s fun d => d.tr.testAt = some c.cycles
          ∧ (wins = true → d = c.setTr { c.tr with testAt := some c.cycles })
          ∧ (wins = false → d.trIs F.TRESTLE_TR_STATUS_FALLBACK_INPUTS = true ∧ cnt d K.TRESTLE_AGREE_SELFTEST_FAIL = cnt c K.TRESTLE_AGREE_SELFTEST_FAIL + 1))
        ∧ (c.testDue = false → Does (.agreeSelftest dt won) s fun d => d = c))

/-- MISMATCH, RESYNC_DONE, CHECKER_FAULT, WARM_RESTART, SPLIT, HANDOVER_POINT, HANDOVER_TIMEOUT, SPLIT_DONE, SPARE_VIOLATION, REJOIN,
REJOIN_DONE, HALT (R363 to R365, R368 to R373, R376 to R378): the modes of the cluster; what Scribe sees of three legs, the odd one of which
is the leg that differs from the two others; when a copy passes its test. What a restart keeps of firmware's state and the group of a
mismatch are the model's reading (log entries 129, 141). -/
def Obligations.TrestleModes : Prop :=
  ∀ (s : State) (dt leg group scribe held : Nat) (odd : Option Nat) (req : Requester) (parity : Bool) (o p : LegOutputs) (v w : ScribeTest) (x : TrWork) (t : Nat), let c := s.chip.pass dt
    let m := c.trMode
    let is := fun (f : Fld) => c.trIs f
    let cnt := fun (d : Chip) (i : Nat) => d.cntAt (cntKey pTRESTLE i)
    let result := fun (d : Chip) => d.get pTRESTLE F.TRESTLE_TR_CMD_STATUS_RESULT
    let limped := fun (cause mode : Nat) (d : Chip) => ∃ e : Chip, d = e.limpCause cause ∧ e.trMode = mode
    let a := scribePasses v w
    let b := scribePasses w v
    let sees := fun (o : LegOutputs) => legVerdict o c.comparedLegs
    let recent := (c.tr.checkers.filter fun t => decide (c.cycles ≤ t + msCycles 10)).length
    let target := if c.mode = modeSentry then trSOLO else if a && b && !c.tr.noTriple then trTRIPLE else trPAIR
    (m = trTRIPLE →
        (is F.TRESTLE_TR_STATUS_RESYNC = false → sees o = some (some leg, group) → (sees p).map Prod.fst = some (some leg) → Does (.mismatch dt o p) s fun d =>
          d.trMode = trTRIPLE ∧ d.trIs F.TRESTLE_TR_STATUS_RESYNC = true ∧ d.tr.odd = some leg ∧ d.latched pTRESTLE E.TRESTLE_MISMATCH ∧ cnt d K.TRESTLE_MISMATCHES = cnt c K.TRESTLE_MISMATCHES + 1)
        ∧ (sees o = some (odd, group) → (sees p).map Prod.fst = some odd → odd = none ∨ is F.TRESTLE_TR_STATUS_RESYNC = true →
          Does (.mismatch dt o p) s (limped lcDOUBLE trRESTART))
        ∧ (sees o = none → sees p = none → Does (.mismatch dt o p) s fun d => d = c)
        ∧ ((sees o).map Prod.fst ≠ (sees p).map Prod.fst → Does (.mismatch dt o p) s fun d => d.trMode = (if 2 ≤ recent then trHALTED else trRESTART)
          ∧ d.latched pTRESTLE E.TRESTLE_CHECKER_FAULT ∧ d.tr.cause = mkCHECKER)
        ∧ (is F.TRESTLE_TR_STATUS_RESYNC = true → Does (.resyncDone dt) s fun d => d.trIs F.TRESTLE_TR_STATUS_RESYNC = false ∧ d.tr.odd = none
          ∧ cnt d K.TRESTLE_RESYNCS = cnt c K.TRESTLE_RESYNCS + 1)
        ∧ (Does (.checkerFault dt parity leg scribe group) s fun d => d.trMode = (if 2 ≤ recent then trHALTED else trRESTART) ∧ d.latched pTRESTLE E.TRESTLE_CHECKER_FAULT
          ∧ d.tr.cause = if parity then mkPARITY else mkCHECKER))
    ∧ (m = trPAIR → (sees (if c.get pTRESTLE F.TRESTLE_TR_STATUS_PAIR_CHECKER = 0 then o else p) ≠ none → Does (.mismatch dt o p) s fun d =>
          d.trMode = trRESTART ∧ d.tr.cause = mkMISMATCH)
        ∧ (c.tr.violated = some t → is F.TRESTLE_TR_STATUS_RESYNC = true → Does (.resyncDone dt) s fun d => d.trMode = trTRIPLE ∧ d.tr.violated = none
          ∧ d.trIs F.TRESTLE_TR_STATUS_RESYNC = false ∧ cnt d K.TRESTLE_RESYNCS = cnt c K.TRESTLE_RESYNCS + 1)
        ∧ (is F.TRESTLE_TR_STATUS_SPLIT = true → Does (.spareViolation dt) s fun d => d.trIs F.TRESTLE_TR_STATUS_SPLIT = false ∧ d.tr.violated = some c.cycles
          ∧ d.tr.work = none ∧ cnt d K.TRESTLE_SPARE_VIOLATION = cnt c K.TRESTLE_SPARE_VIOLATION + 1)
        ∧ (c.trAtBoundary 2 = true → Does (.rejoinDone dt) s fun d => d.trMode = trTRIPLE ∧ d.trIs F.TRESTLE_TR_STATUS_SPLIT = false ∧ d.tr.work = none
          ∧ d.trIs F.TRESTLE_TR_STATUS_RESYNC = false ∧ d.latched pTRESTLE E.TRESTLE_REJOIN_DONE))
    ∧ (m = trRESTART →
        (a = true ∨ b = true → c.tr.noTriple = true ∨ (a && b) = true → Does (.warmRestart dt held v w) s fun d => d.trMode = target
          ∧ d.tr.trace = (match c.tr.ckpt with | some k => k.trace | none => 0) ∧ cnt d K.TRESTLE_WARM_RESTARTS = cnt c K.TRESTLE_WARM_RESTARTS + 1 ∧ cnt d K.TRESTLE_HELD_DISCARDED = cnt c K.TRESTLE_HELD_DISCARDED + BitVec.ofNat 48 held)
        ∧ (a ≠ b → c.tr.noTriple = false → Does (.warmRestart dt held v w) s (limped lcRETEST target))
        ∧ (a = false → b = false → Does (.warmRestart dt held v w) s (limped lcRETEST trHALTED)))
    ∧ (m = trTRIPLE → c.trAtBoundary 1 = true → is F.TRESTLE_TR_STATUS_RESYNC = false → Does (.splitDone dt) s fun d => d.trMode = trPAIR
        ∧ d.trIs F.TRESTLE_TR_STATUS_SPLIT = true ∧ d.tr.work = none ∧ d.latched pTRESTLE E.TRESTLE_SPLIT_DONE ∧ result d = tcOK)
    ∧ (c.tr.work = some x → (x.handover = none → is F.TRESTLE_TR_STATUS_RESYNC = false → Does (.handoverPoint dt) s fun d =>
          d.tr.work = some { x with handover := some c.cycles } ∧ d.tr.paused = decide (x.kind = 3))
        ∧ (x.kind = 1 → x.handover = none → x.since + msCycles (c.get pTRESTLE F.TRESTLE_SPLIT_CFG_HANDOVER_TMO_MS) ≤ c.cycles → Does (.handoverTimeout dt) s fun d =>
          d.tr.work = none ∧ result d = tcTIMEOUT ∧ d.trMode = m))
    ∧ (c.takes req →
        (∀ i ∈ [Instr.split dt req 0, .rejoin dt req 0, .halt dt req 0], Does i s fun d => result d = tcKEY ∧ d.trMode = m)
        ∧ (c.tr.work = none → c.mode = modeRun ∨ c.mode = modeService → m = trTRIPLE → is F.TRESTLE_TR_STATUS_TRIPLE_AVAIL = true → Does (.split dt req 0x5452) s fun d =>
          d.tr.work = some ⟨1, c.cycles, none, false⟩ ∧ d.trIs F.TRESTLE_TR_CMD_STATUS_BUSY = true)
        ∧ (c.tr.work = none → m = trPAIR → is F.TRESTLE_TR_STATUS_SPLIT = true → Does (.rejoin dt req 0x5452) s fun d =>
          d.tr.work = some ⟨2, c.cycles, none, false⟩ ∧ d.trIs F.TRESTLE_TR_CMD_STATUS_BUSY = true)
        ∧ (c.mode = modeService → m ≠ trOFF → Does (.halt dt req 0x5452) s fun d => d.trMode = trHALTED ∧ d.tr.cause = mkHALT ∧ result d = tcOK))
    ∧ (∀ (o : LegOutputs) (k : Nat) (v w : ScribeTest), let same := fun (i j : Nat) => legOut o i = legOut o j
        (same 0 1 → same 1 2 → legVerdict o [0, 1, 2] = none)
        ∧ (k < 3 → (∀ i, i < 3 → ∀ j, j < 3 → i ≠ k → j ≠ k → same i j ∧ ¬ same i k) → ∃ g, g < 7 ∧ legVerdict o [0, 1, 2] = some (some k, g)
          ∧ ∃ i, i < 3 ∧ i ≠ k ∧ (legOut o i).getD g 0 ≠ (legOut o k).getD g 0)
        ∧ (¬ same 0 1 → ¬ same 1 2 → ¬ same 0 2 → ∃ g, legVerdict o [0, 1, 2] = some (none, g))
        ∧ (scribePasses v w = true ↔ (∀ k ∈ v.wrong, 585 ≤ k) ∧ v.noisy = false ∧ v.disagrees = false ∧ w.disagrees = false))

/-- DERIVE, CLEAR, SEAL, UNSEAL, MAC, DECLARE_SUCCESSOR, WITHDRAW_SUCCESSOR, ENROL (R385, R391, R394, R399): a START joins the queue of
Prisil unless its side has an operation in progress, which is then answered BUSY (log entry 61). REMASK and GLITCH (R392, R393, R397); that
the faults come as operands is log entry 86. -/
def Obligations.PrisilRequests : Prop :=
  ∀ (s : State) (dt slot parent kind key i : Nat) (checked : Bool) (req : Requester) (faults : List Nat), let c := s.chip.pass dt
    let status := fun (d : Chip) => d.regAt (sideKey pPRISIL 0x16C (reqSide req))
    let withheld := c.is pPRISIL F.PRISIL_STATUS_P_WITHHELD
    let x := c.slot i
    let cmds : List (Option Word × Instr) := [(some (cmdWord 1 slot parent kind checked), .derive dt req slot parent kind checked), (some (cmdWord 2 slot 0 0 false), .clear dt req slot),
      (some (cmdWord 3 slot 0 0 false), .seal dt req slot), (some (cmdWord 4 slot 0 0 false), .unseal dt req slot), (some (cmdWord 5 slot 0 0 false), .mac dt req slot),
      (some (cmdWord 6 0 0 0 false), .declareSuccessor dt req), (some (cmdWord 7 0 0 0 false), .withdrawSuccessor dt req), (none, .enrol dt req key)]
    (c.takes req → ∀ e ∈ cmds,
        (bitsAt (status c) 0 1 = 0 → Does e.2 s fun d => bitsAt (status d) 0 1 = 1 ∧ ∃ o, d.prisilOps = c.prisilOps ++ [o] ∧ o.cmd = e.1 ∧ o.req = req ∧ o.withheld = withheld
          ∧ (e.1 = none → o.key = key % 65536))
        ∧ (bitsAt (status c) 0 1 = 1 → Does e.2 s fun d => d.prisilOps = c.prisilOps ∧ bitsAt (status d) 4 4 = prBUSY ∧ bitsAt (status d) 0 1 = 1))
    ∧ ((∀ j ∈ faults, (c.slot j).state ≠ slLIVE) → Does (.remask dt faults) s fun d => d = c)
    ∧ (x.state = slLIVE → x.checked = true → Does (.remask dt [i]) s fun d => d.slot i = { x with state := slINVALID } ∧ d.latched pPRISIL E.PRISIL_SLOT_FAULT
        ∧ d.cntAt (cntKey pPRISIL K.PRISIL_CHECK_FAIL) = c.cntAt (cntKey pPRISIL K.PRISIL_CHECK_FAIL) + 1 ∧ ∀ j, j ≠ i → d.slot j = c.slot j)
    ∧ (x.state = slLIVE → x.checked = false → c.shareFaults = [] → Does (.remask dt [i]) s fun d => d.slot i = { x with state := slINVALID }
        ∧ d.latched pPRISIL E.PRISIL_SLOT_FAULT ∧ d.shareFaults = [(i, c.cycles)]
        ∧ d.cntAt (cntKey pPRISIL K.PRISIL_SHARE_FAULT) = c.cntAt (cntKey pPRISIL K.PRISIL_SHARE_FAULT) + 1)
    ∧ (c.dark = false → Does (.glitch dt) s fun d => ∃ e : Chip, d = e.quarantine 2 false ∧ e.latched pPRISIL E.PRISIL_GLITCH
        ∧ e.cntAt (cntKey pPRISIL K.PRISIL_GLITCH) = c.cntAt (cntKey pPRISIL K.PRISIL_GLITCH) + 1)

/-- CMD_DONE (R385, R387 to R391, R394, R398): what each operation of Prisil leaves when it ends, and the results that refuse it. The order
of the refusals is the model's choice (log entry 61). -/
def Obligations.PrisilOperationsEnd : Prop :=
  ∀ (s : State) (dt : Nat) (o : PrisilOp) (os : List PrisilOp) (word : Word) (root : List Byte) (dir : BootDir), let c := s.chip.pass dt
    let side := reqSide o.req
    let op := bitsAt word 0 4
    let slot := bitsAt word 4 6
    let x := c.slot slot
    let arg := c.pGet side
    let label := c.pBytes side 0x170 (arg F.PRISIL_CMD_ARG_LABEL_LEN)
    let ends := fun (r : Nat) (d : Chip) => d.prisilOps = os ∧ bitsAt (d.regAt (sideKey pPRISIL 0x16C side)) 4 4 = r ∧ bitsAt (d.regAt (sideKey pPRISIL 0x16C side)) 0 1 = 0
      ∧ d.latched pPRISIL E.PRISIL_CMD_DONE
    let done := fun (P : Chip → Prop) => Does (.cmdDone dt false) s P
    c.prisilOps = o :: os →
    (o.withheld = true → done (ends prWITHHELD))
    ∧ (o.withheld = false → o.cmd = some word → c.root = none → done (ends prNOROOT))
    ∧ (o.withheld = false → o.cmd = some word → c.root = some root →
        (side = 0 → op = 1 ∨ op = 2 ∨ op = 6 ∨ op = 7 → done fun d => ends prREQUESTER d ∧ d.slots = c.slots ∧ d.succ = c.succ)
        ∧ (side = 1 → op = 2 → slot ≠ 0 → done fun d => ends prOK d ∧ d.slot slot = {} ∧ ∀ i, i ≠ slot → d.slot i = c.slot i)
        ∧ (side = 1 → op = 1 → slot ≠ 0 → bitsAt word 16 3 = 1 → arg F.PRISIL_CMD_ARG_POLICY < 64 → arg F.PRISIL_CMD_ARG_LABEL_LEN ≠ 0 →
          arg F.PRISIL_CMD_ARG_LABEL_LEN ≤ 32 → x.state = slEMPTY → done fun d => ends prOK d ∧ (d.slot slot).state = slLIVE
            ∧ (d.slot slot).policy = arg F.PRISIL_CMD_ARG_POLICY ∧ (d.slot slot).kind = 1
            ∧ (d.slot slot).value = kdf (branchOf root 0 c.measured) label (slotCtx (arg F.PRISIL_CMD_ARG_POLICY) (bitsAt word 19 1 == 1)))
        ∧ (3 ≤ op → op ≤ 5 → c.useRefused side slot op ≠ prOK → done fun d => ends (c.useRefused side slot op) d ∧ d.slots = c.slots)
        ∧ (c.useRefused side slot op = prOK →
          (op = 3 → done fun d => ends prOK d ∧ d.slots = c.slots ∧ d.cntAt (cntKey pPRISIL K.PRISIL_SEALS) = c.cntAt (cntKey pPRISIL K.PRISIL_SEALS) + 1)
          ∧ (op = 4 → done fun d => d.slots = c.slots ∧ (ends prOK d ∨ ends prTAGFAIL d))
          ∧ (op = 5 → done fun d => ends prOK d ∧ d.slots = c.slots))
        ∧ (side = 1 → op = 6 → arg F.PRISIL_CMD_ARG2_SUCC_FW = 0 → arg F.PRISIL_CMD_ARG2_SUCC_SET = 0 → arg F.PRISIL_CMD_ARG2_SUCC_ROM = 0 → done fun d =>
          ends prOK d ∧ d.succ = some c.measured ∧ d.is pPRISIL F.PRISIL_STATUS_P_SUCC_DECLARED = true)
        ∧ (side = 1 → op = 7 → done fun d => ends prOK d ∧ d.succ = none ∧ d.is pPRISIL F.PRISIL_STATUS_P_SUCC_DECLARED = false))
    ∧ (o.withheld = false → o.cmd = none → side = 0 →
        (o.key ≠ 0x454E → done (ends prKEY))
        ∧ (o.key = 0x454E → s.ext.enrolled = true ∨ c.mode ≠ modeBoot → done (ends prMODE))
        ∧ (o.key = 0x454E → s.ext.enrolled = false → c.mode = modeBoot → c.boot.dir = some dir → (dir.region rgHELPER).2 ≠ 0 → DoesExt (.cmdDone dt false) s fun d y =>
          ends prOK d ∧ y.enrolled = true ∧ d.is pPRISIL F.PRISIL_STATUS_P_ENROLLED = true))

/-- VERIFY, ARM_NEXT_START, DISARM, PREPARE_HITLESS, CANCEL_PREP, CONFIRM, REVERT, AUTO_CONFIRM (R402 to R404, R407, R409, R411, R414): what
a write of UPD_CMD starts, does or is refused with. The order of the refusals is the model's choice (log entry 62). -/
def Obligations.UpdateCommands : Prop :=
  ∀ (s : State) (dt key target : Nat) (req : Requester) (dir : BootDir) (h : ImgHead), let c := s.chip.pass dt
    let result := fun (d : Chip) => d.get pUPD F.UPD_UPD_CMD_STATUS_RESULT
    let handled := fun (r : Nat) (d : Chip) => result d = r ∧ d.get pUPD F.UPD_UPD_CMD_STATUS_SEQ = (c.get pUPD F.UPD_UPD_CMD_STATUS_SEQ + 1) % 65536
    let turnedAway := fun (r : Nat) (d : Chip) (y : Ext) => handled r d ∧ y = s.ext ∧ d.stage = c.stage ∧ d.upd = c.upd ∧ d.boot = c.boot
    let began := fun (cmd t : Nat) (d : Chip) => d.is pUPD F.UPD_UPD_CMD_STATUS_BUSY = true ∧ d.upd.cmd = some (cmd, t) ∧ d.boot = c.boot
    let trial := c.is pUPD F.UPD_UPD_STATUS_TRIAL
    let k := 0x5550
    c.takes req → target < 3 →
    (key % 65536 ≠ k → ∀ i ∈ [Instr.verify dt req key, .armNextStart dt req target key, .disarm dt req key, .prepareHitless dt req target key,
        .cancelPrep dt req key, .confirm dt req key, .revert dt req key], DoesExt i s (turnedAway uqKEY))
    ∧ (c.upd.cmd ≠ none → ∀ i ∈ [Instr.verify dt req k, .armNextStart dt req target k, .disarm dt req k, .prepareHitless dt req target k,
        .cancelPrep dt req k, .confirm dt req k, .revert dt req k], DoesExt i s (turnedAway uqBUSY))
    ∧ (c.upd.cmd = none → c.boot.dir = none → ∀ i ∈ [Instr.verify dt req k, .armNextStart dt req target k, .disarm dt req k, .prepareHitless dt req target k,
        .cancelPrep dt req k, .confirm dt req k, .revert dt req k], DoesExt i s (turnedAway uqSTATE))
    ∧ (c.upd.cmd = none → c.boot.dir = some dir →
        (c.stage = usSTAGED ∨ c.stage = usVERIFIED ∨ c.stage = usREJECTED → Does (.verify dt req k) s fun d => began 1 0 d ∧ d.stage = usVERIFYING)
        ∧ (c.stage ≠ usSTAGED → c.stage ≠ usVERIFIED → c.stage ≠ usREJECTED → DoesExt (.verify dt req k) s (turnedAway uqSTATE))
        ∧ (c.stage = usVERIFIED → c.upd.image = some h → (h.kind = 1 ↔ target = 0) →
          (target = 0 → trial = true → DoesExt (.armNextStart dt req target k) s (turnedAway uqTRIAL))
          ∧ (target ≠ 0 ∨ trial = false →
            (c.pfActive = true → DoesExt (.armNextStart dt req target k) s (turnedAway uqPF))
            ∧ (c.pfActive = false → DoesExt (.armNextStart dt req target k) s fun d y => began 2 target d ∧ d.stage = usVERIFIED
              ∧ y = s.ext.eraseFlash (dir.target target).1 (sectorBytes (dir.target target) h.total)))
          ∧ (c.runOrService = false → DoesExt (.prepareHitless dt req target k) s (turnedAway uqMODE))
          ∧ (target = 0 → c.runOrService = true → trial = false → c.pfActive = false → c.tr.work = none → c.trMode = trTRIPLE →
            c.trIs F.TRESTLE_TR_STATUS_TRIPLE_AVAIL = true →
            (∀ g ∈ h.segs, segOk (copyImage s.ext dir (dir.target 0) h.total).flash (dir.target 0).1 g) → DoesExt (.prepareHitless dt req target k) s fun d y =>
              handled uqOK d ∧ d.stage = usPREPARING ∧ y = copyImage s.ext dir (dir.target 0) h.total ∧ d.tr.work = some ⟨1, c.cycles, none, true⟩))
        ∧ (c.stage = usVERIFIED → c.upd.image = some h → (h.kind = 1 ↔ target ≠ 0) → DoesExt (.armNextStart dt req target k) s (turnedAway uqKIND))
        ∧ (c.stage ≠ usVERIFIED → DoesExt (.armNextStart dt req target k) s (turnedAway uqSTATE) ∧ DoesExt (.prepareHitless dt req target k) s (turnedAway uqSTATE))
        ∧ (c.stage = usARMED → c.pfActive = false → Does (.disarm dt req k) s fun d => began 3 0 d ∧ d.stage = usARMED)
        ∧ (c.stage = usPREPARING ∨ c.stage = usREADY → Does (.cancelPrep dt req k) s fun d => handled uqOK d ∧ d.stage = usVERIFIED ∧ d.upd.cmd = none)
        ∧ (trial = true → c.get pUPD F.UPD_UPD_STATUS_RUN_SLOT = c.get pUPD F.UPD_UPD_STATUS_ACTIVE_SLOT → c.stage ≠ usPREPARING → c.stage ≠ usREADY →
          c.runOrService = true → c.pfActive = false → Does (.confirm dt req k) s (began 6 0) ∧ (c.autoDue = true → Does (.autoConfirm dt) s (began 6 0)))
        ∧ (trial = false → DoesExt (.confirm dt req k) s (turnedAway uqSTATE) ∧ Does (.autoConfirm dt) s fun d => d = c)
        ∧ (dir.trial = true → c.live pUPD = true → c.pfActive = false → DoesExt (.revert dt req k) s fun d y => handled uqOK d ∧ d.latched pUPD E.UPD_REVERTED
          ∧ y = (writeDir s.ext dir (1 - dir.active) false 0).1
          ∧ ∃ e, d.boot.dir = some e ∧ e.active = 1 - dir.active ∧ e.trial = false ∧ e.seq = (dir.seq + 1) % 2 ^ 32 ∧ e.copy = 1 - dir.copy)
        ∧ (dir.trial = false → DoesExt (.revert dt req k) s (turnedAway uqSTATE)))

/-- VERIFY_DONE, ARM_COMPLETE, DISARM_COMPLETE, PREP_READY, SPARE_READY, NOT_READY, ACTIVATION_DIRECTORY_WRITE, CONFIRMED (R379, R402 to
R404, R407, R409): what the end of each operation leaves. -/
def Obligations.UpdateOperationsEnd : Prop :=
  ∀ (s : State) (dt target n m : Nat) (ack : Bool) (dir : BootDir) (h : ImgHead) (x : TrWork), let c := s.chip.pass dt
    let result := fun (d : Chip) => d.get pUPD F.UPD_UPD_CMD_STATUS_RESULT
    let ended := fun (r : Nat) (d : Chip) => result d = r ∧ d.is pUPD F.UPD_UPD_CMD_STATUS_BUSY = false ∧ d.upd.cmd = none
      ∧ d.get pUPD F.UPD_UPD_CMD_STATUS_SEQ = (c.get pUPD F.UPD_UPD_CMD_STATUS_SEQ + 1) % 65536
    let cnt := fun (d : Chip) (i : Nat) => d.cntAt (cntKey pUPD i)
    let bad := verifyImage s.ext (dir.region rgSTAGING).1 (dir.region rgSTAGING).2
    let v := c.get pBOOT F.BOOT_FW_SECVER_SEC_VER
    (c.boot.dir = some dir →
      (c.upd.cmd = some (1, n) →
        (Does (.verifyDone dt true) s fun d => ended uqOK d ∧ d.latched pUPD E.UPD_VERIFY_DONE
          ∧ (bad = 0 → d.stage = usVERIFIED ∧ d.upd.image = some (headAt s.ext.flash (dir.region rgSTAGING).1) ∧ cnt d K.UPD_VERIFY_OK = cnt c K.UPD_VERIFY_OK + 1)
          ∧ (bad ≠ 0 → d.stage = usREJECTED ∧ d.upd.image = none ∧ d.get pUPD F.UPD_STAGED_INFO_REASON = bad ∧ cnt d K.UPD_VERIFY_FAIL = cnt c K.UPD_VERIFY_FAIL + 1))
        ∧ Does (.verifyDone dt false) s fun d => ended uqFLASH d ∧ d.stage = stagedOrEmpty s.ext dir)
      ∧ (c.upd.cmd = some (2, target) → target < 3 → c.upd.image = some h → c.stage = usVERIFIED →
        (c.pfActive = false → DoesExt (.armComplete dt true) s fun d y => ended uqOK d ∧ d.stage = usARMED ∧ d.get pUPD F.UPD_STAGED_INFO_ARM_TARGET = target
          ∧ y = (s.ext.eraseRecord dir).program (recordAt dir) (recordBytes target h))
        ∧ (c.pfActive = true → Does (.armComplete dt true) s fun d => ended uqPF d ∧ d.stage = usVERIFIED)
        ∧ Does (.armComplete dt false) s fun d => ended uqFLASH d ∧ d.stage = usVERIFIED)
      ∧ (c.upd.cmd = some (3, n) →
        (c.pfActive = false → DoesExt (.disarmComplete dt true) s fun d y => ended uqOK d ∧ d.stage = usVERIFIED
          ∧ d.get pUPD F.UPD_STAGED_INFO_ARM_TARGET = 0 ∧ y = s.ext.eraseRecord dir)
        ∧ (c.pfActive = true → DoesExt (.disarmComplete dt true) s fun d y => ended uqPF d ∧ d.stage = c.stage ∧ y = s.ext))
      ∧ (c.upd.dirDue = true → DoesExt (.activationDirectoryWrite dt) s fun d y => d.upd.dirDue = false
        ∧ y = (writeDir s.ext dir (c.get pUPD F.UPD_UPD_STATUS_RUN_SLOT) true 3).1 ∧ d.get pUPD F.UPD_UPD_STATUS_TRIAL_LEFT = 3
        ∧ d.is pUPD F.UPD_UPD_STATUS_TRIAL = true ∧ d.get pUPD F.UPD_UPD_STATUS_ACTIVE_SLOT = c.get pUPD F.UPD_UPD_STATUS_RUN_SLOT)
      ∧ (c.upd.cmd = some (6, n) → c.pfActive = false →
        (v ≤ s.ext.thermCount → DoesExt (.confirmed dt ack true) s fun d y => ended uqOK d ∧ d.latched pUPD E.UPD_CONFIRMED
          ∧ d.is pUPD F.UPD_UPD_STATUS_TRIAL = false ∧ y = (writeDir s.ext dir dir.active false 0).1 ∧ cnt d K.UPD_CONFIRMS = cnt c K.UPD_CONFIRMS + 1)
        ∧ (s.ext.thermCount < v → DoesExt (.confirmed dt true true) s fun d y => ended uqOK d ∧ d.latched pUPD E.UPD_BURN_DONE
          ∧ d.latched pUPD E.UPD_CONFIRMED ∧ d.is pUPD F.UPD_UPD_STATUS_TRIAL = false ∧ cnt d K.UPD_BURNS = cnt c K.UPD_BURNS + 1 ∧ y.otp = (s.ext.burnTherm v).otp)
        ∧ (s.ext.thermCount < v → Does (.confirmed dt false true) s (ended uqFWSTOPPED))))
    ∧ (c.stage = usPREPARING → c.trMode = trPAIR → c.trIs F.TRESTLE_TR_STATUS_SPLIT = true →
        (Does (.prepReady dt true) s fun d => d.stage = usREADY ∧ d.latched pUPD E.UPD_PREP_READY)
        ∧ Does (.prepReady dt false) s fun d => d.stage = usVERIFIED ∧ d.latched pUPD E.UPD_ACT_FAIL)
    ∧ (c.stage ≠ usPREPARING → ∀ ok, Does (.prepReady dt ok) s fun d => d = c)
    ∧ (c.tr.work = some x → x.kind = 3 → x.handover = some m →
        (m ≤ c.tr.ckptAt → c.readyLate = false → c.trMode = trPAIR →
          (c.tr.bankBad = false → Does (.spareReady dt) s fun d => d.trMode = trTRIPLE ∧ d.tr.work = none ∧ d.tr.bank = 1 - c.tr.bank ∧ d.stage = usSTAGED
            ∧ d.get pUPD F.UPD_ACT_RESULT_RESULT = arDONE ∧ d.get pUPD F.UPD_UPD_STATUS_RUN_SLOT = 1 - c.get pUPD F.UPD_UPD_STATUS_RUN_SLOT
            ∧ d.upd.dirDue = true ∧ d.latched pUPD E.UPD_ACTIVATED ∧ cnt d K.UPD_ACTIVATIONS = cnt c K.UPD_ACTIVATIONS + 1)
          ∧ (c.tr.bankBad = true → Does (.spareReady dt) s fun d => d.trMode = trPAIR ∧ d.tr.work = none ∧ d.tr.bank = c.tr.bank
            ∧ d.get pUPD F.UPD_ACT_RESULT_RESULT = arABANDONED ∧ d.latched pUPD E.UPD_ACT_FAIL))
        ∧ (m + usCycles 1400 ≤ c.cycles → Does (.notReady dt) s fun d => d.tr.work = none ∧ d.get pUPD F.UPD_ACT_RESULT_RESULT = arNOTREADY
          ∧ d.stage = usVERIFIED ∧ d.latched pUPD E.UPD_ACT_FAIL ∧ d.trIs F.TRESTLE_TR_STATUS_SPLIT = false ∧ d.tr.violated = some c.cycles))

/-- CTR_SEL, PERF_CLR, FREEZE, USER_EN, WEAR_SENSE, TEMP_BIN_SECOND, LIFE_RECORD_WRITE, LIFE_ESTIMATE (R415 to R417, R419 to R424): counters
selected, cleared and frozen, sensors read, seconds binned, the record written, the life estimated. A WEAR_SENSE that is not due, a second
that has not ended and firmware that does not run leave the chip as time leaves it. -/
def Obligations.CountersAndLife : Prop :=
  ∀ (s : State) (dt counter mask bit : Nat) (value : Word) (req : Requester) (on : Bool) (drifts : List Nat) (input : LifeInput) (mechs : List Mech),
    let c := s.chip.pass dt
    let ctr := fun (d : Chip) (i : Nat) => d.cntAt (cntKey pPERF i)
    let bin := fun (d : Chip) (i : Nat) => d.cntAt (cntKey pWEAR i)
    let free := fun (P : Prop) => c.takes req → P
    let p10 := (least (fun (m : Mech) => m.p10) (c.mechanisms mechs))
    (free (c.is pPERF F.LOCK_LOCK = false → counter < 32 →
        (Does (.ctrSel dt req counter value) s fun d => ctr d counter = 0 ∧ (∀ i, i < 32 → i ≠ counter → ctr d i = ctr c i)
          ∧ bitsAt (d.reg pPERF (0x180 + 4 * counter)) 0 10 = bitsAt value 0 10
          ∧ bitsAt (d.reg pPERF (0x180 + 4 * counter)) 16 1 = bitsAt value 16 1)
        ∧ (Does (.freeze dt req on) s fun d => d.is pPERF F.PERF_PERF_CTRL_FREEZE = on ∧ d.is pPERF F.PERF_PERF_CTRL_USER_EN = c.is pPERF F.PERF_PERF_CTRL_USER_EN ∧ d.cnt = c.cnt)
        ∧ (Does (.userEn dt req on) s fun d => d.is pPERF F.PERF_PERF_CTRL_USER_EN = on ∧ d.is pPERF F.PERF_PERF_CTRL_FREEZE = c.is pPERF F.PERF_PERF_CTRL_FREEZE ∧ d.cnt = c.cnt)))
    ∧ free (mask < 2 ^ 32 → bit < 32 → Does (.perfClr dt req mask) s fun d => ctr d bit = (if mask.testBit bit then 0 else ctr c bit) ∧ d.regs = c.regs)
    ∧ (c.senseDue = false → Does (.wearSense dt drifts on) s fun d => d = c)
    ∧ (c.senseDue = true → (Does (.wearSense dt drifts false) s fun d => d.wear.senseAt = c.cycles ∧ bin d 16 = bin c 16 + 1
          ∧ ∀ i, i < 24 → bitsAt (d.tword pWEAR 0 i 0) 0 16 = min (drifts.getD i 0) 65535 ∧ d.tword pWEAR 0 i 1 = BitVec.ofNat 32 c.stamp)
        ∧ Does (.wearSense dt drifts true) s fun d => d.wear.senseAt + c.sensePeriod = c.cycles + secCycles 1 ∧ d.tblA = c.tblA ∧ d.cnt = c.cnt)
    ∧ (c.dark = false → c.wear.at' + secCycles 1 ≤ c.cycles → Does (.tempBinSecond dt) s fun d => d.wear.at' = c.wear.at' + secCycles 1 ∧ d.wear.peak = none
        ∧ bin d (tempBin (c.wear.peak.getD c.dieTemp)) = bin c (tempBin (c.wear.peak.getD c.dieTemp)) + 1)
    ∧ (c.cycles < c.wear.at' + secCycles 1 → Does (.tempBinSecond dt) s fun d => d = c)
    ∧ (c.fwRuns = true → c.journalThere = true → c.journalKey ≠ [] → c.pfActive = false → DoesExt (.lifeRecordWrite dt input) s fun d y =>
        y = { s.ext with life := some d.lifeSaved } ∧ d = c.lifeUpdate input)
    ∧ (c.fwRuns = true → Does (.lifeEstimate dt mechs) s fun d => d.get pWEAR F.WEAR_LIFE_P10_D = min p10.1 65535 ∧ d.get pWEAR F.WEAR_LIFE_STATUS_LIMIT = p10.2
        ∧ d.is pWEAR F.WEAR_LIFE_STATUS_VALID = true ∧ d.get pWEAR F.WEAR_LIFE_STATUS_EST_SEQ = (c.get pWEAR F.WEAR_LIFE_STATUS_EST_SEQ + 1) % 65536
        ∧ d.latched pWEAR E.WEAR_EST_DONE ∧ (c.wear.armed5 = true → p10.1 < 1826 → d.latched pWEAR E.WEAR_LIFE_5Y ∧ d.wear.armed5 = false)
        ∧ (c.wear.armed1 = true → p10.1 < 365 → d.latched pWEAR E.WEAR_LIFE_1Y ∧ d.wear.armed1 = false))
    ∧ (c.fwRuns = false → (Does (.lifeEstimate dt mechs) s fun d => d = c) ∧ Does (.lifeRecordWrite dt input) s fun d => d = c)

/-- The frame of commands that a requester posts: a request to clear, acknowledge, select or start something changes registers of its own
page, the record of what it started, and nothing else (events may add a pending MSI-X bit in HOST and a wrap bit in PERF). -/
def Obligations.FrameOfRequests : Prop :=
  ∀ (s : State) (dt n m k : Nat) (v : Word) (b : Bool) (tag : Byte) (req : Requester) (p : Page), let c := s.chip.pass dt
    let only := fun (i : Instr) (q : Page) (own : Chip → Chip) => Does i s fun d => c.changesOnly d [q, pHOST, pPERF] own
    let fl := fun (d : Chip) => { d with flOps := c.flOps, pwr := c.pwr }
    let op := fun (d : Chip) => { d with prisilOps := c.prisilOps }
    let un := fun (d : Chip) => { d with unitCmd := c.unitCmd }
    let up := fun (d : Chip) => { d with upd := c.upd }
    c.takes req →
    (∀ i ∈ [(Instr.sessionClr dt req, pBRIDLE), (.spillLatClr dt req, pSPILL), (.rseqClr dt req, pRSEQ), (.holdClr dt req, pFRER), (.gwClr dt req, pGW),
        (.perfClr dt req n, pPERF), (.rspAck dt req n, pTRESTLE)], only i.1 i.2 id)
    ∧ (∀ i ∈ [Instr.ctrSel dt req n v, .freeze dt req b, .userEn dt req b], c.locked pPERF = false → only i pPERF id)
    ∧ only (.invCmd dt req v) pDXLT (fun d => { d with invs := c.invs, tlb := c.tlb }) ∧ only (.fltAck dt req n) pDXLT (fun d => { d with flts := c.flts })
    ∧ only (.pelAck dt req n) pHOST (fun d => { d with pel := c.pel }) ∧ only (.ilogAck dt req n) pEVIO (fun d => { d with ilog := c.ilog })
    ∧ only (.rlogAck dt req n) pSTORY (fun d => { d with rlog := c.rlog }) ∧ only (.mlogAck dt req n) pTRESTLE (fun d => { d with tr := c.tr })
    ∧ only (.fdbFlush dt req v) pFDB (fun d => { d with flush := c.flush }) ∧ only (.keyInstall dt req n m) pMACSEC (fun d => { d with keyInstall := c.keyInstall })
    ∧ only (.resetGen dt req n) pFRER (fun d => { d with comps := c.comps }) ∧ only (.wdtKick dt req n) pRST (fun d => { d with wdt := c.wdt })
    ∧ (∀ i ∈ [Instr.flRead dt req, .flProgram dt req, .erase4k dt req, .erase64k dt req], only i pXMEM fl)
    ∧ (∀ i ∈ [Instr.otpRead dt req n, .otpProgram dt req n], only i pBOOT fun d => { d with otpOp := c.otpOp })
    ∧ (∀ i ∈ [Instr.enrol dt req n, .derive dt req n m k b, .clear dt req n, .seal dt req n, .unseal dt req n, .mac dt req n, .declareSuccessor dt req,
        .withdrawSuccessor dt req], only i pPRISIL op)
    ∧ (∀ i ∈ [Instr.replace dt req n m b, .reinstate dt req n, .retire dt req n, .release dt req n, .ackReturned dt req n, .setAlive dt req n, .setSuspect dt req n,
        .setDead dt req n], only i pUNITS un)
    ∧ (∀ i ∈ [Instr.verify dt req n, .disarm dt req n, .confirm dt req n], only i pUPD up)
    ∧ (pageValid p = true → hasTable p = true → c.win p (reqSide req) = none → ∀ i ∈ [Instr.tblRead dt req p tag, .tblReadActive dt req p tag, .tblSearch dt req p tag],
        only i p fun d => { d with wins := c.wins })
    ∧ (pageValid p = true → c.locked p = false → c.commitState p = 0 → ∀ i ∈ [Instr.commitGo dt req p, .commitAtTime dt req p n], only i p fun d => { d with commits := c.commits })

/-- The frame of events inside the chip: what ends, runs out, ages or is measured changes registers of its own page, its own record, and
nothing else. -/
def Obligations.FrameOfEvents : Prop :=
  ∀ (s : State) (dt n : Nat) (b : Bool) (ns : List Nat) (ms : List Mech) (p : Page), let c := s.chip.pass dt
    let only := fun (i : Instr) (q : Page) (own : Chip → Chip) => Does i s fun d => c.changesOnly d [q, pHOST, pPERF] own
    only (.wearSense dt ns b) pWEAR (fun d => { d with wear := c.wear, tblA := c.tblA }) ∧ only (.tempBinSecond dt) pWEAR (fun d => { d with wear := c.wear })
    ∧ only (.lifeEstimate dt ms) pWEAR (fun d => { d with wear := c.wear, tblA := c.tblA })
    ∧ (∀ i ∈ [Instr.tpDtGap dt n, .tpCtsWait dt n, .tpHold dt n], only i pBRIDLE fun d => { d with sessions := c.sessions })
    ∧ only (.keyDone dt) pMACSEC (fun d => { d with keyInstall := c.keyInstall, saKeys := c.saKeys })
    ∧ only (.invDone dt) pDXLT (fun d => { d with invs := c.invs, tlb := c.tlb }) ∧ only (.verifyDone dt b) pUPD (fun d => { d with upd := c.upd })
    ∧ (pageValid p = true → c.snapAll.contains (pageIdx p) = false → only (.snapDone dt p) p fun d => { d with snap := c.snap, snapAll := c.snapAll })
    ∧ only (.ageingPass dt) pFDB (fun d => { d with tblA := c.tblA, ageAt := c.ageAt }) ∧ only (.flushDone dt) pFDB (fun d => { d with tblA := c.tblA, flush := c.flush })
    ∧ only (.itrExpire dt n) pDMA (fun d => { d with rings := c.rings }) ∧ only (.latentReset dt n) pFRER (fun d => { d with comps := c.comps })
    ∧ only (.memberSilent dt n) pFRER (fun d => { d with members := c.members }) ∧ only (.memberReturn dt n) pFRER (fun d => { d with members := c.members })
    ∧ only (.holdoverLong dt) pTIME (fun d => { d with holdoverLong := c.holdoverLong }) ∧ only (.pinPulseEnd dt) pEVIO (fun d => { d with pinPulses := c.pinPulses })
    ∧ only (.wdtWarn dt) pRST (fun d => { d with wdt := c.wdt })

/-- A step takes the command at the front of the queue and is that command on the state with the queue's rest. -/
def Obligations.StepRunsFront : Prop :=
  ∀ (s : State) (i : Instr) (rest : List Instr), s.pending = i :: rest → step s = exec i { s with pending := rest }

/-- No step stops: a command in front leaves the queue and changes nothing else of it; on an empty queue the block idles (log entry 3, a
choice of the model). -/
def Obligations.EveryStepCompletes : Prop :=
  ∀ (s : State), (s.pending = [] → step s = .next s)
    ∧ ∀ (i : Instr) (rest : List Instr), s.pending = i :: rest → ∃ t, step s = .next t ∧ t.pending = rest

/-- What reset leaves: the mode is BOOT, the time INVALID, every queue, ring, log and list empty, every key slot EMPTY, no port up, the
memories outside the chip in their canonical form (erased: the model's choice, log entry 11), and RST_CAUSE shows power-on alone. -/
def Obligations.ResetState : Prop :=
  let c := State.reset.chip
  State.reset.pending = [] ∧ Ext.wf State.reset.ext = true ∧ c.mode = modeBoot ∧ c.timeValid = false ∧ c.reg pRST 0x140 = 1 ∧ c.queues = [] ∧ c.pel = []
    ∧ c.reg pSYS 0x140 = 0x964800B0 ∧ (∀ i, (c.slot i).state = slEMPTY) ∧ (∀ r, r < 32 → c.ringState r = rgDISABLED) ∧ (∀ n, n < 28 → c.linkUp n = false)
    ∧ (∀ l, l < 128 → (c.list l).state = 0) ∧ (∀ u, (c.unit u).state = uUNKNOWN) ∧ (∀ p, pageValid p = true → c.locked p = false ∧ c.commitState p = 0)

/-- Only the commands of `writesMemory` change the flash, the OTP words or the settings journal; every other one leaves them as they are. -/
def Obligations.OnlyTheseWriteMemories : Prop :=
  ∀ (s t : State) (i : Instr), writesMemory i = false → exec i s = .next t → t.ext = s.ext

/-- Every step keeps the memories in their canonical form: flash addresses strictly rising with no erased byte listed, OTP words strictly
rising with no zero word listed. -/
def Obligations.MemoriesStayCanonical : Prop :=
  ∀ (s t : State), Ext.wf s.ext = true → step s = .next t → Ext.wf t.ext = true

/-- A burned OTP bit stays: no step clears a bit of an OTP word that is 1. -/
def Obligations.OtpBitsStay : Prop :=
  ∀ (s t : State) (i : Nat), step s = .next t → s.ext.otpWord i &&& t.ext.otpWord i = s.ext.otpWord i

/-- R29: a 48-bit counter counts modulo 2^48 and wraps to 0; a counter's registers show the latest snapshot's value, whatever has been
counted since. -/
def Obligations.CountersWrap : Prop :=
  ∀ (c : Chip) (p : Page) (i n : Nat) (req : Requester), pageValid p = true → i < 1024 →
    ((c.addCnt p i n).cntAt (cntKey p i)).toNat = ((c.cntAt (cntKey p i)).toNat + n) % 2 ^ 48
    ∧ (∀ k, k ≠ cntKey p i → (c.addCnt p i n).cntAt k = c.cntAt k)
    ∧ ∀ (q : Page) (off : Nat) (r : RegRow), off < 0x800 → regRow q off = some r → r.acc = .ro → isCounter q off = true →
      let v := (lookupD 0 c.snap (cntKey q ((off - cntBase q) / 8))).toNat
      (c.addCnt p i n).read req q off = BitVec.ofNat 32 (if off % 8 = 4 then v / 2 ^ 32 else v)

/-- R320: each device reset latches its cause bit and advances RESETS; the bits survive every reset except power-on, which sets POR alone
and clears RESETS; a write of 1 clears a cause bit and leaves RESETS. -/
def Obligations.ResetCauses : Prop :=
  ∀ (s : State) (dt mode id ns key : Nat) (req : Requester) (v : Word) (a b : ScribeTest) (en test : Bool) (p : Page), let c := s.chip.pass dt
    let causes := fun (d : Chip) => d.reg pRST 0x140
    let resets := fun (d : Chip) => d.get pRST F.RST_RST_CAUSE_RESETS
    let did := fun (cause : Nat) (d : Chip) => (∀ k, k < 16 → (causes d).getLsbD k = ((causes c).getLsbD k || decide (k = cause))) ∧ resets d = (resets c + 1) % 65536
    let kept := fun (d : Chip) => causes d = causes c
    (Does (.powerOnReset dt ⟨mode, test⟩ id) s fun d => causes d = 1 ∧ resets d = 0)
    ∧ (1000 ≤ ns → Does (.pinReset dt ns) s (did rcPIN))
    ∧ (c.dormant = false → Does (.coreBor dt) s (did rcCORE_BOR))
    ∧ (c.wdtOn = true → c.wdt.at' + c.wdtTimeout ≤ c.cycles → Does (.watchdogReset dt) s (did rcWDT))
    ∧ (∀ cause, cause < 6 → did cause (c.deviceReset cause))
    ∧ (c.takes req →
        (key % 65536 = 0x9648 → Does (.devRst dt req key) s (did rcSW))
        ∧ (c.locked pRST = false → DoesExt (.registerWrite dt req (regKey pRST 0x140) ⟨.word, v, 0⟩) s fun d _ => resets d = resets c
          ∧ ∀ k, k < 6 → (causes d).getLsbD k = ((causes c).getLsbD k && !v.getLsbD k))
        ∧ Does (.domRstTrestle dt req a b) s kept ∧ Does (.domRstLegacy dt req) s kept ∧ Does (.domRstPcie dt req) s kept ∧ Does (.domRstFabric dt req) s kept
        ∧ (pageValid p = true → c.locked p = false → Does (.softRst dt req p en) s kept))

/-- R319: the watchdog is off at reset; once EN is 1 a write of 0 is ignored; 0x5A5A and 0xA5A5 in turn, 0x5A5A first, keep it from expiring
and any other value is counted and ignored; it warns at 75 % of TIMEOUT and resets the device at TIMEOUT, whatever Trestle does. -/
def Obligations.Watchdog : Prop :=
  State.reset.chip.wdtOn = false ∧ State.reset.chip.get pRST F.RST_WDT_STATUS_NEXT = 0
  ∧ ∀ (s : State) (dt v : Nat) (w : Word) (req : Requester), let c := s.chip.pass dt
    let next := fun (d : Chip) => d.get pRST F.RST_WDT_STATUS_NEXT
    let right := if next c = 0 then 0x5A5A else 0xA5A5
    (c.takes req →
        (c.wdtOn = true → DoesExt (.registerWrite dt req (regKey pRST 0x150) ⟨.word, w, 0⟩) s fun d _ => d.wdtOn = true)
        ∧ (v % 65536 = right → Does (.wdtKick dt req v) s fun d => next d = 1 - next c ∧ d.wdt = { c.wdt with at' := c.cycles, warned := false })
        ∧ (v % 65536 ≠ right → Does (.wdtKick dt req v) s fun d => next d = next c ∧ d.wdt = c.wdt
          ∧ d.cntAt (cntKey pRST K.RST_WDT_BAD_KICK) = c.cntAt (cntKey pRST K.RST_WDT_BAD_KICK) + 1))
    ∧ (c.wdtOn = true → c.wdt.at' + c.wdtTimeout * 3 / 4 ≤ c.cycles → c.wdt.warned = false → Does (.wdtWarn dt) s fun d => d.latched pRST E.RST_WDT_WARN)
    ∧ (c.wdtOn = true → c.wdt.at' + c.wdtTimeout ≤ c.cycles → Does (.watchdogReset dt) s fun d => d = c.deviceReset rcWDT)
    ∧ (c.cycles < c.wdt.at' + c.wdtTimeout → Does (.watchdogReset dt) s fun d => d = c)
end

