-- ==== Sys2Proof/Laws/Maps.lean ====
section
/-! SUPPORT. Laws of the canonical maps: what reads back after a write, and that a write keeps the canonical form. -/
namespace Sys2Proof.Machine

open Sys2Proof

theorem lookupD_erase_same {α : Type} (d : α) (m : List (Nat × α)) (k : Nat) : lookupD d (erase m k) k = d := by
  induction m with
  | nil => rfl
  | cons e m ih =>
    obtain ⟨a, v⟩ := e
    by_cases h : a = k <;> simp [erase, lookupD, h, ih]

theorem lookupD_erase_other {α : Type} (d : α) (m : List (Nat × α)) {k j : Nat} (h : j ≠ k) :
    lookupD d (erase m k) j = lookupD d m j := by
  induction m with
  | nil => rfl
  | cons e m ih =>
    obtain ⟨a, v⟩ := e
    by_cases hk : a = k
    · subst hk; simp [erase, lookupD, ih, h.symm]
    · simp [erase, lookupD, hk, ih]

theorem lookupD_insert_same {α : Type} (d : α) (m : List (Nat × α)) (k : Nat) (v : α) : lookupD d (insert m k v) k = v := by
  induction m with
  | nil => simp [insert, lookupD]
  | cons e m ih =>
    obtain ⟨a, w⟩ := e
    by_cases hk : a = k
    · simp [insert, lookupD, hk]
    · by_cases hl : k < a <;> simp [insert, lookupD, hk, hl, ih]

theorem lookupD_insert_other {α : Type} (d : α) (m : List (Nat × α)) {k j : Nat} (v : α) (h : j ≠ k) :
    lookupD d (insert m k v) j = lookupD d m j := by
  induction m with
  | nil => simp [insert, lookupD, h.symm]
  | cons e m ih =>
    obtain ⟨a, w⟩ := e
    by_cases hk : a = k
    · subst hk; simp [insert, lookupD, h.symm]
    · by_cases hl : k < a
      · simp [insert, lookupD, hk, hl, h.symm]
      · simp [insert, lookupD, hk, hl, ih]

/-- A write reads back. -/
@[simp] theorem lookupD_store_same {α : Type} [DecidableEq α] (d : α) (m : List (Nat × α)) (k : Nat) (v : α) :
    lookupD d (store d m k v) k = v := by
  unfold store; split
  · rename_i h; rw [lookupD_erase_same, h]
  · rw [lookupD_insert_same]

/-- A write leaves every other key alone. -/
theorem lookupD_store_other {α : Type} [DecidableEq α] (d d' : α) (m : List (Nat × α)) {k j : Nat} (v : α) (h : j ≠ k) :
    lookupD d' (store d m k v) j = lookupD d' m j := by
  unfold store; split
  · rw [lookupD_erase_other _ _ h]
  · rw [lookupD_insert_other _ _ _ h]

theorem risingFrom_le {α : Type} {i j : Nat} (h : i ≤ j) (m : List (Nat × α)) (hm : risingFrom j m = true) : risingFrom i m = true := by
  cases m with
  | nil => rfl
  | cons e m => simp [risingFrom] at *; exact ⟨by omega, hm.2⟩

theorem risingFrom_erase {α : Type} (m : List (Nat × α)) (i k : Nat) (h : risingFrom i m = true) : risingFrom i (erase m k) = true := by
  induction m generalizing i with
  | nil => rfl
  | cons e m ih =>
    obtain ⟨a, v⟩ := e
    simp [risingFrom] at h
    by_cases hk : a = k
    · simp [erase, hk]; exact risingFrom_le (by omega) _ (hk ▸ ih _ h.2)
    · simp [erase, hk, risingFrom, h.1, ih _ h.2]

theorem risingFrom_insert {α : Type} (m : List (Nat × α)) (i k : Nat) (v : α) (hi : i ≤ k) (h : risingFrom i m = true) :
    risingFrom i (insert m k v) = true := by
  induction m generalizing i with
  | nil => simp [insert, risingFrom, hi]
  | cons e m ih =>
    obtain ⟨a, w⟩ := e
    simp [risingFrom] at h
    by_cases hk : a = k
    · subst hk; simp [insert, risingFrom, h]
    · by_cases hl : k < a
      · simp only [insert, hk, hl, if_true, if_false, risingFrom, Bool.and_eq_true, decide_eq_true_eq]; exact ⟨hi, by omega, h.2⟩
      · simp [insert, hk, hl, risingFrom, h.1]; exact ih _ (by omega) h.2

theorem mem_erase {α : Type} {m : List (Nat × α)} {k : Nat} {e : Nat × α} (h : e ∈ erase m k) : e ∈ m := by
  induction m with
  | nil => exact h
  | cons f m ih =>
    obtain ⟨a, v⟩ := f
    by_cases hk : a = k <;> simp [erase, hk] at h
    · exact List.mem_cons_of_mem _ (ih h)
    · rcases h with rfl | h
      · exact List.mem_cons_self ..
      · exact List.mem_cons_of_mem _ (ih h)

theorem mem_insert {α : Type} {m : List (Nat × α)} {k : Nat} {v : α} {e : Nat × α} (h : e ∈ insert m k v) : e = (k, v) ∨ e ∈ m := by
  induction m with
  | nil => simp [insert] at h; exact .inl h
  | cons f m ih =>
    obtain ⟨a, w⟩ := f
    by_cases hk : a = k
    · simp [insert, hk] at h; rcases h with rfl | h
      · exact .inl rfl
      · exact .inr (List.mem_cons_of_mem _ h)
    · by_cases hl : k < a
      · simp [insert, hk, hl] at h; rcases h with rfl | rfl | h
        · exact .inl rfl
        · exact .inr (List.mem_cons_self ..)
        · exact .inr (List.mem_cons_of_mem _ h)
      · simp [insert, hk, hl] at h; rcases h with rfl | h
        · exact .inr (List.mem_cons_self ..)
        · rcases ih h with h | h
          · exact .inl h
          · exact .inr (List.mem_cons_of_mem _ h)

/-- A write keeps the canonical form, where its default is what an unlisted key reads as. -/
theorem canonical_store {α : Type} [DecidableEq α] (d : Nat → α) (m : List (Nat × α)) (k : Nat) (v : α) (h : canonical d m = true) :
    canonical d (store (d k) m k v) = true := by
  simp only [canonical, Bool.and_eq_true, List.all_eq_true, decide_eq_true_eq] at *
  unfold store; split
  · exact ⟨risingFrom_erase _ _ _ h.1, fun e he => h.2 e (mem_erase he)⟩
  · rename_i hv
    refine ⟨risingFrom_insert _ _ _ _ (Nat.zero_le _) h.1, fun e he => ?_⟩
    rcases mem_insert he with rfl | he
    · exact hv
    · exact h.2 e he

end Sys2Proof.Machine
end

