-- ==== Sys2Proof/Laws/Memory.lean ====
section
/-! SUPPORT. Every operation over the boot flash and the OTP words keeps their canonical form; which bytes and words each changes; a burned
bit stays. -/
namespace Sys2Proof.Machine

open Sys2Proof

theorem canonical_keepKeys {α : Type} [DecidableEq α] (d : Nat → α) (keep : Nat → Bool) (m : List (Nat × α)) (h : canonical d m = true) :
    canonical d (keepKeys keep m) = true := by
  simp only [canonical, Bool.and_eq_true, List.all_eq_true, decide_eq_true_eq] at *
  refine ⟨?_, fun e he => h.2 e (List.mem_filter.1 he).1⟩
  have key : ∀ (m : List (Nat × α)) (k : Nat), risingFrom k m = true → risingFrom k (keepKeys keep m) = true := by
    intro m
    induction m with
    | nil => exact fun k _ => rfl
    | cons e m ih =>
      intro k hk
      simp only [risingFrom, Bool.and_eq_true, decide_eq_true_eq] at hk
      have hm := ih _ hk.2
      simp only [keepKeys, List.filter_cons] at hm ⊢
      split
      · simpa [risingFrom, hk.1] using hm
      · exact risingFrom_le (by omega) _ hm
  exact key m 0 h.1

theorem lookupD_keepKeys {α : Type} (d : α) (keep : Nat → Bool) (m : List (Nat × α)) (k : Nat) :
    lookupD d (keepKeys keep m) k = if keep k then lookupD d m k else d := by
  induction m with
  | nil => simp [keepKeys, lookupD]
  | cons e m ih =>
    obtain ⟨a, v⟩ := e
    simp only [keepKeys, List.filter_cons] at ih ⊢
    by_cases ha : a = k
    · subst ha; by_cases hk : keep a <;> simp_all [lookupD]
    · by_cases hk : keep a <;> simp [hk, lookupD, ha, ih]

/-! ## The boot flash -/

theorem Memory.wf_program (m : List Host.Cell) (a : Nat) (bs : List Byte) (h : Memory.wf m = true) : Memory.wf (flashProgram m a bs) = true := by
  induction bs generalizing m a with
  | nil => exact h
  | cons b bs ih => exact ih _ _ (canonical_store (fun _ => 0xFF#8) m a _ h)

theorem Memory.wf_erase (m : List Host.Cell) (a n : Nat) (h : Memory.wf m = true) : Memory.wf (flashErase m a n) = true := canonical_keepKeys _ _ _ h

theorem Memory.wf_write (m : List Host.Cell) (a : Nat) (bs : List Byte) (h : Memory.wf m = true) : Memory.wf (flashWrite m a bs) = true :=
  Memory.wf_program _ _ _ (Memory.wf_erase _ _ _ h)

/-- An erase sets its range to FFh and no other byte. -/
theorem flashByte_erase (m : List Host.Cell) (a n b : Nat) : flashByte (flashErase m a n) b = if a ≤ b ∧ b < a + n then 0xFF else flashByte m b := by
  unfold flashByte flashErase
  rw [lookupD_keepKeys]
  by_cases h : a ≤ b ∧ b < a + n
  · have : ¬ (b < a ∨ a + n ≤ b) := by omega
    simp [h, this]
  · have : b < a ∨ a + n ≤ b := by omega
    simp [h, this]

/-- A program leaves every byte outside its range. -/
theorem flashByte_program_other (m : List Host.Cell) (a b : Nat) (bs : List Byte) (h : b < a ∨ a + bs.length ≤ b) :
    flashByte (flashProgram m a bs) b = flashByte m b := by
  induction bs generalizing m a with
  | nil => rfl
  | cons v bs ih =>
    have hl : (v :: bs).length = bs.length + 1 := rfl
    rw [show flashProgram m a (v :: bs) = flashProgram (store 0xFF m a (flashByte m a &&& v)) (a + 1) bs from rfl, ih _ _ (by omega)]
    exact lookupD_store_other _ _ _ _ (by omega)

/-- A program clears bits of the bytes in its range. -/
theorem flashByte_program (m : List Host.Cell) (a b : Nat) (bs : List Byte) :
    flashByte (flashProgram m a bs) b = if a ≤ b ∧ b < a + bs.length then flashByte m b &&& bs.getD (b - a) 0xFF else flashByte m b := by
  induction bs generalizing m a with
  | nil => simp [flashProgram]
  | cons v bs ih =>
    have hl : (v :: bs).length = bs.length + 1 := rfl
    rw [show flashProgram m a (v :: bs) = flashProgram (store 0xFF m a (flashByte m a &&& v)) (a + 1) bs from rfl, ih]
    by_cases hb : b = a
    · subst hb
      simp [flashByte, lookupD_store_same]
    · rw [show flashByte (store 0xFF m a (flashByte m a &&& v)) b = flashByte m b from lookupD_store_other _ _ _ _ (by omega)]
      by_cases hr : a ≤ b ∧ b < a + (bs.length + 1)
      · have h1 : a + 1 ≤ b ∧ b < a + 1 + bs.length := by omega
        have h2 : b - a = (b - (a + 1)) + 1 := by omega
        simp [h1, hr, h2]
      · have h1 : ¬ (a + 1 ≤ b ∧ b < a + 1 + bs.length) := by omega
        rw [if_neg h1, hl, if_neg hr]

/-! ## OTP -/

theorem Ext.otpWord_burn (x : Ext) (i j : Nat) (w : Word) : (x.burn i w).otpWord j = if j = i then x.otpWord i ||| w else x.otpWord j := by
  unfold Ext.burn Ext.otpWord
  split
  · rename_i h; subst h; simp
  · rename_i h; exact lookupD_store_other _ _ _ _ h

/-- Every bit of `x`'s OTP words that is 1 is 1 in `y`. -/
def Ext.otpLe (x y : Ext) : Prop := ∀ i, x.otpWord i &&& y.otpWord i = x.otpWord i

theorem Ext.otpLe_refl (x : Ext) : x.otpLe x := fun _ => BitVec.and_self

theorem Ext.otpLe_of_eq {x y : Ext} (h : y.otp = x.otp) : x.otpLe y := fun i => by rw [Ext.otpWord, Ext.otpWord, h, BitVec.and_self]

theorem Ext.otpLe_trans {x y z : Ext} (h : x.otpLe y) (g : y.otpLe z) : x.otpLe z := fun i => by
  have hx := h i; have hy := g i
  calc x.otpWord i &&& z.otpWord i = (x.otpWord i &&& y.otpWord i) &&& z.otpWord i := by rw [hx]
    _ = x.otpWord i &&& (y.otpWord i &&& z.otpWord i) := BitVec.and_assoc ..
    _ = x.otpWord i := by rw [hy, hx]

theorem Ext.otpLe_burn (x : Ext) (i : Nat) (w : Word) : x.otpLe (x.burn i w) := fun j => by
  rw [Ext.otpWord_burn]
  split
  · rename_i h; subst h; ext k hk; simp; tauto
  · exact BitVec.and_self

theorem Ext.otpLe_burnTherm (x : Ext) (v : Nat) : x.otpLe (x.burnTherm v) := by
  unfold Ext.burnTherm
  split
  · exact x.otpLe_refl
  · generalize List.range 8 = l
    suffices ∀ y : Ext, x.otpLe y → x.otpLe (l.foldl (fun (x : Ext) i => x.burn (25 + i) (BitVec.ofNat 32 (2 ^ min 32 (v - 32 * i) - 1))) y) from this x x.otpLe_refl
    induction l with
    | nil => exact fun y h => h
    | cons i l ih => exact fun y h => ih _ (Ext.otpLe_trans h (y.otpLe_burn _ _))

/-! ## Both -/

theorem Ext.wf_iff (x : Ext) : x.wf = true ↔ Memory.wf x.flash = true ∧ canonical (fun _ => 0#32) x.otp = true := by
  simp [Ext.wf, Bool.and_eq_true]

theorem Ext.wf_congr {x y : Ext} (hf : y.flash = x.flash) (ho : y.otp = x.otp) (h : x.wf = true) : y.wf = true := by
  simpa [Ext.wf, hf, ho] using h

theorem Ext.wf_program (x : Ext) (a : Nat) (bs : List Byte) (h : x.wf = true) : (x.program a bs).wf = true := by
  rw [Ext.wf_iff] at *; exact ⟨Memory.wf_program _ _ _ h.1, h.2⟩

theorem Ext.wf_eraseFlash (x : Ext) (a n : Nat) (h : x.wf = true) : (x.eraseFlash a n).wf = true := by
  rw [Ext.wf_iff] at *; exact ⟨Memory.wf_erase _ _ _ h.1, h.2⟩

theorem Ext.wf_burn (x : Ext) (i : Nat) (w : Word) (h : x.wf = true) : (x.burn i w).wf = true := by
  rw [Ext.wf_iff] at *; exact ⟨h.1, canonical_store (fun _ => 0#32) _ _ _ h.2⟩

theorem Ext.wf_burnTherm (x : Ext) (v : Nat) (h : x.wf = true) : (x.burnTherm v).wf = true := by
  unfold Ext.burnTherm
  split
  · exact h
  · generalize List.range 8 = l
    suffices ∀ y : Ext, y.wf = true →
        (l.foldl (fun (x : Ext) i => x.burn (25 + i) (BitVec.ofNat 32 (2 ^ min 32 (v - 32 * i) - 1))) y).wf = true from this x h
    induction l with
    | nil => exact fun y hy => hy
    | cons i l ih => exact fun y hy => ih _ (y.wf_burn _ _ hy)

theorem wf_writeDir (x : Ext) (d : BootDir) (active : Nat) (trial : Bool) (left : Nat) (h : x.wf = true) : (writeDir x d active trial left).1.wf = true :=
  Ext.wf_program _ _ _ (Ext.wf_eraseFlash _ _ _ h)

end Sys2Proof.Machine
end

