-- ==== Sys2Proof/Laws/Registers.lean ====
section
/-! SUPPORT. Laws of the address map and of the registers: a page's number leads back to the page, two registers never share a key,
a register reads what was last written to it. -/
namespace Sys2Proof.Machine

open Sys2Proof

/-! ## The address map (R33) -/

/-- The page number of a page of the map leads back to the page. -/
theorem pageOfNo_pageNo (p : Page) (h : pageValid p = true) : pageOfNo (pageNo p) = some p := by
  obtain ⟨k, n⟩ := p
  cases k <;> simp only [pageValid, decide_eq_true_eq, Bool.or_eq_true, Bool.and_eq_true] at h <;>
    first
    | (subst h; decide)
    | (have hn : n < 31 := by omega
       interval_cases n <;> first | decide | omega)

/-- Pages lie inside the 16 MiB space. -/
theorem pageNo_lt (p : Page) (h : pageValid p = true) : pageNo p < 0x100 := by
  obtain ⟨k, n⟩ := p
  cases k <;> simp only [pageValid, decide_eq_true_eq, Bool.or_eq_true, Bool.and_eq_true] at h <;> simp only [pageNo] <;> omega

/-- Two pages of the map have different page numbers. -/
theorem pageNo_inj {p q : Page} (hp : pageValid p = true) (hq : pageValid q = true) (h : pageNo p = pageNo q) : p = q := by
  have h1 := pageOfNo_pageNo p hp
  rw [h, pageOfNo_pageNo q hq] at h1
  exact (Option.some.inj h1).symm

theorem pageOfIdx_pageIdx (p : Page) (h : pageValid p = true) : pageOfIdx (pageIdx p) = some p := by
  obtain ⟨k, n⟩ := p
  cases k <;> simp only [pageValid, decide_eq_true_eq, Bool.or_eq_true, Bool.and_eq_true] at h <;>
    first
    | (subst h; decide)
    | (have hn : n < 31 := by omega
       interval_cases n <;> first | decide | omega)

/-- Two pages of the map have different summary indices. -/
theorem pageIdx_inj {p q : Page} (hp : pageValid p = true) (hq : pageValid q = true) (h : pageIdx p = pageIdx q) : p = q := by
  have h1 := pageOfIdx_pageIdx p hp
  rw [h, pageOfIdx_pageIdx q hq] at h1
  exact (Option.some.inj h1).symm

/-- Registers of one page at different offsets have different keys. -/
theorem regKey_ne_off {p : Page} {a b : Nat} (h : a ≠ b) : regKey p a ≠ regKey p b := by unfold regKey; omega

/-- Registers of different pages have different keys. -/
theorem regKey_ne_page {p q : Page} {a b : Nat} (hp : pageValid p = true) (hq : pageValid q = true) (ha : a < 0x1000)
    (hb : b < 0x1000) (h : p ≠ q) : regKey p a ≠ regKey q b := by
  have : pageNo p ≠ pageNo q := fun e => h (pageNo_inj hp hq e)
  unfold regKey pageBase; omega

/-- The key of a register leads back to its page. -/
theorem pageOfAddr_regKey {p : Page} {off : Nat} (h : pageValid p = true) (ho : off < 0x1000) : pageOfAddr (regKey p off) = some p := by
  unfold pageOfAddr regKey pageBase
  rw [show (pageNo p * 4096 + off) / 4096 = pageNo p by omega, pageOfNo_pageNo p h]

/-- What an unlisted register reads as is its reset value. -/
theorem regDefault_regKey {p : Page} {off : Nat} (h : pageValid p = true) (ho : off < 0x1000) :
    regDefault (regKey p off) = regReset p off := by
  have hl := pageNo_lt p h
  have e : regKey p off % 0x1000000 = regKey p off := Nat.mod_eq_of_lt (by unfold regKey pageBase; omega)
  unfold regDefault
  rw [e, pageOfAddr_regKey h ho]
  simp only
  rw [show regKey p off % 0x1000 = off by unfold regKey pageBase; omega]

/-! ## Registers -/

/-- A register reads what was written to it. -/
theorem Chip.reg_setReg_same (c : Chip) {p : Page} {off : Nat} (w : Word) (h : pageValid p = true) (ho : off < 0x1000) :
    (c.setReg p off w).reg p off = w := by
  simp only [Chip.reg, Chip.setReg, Chip.setRegAt]
  rw [← regDefault_regKey h ho, lookupD_store_same]

/-- A write leaves every register with another key alone. -/
theorem Chip.reg_setRegAt_ne (c : Chip) {p : Page} {a k : Nat} (w : Word) (h : regKey p a ≠ k) :
    (c.setRegAt k w).reg p a = c.reg p a := by
  simp only [Chip.reg, Chip.setRegAt]
  rw [lookupD_store_other _ _ _ _ h]

/-- A write leaves the page's other registers alone. -/
theorem Chip.reg_setReg_off (c : Chip) {p : Page} {a b : Nat} (w : Word) (h : a ≠ b) : (c.setReg p b w).reg p a = c.reg p a :=
  c.reg_setRegAt_ne w (regKey_ne_off h)

/-- A write leaves the registers of other pages alone. -/
theorem Chip.reg_setReg_page (c : Chip) {p q : Page} {a b : Nat} (w : Word) (hp : pageValid p = true) (hq : pageValid q = true)
    (ha : a < 0x1000) (hb : b < 0x1000) (h : p ≠ q) : (c.setReg q b w).reg p a = c.reg p a :=
  c.reg_setRegAt_ne w (regKey_ne_page hp hq ha hb h)

/-! ## Bit fields -/

theorem bitsAt_lt (w : Word) (lo width : Nat) : bitsAt w lo width < 2 ^ width := Nat.mod_lt _ (Nat.two_pow_pos _)

/-- Bit `i` of a field. -/
theorem testBit_bitsAt (w : Word) (lo width i : Nat) : (bitsAt w lo width).testBit i = (decide (i < width) && w.getLsbD (lo + i)) := by
  simp only [bitsAt, Nat.testBit_mod_two_pow, Nat.testBit_shiftRight, BitVec.getLsbD]

/-- A field reads what was put into it. -/
theorem bitsAt_putBits_same (w : Word) {lo width : Nat} (v : Nat) (h : lo + width ≤ 32) :
    bitsAt (putBits w lo width v) lo width = v % 2 ^ width := by
  apply Nat.eq_of_testBit_eq; intro i
  rw [testBit_bitsAt, Nat.testBit_mod_two_pow]
  by_cases hi : i < width
  · have h32 : lo + i < 32 := by omega
    have hm : (maskAt lo width).getLsbD (lo + i) = true := by
      simp only [maskAt, BitVec.getLsbD_ofNat, Nat.testBit_shiftLeft, Nat.testBit_two_pow_sub_one]
      simp; omega
    simp only [putBits, BitVec.getLsbD_or, BitVec.getLsbD_and, BitVec.getLsbD_not, hm, BitVec.getLsbD_ofNat,
      Nat.testBit_shiftLeft, Nat.testBit_mod_two_pow]
    simp [hi, h32]
  · simp [hi]

/-- A field disjoint from the one put is left alone. -/
theorem bitsAt_putBits_other (w : Word) {lo width lo' width' : Nat} (v : Nat) (h : lo + width ≤ lo' ∨ lo' + width' ≤ lo) :
    bitsAt (putBits w lo' width' v) lo width = bitsAt w lo width := by
  apply Nat.eq_of_testBit_eq; intro i
  rw [testBit_bitsAt, testBit_bitsAt]
  by_cases hi : i < width
  · have hm : (maskAt lo' width').getLsbD (lo + i) = false := by
      simp only [maskAt, BitVec.getLsbD_ofNat, Nat.testBit_shiftLeft, Nat.testBit_two_pow_sub_one]
      simp; omega
    simp only [putBits, BitVec.getLsbD_or, BitVec.getLsbD_and, BitVec.getLsbD_not, hm, BitVec.getLsbD_ofNat,
      Nat.testBit_shiftLeft, Nat.testBit_mod_two_pow]
    by_cases h32 : lo + i < 32
    · have : ¬ (lo' ≤ lo + i ∧ lo + i - lo' < width') := by omega
      by_cases h1 : lo' ≤ lo + i
      · have : ¬ (lo + i - lo' < width') := by omega
        simp [h32, this]
      · simp [h32, h1]
    · simp [h32, BitVec.getLsbD_of_ge _ _ (Nat.le_of_not_lt h32)]
  · simp [hi]

/-! ## Fields of registers -/

/-- The offset of a field, and its extent, lie inside a page and a word. -/
def Fld.fits (f : Fld) : Bool := decide (f.off < 0x800) && decide (f.lo + f.width ≤ 32)

/-- A field that is not staged reads what was put into it. -/
theorem Chip.get_put_same (c : Chip) {p : Page} {f : Fld} (v : Nat) (h : pageValid p = true) (hf : f.fits = true) (hs : f.rws = false) :
    (c.put p f v).get p f = v % 2 ^ f.width := by
  simp only [Fld.fits, Bool.and_eq_true, decide_eq_true_eq] at hf
  have ho : f.actOff = f.off := by simp [Fld.actOff, hs]
  simp only [Chip.get, Chip.put, ho]
  rw [c.reg_setReg_same _ h (by omega), bitsAt_putBits_same _ _ hf.2]

/-- A put leaves the fields of other registers of the page alone. -/
theorem Chip.get_put_off (c : Chip) (p : Page) {f g : Fld} (v : Nat) (h : f.actOff ≠ g.off) : (c.put p g v).get p f = c.get p f := by
  simp only [Chip.get, Chip.put, c.reg_setReg_off _ h]

/-- A put leaves the disjoint fields of its register alone. -/
theorem Chip.get_put_bits (c : Chip) {p : Page} {f g : Fld} (v : Nat) (h : pageValid p = true) (hg : g.fits = true) (ho : f.actOff = g.off)
    (hd : f.lo + f.width ≤ g.lo ∨ g.lo + g.width ≤ f.lo) : (c.put p g v).get p f = c.get p f := by
  simp only [Fld.fits, Bool.and_eq_true, decide_eq_true_eq] at hg
  simp only [Chip.get, Chip.put, ho]
  rw [c.reg_setReg_same _ h (by omega), bitsAt_putBits_other _ _ hd]

/-- A put leaves the fields of other pages alone. -/
theorem Chip.get_put_page (c : Chip) {p q : Page} {f g : Fld} (v : Nat) (hp : pageValid p = true) (hq : pageValid q = true)
    (hf : f.fits = true) (hg : g.fits = true) (h : p ≠ q) : (c.put q g v).get p f = c.get p f := by
  simp only [Fld.fits, Bool.and_eq_true, decide_eq_true_eq] at hf hg
  have : f.actOff < 0x1000 := by unfold Fld.actOff; split <;> omega
  simp only [Chip.get, Chip.put]
  rw [c.reg_setReg_page _ hp hq this (by omega) h]

end Sys2Proof.Machine
end

