-- ==== Sys2Proof/Laws/State.lean ====
section
/-! SUPPORT. The fields of the chip under the small updates: one lemma per field per update. -/
namespace Sys2Proof.Machine

open Sys2Proof

/-- The chip with other registers, counters and outputs: all that raising an event or counting changes. -/
def Chip.noise (c : Chip) (r : List (Nat × Word)) (n : List (Nat × W48)) (o : List Output) : Chip :=
  { c with regs := r, cnt := n, outs := o }

/-- The chip with other table banks. -/
def Chip.withTables (c : Chip) (a b : List (Nat × Word)) : Chip := { c with tblA := a, tblS := b }

/-- The chip at another cycle with other outputs. -/
def Chip.passed (c : Chip) (n : Nat) (o : List Output) : Chip := { c with cycles := n, outs := o }

/-! ## noise -/

@[simp] theorem Chip.cycles_noise (c : Chip) (r) (n) (o) : (c.noise r n o).cycles = c.cycles := rfl
@[simp] theorem Chip.rstAt_noise (c : Chip) (r) (n) (o) : (c.noise r n o).rstAt = c.rstAt := rfl
@[simp] theorem Chip.free_noise (c : Chip) (r) (n) (o) : (c.noise r n o).free = c.free := rfl
@[simp] theorem Chip.outs_noise (c : Chip) (r) (n) (o) : (c.noise r n o).outs = o := rfl
@[simp] theorem Chip.regs_noise (c : Chip) (r) (n) (o) : (c.noise r n o).regs = r := rfl
@[simp] theorem Chip.tblA_noise (c : Chip) (r) (n) (o) : (c.noise r n o).tblA = c.tblA := rfl
@[simp] theorem Chip.tblS_noise (c : Chip) (r) (n) (o) : (c.noise r n o).tblS = c.tblS := rfl
@[simp] theorem Chip.cnt_noise (c : Chip) (r) (n) (o) : (c.noise r n o).cnt = n := rfl
@[simp] theorem Chip.snap_noise (c : Chip) (r) (n) (o) : (c.noise r n o).snap = c.snap := rfl
@[simp] theorem Chip.wbuf_noise (c : Chip) (r) (n) (o) : (c.noise r n o).wbuf = c.wbuf := rfl
@[simp] theorem Chip.wins_noise (c : Chip) (r) (n) (o) : (c.noise r n o).wins = c.wins := rfl
@[simp] theorem Chip.syncs_noise (c : Chip) (r) (n) (o) : (c.noise r n o).syncs = c.syncs := rfl
@[simp] theorem Chip.snapAll_noise (c : Chip) (r) (n) (o) : (c.noise r n o).snapAll = c.snapAll := rfl
@[simp] theorem Chip.commits_noise (c : Chip) (r) (n) (o) : (c.noise r n o).commits = c.commits := rfl
@[simp] theorem Chip.group_noise (c : Chip) (r) (n) (o) : (c.noise r n o).group = c.group := rfl
@[simp] theorem Chip.wseq_noise (c : Chip) (r) (n) (o) : (c.noise r n o).wseq = c.wseq := rfl
@[simp] theorem Chip.failed_noise (c : Chip) (r) (n) (o) : (c.noise r n o).failed = c.failed := rfl
@[simp] theorem Chip.undecided_noise (c : Chip) (r) (n) (o) : (c.noise r n o).undecided = c.undecided := rfl
@[simp] theorem Chip.pel_noise (c : Chip) (r) (n) (o) : (c.noise r n o).pel = c.pel := rfl
@[simp] theorem Chip.pelSeq_noise (c : Chip) (r) (n) (o) : (c.noise r n o).pelSeq = c.pelSeq := rfl
@[simp] theorem Chip.capRing_noise (c : Chip) (r) (n) (o) : (c.noise r n o).capRing = c.capRing := rfl
@[simp] theorem Chip.tBase_noise (c : Chip) (r) (n) (o) : (c.noise r n o).tBase = c.tBase := rfl
@[simp] theorem Chip.tAnchor_noise (c : Chip) (r) (n) (o) : (c.noise r n o).tAnchor = c.tAnchor := rfl
@[simp] theorem Chip.tStopped_noise (c : Chip) (r) (n) (o) : (c.noise r n o).tStopped = c.tStopped := rfl
@[simp] theorem Chip.ports_noise (c : Chip) (r) (n) (o) : (c.noise r n o).ports = c.ports := rfl
@[simp] theorem Chip.warm_noise (c : Chip) (r) (n) (o) : (c.noise r n o).warm = c.warm := rfl
@[simp] theorem Chip.queues_noise (c : Chip) (r) (n) (o) : (c.noise r n o).queues = c.queues := rfl
@[simp] theorem Chip.seqs_noise (c : Chip) (r) (n) (o) : (c.noise r n o).seqs = c.seqs := rfl
@[simp] theorem Chip.tx_noise (c : Chip) (r) (n) (o) : (c.noise r n o).tx = c.tx := rfl
@[simp] theorem Chip.preempted_noise (c : Chip) (r) (n) (o) : (c.noise r n o).preempted = c.preempted := rfl
@[simp] theorem Chip.rx_noise (c : Chip) (r) (n) (o) : (c.noise r n o).rx = c.rx := rfl
@[simp] theorem Chip.nextFid_noise (c : Chip) (r) (n) (o) : (c.noise r n o).nextFid = c.nextFid := rfl
@[simp] theorem Chip.spillCredit_noise (c : Chip) (r) (n) (o) : (c.noise r n o).spillCredit = c.spillCredit := rfl
@[simp] theorem Chip.spillAt_noise (c : Chip) (r) (n) (o) : (c.noise r n o).spillAt = c.spillAt := rfl
@[simp] theorem Chip.bypass_noise (c : Chip) (r) (n) (o) : (c.noise r n o).bypass = c.bypass := rfl
@[simp] theorem Chip.partials_noise (c : Chip) (r) (n) (o) : (c.noise r n o).partials = c.partials := rfl
@[simp] theorem Chip.comps_noise (c : Chip) (r) (n) (o) : (c.noise r n o).comps = c.comps := rfl
@[simp] theorem Chip.members_noise (c : Chip) (r) (n) (o) : (c.noise r n o).members = c.members := rfl
@[simp] theorem Chip.holds_noise (c : Chip) (r) (n) (o) : (c.noise r n o).holds = c.holds := rfl
@[simp] theorem Chip.ageAt_noise (c : Chip) (r) (n) (o) : (c.noise r n o).ageAt = c.ageAt := rfl
@[simp] theorem Chip.flush_noise (c : Chip) (r) (n) (o) : (c.noise r n o).flush = c.flush := rfl
@[simp] theorem Chip.spillTraining_noise (c : Chip) (r) (n) (o) : (c.noise r n o).spillTraining = c.spillTraining := rfl
@[simp] theorem Chip.timeHfrc_noise (c : Chip) (r) (n) (o) : (c.noise r n o).timeHfrc = c.timeHfrc := rfl
@[simp] theorem Chip.slewIndex_noise (c : Chip) (r) (n) (o) : (c.noise r n o).slewIndex = c.slewIndex := rfl
@[simp] theorem Chip.corrAt_noise (c : Chip) (r) (n) (o) : (c.noise r n o).corrAt = c.corrAt := rfl
@[simp] theorem Chip.holdoverAt_noise (c : Chip) (r) (n) (o) : (c.noise r n o).holdoverAt = c.holdoverAt := rfl
@[simp] theorem Chip.holdoverLong_noise (c : Chip) (r) (n) (o) : (c.noise r n o).holdoverLong = c.holdoverLong := rfl
@[simp] theorem Chip.ppsArm_noise (c : Chip) (r) (n) (o) : (c.noise r n o).ppsArm = c.ppsArm := rfl
@[simp] theorem Chip.ppsOut_noise (c : Chip) (r) (n) (o) : (c.noise r n o).ppsOut = c.ppsOut := rfl
@[simp] theorem Chip.ppsSecond_noise (c : Chip) (r) (n) (o) : (c.noise r n o).ppsSecond = c.ppsSecond := rfl
@[simp] theorem Chip.ppsOld_noise (c : Chip) (r) (n) (o) : (c.noise r n o).ppsOld = c.ppsOld := rfl
@[simp] theorem Chip.stepAt_noise (c : Chip) (r) (n) (o) : (c.noise r n o).stepAt = c.stepAt := rfl
@[simp] theorem Chip.lossAt_noise (c : Chip) (r) (n) (o) : (c.noise r n o).lossAt = c.lossAt := rfl
@[simp] theorem Chip.tm_noise (c : Chip) (r) (n) (o) : (c.noise r n o).tm = c.tm := rfl
@[simp] theorem Chip.headEpoch_noise (c : Chip) (r) (n) (o) : (c.noise r n o).headEpoch = c.headEpoch := rfl
@[simp] theorem Chip.ptp_noise (c : Chip) (r) (n) (o) : (c.noise r n o).ptp = c.ptp := rfl
@[simp] theorem Chip.lists_noise (c : Chip) (r) (n) (o) : (c.noise r n o).lists = c.lists := rfl
@[simp] theorem Chip.storyHalted_noise (c : Chip) (r) (n) (o) : (c.noise r n o).storyHalted = c.storyHalted := rfl
@[simp] theorem Chip.ones_noise (c : Chip) (r) (n) (o) : (c.noise r n o).ones = c.ones := rfl
@[simp] theorem Chip.pinPulses_noise (c : Chip) (r) (n) (o) : (c.noise r n o).pinPulses = c.pinPulses := rfl
@[simp] theorem Chip.pinShot_noise (c : Chip) (r) (n) (o) : (c.noise r n o).pinShot = c.pinShot := rfl
@[simp] theorem Chip.pulses_noise (c : Chip) (r) (n) (o) : (c.noise r n o).pulses = c.pulses := rfl
@[simp] theorem Chip.distIndex_noise (c : Chip) (r) (n) (o) : (c.noise r n o).distIndex = c.distIndex := rfl
@[simp] theorem Chip.rels_noise (c : Chip) (r) (n) (o) : (c.noise r n o).rels = c.rels := rfl
@[simp] theorem Chip.rlog_noise (c : Chip) (r) (n) (o) : (c.noise r n o).rlog = c.rlog := rfl
@[simp] theorem Chip.rlogSeq_noise (c : Chip) (r) (n) (o) : (c.noise r n o).rlogSeq = c.rlogSeq := rfl
@[simp] theorem Chip.ilog_noise (c : Chip) (r) (n) (o) : (c.noise r n o).ilog = c.ilog := rfl
@[simp] theorem Chip.ilogSeq_noise (c : Chip) (r) (n) (o) : (c.noise r n o).ilogSeq = c.ilogSeq := rfl
@[simp] theorem Chip.watches_noise (c : Chip) (r) (n) (o) : (c.noise r n o).watches = c.watches := rfl
@[simp] theorem Chip.safeFrames_noise (c : Chip) (r) (n) (o) : (c.noise r n o).safeFrames = c.safeFrames := rfl
@[simp] theorem Chip.policers_noise (c : Chip) (r) (n) (o) : (c.noise r n o).policers = c.policers := rfl
@[simp] theorem Chip.sessions_noise (c : Chip) (r) (n) (o) : (c.noise r n o).sessions = c.sessions := rfl
@[simp] theorem Chip.units_noise (c : Chip) (r) (n) (o) : (c.noise r n o).units = c.units := rfl
@[simp] theorem Chip.claims_noise (c : Chip) (r) (n) (o) : (c.noise r n o).claims = c.claims := rfl
@[simp] theorem Chip.unitCmd_noise (c : Chip) (r) (n) (o) : (c.noise r n o).unitCmd = c.unitCmd := rfl
@[simp] theorem Chip.pns_noise (c : Chip) (r) (n) (o) : (c.noise r n o).pns = c.pns := rfl
@[simp] theorem Chip.saKeys_noise (c : Chip) (r) (n) (o) : (c.noise r n o).saKeys = c.saKeys := rfl
@[simp] theorem Chip.keyInstall_noise (c : Chip) (r) (n) (o) : (c.noise r n o).keyInstall = c.keyInstall := rfl
@[simp] theorem Chip.root_noise (c : Chip) (r) (n) (o) : (c.noise r n o).root = c.root := rfl
@[simp] theorem Chip.slots_noise (c : Chip) (r) (n) (o) : (c.noise r n o).slots = c.slots := rfl
@[simp] theorem Chip.succ_noise (c : Chip) (r) (n) (o) : (c.noise r n o).succ = c.succ := rfl
@[simp] theorem Chip.prisilOps_noise (c : Chip) (r) (n) (o) : (c.noise r n o).prisilOps = c.prisilOps := rfl
@[simp] theorem Chip.shareFaults_noise (c : Chip) (r) (n) (o) : (c.noise r n o).shareFaults = c.shareFaults := rfl
@[simp] theorem Chip.inq_noise (c : Chip) (r) (n) (o) : (c.noise r n o).inq = c.inq := rfl
@[simp] theorem Chip.cans_noise (c : Chip) (r) (n) (o) : (c.noise r n o).cans = c.cans := rfl
@[simp] theorem Chip.lins_noise (c : Chip) (r) (n) (o) : (c.noise r n o).lins = c.lins := rfl
@[simp] theorem Chip.uarts_noise (c : Chip) (r) (n) (o) : (c.noise r n o).uarts = c.uarts := rfl
@[simp] theorem Chip.acfs_noise (c : Chip) (r) (n) (o) : (c.noise r n o).acfs = c.acfs := rfl
@[simp] theorem Chip.asms_noise (c : Chip) (r) (n) (o) : (c.noise r n o).asms = c.asms := rfl
@[simp] theorem Chip.sigs_noise (c : Chip) (r) (n) (o) : (c.noise r n o).sigs = c.sigs := rfl
@[simp] theorem Chip.nius_noise (c : Chip) (r) (n) (o) : (c.noise r n o).nius = c.nius := rfl
@[simp] theorem Chip.tenons_noise (c : Chip) (r) (n) (o) : (c.noise r n o).tenons = c.tenons := rfl
@[simp] theorem Chip.tWait_noise (c : Chip) (r) (n) (o) : (c.noise r n o).tWait = c.tWait := rfl
@[simp] theorem Chip.tOwed_noise (c : Chip) (r) (n) (o) : (c.noise r n o).tOwed = c.tOwed := rfl
@[simp] theorem Chip.remotes_noise (c : Chip) (r) (n) (o) : (c.noise r n o).remotes = c.remotes := rfl
@[simp] theorem Chip.ehruzConflict_noise (c : Chip) (r) (n) (o) : (c.noise r n o).ehruzConflict = c.ehruzConflict := rfl
@[simp] theorem Chip.rings_noise (c : Chip) (r) (n) (o) : (c.noise r n o).rings = c.rings := rfl
@[simp] theorem Chip.rxDma_noise (c : Chip) (r) (n) (o) : (c.noise r n o).rxDma = c.rxDma := rfl
@[simp] theorem Chip.rxHeld_noise (c : Chip) (r) (n) (o) : (c.noise r n o).rxHeld = c.rxHeld := rfl
@[simp] theorem Chip.xings_noise (c : Chip) (r) (n) (o) : (c.noise r n o).xings = c.xings := rfl
@[simp] theorem Chip.readRing_noise (c : Chip) (r) (n) (o) : (c.noise r n o).readRing = c.readRing := rfl
@[simp] theorem Chip.writeRing_noise (c : Chip) (r) (n) (o) : (c.noise r n o).writeRing = c.writeRing := rfl
@[simp] theorem Chip.readPre_noise (c : Chip) (r) (n) (o) : (c.noise r n o).readPre = c.readPre := rfl
@[simp] theorem Chip.writePre_noise (c : Chip) (r) (n) (o) : (c.noise r n o).writePre = c.writePre := rfl
@[simp] theorem Chip.tlb_noise (c : Chip) (r) (n) (o) : (c.noise r n o).tlb = c.tlb := rfl
@[simp] theorem Chip.flts_noise (c : Chip) (r) (n) (o) : (c.noise r n o).flts = c.flts := rfl
@[simp] theorem Chip.fltSeq_noise (c : Chip) (r) (n) (o) : (c.noise r n o).fltSeq = c.fltSeq := rfl
@[simp] theorem Chip.invs_noise (c : Chip) (r) (n) (o) : (c.noise r n o).invs = c.invs := rfl
@[simp] theorem Chip.fences_noise (c : Chip) (r) (n) (o) : (c.noise r n o).fences = c.fences := rfl
@[simp] theorem Chip.qsRead_noise (c : Chip) (r) (n) (o) : (c.noise r n o).qsRead = c.qsRead := rfl
@[simp] theorem Chip.clk_noise (c : Chip) (r) (n) (o) : (c.noise r n o).clk = c.clk := rfl
@[simp] theorem Chip.pwr_noise (c : Chip) (r) (n) (o) : (c.noise r n o).pwr = c.pwr := rfl
@[simp] theorem Chip.aon_noise (c : Chip) (r) (n) (o) : (c.noise r n o).aon = c.aon := rfl
@[simp] theorem Chip.wdt_noise (c : Chip) (r) (n) (o) : (c.noise r n o).wdt = c.wdt := rfl
@[simp] theorem Chip.tr_noise (c : Chip) (r) (n) (o) : (c.noise r n o).tr = c.tr := rfl
@[simp] theorem Chip.flOps_noise (c : Chip) (r) (n) (o) : (c.noise r n o).flOps = c.flOps := rfl
@[simp] theorem Chip.otpOp_noise (c : Chip) (r) (n) (o) : (c.noise r n o).otpOp = c.otpOp := rfl
@[simp] theorem Chip.boot_noise (c : Chip) (r) (n) (o) : (c.noise r n o).boot = c.boot := rfl
@[simp] theorem Chip.upd_noise (c : Chip) (r) (n) (o) : (c.noise r n o).upd = c.upd := rfl
@[simp] theorem Chip.wear_noise (c : Chip) (r) (n) (o) : (c.noise r n o).wear = c.wear := rfl
@[simp] theorem Chip.testHold_noise (c : Chip) (r) (n) (o) : (c.noise r n o).testHold = c.testHold := rfl
@[simp] theorem Chip.aer_noise (c : Chip) (r) (n) (o) : (c.noise r n o).aer = c.aer := rfl
@[simp] theorem Chip.dormant_noise (c : Chip) (r) (n) (o) : (c.noise r n o).dormant = c.dormant := rfl
@[simp] theorem Chip.bootFail_noise (c : Chip) (r) (n) (o) : (c.noise r n o).bootFail = c.bootFail := rfl

/-! ## withTables -/

@[simp] theorem Chip.cycles_withTables (c : Chip) (a b) : (c.withTables a b).cycles = c.cycles := rfl
@[simp] theorem Chip.rstAt_withTables (c : Chip) (a b) : (c.withTables a b).rstAt = c.rstAt := rfl
@[simp] theorem Chip.free_withTables (c : Chip) (a b) : (c.withTables a b).free = c.free := rfl
@[simp] theorem Chip.outs_withTables (c : Chip) (a b) : (c.withTables a b).outs = c.outs := rfl
@[simp] theorem Chip.regs_withTables (c : Chip) (a b) : (c.withTables a b).regs = c.regs := rfl
@[simp] theorem Chip.tblA_withTables (c : Chip) (a b) : (c.withTables a b).tblA = a := rfl
@[simp] theorem Chip.tblS_withTables (c : Chip) (a b) : (c.withTables a b).tblS = b := rfl
@[simp] theorem Chip.cnt_withTables (c : Chip) (a b) : (c.withTables a b).cnt = c.cnt := rfl
@[simp] theorem Chip.snap_withTables (c : Chip) (a b) : (c.withTables a b).snap = c.snap := rfl
@[simp] theorem Chip.wbuf_withTables (c : Chip) (a b) : (c.withTables a b).wbuf = c.wbuf := rfl
@[simp] theorem Chip.wins_withTables (c : Chip) (a b) : (c.withTables a b).wins = c.wins := rfl
@[simp] theorem Chip.syncs_withTables (c : Chip) (a b) : (c.withTables a b).syncs = c.syncs := rfl
@[simp] theorem Chip.snapAll_withTables (c : Chip) (a b) : (c.withTables a b).snapAll = c.snapAll := rfl
@[simp] theorem Chip.commits_withTables (c : Chip) (a b) : (c.withTables a b).commits = c.commits := rfl
@[simp] theorem Chip.group_withTables (c : Chip) (a b) : (c.withTables a b).group = c.group := rfl
@[simp] theorem Chip.wseq_withTables (c : Chip) (a b) : (c.withTables a b).wseq = c.wseq := rfl
@[simp] theorem Chip.failed_withTables (c : Chip) (a b) : (c.withTables a b).failed = c.failed := rfl
@[simp] theorem Chip.undecided_withTables (c : Chip) (a b) : (c.withTables a b).undecided = c.undecided := rfl
@[simp] theorem Chip.pel_withTables (c : Chip) (a b) : (c.withTables a b).pel = c.pel := rfl
@[simp] theorem Chip.pelSeq_withTables (c : Chip) (a b) : (c.withTables a b).pelSeq = c.pelSeq := rfl
@[simp] theorem Chip.capRing_withTables (c : Chip) (a b) : (c.withTables a b).capRing = c.capRing := rfl
@[simp] theorem Chip.tBase_withTables (c : Chip) (a b) : (c.withTables a b).tBase = c.tBase := rfl
@[simp] theorem Chip.tAnchor_withTables (c : Chip) (a b) : (c.withTables a b).tAnchor = c.tAnchor := rfl
@[simp] theorem Chip.tStopped_withTables (c : Chip) (a b) : (c.withTables a b).tStopped = c.tStopped := rfl
@[simp] theorem Chip.ports_withTables (c : Chip) (a b) : (c.withTables a b).ports = c.ports := rfl
@[simp] theorem Chip.warm_withTables (c : Chip) (a b) : (c.withTables a b).warm = c.warm := rfl
@[simp] theorem Chip.queues_withTables (c : Chip) (a b) : (c.withTables a b).queues = c.queues := rfl
@[simp] theorem Chip.seqs_withTables (c : Chip) (a b) : (c.withTables a b).seqs = c.seqs := rfl
@[simp] theorem Chip.tx_withTables (c : Chip) (a b) : (c.withTables a b).tx = c.tx := rfl
@[simp] theorem Chip.preempted_withTables (c : Chip) (a b) : (c.withTables a b).preempted = c.preempted := rfl
@[simp] theorem Chip.rx_withTables (c : Chip) (a b) : (c.withTables a b).rx = c.rx := rfl
@[simp] theorem Chip.nextFid_withTables (c : Chip) (a b) : (c.withTables a b).nextFid = c.nextFid := rfl
@[simp] theorem Chip.spillCredit_withTables (c : Chip) (a b) : (c.withTables a b).spillCredit = c.spillCredit := rfl
@[simp] theorem Chip.spillAt_withTables (c : Chip) (a b) : (c.withTables a b).spillAt = c.spillAt := rfl
@[simp] theorem Chip.bypass_withTables (c : Chip) (a b) : (c.withTables a b).bypass = c.bypass := rfl
@[simp] theorem Chip.partials_withTables (c : Chip) (a b) : (c.withTables a b).partials = c.partials := rfl
@[simp] theorem Chip.comps_withTables (c : Chip) (a b) : (c.withTables a b).comps = c.comps := rfl
@[simp] theorem Chip.members_withTables (c : Chip) (a b) : (c.withTables a b).members = c.members := rfl
@[simp] theorem Chip.holds_withTables (c : Chip) (a b) : (c.withTables a b).holds = c.holds := rfl
@[simp] theorem Chip.ageAt_withTables (c : Chip) (a b) : (c.withTables a b).ageAt = c.ageAt := rfl
@[simp] theorem Chip.flush_withTables (c : Chip) (a b) : (c.withTables a b).flush = c.flush := rfl
@[simp] theorem Chip.spillTraining_withTables (c : Chip) (a b) : (c.withTables a b).spillTraining = c.spillTraining := rfl
@[simp] theorem Chip.timeHfrc_withTables (c : Chip) (a b) : (c.withTables a b).timeHfrc = c.timeHfrc := rfl
@[simp] theorem Chip.slewIndex_withTables (c : Chip) (a b) : (c.withTables a b).slewIndex = c.slewIndex := rfl
@[simp] theorem Chip.corrAt_withTables (c : Chip) (a b) : (c.withTables a b).corrAt = c.corrAt := rfl
@[simp] theorem Chip.holdoverAt_withTables (c : Chip) (a b) : (c.withTables a b).holdoverAt = c.holdoverAt := rfl
@[simp] theorem Chip.holdoverLong_withTables (c : Chip) (a b) : (c.withTables a b).holdoverLong = c.holdoverLong := rfl
@[simp] theorem Chip.ppsArm_withTables (c : Chip) (a b) : (c.withTables a b).ppsArm = c.ppsArm := rfl
@[simp] theorem Chip.ppsOut_withTables (c : Chip) (a b) : (c.withTables a b).ppsOut = c.ppsOut := rfl
@[simp] theorem Chip.ppsSecond_withTables (c : Chip) (a b) : (c.withTables a b).ppsSecond = c.ppsSecond := rfl
@[simp] theorem Chip.ppsOld_withTables (c : Chip) (a b) : (c.withTables a b).ppsOld = c.ppsOld := rfl
@[simp] theorem Chip.stepAt_withTables (c : Chip) (a b) : (c.withTables a b).stepAt = c.stepAt := rfl
@[simp] theorem Chip.lossAt_withTables (c : Chip) (a b) : (c.withTables a b).lossAt = c.lossAt := rfl
@[simp] theorem Chip.tm_withTables (c : Chip) (a b) : (c.withTables a b).tm = c.tm := rfl
@[simp] theorem Chip.headEpoch_withTables (c : Chip) (a b) : (c.withTables a b).headEpoch = c.headEpoch := rfl
@[simp] theorem Chip.ptp_withTables (c : Chip) (a b) : (c.withTables a b).ptp = c.ptp := rfl
@[simp] theorem Chip.lists_withTables (c : Chip) (a b) : (c.withTables a b).lists = c.lists := rfl
@[simp] theorem Chip.storyHalted_withTables (c : Chip) (a b) : (c.withTables a b).storyHalted = c.storyHalted := rfl
@[simp] theorem Chip.ones_withTables (c : Chip) (a b) : (c.withTables a b).ones = c.ones := rfl
@[simp] theorem Chip.pinPulses_withTables (c : Chip) (a b) : (c.withTables a b).pinPulses = c.pinPulses := rfl
@[simp] theorem Chip.pinShot_withTables (c : Chip) (a b) : (c.withTables a b).pinShot = c.pinShot := rfl
@[simp] theorem Chip.pulses_withTables (c : Chip) (a b) : (c.withTables a b).pulses = c.pulses := rfl
@[simp] theorem Chip.distIndex_withTables (c : Chip) (a b) : (c.withTables a b).distIndex = c.distIndex := rfl
@[simp] theorem Chip.rels_withTables (c : Chip) (a b) : (c.withTables a b).rels = c.rels := rfl
@[simp] theorem Chip.rlog_withTables (c : Chip) (a b) : (c.withTables a b).rlog = c.rlog := rfl
@[simp] theorem Chip.rlogSeq_withTables (c : Chip) (a b) : (c.withTables a b).rlogSeq = c.rlogSeq := rfl
@[simp] theorem Chip.ilog_withTables (c : Chip) (a b) : (c.withTables a b).ilog = c.ilog := rfl
@[simp] theorem Chip.ilogSeq_withTables (c : Chip) (a b) : (c.withTables a b).ilogSeq = c.ilogSeq := rfl
@[simp] theorem Chip.watches_withTables (c : Chip) (a b) : (c.withTables a b).watches = c.watches := rfl
@[simp] theorem Chip.safeFrames_withTables (c : Chip) (a b) : (c.withTables a b).safeFrames = c.safeFrames := rfl
@[simp] theorem Chip.policers_withTables (c : Chip) (a b) : (c.withTables a b).policers = c.policers := rfl
@[simp] theorem Chip.sessions_withTables (c : Chip) (a b) : (c.withTables a b).sessions = c.sessions := rfl
@[simp] theorem Chip.units_withTables (c : Chip) (a b) : (c.withTables a b).units = c.units := rfl
@[simp] theorem Chip.claims_withTables (c : Chip) (a b) : (c.withTables a b).claims = c.claims := rfl
@[simp] theorem Chip.unitCmd_withTables (c : Chip) (a b) : (c.withTables a b).unitCmd = c.unitCmd := rfl
@[simp] theorem Chip.pns_withTables (c : Chip) (a b) : (c.withTables a b).pns = c.pns := rfl
@[simp] theorem Chip.saKeys_withTables (c : Chip) (a b) : (c.withTables a b).saKeys = c.saKeys := rfl
@[simp] theorem Chip.keyInstall_withTables (c : Chip) (a b) : (c.withTables a b).keyInstall = c.keyInstall := rfl
@[simp] theorem Chip.root_withTables (c : Chip) (a b) : (c.withTables a b).root = c.root := rfl
@[simp] theorem Chip.slots_withTables (c : Chip) (a b) : (c.withTables a b).slots = c.slots := rfl
@[simp] theorem Chip.succ_withTables (c : Chip) (a b) : (c.withTables a b).succ = c.succ := rfl
@[simp] theorem Chip.prisilOps_withTables (c : Chip) (a b) : (c.withTables a b).prisilOps = c.prisilOps := rfl
@[simp] theorem Chip.shareFaults_withTables (c : Chip) (a b) : (c.withTables a b).shareFaults = c.shareFaults := rfl
@[simp] theorem Chip.inq_withTables (c : Chip) (a b) : (c.withTables a b).inq = c.inq := rfl
@[simp] theorem Chip.cans_withTables (c : Chip) (a b) : (c.withTables a b).cans = c.cans := rfl
@[simp] theorem Chip.lins_withTables (c : Chip) (a b) : (c.withTables a b).lins = c.lins := rfl
@[simp] theorem Chip.uarts_withTables (c : Chip) (a b) : (c.withTables a b).uarts = c.uarts := rfl
@[simp] theorem Chip.acfs_withTables (c : Chip) (a b) : (c.withTables a b).acfs = c.acfs := rfl
@[simp] theorem Chip.asms_withTables (c : Chip) (a b) : (c.withTables a b).asms = c.asms := rfl
@[simp] theorem Chip.sigs_withTables (c : Chip) (a b) : (c.withTables a b).sigs = c.sigs := rfl
@[simp] theorem Chip.nius_withTables (c : Chip) (a b) : (c.withTables a b).nius = c.nius := rfl
@[simp] theorem Chip.tenons_withTables (c : Chip) (a b) : (c.withTables a b).tenons = c.tenons := rfl
@[simp] theorem Chip.tWait_withTables (c : Chip) (a b) : (c.withTables a b).tWait = c.tWait := rfl
@[simp] theorem Chip.tOwed_withTables (c : Chip) (a b) : (c.withTables a b).tOwed = c.tOwed := rfl
@[simp] theorem Chip.remotes_withTables (c : Chip) (a b) : (c.withTables a b).remotes = c.remotes := rfl
@[simp] theorem Chip.ehruzConflict_withTables (c : Chip) (a b) : (c.withTables a b).ehruzConflict = c.ehruzConflict := rfl
@[simp] theorem Chip.rings_withTables (c : Chip) (a b) : (c.withTables a b).rings = c.rings := rfl
@[simp] theorem Chip.rxDma_withTables (c : Chip) (a b) : (c.withTables a b).rxDma = c.rxDma := rfl
@[simp] theorem Chip.rxHeld_withTables (c : Chip) (a b) : (c.withTables a b).rxHeld = c.rxHeld := rfl
@[simp] theorem Chip.xings_withTables (c : Chip) (a b) : (c.withTables a b).xings = c.xings := rfl
@[simp] theorem Chip.readRing_withTables (c : Chip) (a b) : (c.withTables a b).readRing = c.readRing := rfl
@[simp] theorem Chip.writeRing_withTables (c : Chip) (a b) : (c.withTables a b).writeRing = c.writeRing := rfl
@[simp] theorem Chip.readPre_withTables (c : Chip) (a b) : (c.withTables a b).readPre = c.readPre := rfl
@[simp] theorem Chip.writePre_withTables (c : Chip) (a b) : (c.withTables a b).writePre = c.writePre := rfl
@[simp] theorem Chip.tlb_withTables (c : Chip) (a b) : (c.withTables a b).tlb = c.tlb := rfl
@[simp] theorem Chip.flts_withTables (c : Chip) (a b) : (c.withTables a b).flts = c.flts := rfl
@[simp] theorem Chip.fltSeq_withTables (c : Chip) (a b) : (c.withTables a b).fltSeq = c.fltSeq := rfl
@[simp] theorem Chip.invs_withTables (c : Chip) (a b) : (c.withTables a b).invs = c.invs := rfl
@[simp] theorem Chip.fences_withTables (c : Chip) (a b) : (c.withTables a b).fences = c.fences := rfl
@[simp] theorem Chip.qsRead_withTables (c : Chip) (a b) : (c.withTables a b).qsRead = c.qsRead := rfl
@[simp] theorem Chip.clk_withTables (c : Chip) (a b) : (c.withTables a b).clk = c.clk := rfl
@[simp] theorem Chip.pwr_withTables (c : Chip) (a b) : (c.withTables a b).pwr = c.pwr := rfl
@[simp] theorem Chip.aon_withTables (c : Chip) (a b) : (c.withTables a b).aon = c.aon := rfl
@[simp] theorem Chip.wdt_withTables (c : Chip) (a b) : (c.withTables a b).wdt = c.wdt := rfl
@[simp] theorem Chip.tr_withTables (c : Chip) (a b) : (c.withTables a b).tr = c.tr := rfl
@[simp] theorem Chip.flOps_withTables (c : Chip) (a b) : (c.withTables a b).flOps = c.flOps := rfl
@[simp] theorem Chip.otpOp_withTables (c : Chip) (a b) : (c.withTables a b).otpOp = c.otpOp := rfl
@[simp] theorem Chip.boot_withTables (c : Chip) (a b) : (c.withTables a b).boot = c.boot := rfl
@[simp] theorem Chip.upd_withTables (c : Chip) (a b) : (c.withTables a b).upd = c.upd := rfl
@[simp] theorem Chip.wear_withTables (c : Chip) (a b) : (c.withTables a b).wear = c.wear := rfl
@[simp] theorem Chip.testHold_withTables (c : Chip) (a b) : (c.withTables a b).testHold = c.testHold := rfl
@[simp] theorem Chip.aer_withTables (c : Chip) (a b) : (c.withTables a b).aer = c.aer := rfl
@[simp] theorem Chip.dormant_withTables (c : Chip) (a b) : (c.withTables a b).dormant = c.dormant := rfl
@[simp] theorem Chip.bootFail_withTables (c : Chip) (a b) : (c.withTables a b).bootFail = c.bootFail := rfl

/-! ## passed -/

@[simp] theorem Chip.cycles_passed (c : Chip) (n o) : (c.passed n o).cycles = n := rfl
@[simp] theorem Chip.rstAt_passed (c : Chip) (n o) : (c.passed n o).rstAt = c.rstAt := rfl
@[simp] theorem Chip.free_passed (c : Chip) (n o) : (c.passed n o).free = c.free := rfl
@[simp] theorem Chip.outs_passed (c : Chip) (n o) : (c.passed n o).outs = o := rfl
@[simp] theorem Chip.regs_passed (c : Chip) (n o) : (c.passed n o).regs = c.regs := rfl
@[simp] theorem Chip.tblA_passed (c : Chip) (n o) : (c.passed n o).tblA = c.tblA := rfl
@[simp] theorem Chip.tblS_passed (c : Chip) (n o) : (c.passed n o).tblS = c.tblS := rfl
@[simp] theorem Chip.cnt_passed (c : Chip) (n o) : (c.passed n o).cnt = c.cnt := rfl
@[simp] theorem Chip.snap_passed (c : Chip) (n o) : (c.passed n o).snap = c.snap := rfl
@[simp] theorem Chip.wbuf_passed (c : Chip) (n o) : (c.passed n o).wbuf = c.wbuf := rfl
@[simp] theorem Chip.wins_passed (c : Chip) (n o) : (c.passed n o).wins = c.wins := rfl
@[simp] theorem Chip.syncs_passed (c : Chip) (n o) : (c.passed n o).syncs = c.syncs := rfl
@[simp] theorem Chip.snapAll_passed (c : Chip) (n o) : (c.passed n o).snapAll = c.snapAll := rfl
@[simp] theorem Chip.commits_passed (c : Chip) (n o) : (c.passed n o).commits = c.commits := rfl
@[simp] theorem Chip.group_passed (c : Chip) (n o) : (c.passed n o).group = c.group := rfl
@[simp] theorem Chip.wseq_passed (c : Chip) (n o) : (c.passed n o).wseq = c.wseq := rfl
@[simp] theorem Chip.failed_passed (c : Chip) (n o) : (c.passed n o).failed = c.failed := rfl
@[simp] theorem Chip.undecided_passed (c : Chip) (n o) : (c.passed n o).undecided = c.undecided := rfl
@[simp] theorem Chip.pel_passed (c : Chip) (n o) : (c.passed n o).pel = c.pel := rfl
@[simp] theorem Chip.pelSeq_passed (c : Chip) (n o) : (c.passed n o).pelSeq = c.pelSeq := rfl
@[simp] theorem Chip.capRing_passed (c : Chip) (n o) : (c.passed n o).capRing = c.capRing := rfl
@[simp] theorem Chip.tBase_passed (c : Chip) (n o) : (c.passed n o).tBase = c.tBase := rfl
@[simp] theorem Chip.tAnchor_passed (c : Chip) (n o) : (c.passed n o).tAnchor = c.tAnchor := rfl
@[simp] theorem Chip.tStopped_passed (c : Chip) (n o) : (c.passed n o).tStopped = c.tStopped := rfl
@[simp] theorem Chip.ports_passed (c : Chip) (n o) : (c.passed n o).ports = c.ports := rfl
@[simp] theorem Chip.warm_passed (c : Chip) (n o) : (c.passed n o).warm = c.warm := rfl
@[simp] theorem Chip.queues_passed (c : Chip) (n o) : (c.passed n o).queues = c.queues := rfl
@[simp] theorem Chip.seqs_passed (c : Chip) (n o) : (c.passed n o).seqs = c.seqs := rfl
@[simp] theorem Chip.tx_passed (c : Chip) (n o) : (c.passed n o).tx = c.tx := rfl
@[simp] theorem Chip.preempted_passed (c : Chip) (n o) : (c.passed n o).preempted = c.preempted := rfl
@[simp] theorem Chip.rx_passed (c : Chip) (n o) : (c.passed n o).rx = c.rx := rfl
@[simp] theorem Chip.nextFid_passed (c : Chip) (n o) : (c.passed n o).nextFid = c.nextFid := rfl
@[simp] theorem Chip.spillCredit_passed (c : Chip) (n o) : (c.passed n o).spillCredit = c.spillCredit := rfl
@[simp] theorem Chip.spillAt_passed (c : Chip) (n o) : (c.passed n o).spillAt = c.spillAt := rfl
@[simp] theorem Chip.bypass_passed (c : Chip) (n o) : (c.passed n o).bypass = c.bypass := rfl
@[simp] theorem Chip.partials_passed (c : Chip) (n o) : (c.passed n o).partials = c.partials := rfl
@[simp] theorem Chip.comps_passed (c : Chip) (n o) : (c.passed n o).comps = c.comps := rfl
@[simp] theorem Chip.members_passed (c : Chip) (n o) : (c.passed n o).members = c.members := rfl
@[simp] theorem Chip.holds_passed (c : Chip) (n o) : (c.passed n o).holds = c.holds := rfl
@[simp] theorem Chip.ageAt_passed (c : Chip) (n o) : (c.passed n o).ageAt = c.ageAt := rfl
@[simp] theorem Chip.flush_passed (c : Chip) (n o) : (c.passed n o).flush = c.flush := rfl
@[simp] theorem Chip.spillTraining_passed (c : Chip) (n o) : (c.passed n o).spillTraining = c.spillTraining := rfl
@[simp] theorem Chip.timeHfrc_passed (c : Chip) (n o) : (c.passed n o).timeHfrc = c.timeHfrc := rfl
@[simp] theorem Chip.slewIndex_passed (c : Chip) (n o) : (c.passed n o).slewIndex = c.slewIndex := rfl
@[simp] theorem Chip.corrAt_passed (c : Chip) (n o) : (c.passed n o).corrAt = c.corrAt := rfl
@[simp] theorem Chip.holdoverAt_passed (c : Chip) (n o) : (c.passed n o).holdoverAt = c.holdoverAt := rfl
@[simp] theorem Chip.holdoverLong_passed (c : Chip) (n o) : (c.passed n o).holdoverLong = c.holdoverLong := rfl
@[simp] theorem Chip.ppsArm_passed (c : Chip) (n o) : (c.passed n o).ppsArm = c.ppsArm := rfl
@[simp] theorem Chip.ppsOut_passed (c : Chip) (n o) : (c.passed n o).ppsOut = c.ppsOut := rfl
@[simp] theorem Chip.ppsSecond_passed (c : Chip) (n o) : (c.passed n o).ppsSecond = c.ppsSecond := rfl
@[simp] theorem Chip.ppsOld_passed (c : Chip) (n o) : (c.passed n o).ppsOld = c.ppsOld := rfl
@[simp] theorem Chip.stepAt_passed (c : Chip) (n o) : (c.passed n o).stepAt = c.stepAt := rfl
@[simp] theorem Chip.lossAt_passed (c : Chip) (n o) : (c.passed n o).lossAt = c.lossAt := rfl
@[simp] theorem Chip.tm_passed (c : Chip) (n o) : (c.passed n o).tm = c.tm := rfl
@[simp] theorem Chip.headEpoch_passed (c : Chip) (n o) : (c.passed n o).headEpoch = c.headEpoch := rfl
@[simp] theorem Chip.ptp_passed (c : Chip) (n o) : (c.passed n o).ptp = c.ptp := rfl
@[simp] theorem Chip.lists_passed (c : Chip) (n o) : (c.passed n o).lists = c.lists := rfl
@[simp] theorem Chip.storyHalted_passed (c : Chip) (n o) : (c.passed n o).storyHalted = c.storyHalted := rfl
@[simp] theorem Chip.ones_passed (c : Chip) (n o) : (c.passed n o).ones = c.ones := rfl
@[simp] theorem Chip.pinPulses_passed (c : Chip) (n o) : (c.passed n o).pinPulses = c.pinPulses := rfl
@[simp] theorem Chip.pinShot_passed (c : Chip) (n o) : (c.passed n o).pinShot = c.pinShot := rfl
@[simp] theorem Chip.pulses_passed (c : Chip) (n o) : (c.passed n o).pulses = c.pulses := rfl
@[simp] theorem Chip.distIndex_passed (c : Chip) (n o) : (c.passed n o).distIndex = c.distIndex := rfl
@[simp] theorem Chip.rels_passed (c : Chip) (n o) : (c.passed n o).rels = c.rels := rfl
@[simp] theorem Chip.rlog_passed (c : Chip) (n o) : (c.passed n o).rlog = c.rlog := rfl
@[simp] theorem Chip.rlogSeq_passed (c : Chip) (n o) : (c.passed n o).rlogSeq = c.rlogSeq := rfl
@[simp] theorem Chip.ilog_passed (c : Chip) (n o) : (c.passed n o).ilog = c.ilog := rfl
@[simp] theorem Chip.ilogSeq_passed (c : Chip) (n o) : (c.passed n o).ilogSeq = c.ilogSeq := rfl
@[simp] theorem Chip.watches_passed (c : Chip) (n o) : (c.passed n o).watches = c.watches := rfl
@[simp] theorem Chip.safeFrames_passed (c : Chip) (n o) : (c.passed n o).safeFrames = c.safeFrames := rfl
@[simp] theorem Chip.policers_passed (c : Chip) (n o) : (c.passed n o).policers = c.policers := rfl
@[simp] theorem Chip.sessions_passed (c : Chip) (n o) : (c.passed n o).sessions = c.sessions := rfl
@[simp] theorem Chip.units_passed (c : Chip) (n o) : (c.passed n o).units = c.units := rfl
@[simp] theorem Chip.claims_passed (c : Chip) (n o) : (c.passed n o).claims = c.claims := rfl
@[simp] theorem Chip.unitCmd_passed (c : Chip) (n o) : (c.passed n o).unitCmd = c.unitCmd := rfl
@[simp] theorem Chip.pns_passed (c : Chip) (n o) : (c.passed n o).pns = c.pns := rfl
@[simp] theorem Chip.saKeys_passed (c : Chip) (n o) : (c.passed n o).saKeys = c.saKeys := rfl
@[simp] theorem Chip.keyInstall_passed (c : Chip) (n o) : (c.passed n o).keyInstall = c.keyInstall := rfl
@[simp] theorem Chip.root_passed (c : Chip) (n o) : (c.passed n o).root = c.root := rfl
@[simp] theorem Chip.slots_passed (c : Chip) (n o) : (c.passed n o).slots = c.slots := rfl
@[simp] theorem Chip.succ_passed (c : Chip) (n o) : (c.passed n o).succ = c.succ := rfl
@[simp] theorem Chip.prisilOps_passed (c : Chip) (n o) : (c.passed n o).prisilOps = c.prisilOps := rfl
@[simp] theorem Chip.shareFaults_passed (c : Chip) (n o) : (c.passed n o).shareFaults = c.shareFaults := rfl
@[simp] theorem Chip.inq_passed (c : Chip) (n o) : (c.passed n o).inq = c.inq := rfl
@[simp] theorem Chip.cans_passed (c : Chip) (n o) : (c.passed n o).cans = c.cans := rfl
@[simp] theorem Chip.lins_passed (c : Chip) (n o) : (c.passed n o).lins = c.lins := rfl
@[simp] theorem Chip.uarts_passed (c : Chip) (n o) : (c.passed n o).uarts = c.uarts := rfl
@[simp] theorem Chip.acfs_passed (c : Chip) (n o) : (c.passed n o).acfs = c.acfs := rfl
@[simp] theorem Chip.asms_passed (c : Chip) (n o) : (c.passed n o).asms = c.asms := rfl
@[simp] theorem Chip.sigs_passed (c : Chip) (n o) : (c.passed n o).sigs = c.sigs := rfl
@[simp] theorem Chip.nius_passed (c : Chip) (n o) : (c.passed n o).nius = c.nius := rfl
@[simp] theorem Chip.tenons_passed (c : Chip) (n o) : (c.passed n o).tenons = c.tenons := rfl
@[simp] theorem Chip.tWait_passed (c : Chip) (n o) : (c.passed n o).tWait = c.tWait := rfl
@[simp] theorem Chip.tOwed_passed (c : Chip) (n o) : (c.passed n o).tOwed = c.tOwed := rfl
@[simp] theorem Chip.remotes_passed (c : Chip) (n o) : (c.passed n o).remotes = c.remotes := rfl
@[simp] theorem Chip.ehruzConflict_passed (c : Chip) (n o) : (c.passed n o).ehruzConflict = c.ehruzConflict := rfl
@[simp] theorem Chip.rings_passed (c : Chip) (n o) : (c.passed n o).rings = c.rings := rfl
@[simp] theorem Chip.rxDma_passed (c : Chip) (n o) : (c.passed n o).rxDma = c.rxDma := rfl
@[simp] theorem Chip.rxHeld_passed (c : Chip) (n o) : (c.passed n o).rxHeld = c.rxHeld := rfl
@[simp] theorem Chip.xings_passed (c : Chip) (n o) : (c.passed n o).xings = c.xings := rfl
@[simp] theorem Chip.readRing_passed (c : Chip) (n o) : (c.passed n o).readRing = c.readRing := rfl
@[simp] theorem Chip.writeRing_passed (c : Chip) (n o) : (c.passed n o).writeRing = c.writeRing := rfl
@[simp] theorem Chip.readPre_passed (c : Chip) (n o) : (c.passed n o).readPre = c.readPre := rfl
@[simp] theorem Chip.writePre_passed (c : Chip) (n o) : (c.passed n o).writePre = c.writePre := rfl
@[simp] theorem Chip.tlb_passed (c : Chip) (n o) : (c.passed n o).tlb = c.tlb := rfl
@[simp] theorem Chip.flts_passed (c : Chip) (n o) : (c.passed n o).flts = c.flts := rfl
@[simp] theorem Chip.fltSeq_passed (c : Chip) (n o) : (c.passed n o).fltSeq = c.fltSeq := rfl
@[simp] theorem Chip.invs_passed (c : Chip) (n o) : (c.passed n o).invs = c.invs := rfl
@[simp] theorem Chip.fences_passed (c : Chip) (n o) : (c.passed n o).fences = c.fences := rfl
@[simp] theorem Chip.qsRead_passed (c : Chip) (n o) : (c.passed n o).qsRead = c.qsRead := rfl
@[simp] theorem Chip.clk_passed (c : Chip) (n o) : (c.passed n o).clk = c.clk := rfl
@[simp] theorem Chip.pwr_passed (c : Chip) (n o) : (c.passed n o).pwr = c.pwr := rfl
@[simp] theorem Chip.aon_passed (c : Chip) (n o) : (c.passed n o).aon = c.aon := rfl
@[simp] theorem Chip.wdt_passed (c : Chip) (n o) : (c.passed n o).wdt = c.wdt := rfl
@[simp] theorem Chip.tr_passed (c : Chip) (n o) : (c.passed n o).tr = c.tr := rfl
@[simp] theorem Chip.flOps_passed (c : Chip) (n o) : (c.passed n o).flOps = c.flOps := rfl
@[simp] theorem Chip.otpOp_passed (c : Chip) (n o) : (c.passed n o).otpOp = c.otpOp := rfl
@[simp] theorem Chip.boot_passed (c : Chip) (n o) : (c.passed n o).boot = c.boot := rfl
@[simp] theorem Chip.upd_passed (c : Chip) (n o) : (c.passed n o).upd = c.upd := rfl
@[simp] theorem Chip.wear_passed (c : Chip) (n o) : (c.passed n o).wear = c.wear := rfl
@[simp] theorem Chip.testHold_passed (c : Chip) (n o) : (c.passed n o).testHold = c.testHold := rfl
@[simp] theorem Chip.aer_passed (c : Chip) (n o) : (c.passed n o).aer = c.aer := rfl
@[simp] theorem Chip.dormant_passed (c : Chip) (n o) : (c.passed n o).dormant = c.dormant := rfl
@[simp] theorem Chip.bootFail_passed (c : Chip) (n o) : (c.passed n o).bootFail = c.bootFail := rfl

/-! ## elapse -/

@[simp] theorem Chip.rstAt_elapse (c : Chip) (dt) : (c.elapse dt).rstAt = c.rstAt := Chip.rstAt_passed c _ _
@[simp] theorem Chip.free_elapse (c : Chip) (dt) : (c.elapse dt).free = c.free := Chip.free_passed c _ _
@[simp] theorem Chip.regs_elapse (c : Chip) (dt) : (c.elapse dt).regs = c.regs := Chip.regs_passed c _ _
@[simp] theorem Chip.tblA_elapse (c : Chip) (dt) : (c.elapse dt).tblA = c.tblA := Chip.tblA_passed c _ _
@[simp] theorem Chip.tblS_elapse (c : Chip) (dt) : (c.elapse dt).tblS = c.tblS := Chip.tblS_passed c _ _
@[simp] theorem Chip.cnt_elapse (c : Chip) (dt) : (c.elapse dt).cnt = c.cnt := Chip.cnt_passed c _ _
@[simp] theorem Chip.snap_elapse (c : Chip) (dt) : (c.elapse dt).snap = c.snap := Chip.snap_passed c _ _
@[simp] theorem Chip.wbuf_elapse (c : Chip) (dt) : (c.elapse dt).wbuf = c.wbuf := Chip.wbuf_passed c _ _
@[simp] theorem Chip.wins_elapse (c : Chip) (dt) : (c.elapse dt).wins = c.wins := Chip.wins_passed c _ _
@[simp] theorem Chip.syncs_elapse (c : Chip) (dt) : (c.elapse dt).syncs = c.syncs := Chip.syncs_passed c _ _
@[simp] theorem Chip.snapAll_elapse (c : Chip) (dt) : (c.elapse dt).snapAll = c.snapAll := Chip.snapAll_passed c _ _
@[simp] theorem Chip.commits_elapse (c : Chip) (dt) : (c.elapse dt).commits = c.commits := Chip.commits_passed c _ _
@[simp] theorem Chip.group_elapse (c : Chip) (dt) : (c.elapse dt).group = c.group := Chip.group_passed c _ _
@[simp] theorem Chip.wseq_elapse (c : Chip) (dt) : (c.elapse dt).wseq = c.wseq := Chip.wseq_passed c _ _
@[simp] theorem Chip.failed_elapse (c : Chip) (dt) : (c.elapse dt).failed = c.failed := Chip.failed_passed c _ _
@[simp] theorem Chip.undecided_elapse (c : Chip) (dt) : (c.elapse dt).undecided = c.undecided := Chip.undecided_passed c _ _
@[simp] theorem Chip.pel_elapse (c : Chip) (dt) : (c.elapse dt).pel = c.pel := Chip.pel_passed c _ _
@[simp] theorem Chip.pelSeq_elapse (c : Chip) (dt) : (c.elapse dt).pelSeq = c.pelSeq := Chip.pelSeq_passed c _ _
@[simp] theorem Chip.capRing_elapse (c : Chip) (dt) : (c.elapse dt).capRing = c.capRing := Chip.capRing_passed c _ _
@[simp] theorem Chip.tBase_elapse (c : Chip) (dt) : (c.elapse dt).tBase = c.tBase := Chip.tBase_passed c _ _
@[simp] theorem Chip.tAnchor_elapse (c : Chip) (dt) : (c.elapse dt).tAnchor = c.tAnchor := Chip.tAnchor_passed c _ _
@[simp] theorem Chip.tStopped_elapse (c : Chip) (dt) : (c.elapse dt).tStopped = c.tStopped := Chip.tStopped_passed c _ _
@[simp] theorem Chip.ports_elapse (c : Chip) (dt) : (c.elapse dt).ports = c.ports := Chip.ports_passed c _ _
@[simp] theorem Chip.warm_elapse (c : Chip) (dt) : (c.elapse dt).warm = c.warm := Chip.warm_passed c _ _
@[simp] theorem Chip.queues_elapse (c : Chip) (dt) : (c.elapse dt).queues = c.queues := Chip.queues_passed c _ _
@[simp] theorem Chip.seqs_elapse (c : Chip) (dt) : (c.elapse dt).seqs = c.seqs := Chip.seqs_passed c _ _
@[simp] theorem Chip.tx_elapse (c : Chip) (dt) : (c.elapse dt).tx = c.tx := Chip.tx_passed c _ _
@[simp] theorem Chip.preempted_elapse (c : Chip) (dt) : (c.elapse dt).preempted = c.preempted := Chip.preempted_passed c _ _
@[simp] theorem Chip.rx_elapse (c : Chip) (dt) : (c.elapse dt).rx = c.rx := Chip.rx_passed c _ _
@[simp] theorem Chip.nextFid_elapse (c : Chip) (dt) : (c.elapse dt).nextFid = c.nextFid := Chip.nextFid_passed c _ _
@[simp] theorem Chip.spillCredit_elapse (c : Chip) (dt) : (c.elapse dt).spillCredit = c.spillCredit := Chip.spillCredit_passed c _ _
@[simp] theorem Chip.spillAt_elapse (c : Chip) (dt) : (c.elapse dt).spillAt = c.spillAt := Chip.spillAt_passed c _ _
@[simp] theorem Chip.bypass_elapse (c : Chip) (dt) : (c.elapse dt).bypass = c.bypass := Chip.bypass_passed c _ _
@[simp] theorem Chip.partials_elapse (c : Chip) (dt) : (c.elapse dt).partials = c.partials := Chip.partials_passed c _ _
@[simp] theorem Chip.comps_elapse (c : Chip) (dt) : (c.elapse dt).comps = c.comps := Chip.comps_passed c _ _
@[simp] theorem Chip.members_elapse (c : Chip) (dt) : (c.elapse dt).members = c.members := Chip.members_passed c _ _
@[simp] theorem Chip.holds_elapse (c : Chip) (dt) : (c.elapse dt).holds = c.holds := Chip.holds_passed c _ _
@[simp] theorem Chip.ageAt_elapse (c : Chip) (dt) : (c.elapse dt).ageAt = c.ageAt := Chip.ageAt_passed c _ _
@[simp] theorem Chip.flush_elapse (c : Chip) (dt) : (c.elapse dt).flush = c.flush := Chip.flush_passed c _ _
@[simp] theorem Chip.spillTraining_elapse (c : Chip) (dt) : (c.elapse dt).spillTraining = c.spillTraining := Chip.spillTraining_passed c _ _
@[simp] theorem Chip.timeHfrc_elapse (c : Chip) (dt) : (c.elapse dt).timeHfrc = c.timeHfrc := Chip.timeHfrc_passed c _ _
@[simp] theorem Chip.slewIndex_elapse (c : Chip) (dt) : (c.elapse dt).slewIndex = c.slewIndex := Chip.slewIndex_passed c _ _
@[simp] theorem Chip.corrAt_elapse (c : Chip) (dt) : (c.elapse dt).corrAt = c.corrAt := Chip.corrAt_passed c _ _
@[simp] theorem Chip.holdoverAt_elapse (c : Chip) (dt) : (c.elapse dt).holdoverAt = c.holdoverAt := Chip.holdoverAt_passed c _ _
@[simp] theorem Chip.holdoverLong_elapse (c : Chip) (dt) : (c.elapse dt).holdoverLong = c.holdoverLong := Chip.holdoverLong_passed c _ _
@[simp] theorem Chip.ppsArm_elapse (c : Chip) (dt) : (c.elapse dt).ppsArm = c.ppsArm := Chip.ppsArm_passed c _ _
@[simp] theorem Chip.ppsOut_elapse (c : Chip) (dt) : (c.elapse dt).ppsOut = c.ppsOut := Chip.ppsOut_passed c _ _
@[simp] theorem Chip.ppsSecond_elapse (c : Chip) (dt) : (c.elapse dt).ppsSecond = c.ppsSecond := Chip.ppsSecond_passed c _ _
@[simp] theorem Chip.ppsOld_elapse (c : Chip) (dt) : (c.elapse dt).ppsOld = c.ppsOld := Chip.ppsOld_passed c _ _
@[simp] theorem Chip.stepAt_elapse (c : Chip) (dt) : (c.elapse dt).stepAt = c.stepAt := Chip.stepAt_passed c _ _
@[simp] theorem Chip.lossAt_elapse (c : Chip) (dt) : (c.elapse dt).lossAt = c.lossAt := Chip.lossAt_passed c _ _
@[simp] theorem Chip.tm_elapse (c : Chip) (dt) : (c.elapse dt).tm = c.tm := Chip.tm_passed c _ _
@[simp] theorem Chip.headEpoch_elapse (c : Chip) (dt) : (c.elapse dt).headEpoch = c.headEpoch := Chip.headEpoch_passed c _ _
@[simp] theorem Chip.ptp_elapse (c : Chip) (dt) : (c.elapse dt).ptp = c.ptp := Chip.ptp_passed c _ _
@[simp] theorem Chip.lists_elapse (c : Chip) (dt) : (c.elapse dt).lists = c.lists := Chip.lists_passed c _ _
@[simp] theorem Chip.storyHalted_elapse (c : Chip) (dt) : (c.elapse dt).storyHalted = c.storyHalted := Chip.storyHalted_passed c _ _
@[simp] theorem Chip.ones_elapse (c : Chip) (dt) : (c.elapse dt).ones = c.ones := Chip.ones_passed c _ _
@[simp] theorem Chip.pinPulses_elapse (c : Chip) (dt) : (c.elapse dt).pinPulses = c.pinPulses := Chip.pinPulses_passed c _ _
@[simp] theorem Chip.pinShot_elapse (c : Chip) (dt) : (c.elapse dt).pinShot = c.pinShot := Chip.pinShot_passed c _ _
@[simp] theorem Chip.pulses_elapse (c : Chip) (dt) : (c.elapse dt).pulses = c.pulses := Chip.pulses_passed c _ _
@[simp] theorem Chip.distIndex_elapse (c : Chip) (dt) : (c.elapse dt).distIndex = c.distIndex := Chip.distIndex_passed c _ _
@[simp] theorem Chip.rels_elapse (c : Chip) (dt) : (c.elapse dt).rels = c.rels := Chip.rels_passed c _ _
@[simp] theorem Chip.rlog_elapse (c : Chip) (dt) : (c.elapse dt).rlog = c.rlog := Chip.rlog_passed c _ _
@[simp] theorem Chip.rlogSeq_elapse (c : Chip) (dt) : (c.elapse dt).rlogSeq = c.rlogSeq := Chip.rlogSeq_passed c _ _
@[simp] theorem Chip.ilog_elapse (c : Chip) (dt) : (c.elapse dt).ilog = c.ilog := Chip.ilog_passed c _ _
@[simp] theorem Chip.ilogSeq_elapse (c : Chip) (dt) : (c.elapse dt).ilogSeq = c.ilogSeq := Chip.ilogSeq_passed c _ _
@[simp] theorem Chip.watches_elapse (c : Chip) (dt) : (c.elapse dt).watches = c.watches := Chip.watches_passed c _ _
@[simp] theorem Chip.safeFrames_elapse (c : Chip) (dt) : (c.elapse dt).safeFrames = c.safeFrames := Chip.safeFrames_passed c _ _
@[simp] theorem Chip.policers_elapse (c : Chip) (dt) : (c.elapse dt).policers = c.policers := Chip.policers_passed c _ _
@[simp] theorem Chip.sessions_elapse (c : Chip) (dt) : (c.elapse dt).sessions = c.sessions := Chip.sessions_passed c _ _
@[simp] theorem Chip.units_elapse (c : Chip) (dt) : (c.elapse dt).units = c.units := Chip.units_passed c _ _
@[simp] theorem Chip.claims_elapse (c : Chip) (dt) : (c.elapse dt).claims = c.claims := Chip.claims_passed c _ _
@[simp] theorem Chip.unitCmd_elapse (c : Chip) (dt) : (c.elapse dt).unitCmd = c.unitCmd := Chip.unitCmd_passed c _ _
@[simp] theorem Chip.pns_elapse (c : Chip) (dt) : (c.elapse dt).pns = c.pns := Chip.pns_passed c _ _
@[simp] theorem Chip.saKeys_elapse (c : Chip) (dt) : (c.elapse dt).saKeys = c.saKeys := Chip.saKeys_passed c _ _
@[simp] theorem Chip.keyInstall_elapse (c : Chip) (dt) : (c.elapse dt).keyInstall = c.keyInstall := Chip.keyInstall_passed c _ _
@[simp] theorem Chip.root_elapse (c : Chip) (dt) : (c.elapse dt).root = c.root := Chip.root_passed c _ _
@[simp] theorem Chip.slots_elapse (c : Chip) (dt) : (c.elapse dt).slots = c.slots := Chip.slots_passed c _ _
@[simp] theorem Chip.succ_elapse (c : Chip) (dt) : (c.elapse dt).succ = c.succ := Chip.succ_passed c _ _
@[simp] theorem Chip.prisilOps_elapse (c : Chip) (dt) : (c.elapse dt).prisilOps = c.prisilOps := Chip.prisilOps_passed c _ _
@[simp] theorem Chip.shareFaults_elapse (c : Chip) (dt) : (c.elapse dt).shareFaults = c.shareFaults := Chip.shareFaults_passed c _ _
@[simp] theorem Chip.inq_elapse (c : Chip) (dt) : (c.elapse dt).inq = c.inq := Chip.inq_passed c _ _
@[simp] theorem Chip.cans_elapse (c : Chip) (dt) : (c.elapse dt).cans = c.cans := Chip.cans_passed c _ _
@[simp] theorem Chip.lins_elapse (c : Chip) (dt) : (c.elapse dt).lins = c.lins := Chip.lins_passed c _ _
@[simp] theorem Chip.uarts_elapse (c : Chip) (dt) : (c.elapse dt).uarts = c.uarts := Chip.uarts_passed c _ _
@[simp] theorem Chip.acfs_elapse (c : Chip) (dt) : (c.elapse dt).acfs = c.acfs := Chip.acfs_passed c _ _
@[simp] theorem Chip.asms_elapse (c : Chip) (dt) : (c.elapse dt).asms = c.asms := Chip.asms_passed c _ _
@[simp] theorem Chip.sigs_elapse (c : Chip) (dt) : (c.elapse dt).sigs = c.sigs := Chip.sigs_passed c _ _
@[simp] theorem Chip.nius_elapse (c : Chip) (dt) : (c.elapse dt).nius = c.nius := Chip.nius_passed c _ _
@[simp] theorem Chip.tenons_elapse (c : Chip) (dt) : (c.elapse dt).tenons = c.tenons := Chip.tenons_passed c _ _
@[simp] theorem Chip.tWait_elapse (c : Chip) (dt) : (c.elapse dt).tWait = c.tWait := Chip.tWait_passed c _ _
@[simp] theorem Chip.tOwed_elapse (c : Chip) (dt) : (c.elapse dt).tOwed = c.tOwed := Chip.tOwed_passed c _ _
@[simp] theorem Chip.remotes_elapse (c : Chip) (dt) : (c.elapse dt).remotes = c.remotes := Chip.remotes_passed c _ _
@[simp] theorem Chip.ehruzConflict_elapse (c : Chip) (dt) : (c.elapse dt).ehruzConflict = c.ehruzConflict := Chip.ehruzConflict_passed c _ _
@[simp] theorem Chip.rings_elapse (c : Chip) (dt) : (c.elapse dt).rings = c.rings := Chip.rings_passed c _ _
@[simp] theorem Chip.rxDma_elapse (c : Chip) (dt) : (c.elapse dt).rxDma = c.rxDma := Chip.rxDma_passed c _ _
@[simp] theorem Chip.rxHeld_elapse (c : Chip) (dt) : (c.elapse dt).rxHeld = c.rxHeld := Chip.rxHeld_passed c _ _
@[simp] theorem Chip.xings_elapse (c : Chip) (dt) : (c.elapse dt).xings = c.xings := Chip.xings_passed c _ _
@[simp] theorem Chip.readRing_elapse (c : Chip) (dt) : (c.elapse dt).readRing = c.readRing := Chip.readRing_passed c _ _
@[simp] theorem Chip.writeRing_elapse (c : Chip) (dt) : (c.elapse dt).writeRing = c.writeRing := Chip.writeRing_passed c _ _
@[simp] theorem Chip.readPre_elapse (c : Chip) (dt) : (c.elapse dt).readPre = c.readPre := Chip.readPre_passed c _ _
@[simp] theorem Chip.writePre_elapse (c : Chip) (dt) : (c.elapse dt).writePre = c.writePre := Chip.writePre_passed c _ _
@[simp] theorem Chip.tlb_elapse (c : Chip) (dt) : (c.elapse dt).tlb = c.tlb := Chip.tlb_passed c _ _
@[simp] theorem Chip.flts_elapse (c : Chip) (dt) : (c.elapse dt).flts = c.flts := Chip.flts_passed c _ _
@[simp] theorem Chip.fltSeq_elapse (c : Chip) (dt) : (c.elapse dt).fltSeq = c.fltSeq := Chip.fltSeq_passed c _ _
@[simp] theorem Chip.invs_elapse (c : Chip) (dt) : (c.elapse dt).invs = c.invs := Chip.invs_passed c _ _
@[simp] theorem Chip.fences_elapse (c : Chip) (dt) : (c.elapse dt).fences = c.fences := Chip.fences_passed c _ _
@[simp] theorem Chip.qsRead_elapse (c : Chip) (dt) : (c.elapse dt).qsRead = c.qsRead := Chip.qsRead_passed c _ _
@[simp] theorem Chip.clk_elapse (c : Chip) (dt) : (c.elapse dt).clk = c.clk := Chip.clk_passed c _ _
@[simp] theorem Chip.pwr_elapse (c : Chip) (dt) : (c.elapse dt).pwr = c.pwr := Chip.pwr_passed c _ _
@[simp] theorem Chip.aon_elapse (c : Chip) (dt) : (c.elapse dt).aon = c.aon := Chip.aon_passed c _ _
@[simp] theorem Chip.wdt_elapse (c : Chip) (dt) : (c.elapse dt).wdt = c.wdt := Chip.wdt_passed c _ _
@[simp] theorem Chip.tr_elapse (c : Chip) (dt) : (c.elapse dt).tr = c.tr := Chip.tr_passed c _ _
@[simp] theorem Chip.flOps_elapse (c : Chip) (dt) : (c.elapse dt).flOps = c.flOps := Chip.flOps_passed c _ _
@[simp] theorem Chip.otpOp_elapse (c : Chip) (dt) : (c.elapse dt).otpOp = c.otpOp := Chip.otpOp_passed c _ _
@[simp] theorem Chip.boot_elapse (c : Chip) (dt) : (c.elapse dt).boot = c.boot := Chip.boot_passed c _ _
@[simp] theorem Chip.upd_elapse (c : Chip) (dt) : (c.elapse dt).upd = c.upd := Chip.upd_passed c _ _
@[simp] theorem Chip.wear_elapse (c : Chip) (dt) : (c.elapse dt).wear = c.wear := Chip.wear_passed c _ _
@[simp] theorem Chip.testHold_elapse (c : Chip) (dt) : (c.elapse dt).testHold = c.testHold := Chip.testHold_passed c _ _
@[simp] theorem Chip.aer_elapse (c : Chip) (dt) : (c.elapse dt).aer = c.aer := Chip.aer_passed c _ _
@[simp] theorem Chip.dormant_elapse (c : Chip) (dt) : (c.elapse dt).dormant = c.dormant := Chip.dormant_passed c _ _
@[simp] theorem Chip.bootFail_elapse (c : Chip) (dt) : (c.elapse dt).bootFail = c.bootFail := Chip.bootFail_passed c _ _

/-! ## setRegAt -/

@[simp] theorem Chip.cycles_setRegAt (c : Chip) (k w) : (c.setRegAt k w).cycles = c.cycles := Chip.cycles_noise c _ _ _
@[simp] theorem Chip.rstAt_setRegAt (c : Chip) (k w) : (c.setRegAt k w).rstAt = c.rstAt := Chip.rstAt_noise c _ _ _
@[simp] theorem Chip.free_setRegAt (c : Chip) (k w) : (c.setRegAt k w).free = c.free := Chip.free_noise c _ _ _
@[simp] theorem Chip.outs_setRegAt (c : Chip) (k w) : (c.setRegAt k w).outs = c.outs := Chip.outs_noise c _ _ _
@[simp] theorem Chip.tblA_setRegAt (c : Chip) (k w) : (c.setRegAt k w).tblA = c.tblA := Chip.tblA_noise c _ _ _
@[simp] theorem Chip.tblS_setRegAt (c : Chip) (k w) : (c.setRegAt k w).tblS = c.tblS := Chip.tblS_noise c _ _ _
@[simp] theorem Chip.cnt_setRegAt (c : Chip) (k w) : (c.setRegAt k w).cnt = c.cnt := Chip.cnt_noise c _ _ _
@[simp] theorem Chip.snap_setRegAt (c : Chip) (k w) : (c.setRegAt k w).snap = c.snap := Chip.snap_noise c _ _ _
@[simp] theorem Chip.wbuf_setRegAt (c : Chip) (k w) : (c.setRegAt k w).wbuf = c.wbuf := Chip.wbuf_noise c _ _ _
@[simp] theorem Chip.wins_setRegAt (c : Chip) (k w) : (c.setRegAt k w).wins = c.wins := Chip.wins_noise c _ _ _
@[simp] theorem Chip.syncs_setRegAt (c : Chip) (k w) : (c.setRegAt k w).syncs = c.syncs := Chip.syncs_noise c _ _ _
@[simp] theorem Chip.snapAll_setRegAt (c : Chip) (k w) : (c.setRegAt k w).snapAll = c.snapAll := Chip.snapAll_noise c _ _ _
@[simp] theorem Chip.commits_setRegAt (c : Chip) (k w) : (c.setRegAt k w).commits = c.commits := Chip.commits_noise c _ _ _
@[simp] theorem Chip.group_setRegAt (c : Chip) (k w) : (c.setRegAt k w).group = c.group := Chip.group_noise c _ _ _
@[simp] theorem Chip.wseq_setRegAt (c : Chip) (k w) : (c.setRegAt k w).wseq = c.wseq := Chip.wseq_noise c _ _ _
@[simp] theorem Chip.failed_setRegAt (c : Chip) (k w) : (c.setRegAt k w).failed = c.failed := Chip.failed_noise c _ _ _
@[simp] theorem Chip.undecided_setRegAt (c : Chip) (k w) : (c.setRegAt k w).undecided = c.undecided := Chip.undecided_noise c _ _ _
@[simp] theorem Chip.pel_setRegAt (c : Chip) (k w) : (c.setRegAt k w).pel = c.pel := Chip.pel_noise c _ _ _
@[simp] theorem Chip.pelSeq_setRegAt (c : Chip) (k w) : (c.setRegAt k w).pelSeq = c.pelSeq := Chip.pelSeq_noise c _ _ _
@[simp] theorem Chip.capRing_setRegAt (c : Chip) (k w) : (c.setRegAt k w).capRing = c.capRing := Chip.capRing_noise c _ _ _
@[simp] theorem Chip.tBase_setRegAt (c : Chip) (k w) : (c.setRegAt k w).tBase = c.tBase := Chip.tBase_noise c _ _ _
@[simp] theorem Chip.tAnchor_setRegAt (c : Chip) (k w) : (c.setRegAt k w).tAnchor = c.tAnchor := Chip.tAnchor_noise c _ _ _
@[simp] theorem Chip.tStopped_setRegAt (c : Chip) (k w) : (c.setRegAt k w).tStopped = c.tStopped := Chip.tStopped_noise c _ _ _
@[simp] theorem Chip.ports_setRegAt (c : Chip) (k w) : (c.setRegAt k w).ports = c.ports := Chip.ports_noise c _ _ _
@[simp] theorem Chip.warm_setRegAt (c : Chip) (k w) : (c.setRegAt k w).warm = c.warm := Chip.warm_noise c _ _ _
@[simp] theorem Chip.queues_setRegAt (c : Chip) (k w) : (c.setRegAt k w).queues = c.queues := Chip.queues_noise c _ _ _
@[simp] theorem Chip.seqs_setRegAt (c : Chip) (k w) : (c.setRegAt k w).seqs = c.seqs := Chip.seqs_noise c _ _ _
@[simp] theorem Chip.tx_setRegAt (c : Chip) (k w) : (c.setRegAt k w).tx = c.tx := Chip.tx_noise c _ _ _
@[simp] theorem Chip.preempted_setRegAt (c : Chip) (k w) : (c.setRegAt k w).preempted = c.preempted := Chip.preempted_noise c _ _ _
@[simp] theorem Chip.rx_setRegAt (c : Chip) (k w) : (c.setRegAt k w).rx = c.rx := Chip.rx_noise c _ _ _
@[simp] theorem Chip.nextFid_setRegAt (c : Chip) (k w) : (c.setRegAt k w).nextFid = c.nextFid := Chip.nextFid_noise c _ _ _
@[simp] theorem Chip.spillCredit_setRegAt (c : Chip) (k w) : (c.setRegAt k w).spillCredit = c.spillCredit := Chip.spillCredit_noise c _ _ _
@[simp] theorem Chip.spillAt_setRegAt (c : Chip) (k w) : (c.setRegAt k w).spillAt = c.spillAt := Chip.spillAt_noise c _ _ _
@[simp] theorem Chip.bypass_setRegAt (c : Chip) (k w) : (c.setRegAt k w).bypass = c.bypass := Chip.bypass_noise c _ _ _
@[simp] theorem Chip.partials_setRegAt (c : Chip) (k w) : (c.setRegAt k w).partials = c.partials := Chip.partials_noise c _ _ _
@[simp] theorem Chip.comps_setRegAt (c : Chip) (k w) : (c.setRegAt k w).comps = c.comps := Chip.comps_noise c _ _ _
@[simp] theorem Chip.members_setRegAt (c : Chip) (k w) : (c.setRegAt k w).members = c.members := Chip.members_noise c _ _ _
@[simp] theorem Chip.holds_setRegAt (c : Chip) (k w) : (c.setRegAt k w).holds = c.holds := Chip.holds_noise c _ _ _
@[simp] theorem Chip.ageAt_setRegAt (c : Chip) (k w) : (c.setRegAt k w).ageAt = c.ageAt := Chip.ageAt_noise c _ _ _
@[simp] theorem Chip.flush_setRegAt (c : Chip) (k w) : (c.setRegAt k w).flush = c.flush := Chip.flush_noise c _ _ _
@[simp] theorem Chip.spillTraining_setRegAt (c : Chip) (k w) : (c.setRegAt k w).spillTraining = c.spillTraining := Chip.spillTraining_noise c _ _ _
@[simp] theorem Chip.timeHfrc_setRegAt (c : Chip) (k w) : (c.setRegAt k w).timeHfrc = c.timeHfrc := Chip.timeHfrc_noise c _ _ _
@[simp] theorem Chip.slewIndex_setRegAt (c : Chip) (k w) : (c.setRegAt k w).slewIndex = c.slewIndex := Chip.slewIndex_noise c _ _ _
@[simp] theorem Chip.corrAt_setRegAt (c : Chip) (k w) : (c.setRegAt k w).corrAt = c.corrAt := Chip.corrAt_noise c _ _ _
@[simp] theorem Chip.holdoverAt_setRegAt (c : Chip) (k w) : (c.setRegAt k w).holdoverAt = c.holdoverAt := Chip.holdoverAt_noise c _ _ _
@[simp] theorem Chip.holdoverLong_setRegAt (c : Chip) (k w) : (c.setRegAt k w).holdoverLong = c.holdoverLong := Chip.holdoverLong_noise c _ _ _
@[simp] theorem Chip.ppsArm_setRegAt (c : Chip) (k w) : (c.setRegAt k w).ppsArm = c.ppsArm := Chip.ppsArm_noise c _ _ _
@[simp] theorem Chip.ppsOut_setRegAt (c : Chip) (k w) : (c.setRegAt k w).ppsOut = c.ppsOut := Chip.ppsOut_noise c _ _ _
@[simp] theorem Chip.ppsSecond_setRegAt (c : Chip) (k w) : (c.setRegAt k w).ppsSecond = c.ppsSecond := Chip.ppsSecond_noise c _ _ _
@[simp] theorem Chip.ppsOld_setRegAt (c : Chip) (k w) : (c.setRegAt k w).ppsOld = c.ppsOld := Chip.ppsOld_noise c _ _ _
@[simp] theorem Chip.stepAt_setRegAt (c : Chip) (k w) : (c.setRegAt k w).stepAt = c.stepAt := Chip.stepAt_noise c _ _ _
@[simp] theorem Chip.lossAt_setRegAt (c : Chip) (k w) : (c.setRegAt k w).lossAt = c.lossAt := Chip.lossAt_noise c _ _ _
@[simp] theorem Chip.tm_setRegAt (c : Chip) (k w) : (c.setRegAt k w).tm = c.tm := Chip.tm_noise c _ _ _
@[simp] theorem Chip.headEpoch_setRegAt (c : Chip) (k w) : (c.setRegAt k w).headEpoch = c.headEpoch := Chip.headEpoch_noise c _ _ _
@[simp] theorem Chip.ptp_setRegAt (c : Chip) (k w) : (c.setRegAt k w).ptp = c.ptp := Chip.ptp_noise c _ _ _
@[simp] theorem Chip.lists_setRegAt (c : Chip) (k w) : (c.setRegAt k w).lists = c.lists := Chip.lists_noise c _ _ _
@[simp] theorem Chip.storyHalted_setRegAt (c : Chip) (k w) : (c.setRegAt k w).storyHalted = c.storyHalted := Chip.storyHalted_noise c _ _ _
@[simp] theorem Chip.ones_setRegAt (c : Chip) (k w) : (c.setRegAt k w).ones = c.ones := Chip.ones_noise c _ _ _
@[simp] theorem Chip.pinPulses_setRegAt (c : Chip) (k w) : (c.setRegAt k w).pinPulses = c.pinPulses := Chip.pinPulses_noise c _ _ _
@[simp] theorem Chip.pinShot_setRegAt (c : Chip) (k w) : (c.setRegAt k w).pinShot = c.pinShot := Chip.pinShot_noise c _ _ _
@[simp] theorem Chip.pulses_setRegAt (c : Chip) (k w) : (c.setRegAt k w).pulses = c.pulses := Chip.pulses_noise c _ _ _
@[simp] theorem Chip.distIndex_setRegAt (c : Chip) (k w) : (c.setRegAt k w).distIndex = c.distIndex := Chip.distIndex_noise c _ _ _
@[simp] theorem Chip.rels_setRegAt (c : Chip) (k w) : (c.setRegAt k w).rels = c.rels := Chip.rels_noise c _ _ _
@[simp] theorem Chip.rlog_setRegAt (c : Chip) (k w) : (c.setRegAt k w).rlog = c.rlog := Chip.rlog_noise c _ _ _
@[simp] theorem Chip.rlogSeq_setRegAt (c : Chip) (k w) : (c.setRegAt k w).rlogSeq = c.rlogSeq := Chip.rlogSeq_noise c _ _ _
@[simp] theorem Chip.ilog_setRegAt (c : Chip) (k w) : (c.setRegAt k w).ilog = c.ilog := Chip.ilog_noise c _ _ _
@[simp] theorem Chip.ilogSeq_setRegAt (c : Chip) (k w) : (c.setRegAt k w).ilogSeq = c.ilogSeq := Chip.ilogSeq_noise c _ _ _
@[simp] theorem Chip.watches_setRegAt (c : Chip) (k w) : (c.setRegAt k w).watches = c.watches := Chip.watches_noise c _ _ _
@[simp] theorem Chip.safeFrames_setRegAt (c : Chip) (k w) : (c.setRegAt k w).safeFrames = c.safeFrames := Chip.safeFrames_noise c _ _ _
@[simp] theorem Chip.policers_setRegAt (c : Chip) (k w) : (c.setRegAt k w).policers = c.policers := Chip.policers_noise c _ _ _
@[simp] theorem Chip.sessions_setRegAt (c : Chip) (k w) : (c.setRegAt k w).sessions = c.sessions := Chip.sessions_noise c _ _ _
@[simp] theorem Chip.units_setRegAt (c : Chip) (k w) : (c.setRegAt k w).units = c.units := Chip.units_noise c _ _ _
@[simp] theorem Chip.claims_setRegAt (c : Chip) (k w) : (c.setRegAt k w).claims = c.claims := Chip.claims_noise c _ _ _
@[simp] theorem Chip.unitCmd_setRegAt (c : Chip) (k w) : (c.setRegAt k w).unitCmd = c.unitCmd := Chip.unitCmd_noise c _ _ _
@[simp] theorem Chip.pns_setRegAt (c : Chip) (k w) : (c.setRegAt k w).pns = c.pns := Chip.pns_noise c _ _ _
@[simp] theorem Chip.saKeys_setRegAt (c : Chip) (k w) : (c.setRegAt k w).saKeys = c.saKeys := Chip.saKeys_noise c _ _ _
@[simp] theorem Chip.keyInstall_setRegAt (c : Chip) (k w) : (c.setRegAt k w).keyInstall = c.keyInstall := Chip.keyInstall_noise c _ _ _
@[simp] theorem Chip.root_setRegAt (c : Chip) (k w) : (c.setRegAt k w).root = c.root := Chip.root_noise c _ _ _
@[simp] theorem Chip.slots_setRegAt (c : Chip) (k w) : (c.setRegAt k w).slots = c.slots := Chip.slots_noise c _ _ _
@[simp] theorem Chip.succ_setRegAt (c : Chip) (k w) : (c.setRegAt k w).succ = c.succ := Chip.succ_noise c _ _ _
@[simp] theorem Chip.prisilOps_setRegAt (c : Chip) (k w) : (c.setRegAt k w).prisilOps = c.prisilOps := Chip.prisilOps_noise c _ _ _
@[simp] theorem Chip.shareFaults_setRegAt (c : Chip) (k w) : (c.setRegAt k w).shareFaults = c.shareFaults := Chip.shareFaults_noise c _ _ _
@[simp] theorem Chip.inq_setRegAt (c : Chip) (k w) : (c.setRegAt k w).inq = c.inq := Chip.inq_noise c _ _ _
@[simp] theorem Chip.cans_setRegAt (c : Chip) (k w) : (c.setRegAt k w).cans = c.cans := Chip.cans_noise c _ _ _
@[simp] theorem Chip.lins_setRegAt (c : Chip) (k w) : (c.setRegAt k w).lins = c.lins := Chip.lins_noise c _ _ _
@[simp] theorem Chip.uarts_setRegAt (c : Chip) (k w) : (c.setRegAt k w).uarts = c.uarts := Chip.uarts_noise c _ _ _
@[simp] theorem Chip.acfs_setRegAt (c : Chip) (k w) : (c.setRegAt k w).acfs = c.acfs := Chip.acfs_noise c _ _ _
@[simp] theorem Chip.asms_setRegAt (c : Chip) (k w) : (c.setRegAt k w).asms = c.asms := Chip.asms_noise c _ _ _
@[simp] theorem Chip.sigs_setRegAt (c : Chip) (k w) : (c.setRegAt k w).sigs = c.sigs := Chip.sigs_noise c _ _ _
@[simp] theorem Chip.nius_setRegAt (c : Chip) (k w) : (c.setRegAt k w).nius = c.nius := Chip.nius_noise c _ _ _
@[simp] theorem Chip.tenons_setRegAt (c : Chip) (k w) : (c.setRegAt k w).tenons = c.tenons := Chip.tenons_noise c _ _ _
@[simp] theorem Chip.tWait_setRegAt (c : Chip) (k w) : (c.setRegAt k w).tWait = c.tWait := Chip.tWait_noise c _ _ _
@[simp] theorem Chip.tOwed_setRegAt (c : Chip) (k w) : (c.setRegAt k w).tOwed = c.tOwed := Chip.tOwed_noise c _ _ _
@[simp] theorem Chip.remotes_setRegAt (c : Chip) (k w) : (c.setRegAt k w).remotes = c.remotes := Chip.remotes_noise c _ _ _
@[simp] theorem Chip.ehruzConflict_setRegAt (c : Chip) (k w) : (c.setRegAt k w).ehruzConflict = c.ehruzConflict := Chip.ehruzConflict_noise c _ _ _
@[simp] theorem Chip.rings_setRegAt (c : Chip) (k w) : (c.setRegAt k w).rings = c.rings := Chip.rings_noise c _ _ _
@[simp] theorem Chip.rxDma_setRegAt (c : Chip) (k w) : (c.setRegAt k w).rxDma = c.rxDma := Chip.rxDma_noise c _ _ _
@[simp] theorem Chip.rxHeld_setRegAt (c : Chip) (k w) : (c.setRegAt k w).rxHeld = c.rxHeld := Chip.rxHeld_noise c _ _ _
@[simp] theorem Chip.xings_setRegAt (c : Chip) (k w) : (c.setRegAt k w).xings = c.xings := Chip.xings_noise c _ _ _
@[simp] theorem Chip.readRing_setRegAt (c : Chip) (k w) : (c.setRegAt k w).readRing = c.readRing := Chip.readRing_noise c _ _ _
@[simp] theorem Chip.writeRing_setRegAt (c : Chip) (k w) : (c.setRegAt k w).writeRing = c.writeRing := Chip.writeRing_noise c _ _ _
@[simp] theorem Chip.readPre_setRegAt (c : Chip) (k w) : (c.setRegAt k w).readPre = c.readPre := Chip.readPre_noise c _ _ _
@[simp] theorem Chip.writePre_setRegAt (c : Chip) (k w) : (c.setRegAt k w).writePre = c.writePre := Chip.writePre_noise c _ _ _
@[simp] theorem Chip.tlb_setRegAt (c : Chip) (k w) : (c.setRegAt k w).tlb = c.tlb := Chip.tlb_noise c _ _ _
@[simp] theorem Chip.flts_setRegAt (c : Chip) (k w) : (c.setRegAt k w).flts = c.flts := Chip.flts_noise c _ _ _
@[simp] theorem Chip.fltSeq_setRegAt (c : Chip) (k w) : (c.setRegAt k w).fltSeq = c.fltSeq := Chip.fltSeq_noise c _ _ _
@[simp] theorem Chip.invs_setRegAt (c : Chip) (k w) : (c.setRegAt k w).invs = c.invs := Chip.invs_noise c _ _ _
@[simp] theorem Chip.fences_setRegAt (c : Chip) (k w) : (c.setRegAt k w).fences = c.fences := Chip.fences_noise c _ _ _
@[simp] theorem Chip.qsRead_setRegAt (c : Chip) (k w) : (c.setRegAt k w).qsRead = c.qsRead := Chip.qsRead_noise c _ _ _
@[simp] theorem Chip.clk_setRegAt (c : Chip) (k w) : (c.setRegAt k w).clk = c.clk := Chip.clk_noise c _ _ _
@[simp] theorem Chip.pwr_setRegAt (c : Chip) (k w) : (c.setRegAt k w).pwr = c.pwr := Chip.pwr_noise c _ _ _
@[simp] theorem Chip.aon_setRegAt (c : Chip) (k w) : (c.setRegAt k w).aon = c.aon := Chip.aon_noise c _ _ _
@[simp] theorem Chip.wdt_setRegAt (c : Chip) (k w) : (c.setRegAt k w).wdt = c.wdt := Chip.wdt_noise c _ _ _
@[simp] theorem Chip.tr_setRegAt (c : Chip) (k w) : (c.setRegAt k w).tr = c.tr := Chip.tr_noise c _ _ _
@[simp] theorem Chip.flOps_setRegAt (c : Chip) (k w) : (c.setRegAt k w).flOps = c.flOps := Chip.flOps_noise c _ _ _
@[simp] theorem Chip.otpOp_setRegAt (c : Chip) (k w) : (c.setRegAt k w).otpOp = c.otpOp := Chip.otpOp_noise c _ _ _
@[simp] theorem Chip.boot_setRegAt (c : Chip) (k w) : (c.setRegAt k w).boot = c.boot := Chip.boot_noise c _ _ _
@[simp] theorem Chip.upd_setRegAt (c : Chip) (k w) : (c.setRegAt k w).upd = c.upd := Chip.upd_noise c _ _ _
@[simp] theorem Chip.wear_setRegAt (c : Chip) (k w) : (c.setRegAt k w).wear = c.wear := Chip.wear_noise c _ _ _
@[simp] theorem Chip.testHold_setRegAt (c : Chip) (k w) : (c.setRegAt k w).testHold = c.testHold := Chip.testHold_noise c _ _ _
@[simp] theorem Chip.aer_setRegAt (c : Chip) (k w) : (c.setRegAt k w).aer = c.aer := Chip.aer_noise c _ _ _
@[simp] theorem Chip.dormant_setRegAt (c : Chip) (k w) : (c.setRegAt k w).dormant = c.dormant := Chip.dormant_noise c _ _ _
@[simp] theorem Chip.bootFail_setRegAt (c : Chip) (k w) : (c.setRegAt k w).bootFail = c.bootFail := Chip.bootFail_noise c _ _ _

/-! ## setCntAt -/

@[simp] theorem Chip.cycles_setCntAt (c : Chip) (k v) : (c.setCntAt k v).cycles = c.cycles := Chip.cycles_noise c _ _ _
@[simp] theorem Chip.rstAt_setCntAt (c : Chip) (k v) : (c.setCntAt k v).rstAt = c.rstAt := Chip.rstAt_noise c _ _ _
@[simp] theorem Chip.free_setCntAt (c : Chip) (k v) : (c.setCntAt k v).free = c.free := Chip.free_noise c _ _ _
@[simp] theorem Chip.outs_setCntAt (c : Chip) (k v) : (c.setCntAt k v).outs = c.outs := Chip.outs_noise c _ _ _
@[simp] theorem Chip.regs_setCntAt (c : Chip) (k v) : (c.setCntAt k v).regs = c.regs := Chip.regs_noise c _ _ _
@[simp] theorem Chip.tblA_setCntAt (c : Chip) (k v) : (c.setCntAt k v).tblA = c.tblA := Chip.tblA_noise c _ _ _
@[simp] theorem Chip.tblS_setCntAt (c : Chip) (k v) : (c.setCntAt k v).tblS = c.tblS := Chip.tblS_noise c _ _ _
@[simp] theorem Chip.snap_setCntAt (c : Chip) (k v) : (c.setCntAt k v).snap = c.snap := Chip.snap_noise c _ _ _
@[simp] theorem Chip.wbuf_setCntAt (c : Chip) (k v) : (c.setCntAt k v).wbuf = c.wbuf := Chip.wbuf_noise c _ _ _
@[simp] theorem Chip.wins_setCntAt (c : Chip) (k v) : (c.setCntAt k v).wins = c.wins := Chip.wins_noise c _ _ _
@[simp] theorem Chip.syncs_setCntAt (c : Chip) (k v) : (c.setCntAt k v).syncs = c.syncs := Chip.syncs_noise c _ _ _
@[simp] theorem Chip.snapAll_setCntAt (c : Chip) (k v) : (c.setCntAt k v).snapAll = c.snapAll := Chip.snapAll_noise c _ _ _
@[simp] theorem Chip.commits_setCntAt (c : Chip) (k v) : (c.setCntAt k v).commits = c.commits := Chip.commits_noise c _ _ _
@[simp] theorem Chip.group_setCntAt (c : Chip) (k v) : (c.setCntAt k v).group = c.group := Chip.group_noise c _ _ _
@[simp] theorem Chip.wseq_setCntAt (c : Chip) (k v) : (c.setCntAt k v).wseq = c.wseq := Chip.wseq_noise c _ _ _
@[simp] theorem Chip.failed_setCntAt (c : Chip) (k v) : (c.setCntAt k v).failed = c.failed := Chip.failed_noise c _ _ _
@[simp] theorem Chip.undecided_setCntAt (c : Chip) (k v) : (c.setCntAt k v).undecided = c.undecided := Chip.undecided_noise c _ _ _
@[simp] theorem Chip.pel_setCntAt (c : Chip) (k v) : (c.setCntAt k v).pel = c.pel := Chip.pel_noise c _ _ _
@[simp] theorem Chip.pelSeq_setCntAt (c : Chip) (k v) : (c.setCntAt k v).pelSeq = c.pelSeq := Chip.pelSeq_noise c _ _ _
@[simp] theorem Chip.capRing_setCntAt (c : Chip) (k v) : (c.setCntAt k v).capRing = c.capRing := Chip.capRing_noise c _ _ _
@[simp] theorem Chip.tBase_setCntAt (c : Chip) (k v) : (c.setCntAt k v).tBase = c.tBase := Chip.tBase_noise c _ _ _
@[simp] theorem Chip.tAnchor_setCntAt (c : Chip) (k v) : (c.setCntAt k v).tAnchor = c.tAnchor := Chip.tAnchor_noise c _ _ _
@[simp] theorem Chip.tStopped_setCntAt (c : Chip) (k v) : (c.setCntAt k v).tStopped = c.tStopped := Chip.tStopped_noise c _ _ _
@[simp] theorem Chip.ports_setCntAt (c : Chip) (k v) : (c.setCntAt k v).ports = c.ports := Chip.ports_noise c _ _ _
@[simp] theorem Chip.warm_setCntAt (c : Chip) (k v) : (c.setCntAt k v).warm = c.warm := Chip.warm_noise c _ _ _
@[simp] theorem Chip.queues_setCntAt (c : Chip) (k v) : (c.setCntAt k v).queues = c.queues := Chip.queues_noise c _ _ _
@[simp] theorem Chip.seqs_setCntAt (c : Chip) (k v) : (c.setCntAt k v).seqs = c.seqs := Chip.seqs_noise c _ _ _
@[simp] theorem Chip.tx_setCntAt (c : Chip) (k v) : (c.setCntAt k v).tx = c.tx := Chip.tx_noise c _ _ _
@[simp] theorem Chip.preempted_setCntAt (c : Chip) (k v) : (c.setCntAt k v).preempted = c.preempted := Chip.preempted_noise c _ _ _
@[simp] theorem Chip.rx_setCntAt (c : Chip) (k v) : (c.setCntAt k v).rx = c.rx := Chip.rx_noise c _ _ _
@[simp] theorem Chip.nextFid_setCntAt (c : Chip) (k v) : (c.setCntAt k v).nextFid = c.nextFid := Chip.nextFid_noise c _ _ _
@[simp] theorem Chip.spillCredit_setCntAt (c : Chip) (k v) : (c.setCntAt k v).spillCredit = c.spillCredit := Chip.spillCredit_noise c _ _ _
@[simp] theorem Chip.spillAt_setCntAt (c : Chip) (k v) : (c.setCntAt k v).spillAt = c.spillAt := Chip.spillAt_noise c _ _ _
@[simp] theorem Chip.bypass_setCntAt (c : Chip) (k v) : (c.setCntAt k v).bypass = c.bypass := Chip.bypass_noise c _ _ _
@[simp] theorem Chip.partials_setCntAt (c : Chip) (k v) : (c.setCntAt k v).partials = c.partials := Chip.partials_noise c _ _ _
@[simp] theorem Chip.comps_setCntAt (c : Chip) (k v) : (c.setCntAt k v).comps = c.comps := Chip.comps_noise c _ _ _
@[simp] theorem Chip.members_setCntAt (c : Chip) (k v) : (c.setCntAt k v).members = c.members := Chip.members_noise c _ _ _
@[simp] theorem Chip.holds_setCntAt (c : Chip) (k v) : (c.setCntAt k v).holds = c.holds := Chip.holds_noise c _ _ _
@[simp] theorem Chip.ageAt_setCntAt (c : Chip) (k v) : (c.setCntAt k v).ageAt = c.ageAt := Chip.ageAt_noise c _ _ _
@[simp] theorem Chip.flush_setCntAt (c : Chip) (k v) : (c.setCntAt k v).flush = c.flush := Chip.flush_noise c _ _ _
@[simp] theorem Chip.spillTraining_setCntAt (c : Chip) (k v) : (c.setCntAt k v).spillTraining = c.spillTraining := Chip.spillTraining_noise c _ _ _
@[simp] theorem Chip.timeHfrc_setCntAt (c : Chip) (k v) : (c.setCntAt k v).timeHfrc = c.timeHfrc := Chip.timeHfrc_noise c _ _ _
@[simp] theorem Chip.slewIndex_setCntAt (c : Chip) (k v) : (c.setCntAt k v).slewIndex = c.slewIndex := Chip.slewIndex_noise c _ _ _
@[simp] theorem Chip.corrAt_setCntAt (c : Chip) (k v) : (c.setCntAt k v).corrAt = c.corrAt := Chip.corrAt_noise c _ _ _
@[simp] theorem Chip.holdoverAt_setCntAt (c : Chip) (k v) : (c.setCntAt k v).holdoverAt = c.holdoverAt := Chip.holdoverAt_noise c _ _ _
@[simp] theorem Chip.holdoverLong_setCntAt (c : Chip) (k v) : (c.setCntAt k v).holdoverLong = c.holdoverLong := Chip.holdoverLong_noise c _ _ _
@[simp] theorem Chip.ppsArm_setCntAt (c : Chip) (k v) : (c.setCntAt k v).ppsArm = c.ppsArm := Chip.ppsArm_noise c _ _ _
@[simp] theorem Chip.ppsOut_setCntAt (c : Chip) (k v) : (c.setCntAt k v).ppsOut = c.ppsOut := Chip.ppsOut_noise c _ _ _
@[simp] theorem Chip.ppsSecond_setCntAt (c : Chip) (k v) : (c.setCntAt k v).ppsSecond = c.ppsSecond := Chip.ppsSecond_noise c _ _ _
@[simp] theorem Chip.ppsOld_setCntAt (c : Chip) (k v) : (c.setCntAt k v).ppsOld = c.ppsOld := Chip.ppsOld_noise c _ _ _
@[simp] theorem Chip.stepAt_setCntAt (c : Chip) (k v) : (c.setCntAt k v).stepAt = c.stepAt := Chip.stepAt_noise c _ _ _
@[simp] theorem Chip.lossAt_setCntAt (c : Chip) (k v) : (c.setCntAt k v).lossAt = c.lossAt := Chip.lossAt_noise c _ _ _
@[simp] theorem Chip.tm_setCntAt (c : Chip) (k v) : (c.setCntAt k v).tm = c.tm := Chip.tm_noise c _ _ _
@[simp] theorem Chip.headEpoch_setCntAt (c : Chip) (k v) : (c.setCntAt k v).headEpoch = c.headEpoch := Chip.headEpoch_noise c _ _ _
@[simp] theorem Chip.ptp_setCntAt (c : Chip) (k v) : (c.setCntAt k v).ptp = c.ptp := Chip.ptp_noise c _ _ _
@[simp] theorem Chip.lists_setCntAt (c : Chip) (k v) : (c.setCntAt k v).lists = c.lists := Chip.lists_noise c _ _ _
@[simp] theorem Chip.storyHalted_setCntAt (c : Chip) (k v) : (c.setCntAt k v).storyHalted = c.storyHalted := Chip.storyHalted_noise c _ _ _
@[simp] theorem Chip.ones_setCntAt (c : Chip) (k v) : (c.setCntAt k v).ones = c.ones := Chip.ones_noise c _ _ _
@[simp] theorem Chip.pinPulses_setCntAt (c : Chip) (k v) : (c.setCntAt k v).pinPulses = c.pinPulses := Chip.pinPulses_noise c _ _ _
@[simp] theorem Chip.pinShot_setCntAt (c : Chip) (k v) : (c.setCntAt k v).pinShot = c.pinShot := Chip.pinShot_noise c _ _ _
@[simp] theorem Chip.pulses_setCntAt (c : Chip) (k v) : (c.setCntAt k v).pulses = c.pulses := Chip.pulses_noise c _ _ _
@[simp] theorem Chip.distIndex_setCntAt (c : Chip) (k v) : (c.setCntAt k v).distIndex = c.distIndex := Chip.distIndex_noise c _ _ _
@[simp] theorem Chip.rels_setCntAt (c : Chip) (k v) : (c.setCntAt k v).rels = c.rels := Chip.rels_noise c _ _ _
@[simp] theorem Chip.rlog_setCntAt (c : Chip) (k v) : (c.setCntAt k v).rlog = c.rlog := Chip.rlog_noise c _ _ _
@[simp] theorem Chip.rlogSeq_setCntAt (c : Chip) (k v) : (c.setCntAt k v).rlogSeq = c.rlogSeq := Chip.rlogSeq_noise c _ _ _
@[simp] theorem Chip.ilog_setCntAt (c : Chip) (k v) : (c.setCntAt k v).ilog = c.ilog := Chip.ilog_noise c _ _ _
@[simp] theorem Chip.ilogSeq_setCntAt (c : Chip) (k v) : (c.setCntAt k v).ilogSeq = c.ilogSeq := Chip.ilogSeq_noise c _ _ _
@[simp] theorem Chip.watches_setCntAt (c : Chip) (k v) : (c.setCntAt k v).watches = c.watches := Chip.watches_noise c _ _ _
@[simp] theorem Chip.safeFrames_setCntAt (c : Chip) (k v) : (c.setCntAt k v).safeFrames = c.safeFrames := Chip.safeFrames_noise c _ _ _
@[simp] theorem Chip.policers_setCntAt (c : Chip) (k v) : (c.setCntAt k v).policers = c.policers := Chip.policers_noise c _ _ _
@[simp] theorem Chip.sessions_setCntAt (c : Chip) (k v) : (c.setCntAt k v).sessions = c.sessions := Chip.sessions_noise c _ _ _
@[simp] theorem Chip.units_setCntAt (c : Chip) (k v) : (c.setCntAt k v).units = c.units := Chip.units_noise c _ _ _
@[simp] theorem Chip.claims_setCntAt (c : Chip) (k v) : (c.setCntAt k v).claims = c.claims := Chip.claims_noise c _ _ _
@[simp] theorem Chip.unitCmd_setCntAt (c : Chip) (k v) : (c.setCntAt k v).unitCmd = c.unitCmd := Chip.unitCmd_noise c _ _ _
@[simp] theorem Chip.pns_setCntAt (c : Chip) (k v) : (c.setCntAt k v).pns = c.pns := Chip.pns_noise c _ _ _
@[simp] theorem Chip.saKeys_setCntAt (c : Chip) (k v) : (c.setCntAt k v).saKeys = c.saKeys := Chip.saKeys_noise c _ _ _
@[simp] theorem Chip.keyInstall_setCntAt (c : Chip) (k v) : (c.setCntAt k v).keyInstall = c.keyInstall := Chip.keyInstall_noise c _ _ _
@[simp] theorem Chip.root_setCntAt (c : Chip) (k v) : (c.setCntAt k v).root = c.root := Chip.root_noise c _ _ _
@[simp] theorem Chip.slots_setCntAt (c : Chip) (k v) : (c.setCntAt k v).slots = c.slots := Chip.slots_noise c _ _ _
@[simp] theorem Chip.succ_setCntAt (c : Chip) (k v) : (c.setCntAt k v).succ = c.succ := Chip.succ_noise c _ _ _
@[simp] theorem Chip.prisilOps_setCntAt (c : Chip) (k v) : (c.setCntAt k v).prisilOps = c.prisilOps := Chip.prisilOps_noise c _ _ _
@[simp] theorem Chip.shareFaults_setCntAt (c : Chip) (k v) : (c.setCntAt k v).shareFaults = c.shareFaults := Chip.shareFaults_noise c _ _ _
@[simp] theorem Chip.inq_setCntAt (c : Chip) (k v) : (c.setCntAt k v).inq = c.inq := Chip.inq_noise c _ _ _
@[simp] theorem Chip.cans_setCntAt (c : Chip) (k v) : (c.setCntAt k v).cans = c.cans := Chip.cans_noise c _ _ _
@[simp] theorem Chip.lins_setCntAt (c : Chip) (k v) : (c.setCntAt k v).lins = c.lins := Chip.lins_noise c _ _ _
@[simp] theorem Chip.uarts_setCntAt (c : Chip) (k v) : (c.setCntAt k v).uarts = c.uarts := Chip.uarts_noise c _ _ _
@[simp] theorem Chip.acfs_setCntAt (c : Chip) (k v) : (c.setCntAt k v).acfs = c.acfs := Chip.acfs_noise c _ _ _
@[simp] theorem Chip.asms_setCntAt (c : Chip) (k v) : (c.setCntAt k v).asms = c.asms := Chip.asms_noise c _ _ _
@[simp] theorem Chip.sigs_setCntAt (c : Chip) (k v) : (c.setCntAt k v).sigs = c.sigs := Chip.sigs_noise c _ _ _
@[simp] theorem Chip.nius_setCntAt (c : Chip) (k v) : (c.setCntAt k v).nius = c.nius := Chip.nius_noise c _ _ _
@[simp] theorem Chip.tenons_setCntAt (c : Chip) (k v) : (c.setCntAt k v).tenons = c.tenons := Chip.tenons_noise c _ _ _
@[simp] theorem Chip.tWait_setCntAt (c : Chip) (k v) : (c.setCntAt k v).tWait = c.tWait := Chip.tWait_noise c _ _ _
@[simp] theorem Chip.tOwed_setCntAt (c : Chip) (k v) : (c.setCntAt k v).tOwed = c.tOwed := Chip.tOwed_noise c _ _ _
@[simp] theorem Chip.remotes_setCntAt (c : Chip) (k v) : (c.setCntAt k v).remotes = c.remotes := Chip.remotes_noise c _ _ _
@[simp] theorem Chip.ehruzConflict_setCntAt (c : Chip) (k v) : (c.setCntAt k v).ehruzConflict = c.ehruzConflict := Chip.ehruzConflict_noise c _ _ _
@[simp] theorem Chip.rings_setCntAt (c : Chip) (k v) : (c.setCntAt k v).rings = c.rings := Chip.rings_noise c _ _ _
@[simp] theorem Chip.rxDma_setCntAt (c : Chip) (k v) : (c.setCntAt k v).rxDma = c.rxDma := Chip.rxDma_noise c _ _ _
@[simp] theorem Chip.rxHeld_setCntAt (c : Chip) (k v) : (c.setCntAt k v).rxHeld = c.rxHeld := Chip.rxHeld_noise c _ _ _
@[simp] theorem Chip.xings_setCntAt (c : Chip) (k v) : (c.setCntAt k v).xings = c.xings := Chip.xings_noise c _ _ _
@[simp] theorem Chip.readRing_setCntAt (c : Chip) (k v) : (c.setCntAt k v).readRing = c.readRing := Chip.readRing_noise c _ _ _
@[simp] theorem Chip.writeRing_setCntAt (c : Chip) (k v) : (c.setCntAt k v).writeRing = c.writeRing := Chip.writeRing_noise c _ _ _
@[simp] theorem Chip.readPre_setCntAt (c : Chip) (k v) : (c.setCntAt k v).readPre = c.readPre := Chip.readPre_noise c _ _ _
@[simp] theorem Chip.writePre_setCntAt (c : Chip) (k v) : (c.setCntAt k v).writePre = c.writePre := Chip.writePre_noise c _ _ _
@[simp] theorem Chip.tlb_setCntAt (c : Chip) (k v) : (c.setCntAt k v).tlb = c.tlb := Chip.tlb_noise c _ _ _
@[simp] theorem Chip.flts_setCntAt (c : Chip) (k v) : (c.setCntAt k v).flts = c.flts := Chip.flts_noise c _ _ _
@[simp] theorem Chip.fltSeq_setCntAt (c : Chip) (k v) : (c.setCntAt k v).fltSeq = c.fltSeq := Chip.fltSeq_noise c _ _ _
@[simp] theorem Chip.invs_setCntAt (c : Chip) (k v) : (c.setCntAt k v).invs = c.invs := Chip.invs_noise c _ _ _
@[simp] theorem Chip.fences_setCntAt (c : Chip) (k v) : (c.setCntAt k v).fences = c.fences := Chip.fences_noise c _ _ _
@[simp] theorem Chip.qsRead_setCntAt (c : Chip) (k v) : (c.setCntAt k v).qsRead = c.qsRead := Chip.qsRead_noise c _ _ _
@[simp] theorem Chip.clk_setCntAt (c : Chip) (k v) : (c.setCntAt k v).clk = c.clk := Chip.clk_noise c _ _ _
@[simp] theorem Chip.pwr_setCntAt (c : Chip) (k v) : (c.setCntAt k v).pwr = c.pwr := Chip.pwr_noise c _ _ _
@[simp] theorem Chip.aon_setCntAt (c : Chip) (k v) : (c.setCntAt k v).aon = c.aon := Chip.aon_noise c _ _ _
@[simp] theorem Chip.wdt_setCntAt (c : Chip) (k v) : (c.setCntAt k v).wdt = c.wdt := Chip.wdt_noise c _ _ _
@[simp] theorem Chip.tr_setCntAt (c : Chip) (k v) : (c.setCntAt k v).tr = c.tr := Chip.tr_noise c _ _ _
@[simp] theorem Chip.flOps_setCntAt (c : Chip) (k v) : (c.setCntAt k v).flOps = c.flOps := Chip.flOps_noise c _ _ _
@[simp] theorem Chip.otpOp_setCntAt (c : Chip) (k v) : (c.setCntAt k v).otpOp = c.otpOp := Chip.otpOp_noise c _ _ _
@[simp] theorem Chip.boot_setCntAt (c : Chip) (k v) : (c.setCntAt k v).boot = c.boot := Chip.boot_noise c _ _ _
@[simp] theorem Chip.upd_setCntAt (c : Chip) (k v) : (c.setCntAt k v).upd = c.upd := Chip.upd_noise c _ _ _
@[simp] theorem Chip.wear_setCntAt (c : Chip) (k v) : (c.setCntAt k v).wear = c.wear := Chip.wear_noise c _ _ _
@[simp] theorem Chip.testHold_setCntAt (c : Chip) (k v) : (c.setCntAt k v).testHold = c.testHold := Chip.testHold_noise c _ _ _
@[simp] theorem Chip.aer_setCntAt (c : Chip) (k v) : (c.setCntAt k v).aer = c.aer := Chip.aer_noise c _ _ _
@[simp] theorem Chip.dormant_setCntAt (c : Chip) (k v) : (c.setCntAt k v).dormant = c.dormant := Chip.dormant_noise c _ _ _
@[simp] theorem Chip.bootFail_setCntAt (c : Chip) (k v) : (c.setCntAt k v).bootFail = c.bootFail := Chip.bootFail_noise c _ _ _

/-! ## emit -/

@[simp] theorem Chip.cycles_emit (c : Chip) (o) : (c.emit o).cycles = c.cycles := Chip.cycles_noise c _ _ _
@[simp] theorem Chip.rstAt_emit (c : Chip) (o) : (c.emit o).rstAt = c.rstAt := Chip.rstAt_noise c _ _ _
@[simp] theorem Chip.free_emit (c : Chip) (o) : (c.emit o).free = c.free := Chip.free_noise c _ _ _
@[simp] theorem Chip.regs_emit (c : Chip) (o) : (c.emit o).regs = c.regs := Chip.regs_noise c _ _ _
@[simp] theorem Chip.tblA_emit (c : Chip) (o) : (c.emit o).tblA = c.tblA := Chip.tblA_noise c _ _ _
@[simp] theorem Chip.tblS_emit (c : Chip) (o) : (c.emit o).tblS = c.tblS := Chip.tblS_noise c _ _ _
@[simp] theorem Chip.cnt_emit (c : Chip) (o) : (c.emit o).cnt = c.cnt := Chip.cnt_noise c _ _ _
@[simp] theorem Chip.snap_emit (c : Chip) (o) : (c.emit o).snap = c.snap := Chip.snap_noise c _ _ _
@[simp] theorem Chip.wbuf_emit (c : Chip) (o) : (c.emit o).wbuf = c.wbuf := Chip.wbuf_noise c _ _ _
@[simp] theorem Chip.wins_emit (c : Chip) (o) : (c.emit o).wins = c.wins := Chip.wins_noise c _ _ _
@[simp] theorem Chip.syncs_emit (c : Chip) (o) : (c.emit o).syncs = c.syncs := Chip.syncs_noise c _ _ _
@[simp] theorem Chip.snapAll_emit (c : Chip) (o) : (c.emit o).snapAll = c.snapAll := Chip.snapAll_noise c _ _ _
@[simp] theorem Chip.commits_emit (c : Chip) (o) : (c.emit o).commits = c.commits := Chip.commits_noise c _ _ _
@[simp] theorem Chip.group_emit (c : Chip) (o) : (c.emit o).group = c.group := Chip.group_noise c _ _ _
@[simp] theorem Chip.wseq_emit (c : Chip) (o) : (c.emit o).wseq = c.wseq := Chip.wseq_noise c _ _ _
@[simp] theorem Chip.failed_emit (c : Chip) (o) : (c.emit o).failed = c.failed := Chip.failed_noise c _ _ _
@[simp] theorem Chip.undecided_emit (c : Chip) (o) : (c.emit o).undecided = c.undecided := Chip.undecided_noise c _ _ _
@[simp] theorem Chip.pel_emit (c : Chip) (o) : (c.emit o).pel = c.pel := Chip.pel_noise c _ _ _
@[simp] theorem Chip.pelSeq_emit (c : Chip) (o) : (c.emit o).pelSeq = c.pelSeq := Chip.pelSeq_noise c _ _ _
@[simp] theorem Chip.capRing_emit (c : Chip) (o) : (c.emit o).capRing = c.capRing := Chip.capRing_noise c _ _ _
@[simp] theorem Chip.tBase_emit (c : Chip) (o) : (c.emit o).tBase = c.tBase := Chip.tBase_noise c _ _ _
@[simp] theorem Chip.tAnchor_emit (c : Chip) (o) : (c.emit o).tAnchor = c.tAnchor := Chip.tAnchor_noise c _ _ _
@[simp] theorem Chip.tStopped_emit (c : Chip) (o) : (c.emit o).tStopped = c.tStopped := Chip.tStopped_noise c _ _ _
@[simp] theorem Chip.ports_emit (c : Chip) (o) : (c.emit o).ports = c.ports := Chip.ports_noise c _ _ _
@[simp] theorem Chip.warm_emit (c : Chip) (o) : (c.emit o).warm = c.warm := Chip.warm_noise c _ _ _
@[simp] theorem Chip.queues_emit (c : Chip) (o) : (c.emit o).queues = c.queues := Chip.queues_noise c _ _ _
@[simp] theorem Chip.seqs_emit (c : Chip) (o) : (c.emit o).seqs = c.seqs := Chip.seqs_noise c _ _ _
@[simp] theorem Chip.tx_emit (c : Chip) (o) : (c.emit o).tx = c.tx := Chip.tx_noise c _ _ _
@[simp] theorem Chip.preempted_emit (c : Chip) (o) : (c.emit o).preempted = c.preempted := Chip.preempted_noise c _ _ _
@[simp] theorem Chip.rx_emit (c : Chip) (o) : (c.emit o).rx = c.rx := Chip.rx_noise c _ _ _
@[simp] theorem Chip.nextFid_emit (c : Chip) (o) : (c.emit o).nextFid = c.nextFid := Chip.nextFid_noise c _ _ _
@[simp] theorem Chip.spillCredit_emit (c : Chip) (o) : (c.emit o).spillCredit = c.spillCredit := Chip.spillCredit_noise c _ _ _
@[simp] theorem Chip.spillAt_emit (c : Chip) (o) : (c.emit o).spillAt = c.spillAt := Chip.spillAt_noise c _ _ _
@[simp] theorem Chip.bypass_emit (c : Chip) (o) : (c.emit o).bypass = c.bypass := Chip.bypass_noise c _ _ _
@[simp] theorem Chip.partials_emit (c : Chip) (o) : (c.emit o).partials = c.partials := Chip.partials_noise c _ _ _
@[simp] theorem Chip.comps_emit (c : Chip) (o) : (c.emit o).comps = c.comps := Chip.comps_noise c _ _ _
@[simp] theorem Chip.members_emit (c : Chip) (o) : (c.emit o).members = c.members := Chip.members_noise c _ _ _
@[simp] theorem Chip.holds_emit (c : Chip) (o) : (c.emit o).holds = c.holds := Chip.holds_noise c _ _ _
@[simp] theorem Chip.ageAt_emit (c : Chip) (o) : (c.emit o).ageAt = c.ageAt := Chip.ageAt_noise c _ _ _
@[simp] theorem Chip.flush_emit (c : Chip) (o) : (c.emit o).flush = c.flush := Chip.flush_noise c _ _ _
@[simp] theorem Chip.spillTraining_emit (c : Chip) (o) : (c.emit o).spillTraining = c.spillTraining := Chip.spillTraining_noise c _ _ _
@[simp] theorem Chip.timeHfrc_emit (c : Chip) (o) : (c.emit o).timeHfrc = c.timeHfrc := Chip.timeHfrc_noise c _ _ _
@[simp] theorem Chip.slewIndex_emit (c : Chip) (o) : (c.emit o).slewIndex = c.slewIndex := Chip.slewIndex_noise c _ _ _
@[simp] theorem Chip.corrAt_emit (c : Chip) (o) : (c.emit o).corrAt = c.corrAt := Chip.corrAt_noise c _ _ _
@[simp] theorem Chip.holdoverAt_emit (c : Chip) (o) : (c.emit o).holdoverAt = c.holdoverAt := Chip.holdoverAt_noise c _ _ _
@[simp] theorem Chip.holdoverLong_emit (c : Chip) (o) : (c.emit o).holdoverLong = c.holdoverLong := Chip.holdoverLong_noise c _ _ _
@[simp] theorem Chip.ppsArm_emit (c : Chip) (o) : (c.emit o).ppsArm = c.ppsArm := Chip.ppsArm_noise c _ _ _
@[simp] theorem Chip.ppsOut_emit (c : Chip) (o) : (c.emit o).ppsOut = c.ppsOut := Chip.ppsOut_noise c _ _ _
@[simp] theorem Chip.ppsSecond_emit (c : Chip) (o) : (c.emit o).ppsSecond = c.ppsSecond := Chip.ppsSecond_noise c _ _ _
@[simp] theorem Chip.ppsOld_emit (c : Chip) (o) : (c.emit o).ppsOld = c.ppsOld := Chip.ppsOld_noise c _ _ _
@[simp] theorem Chip.stepAt_emit (c : Chip) (o) : (c.emit o).stepAt = c.stepAt := Chip.stepAt_noise c _ _ _
@[simp] theorem Chip.lossAt_emit (c : Chip) (o) : (c.emit o).lossAt = c.lossAt := Chip.lossAt_noise c _ _ _
@[simp] theorem Chip.tm_emit (c : Chip) (o) : (c.emit o).tm = c.tm := Chip.tm_noise c _ _ _
@[simp] theorem Chip.headEpoch_emit (c : Chip) (o) : (c.emit o).headEpoch = c.headEpoch := Chip.headEpoch_noise c _ _ _
@[simp] theorem Chip.ptp_emit (c : Chip) (o) : (c.emit o).ptp = c.ptp := Chip.ptp_noise c _ _ _
@[simp] theorem Chip.lists_emit (c : Chip) (o) : (c.emit o).lists = c.lists := Chip.lists_noise c _ _ _
@[simp] theorem Chip.storyHalted_emit (c : Chip) (o) : (c.emit o).storyHalted = c.storyHalted := Chip.storyHalted_noise c _ _ _
@[simp] theorem Chip.ones_emit (c : Chip) (o) : (c.emit o).ones = c.ones := Chip.ones_noise c _ _ _
@[simp] theorem Chip.pinPulses_emit (c : Chip) (o) : (c.emit o).pinPulses = c.pinPulses := Chip.pinPulses_noise c _ _ _
@[simp] theorem Chip.pinShot_emit (c : Chip) (o) : (c.emit o).pinShot = c.pinShot := Chip.pinShot_noise c _ _ _
@[simp] theorem Chip.pulses_emit (c : Chip) (o) : (c.emit o).pulses = c.pulses := Chip.pulses_noise c _ _ _
@[simp] theorem Chip.distIndex_emit (c : Chip) (o) : (c.emit o).distIndex = c.distIndex := Chip.distIndex_noise c _ _ _
@[simp] theorem Chip.rels_emit (c : Chip) (o) : (c.emit o).rels = c.rels := Chip.rels_noise c _ _ _
@[simp] theorem Chip.rlog_emit (c : Chip) (o) : (c.emit o).rlog = c.rlog := Chip.rlog_noise c _ _ _
@[simp] theorem Chip.rlogSeq_emit (c : Chip) (o) : (c.emit o).rlogSeq = c.rlogSeq := Chip.rlogSeq_noise c _ _ _
@[simp] theorem Chip.ilog_emit (c : Chip) (o) : (c.emit o).ilog = c.ilog := Chip.ilog_noise c _ _ _
@[simp] theorem Chip.ilogSeq_emit (c : Chip) (o) : (c.emit o).ilogSeq = c.ilogSeq := Chip.ilogSeq_noise c _ _ _
@[simp] theorem Chip.watches_emit (c : Chip) (o) : (c.emit o).watches = c.watches := Chip.watches_noise c _ _ _
@[simp] theorem Chip.safeFrames_emit (c : Chip) (o) : (c.emit o).safeFrames = c.safeFrames := Chip.safeFrames_noise c _ _ _
@[simp] theorem Chip.policers_emit (c : Chip) (o) : (c.emit o).policers = c.policers := Chip.policers_noise c _ _ _
@[simp] theorem Chip.sessions_emit (c : Chip) (o) : (c.emit o).sessions = c.sessions := Chip.sessions_noise c _ _ _
@[simp] theorem Chip.units_emit (c : Chip) (o) : (c.emit o).units = c.units := Chip.units_noise c _ _ _
@[simp] theorem Chip.claims_emit (c : Chip) (o) : (c.emit o).claims = c.claims := Chip.claims_noise c _ _ _
@[simp] theorem Chip.unitCmd_emit (c : Chip) (o) : (c.emit o).unitCmd = c.unitCmd := Chip.unitCmd_noise c _ _ _
@[simp] theorem Chip.pns_emit (c : Chip) (o) : (c.emit o).pns = c.pns := Chip.pns_noise c _ _ _
@[simp] theorem Chip.saKeys_emit (c : Chip) (o) : (c.emit o).saKeys = c.saKeys := Chip.saKeys_noise c _ _ _
@[simp] theorem Chip.keyInstall_emit (c : Chip) (o) : (c.emit o).keyInstall = c.keyInstall := Chip.keyInstall_noise c _ _ _
@[simp] theorem Chip.root_emit (c : Chip) (o) : (c.emit o).root = c.root := Chip.root_noise c _ _ _
@[simp] theorem Chip.slots_emit (c : Chip) (o) : (c.emit o).slots = c.slots := Chip.slots_noise c _ _ _
@[simp] theorem Chip.succ_emit (c : Chip) (o) : (c.emit o).succ = c.succ := Chip.succ_noise c _ _ _
@[simp] theorem Chip.prisilOps_emit (c : Chip) (o) : (c.emit o).prisilOps = c.prisilOps := Chip.prisilOps_noise c _ _ _
@[simp] theorem Chip.shareFaults_emit (c : Chip) (o) : (c.emit o).shareFaults = c.shareFaults := Chip.shareFaults_noise c _ _ _
@[simp] theorem Chip.inq_emit (c : Chip) (o) : (c.emit o).inq = c.inq := Chip.inq_noise c _ _ _
@[simp] theorem Chip.cans_emit (c : Chip) (o) : (c.emit o).cans = c.cans := Chip.cans_noise c _ _ _
@[simp] theorem Chip.lins_emit (c : Chip) (o) : (c.emit o).lins = c.lins := Chip.lins_noise c _ _ _
@[simp] theorem Chip.uarts_emit (c : Chip) (o) : (c.emit o).uarts = c.uarts := Chip.uarts_noise c _ _ _
@[simp] theorem Chip.acfs_emit (c : Chip) (o) : (c.emit o).acfs = c.acfs := Chip.acfs_noise c _ _ _
@[simp] theorem Chip.asms_emit (c : Chip) (o) : (c.emit o).asms = c.asms := Chip.asms_noise c _ _ _
@[simp] theorem Chip.sigs_emit (c : Chip) (o) : (c.emit o).sigs = c.sigs := Chip.sigs_noise c _ _ _
@[simp] theorem Chip.nius_emit (c : Chip) (o) : (c.emit o).nius = c.nius := Chip.nius_noise c _ _ _
@[simp] theorem Chip.tenons_emit (c : Chip) (o) : (c.emit o).tenons = c.tenons := Chip.tenons_noise c _ _ _
@[simp] theorem Chip.tWait_emit (c : Chip) (o) : (c.emit o).tWait = c.tWait := Chip.tWait_noise c _ _ _
@[simp] theorem Chip.tOwed_emit (c : Chip) (o) : (c.emit o).tOwed = c.tOwed := Chip.tOwed_noise c _ _ _
@[simp] theorem Chip.remotes_emit (c : Chip) (o) : (c.emit o).remotes = c.remotes := Chip.remotes_noise c _ _ _
@[simp] theorem Chip.ehruzConflict_emit (c : Chip) (o) : (c.emit o).ehruzConflict = c.ehruzConflict := Chip.ehruzConflict_noise c _ _ _
@[simp] theorem Chip.rings_emit (c : Chip) (o) : (c.emit o).rings = c.rings := Chip.rings_noise c _ _ _
@[simp] theorem Chip.rxDma_emit (c : Chip) (o) : (c.emit o).rxDma = c.rxDma := Chip.rxDma_noise c _ _ _
@[simp] theorem Chip.rxHeld_emit (c : Chip) (o) : (c.emit o).rxHeld = c.rxHeld := Chip.rxHeld_noise c _ _ _
@[simp] theorem Chip.xings_emit (c : Chip) (o) : (c.emit o).xings = c.xings := Chip.xings_noise c _ _ _
@[simp] theorem Chip.readRing_emit (c : Chip) (o) : (c.emit o).readRing = c.readRing := Chip.readRing_noise c _ _ _
@[simp] theorem Chip.writeRing_emit (c : Chip) (o) : (c.emit o).writeRing = c.writeRing := Chip.writeRing_noise c _ _ _
@[simp] theorem Chip.readPre_emit (c : Chip) (o) : (c.emit o).readPre = c.readPre := Chip.readPre_noise c _ _ _
@[simp] theorem Chip.writePre_emit (c : Chip) (o) : (c.emit o).writePre = c.writePre := Chip.writePre_noise c _ _ _
@[simp] theorem Chip.tlb_emit (c : Chip) (o) : (c.emit o).tlb = c.tlb := Chip.tlb_noise c _ _ _
@[simp] theorem Chip.flts_emit (c : Chip) (o) : (c.emit o).flts = c.flts := Chip.flts_noise c _ _ _
@[simp] theorem Chip.fltSeq_emit (c : Chip) (o) : (c.emit o).fltSeq = c.fltSeq := Chip.fltSeq_noise c _ _ _
@[simp] theorem Chip.invs_emit (c : Chip) (o) : (c.emit o).invs = c.invs := Chip.invs_noise c _ _ _
@[simp] theorem Chip.fences_emit (c : Chip) (o) : (c.emit o).fences = c.fences := Chip.fences_noise c _ _ _
@[simp] theorem Chip.qsRead_emit (c : Chip) (o) : (c.emit o).qsRead = c.qsRead := Chip.qsRead_noise c _ _ _
@[simp] theorem Chip.clk_emit (c : Chip) (o) : (c.emit o).clk = c.clk := Chip.clk_noise c _ _ _
@[simp] theorem Chip.pwr_emit (c : Chip) (o) : (c.emit o).pwr = c.pwr := Chip.pwr_noise c _ _ _
@[simp] theorem Chip.aon_emit (c : Chip) (o) : (c.emit o).aon = c.aon := Chip.aon_noise c _ _ _
@[simp] theorem Chip.wdt_emit (c : Chip) (o) : (c.emit o).wdt = c.wdt := Chip.wdt_noise c _ _ _
@[simp] theorem Chip.tr_emit (c : Chip) (o) : (c.emit o).tr = c.tr := Chip.tr_noise c _ _ _
@[simp] theorem Chip.flOps_emit (c : Chip) (o) : (c.emit o).flOps = c.flOps := Chip.flOps_noise c _ _ _
@[simp] theorem Chip.otpOp_emit (c : Chip) (o) : (c.emit o).otpOp = c.otpOp := Chip.otpOp_noise c _ _ _
@[simp] theorem Chip.boot_emit (c : Chip) (o) : (c.emit o).boot = c.boot := Chip.boot_noise c _ _ _
@[simp] theorem Chip.upd_emit (c : Chip) (o) : (c.emit o).upd = c.upd := Chip.upd_noise c _ _ _
@[simp] theorem Chip.wear_emit (c : Chip) (o) : (c.emit o).wear = c.wear := Chip.wear_noise c _ _ _
@[simp] theorem Chip.testHold_emit (c : Chip) (o) : (c.emit o).testHold = c.testHold := Chip.testHold_noise c _ _ _
@[simp] theorem Chip.aer_emit (c : Chip) (o) : (c.emit o).aer = c.aer := Chip.aer_noise c _ _ _
@[simp] theorem Chip.dormant_emit (c : Chip) (o) : (c.emit o).dormant = c.dormant := Chip.dormant_noise c _ _ _
@[simp] theorem Chip.bootFail_emit (c : Chip) (o) : (c.emit o).bootFail = c.bootFail := Chip.bootFail_noise c _ _ _

/-! ## setTword -/

@[simp] theorem Chip.cycles_setTword (c : Chip) (p t i n w) : (c.setTword p t i n w).cycles = c.cycles := Chip.cycles_withTables c _ _
@[simp] theorem Chip.rstAt_setTword (c : Chip) (p t i n w) : (c.setTword p t i n w).rstAt = c.rstAt := Chip.rstAt_withTables c _ _
@[simp] theorem Chip.free_setTword (c : Chip) (p t i n w) : (c.setTword p t i n w).free = c.free := Chip.free_withTables c _ _
@[simp] theorem Chip.outs_setTword (c : Chip) (p t i n w) : (c.setTword p t i n w).outs = c.outs := Chip.outs_withTables c _ _
@[simp] theorem Chip.regs_setTword (c : Chip) (p t i n w) : (c.setTword p t i n w).regs = c.regs := Chip.regs_withTables c _ _
@[simp] theorem Chip.tblS_setTword (c : Chip) (p t i n w) : (c.setTword p t i n w).tblS = c.tblS := Chip.tblS_withTables c _ _
@[simp] theorem Chip.cnt_setTword (c : Chip) (p t i n w) : (c.setTword p t i n w).cnt = c.cnt := Chip.cnt_withTables c _ _
@[simp] theorem Chip.snap_setTword (c : Chip) (p t i n w) : (c.setTword p t i n w).snap = c.snap := Chip.snap_withTables c _ _
@[simp] theorem Chip.wbuf_setTword (c : Chip) (p t i n w) : (c.setTword p t i n w).wbuf = c.wbuf := Chip.wbuf_withTables c _ _
@[simp] theorem Chip.wins_setTword (c : Chip) (p t i n w) : (c.setTword p t i n w).wins = c.wins := Chip.wins_withTables c _ _
@[simp] theorem Chip.syncs_setTword (c : Chip) (p t i n w) : (c.setTword p t i n w).syncs = c.syncs := Chip.syncs_withTables c _ _
@[simp] theorem Chip.snapAll_setTword (c : Chip) (p t i n w) : (c.setTword p t i n w).snapAll = c.snapAll := Chip.snapAll_withTables c _ _
@[simp] theorem Chip.commits_setTword (c : Chip) (p t i n w) : (c.setTword p t i n w).commits = c.commits := Chip.commits_withTables c _ _
@[simp] theorem Chip.group_setTword (c : Chip) (p t i n w) : (c.setTword p t i n w).group = c.group := Chip.group_withTables c _ _
@[simp] theorem Chip.wseq_setTword (c : Chip) (p t i n w) : (c.setTword p t i n w).wseq = c.wseq := Chip.wseq_withTables c _ _
@[simp] theorem Chip.failed_setTword (c : Chip) (p t i n w) : (c.setTword p t i n w).failed = c.failed := Chip.failed_withTables c _ _
@[simp] theorem Chip.undecided_setTword (c : Chip) (p t i n w) : (c.setTword p t i n w).undecided = c.undecided := Chip.undecided_withTables c _ _
@[simp] theorem Chip.pel_setTword (c : Chip) (p t i n w) : (c.setTword p t i n w).pel = c.pel := Chip.pel_withTables c _ _
@[simp] theorem Chip.pelSeq_setTword (c : Chip) (p t i n w) : (c.setTword p t i n w).pelSeq = c.pelSeq := Chip.pelSeq_withTables c _ _
@[simp] theorem Chip.capRing_setTword (c : Chip) (p t i n w) : (c.setTword p t i n w).capRing = c.capRing := Chip.capRing_withTables c _ _
@[simp] theorem Chip.tBase_setTword (c : Chip) (p t i n w) : (c.setTword p t i n w).tBase = c.tBase := Chip.tBase_withTables c _ _
@[simp] theorem Chip.tAnchor_setTword (c : Chip) (p t i n w) : (c.setTword p t i n w).tAnchor = c.tAnchor := Chip.tAnchor_withTables c _ _
@[simp] theorem Chip.tStopped_setTword (c : Chip) (p t i n w) : (c.setTword p t i n w).tStopped = c.tStopped := Chip.tStopped_withTables c _ _
@[simp] theorem Chip.ports_setTword (c : Chip) (p t i n w) : (c.setTword p t i n w).ports = c.ports := Chip.ports_withTables c _ _
@[simp] theorem Chip.warm_setTword (c : Chip) (p t i n w) : (c.setTword p t i n w).warm = c.warm := Chip.warm_withTables c _ _
@[simp] theorem Chip.queues_setTword (c : Chip) (p t i n w) : (c.setTword p t i n w).queues = c.queues := Chip.queues_withTables c _ _
@[simp] theorem Chip.seqs_setTword (c : Chip) (p t i n w) : (c.setTword p t i n w).seqs = c.seqs := Chip.seqs_withTables c _ _
@[simp] theorem Chip.tx_setTword (c : Chip) (p t i n w) : (c.setTword p t i n w).tx = c.tx := Chip.tx_withTables c _ _
@[simp] theorem Chip.preempted_setTword (c : Chip) (p t i n w) : (c.setTword p t i n w).preempted = c.preempted := Chip.preempted_withTables c _ _
@[simp] theorem Chip.rx_setTword (c : Chip) (p t i n w) : (c.setTword p t i n w).rx = c.rx := Chip.rx_withTables c _ _
@[simp] theorem Chip.nextFid_setTword (c : Chip) (p t i n w) : (c.setTword p t i n w).nextFid = c.nextFid := Chip.nextFid_withTables c _ _
@[simp] theorem Chip.spillCredit_setTword (c : Chip) (p t i n w) : (c.setTword p t i n w).spillCredit = c.spillCredit := Chip.spillCredit_withTables c _ _
@[simp] theorem Chip.spillAt_setTword (c : Chip) (p t i n w) : (c.setTword p t i n w).spillAt = c.spillAt := Chip.spillAt_withTables c _ _
@[simp] theorem Chip.bypass_setTword (c : Chip) (p t i n w) : (c.setTword p t i n w).bypass = c.bypass := Chip.bypass_withTables c _ _
@[simp] theorem Chip.partials_setTword (c : Chip) (p t i n w) : (c.setTword p t i n w).partials = c.partials := Chip.partials_withTables c _ _
@[simp] theorem Chip.comps_setTword (c : Chip) (p t i n w) : (c.setTword p t i n w).comps = c.comps := Chip.comps_withTables c _ _
@[simp] theorem Chip.members_setTword (c : Chip) (p t i n w) : (c.setTword p t i n w).members = c.members := Chip.members_withTables c _ _
@[simp] theorem Chip.holds_setTword (c : Chip) (p t i n w) : (c.setTword p t i n w).holds = c.holds := Chip.holds_withTables c _ _
@[simp] theorem Chip.ageAt_setTword (c : Chip) (p t i n w) : (c.setTword p t i n w).ageAt = c.ageAt := Chip.ageAt_withTables c _ _
@[simp] theorem Chip.flush_setTword (c : Chip) (p t i n w) : (c.setTword p t i n w).flush = c.flush := Chip.flush_withTables c _ _
@[simp] theorem Chip.spillTraining_setTword (c : Chip) (p t i n w) : (c.setTword p t i n w).spillTraining = c.spillTraining := Chip.spillTraining_withTables c _ _
@[simp] theorem Chip.timeHfrc_setTword (c : Chip) (p t i n w) : (c.setTword p t i n w).timeHfrc = c.timeHfrc := Chip.timeHfrc_withTables c _ _
@[simp] theorem Chip.slewIndex_setTword (c : Chip) (p t i n w) : (c.setTword p t i n w).slewIndex = c.slewIndex := Chip.slewIndex_withTables c _ _
@[simp] theorem Chip.corrAt_setTword (c : Chip) (p t i n w) : (c.setTword p t i n w).corrAt = c.corrAt := Chip.corrAt_withTables c _ _
@[simp] theorem Chip.holdoverAt_setTword (c : Chip) (p t i n w) : (c.setTword p t i n w).holdoverAt = c.holdoverAt := Chip.holdoverAt_withTables c _ _
@[simp] theorem Chip.holdoverLong_setTword (c : Chip) (p t i n w) : (c.setTword p t i n w).holdoverLong = c.holdoverLong := Chip.holdoverLong_withTables c _ _
@[simp] theorem Chip.ppsArm_setTword (c : Chip) (p t i n w) : (c.setTword p t i n w).ppsArm = c.ppsArm := Chip.ppsArm_withTables c _ _
@[simp] theorem Chip.ppsOut_setTword (c : Chip) (p t i n w) : (c.setTword p t i n w).ppsOut = c.ppsOut := Chip.ppsOut_withTables c _ _
@[simp] theorem Chip.ppsSecond_setTword (c : Chip) (p t i n w) : (c.setTword p t i n w).ppsSecond = c.ppsSecond := Chip.ppsSecond_withTables c _ _
@[simp] theorem Chip.ppsOld_setTword (c : Chip) (p t i n w) : (c.setTword p t i n w).ppsOld = c.ppsOld := Chip.ppsOld_withTables c _ _
@[simp] theorem Chip.stepAt_setTword (c : Chip) (p t i n w) : (c.setTword p t i n w).stepAt = c.stepAt := Chip.stepAt_withTables c _ _
@[simp] theorem Chip.lossAt_setTword (c : Chip) (p t i n w) : (c.setTword p t i n w).lossAt = c.lossAt := Chip.lossAt_withTables c _ _
@[simp] theorem Chip.tm_setTword (c : Chip) (p t i n w) : (c.setTword p t i n w).tm = c.tm := Chip.tm_withTables c _ _
@[simp] theorem Chip.headEpoch_setTword (c : Chip) (p t i n w) : (c.setTword p t i n w).headEpoch = c.headEpoch := Chip.headEpoch_withTables c _ _
@[simp] theorem Chip.ptp_setTword (c : Chip) (p t i n w) : (c.setTword p t i n w).ptp = c.ptp := Chip.ptp_withTables c _ _
@[simp] theorem Chip.lists_setTword (c : Chip) (p t i n w) : (c.setTword p t i n w).lists = c.lists := Chip.lists_withTables c _ _
@[simp] theorem Chip.storyHalted_setTword (c : Chip) (p t i n w) : (c.setTword p t i n w).storyHalted = c.storyHalted := Chip.storyHalted_withTables c _ _
@[simp] theorem Chip.ones_setTword (c : Chip) (p t i n w) : (c.setTword p t i n w).ones = c.ones := Chip.ones_withTables c _ _
@[simp] theorem Chip.pinPulses_setTword (c : Chip) (p t i n w) : (c.setTword p t i n w).pinPulses = c.pinPulses := Chip.pinPulses_withTables c _ _
@[simp] theorem Chip.pinShot_setTword (c : Chip) (p t i n w) : (c.setTword p t i n w).pinShot = c.pinShot := Chip.pinShot_withTables c _ _
@[simp] theorem Chip.pulses_setTword (c : Chip) (p t i n w) : (c.setTword p t i n w).pulses = c.pulses := Chip.pulses_withTables c _ _
@[simp] theorem Chip.distIndex_setTword (c : Chip) (p t i n w) : (c.setTword p t i n w).distIndex = c.distIndex := Chip.distIndex_withTables c _ _
@[simp] theorem Chip.rels_setTword (c : Chip) (p t i n w) : (c.setTword p t i n w).rels = c.rels := Chip.rels_withTables c _ _
@[simp] theorem Chip.rlog_setTword (c : Chip) (p t i n w) : (c.setTword p t i n w).rlog = c.rlog := Chip.rlog_withTables c _ _
@[simp] theorem Chip.rlogSeq_setTword (c : Chip) (p t i n w) : (c.setTword p t i n w).rlogSeq = c.rlogSeq := Chip.rlogSeq_withTables c _ _
@[simp] theorem Chip.ilog_setTword (c : Chip) (p t i n w) : (c.setTword p t i n w).ilog = c.ilog := Chip.ilog_withTables c _ _
@[simp] theorem Chip.ilogSeq_setTword (c : Chip) (p t i n w) : (c.setTword p t i n w).ilogSeq = c.ilogSeq := Chip.ilogSeq_withTables c _ _
@[simp] theorem Chip.watches_setTword (c : Chip) (p t i n w) : (c.setTword p t i n w).watches = c.watches := Chip.watches_withTables c _ _
@[simp] theorem Chip.safeFrames_setTword (c : Chip) (p t i n w) : (c.setTword p t i n w).safeFrames = c.safeFrames := Chip.safeFrames_withTables c _ _
@[simp] theorem Chip.policers_setTword (c : Chip) (p t i n w) : (c.setTword p t i n w).policers = c.policers := Chip.policers_withTables c _ _
@[simp] theorem Chip.sessions_setTword (c : Chip) (p t i n w) : (c.setTword p t i n w).sessions = c.sessions := Chip.sessions_withTables c _ _
@[simp] theorem Chip.units_setTword (c : Chip) (p t i n w) : (c.setTword p t i n w).units = c.units := Chip.units_withTables c _ _
@[simp] theorem Chip.claims_setTword (c : Chip) (p t i n w) : (c.setTword p t i n w).claims = c.claims := Chip.claims_withTables c _ _
@[simp] theorem Chip.unitCmd_setTword (c : Chip) (p t i n w) : (c.setTword p t i n w).unitCmd = c.unitCmd := Chip.unitCmd_withTables c _ _
@[simp] theorem Chip.pns_setTword (c : Chip) (p t i n w) : (c.setTword p t i n w).pns = c.pns := Chip.pns_withTables c _ _
@[simp] theorem Chip.saKeys_setTword (c : Chip) (p t i n w) : (c.setTword p t i n w).saKeys = c.saKeys := Chip.saKeys_withTables c _ _
@[simp] theorem Chip.keyInstall_setTword (c : Chip) (p t i n w) : (c.setTword p t i n w).keyInstall = c.keyInstall := Chip.keyInstall_withTables c _ _
@[simp] theorem Chip.root_setTword (c : Chip) (p t i n w) : (c.setTword p t i n w).root = c.root := Chip.root_withTables c _ _
@[simp] theorem Chip.slots_setTword (c : Chip) (p t i n w) : (c.setTword p t i n w).slots = c.slots := Chip.slots_withTables c _ _
@[simp] theorem Chip.succ_setTword (c : Chip) (p t i n w) : (c.setTword p t i n w).succ = c.succ := Chip.succ_withTables c _ _
@[simp] theorem Chip.prisilOps_setTword (c : Chip) (p t i n w) : (c.setTword p t i n w).prisilOps = c.prisilOps := Chip.prisilOps_withTables c _ _
@[simp] theorem Chip.shareFaults_setTword (c : Chip) (p t i n w) : (c.setTword p t i n w).shareFaults = c.shareFaults := Chip.shareFaults_withTables c _ _
@[simp] theorem Chip.inq_setTword (c : Chip) (p t i n w) : (c.setTword p t i n w).inq = c.inq := Chip.inq_withTables c _ _
@[simp] theorem Chip.cans_setTword (c : Chip) (p t i n w) : (c.setTword p t i n w).cans = c.cans := Chip.cans_withTables c _ _
@[simp] theorem Chip.lins_setTword (c : Chip) (p t i n w) : (c.setTword p t i n w).lins = c.lins := Chip.lins_withTables c _ _
@[simp] theorem Chip.uarts_setTword (c : Chip) (p t i n w) : (c.setTword p t i n w).uarts = c.uarts := Chip.uarts_withTables c _ _
@[simp] theorem Chip.acfs_setTword (c : Chip) (p t i n w) : (c.setTword p t i n w).acfs = c.acfs := Chip.acfs_withTables c _ _
@[simp] theorem Chip.asms_setTword (c : Chip) (p t i n w) : (c.setTword p t i n w).asms = c.asms := Chip.asms_withTables c _ _
@[simp] theorem Chip.sigs_setTword (c : Chip) (p t i n w) : (c.setTword p t i n w).sigs = c.sigs := Chip.sigs_withTables c _ _
@[simp] theorem Chip.nius_setTword (c : Chip) (p t i n w) : (c.setTword p t i n w).nius = c.nius := Chip.nius_withTables c _ _
@[simp] theorem Chip.tenons_setTword (c : Chip) (p t i n w) : (c.setTword p t i n w).tenons = c.tenons := Chip.tenons_withTables c _ _
@[simp] theorem Chip.tWait_setTword (c : Chip) (p t i n w) : (c.setTword p t i n w).tWait = c.tWait := Chip.tWait_withTables c _ _
@[simp] theorem Chip.tOwed_setTword (c : Chip) (p t i n w) : (c.setTword p t i n w).tOwed = c.tOwed := Chip.tOwed_withTables c _ _
@[simp] theorem Chip.remotes_setTword (c : Chip) (p t i n w) : (c.setTword p t i n w).remotes = c.remotes := Chip.remotes_withTables c _ _
@[simp] theorem Chip.ehruzConflict_setTword (c : Chip) (p t i n w) : (c.setTword p t i n w).ehruzConflict = c.ehruzConflict := Chip.ehruzConflict_withTables c _ _
@[simp] theorem Chip.rings_setTword (c : Chip) (p t i n w) : (c.setTword p t i n w).rings = c.rings := Chip.rings_withTables c _ _
@[simp] theorem Chip.rxDma_setTword (c : Chip) (p t i n w) : (c.setTword p t i n w).rxDma = c.rxDma := Chip.rxDma_withTables c _ _
@[simp] theorem Chip.rxHeld_setTword (c : Chip) (p t i n w) : (c.setTword p t i n w).rxHeld = c.rxHeld := Chip.rxHeld_withTables c _ _
@[simp] theorem Chip.xings_setTword (c : Chip) (p t i n w) : (c.setTword p t i n w).xings = c.xings := Chip.xings_withTables c _ _
@[simp] theorem Chip.readRing_setTword (c : Chip) (p t i n w) : (c.setTword p t i n w).readRing = c.readRing := Chip.readRing_withTables c _ _
@[simp] theorem Chip.writeRing_setTword (c : Chip) (p t i n w) : (c.setTword p t i n w).writeRing = c.writeRing := Chip.writeRing_withTables c _ _
@[simp] theorem Chip.readPre_setTword (c : Chip) (p t i n w) : (c.setTword p t i n w).readPre = c.readPre := Chip.readPre_withTables c _ _
@[simp] theorem Chip.writePre_setTword (c : Chip) (p t i n w) : (c.setTword p t i n w).writePre = c.writePre := Chip.writePre_withTables c _ _
@[simp] theorem Chip.tlb_setTword (c : Chip) (p t i n w) : (c.setTword p t i n w).tlb = c.tlb := Chip.tlb_withTables c _ _
@[simp] theorem Chip.flts_setTword (c : Chip) (p t i n w) : (c.setTword p t i n w).flts = c.flts := Chip.flts_withTables c _ _
@[simp] theorem Chip.fltSeq_setTword (c : Chip) (p t i n w) : (c.setTword p t i n w).fltSeq = c.fltSeq := Chip.fltSeq_withTables c _ _
@[simp] theorem Chip.invs_setTword (c : Chip) (p t i n w) : (c.setTword p t i n w).invs = c.invs := Chip.invs_withTables c _ _
@[simp] theorem Chip.fences_setTword (c : Chip) (p t i n w) : (c.setTword p t i n w).fences = c.fences := Chip.fences_withTables c _ _
@[simp] theorem Chip.qsRead_setTword (c : Chip) (p t i n w) : (c.setTword p t i n w).qsRead = c.qsRead := Chip.qsRead_withTables c _ _
@[simp] theorem Chip.clk_setTword (c : Chip) (p t i n w) : (c.setTword p t i n w).clk = c.clk := Chip.clk_withTables c _ _
@[simp] theorem Chip.pwr_setTword (c : Chip) (p t i n w) : (c.setTword p t i n w).pwr = c.pwr := Chip.pwr_withTables c _ _
@[simp] theorem Chip.aon_setTword (c : Chip) (p t i n w) : (c.setTword p t i n w).aon = c.aon := Chip.aon_withTables c _ _
@[simp] theorem Chip.wdt_setTword (c : Chip) (p t i n w) : (c.setTword p t i n w).wdt = c.wdt := Chip.wdt_withTables c _ _
@[simp] theorem Chip.tr_setTword (c : Chip) (p t i n w) : (c.setTword p t i n w).tr = c.tr := Chip.tr_withTables c _ _
@[simp] theorem Chip.flOps_setTword (c : Chip) (p t i n w) : (c.setTword p t i n w).flOps = c.flOps := Chip.flOps_withTables c _ _
@[simp] theorem Chip.otpOp_setTword (c : Chip) (p t i n w) : (c.setTword p t i n w).otpOp = c.otpOp := Chip.otpOp_withTables c _ _
@[simp] theorem Chip.boot_setTword (c : Chip) (p t i n w) : (c.setTword p t i n w).boot = c.boot := Chip.boot_withTables c _ _
@[simp] theorem Chip.upd_setTword (c : Chip) (p t i n w) : (c.setTword p t i n w).upd = c.upd := Chip.upd_withTables c _ _
@[simp] theorem Chip.wear_setTword (c : Chip) (p t i n w) : (c.setTword p t i n w).wear = c.wear := Chip.wear_withTables c _ _
@[simp] theorem Chip.testHold_setTword (c : Chip) (p t i n w) : (c.setTword p t i n w).testHold = c.testHold := Chip.testHold_withTables c _ _
@[simp] theorem Chip.aer_setTword (c : Chip) (p t i n w) : (c.setTword p t i n w).aer = c.aer := Chip.aer_withTables c _ _
@[simp] theorem Chip.dormant_setTword (c : Chip) (p t i n w) : (c.setTword p t i n w).dormant = c.dormant := Chip.dormant_withTables c _ _
@[simp] theorem Chip.bootFail_setTword (c : Chip) (p t i n w) : (c.setTword p t i n w).bootFail = c.bootFail := Chip.bootFail_withTables c _ _

/-! ## setTstaged -/

@[simp] theorem Chip.cycles_setTstaged (c : Chip) (p t i n w) : (c.setTstaged p t i n w).cycles = c.cycles := Chip.cycles_withTables c _ _
@[simp] theorem Chip.rstAt_setTstaged (c : Chip) (p t i n w) : (c.setTstaged p t i n w).rstAt = c.rstAt := Chip.rstAt_withTables c _ _
@[simp] theorem Chip.free_setTstaged (c : Chip) (p t i n w) : (c.setTstaged p t i n w).free = c.free := Chip.free_withTables c _ _
@[simp] theorem Chip.outs_setTstaged (c : Chip) (p t i n w) : (c.setTstaged p t i n w).outs = c.outs := Chip.outs_withTables c _ _
@[simp] theorem Chip.regs_setTstaged (c : Chip) (p t i n w) : (c.setTstaged p t i n w).regs = c.regs := Chip.regs_withTables c _ _
@[simp] theorem Chip.tblA_setTstaged (c : Chip) (p t i n w) : (c.setTstaged p t i n w).tblA = c.tblA := Chip.tblA_withTables c _ _
@[simp] theorem Chip.cnt_setTstaged (c : Chip) (p t i n w) : (c.setTstaged p t i n w).cnt = c.cnt := Chip.cnt_withTables c _ _
@[simp] theorem Chip.snap_setTstaged (c : Chip) (p t i n w) : (c.setTstaged p t i n w).snap = c.snap := Chip.snap_withTables c _ _
@[simp] theorem Chip.wbuf_setTstaged (c : Chip) (p t i n w) : (c.setTstaged p t i n w).wbuf = c.wbuf := Chip.wbuf_withTables c _ _
@[simp] theorem Chip.wins_setTstaged (c : Chip) (p t i n w) : (c.setTstaged p t i n w).wins = c.wins := Chip.wins_withTables c _ _
@[simp] theorem Chip.syncs_setTstaged (c : Chip) (p t i n w) : (c.setTstaged p t i n w).syncs = c.syncs := Chip.syncs_withTables c _ _
@[simp] theorem Chip.snapAll_setTstaged (c : Chip) (p t i n w) : (c.setTstaged p t i n w).snapAll = c.snapAll := Chip.snapAll_withTables c _ _
@[simp] theorem Chip.commits_setTstaged (c : Chip) (p t i n w) : (c.setTstaged p t i n w).commits = c.commits := Chip.commits_withTables c _ _
@[simp] theorem Chip.group_setTstaged (c : Chip) (p t i n w) : (c.setTstaged p t i n w).group = c.group := Chip.group_withTables c _ _
@[simp] theorem Chip.wseq_setTstaged (c : Chip) (p t i n w) : (c.setTstaged p t i n w).wseq = c.wseq := Chip.wseq_withTables c _ _
@[simp] theorem Chip.failed_setTstaged (c : Chip) (p t i n w) : (c.setTstaged p t i n w).failed = c.failed := Chip.failed_withTables c _ _
@[simp] theorem Chip.undecided_setTstaged (c : Chip) (p t i n w) : (c.setTstaged p t i n w).undecided = c.undecided := Chip.undecided_withTables c _ _
@[simp] theorem Chip.pel_setTstaged (c : Chip) (p t i n w) : (c.setTstaged p t i n w).pel = c.pel := Chip.pel_withTables c _ _
@[simp] theorem Chip.pelSeq_setTstaged (c : Chip) (p t i n w) : (c.setTstaged p t i n w).pelSeq = c.pelSeq := Chip.pelSeq_withTables c _ _
@[simp] theorem Chip.capRing_setTstaged (c : Chip) (p t i n w) : (c.setTstaged p t i n w).capRing = c.capRing := Chip.capRing_withTables c _ _
@[simp] theorem Chip.tBase_setTstaged (c : Chip) (p t i n w) : (c.setTstaged p t i n w).tBase = c.tBase := Chip.tBase_withTables c _ _
@[simp] theorem Chip.tAnchor_setTstaged (c : Chip) (p t i n w) : (c.setTstaged p t i n w).tAnchor = c.tAnchor := Chip.tAnchor_withTables c _ _
@[simp] theorem Chip.tStopped_setTstaged (c : Chip) (p t i n w) : (c.setTstaged p t i n w).tStopped = c.tStopped := Chip.tStopped_withTables c _ _
@[simp] theorem Chip.ports_setTstaged (c : Chip) (p t i n w) : (c.setTstaged p t i n w).ports = c.ports := Chip.ports_withTables c _ _
@[simp] theorem Chip.warm_setTstaged (c : Chip) (p t i n w) : (c.setTstaged p t i n w).warm = c.warm := Chip.warm_withTables c _ _
@[simp] theorem Chip.queues_setTstaged (c : Chip) (p t i n w) : (c.setTstaged p t i n w).queues = c.queues := Chip.queues_withTables c _ _
@[simp] theorem Chip.seqs_setTstaged (c : Chip) (p t i n w) : (c.setTstaged p t i n w).seqs = c.seqs := Chip.seqs_withTables c _ _
@[simp] theorem Chip.tx_setTstaged (c : Chip) (p t i n w) : (c.setTstaged p t i n w).tx = c.tx := Chip.tx_withTables c _ _
@[simp] theorem Chip.preempted_setTstaged (c : Chip) (p t i n w) : (c.setTstaged p t i n w).preempted = c.preempted := Chip.preempted_withTables c _ _
@[simp] theorem Chip.rx_setTstaged (c : Chip) (p t i n w) : (c.setTstaged p t i n w).rx = c.rx := Chip.rx_withTables c _ _
@[simp] theorem Chip.nextFid_setTstaged (c : Chip) (p t i n w) : (c.setTstaged p t i n w).nextFid = c.nextFid := Chip.nextFid_withTables c _ _
@[simp] theorem Chip.spillCredit_setTstaged (c : Chip) (p t i n w) : (c.setTstaged p t i n w).spillCredit = c.spillCredit := Chip.spillCredit_withTables c _ _
@[simp] theorem Chip.spillAt_setTstaged (c : Chip) (p t i n w) : (c.setTstaged p t i n w).spillAt = c.spillAt := Chip.spillAt_withTables c _ _
@[simp] theorem Chip.bypass_setTstaged (c : Chip) (p t i n w) : (c.setTstaged p t i n w).bypass = c.bypass := Chip.bypass_withTables c _ _
@[simp] theorem Chip.partials_setTstaged (c : Chip) (p t i n w) : (c.setTstaged p t i n w).partials = c.partials := Chip.partials_withTables c _ _
@[simp] theorem Chip.comps_setTstaged (c : Chip) (p t i n w) : (c.setTstaged p t i n w).comps = c.comps := Chip.comps_withTables c _ _
@[simp] theorem Chip.members_setTstaged (c : Chip) (p t i n w) : (c.setTstaged p t i n w).members = c.members := Chip.members_withTables c _ _
@[simp] theorem Chip.holds_setTstaged (c : Chip) (p t i n w) : (c.setTstaged p t i n w).holds = c.holds := Chip.holds_withTables c _ _
@[simp] theorem Chip.ageAt_setTstaged (c : Chip) (p t i n w) : (c.setTstaged p t i n w).ageAt = c.ageAt := Chip.ageAt_withTables c _ _
@[simp] theorem Chip.flush_setTstaged (c : Chip) (p t i n w) : (c.setTstaged p t i n w).flush = c.flush := Chip.flush_withTables c _ _
@[simp] theorem Chip.spillTraining_setTstaged (c : Chip) (p t i n w) : (c.setTstaged p t i n w).spillTraining = c.spillTraining := Chip.spillTraining_withTables c _ _
@[simp] theorem Chip.timeHfrc_setTstaged (c : Chip) (p t i n w) : (c.setTstaged p t i n w).timeHfrc = c.timeHfrc := Chip.timeHfrc_withTables c _ _
@[simp] theorem Chip.slewIndex_setTstaged (c : Chip) (p t i n w) : (c.setTstaged p t i n w).slewIndex = c.slewIndex := Chip.slewIndex_withTables c _ _
@[simp] theorem Chip.corrAt_setTstaged (c : Chip) (p t i n w) : (c.setTstaged p t i n w).corrAt = c.corrAt := Chip.corrAt_withTables c _ _
@[simp] theorem Chip.holdoverAt_setTstaged (c : Chip) (p t i n w) : (c.setTstaged p t i n w).holdoverAt = c.holdoverAt := Chip.holdoverAt_withTables c _ _
@[simp] theorem Chip.holdoverLong_setTstaged (c : Chip) (p t i n w) : (c.setTstaged p t i n w).holdoverLong = c.holdoverLong := Chip.holdoverLong_withTables c _ _
@[simp] theorem Chip.ppsArm_setTstaged (c : Chip) (p t i n w) : (c.setTstaged p t i n w).ppsArm = c.ppsArm := Chip.ppsArm_withTables c _ _
@[simp] theorem Chip.ppsOut_setTstaged (c : Chip) (p t i n w) : (c.setTstaged p t i n w).ppsOut = c.ppsOut := Chip.ppsOut_withTables c _ _
@[simp] theorem Chip.ppsSecond_setTstaged (c : Chip) (p t i n w) : (c.setTstaged p t i n w).ppsSecond = c.ppsSecond := Chip.ppsSecond_withTables c _ _
@[simp] theorem Chip.ppsOld_setTstaged (c : Chip) (p t i n w) : (c.setTstaged p t i n w).ppsOld = c.ppsOld := Chip.ppsOld_withTables c _ _
@[simp] theorem Chip.stepAt_setTstaged (c : Chip) (p t i n w) : (c.setTstaged p t i n w).stepAt = c.stepAt := Chip.stepAt_withTables c _ _
@[simp] theorem Chip.lossAt_setTstaged (c : Chip) (p t i n w) : (c.setTstaged p t i n w).lossAt = c.lossAt := Chip.lossAt_withTables c _ _
@[simp] theorem Chip.tm_setTstaged (c : Chip) (p t i n w) : (c.setTstaged p t i n w).tm = c.tm := Chip.tm_withTables c _ _
@[simp] theorem Chip.headEpoch_setTstaged (c : Chip) (p t i n w) : (c.setTstaged p t i n w).headEpoch = c.headEpoch := Chip.headEpoch_withTables c _ _
@[simp] theorem Chip.ptp_setTstaged (c : Chip) (p t i n w) : (c.setTstaged p t i n w).ptp = c.ptp := Chip.ptp_withTables c _ _
@[simp] theorem Chip.lists_setTstaged (c : Chip) (p t i n w) : (c.setTstaged p t i n w).lists = c.lists := Chip.lists_withTables c _ _
@[simp] theorem Chip.storyHalted_setTstaged (c : Chip) (p t i n w) : (c.setTstaged p t i n w).storyHalted = c.storyHalted := Chip.storyHalted_withTables c _ _
@[simp] theorem Chip.ones_setTstaged (c : Chip) (p t i n w) : (c.setTstaged p t i n w).ones = c.ones := Chip.ones_withTables c _ _
@[simp] theorem Chip.pinPulses_setTstaged (c : Chip) (p t i n w) : (c.setTstaged p t i n w).pinPulses = c.pinPulses := Chip.pinPulses_withTables c _ _
@[simp] theorem Chip.pinShot_setTstaged (c : Chip) (p t i n w) : (c.setTstaged p t i n w).pinShot = c.pinShot := Chip.pinShot_withTables c _ _
@[simp] theorem Chip.pulses_setTstaged (c : Chip) (p t i n w) : (c.setTstaged p t i n w).pulses = c.pulses := Chip.pulses_withTables c _ _
@[simp] theorem Chip.distIndex_setTstaged (c : Chip) (p t i n w) : (c.setTstaged p t i n w).distIndex = c.distIndex := Chip.distIndex_withTables c _ _
@[simp] theorem Chip.rels_setTstaged (c : Chip) (p t i n w) : (c.setTstaged p t i n w).rels = c.rels := Chip.rels_withTables c _ _
@[simp] theorem Chip.rlog_setTstaged (c : Chip) (p t i n w) : (c.setTstaged p t i n w).rlog = c.rlog := Chip.rlog_withTables c _ _
@[simp] theorem Chip.rlogSeq_setTstaged (c : Chip) (p t i n w) : (c.setTstaged p t i n w).rlogSeq = c.rlogSeq := Chip.rlogSeq_withTables c _ _
@[simp] theorem Chip.ilog_setTstaged (c : Chip) (p t i n w) : (c.setTstaged p t i n w).ilog = c.ilog := Chip.ilog_withTables c _ _
@[simp] theorem Chip.ilogSeq_setTstaged (c : Chip) (p t i n w) : (c.setTstaged p t i n w).ilogSeq = c.ilogSeq := Chip.ilogSeq_withTables c _ _
@[simp] theorem Chip.watches_setTstaged (c : Chip) (p t i n w) : (c.setTstaged p t i n w).watches = c.watches := Chip.watches_withTables c _ _
@[simp] theorem Chip.safeFrames_setTstaged (c : Chip) (p t i n w) : (c.setTstaged p t i n w).safeFrames = c.safeFrames := Chip.safeFrames_withTables c _ _
@[simp] theorem Chip.policers_setTstaged (c : Chip) (p t i n w) : (c.setTstaged p t i n w).policers = c.policers := Chip.policers_withTables c _ _
@[simp] theorem Chip.sessions_setTstaged (c : Chip) (p t i n w) : (c.setTstaged p t i n w).sessions = c.sessions := Chip.sessions_withTables c _ _
@[simp] theorem Chip.units_setTstaged (c : Chip) (p t i n w) : (c.setTstaged p t i n w).units = c.units := Chip.units_withTables c _ _
@[simp] theorem Chip.claims_setTstaged (c : Chip) (p t i n w) : (c.setTstaged p t i n w).claims = c.claims := Chip.claims_withTables c _ _
@[simp] theorem Chip.unitCmd_setTstaged (c : Chip) (p t i n w) : (c.setTstaged p t i n w).unitCmd = c.unitCmd := Chip.unitCmd_withTables c _ _
@[simp] theorem Chip.pns_setTstaged (c : Chip) (p t i n w) : (c.setTstaged p t i n w).pns = c.pns := Chip.pns_withTables c _ _
@[simp] theorem Chip.saKeys_setTstaged (c : Chip) (p t i n w) : (c.setTstaged p t i n w).saKeys = c.saKeys := Chip.saKeys_withTables c _ _
@[simp] theorem Chip.keyInstall_setTstaged (c : Chip) (p t i n w) : (c.setTstaged p t i n w).keyInstall = c.keyInstall := Chip.keyInstall_withTables c _ _
@[simp] theorem Chip.root_setTstaged (c : Chip) (p t i n w) : (c.setTstaged p t i n w).root = c.root := Chip.root_withTables c _ _
@[simp] theorem Chip.slots_setTstaged (c : Chip) (p t i n w) : (c.setTstaged p t i n w).slots = c.slots := Chip.slots_withTables c _ _
@[simp] theorem Chip.succ_setTstaged (c : Chip) (p t i n w) : (c.setTstaged p t i n w).succ = c.succ := Chip.succ_withTables c _ _
@[simp] theorem Chip.prisilOps_setTstaged (c : Chip) (p t i n w) : (c.setTstaged p t i n w).prisilOps = c.prisilOps := Chip.prisilOps_withTables c _ _
@[simp] theorem Chip.shareFaults_setTstaged (c : Chip) (p t i n w) : (c.setTstaged p t i n w).shareFaults = c.shareFaults := Chip.shareFaults_withTables c _ _
@[simp] theorem Chip.inq_setTstaged (c : Chip) (p t i n w) : (c.setTstaged p t i n w).inq = c.inq := Chip.inq_withTables c _ _
@[simp] theorem Chip.cans_setTstaged (c : Chip) (p t i n w) : (c.setTstaged p t i n w).cans = c.cans := Chip.cans_withTables c _ _
@[simp] theorem Chip.lins_setTstaged (c : Chip) (p t i n w) : (c.setTstaged p t i n w).lins = c.lins := Chip.lins_withTables c _ _
@[simp] theorem Chip.uarts_setTstaged (c : Chip) (p t i n w) : (c.setTstaged p t i n w).uarts = c.uarts := Chip.uarts_withTables c _ _
@[simp] theorem Chip.acfs_setTstaged (c : Chip) (p t i n w) : (c.setTstaged p t i n w).acfs = c.acfs := Chip.acfs_withTables c _ _
@[simp] theorem Chip.asms_setTstaged (c : Chip) (p t i n w) : (c.setTstaged p t i n w).asms = c.asms := Chip.asms_withTables c _ _
@[simp] theorem Chip.sigs_setTstaged (c : Chip) (p t i n w) : (c.setTstaged p t i n w).sigs = c.sigs := Chip.sigs_withTables c _ _
@[simp] theorem Chip.nius_setTstaged (c : Chip) (p t i n w) : (c.setTstaged p t i n w).nius = c.nius := Chip.nius_withTables c _ _
@[simp] theorem Chip.tenons_setTstaged (c : Chip) (p t i n w) : (c.setTstaged p t i n w).tenons = c.tenons := Chip.tenons_withTables c _ _
@[simp] theorem Chip.tWait_setTstaged (c : Chip) (p t i n w) : (c.setTstaged p t i n w).tWait = c.tWait := Chip.tWait_withTables c _ _
@[simp] theorem Chip.tOwed_setTstaged (c : Chip) (p t i n w) : (c.setTstaged p t i n w).tOwed = c.tOwed := Chip.tOwed_withTables c _ _
@[simp] theorem Chip.remotes_setTstaged (c : Chip) (p t i n w) : (c.setTstaged p t i n w).remotes = c.remotes := Chip.remotes_withTables c _ _
@[simp] theorem Chip.ehruzConflict_setTstaged (c : Chip) (p t i n w) : (c.setTstaged p t i n w).ehruzConflict = c.ehruzConflict := Chip.ehruzConflict_withTables c _ _
@[simp] theorem Chip.rings_setTstaged (c : Chip) (p t i n w) : (c.setTstaged p t i n w).rings = c.rings := Chip.rings_withTables c _ _
@[simp] theorem Chip.rxDma_setTstaged (c : Chip) (p t i n w) : (c.setTstaged p t i n w).rxDma = c.rxDma := Chip.rxDma_withTables c _ _
@[simp] theorem Chip.rxHeld_setTstaged (c : Chip) (p t i n w) : (c.setTstaged p t i n w).rxHeld = c.rxHeld := Chip.rxHeld_withTables c _ _
@[simp] theorem Chip.xings_setTstaged (c : Chip) (p t i n w) : (c.setTstaged p t i n w).xings = c.xings := Chip.xings_withTables c _ _
@[simp] theorem Chip.readRing_setTstaged (c : Chip) (p t i n w) : (c.setTstaged p t i n w).readRing = c.readRing := Chip.readRing_withTables c _ _
@[simp] theorem Chip.writeRing_setTstaged (c : Chip) (p t i n w) : (c.setTstaged p t i n w).writeRing = c.writeRing := Chip.writeRing_withTables c _ _
@[simp] theorem Chip.readPre_setTstaged (c : Chip) (p t i n w) : (c.setTstaged p t i n w).readPre = c.readPre := Chip.readPre_withTables c _ _
@[simp] theorem Chip.writePre_setTstaged (c : Chip) (p t i n w) : (c.setTstaged p t i n w).writePre = c.writePre := Chip.writePre_withTables c _ _
@[simp] theorem Chip.tlb_setTstaged (c : Chip) (p t i n w) : (c.setTstaged p t i n w).tlb = c.tlb := Chip.tlb_withTables c _ _
@[simp] theorem Chip.flts_setTstaged (c : Chip) (p t i n w) : (c.setTstaged p t i n w).flts = c.flts := Chip.flts_withTables c _ _
@[simp] theorem Chip.fltSeq_setTstaged (c : Chip) (p t i n w) : (c.setTstaged p t i n w).fltSeq = c.fltSeq := Chip.fltSeq_withTables c _ _
@[simp] theorem Chip.invs_setTstaged (c : Chip) (p t i n w) : (c.setTstaged p t i n w).invs = c.invs := Chip.invs_withTables c _ _
@[simp] theorem Chip.fences_setTstaged (c : Chip) (p t i n w) : (c.setTstaged p t i n w).fences = c.fences := Chip.fences_withTables c _ _
@[simp] theorem Chip.qsRead_setTstaged (c : Chip) (p t i n w) : (c.setTstaged p t i n w).qsRead = c.qsRead := Chip.qsRead_withTables c _ _
@[simp] theorem Chip.clk_setTstaged (c : Chip) (p t i n w) : (c.setTstaged p t i n w).clk = c.clk := Chip.clk_withTables c _ _
@[simp] theorem Chip.pwr_setTstaged (c : Chip) (p t i n w) : (c.setTstaged p t i n w).pwr = c.pwr := Chip.pwr_withTables c _ _
@[simp] theorem Chip.aon_setTstaged (c : Chip) (p t i n w) : (c.setTstaged p t i n w).aon = c.aon := Chip.aon_withTables c _ _
@[simp] theorem Chip.wdt_setTstaged (c : Chip) (p t i n w) : (c.setTstaged p t i n w).wdt = c.wdt := Chip.wdt_withTables c _ _
@[simp] theorem Chip.tr_setTstaged (c : Chip) (p t i n w) : (c.setTstaged p t i n w).tr = c.tr := Chip.tr_withTables c _ _
@[simp] theorem Chip.flOps_setTstaged (c : Chip) (p t i n w) : (c.setTstaged p t i n w).flOps = c.flOps := Chip.flOps_withTables c _ _
@[simp] theorem Chip.otpOp_setTstaged (c : Chip) (p t i n w) : (c.setTstaged p t i n w).otpOp = c.otpOp := Chip.otpOp_withTables c _ _
@[simp] theorem Chip.boot_setTstaged (c : Chip) (p t i n w) : (c.setTstaged p t i n w).boot = c.boot := Chip.boot_withTables c _ _
@[simp] theorem Chip.upd_setTstaged (c : Chip) (p t i n w) : (c.setTstaged p t i n w).upd = c.upd := Chip.upd_withTables c _ _
@[simp] theorem Chip.wear_setTstaged (c : Chip) (p t i n w) : (c.setTstaged p t i n w).wear = c.wear := Chip.wear_withTables c _ _
@[simp] theorem Chip.testHold_setTstaged (c : Chip) (p t i n w) : (c.setTstaged p t i n w).testHold = c.testHold := Chip.testHold_withTables c _ _
@[simp] theorem Chip.aer_setTstaged (c : Chip) (p t i n w) : (c.setTstaged p t i n w).aer = c.aer := Chip.aer_withTables c _ _
@[simp] theorem Chip.dormant_setTstaged (c : Chip) (p t i n w) : (c.setTstaged p t i n w).dormant = c.dormant := Chip.dormant_withTables c _ _
@[simp] theorem Chip.bootFail_setTstaged (c : Chip) (p t i n w) : (c.setTstaged p t i n w).bootFail = c.bootFail := Chip.bootFail_withTables c _ _

/-! ## State -/

@[simp] theorem State.run_chip (s : State) (dt : Nat) (f : Chip → Chip) : (s.run dt f).chip = f (s.chip.pass dt) := rfl
@[simp] theorem State.run_ext (s : State) (dt : Nat) (f : Chip → Chip) : (s.run dt f).ext = s.ext := rfl
@[simp] theorem State.run_pending (s : State) (dt : Nat) (f : Chip → Chip) : (s.run dt f).pending = s.pending := rfl
@[simp] theorem State.runExt_chip (s : State) (dt : Nat) (f : Chip → Ext → Chip × Ext) :
    (s.runExt dt f).chip = (f (s.chip.pass dt) s.ext).1 := rfl
@[simp] theorem State.runExt_ext (s : State) (dt : Nat) (f : Chip → Ext → Chip × Ext) :
    (s.runExt dt f).ext = (f (s.chip.pass dt) s.ext).2 := rfl
@[simp] theorem State.runExt_pending (s : State) (dt : Nat) (f : Chip → Ext → Chip × Ext) : (s.runExt dt f).pending = s.pending := rfl

end Sys2Proof.Machine
end

