-- ==== Sys2Proof/Laws/Ops.lean ====
section
/-! SUPPORT. What the shared operations can do: counting and raising events change nothing but counters, outputs, `EVT_RAW`, the pending
bits of MSI-X and the overflow bits of PERF; what a posted write does once it is taken. -/
namespace Sys2Proof.Machine

open Sys2Proof

/-! ## Calm operations -/

/-- The registers that no count and no message touches: all but MSI-X's pending bits and PERF's overflow bits. -/
def still (p : Page) (off : Nat) : Bool :=
  !(p.kind == .host && (off == 0x380 || off == 0x384)) && !(p.kind == .perf && off == 0x148)

/-- The registers that no event touches either: `EVT_RAW` is not among them. -/
def quiet (p : Page) (off : Nat) : Bool := off != 0x018 && still p off

/-- `d` differs from `c` only in registers that are not still, in counters and in outputs. -/
structure Calm (c d : Chip) : Prop where
  same : ∃ r n o, d = c.noise r n o
  regs : ∀ q a, pageValid q = true → a < 0x1000 → still q a = true → d.reg q a = c.reg q a

/-- `d` differs from `c` only in registers that are not quiet, in counters and in outputs. -/
structure Loud (c d : Chip) : Prop where
  same : ∃ r n o, d = c.noise r n o
  regs : ∀ q a, pageValid q = true → a < 0x1000 → quiet q a = true → d.reg q a = c.reg q a

theorem Calm.loud {c d : Chip} (h : Calm c d) : Loud c d := ⟨h.same, fun q a hq ha hh => h.regs q a hq ha (by simp only [quiet, Bool.and_eq_true] at hh; exact hh.2)⟩

theorem Loud.trans {c d e : Chip} (h : Loud c d) (g : Loud d e) : Loud c e := by
  obtain ⟨⟨r, n, o, rfl⟩, hr⟩ := h
  obtain ⟨⟨r', n', o', rfl⟩, gr⟩ := g
  exact ⟨⟨r', n', o', rfl⟩, fun q a hq ha hh => (gr q a hq ha hh).trans (hr q a hq ha hh)⟩

theorem Calm.refl (c : Chip) : Calm c c := ⟨⟨c.regs, c.cnt, c.outs, rfl⟩, fun _ _ _ _ _ => rfl⟩

theorem Calm.trans {c d e : Chip} (h : Calm c d) (g : Calm d e) : Calm c e := by
  obtain ⟨⟨r, n, o, rfl⟩, hr⟩ := h
  obtain ⟨⟨r', n', o', rfl⟩, gr⟩ := g
  exact ⟨⟨r', n', o', rfl⟩, fun q a hq ha hh => (gr q a hq ha hh).trans (hr q a hq ha hh)⟩

theorem reg_congr {c d : Chip} (h : d.regs = c.regs) (p : Page) (off : Nat) : d.reg p off = c.reg p off := by
  simp only [Chip.reg, h]

theorem Calm.setCntAt (c : Chip) (k : Nat) (v : W48) : Calm c (c.setCntAt k v) :=
  ⟨⟨c.regs, _, c.outs, rfl⟩, fun _ _ _ _ _ => reg_congr rfl _ _⟩

theorem Calm.emit (c : Chip) (o : Output) : Calm c (c.emit o) := ⟨⟨c.regs, c.cnt, _, rfl⟩, fun _ _ _ _ _ => reg_congr rfl _ _⟩

theorem Calm.addCnt (c : Chip) (p : Page) (i n : Nat) : Calm c (c.addCnt p i n) := Calm.setCntAt ..

theorem Calm.count (c : Chip) (p : Page) (i : Nat) : Calm c (c.count p i) := Calm.setCntAt ..

theorem Calm.addTCnt (c : Chip) (p : Page) (t i k n : Nat) : Calm c (c.addTCnt p t i k n) := Calm.setCntAt ..

theorem Calm.tcount (c : Chip) (p : Page) (t i k : Nat) : Calm c (c.tcount p t i k) := Calm.setCntAt ..

/-- A register that is not still may be replaced. -/
theorem Calm.setReg (c : Chip) (p : Page) (off : Nat) (w : Word) (hp : pageValid p = true) (ho : off < 0x1000) (hq : still p off = false) :
    Calm c (c.setReg p off w) := by
  refine ⟨⟨_, c.cnt, c.outs, rfl⟩, fun q a hq' ha hh => ?_⟩
  by_cases e : q = p
  · subst e
    exact c.reg_setReg_off _ fun h => by rw [h, hq] at hh; exact Bool.noConfusion hh
  · exact c.reg_setReg_page _ hq' hp ha ho e

theorem Calm.perfAdd (c : Chip) (i n : Nat) : Calm c (c.perfAdd i n) := by
  unfold Chip.perfAdd
  simp only
  split
  · exact Calm.addCnt ..
  · exact (Calm.addCnt c pPERF i n).trans (Calm.setReg _ _ _ _ rfl (by decide) (by simp [still]))

theorem Calm.perfBump (c : Chip) (ev n : Nat) : Calm c (c.perfBump ev n).1 := by
  unfold Chip.perfBump
  split
  · exact Calm.refl c
  · suffices H : ∀ (l : List Nat) (a : Chip × Bool), Calm c a.1 → Calm c (l.foldl (fun (a : Chip × Bool) i =>
        let w := a.1.reg pPERF (0x180 + 4 * i)
        if w.toNat.testBit 16 ∧ bitsAt w 0 10 = ev then
          (a.1.perfAdd i n, a.2 || decide (2 ^ 48 ≤ (a.1.cntAt (cntKey pPERF i)).toNat + n)) else a) a).1 from H _ _ (Calm.refl c)
    intro l
    induction l with
    | nil => intro a h; exact h
    | cons i l ih =>
      intro a h
      simp only [List.foldl_cons]
      apply ih
      split
      · exact h.trans (Calm.perfAdd ..)
      · exact h

theorem Calm.sendMsix (c : Chip) (v : Nat) : Calm c (c.sendMsix v) := by
  unfold Chip.sendMsix
  simp only
  split
  · exact Calm.refl c
  · split
    · have h2 : v % 64 / 32 = 0 ∨ v % 64 / 32 = 1 := by omega
      rcases h2 with h2 | h2 <;> rw [h2] <;> exact Calm.setReg _ _ _ _ rfl (by decide) (by simp [still])
    · exact ((Calm.perfBump c 0x2C4 1).trans (Calm.count ..)).trans (Calm.emit ..)

theorem Calm.routeEvent (c : Chip) (p : Page) : Calm c (c.routeEvent p) := by
  unfold Chip.routeEvent
  simp only
  split
  · split
    · exact (Calm.sendMsix ..).trans (Calm.emit ..)
    · exact Calm.sendMsix ..
  · split
    · exact Calm.emit ..
    · exact Calm.refl c

theorem Loud.setReg (c : Chip) (p : Page) (off : Nat) (w : Word) (hp : pageValid p = true) (ho : off < 0x1000) (hq : quiet p off = false) :
    Loud c (c.setReg p off w) := by
  refine ⟨⟨_, c.cnt, c.outs, rfl⟩, fun q a hq' ha hh => ?_⟩
  by_cases e : q = p
  · subst e
    exact c.reg_setReg_off _ fun h => by rw [h, hq] at hh; exact Bool.noConfusion hh
  · exact c.reg_setReg_page _ hq' hp ha ho e

/-- Raising an event sets its bit of `EVT_RAW`; what else happens is calm. -/
theorem Chip.raise_calm (c : Chip) (p : Page) (b : Nat) :
    Calm (c.setReg p 0x018 (c.reg p 0x018 ||| BitVec.ofNat 32 (2 ^ b))) (c.raise p b) := by
  unfold Chip.raise
  simp only
  split
  · split
    · exact Calm.refl _
    · exact (Calm.sendMsix ..).trans (Calm.emit ..)
  · split
    · exact Calm.routeEvent ..
    · exact Calm.refl _

/-- Raising an event of a page of the map. -/
theorem Loud.raise (c : Chip) {p : Page} (b : Nat) (hp : pageValid p = true) : Loud c (c.raise p b) :=
  (Loud.setReg _ _ _ _ hp (by decide) (by simp [quiet])).trans (c.raise_calm p b).loud

/-- `EVT_RAW` after an event. -/
theorem Chip.raw_raise (c : Chip) {p : Page} (b : Nat) (hp : pageValid p = true) :
    (c.raise p b).reg p 0x018 = c.reg p 0x018 ||| BitVec.ofNat 32 (2 ^ b) := by
  rw [(c.raise_calm p b).regs p 0x018 hp (by decide) (by simp [still]), c.reg_setReg_same _ hp (by decide)]

/-- A register other than `EVT_RAW` after an event. -/
theorem Chip.reg_raise (c : Chip) {p q : Page} (b : Nat) {a : Nat} (hp : pageValid p = true) (hq : pageValid q = true) (ha : a < 0x1000)
    (h : quiet q a = true) : (c.raise p b).reg q a = c.reg q a := (Loud.raise c b hp).regs q a hq ha h

theorem Loud.perf (c : Chip) (ev n : Nat) : Loud c (c.perf ev n) := by
  have h := Calm.perfBump c ev n
  unfold Chip.perf
  split
  · rename_i d e; rw [e] at h; exact h.loud.trans (Loud.raise _ _ rfl)
  · rename_i d e; rw [e] at h; exact h.loud

/-- What such an operation leaves of a field. -/
theorem Loud.get {c d : Chip} (h : Loud c d) {p : Page} {f : Fld} (hp : pageValid p = true) (hf : f.fits = true) (hq : quiet p f.actOff = true) :
    d.get p f = c.get p f := by
  simp only [Fld.fits, Bool.and_eq_true, decide_eq_true_eq] at hf
  have : f.actOff < 0x1000 := by unfold Fld.actOff; split <;> omega
  simp only [Chip.get, h.regs p _ hp this hq]

/-! ## The passage of time -/

theorem Loud.perfSpan (c old : Chip) (i dt : Nat) : Loud c (c.perfSpan old i dt) := by
  have H : ∀ n : Nat, Loud c (if n = 0 then c else
      if decide (2 ^ 48 ≤ (c.cntAt (cntKey pPERF i)).toNat + n) then (c.perfAdd i n).raise pPERF E.PERF_OVERFLOW else c.perfAdd i n) := by
    intro n
    split
    · exact (Calm.refl c).loud
    · split
      · exact (Calm.perfAdd ..).loud.trans (Loud.raise _ _ rfl)
      · exact (Calm.perfAdd ..).loud
  exact H _

/-- The chip after time has passed: another cycle, other free values taken, beside what counting changes. -/
def Chip.later (c : Chip) (r : List (Nat × Word)) (n : List (Nat × W48)) (o : List Output) (t f : Nat) : Chip :=
  { c with regs := r, cnt := n, outs := o, cycles := t, free := f }

/-- The passage of time changes the clock, the free values taken, counters, outputs and the registers of events: nothing else. -/
theorem Chip.pass_later (c : Chip) (dt : Nat) : (∃ r n o f, c.pass dt = c.later r n o (c.cycles + dt) f) ∧
    ∀ q a, pageValid q = true → a < 0x1000 → quiet q a = true → (c.pass dt).reg q a = c.reg q a := by
  have hf : ∀ (l : List Nat) (d : Chip), Loud (c.elapse dt) d → Loud (c.elapse dt) (l.foldl (fun (c' : Chip) i => c'.perfSpan c i dt) d) := by
    intro l
    induction l with
    | nil => intro d h; exact h
    | cons i l ih => intro d h; exact ih _ (h.trans (Loud.perfSpan ..))
  have hp : ∃ d f, Loud (c.elapse dt) d ∧ (c.elapse dt).perfTime c dt = { d with free := f } := by
    unfold Chip.perfTime
    split
    · exact ⟨_, c.free, (Calm.refl _).loud, rfl⟩
    · exact ⟨_, _, hf _ _ ((Calm.refl _).loud), rfl⟩
  have hs : ∀ (d e : Chip) (t : Nat), Loud d (d.stallTime e t dt) := by
    intro d e t
    unfold Chip.stallTime
    split
    · exact (Calm.addCnt ..).loud
    · exact (Calm.refl _).loud
  obtain ⟨d, f, hd, he⟩ := hp
  have h2 : Loud ((c.elapse dt).perfTime c dt) (c.pass dt) := (hs _ c 0).trans (hs _ c 1)
  obtain ⟨⟨r, n, o, hr⟩, hq⟩ := hd
  obtain ⟨⟨r', n', o', hr'⟩, hq'⟩ := h2
  rw [he] at hr' hq'
  refine ⟨⟨r', n', o', f, ?_⟩, fun q a hv ha hh => ?_⟩
  · rw [hr', hr]; rfl
  · rw [hq' q a hv ha hh, ← reg_congr (c := c) (d := c.elapse dt) rfl q a, ← hq q a hv ha hh]
    exact reg_congr rfl q a

theorem Chip.reg_pass (c : Chip) (dt : Nat) {q : Page} {a : Nat} (hq : pageValid q = true) (ha : a < 0x1000) (h : quiet q a = true) :
    (c.pass dt).reg q a = c.reg q a := (c.pass_later dt).2 q a hq ha h

theorem Chip.get_pass (c : Chip) (dt : Nat) {p : Page} {f : Fld} (hp : pageValid p = true) (hf : f.fits = true) (hq : quiet p f.actOff = true) :
    (c.pass dt).get p f = c.get p f := by
  simp only [Fld.fits, Bool.and_eq_true, decide_eq_true_eq] at hf
  have : f.actOff < 0x1000 := by unfold Fld.actOff; split <;> omega
  simp only [Chip.get, c.reg_pass dt hp this hq]

theorem Chip.cycles_pass (c : Chip) (dt : Nat) : (c.pass dt).cycles = c.cycles + dt := by
  obtain ⟨⟨r, n, o, f, h⟩, -⟩ := c.pass_later dt; rw [h]; rfl

@[simp] theorem Chip.rstAt_pass (c : Chip) (dt : Nat) : (c.pass dt).rstAt = c.rstAt := by obtain ⟨⟨_, _, _, _, h⟩, -⟩ := c.pass_later dt; rw [h]; rfl
@[simp] theorem Chip.tblA_pass (c : Chip) (dt : Nat) : (c.pass dt).tblA = c.tblA := by obtain ⟨⟨_, _, _, _, h⟩, -⟩ := c.pass_later dt; rw [h]; rfl
@[simp] theorem Chip.tblS_pass (c : Chip) (dt : Nat) : (c.pass dt).tblS = c.tblS := by obtain ⟨⟨_, _, _, _, h⟩, -⟩ := c.pass_later dt; rw [h]; rfl
@[simp] theorem Chip.snap_pass (c : Chip) (dt : Nat) : (c.pass dt).snap = c.snap := by obtain ⟨⟨_, _, _, _, h⟩, -⟩ := c.pass_later dt; rw [h]; rfl
@[simp] theorem Chip.wbuf_pass (c : Chip) (dt : Nat) : (c.pass dt).wbuf = c.wbuf := by obtain ⟨⟨_, _, _, _, h⟩, -⟩ := c.pass_later dt; rw [h]; rfl
@[simp] theorem Chip.wins_pass (c : Chip) (dt : Nat) : (c.pass dt).wins = c.wins := by obtain ⟨⟨_, _, _, _, h⟩, -⟩ := c.pass_later dt; rw [h]; rfl
@[simp] theorem Chip.syncs_pass (c : Chip) (dt : Nat) : (c.pass dt).syncs = c.syncs := by obtain ⟨⟨_, _, _, _, h⟩, -⟩ := c.pass_later dt; rw [h]; rfl
@[simp] theorem Chip.snapAll_pass (c : Chip) (dt : Nat) : (c.pass dt).snapAll = c.snapAll := by obtain ⟨⟨_, _, _, _, h⟩, -⟩ := c.pass_later dt; rw [h]; rfl
@[simp] theorem Chip.commits_pass (c : Chip) (dt : Nat) : (c.pass dt).commits = c.commits := by obtain ⟨⟨_, _, _, _, h⟩, -⟩ := c.pass_later dt; rw [h]; rfl
@[simp] theorem Chip.group_pass (c : Chip) (dt : Nat) : (c.pass dt).group = c.group := by obtain ⟨⟨_, _, _, _, h⟩, -⟩ := c.pass_later dt; rw [h]; rfl
@[simp] theorem Chip.wseq_pass (c : Chip) (dt : Nat) : (c.pass dt).wseq = c.wseq := by obtain ⟨⟨_, _, _, _, h⟩, -⟩ := c.pass_later dt; rw [h]; rfl
@[simp] theorem Chip.failed_pass (c : Chip) (dt : Nat) : (c.pass dt).failed = c.failed := by obtain ⟨⟨_, _, _, _, h⟩, -⟩ := c.pass_later dt; rw [h]; rfl
@[simp] theorem Chip.undecided_pass (c : Chip) (dt : Nat) : (c.pass dt).undecided = c.undecided := by obtain ⟨⟨_, _, _, _, h⟩, -⟩ := c.pass_later dt; rw [h]; rfl
@[simp] theorem Chip.pel_pass (c : Chip) (dt : Nat) : (c.pass dt).pel = c.pel := by obtain ⟨⟨_, _, _, _, h⟩, -⟩ := c.pass_later dt; rw [h]; rfl
@[simp] theorem Chip.pelSeq_pass (c : Chip) (dt : Nat) : (c.pass dt).pelSeq = c.pelSeq := by obtain ⟨⟨_, _, _, _, h⟩, -⟩ := c.pass_later dt; rw [h]; rfl
@[simp] theorem Chip.capRing_pass (c : Chip) (dt : Nat) : (c.pass dt).capRing = c.capRing := by obtain ⟨⟨_, _, _, _, h⟩, -⟩ := c.pass_later dt; rw [h]; rfl
@[simp] theorem Chip.tBase_pass (c : Chip) (dt : Nat) : (c.pass dt).tBase = c.tBase := by obtain ⟨⟨_, _, _, _, h⟩, -⟩ := c.pass_later dt; rw [h]; rfl
@[simp] theorem Chip.tAnchor_pass (c : Chip) (dt : Nat) : (c.pass dt).tAnchor = c.tAnchor := by obtain ⟨⟨_, _, _, _, h⟩, -⟩ := c.pass_later dt; rw [h]; rfl
@[simp] theorem Chip.tStopped_pass (c : Chip) (dt : Nat) : (c.pass dt).tStopped = c.tStopped := by obtain ⟨⟨_, _, _, _, h⟩, -⟩ := c.pass_later dt; rw [h]; rfl
@[simp] theorem Chip.ports_pass (c : Chip) (dt : Nat) : (c.pass dt).ports = c.ports := by obtain ⟨⟨_, _, _, _, h⟩, -⟩ := c.pass_later dt; rw [h]; rfl
@[simp] theorem Chip.warm_pass (c : Chip) (dt : Nat) : (c.pass dt).warm = c.warm := by obtain ⟨⟨_, _, _, _, h⟩, -⟩ := c.pass_later dt; rw [h]; rfl
@[simp] theorem Chip.queues_pass (c : Chip) (dt : Nat) : (c.pass dt).queues = c.queues := by obtain ⟨⟨_, _, _, _, h⟩, -⟩ := c.pass_later dt; rw [h]; rfl
@[simp] theorem Chip.seqs_pass (c : Chip) (dt : Nat) : (c.pass dt).seqs = c.seqs := by obtain ⟨⟨_, _, _, _, h⟩, -⟩ := c.pass_later dt; rw [h]; rfl
@[simp] theorem Chip.tx_pass (c : Chip) (dt : Nat) : (c.pass dt).tx = c.tx := by obtain ⟨⟨_, _, _, _, h⟩, -⟩ := c.pass_later dt; rw [h]; rfl
@[simp] theorem Chip.preempted_pass (c : Chip) (dt : Nat) : (c.pass dt).preempted = c.preempted := by obtain ⟨⟨_, _, _, _, h⟩, -⟩ := c.pass_later dt; rw [h]; rfl
@[simp] theorem Chip.rx_pass (c : Chip) (dt : Nat) : (c.pass dt).rx = c.rx := by obtain ⟨⟨_, _, _, _, h⟩, -⟩ := c.pass_later dt; rw [h]; rfl
@[simp] theorem Chip.nextFid_pass (c : Chip) (dt : Nat) : (c.pass dt).nextFid = c.nextFid := by obtain ⟨⟨_, _, _, _, h⟩, -⟩ := c.pass_later dt; rw [h]; rfl
@[simp] theorem Chip.spillCredit_pass (c : Chip) (dt : Nat) : (c.pass dt).spillCredit = c.spillCredit := by obtain ⟨⟨_, _, _, _, h⟩, -⟩ := c.pass_later dt; rw [h]; rfl
@[simp] theorem Chip.spillAt_pass (c : Chip) (dt : Nat) : (c.pass dt).spillAt = c.spillAt := by obtain ⟨⟨_, _, _, _, h⟩, -⟩ := c.pass_later dt; rw [h]; rfl
@[simp] theorem Chip.bypass_pass (c : Chip) (dt : Nat) : (c.pass dt).bypass = c.bypass := by obtain ⟨⟨_, _, _, _, h⟩, -⟩ := c.pass_later dt; rw [h]; rfl
@[simp] theorem Chip.partials_pass (c : Chip) (dt : Nat) : (c.pass dt).partials = c.partials := by obtain ⟨⟨_, _, _, _, h⟩, -⟩ := c.pass_later dt; rw [h]; rfl
@[simp] theorem Chip.comps_pass (c : Chip) (dt : Nat) : (c.pass dt).comps = c.comps := by obtain ⟨⟨_, _, _, _, h⟩, -⟩ := c.pass_later dt; rw [h]; rfl
@[simp] theorem Chip.members_pass (c : Chip) (dt : Nat) : (c.pass dt).members = c.members := by obtain ⟨⟨_, _, _, _, h⟩, -⟩ := c.pass_later dt; rw [h]; rfl
@[simp] theorem Chip.holds_pass (c : Chip) (dt : Nat) : (c.pass dt).holds = c.holds := by obtain ⟨⟨_, _, _, _, h⟩, -⟩ := c.pass_later dt; rw [h]; rfl
@[simp] theorem Chip.ageAt_pass (c : Chip) (dt : Nat) : (c.pass dt).ageAt = c.ageAt := by obtain ⟨⟨_, _, _, _, h⟩, -⟩ := c.pass_later dt; rw [h]; rfl
@[simp] theorem Chip.flush_pass (c : Chip) (dt : Nat) : (c.pass dt).flush = c.flush := by obtain ⟨⟨_, _, _, _, h⟩, -⟩ := c.pass_later dt; rw [h]; rfl
@[simp] theorem Chip.spillTraining_pass (c : Chip) (dt : Nat) : (c.pass dt).spillTraining = c.spillTraining := by obtain ⟨⟨_, _, _, _, h⟩, -⟩ := c.pass_later dt; rw [h]; rfl
@[simp] theorem Chip.timeHfrc_pass (c : Chip) (dt : Nat) : (c.pass dt).timeHfrc = c.timeHfrc := by obtain ⟨⟨_, _, _, _, h⟩, -⟩ := c.pass_later dt; rw [h]; rfl
@[simp] theorem Chip.slewIndex_pass (c : Chip) (dt : Nat) : (c.pass dt).slewIndex = c.slewIndex := by obtain ⟨⟨_, _, _, _, h⟩, -⟩ := c.pass_later dt; rw [h]; rfl
@[simp] theorem Chip.corrAt_pass (c : Chip) (dt : Nat) : (c.pass dt).corrAt = c.corrAt := by obtain ⟨⟨_, _, _, _, h⟩, -⟩ := c.pass_later dt; rw [h]; rfl
@[simp] theorem Chip.holdoverAt_pass (c : Chip) (dt : Nat) : (c.pass dt).holdoverAt = c.holdoverAt := by obtain ⟨⟨_, _, _, _, h⟩, -⟩ := c.pass_later dt; rw [h]; rfl
@[simp] theorem Chip.holdoverLong_pass (c : Chip) (dt : Nat) : (c.pass dt).holdoverLong = c.holdoverLong := by obtain ⟨⟨_, _, _, _, h⟩, -⟩ := c.pass_later dt; rw [h]; rfl
@[simp] theorem Chip.ppsArm_pass (c : Chip) (dt : Nat) : (c.pass dt).ppsArm = c.ppsArm := by obtain ⟨⟨_, _, _, _, h⟩, -⟩ := c.pass_later dt; rw [h]; rfl
@[simp] theorem Chip.ppsOut_pass (c : Chip) (dt : Nat) : (c.pass dt).ppsOut = c.ppsOut := by obtain ⟨⟨_, _, _, _, h⟩, -⟩ := c.pass_later dt; rw [h]; rfl
@[simp] theorem Chip.ppsSecond_pass (c : Chip) (dt : Nat) : (c.pass dt).ppsSecond = c.ppsSecond := by obtain ⟨⟨_, _, _, _, h⟩, -⟩ := c.pass_later dt; rw [h]; rfl
@[simp] theorem Chip.headEpoch_pass (c : Chip) (dt : Nat) : (c.pass dt).headEpoch = c.headEpoch := by obtain ⟨⟨_, _, _, _, h⟩, -⟩ := c.pass_later dt; rw [h]; rfl
@[simp] theorem Chip.ptp_pass (c : Chip) (dt : Nat) : (c.pass dt).ptp = c.ptp := by obtain ⟨⟨_, _, _, _, h⟩, -⟩ := c.pass_later dt; rw [h]; rfl
@[simp] theorem Chip.lists_pass (c : Chip) (dt : Nat) : (c.pass dt).lists = c.lists := by obtain ⟨⟨_, _, _, _, h⟩, -⟩ := c.pass_later dt; rw [h]; rfl
@[simp] theorem Chip.storyHalted_pass (c : Chip) (dt : Nat) : (c.pass dt).storyHalted = c.storyHalted := by obtain ⟨⟨_, _, _, _, h⟩, -⟩ := c.pass_later dt; rw [h]; rfl
@[simp] theorem Chip.ones_pass (c : Chip) (dt : Nat) : (c.pass dt).ones = c.ones := by obtain ⟨⟨_, _, _, _, h⟩, -⟩ := c.pass_later dt; rw [h]; rfl
@[simp] theorem Chip.pinPulses_pass (c : Chip) (dt : Nat) : (c.pass dt).pinPulses = c.pinPulses := by obtain ⟨⟨_, _, _, _, h⟩, -⟩ := c.pass_later dt; rw [h]; rfl
@[simp] theorem Chip.pulses_pass (c : Chip) (dt : Nat) : (c.pass dt).pulses = c.pulses := by obtain ⟨⟨_, _, _, _, h⟩, -⟩ := c.pass_later dt; rw [h]; rfl
@[simp] theorem Chip.distIndex_pass (c : Chip) (dt : Nat) : (c.pass dt).distIndex = c.distIndex := by obtain ⟨⟨_, _, _, _, h⟩, -⟩ := c.pass_later dt; rw [h]; rfl
@[simp] theorem Chip.rels_pass (c : Chip) (dt : Nat) : (c.pass dt).rels = c.rels := by obtain ⟨⟨_, _, _, _, h⟩, -⟩ := c.pass_later dt; rw [h]; rfl
@[simp] theorem Chip.rlog_pass (c : Chip) (dt : Nat) : (c.pass dt).rlog = c.rlog := by obtain ⟨⟨_, _, _, _, h⟩, -⟩ := c.pass_later dt; rw [h]; rfl
@[simp] theorem Chip.rlogSeq_pass (c : Chip) (dt : Nat) : (c.pass dt).rlogSeq = c.rlogSeq := by obtain ⟨⟨_, _, _, _, h⟩, -⟩ := c.pass_later dt; rw [h]; rfl
@[simp] theorem Chip.ilog_pass (c : Chip) (dt : Nat) : (c.pass dt).ilog = c.ilog := by obtain ⟨⟨_, _, _, _, h⟩, -⟩ := c.pass_later dt; rw [h]; rfl
@[simp] theorem Chip.ilogSeq_pass (c : Chip) (dt : Nat) : (c.pass dt).ilogSeq = c.ilogSeq := by obtain ⟨⟨_, _, _, _, h⟩, -⟩ := c.pass_later dt; rw [h]; rfl
@[simp] theorem Chip.watches_pass (c : Chip) (dt : Nat) : (c.pass dt).watches = c.watches := by obtain ⟨⟨_, _, _, _, h⟩, -⟩ := c.pass_later dt; rw [h]; rfl
@[simp] theorem Chip.safeFrames_pass (c : Chip) (dt : Nat) : (c.pass dt).safeFrames = c.safeFrames := by obtain ⟨⟨_, _, _, _, h⟩, -⟩ := c.pass_later dt; rw [h]; rfl
@[simp] theorem Chip.policers_pass (c : Chip) (dt : Nat) : (c.pass dt).policers = c.policers := by obtain ⟨⟨_, _, _, _, h⟩, -⟩ := c.pass_later dt; rw [h]; rfl
@[simp] theorem Chip.sessions_pass (c : Chip) (dt : Nat) : (c.pass dt).sessions = c.sessions := by obtain ⟨⟨_, _, _, _, h⟩, -⟩ := c.pass_later dt; rw [h]; rfl
@[simp] theorem Chip.units_pass (c : Chip) (dt : Nat) : (c.pass dt).units = c.units := by obtain ⟨⟨_, _, _, _, h⟩, -⟩ := c.pass_later dt; rw [h]; rfl
@[simp] theorem Chip.claims_pass (c : Chip) (dt : Nat) : (c.pass dt).claims = c.claims := by obtain ⟨⟨_, _, _, _, h⟩, -⟩ := c.pass_later dt; rw [h]; rfl
@[simp] theorem Chip.unitCmd_pass (c : Chip) (dt : Nat) : (c.pass dt).unitCmd = c.unitCmd := by obtain ⟨⟨_, _, _, _, h⟩, -⟩ := c.pass_later dt; rw [h]; rfl
@[simp] theorem Chip.pns_pass (c : Chip) (dt : Nat) : (c.pass dt).pns = c.pns := by obtain ⟨⟨_, _, _, _, h⟩, -⟩ := c.pass_later dt; rw [h]; rfl
@[simp] theorem Chip.saKeys_pass (c : Chip) (dt : Nat) : (c.pass dt).saKeys = c.saKeys := by obtain ⟨⟨_, _, _, _, h⟩, -⟩ := c.pass_later dt; rw [h]; rfl
@[simp] theorem Chip.keyInstall_pass (c : Chip) (dt : Nat) : (c.pass dt).keyInstall = c.keyInstall := by obtain ⟨⟨_, _, _, _, h⟩, -⟩ := c.pass_later dt; rw [h]; rfl
@[simp] theorem Chip.root_pass (c : Chip) (dt : Nat) : (c.pass dt).root = c.root := by obtain ⟨⟨_, _, _, _, h⟩, -⟩ := c.pass_later dt; rw [h]; rfl
@[simp] theorem Chip.slots_pass (c : Chip) (dt : Nat) : (c.pass dt).slots = c.slots := by obtain ⟨⟨_, _, _, _, h⟩, -⟩ := c.pass_later dt; rw [h]; rfl
@[simp] theorem Chip.succ_pass (c : Chip) (dt : Nat) : (c.pass dt).succ = c.succ := by obtain ⟨⟨_, _, _, _, h⟩, -⟩ := c.pass_later dt; rw [h]; rfl
@[simp] theorem Chip.prisilOps_pass (c : Chip) (dt : Nat) : (c.pass dt).prisilOps = c.prisilOps := by obtain ⟨⟨_, _, _, _, h⟩, -⟩ := c.pass_later dt; rw [h]; rfl
@[simp] theorem Chip.shareFaults_pass (c : Chip) (dt : Nat) : (c.pass dt).shareFaults = c.shareFaults := by obtain ⟨⟨_, _, _, _, h⟩, -⟩ := c.pass_later dt; rw [h]; rfl
@[simp] theorem Chip.inq_pass (c : Chip) (dt : Nat) : (c.pass dt).inq = c.inq := by obtain ⟨⟨_, _, _, _, h⟩, -⟩ := c.pass_later dt; rw [h]; rfl
@[simp] theorem Chip.cans_pass (c : Chip) (dt : Nat) : (c.pass dt).cans = c.cans := by obtain ⟨⟨_, _, _, _, h⟩, -⟩ := c.pass_later dt; rw [h]; rfl
@[simp] theorem Chip.lins_pass (c : Chip) (dt : Nat) : (c.pass dt).lins = c.lins := by obtain ⟨⟨_, _, _, _, h⟩, -⟩ := c.pass_later dt; rw [h]; rfl
@[simp] theorem Chip.uarts_pass (c : Chip) (dt : Nat) : (c.pass dt).uarts = c.uarts := by obtain ⟨⟨_, _, _, _, h⟩, -⟩ := c.pass_later dt; rw [h]; rfl
@[simp] theorem Chip.acfs_pass (c : Chip) (dt : Nat) : (c.pass dt).acfs = c.acfs := by obtain ⟨⟨_, _, _, _, h⟩, -⟩ := c.pass_later dt; rw [h]; rfl
@[simp] theorem Chip.asms_pass (c : Chip) (dt : Nat) : (c.pass dt).asms = c.asms := by obtain ⟨⟨_, _, _, _, h⟩, -⟩ := c.pass_later dt; rw [h]; rfl
@[simp] theorem Chip.sigs_pass (c : Chip) (dt : Nat) : (c.pass dt).sigs = c.sigs := by obtain ⟨⟨_, _, _, _, h⟩, -⟩ := c.pass_later dt; rw [h]; rfl
@[simp] theorem Chip.nius_pass (c : Chip) (dt : Nat) : (c.pass dt).nius = c.nius := by obtain ⟨⟨_, _, _, _, h⟩, -⟩ := c.pass_later dt; rw [h]; rfl
@[simp] theorem Chip.tenons_pass (c : Chip) (dt : Nat) : (c.pass dt).tenons = c.tenons := by obtain ⟨⟨_, _, _, _, h⟩, -⟩ := c.pass_later dt; rw [h]; rfl
@[simp] theorem Chip.tWait_pass (c : Chip) (dt : Nat) : (c.pass dt).tWait = c.tWait := by obtain ⟨⟨_, _, _, _, h⟩, -⟩ := c.pass_later dt; rw [h]; rfl
@[simp] theorem Chip.remotes_pass (c : Chip) (dt : Nat) : (c.pass dt).remotes = c.remotes := by obtain ⟨⟨_, _, _, _, h⟩, -⟩ := c.pass_later dt; rw [h]; rfl
@[simp] theorem Chip.ehruzConflict_pass (c : Chip) (dt : Nat) : (c.pass dt).ehruzConflict = c.ehruzConflict := by obtain ⟨⟨_, _, _, _, h⟩, -⟩ := c.pass_later dt; rw [h]; rfl
@[simp] theorem Chip.rings_pass (c : Chip) (dt : Nat) : (c.pass dt).rings = c.rings := by obtain ⟨⟨_, _, _, _, h⟩, -⟩ := c.pass_later dt; rw [h]; rfl
@[simp] theorem Chip.rxDma_pass (c : Chip) (dt : Nat) : (c.pass dt).rxDma = c.rxDma := by obtain ⟨⟨_, _, _, _, h⟩, -⟩ := c.pass_later dt; rw [h]; rfl
@[simp] theorem Chip.rxHeld_pass (c : Chip) (dt : Nat) : (c.pass dt).rxHeld = c.rxHeld := by obtain ⟨⟨_, _, _, _, h⟩, -⟩ := c.pass_later dt; rw [h]; rfl
@[simp] theorem Chip.readRing_pass (c : Chip) (dt : Nat) : (c.pass dt).readRing = c.readRing := by obtain ⟨⟨_, _, _, _, h⟩, -⟩ := c.pass_later dt; rw [h]; rfl
@[simp] theorem Chip.writeRing_pass (c : Chip) (dt : Nat) : (c.pass dt).writeRing = c.writeRing := by obtain ⟨⟨_, _, _, _, h⟩, -⟩ := c.pass_later dt; rw [h]; rfl
@[simp] theorem Chip.readPre_pass (c : Chip) (dt : Nat) : (c.pass dt).readPre = c.readPre := by obtain ⟨⟨_, _, _, _, h⟩, -⟩ := c.pass_later dt; rw [h]; rfl
@[simp] theorem Chip.writePre_pass (c : Chip) (dt : Nat) : (c.pass dt).writePre = c.writePre := by obtain ⟨⟨_, _, _, _, h⟩, -⟩ := c.pass_later dt; rw [h]; rfl
@[simp] theorem Chip.tlb_pass (c : Chip) (dt : Nat) : (c.pass dt).tlb = c.tlb := by obtain ⟨⟨_, _, _, _, h⟩, -⟩ := c.pass_later dt; rw [h]; rfl
@[simp] theorem Chip.flts_pass (c : Chip) (dt : Nat) : (c.pass dt).flts = c.flts := by obtain ⟨⟨_, _, _, _, h⟩, -⟩ := c.pass_later dt; rw [h]; rfl
@[simp] theorem Chip.fltSeq_pass (c : Chip) (dt : Nat) : (c.pass dt).fltSeq = c.fltSeq := by obtain ⟨⟨_, _, _, _, h⟩, -⟩ := c.pass_later dt; rw [h]; rfl
@[simp] theorem Chip.invs_pass (c : Chip) (dt : Nat) : (c.pass dt).invs = c.invs := by obtain ⟨⟨_, _, _, _, h⟩, -⟩ := c.pass_later dt; rw [h]; rfl
@[simp] theorem Chip.fences_pass (c : Chip) (dt : Nat) : (c.pass dt).fences = c.fences := by obtain ⟨⟨_, _, _, _, h⟩, -⟩ := c.pass_later dt; rw [h]; rfl
@[simp] theorem Chip.qsRead_pass (c : Chip) (dt : Nat) : (c.pass dt).qsRead = c.qsRead := by obtain ⟨⟨_, _, _, _, h⟩, -⟩ := c.pass_later dt; rw [h]; rfl
@[simp] theorem Chip.clk_pass (c : Chip) (dt : Nat) : (c.pass dt).clk = c.clk := by obtain ⟨⟨_, _, _, _, h⟩, -⟩ := c.pass_later dt; rw [h]; rfl
@[simp] theorem Chip.pwr_pass (c : Chip) (dt : Nat) : (c.pass dt).pwr = c.pwr := by obtain ⟨⟨_, _, _, _, h⟩, -⟩ := c.pass_later dt; rw [h]; rfl
@[simp] theorem Chip.aon_pass (c : Chip) (dt : Nat) : (c.pass dt).aon = c.aon := by obtain ⟨⟨_, _, _, _, h⟩, -⟩ := c.pass_later dt; rw [h]; rfl
@[simp] theorem Chip.wdt_pass (c : Chip) (dt : Nat) : (c.pass dt).wdt = c.wdt := by obtain ⟨⟨_, _, _, _, h⟩, -⟩ := c.pass_later dt; rw [h]; rfl
@[simp] theorem Chip.tr_pass (c : Chip) (dt : Nat) : (c.pass dt).tr = c.tr := by obtain ⟨⟨_, _, _, _, h⟩, -⟩ := c.pass_later dt; rw [h]; rfl
@[simp] theorem Chip.flOps_pass (c : Chip) (dt : Nat) : (c.pass dt).flOps = c.flOps := by obtain ⟨⟨_, _, _, _, h⟩, -⟩ := c.pass_later dt; rw [h]; rfl
@[simp] theorem Chip.otpOp_pass (c : Chip) (dt : Nat) : (c.pass dt).otpOp = c.otpOp := by obtain ⟨⟨_, _, _, _, h⟩, -⟩ := c.pass_later dt; rw [h]; rfl
@[simp] theorem Chip.boot_pass (c : Chip) (dt : Nat) : (c.pass dt).boot = c.boot := by obtain ⟨⟨_, _, _, _, h⟩, -⟩ := c.pass_later dt; rw [h]; rfl
@[simp] theorem Chip.upd_pass (c : Chip) (dt : Nat) : (c.pass dt).upd = c.upd := by obtain ⟨⟨_, _, _, _, h⟩, -⟩ := c.pass_later dt; rw [h]; rfl
@[simp] theorem Chip.wear_pass (c : Chip) (dt : Nat) : (c.pass dt).wear = c.wear := by obtain ⟨⟨_, _, _, _, h⟩, -⟩ := c.pass_later dt; rw [h]; rfl
@[simp] theorem Chip.dormant_pass (c : Chip) (dt : Nat) : (c.pass dt).dormant = c.dormant := by obtain ⟨⟨_, _, _, _, h⟩, -⟩ := c.pass_later dt; rw [h]; rfl
@[simp] theorem Chip.ppsOld_pass (c : Chip) (dt : Nat) : (c.pass dt).ppsOld = c.ppsOld := by obtain ⟨⟨_, _, _, _, h⟩, -⟩ := c.pass_later dt; rw [h]; rfl
@[simp] theorem Chip.stepAt_pass (c : Chip) (dt : Nat) : (c.pass dt).stepAt = c.stepAt := by obtain ⟨⟨_, _, _, _, h⟩, -⟩ := c.pass_later dt; rw [h]; rfl
@[simp] theorem Chip.lossAt_pass (c : Chip) (dt : Nat) : (c.pass dt).lossAt = c.lossAt := by obtain ⟨⟨_, _, _, _, h⟩, -⟩ := c.pass_later dt; rw [h]; rfl
@[simp] theorem Chip.pinShot_pass (c : Chip) (dt : Nat) : (c.pass dt).pinShot = c.pinShot := by obtain ⟨⟨_, _, _, _, h⟩, -⟩ := c.pass_later dt; rw [h]; rfl
@[simp] theorem Chip.xings_pass (c : Chip) (dt : Nat) : (c.pass dt).xings = c.xings := by obtain ⟨⟨_, _, _, _, h⟩, -⟩ := c.pass_later dt; rw [h]; rfl
@[simp] theorem Chip.testHold_pass (c : Chip) (dt : Nat) : (c.pass dt).testHold = c.testHold := by obtain ⟨⟨_, _, _, _, h⟩, -⟩ := c.pass_later dt; rw [h]; rfl
@[simp] theorem Chip.aer_pass (c : Chip) (dt : Nat) : (c.pass dt).aer = c.aer := by obtain ⟨⟨_, _, _, _, h⟩, -⟩ := c.pass_later dt; rw [h]; rfl
@[simp] theorem Chip.bootFail_pass (c : Chip) (dt : Nat) : (c.pass dt).bootFail = c.bootFail := by obtain ⟨⟨_, _, _, _, h⟩, -⟩ := c.pass_later dt; rw [h]; rfl

/-! ## Registers through the small operations -/

@[simp] theorem Chip.reg_mk (x1 x2 x3 x4 x5 x6 x7 x8 x9 x10 x11 x12 x13 x14 x15 x16 x17 x18 x19 x20 x21 x22 x23 x24 x25 x26 x27 x28 x29 x30 x31 x32 x33 x34 x35 x36 x37 x38 x39 x40 x41 x42 x43 x44 x45 x46 x47 x48 x49 x50 x51 x52 x53 x54 x55 x56 x57 x58 x59 x60 x61 x62 x63 x64 x65 x66 x67 x68 x69 x70 x71 x72 x73 x74 x75 x76 x77 x78 x79 x80 x81 x82 x83 x84 x85 x86 x87 x88 x89 x90 x91 x92 x93 x94 x95 x96 x97 x98 x99 x100 x101 x102 x103 x104 x105 x106 x107 x108 x109 x110 x111 x112 x113 x114 x115 x116 x117 x118 x119 x120 x121 x122 x123 x124) (p : Page) (o : Nat) :
    (Chip.mk x1 x2 x3 x4 x5 x6 x7 x8 x9 x10 x11 x12 x13 x14 x15 x16 x17 x18 x19 x20 x21 x22 x23 x24 x25 x26 x27 x28 x29 x30 x31 x32 x33 x34 x35 x36 x37 x38 x39 x40 x41 x42 x43 x44 x45 x46 x47 x48 x49 x50 x51 x52 x53 x54 x55 x56 x57 x58 x59 x60 x61 x62 x63 x64 x65 x66 x67 x68 x69 x70 x71 x72 x73 x74 x75 x76 x77 x78 x79 x80 x81 x82 x83 x84 x85 x86 x87 x88 x89 x90 x91 x92 x93 x94 x95 x96 x97 x98 x99 x100 x101 x102 x103 x104 x105 x106 x107 x108 x109 x110 x111 x112 x113 x114 x115 x116 x117 x118 x119 x120 x121 x122 x123 x124).reg p o = lookupD (regReset p o) x5 (regKey p o) := rfl

@[simp] theorem Chip.lookup_reg (c : Chip) (p : Page) (o : Nat) : lookupD (regReset p o) c.regs (regKey p o) = c.reg p o := rfl

/-- A register after a write to any register. -/
theorem Chip.reg_setReg (c : Chip) {p q : Page} {a b : Nat} (w : Word) (hp : pageValid p = true) (ha : a < 0x1000) :
    (c.setReg q b w).reg p a = if regKey p a = regKey q b then w else c.reg p a := by
  split
  · rename_i h
    simp only [Chip.reg, Chip.setReg, Chip.setRegAt]
    rw [← h, ← regDefault_regKey hp ha, lookupD_store_same]
  · rename_i h; exact c.reg_setRegAt_ne w h

@[simp] theorem regKey_off_inj (p : Page) (a b : Nat) : regKey p a = regKey p b ↔ a = b := by unfold regKey; omega

@[simp] theorem Chip.reg_setCntAt (c : Chip) (k : Nat) (v : W48) (p : Page) (a : Nat) : (c.setCntAt k v).reg p a = c.reg p a := rfl
@[simp] theorem Chip.reg_emit (c : Chip) (o : Output) (p : Page) (a : Nat) : (c.emit o).reg p a = c.reg p a := rfl
@[simp] theorem Chip.reg_addCnt (c : Chip) (q : Page) (i n : Nat) (p : Page) (a : Nat) : (c.addCnt q i n).reg p a = c.reg p a := rfl
@[simp] theorem Chip.reg_count (c : Chip) (q : Page) (i : Nat) (p : Page) (a : Nat) : (c.count q i).reg p a = c.reg p a := rfl
@[simp] theorem Chip.reg_tcount (c : Chip) (q : Page) (t i k : Nat) (p : Page) (a : Nat) : (c.tcount q t i k).reg p a = c.reg p a := rfl
@[simp] theorem Chip.reg_setTword (c : Chip) (q : Page) (t i k : Nat) (w : Word) (p : Page) (a : Nat) :
    (c.setTword q t i k w).reg p a = c.reg p a := reg_congr (Chip.regs_setTword ..) p a

/-- The event that has just been raised is latched. -/
theorem Chip.latched_raise (c : Chip) {p : Page} {b : Nat} (hp : pageValid p = true) (hb : b < 32) : (c.raise p b).latched p b = true := by
  unfold Chip.latched
  rw [c.raw_raise b hp]
  rw [BitVec.getLsbD_or, BitVec.getLsbD_ofNat, Nat.testBit_two_pow_self, decide_eq_true hb]
  exact Bool.or_true _

@[simp] theorem Chip.cycles_raise (c : Chip) (p : Page) (b : Nat) : (c.raise p b).cycles = c.cycles := by obtain ⟨⟨_, _, _, h⟩, -⟩ := c.raise_calm p b; rw [h]; exact (Chip.cycles_noise ..).trans (Chip.cycles_setRegAt ..)
@[simp] theorem Chip.rstAt_raise (c : Chip) (p : Page) (b : Nat) : (c.raise p b).rstAt = c.rstAt := by obtain ⟨⟨_, _, _, h⟩, -⟩ := c.raise_calm p b; rw [h]; exact (Chip.rstAt_noise ..).trans (Chip.rstAt_setRegAt ..)
@[simp] theorem Chip.free_raise (c : Chip) (p : Page) (b : Nat) : (c.raise p b).free = c.free := by obtain ⟨⟨_, _, _, h⟩, -⟩ := c.raise_calm p b; rw [h]; exact (Chip.free_noise ..).trans (Chip.free_setRegAt ..)
@[simp] theorem Chip.tblA_raise (c : Chip) (p : Page) (b : Nat) : (c.raise p b).tblA = c.tblA := by obtain ⟨⟨_, _, _, h⟩, -⟩ := c.raise_calm p b; rw [h]; exact (Chip.tblA_noise ..).trans (Chip.tblA_setRegAt ..)
@[simp] theorem Chip.tblS_raise (c : Chip) (p : Page) (b : Nat) : (c.raise p b).tblS = c.tblS := by obtain ⟨⟨_, _, _, h⟩, -⟩ := c.raise_calm p b; rw [h]; exact (Chip.tblS_noise ..).trans (Chip.tblS_setRegAt ..)
@[simp] theorem Chip.snap_raise (c : Chip) (p : Page) (b : Nat) : (c.raise p b).snap = c.snap := by obtain ⟨⟨_, _, _, h⟩, -⟩ := c.raise_calm p b; rw [h]; exact (Chip.snap_noise ..).trans (Chip.snap_setRegAt ..)
@[simp] theorem Chip.wbuf_raise (c : Chip) (p : Page) (b : Nat) : (c.raise p b).wbuf = c.wbuf := by obtain ⟨⟨_, _, _, h⟩, -⟩ := c.raise_calm p b; rw [h]; exact (Chip.wbuf_noise ..).trans (Chip.wbuf_setRegAt ..)
@[simp] theorem Chip.wins_raise (c : Chip) (p : Page) (b : Nat) : (c.raise p b).wins = c.wins := by obtain ⟨⟨_, _, _, h⟩, -⟩ := c.raise_calm p b; rw [h]; exact (Chip.wins_noise ..).trans (Chip.wins_setRegAt ..)
@[simp] theorem Chip.syncs_raise (c : Chip) (p : Page) (b : Nat) : (c.raise p b).syncs = c.syncs := by obtain ⟨⟨_, _, _, h⟩, -⟩ := c.raise_calm p b; rw [h]; exact (Chip.syncs_noise ..).trans (Chip.syncs_setRegAt ..)
@[simp] theorem Chip.snapAll_raise (c : Chip) (p : Page) (b : Nat) : (c.raise p b).snapAll = c.snapAll := by obtain ⟨⟨_, _, _, h⟩, -⟩ := c.raise_calm p b; rw [h]; exact (Chip.snapAll_noise ..).trans (Chip.snapAll_setRegAt ..)
@[simp] theorem Chip.commits_raise (c : Chip) (p : Page) (b : Nat) : (c.raise p b).commits = c.commits := by obtain ⟨⟨_, _, _, h⟩, -⟩ := c.raise_calm p b; rw [h]; exact (Chip.commits_noise ..).trans (Chip.commits_setRegAt ..)
@[simp] theorem Chip.group_raise (c : Chip) (p : Page) (b : Nat) : (c.raise p b).group = c.group := by obtain ⟨⟨_, _, _, h⟩, -⟩ := c.raise_calm p b; rw [h]; exact (Chip.group_noise ..).trans (Chip.group_setRegAt ..)
@[simp] theorem Chip.wseq_raise (c : Chip) (p : Page) (b : Nat) : (c.raise p b).wseq = c.wseq := by obtain ⟨⟨_, _, _, h⟩, -⟩ := c.raise_calm p b; rw [h]; exact (Chip.wseq_noise ..).trans (Chip.wseq_setRegAt ..)
@[simp] theorem Chip.failed_raise (c : Chip) (p : Page) (b : Nat) : (c.raise p b).failed = c.failed := by obtain ⟨⟨_, _, _, h⟩, -⟩ := c.raise_calm p b; rw [h]; exact (Chip.failed_noise ..).trans (Chip.failed_setRegAt ..)
@[simp] theorem Chip.undecided_raise (c : Chip) (p : Page) (b : Nat) : (c.raise p b).undecided = c.undecided := by obtain ⟨⟨_, _, _, h⟩, -⟩ := c.raise_calm p b; rw [h]; exact (Chip.undecided_noise ..).trans (Chip.undecided_setRegAt ..)
@[simp] theorem Chip.pel_raise (c : Chip) (p : Page) (b : Nat) : (c.raise p b).pel = c.pel := by obtain ⟨⟨_, _, _, h⟩, -⟩ := c.raise_calm p b; rw [h]; exact (Chip.pel_noise ..).trans (Chip.pel_setRegAt ..)
@[simp] theorem Chip.pelSeq_raise (c : Chip) (p : Page) (b : Nat) : (c.raise p b).pelSeq = c.pelSeq := by obtain ⟨⟨_, _, _, h⟩, -⟩ := c.raise_calm p b; rw [h]; exact (Chip.pelSeq_noise ..).trans (Chip.pelSeq_setRegAt ..)
@[simp] theorem Chip.capRing_raise (c : Chip) (p : Page) (b : Nat) : (c.raise p b).capRing = c.capRing := by obtain ⟨⟨_, _, _, h⟩, -⟩ := c.raise_calm p b; rw [h]; exact (Chip.capRing_noise ..).trans (Chip.capRing_setRegAt ..)
@[simp] theorem Chip.tBase_raise (c : Chip) (p : Page) (b : Nat) : (c.raise p b).tBase = c.tBase := by obtain ⟨⟨_, _, _, h⟩, -⟩ := c.raise_calm p b; rw [h]; exact (Chip.tBase_noise ..).trans (Chip.tBase_setRegAt ..)
@[simp] theorem Chip.tAnchor_raise (c : Chip) (p : Page) (b : Nat) : (c.raise p b).tAnchor = c.tAnchor := by obtain ⟨⟨_, _, _, h⟩, -⟩ := c.raise_calm p b; rw [h]; exact (Chip.tAnchor_noise ..).trans (Chip.tAnchor_setRegAt ..)
@[simp] theorem Chip.tStopped_raise (c : Chip) (p : Page) (b : Nat) : (c.raise p b).tStopped = c.tStopped := by obtain ⟨⟨_, _, _, h⟩, -⟩ := c.raise_calm p b; rw [h]; exact (Chip.tStopped_noise ..).trans (Chip.tStopped_setRegAt ..)
@[simp] theorem Chip.ports_raise (c : Chip) (p : Page) (b : Nat) : (c.raise p b).ports = c.ports := by obtain ⟨⟨_, _, _, h⟩, -⟩ := c.raise_calm p b; rw [h]; exact (Chip.ports_noise ..).trans (Chip.ports_setRegAt ..)
@[simp] theorem Chip.warm_raise (c : Chip) (p : Page) (b : Nat) : (c.raise p b).warm = c.warm := by obtain ⟨⟨_, _, _, h⟩, -⟩ := c.raise_calm p b; rw [h]; exact (Chip.warm_noise ..).trans (Chip.warm_setRegAt ..)
@[simp] theorem Chip.queues_raise (c : Chip) (p : Page) (b : Nat) : (c.raise p b).queues = c.queues := by obtain ⟨⟨_, _, _, h⟩, -⟩ := c.raise_calm p b; rw [h]; exact (Chip.queues_noise ..).trans (Chip.queues_setRegAt ..)
@[simp] theorem Chip.seqs_raise (c : Chip) (p : Page) (b : Nat) : (c.raise p b).seqs = c.seqs := by obtain ⟨⟨_, _, _, h⟩, -⟩ := c.raise_calm p b; rw [h]; exact (Chip.seqs_noise ..).trans (Chip.seqs_setRegAt ..)
@[simp] theorem Chip.tx_raise (c : Chip) (p : Page) (b : Nat) : (c.raise p b).tx = c.tx := by obtain ⟨⟨_, _, _, h⟩, -⟩ := c.raise_calm p b; rw [h]; exact (Chip.tx_noise ..).trans (Chip.tx_setRegAt ..)
@[simp] theorem Chip.preempted_raise (c : Chip) (p : Page) (b : Nat) : (c.raise p b).preempted = c.preempted := by obtain ⟨⟨_, _, _, h⟩, -⟩ := c.raise_calm p b; rw [h]; exact (Chip.preempted_noise ..).trans (Chip.preempted_setRegAt ..)
@[simp] theorem Chip.rx_raise (c : Chip) (p : Page) (b : Nat) : (c.raise p b).rx = c.rx := by obtain ⟨⟨_, _, _, h⟩, -⟩ := c.raise_calm p b; rw [h]; exact (Chip.rx_noise ..).trans (Chip.rx_setRegAt ..)
@[simp] theorem Chip.nextFid_raise (c : Chip) (p : Page) (b : Nat) : (c.raise p b).nextFid = c.nextFid := by obtain ⟨⟨_, _, _, h⟩, -⟩ := c.raise_calm p b; rw [h]; exact (Chip.nextFid_noise ..).trans (Chip.nextFid_setRegAt ..)
@[simp] theorem Chip.spillCredit_raise (c : Chip) (p : Page) (b : Nat) : (c.raise p b).spillCredit = c.spillCredit := by obtain ⟨⟨_, _, _, h⟩, -⟩ := c.raise_calm p b; rw [h]; exact (Chip.spillCredit_noise ..).trans (Chip.spillCredit_setRegAt ..)
@[simp] theorem Chip.spillAt_raise (c : Chip) (p : Page) (b : Nat) : (c.raise p b).spillAt = c.spillAt := by obtain ⟨⟨_, _, _, h⟩, -⟩ := c.raise_calm p b; rw [h]; exact (Chip.spillAt_noise ..).trans (Chip.spillAt_setRegAt ..)
@[simp] theorem Chip.bypass_raise (c : Chip) (p : Page) (b : Nat) : (c.raise p b).bypass = c.bypass := by obtain ⟨⟨_, _, _, h⟩, -⟩ := c.raise_calm p b; rw [h]; exact (Chip.bypass_noise ..).trans (Chip.bypass_setRegAt ..)
@[simp] theorem Chip.partials_raise (c : Chip) (p : Page) (b : Nat) : (c.raise p b).partials = c.partials := by obtain ⟨⟨_, _, _, h⟩, -⟩ := c.raise_calm p b; rw [h]; exact (Chip.partials_noise ..).trans (Chip.partials_setRegAt ..)
@[simp] theorem Chip.comps_raise (c : Chip) (p : Page) (b : Nat) : (c.raise p b).comps = c.comps := by obtain ⟨⟨_, _, _, h⟩, -⟩ := c.raise_calm p b; rw [h]; exact (Chip.comps_noise ..).trans (Chip.comps_setRegAt ..)
@[simp] theorem Chip.members_raise (c : Chip) (p : Page) (b : Nat) : (c.raise p b).members = c.members := by obtain ⟨⟨_, _, _, h⟩, -⟩ := c.raise_calm p b; rw [h]; exact (Chip.members_noise ..).trans (Chip.members_setRegAt ..)
@[simp] theorem Chip.holds_raise (c : Chip) (p : Page) (b : Nat) : (c.raise p b).holds = c.holds := by obtain ⟨⟨_, _, _, h⟩, -⟩ := c.raise_calm p b; rw [h]; exact (Chip.holds_noise ..).trans (Chip.holds_setRegAt ..)
@[simp] theorem Chip.ageAt_raise (c : Chip) (p : Page) (b : Nat) : (c.raise p b).ageAt = c.ageAt := by obtain ⟨⟨_, _, _, h⟩, -⟩ := c.raise_calm p b; rw [h]; exact (Chip.ageAt_noise ..).trans (Chip.ageAt_setRegAt ..)
@[simp] theorem Chip.flush_raise (c : Chip) (p : Page) (b : Nat) : (c.raise p b).flush = c.flush := by obtain ⟨⟨_, _, _, h⟩, -⟩ := c.raise_calm p b; rw [h]; exact (Chip.flush_noise ..).trans (Chip.flush_setRegAt ..)
@[simp] theorem Chip.spillTraining_raise (c : Chip) (p : Page) (b : Nat) : (c.raise p b).spillTraining = c.spillTraining := by obtain ⟨⟨_, _, _, h⟩, -⟩ := c.raise_calm p b; rw [h]; exact (Chip.spillTraining_noise ..).trans (Chip.spillTraining_setRegAt ..)
@[simp] theorem Chip.timeHfrc_raise (c : Chip) (p : Page) (b : Nat) : (c.raise p b).timeHfrc = c.timeHfrc := by obtain ⟨⟨_, _, _, h⟩, -⟩ := c.raise_calm p b; rw [h]; exact (Chip.timeHfrc_noise ..).trans (Chip.timeHfrc_setRegAt ..)
@[simp] theorem Chip.slewIndex_raise (c : Chip) (p : Page) (b : Nat) : (c.raise p b).slewIndex = c.slewIndex := by obtain ⟨⟨_, _, _, h⟩, -⟩ := c.raise_calm p b; rw [h]; exact (Chip.slewIndex_noise ..).trans (Chip.slewIndex_setRegAt ..)
@[simp] theorem Chip.corrAt_raise (c : Chip) (p : Page) (b : Nat) : (c.raise p b).corrAt = c.corrAt := by obtain ⟨⟨_, _, _, h⟩, -⟩ := c.raise_calm p b; rw [h]; exact (Chip.corrAt_noise ..).trans (Chip.corrAt_setRegAt ..)
@[simp] theorem Chip.holdoverAt_raise (c : Chip) (p : Page) (b : Nat) : (c.raise p b).holdoverAt = c.holdoverAt := by obtain ⟨⟨_, _, _, h⟩, -⟩ := c.raise_calm p b; rw [h]; exact (Chip.holdoverAt_noise ..).trans (Chip.holdoverAt_setRegAt ..)
@[simp] theorem Chip.holdoverLong_raise (c : Chip) (p : Page) (b : Nat) : (c.raise p b).holdoverLong = c.holdoverLong := by obtain ⟨⟨_, _, _, h⟩, -⟩ := c.raise_calm p b; rw [h]; exact (Chip.holdoverLong_noise ..).trans (Chip.holdoverLong_setRegAt ..)
@[simp] theorem Chip.ppsArm_raise (c : Chip) (p : Page) (b : Nat) : (c.raise p b).ppsArm = c.ppsArm := by obtain ⟨⟨_, _, _, h⟩, -⟩ := c.raise_calm p b; rw [h]; exact (Chip.ppsArm_noise ..).trans (Chip.ppsArm_setRegAt ..)
@[simp] theorem Chip.ppsOut_raise (c : Chip) (p : Page) (b : Nat) : (c.raise p b).ppsOut = c.ppsOut := by obtain ⟨⟨_, _, _, h⟩, -⟩ := c.raise_calm p b; rw [h]; exact (Chip.ppsOut_noise ..).trans (Chip.ppsOut_setRegAt ..)
@[simp] theorem Chip.ppsSecond_raise (c : Chip) (p : Page) (b : Nat) : (c.raise p b).ppsSecond = c.ppsSecond := by obtain ⟨⟨_, _, _, h⟩, -⟩ := c.raise_calm p b; rw [h]; exact (Chip.ppsSecond_noise ..).trans (Chip.ppsSecond_setRegAt ..)
@[simp] theorem Chip.headEpoch_raise (c : Chip) (p : Page) (b : Nat) : (c.raise p b).headEpoch = c.headEpoch := by obtain ⟨⟨_, _, _, h⟩, -⟩ := c.raise_calm p b; rw [h]; exact (Chip.headEpoch_noise ..).trans (Chip.headEpoch_setRegAt ..)
@[simp] theorem Chip.ptp_raise (c : Chip) (p : Page) (b : Nat) : (c.raise p b).ptp = c.ptp := by obtain ⟨⟨_, _, _, h⟩, -⟩ := c.raise_calm p b; rw [h]; exact (Chip.ptp_noise ..).trans (Chip.ptp_setRegAt ..)
@[simp] theorem Chip.lists_raise (c : Chip) (p : Page) (b : Nat) : (c.raise p b).lists = c.lists := by obtain ⟨⟨_, _, _, h⟩, -⟩ := c.raise_calm p b; rw [h]; exact (Chip.lists_noise ..).trans (Chip.lists_setRegAt ..)
@[simp] theorem Chip.storyHalted_raise (c : Chip) (p : Page) (b : Nat) : (c.raise p b).storyHalted = c.storyHalted := by obtain ⟨⟨_, _, _, h⟩, -⟩ := c.raise_calm p b; rw [h]; exact (Chip.storyHalted_noise ..).trans (Chip.storyHalted_setRegAt ..)
@[simp] theorem Chip.ones_raise (c : Chip) (p : Page) (b : Nat) : (c.raise p b).ones = c.ones := by obtain ⟨⟨_, _, _, h⟩, -⟩ := c.raise_calm p b; rw [h]; exact (Chip.ones_noise ..).trans (Chip.ones_setRegAt ..)
@[simp] theorem Chip.pinPulses_raise (c : Chip) (p : Page) (b : Nat) : (c.raise p b).pinPulses = c.pinPulses := by obtain ⟨⟨_, _, _, h⟩, -⟩ := c.raise_calm p b; rw [h]; exact (Chip.pinPulses_noise ..).trans (Chip.pinPulses_setRegAt ..)
@[simp] theorem Chip.pulses_raise (c : Chip) (p : Page) (b : Nat) : (c.raise p b).pulses = c.pulses := by obtain ⟨⟨_, _, _, h⟩, -⟩ := c.raise_calm p b; rw [h]; exact (Chip.pulses_noise ..).trans (Chip.pulses_setRegAt ..)
@[simp] theorem Chip.distIndex_raise (c : Chip) (p : Page) (b : Nat) : (c.raise p b).distIndex = c.distIndex := by obtain ⟨⟨_, _, _, h⟩, -⟩ := c.raise_calm p b; rw [h]; exact (Chip.distIndex_noise ..).trans (Chip.distIndex_setRegAt ..)
@[simp] theorem Chip.rels_raise (c : Chip) (p : Page) (b : Nat) : (c.raise p b).rels = c.rels := by obtain ⟨⟨_, _, _, h⟩, -⟩ := c.raise_calm p b; rw [h]; exact (Chip.rels_noise ..).trans (Chip.rels_setRegAt ..)
@[simp] theorem Chip.rlog_raise (c : Chip) (p : Page) (b : Nat) : (c.raise p b).rlog = c.rlog := by obtain ⟨⟨_, _, _, h⟩, -⟩ := c.raise_calm p b; rw [h]; exact (Chip.rlog_noise ..).trans (Chip.rlog_setRegAt ..)
@[simp] theorem Chip.rlogSeq_raise (c : Chip) (p : Page) (b : Nat) : (c.raise p b).rlogSeq = c.rlogSeq := by obtain ⟨⟨_, _, _, h⟩, -⟩ := c.raise_calm p b; rw [h]; exact (Chip.rlogSeq_noise ..).trans (Chip.rlogSeq_setRegAt ..)
@[simp] theorem Chip.ilog_raise (c : Chip) (p : Page) (b : Nat) : (c.raise p b).ilog = c.ilog := by obtain ⟨⟨_, _, _, h⟩, -⟩ := c.raise_calm p b; rw [h]; exact (Chip.ilog_noise ..).trans (Chip.ilog_setRegAt ..)
@[simp] theorem Chip.ilogSeq_raise (c : Chip) (p : Page) (b : Nat) : (c.raise p b).ilogSeq = c.ilogSeq := by obtain ⟨⟨_, _, _, h⟩, -⟩ := c.raise_calm p b; rw [h]; exact (Chip.ilogSeq_noise ..).trans (Chip.ilogSeq_setRegAt ..)
@[simp] theorem Chip.watches_raise (c : Chip) (p : Page) (b : Nat) : (c.raise p b).watches = c.watches := by obtain ⟨⟨_, _, _, h⟩, -⟩ := c.raise_calm p b; rw [h]; exact (Chip.watches_noise ..).trans (Chip.watches_setRegAt ..)
@[simp] theorem Chip.safeFrames_raise (c : Chip) (p : Page) (b : Nat) : (c.raise p b).safeFrames = c.safeFrames := by obtain ⟨⟨_, _, _, h⟩, -⟩ := c.raise_calm p b; rw [h]; exact (Chip.safeFrames_noise ..).trans (Chip.safeFrames_setRegAt ..)
@[simp] theorem Chip.policers_raise (c : Chip) (p : Page) (b : Nat) : (c.raise p b).policers = c.policers := by obtain ⟨⟨_, _, _, h⟩, -⟩ := c.raise_calm p b; rw [h]; exact (Chip.policers_noise ..).trans (Chip.policers_setRegAt ..)
@[simp] theorem Chip.sessions_raise (c : Chip) (p : Page) (b : Nat) : (c.raise p b).sessions = c.sessions := by obtain ⟨⟨_, _, _, h⟩, -⟩ := c.raise_calm p b; rw [h]; exact (Chip.sessions_noise ..).trans (Chip.sessions_setRegAt ..)
@[simp] theorem Chip.units_raise (c : Chip) (p : Page) (b : Nat) : (c.raise p b).units = c.units := by obtain ⟨⟨_, _, _, h⟩, -⟩ := c.raise_calm p b; rw [h]; exact (Chip.units_noise ..).trans (Chip.units_setRegAt ..)
@[simp] theorem Chip.claims_raise (c : Chip) (p : Page) (b : Nat) : (c.raise p b).claims = c.claims := by obtain ⟨⟨_, _, _, h⟩, -⟩ := c.raise_calm p b; rw [h]; exact (Chip.claims_noise ..).trans (Chip.claims_setRegAt ..)
@[simp] theorem Chip.unitCmd_raise (c : Chip) (p : Page) (b : Nat) : (c.raise p b).unitCmd = c.unitCmd := by obtain ⟨⟨_, _, _, h⟩, -⟩ := c.raise_calm p b; rw [h]; exact (Chip.unitCmd_noise ..).trans (Chip.unitCmd_setRegAt ..)
@[simp] theorem Chip.pns_raise (c : Chip) (p : Page) (b : Nat) : (c.raise p b).pns = c.pns := by obtain ⟨⟨_, _, _, h⟩, -⟩ := c.raise_calm p b; rw [h]; exact (Chip.pns_noise ..).trans (Chip.pns_setRegAt ..)
@[simp] theorem Chip.saKeys_raise (c : Chip) (p : Page) (b : Nat) : (c.raise p b).saKeys = c.saKeys := by obtain ⟨⟨_, _, _, h⟩, -⟩ := c.raise_calm p b; rw [h]; exact (Chip.saKeys_noise ..).trans (Chip.saKeys_setRegAt ..)
@[simp] theorem Chip.keyInstall_raise (c : Chip) (p : Page) (b : Nat) : (c.raise p b).keyInstall = c.keyInstall := by obtain ⟨⟨_, _, _, h⟩, -⟩ := c.raise_calm p b; rw [h]; exact (Chip.keyInstall_noise ..).trans (Chip.keyInstall_setRegAt ..)
@[simp] theorem Chip.root_raise (c : Chip) (p : Page) (b : Nat) : (c.raise p b).root = c.root := by obtain ⟨⟨_, _, _, h⟩, -⟩ := c.raise_calm p b; rw [h]; exact (Chip.root_noise ..).trans (Chip.root_setRegAt ..)
@[simp] theorem Chip.slots_raise (c : Chip) (p : Page) (b : Nat) : (c.raise p b).slots = c.slots := by obtain ⟨⟨_, _, _, h⟩, -⟩ := c.raise_calm p b; rw [h]; exact (Chip.slots_noise ..).trans (Chip.slots_setRegAt ..)
@[simp] theorem Chip.succ_raise (c : Chip) (p : Page) (b : Nat) : (c.raise p b).succ = c.succ := by obtain ⟨⟨_, _, _, h⟩, -⟩ := c.raise_calm p b; rw [h]; exact (Chip.succ_noise ..).trans (Chip.succ_setRegAt ..)
@[simp] theorem Chip.prisilOps_raise (c : Chip) (p : Page) (b : Nat) : (c.raise p b).prisilOps = c.prisilOps := by obtain ⟨⟨_, _, _, h⟩, -⟩ := c.raise_calm p b; rw [h]; exact (Chip.prisilOps_noise ..).trans (Chip.prisilOps_setRegAt ..)
@[simp] theorem Chip.shareFaults_raise (c : Chip) (p : Page) (b : Nat) : (c.raise p b).shareFaults = c.shareFaults := by obtain ⟨⟨_, _, _, h⟩, -⟩ := c.raise_calm p b; rw [h]; exact (Chip.shareFaults_noise ..).trans (Chip.shareFaults_setRegAt ..)
@[simp] theorem Chip.inq_raise (c : Chip) (p : Page) (b : Nat) : (c.raise p b).inq = c.inq := by obtain ⟨⟨_, _, _, h⟩, -⟩ := c.raise_calm p b; rw [h]; exact (Chip.inq_noise ..).trans (Chip.inq_setRegAt ..)
@[simp] theorem Chip.cans_raise (c : Chip) (p : Page) (b : Nat) : (c.raise p b).cans = c.cans := by obtain ⟨⟨_, _, _, h⟩, -⟩ := c.raise_calm p b; rw [h]; exact (Chip.cans_noise ..).trans (Chip.cans_setRegAt ..)
@[simp] theorem Chip.lins_raise (c : Chip) (p : Page) (b : Nat) : (c.raise p b).lins = c.lins := by obtain ⟨⟨_, _, _, h⟩, -⟩ := c.raise_calm p b; rw [h]; exact (Chip.lins_noise ..).trans (Chip.lins_setRegAt ..)
@[simp] theorem Chip.uarts_raise (c : Chip) (p : Page) (b : Nat) : (c.raise p b).uarts = c.uarts := by obtain ⟨⟨_, _, _, h⟩, -⟩ := c.raise_calm p b; rw [h]; exact (Chip.uarts_noise ..).trans (Chip.uarts_setRegAt ..)
@[simp] theorem Chip.acfs_raise (c : Chip) (p : Page) (b : Nat) : (c.raise p b).acfs = c.acfs := by obtain ⟨⟨_, _, _, h⟩, -⟩ := c.raise_calm p b; rw [h]; exact (Chip.acfs_noise ..).trans (Chip.acfs_setRegAt ..)
@[simp] theorem Chip.asms_raise (c : Chip) (p : Page) (b : Nat) : (c.raise p b).asms = c.asms := by obtain ⟨⟨_, _, _, h⟩, -⟩ := c.raise_calm p b; rw [h]; exact (Chip.asms_noise ..).trans (Chip.asms_setRegAt ..)
@[simp] theorem Chip.sigs_raise (c : Chip) (p : Page) (b : Nat) : (c.raise p b).sigs = c.sigs := by obtain ⟨⟨_, _, _, h⟩, -⟩ := c.raise_calm p b; rw [h]; exact (Chip.sigs_noise ..).trans (Chip.sigs_setRegAt ..)
@[simp] theorem Chip.nius_raise (c : Chip) (p : Page) (b : Nat) : (c.raise p b).nius = c.nius := by obtain ⟨⟨_, _, _, h⟩, -⟩ := c.raise_calm p b; rw [h]; exact (Chip.nius_noise ..).trans (Chip.nius_setRegAt ..)
@[simp] theorem Chip.tenons_raise (c : Chip) (p : Page) (b : Nat) : (c.raise p b).tenons = c.tenons := by obtain ⟨⟨_, _, _, h⟩, -⟩ := c.raise_calm p b; rw [h]; exact (Chip.tenons_noise ..).trans (Chip.tenons_setRegAt ..)
@[simp] theorem Chip.tWait_raise (c : Chip) (p : Page) (b : Nat) : (c.raise p b).tWait = c.tWait := by obtain ⟨⟨_, _, _, h⟩, -⟩ := c.raise_calm p b; rw [h]; exact (Chip.tWait_noise ..).trans (Chip.tWait_setRegAt ..)
@[simp] theorem Chip.remotes_raise (c : Chip) (p : Page) (b : Nat) : (c.raise p b).remotes = c.remotes := by obtain ⟨⟨_, _, _, h⟩, -⟩ := c.raise_calm p b; rw [h]; exact (Chip.remotes_noise ..).trans (Chip.remotes_setRegAt ..)
@[simp] theorem Chip.ehruzConflict_raise (c : Chip) (p : Page) (b : Nat) : (c.raise p b).ehruzConflict = c.ehruzConflict := by obtain ⟨⟨_, _, _, h⟩, -⟩ := c.raise_calm p b; rw [h]; exact (Chip.ehruzConflict_noise ..).trans (Chip.ehruzConflict_setRegAt ..)
@[simp] theorem Chip.rings_raise (c : Chip) (p : Page) (b : Nat) : (c.raise p b).rings = c.rings := by obtain ⟨⟨_, _, _, h⟩, -⟩ := c.raise_calm p b; rw [h]; exact (Chip.rings_noise ..).trans (Chip.rings_setRegAt ..)
@[simp] theorem Chip.rxDma_raise (c : Chip) (p : Page) (b : Nat) : (c.raise p b).rxDma = c.rxDma := by obtain ⟨⟨_, _, _, h⟩, -⟩ := c.raise_calm p b; rw [h]; exact (Chip.rxDma_noise ..).trans (Chip.rxDma_setRegAt ..)
@[simp] theorem Chip.rxHeld_raise (c : Chip) (p : Page) (b : Nat) : (c.raise p b).rxHeld = c.rxHeld := by obtain ⟨⟨_, _, _, h⟩, -⟩ := c.raise_calm p b; rw [h]; exact (Chip.rxHeld_noise ..).trans (Chip.rxHeld_setRegAt ..)
@[simp] theorem Chip.readRing_raise (c : Chip) (p : Page) (b : Nat) : (c.raise p b).readRing = c.readRing := by obtain ⟨⟨_, _, _, h⟩, -⟩ := c.raise_calm p b; rw [h]; exact (Chip.readRing_noise ..).trans (Chip.readRing_setRegAt ..)
@[simp] theorem Chip.writeRing_raise (c : Chip) (p : Page) (b : Nat) : (c.raise p b).writeRing = c.writeRing := by obtain ⟨⟨_, _, _, h⟩, -⟩ := c.raise_calm p b; rw [h]; exact (Chip.writeRing_noise ..).trans (Chip.writeRing_setRegAt ..)
@[simp] theorem Chip.readPre_raise (c : Chip) (p : Page) (b : Nat) : (c.raise p b).readPre = c.readPre := by obtain ⟨⟨_, _, _, h⟩, -⟩ := c.raise_calm p b; rw [h]; exact (Chip.readPre_noise ..).trans (Chip.readPre_setRegAt ..)
@[simp] theorem Chip.writePre_raise (c : Chip) (p : Page) (b : Nat) : (c.raise p b).writePre = c.writePre := by obtain ⟨⟨_, _, _, h⟩, -⟩ := c.raise_calm p b; rw [h]; exact (Chip.writePre_noise ..).trans (Chip.writePre_setRegAt ..)
@[simp] theorem Chip.tlb_raise (c : Chip) (p : Page) (b : Nat) : (c.raise p b).tlb = c.tlb := by obtain ⟨⟨_, _, _, h⟩, -⟩ := c.raise_calm p b; rw [h]; exact (Chip.tlb_noise ..).trans (Chip.tlb_setRegAt ..)
@[simp] theorem Chip.flts_raise (c : Chip) (p : Page) (b : Nat) : (c.raise p b).flts = c.flts := by obtain ⟨⟨_, _, _, h⟩, -⟩ := c.raise_calm p b; rw [h]; exact (Chip.flts_noise ..).trans (Chip.flts_setRegAt ..)
@[simp] theorem Chip.fltSeq_raise (c : Chip) (p : Page) (b : Nat) : (c.raise p b).fltSeq = c.fltSeq := by obtain ⟨⟨_, _, _, h⟩, -⟩ := c.raise_calm p b; rw [h]; exact (Chip.fltSeq_noise ..).trans (Chip.fltSeq_setRegAt ..)
@[simp] theorem Chip.invs_raise (c : Chip) (p : Page) (b : Nat) : (c.raise p b).invs = c.invs := by obtain ⟨⟨_, _, _, h⟩, -⟩ := c.raise_calm p b; rw [h]; exact (Chip.invs_noise ..).trans (Chip.invs_setRegAt ..)
@[simp] theorem Chip.fences_raise (c : Chip) (p : Page) (b : Nat) : (c.raise p b).fences = c.fences := by obtain ⟨⟨_, _, _, h⟩, -⟩ := c.raise_calm p b; rw [h]; exact (Chip.fences_noise ..).trans (Chip.fences_setRegAt ..)
@[simp] theorem Chip.qsRead_raise (c : Chip) (p : Page) (b : Nat) : (c.raise p b).qsRead = c.qsRead := by obtain ⟨⟨_, _, _, h⟩, -⟩ := c.raise_calm p b; rw [h]; exact (Chip.qsRead_noise ..).trans (Chip.qsRead_setRegAt ..)
@[simp] theorem Chip.clk_raise (c : Chip) (p : Page) (b : Nat) : (c.raise p b).clk = c.clk := by obtain ⟨⟨_, _, _, h⟩, -⟩ := c.raise_calm p b; rw [h]; exact (Chip.clk_noise ..).trans (Chip.clk_setRegAt ..)
@[simp] theorem Chip.pwr_raise (c : Chip) (p : Page) (b : Nat) : (c.raise p b).pwr = c.pwr := by obtain ⟨⟨_, _, _, h⟩, -⟩ := c.raise_calm p b; rw [h]; exact (Chip.pwr_noise ..).trans (Chip.pwr_setRegAt ..)
@[simp] theorem Chip.aon_raise (c : Chip) (p : Page) (b : Nat) : (c.raise p b).aon = c.aon := by obtain ⟨⟨_, _, _, h⟩, -⟩ := c.raise_calm p b; rw [h]; exact (Chip.aon_noise ..).trans (Chip.aon_setRegAt ..)
@[simp] theorem Chip.wdt_raise (c : Chip) (p : Page) (b : Nat) : (c.raise p b).wdt = c.wdt := by obtain ⟨⟨_, _, _, h⟩, -⟩ := c.raise_calm p b; rw [h]; exact (Chip.wdt_noise ..).trans (Chip.wdt_setRegAt ..)
@[simp] theorem Chip.tr_raise (c : Chip) (p : Page) (b : Nat) : (c.raise p b).tr = c.tr := by obtain ⟨⟨_, _, _, h⟩, -⟩ := c.raise_calm p b; rw [h]; exact (Chip.tr_noise ..).trans (Chip.tr_setRegAt ..)
@[simp] theorem Chip.flOps_raise (c : Chip) (p : Page) (b : Nat) : (c.raise p b).flOps = c.flOps := by obtain ⟨⟨_, _, _, h⟩, -⟩ := c.raise_calm p b; rw [h]; exact (Chip.flOps_noise ..).trans (Chip.flOps_setRegAt ..)
@[simp] theorem Chip.otpOp_raise (c : Chip) (p : Page) (b : Nat) : (c.raise p b).otpOp = c.otpOp := by obtain ⟨⟨_, _, _, h⟩, -⟩ := c.raise_calm p b; rw [h]; exact (Chip.otpOp_noise ..).trans (Chip.otpOp_setRegAt ..)
@[simp] theorem Chip.boot_raise (c : Chip) (p : Page) (b : Nat) : (c.raise p b).boot = c.boot := by obtain ⟨⟨_, _, _, h⟩, -⟩ := c.raise_calm p b; rw [h]; exact (Chip.boot_noise ..).trans (Chip.boot_setRegAt ..)
@[simp] theorem Chip.upd_raise (c : Chip) (p : Page) (b : Nat) : (c.raise p b).upd = c.upd := by obtain ⟨⟨_, _, _, h⟩, -⟩ := c.raise_calm p b; rw [h]; exact (Chip.upd_noise ..).trans (Chip.upd_setRegAt ..)
@[simp] theorem Chip.wear_raise (c : Chip) (p : Page) (b : Nat) : (c.raise p b).wear = c.wear := by obtain ⟨⟨_, _, _, h⟩, -⟩ := c.raise_calm p b; rw [h]; exact (Chip.wear_noise ..).trans (Chip.wear_setRegAt ..)
@[simp] theorem Chip.dormant_raise (c : Chip) (p : Page) (b : Nat) : (c.raise p b).dormant = c.dormant := by obtain ⟨⟨_, _, _, h⟩, -⟩ := c.raise_calm p b; rw [h]; exact (Chip.dormant_noise ..).trans (Chip.dormant_setRegAt ..)
@[simp] theorem Chip.bootFail_raise (c : Chip) (p : Page) (b : Nat) : (c.raise p b).bootFail = c.bootFail := by obtain ⟨⟨_, _, _, h⟩, -⟩ := c.raise_calm p b; rw [h]; exact (Chip.bootFail_noise ..).trans (Chip.bootFail_setRegAt ..)

/-! ## Posted writes (R262) -/

/-- The write sequence number taken (R262). -/
def Chip.sequenced (c : Chip) (req : Requester) : Chip :=
  if isHost req then { c with wseq := store 0 c.wseq (reqCode req) (c.wseqOf req + 1) } else c

@[simp] theorem Chip.cycles_sequenced (c : Chip) (r : Requester) : (c.sequenced r).cycles = c.cycles := by unfold Chip.sequenced; split <;> rfl
@[simp] theorem Chip.rstAt_sequenced (c : Chip) (r : Requester) : (c.sequenced r).rstAt = c.rstAt := by unfold Chip.sequenced; split <;> rfl
@[simp] theorem Chip.free_sequenced (c : Chip) (r : Requester) : (c.sequenced r).free = c.free := by unfold Chip.sequenced; split <;> rfl
@[simp] theorem Chip.outs_sequenced (c : Chip) (r : Requester) : (c.sequenced r).outs = c.outs := by unfold Chip.sequenced; split <;> rfl
@[simp] theorem Chip.regs_sequenced (c : Chip) (r : Requester) : (c.sequenced r).regs = c.regs := by unfold Chip.sequenced; split <;> rfl
@[simp] theorem Chip.tblA_sequenced (c : Chip) (r : Requester) : (c.sequenced r).tblA = c.tblA := by unfold Chip.sequenced; split <;> rfl
@[simp] theorem Chip.tblS_sequenced (c : Chip) (r : Requester) : (c.sequenced r).tblS = c.tblS := by unfold Chip.sequenced; split <;> rfl
@[simp] theorem Chip.cnt_sequenced (c : Chip) (r : Requester) : (c.sequenced r).cnt = c.cnt := by unfold Chip.sequenced; split <;> rfl
@[simp] theorem Chip.snap_sequenced (c : Chip) (r : Requester) : (c.sequenced r).snap = c.snap := by unfold Chip.sequenced; split <;> rfl
@[simp] theorem Chip.wbuf_sequenced (c : Chip) (r : Requester) : (c.sequenced r).wbuf = c.wbuf := by unfold Chip.sequenced; split <;> rfl
@[simp] theorem Chip.wins_sequenced (c : Chip) (r : Requester) : (c.sequenced r).wins = c.wins := by unfold Chip.sequenced; split <;> rfl
@[simp] theorem Chip.syncs_sequenced (c : Chip) (r : Requester) : (c.sequenced r).syncs = c.syncs := by unfold Chip.sequenced; split <;> rfl
@[simp] theorem Chip.snapAll_sequenced (c : Chip) (r : Requester) : (c.sequenced r).snapAll = c.snapAll := by unfold Chip.sequenced; split <;> rfl
@[simp] theorem Chip.commits_sequenced (c : Chip) (r : Requester) : (c.sequenced r).commits = c.commits := by unfold Chip.sequenced; split <;> rfl
@[simp] theorem Chip.group_sequenced (c : Chip) (r : Requester) : (c.sequenced r).group = c.group := by unfold Chip.sequenced; split <;> rfl
@[simp] theorem Chip.failed_sequenced (c : Chip) (r : Requester) : (c.sequenced r).failed = c.failed := by unfold Chip.sequenced; split <;> rfl
@[simp] theorem Chip.undecided_sequenced (c : Chip) (r : Requester) : (c.sequenced r).undecided = c.undecided := by unfold Chip.sequenced; split <;> rfl
@[simp] theorem Chip.pel_sequenced (c : Chip) (r : Requester) : (c.sequenced r).pel = c.pel := by unfold Chip.sequenced; split <;> rfl
@[simp] theorem Chip.pelSeq_sequenced (c : Chip) (r : Requester) : (c.sequenced r).pelSeq = c.pelSeq := by unfold Chip.sequenced; split <;> rfl
@[simp] theorem Chip.capRing_sequenced (c : Chip) (r : Requester) : (c.sequenced r).capRing = c.capRing := by unfold Chip.sequenced; split <;> rfl
@[simp] theorem Chip.tBase_sequenced (c : Chip) (r : Requester) : (c.sequenced r).tBase = c.tBase := by unfold Chip.sequenced; split <;> rfl
@[simp] theorem Chip.tAnchor_sequenced (c : Chip) (r : Requester) : (c.sequenced r).tAnchor = c.tAnchor := by unfold Chip.sequenced; split <;> rfl
@[simp] theorem Chip.tStopped_sequenced (c : Chip) (r : Requester) : (c.sequenced r).tStopped = c.tStopped := by unfold Chip.sequenced; split <;> rfl
@[simp] theorem Chip.ports_sequenced (c : Chip) (r : Requester) : (c.sequenced r).ports = c.ports := by unfold Chip.sequenced; split <;> rfl
@[simp] theorem Chip.warm_sequenced (c : Chip) (r : Requester) : (c.sequenced r).warm = c.warm := by unfold Chip.sequenced; split <;> rfl
@[simp] theorem Chip.queues_sequenced (c : Chip) (r : Requester) : (c.sequenced r).queues = c.queues := by unfold Chip.sequenced; split <;> rfl
@[simp] theorem Chip.seqs_sequenced (c : Chip) (r : Requester) : (c.sequenced r).seqs = c.seqs := by unfold Chip.sequenced; split <;> rfl
@[simp] theorem Chip.tx_sequenced (c : Chip) (r : Requester) : (c.sequenced r).tx = c.tx := by unfold Chip.sequenced; split <;> rfl
@[simp] theorem Chip.preempted_sequenced (c : Chip) (r : Requester) : (c.sequenced r).preempted = c.preempted := by unfold Chip.sequenced; split <;> rfl
@[simp] theorem Chip.rx_sequenced (c : Chip) (r : Requester) : (c.sequenced r).rx = c.rx := by unfold Chip.sequenced; split <;> rfl
@[simp] theorem Chip.nextFid_sequenced (c : Chip) (r : Requester) : (c.sequenced r).nextFid = c.nextFid := by unfold Chip.sequenced; split <;> rfl
@[simp] theorem Chip.spillCredit_sequenced (c : Chip) (r : Requester) : (c.sequenced r).spillCredit = c.spillCredit := by unfold Chip.sequenced; split <;> rfl
@[simp] theorem Chip.spillAt_sequenced (c : Chip) (r : Requester) : (c.sequenced r).spillAt = c.spillAt := by unfold Chip.sequenced; split <;> rfl
@[simp] theorem Chip.bypass_sequenced (c : Chip) (r : Requester) : (c.sequenced r).bypass = c.bypass := by unfold Chip.sequenced; split <;> rfl
@[simp] theorem Chip.partials_sequenced (c : Chip) (r : Requester) : (c.sequenced r).partials = c.partials := by unfold Chip.sequenced; split <;> rfl
@[simp] theorem Chip.comps_sequenced (c : Chip) (r : Requester) : (c.sequenced r).comps = c.comps := by unfold Chip.sequenced; split <;> rfl
@[simp] theorem Chip.members_sequenced (c : Chip) (r : Requester) : (c.sequenced r).members = c.members := by unfold Chip.sequenced; split <;> rfl
@[simp] theorem Chip.holds_sequenced (c : Chip) (r : Requester) : (c.sequenced r).holds = c.holds := by unfold Chip.sequenced; split <;> rfl
@[simp] theorem Chip.ageAt_sequenced (c : Chip) (r : Requester) : (c.sequenced r).ageAt = c.ageAt := by unfold Chip.sequenced; split <;> rfl
@[simp] theorem Chip.flush_sequenced (c : Chip) (r : Requester) : (c.sequenced r).flush = c.flush := by unfold Chip.sequenced; split <;> rfl
@[simp] theorem Chip.spillTraining_sequenced (c : Chip) (r : Requester) : (c.sequenced r).spillTraining = c.spillTraining := by unfold Chip.sequenced; split <;> rfl
@[simp] theorem Chip.timeHfrc_sequenced (c : Chip) (r : Requester) : (c.sequenced r).timeHfrc = c.timeHfrc := by unfold Chip.sequenced; split <;> rfl
@[simp] theorem Chip.slewIndex_sequenced (c : Chip) (r : Requester) : (c.sequenced r).slewIndex = c.slewIndex := by unfold Chip.sequenced; split <;> rfl
@[simp] theorem Chip.corrAt_sequenced (c : Chip) (r : Requester) : (c.sequenced r).corrAt = c.corrAt := by unfold Chip.sequenced; split <;> rfl
@[simp] theorem Chip.holdoverAt_sequenced (c : Chip) (r : Requester) : (c.sequenced r).holdoverAt = c.holdoverAt := by unfold Chip.sequenced; split <;> rfl
@[simp] theorem Chip.holdoverLong_sequenced (c : Chip) (r : Requester) : (c.sequenced r).holdoverLong = c.holdoverLong := by unfold Chip.sequenced; split <;> rfl
@[simp] theorem Chip.ppsArm_sequenced (c : Chip) (r : Requester) : (c.sequenced r).ppsArm = c.ppsArm := by unfold Chip.sequenced; split <;> rfl
@[simp] theorem Chip.ppsOut_sequenced (c : Chip) (r : Requester) : (c.sequenced r).ppsOut = c.ppsOut := by unfold Chip.sequenced; split <;> rfl
@[simp] theorem Chip.ppsSecond_sequenced (c : Chip) (r : Requester) : (c.sequenced r).ppsSecond = c.ppsSecond := by unfold Chip.sequenced; split <;> rfl
@[simp] theorem Chip.headEpoch_sequenced (c : Chip) (r : Requester) : (c.sequenced r).headEpoch = c.headEpoch := by unfold Chip.sequenced; split <;> rfl
@[simp] theorem Chip.ptp_sequenced (c : Chip) (r : Requester) : (c.sequenced r).ptp = c.ptp := by unfold Chip.sequenced; split <;> rfl
@[simp] theorem Chip.lists_sequenced (c : Chip) (r : Requester) : (c.sequenced r).lists = c.lists := by unfold Chip.sequenced; split <;> rfl
@[simp] theorem Chip.storyHalted_sequenced (c : Chip) (r : Requester) : (c.sequenced r).storyHalted = c.storyHalted := by unfold Chip.sequenced; split <;> rfl
@[simp] theorem Chip.ones_sequenced (c : Chip) (r : Requester) : (c.sequenced r).ones = c.ones := by unfold Chip.sequenced; split <;> rfl
@[simp] theorem Chip.pinPulses_sequenced (c : Chip) (r : Requester) : (c.sequenced r).pinPulses = c.pinPulses := by unfold Chip.sequenced; split <;> rfl
@[simp] theorem Chip.pulses_sequenced (c : Chip) (r : Requester) : (c.sequenced r).pulses = c.pulses := by unfold Chip.sequenced; split <;> rfl
@[simp] theorem Chip.distIndex_sequenced (c : Chip) (r : Requester) : (c.sequenced r).distIndex = c.distIndex := by unfold Chip.sequenced; split <;> rfl
@[simp] theorem Chip.rels_sequenced (c : Chip) (r : Requester) : (c.sequenced r).rels = c.rels := by unfold Chip.sequenced; split <;> rfl
@[simp] theorem Chip.rlog_sequenced (c : Chip) (r : Requester) : (c.sequenced r).rlog = c.rlog := by unfold Chip.sequenced; split <;> rfl
@[simp] theorem Chip.rlogSeq_sequenced (c : Chip) (r : Requester) : (c.sequenced r).rlogSeq = c.rlogSeq := by unfold Chip.sequenced; split <;> rfl
@[simp] theorem Chip.ilog_sequenced (c : Chip) (r : Requester) : (c.sequenced r).ilog = c.ilog := by unfold Chip.sequenced; split <;> rfl
@[simp] theorem Chip.ilogSeq_sequenced (c : Chip) (r : Requester) : (c.sequenced r).ilogSeq = c.ilogSeq := by unfold Chip.sequenced; split <;> rfl
@[simp] theorem Chip.watches_sequenced (c : Chip) (r : Requester) : (c.sequenced r).watches = c.watches := by unfold Chip.sequenced; split <;> rfl
@[simp] theorem Chip.safeFrames_sequenced (c : Chip) (r : Requester) : (c.sequenced r).safeFrames = c.safeFrames := by unfold Chip.sequenced; split <;> rfl
@[simp] theorem Chip.policers_sequenced (c : Chip) (r : Requester) : (c.sequenced r).policers = c.policers := by unfold Chip.sequenced; split <;> rfl
@[simp] theorem Chip.sessions_sequenced (c : Chip) (r : Requester) : (c.sequenced r).sessions = c.sessions := by unfold Chip.sequenced; split <;> rfl
@[simp] theorem Chip.units_sequenced (c : Chip) (r : Requester) : (c.sequenced r).units = c.units := by unfold Chip.sequenced; split <;> rfl
@[simp] theorem Chip.claims_sequenced (c : Chip) (r : Requester) : (c.sequenced r).claims = c.claims := by unfold Chip.sequenced; split <;> rfl
@[simp] theorem Chip.unitCmd_sequenced (c : Chip) (r : Requester) : (c.sequenced r).unitCmd = c.unitCmd := by unfold Chip.sequenced; split <;> rfl
@[simp] theorem Chip.pns_sequenced (c : Chip) (r : Requester) : (c.sequenced r).pns = c.pns := by unfold Chip.sequenced; split <;> rfl
@[simp] theorem Chip.saKeys_sequenced (c : Chip) (r : Requester) : (c.sequenced r).saKeys = c.saKeys := by unfold Chip.sequenced; split <;> rfl
@[simp] theorem Chip.keyInstall_sequenced (c : Chip) (r : Requester) : (c.sequenced r).keyInstall = c.keyInstall := by unfold Chip.sequenced; split <;> rfl
@[simp] theorem Chip.root_sequenced (c : Chip) (r : Requester) : (c.sequenced r).root = c.root := by unfold Chip.sequenced; split <;> rfl
@[simp] theorem Chip.slots_sequenced (c : Chip) (r : Requester) : (c.sequenced r).slots = c.slots := by unfold Chip.sequenced; split <;> rfl
@[simp] theorem Chip.succ_sequenced (c : Chip) (r : Requester) : (c.sequenced r).succ = c.succ := by unfold Chip.sequenced; split <;> rfl
@[simp] theorem Chip.prisilOps_sequenced (c : Chip) (r : Requester) : (c.sequenced r).prisilOps = c.prisilOps := by unfold Chip.sequenced; split <;> rfl
@[simp] theorem Chip.shareFaults_sequenced (c : Chip) (r : Requester) : (c.sequenced r).shareFaults = c.shareFaults := by unfold Chip.sequenced; split <;> rfl
@[simp] theorem Chip.inq_sequenced (c : Chip) (r : Requester) : (c.sequenced r).inq = c.inq := by unfold Chip.sequenced; split <;> rfl
@[simp] theorem Chip.cans_sequenced (c : Chip) (r : Requester) : (c.sequenced r).cans = c.cans := by unfold Chip.sequenced; split <;> rfl
@[simp] theorem Chip.lins_sequenced (c : Chip) (r : Requester) : (c.sequenced r).lins = c.lins := by unfold Chip.sequenced; split <;> rfl
@[simp] theorem Chip.uarts_sequenced (c : Chip) (r : Requester) : (c.sequenced r).uarts = c.uarts := by unfold Chip.sequenced; split <;> rfl
@[simp] theorem Chip.acfs_sequenced (c : Chip) (r : Requester) : (c.sequenced r).acfs = c.acfs := by unfold Chip.sequenced; split <;> rfl
@[simp] theorem Chip.asms_sequenced (c : Chip) (r : Requester) : (c.sequenced r).asms = c.asms := by unfold Chip.sequenced; split <;> rfl
@[simp] theorem Chip.sigs_sequenced (c : Chip) (r : Requester) : (c.sequenced r).sigs = c.sigs := by unfold Chip.sequenced; split <;> rfl
@[simp] theorem Chip.nius_sequenced (c : Chip) (r : Requester) : (c.sequenced r).nius = c.nius := by unfold Chip.sequenced; split <;> rfl
@[simp] theorem Chip.tenons_sequenced (c : Chip) (r : Requester) : (c.sequenced r).tenons = c.tenons := by unfold Chip.sequenced; split <;> rfl
@[simp] theorem Chip.tWait_sequenced (c : Chip) (r : Requester) : (c.sequenced r).tWait = c.tWait := by unfold Chip.sequenced; split <;> rfl
@[simp] theorem Chip.remotes_sequenced (c : Chip) (r : Requester) : (c.sequenced r).remotes = c.remotes := by unfold Chip.sequenced; split <;> rfl
@[simp] theorem Chip.ehruzConflict_sequenced (c : Chip) (r : Requester) : (c.sequenced r).ehruzConflict = c.ehruzConflict := by unfold Chip.sequenced; split <;> rfl
@[simp] theorem Chip.rings_sequenced (c : Chip) (r : Requester) : (c.sequenced r).rings = c.rings := by unfold Chip.sequenced; split <;> rfl
@[simp] theorem Chip.rxDma_sequenced (c : Chip) (r : Requester) : (c.sequenced r).rxDma = c.rxDma := by unfold Chip.sequenced; split <;> rfl
@[simp] theorem Chip.rxHeld_sequenced (c : Chip) (r : Requester) : (c.sequenced r).rxHeld = c.rxHeld := by unfold Chip.sequenced; split <;> rfl
@[simp] theorem Chip.readRing_sequenced (c : Chip) (r : Requester) : (c.sequenced r).readRing = c.readRing := by unfold Chip.sequenced; split <;> rfl
@[simp] theorem Chip.writeRing_sequenced (c : Chip) (r : Requester) : (c.sequenced r).writeRing = c.writeRing := by unfold Chip.sequenced; split <;> rfl
@[simp] theorem Chip.readPre_sequenced (c : Chip) (r : Requester) : (c.sequenced r).readPre = c.readPre := by unfold Chip.sequenced; split <;> rfl
@[simp] theorem Chip.writePre_sequenced (c : Chip) (r : Requester) : (c.sequenced r).writePre = c.writePre := by unfold Chip.sequenced; split <;> rfl
@[simp] theorem Chip.tlb_sequenced (c : Chip) (r : Requester) : (c.sequenced r).tlb = c.tlb := by unfold Chip.sequenced; split <;> rfl
@[simp] theorem Chip.flts_sequenced (c : Chip) (r : Requester) : (c.sequenced r).flts = c.flts := by unfold Chip.sequenced; split <;> rfl
@[simp] theorem Chip.fltSeq_sequenced (c : Chip) (r : Requester) : (c.sequenced r).fltSeq = c.fltSeq := by unfold Chip.sequenced; split <;> rfl
@[simp] theorem Chip.invs_sequenced (c : Chip) (r : Requester) : (c.sequenced r).invs = c.invs := by unfold Chip.sequenced; split <;> rfl
@[simp] theorem Chip.fences_sequenced (c : Chip) (r : Requester) : (c.sequenced r).fences = c.fences := by unfold Chip.sequenced; split <;> rfl
@[simp] theorem Chip.qsRead_sequenced (c : Chip) (r : Requester) : (c.sequenced r).qsRead = c.qsRead := by unfold Chip.sequenced; split <;> rfl
@[simp] theorem Chip.clk_sequenced (c : Chip) (r : Requester) : (c.sequenced r).clk = c.clk := by unfold Chip.sequenced; split <;> rfl
@[simp] theorem Chip.pwr_sequenced (c : Chip) (r : Requester) : (c.sequenced r).pwr = c.pwr := by unfold Chip.sequenced; split <;> rfl
@[simp] theorem Chip.aon_sequenced (c : Chip) (r : Requester) : (c.sequenced r).aon = c.aon := by unfold Chip.sequenced; split <;> rfl
@[simp] theorem Chip.wdt_sequenced (c : Chip) (r : Requester) : (c.sequenced r).wdt = c.wdt := by unfold Chip.sequenced; split <;> rfl
@[simp] theorem Chip.tr_sequenced (c : Chip) (r : Requester) : (c.sequenced r).tr = c.tr := by unfold Chip.sequenced; split <;> rfl
@[simp] theorem Chip.flOps_sequenced (c : Chip) (r : Requester) : (c.sequenced r).flOps = c.flOps := by unfold Chip.sequenced; split <;> rfl
@[simp] theorem Chip.otpOp_sequenced (c : Chip) (r : Requester) : (c.sequenced r).otpOp = c.otpOp := by unfold Chip.sequenced; split <;> rfl
@[simp] theorem Chip.boot_sequenced (c : Chip) (r : Requester) : (c.sequenced r).boot = c.boot := by unfold Chip.sequenced; split <;> rfl
@[simp] theorem Chip.upd_sequenced (c : Chip) (r : Requester) : (c.sequenced r).upd = c.upd := by unfold Chip.sequenced; split <;> rfl
@[simp] theorem Chip.wear_sequenced (c : Chip) (r : Requester) : (c.sequenced r).wear = c.wear := by unfold Chip.sequenced; split <;> rfl
@[simp] theorem Chip.dormant_sequenced (c : Chip) (r : Requester) : (c.sequenced r).dormant = c.dormant := by unfold Chip.sequenced; split <;> rfl
@[simp] theorem Chip.bootFail_sequenced (c : Chip) (r : Requester) : (c.sequenced r).bootFail = c.bootFail := by unfold Chip.sequenced; split <;> rfl

@[simp] theorem Chip.reg_sequenced (c : Chip) (r : Requester) (p : Page) (o : Nat) : (c.sequenced r).reg p o = c.reg p o :=
  reg_congr (by simp) p o

/-- A posted write that nothing refuses is the effect it asks for, after its sequence number has been taken. -/
theorem Chip.posted_ok (c : Chip) {req : Requester} {p : Page} {off : Nat} {v : Word} {act : Chip → Chip × Nat} {d : Chip}
    (ht : c.takes req = true) (hp : pageValid p = true) (ha : act (c.sequenced req) = (d, 0)) : c.posted req p off v act = d := by
  have h1 : c.postedE req p off v act = (d, 0) := by
    unfold Chip.postedE
    simp only [Chip.takes, Bool.and_eq_true, Bool.not_eq_true', Bool.or_eq_true, decide_eq_true_eq] at ht
    rw [if_neg (by simp [ht.1.1])]
    rw [if_neg (by rintro ⟨e, h⟩; exact h (ht.1.2.resolve_left fun n => n e))]
    rw [if_neg (by rintro ⟨e, h⟩; rw [ht.2.resolve_left fun n => n e] at h; exact absurd h (by decide))]
    rw [if_neg (by simp [hp])]
    simp only
    change (match act (c.sequenced req) with | (c', 0) => (c', 0) | (c', e) => _) = _
    rw [ha]; rfl
  unfold Chip.posted; rw [h1]

/-- A command register's effect takes place. -/
theorem Chip.command_ok (c : Chip) {req : Requester} {p : Page} {off : Nat} {v : Word} {f : Chip → Chip}
    (ht : c.takes req = true) (hp : pageValid p = true) : c.command req p off v f = f (c.sequenced req) := c.posted_ok ht hp rfl

end Sys2Proof.Machine
end

