-- ==== Sys2Proof/Laws/Setters.lean ====
section
/-! SUPPORT. Registers through the setters of the other fields: they read as before. -/
namespace Sys2Proof.Machine

open Sys2Proof

@[simp] theorem Chip.reg_setPolicer (c : Chip) (i : Nat) (x : PolRt) (pg : Page) (off : Nat) : (c.setPolicer i x).reg pg off = c.reg pg off := reg_congr (by unfold Chip.setPolicer; rfl) pg off
@[simp] theorem Chip.reg_spillRefill (c : Chip) (pg : Page) (off : Nat) : (c.spillRefill).reg pg off = c.reg pg off := reg_congr (by unfold Chip.spillRefill; rfl) pg off
@[simp] theorem Chip.reg_setWatch (c : Chip) (i : Nat) (x : WatchRt) (pg : Page) (off : Nat) : (c.setWatch i x).reg pg off = c.reg pg off := reg_congr (by unfold Chip.setWatch; rfl) pg off
@[simp] theorem Chip.reg_setClk (c : Chip) (x : ClkRt) (pg : Page) (off : Nat) : (c.setClk x).reg pg off = c.reg pg off := reg_congr (by unfold Chip.setClk; rfl) pg off
@[simp] theorem Chip.reg_dropCold (c : Chip) (temp : Int) (pg : Page) (off : Nat) : (c.dropCold temp).reg pg off = c.reg pg off := reg_congr (by unfold Chip.dropCold; rfl) pg off
@[simp] theorem Chip.reg_setCommitRt (c : Chip) (p : Page) (x : CommitRt) (pg : Page) (off : Nat) : (c.setCommitRt p x).reg pg off = c.reg pg off := reg_congr (by unfold Chip.setCommitRt; rfl) pg off
@[simp] theorem Chip.reg_noteTimeout (c : Chip) (pg : Page) (off : Nat) : (c.noteTimeout).reg pg off = c.reg pg off := reg_congr (by unfold Chip.noteTimeout; rfl) pg off
@[simp] theorem Chip.reg_dropTlb (c : Chip) (v : InvCmd) (pg : Page) (off : Nat) : (c.dropTlb v).reg pg off = c.reg pg off := reg_congr (by unfold Chip.dropTlb; rfl) pg off
@[simp] theorem Chip.reg_softResetDxlt (c : Chip) (pg : Page) (off : Nat) : (c.softResetDxlt).reg pg off = c.reg pg off := reg_congr (by unfold Chip.softResetDxlt; rfl) pg off
@[simp] theorem Chip.reg_setComp (c : Chip) (i : Nat) (x : CompRt) (pg : Page) (off : Nat) : (c.setComp i x).reg pg off = c.reg pg off := reg_congr (by unfold Chip.setComp; rfl) pg off
@[simp] theorem Chip.reg_setMember (c : Chip) (i : Nat) (x : MemRt) (pg : Page) (off : Nat) : (c.setMember i x).reg pg off = c.reg pg off := reg_congr (by unfold Chip.setMember; rfl) pg off
@[simp] theorem Chip.reg_setAcf (c : Chip) (k : Nat) (x : AcfRt) (pg : Page) (off : Nat) : (c.setAcf k x).reg pg off = c.reg pg off := reg_congr (by unfold Chip.setAcf; rfl) pg off
@[simp] theorem Chip.reg_setAsm (c : Chip) (a : Nat) (x : AsmRt) (pg : Page) (off : Nat) : (c.setAsm a x).reg pg off = c.reg pg off := reg_congr (by unfold Chip.setAsm; rfl) pg off
@[simp] theorem Chip.reg_setSig (c : Chip) (i : Nat) (x : SigRt) (pg : Page) (off : Nat) : (c.setSig i x).reg pg off = c.reg pg off := reg_congr (by unfold Chip.setSig; rfl) pg off
@[simp] theorem Chip.reg_setNiu (c : Chip) (k : Nat) (x : NiuRt) (pg : Page) (off : Nat) : (c.setNiu k x).reg pg off = c.reg pg off := reg_congr (by unfold Chip.setNiu; rfl) pg off
@[simp] theorem Chip.reg_setRing (c : Chip) (r : Nat) (x : RingRt) (pg : Page) (off : Nat) : (c.setRing r x).reg pg off = c.reg pg off := reg_congr (by unfold Chip.setRing; rfl) pg off
@[simp] theorem Chip.reg_setWarm (c : Chip) (n : Nat) (w : Option WarmRec) (pg : Page) (off : Nat) : (c.setWarm n w).reg pg off = c.reg pg off := reg_congr (by unfold Chip.setWarm; rfl) pg off
@[simp] theorem Chip.reg_setPn (c : Chip) (sa n : Nat) (pg : Page) (off : Nat) : (c.setPn sa n).reg pg off = c.reg pg off := reg_congr (by unfold Chip.setPn; rfl) pg off
@[simp] theorem Chip.reg_setSlot (c : Chip) (k : Nat) (x : SlotRt) (pg : Page) (off : Nat) : (c.setSlot k x).reg pg off = c.reg pg off := reg_congr (by unfold Chip.setSlot; rfl) pg off
@[simp] theorem Chip.reg_setPwr (c : Chip) (x : PwrRt) (pg : Page) (off : Nat) : (c.setPwr x).reg pg off = c.reg pg off := reg_congr (by unfold Chip.setPwr; rfl) pg off
@[simp] theorem Chip.reg_setAon (c : Chip) (x : AonRt) (pg : Page) (off : Nat) : (c.setAon x).reg pg off = c.reg pg off := reg_congr (by unfold Chip.setAon; rfl) pg off
@[simp] theorem Chip.reg_setTr (c : Chip) (x : TrRt) (pg : Page) (off : Nat) : (c.setTr x).reg pg off = c.reg pg off := reg_congr (by unfold Chip.setTr; rfl) pg off
@[simp] theorem Chip.reg_anchor (c : Chip) (t : Nat) (pg : Page) (off : Nat) : (c.anchor t).reg pg off = c.reg pg off := reg_congr (by unfold Chip.anchor; rfl) pg off
@[simp] theorem Chip.reg_setPulse (c : Chip) (p : Nat) (x : PulseRt) (pg : Page) (off : Nat) : (c.setPulse p x).reg pg off = c.reg pg off := reg_congr (by unfold Chip.setPulse; rfl) pg off
@[simp] theorem Chip.reg_setTenon (c : Chip) (t : Nat) (x : TenonRt) (pg : Page) (off : Nat) : (c.setTenon t x).reg pg off = c.reg pg off := reg_congr (by unfold Chip.setTenon; rfl) pg off
@[simp] theorem Chip.reg_setRx (c : Chip) (n : Nat) (f : Option Frame) (pg : Page) (off : Nat) : (c.setRx n f).reg pg off = c.reg pg off := reg_congr (by unfold Chip.setRx; rfl) pg off
@[simp] theorem Chip.reg_setPortRt (c : Chip) (n : Nat) (x : PortRt) (pg : Page) (off : Nat) : (c.setPortRt n x).reg pg off = c.reg pg off := reg_congr (by unfold Chip.setPortRt; rfl) pg off
@[simp] theorem Chip.reg_setTx (c : Chip) (n : Nat) (x : Option Copy) (pg : Page) (off : Nat) : (c.setTx n x).reg pg off = c.reg pg off := reg_congr (by unfold Chip.setTx; rfl) pg off
@[simp] theorem Chip.reg_pushPre (c : Chip) (k : Copy) (pg : Page) (off : Nat) : (c.pushPre k).reg pg off = c.reg pg off := reg_congr (by unfold Chip.pushPre; rfl) pg off
@[simp] theorem Chip.reg_dropPre (c : Chip) (k : Copy) (pg : Page) (off : Nat) : (c.dropPre k).reg pg off = c.reg pg off := reg_congr (by unfold Chip.dropPre; rfl) pg off
@[simp] theorem Chip.reg_setCan (c : Chip) (n : Nat) (x : CanRt) (pg : Page) (off : Nat) : (c.setCan n x).reg pg off = c.reg pg off := reg_congr (by unfold Chip.setCan; rfl) pg off
@[simp] theorem Chip.reg_setLin (c : Chip) (n : Nat) (x : LinRt) (pg : Page) (off : Nat) : (c.setLin n x).reg pg off = c.reg pg off := reg_congr (by unfold Chip.setLin; rfl) pg off
@[simp] theorem Chip.reg_setUart (c : Chip) (n : Nat) (x : UartRt) (pg : Page) (off : Nat) : (c.setUart n x).reg pg off = c.reg pg off := reg_congr (by unfold Chip.setUart; rfl) pg off
@[simp] theorem Chip.reg_qsAbandon (c : Chip) (pg : Page) (off : Nat) : (c.qsAbandon).reg pg off = c.reg pg off := reg_congr (by unfold Chip.qsAbandon; rfl) pg off
@[simp] theorem Chip.reg_setWin (c : Chip) (p : Page) (side : Nat) (o : Option WinOp) (pg : Page) (off : Nat) : (c.setWin p side o).reg pg off = c.reg pg off := reg_congr (by unfold Chip.setWin; rfl) pg off
@[simp] theorem Chip.reg_setBufWord (c : Chip) (p : Page) (side word : Nat) (w : Word) (pg : Page) (off : Nat) : (c.setBufWord p side word w).reg pg off = c.reg pg off := reg_congr (by unfold Chip.setBufWord; rfl) pg off
@[simp] theorem Chip.reg_bankSyncDone (c : Chip) (p : Page) (pg : Page) (off : Nat) : (c.bankSyncDone p).reg pg off = c.reg pg off := reg_congr (by unfold Chip.bankSyncDone; rfl) pg off
@[simp] theorem Chip.reg_setPtp (c : Chip) (g : Nat) (x : PtpRt) (pg : Page) (off : Nat) : (c.setPtp g x).reg pg off = c.reg pg off := reg_congr (by unfold Chip.setPtp; rfl) pg off
@[simp] theorem Chip.reg_setUnit (c : Chip) (u : Nat) (x : UnitRt) (pg : Page) (off : Nat) : (c.setUnit u x).reg pg off = c.reg pg off := reg_congr (by unfold Chip.setUnit; rfl) pg off
@[simp] theorem Chip.reg_setClaim (c : Chip) (channel sa : Nat) (n : Option Nat) (pg : Page) (off : Nat) : (c.setClaim channel sa n).reg pg off = c.reg pg off := reg_congr (by unfold Chip.setClaim; rfl) pg off
@[simp] theorem Chip.reg_unclaim (c : Chip) (channel name : Nat) (pg : Page) (off : Nat) : (c.unclaim channel name).reg pg off = c.reg pg off := reg_congr (by unfold Chip.unclaim; rfl) pg off
@[simp] theorem Chip.reg_setSess (c : Chip) (i : Nat) (x : Sess) (pg : Page) (off : Nat) : (c.setSess i x).reg pg off = c.reg pg off := reg_congr (by unfold Chip.setSess; rfl) pg off

end Sys2Proof.Machine
end

