-- ==== Sys2Proof/WellFormed.lean ====
section
/-! DEFINITION. Well-formed commands: a page of the map (R33), with a table or counters where the command needs them, and numbers within the
ranges that the spec gives ports, classes, handles, slots, rings, units, channels and keys. Every command has a meaning in the machine, well formed
or not: `Instr.wf` says whether its operands name things that the block has. -/
namespace Sys2Proof

open Sys2Proof.Machine

/-- Do the operands of a command name things that the block has? -/
def Instr.wf : Instr → Bool
  | .blockEnable _ _ page _ => pageValid page
  | .softRst _ _ page _ => pageValid page
  | .evtRawClear _ _ page _ => pageValid page
  | .commitGo _ _ page => pageValid page
  | .commitAtTime _ _ page handle => pageValid page && decide (handle < 4096)
  | .commitAbort _ _ page => pageValid page
  | .validationDone _ page => pageValid page
  | .commitApply _ page => pageValid page
  | .safeTimeout _ page => pageValid page
  | .groupAtTime _ _ handle => decide (handle < 4096)
  | .lock _ _ page => pageValid page
  | .tblRead _ _ page _ => pageValid page && hasTable page
  | .tblReadActive _ _ page _ => pageValid page && hasTable page
  | .tblWrite _ _ page _ => pageValid page && hasTable page
  | .tblClear _ _ page _ => pageValid page && hasTable page
  | .tblSearch _ _ page _ => pageValid page && hasTable page
  | .tblClearAll _ _ page _ => pageValid page && hasTable page
  | .tblDone _ _ page _ => pageValid page && hasTable page
  | .bankSyncDone _ page => pageValid page && hasTable page
  | .snapTake _ _ page => pageValid page && hasSnap page
  | .snapDone _ page => pageValid page && hasSnap page
  | .partnerSignal _ port => decide (port < 28)
  | .trainComplete _ port _ _ _ _ => decide (port < 28)
  | .linkTrainFail _ port _ => decide (port < 28)
  | .resumeOk _ port => decide (port < 28)
  | .resumeFail _ port => decide (port < 28)
  | .pcsLockLoss _ port => decide (port < 28)
  | .beaconLoss _ port => decide (port < 28)
  | .plcaBeaconRx _ port => decide (port < 28)
  | .plcaBeaconTx _ port => decide (port < 28)
  | .linkCmdRestart _ _ port => decide (port < 28)
  | .linkCmdSleep _ _ port => decide (port < 28)
  | .linkCmdWake _ _ port => decide (port < 28)
  | .linkCmdForget _ _ port => decide (port < 28)
  | .partnerSleepRequest _ port => decide (port < 28)
  | .partnerSleepReject _ port => decide (port < 28)
  | .sleepDone _ port => decide (port < 28)
  | .sleepDrain _ port => decide (port < 28)
  | .wakeRx _ port => decide (port < 28)
  | .verifyFail _ port => decide (port < 28)
  | .cableDiagStart _ _ port => decide (port < 28)
  | .cableDiagDone _ port _ _ => decide (port < 28)
  | .testMode _ _ port mode => decide (port < 28) && decide (mode < 65536)
  | .sqiRefresh _ port _ _ => decide (port < 28)
  | .frameReception _ port _ _ _ _ _ => decide (port < 32)
  | .egressFrameStart _ port _ _ _ => decide (port < 32)
  | .egressFrameEnd _ tx => decide (tx.port < 32)
  | .gateDeadlineDrop _ port cls => decide (port < 32) && decide (cls < 8)
  | .releaseRequest _ port cls => decide (port < 32) && decide (cls < 8)
  | .releaseStart _ target _ _ => decide (target < 60)
  | .rseqWindowEntry _ egress cls => decide (egress < 32) && decide (cls < 8)
  | .rseqTimeout _ egress cls ingress => decide (egress < 32) && decide (cls < 8) && decide (ingress < 32)
  | .spillRead _ egress queue => decide (egress < 32) && decide (queue.cls < 8)
  | .spillReadDone _ egress cls _ => decide (egress < 32) && decide (cls < 8)
  | .syncTimeout _ inst => decide (inst < 4)
  | .gptpTxInterval _ inst _ => decide (inst < 4)
  | .announceRx _ inst port _ _ _ _ _ => decide (inst < 4) && decide (port < 28)
  | .pdelayExchange _ port _ _ _ => decide (port < 28)
  | .gptpSyncRx _ inst port _ _ _ _ _ => decide (inst < 4) && decide (port < 28)
  | .timeWordRx _ link _ _ _ _ _ => decide (link < 2)
  | .listEntryStart _ list => decide (list < 64)
  | .listSwap _ list => decide (list < 64)
  | .pulseEdge _ input _ _ => decide (input < 4)
  | .pulseStop _ input => decide (input < 4)
  | .inputEdge _ pin _ _ => decide (pin < 8)
  | .ilogAck _ _ seq => decide (seq < 65536)
  | .cinchDeadline _ entry => decide (entry < 512)
  | .cinchRepeat _ entry => decide (entry < 512)
  | .rlogAck _ _ seq => decide (seq < 65536)
  | .recovReset _ index => decide (index < 1024)
  | .resetRecov _ _ index => decide (index < 1024)
  | .resetGen _ _ index => decide (index < 1024)
  | .memberSilent _ member => decide (member < 2048)
  | .memberReturn _ member => decide (member < 2048)
  | .latentErr _ index => decide (index < 1024)
  | .latentReset _ index => decide (index < 1024)
  | .replace _ _ unit other _ => decide (unit < 1024) && decide (other < 1024)
  | .reinstate _ _ unit => decide (unit < 1024)
  | .retire _ _ unit => decide (unit < 1024)
  | .release _ _ unit => decide (unit < 1024)
  | .ackReturned _ _ unit => decide (unit < 1024)
  | .setAlive _ _ unit => decide (unit < 1024)
  | .setSuspect _ _ unit => decide (unit < 1024)
  | .setDead _ _ unit => decide (unit < 1024)
  | .tpDtGap _ session => decide (session < 512)
  | .tpCtsWait _ session => decide (session < 512)
  | .tpHold _ session => decide (session < 512)
  | .keyInstall _ _ sa slot => decide (sa < 2816) && decide (slot < 64)
  | .canFrameTx _ channel _ _ => decide (channel < 16)
  | .canIntegrated _ channel => decide (channel < 16)
  | .recovered _ channel => decide (channel < 16)
  | .recover _ _ channel => decide (channel < 16)
  | .flushTx _ _ channel => decide (channel < 16)
  | .clrMax _ _ channel => decide (channel < 16)
  | .canRxError _ channel _ _ => decide (channel < 16)
  | .linSlotStart _ channel _ => decide (channel < 8)
  | .linHeaderRx _ channel id _ _ _ _ => decide (channel < 8) && decide (id < 64)
  | .wake _ _ channel => decide (channel < 8)
  | .linSleep _ _ channel => decide (channel < 8)
  | .wakeRxLin _ channel => decide (channel < 8)
  | .linSchedRestart _ channel => decide (channel < 8)
  | .uartTx _ channel _ => decide (channel < 4)
  | .legacyMessageReceived _ port _ _ => decide (32 ≤ port ∧ port < 60)
  | .acfBatchTimeout _ index => decide (index < 256)
  | .asmPeriod _ index => decide (index < 1024)
  | .asmGapEnd _ index => decide (index < 1024)
  | .signalStale _ signal => decide (signal < 16384)
  | .niuClaim _ inst member _ => decide (inst < 8) && decide (member < 16)
  | .pelAck _ _ seq => decide (seq < 65536)
  | .doorbell _ _ ring _ _ => decide (ring < 32)
  | .descriptorFetch _ ring _ => decide (ring < 32)
  | .itrExpire _ ring => decide (ring < 32)
  | .start _ _ ring => decide (ring < 32)
  | .stop _ _ ring => decide (ring < 32)
  | .resume _ _ ring _ => decide (ring < 32)
  | .stopComplete _ ring _ => decide (ring < 32)
  | .fltAck _ _ seq => decide (seq < 65536)
  | .completionTimeout _ ring _ _ => decide (ring < 32)
  | .remoteRequest _ link _ => decide (link < 2)
  | .ehruzRequest _ port _ _ _ _ _ => decide (port < 32)
  | .flitRx _ link _ => decide (link < 2)
  | .tenonTrained _ link _ _ => decide (link < 2)
  | .tenonIdRetry _ link => decide (link < 2)
  | .tenonCalibrated _ link _ _ => decide (link < 2)
  | .retrain _ _ link => decide (link < 2)
  | .remeasure _ _ link => decide (link < 2)
  | .tenonLaneLoss _ link _ => decide (link < 2)
  | .peerTimeout _ dev => decide (dev < 4)
  | .creditReturn _ link cls _ => decide (link < 2) && decide (cls < 8)
  | .powerOnReset _ pins ringId => decide (pins.bootMode < 4) && decide (ringId < 4)
  | .devRst _ _ key => decide (key < 65536)
  | .hfrcTrim _ ppm _ => decide (ppm.natAbs ≤ 1000000)
  | .pllLoss _ pll => decide (pll < 8)
  | .freqMonitorWindow _ pll _ => decide (pll < 8)
  | .pllRelock _ pll => decide (pll < 8)
  | .modeCmdSentry _ _ key => decide (key < 65536)
  | .modeCmdRun _ _ key => decide (key < 65536)
  | .modeCmdLimp _ _ key => decide (key < 65536)
  | .modeCmdService _ _ key => decide (key < 65536)
  | .modeCmdQuarantine _ _ key => decide (key < 65536)
  | .modeCmdDormant _ _ key => decide (key < 65536)
  | .wakePin _ pin _ _ _ => decide (pin < 8)
  | .tc10WakePulse _ port => decide (port < 20)
  | .otpRead _ _ key => decide (key < 65536)
  | .otpProgram _ _ key => decide (key < 65536)
  | .checkpoint _ _ seq => decide (seq < 65536)
  | .echo _ _ seq => decide (seq < 65536)
  | .version _ _ seq => decide (seq < 65536)
  | .health _ _ seq => decide (seq < 65536)
  | .traceLevel _ _ seq => decide (seq < 65536)
  | .checkpointNow _ _ seq => decide (seq < 65536)
  | .unknownService _ _ seq service => decide (seq < 65536) && decide (service < 256)
  | .rspAck _ _ seq => decide (seq < 65536)
  | .checkerFault _ _ leg _ _ => decide (leg < 3)
  | .split _ _ key => decide (key < 65536)
  | .rejoin _ _ key => decide (key < 65536)
  | .halt _ _ key => decide (key < 65536)
  | .mlogAck _ _ seq => decide (seq < 65536)
  | .enrol _ _ key => decide (key < 65536)
  | .derive _ _ slot parent kind _ => decide (slot < 64) && decide (parent < 64) && decide (kind < 8)
  | .clear _ _ slot => decide (slot < 64)
  | .seal _ _ slot => decide (slot < 64)
  | .unseal _ _ slot => decide (slot < 64)
  | .mac _ _ slot => decide (slot < 64)
  | .verify _ _ key => decide (key < 65536)
  | .armNextStart _ _ target key => decide (target < 4) && decide (key < 65536)
  | .disarm _ _ key => decide (key < 65536)
  | .prepareHitless _ _ target key => decide (target < 4) && decide (key < 65536)
  | .cancelPrep _ _ key => decide (key < 65536)
  | .confirm _ _ key => decide (key < 65536)
  | .revert _ _ key => decide (key < 65536)
  | .ctrSel _ _ counter _ => decide (counter < 32)
  | .registerWrite _ _ _ _ => true
  | .unimplPage _ _ _ _ => true
  | .groupGo _ _ => true
  | .groupAbort _ _ => true
  | .groupValidationDone _ => true
  | .groupApply _ => true
  | .groupSafeTimeout _ => true
  | .snapAll _ _ => true
  | .spillTrainDone _ _ => true
  | .spillLatClr _ _ => true
  | .rseqClr _ _ => true
  | .rebuildDone _ => true
  | .ageingPass _ => true
  | .fdbFlush _ _ _ => true
  | .flushDone _ => true
  | .timeCapture _ _ => true
  | .timeInvalidate _ _ => true
  | .ppsStepArm _ _ => true
  | .ppsStepDisarm _ _ => true
  | .ppsArmTimeout _ => true
  | .rateAdj _ _ _ => true
  | .rateSlewTick _ => true
  | .holdover _ => true
  | .holdoverLong _ => true
  | .ppsOutRise _ => true
  | .ppsOutFall _ => true
  | .stepSet _ _ => true
  | .stepAdd _ _ => true
  | .ppsIn _ _ => true
  | .timeWordTx _ => true
  | .outManual _ _ _ _ => true
  | .pulsePreset _ _ _ => true
  | .pinPulseEnd _ => true
  | .oneshotExecute _ => true
  | .distanceTick _ => true
  | .holdClr _ _ => true
  | .unitCmdDone _ => true
  | .livenessScan _ => true
  | .sessionClr _ _ => true
  | .keyDone _ => true
  | .gclkRestored _ => true
  | .gwRouteProcess _ => true
  | .gwClr _ _ => true
  | .pcieReset _ _ => true
  | .pcieLinkUp _ _ _ _ _ _ => true
  | .msixUnmask _ _ _ => true
  | .brgFenceRead _ _ => true
  | .fenceTimeout _ _ => true
  | .dmaTxFrame _ _ => true
  | .dmaRxFrame _ _ _ => true
  | .dmaChunk _ _ _ _ => true
  | .invCmd _ _ _ => true
  | .invDone _ => true
  | .qspiWrite _ _ => true
  | .qspiRead _ _ _ => true
  | .qspiBusyTimeout _ => true
  | .pinReset _ _ => true
  | .coreBor _ => true
  | .wdtKick _ _ _ => true
  | .wdtWarn _ => true
  | .watchdogReset _ => true
  | .xtalStartCheck _ _ _ => true
  | .lfrcTrim _ => true
  | .xtalFail _ => true
  | .hfrcFail _ => true
  | .gclkSwitch _ => true
  | .gclkSwForced _ => true
  | .xtalBack _ => true
  | .domRstTrestle _ _ _ _ => true
  | .domRstLegacy _ _ => true
  | .domRstPcie _ _ => true
  | .domRstFabric _ _ => true
  | .entryAck _ => true
  | .entryForced _ => true
  | .sentryIdle _ => true
  | .thermal _ => true
  | .limpCauseClear _ _ _ => true
  | .dieTempRefresh _ _ => true
  | .massEmitDone _ => true
  | .rtcAlarm _ => true
  | .powerReturn _ => true
  | .wakeAfterEntry _ => true
  | .pwrGood _ _ => true
  | .pwrGoodTimeout _ => true
  | .wakeRetry _ => true
  | .powerFail _ _ => true
  | .pfClear _ => true
  | .load _ _ => true
  | .capture _ _ => true
  | .bootSequence _ _ _ _ _ _ _ => true
  | .fallbackApply _ => true
  | .flRead _ _ => true
  | .flProgram _ _ => true
  | .erase4k _ _ => true
  | .erase64k _ _ => true
  | .flDone _ _ => true
  | .flEraseTimeout _ => true
  | .otpDone _ _ => true
  | .heartbeat _ _ _ => true
  | .fwStopped _ => true
  | .mismatch _ a b => [a.tc0, a.tc1, a.tc2, b.tc0, b.tc1, b.tc2].all fun l => decide (l.length = 7)
  | .resyncDone _ => true
  | .warmRestart _ _ _ _ => true
  | .agreeSelftest _ _ => true
  | .memoryScrub _ _ _ => true
  | .handoverPoint _ => true
  | .handoverTimeout _ => true
  | .splitDone _ => true
  | .spareViolation _ => true
  | .rejoinDone _ => true
  | .declareSuccessor _ _ => true
  | .withdrawSuccessor _ _ => true
  | .cmdDone _ _ => true
  | .remask _ _ => true
  | .glitch _ => true
  | .verifyDone _ _ => true
  | .armComplete _ _ => true
  | .disarmComplete _ _ => true
  | .prepReady _ _ => true
  | .spareReady _ => true
  | .notReady _ => true
  | .activationDirectoryWrite _ => true
  | .confirmed _ _ _ => true
  | .autoConfirm _ => true
  | .perfClr _ _ _ => true
  | .freeze _ _ _ => true
  | .userEn _ _ _ => true
  | .wearSense _ _ _ => true
  | .tempBinSecond _ => true
  | .lifeRecordWrite _ _ => true
  | .lifeEstimate _ _ => true

end Sys2Proof
end

