-- ==== Sys2Proof/Tests/Slice0.lean ====
section
/-! SUPPORT. Witnesses: for each statement with hypotheses, concrete states and operands that meet them, clause by clause (`Tests.wit_<statement>_<n>`); and a few
tests of the model's own pieces (`Tests.test_<what>`), whose expected values come from the spec. -/
open Sys2Proof Sys2Proof.Machine

namespace Tests
end Tests
open Tests

/-! ## States to start from -/

/-- A small state: reset once the crystal has been accepted, changed by `f`. -/
def Tests.w (f : Chip → Chip) : State :=
  { State.reset with chip := f { State.reset.chip with clk := { State.reset.chip.clk with xtalStart := none, hold := false } } }
/-- A page's `COMMIT_STATUS` with its state. -/
def Tests.inState (p : Page) (n : Nat) (c : Chip) : Chip := c.setReg p 0x02C (BitVec.ofNat 32 (n * 2 ^ 16))

/-- GroupRequests: PULSE and PORT0 masked; each state of a group of PULSE; a member that fails, and one that waits in vain. -/
def Tests.grp (n : Nat) (members : List Nat) (c : Chip) : Chip :=
  { (c.put pSYS F.SYS_GRP_STATUS_STATE n).put pTIME F.TIME_TIME_STATUS_STATE 1 with group := { members := members }, cycles := 5000000 }
def Tests.wop (op : Nat) : WinOp := ⟨op, 0, 255, 9, .trestle, false, 0⟩
/-- A port in a link state, for a while. -/
def Tests.link (n st : Nat) (c : Chip) : Chip := { (c.put (pPORT n) F.PORT_LINK_STATUS_STATE st) with cycles := 1000000000 }
/-- An S port as a PLCA follower that last heard a beacon at reset. -/
def Tests.followerAt (n st : Nat) (c : Chip) : Chip :=
  ((link n st c).setReg (pPORT n) 0x964 0x00200811 |>.put (pPORT n) F.PORT_LINK_STATUS_PLCA_ACTIVE 1).setPortRt n { beacon := some 0 }
/-- A copy of a frame waits at the port. -/
def Tests.queued (n cls : Nat) (c : Chip) : Chip :=
  { c with queues := [(8 * n + cls, { items := [{ fid := 0, bytes := List.replicate 64 0, ingress := 0, origin := 0, egress := n, cls := cls, seq := 0, vid := 1, pcp := 0 }] })] }
/-- A wire port that is UP, enabled for both directions. -/
def Tests.live (n : Nat) (c : Chip) : Chip :=
  (((link n 4 c).put (pPORT n) F.CTRL_EN 1).setReg (pPORT n) 0x944 (c.reg (pPORT n) 0x944 ||| 0xFFFF)).put pTIME F.TIME_TIME_STATUS_STATE 1
def Tests.zeros (n : Nat) : List Byte := List.replicate n 0
/-- A copy at its queue's head since reset, of a held class and of a bulk one; a safe frame. -/
def Tests.copyAt (n cls : Nat) : Copy :=
  { fid := 0, bytes := zeros 60, ingress := 0, origin := 0, egress := n, cls := cls, seq := 0, vid := 1, pcp := 0, head := some 0 }
def Tests.safeAt (n : Nat) : SafeFrame := ⟨0, n, 7, zeros 60, none, 0⟩
/-- A GATE list of port 5 that runs with a deadline of 1 µs. -/
def Tests.gated (c : Chip) : Chip :=
  { live 5 c with queues := [(47, { items := [copyAt 5 7] })], lists := [(0, { state := 2, oper := some ⟨1, 5, 0xFF, 0, 1000, 0, 1, 1⟩ })] }
/-- A copy with a launch time at the head of an S port's queue; a release request whose instant has come. -/
def Tests.launched : Copy := { copyAt 27 7 with launch := some ⟨1000, 0, false, 3⟩ }
def Tests.reqAt (n : Nat) : RelReq := { target := n, r := 0, copy := some (copyAt n 7) }
/-- Queue 43 (egress 5, bulk class 3) with items and a window. -/
def Tests.bulk (items window : List Copy) (c : Chip) : Chip := { c with queues := [(43, { items := items, window := window })], cycles := 10000000 }
def Tests.seqd (n : Nat) : Copy := { copyAt 5 3 with seq := n, fid := n, regime := .bulk }
/-- Three FDB entries: valid, valid and hit, valid and static; the FDB page enabled, its ageing period over. -/
def Tests.aged (c : Chip) : Chip :=
  { ((((c.setTword pFDB 0 8 3 1).setTword pFDB 0 9 3 5).setTword pFDB 0 10 3 3).put pFDB F.CTRL_EN 1) with cycles := 10 ^ 13 }
/-- TIME with a source, in a state, at 10 s with the rate grid behind; firmware running. -/
def Tests.timed (source st : Nat) (c : Chip) : Chip :=
  { ((c.setReg pTIME 0x940 (BitVec.ofNat 32 (source + 0x700))).put pTIME F.TIME_TIME_STATUS_STATE st).put pTRESTLE F.TRESTLE_TR_STATUS_MODE 1 with cycles := 5000000000, timeHfrc := false }
/-- A ring follower with its link 0 up. -/
def Tests.ring (st : Nat) (c : Chip) : Chip :=
  ({ timed 6 st c with headEpoch := some 3 }.put pSYS F.SYS_STRAPS_RING_ID 1).put (pTENON 0) F.TENON_TL_STATUS_STATE 3
/-- Instance 0 a slave on port 0. -/
def Tests.slave (c : Chip) : Chip :=
  (((timed 7 1 c).setReg (pGPTP 0) 0x940 1).setReg (pGPTP 0) 0x944 1).put (pGPTP 0) F.GPTP_INST_STATUS_ROLE 2
/-- A list that runs a descriptor of two entries of 1 us, PULSE and EVIO enabled, the Story pole running. -/
def Tests.desc : LDesc := ⟨1, 5, 255, 0, 2000, 0, 2, 0⟩
def Tests.story (l : ListRt) (c : Chip) : Chip :=
  { (c.put pPWR F.PWR_MODE_STATUS_MODE modeRun).put pTIME F.TIME_TIME_STATUS_STATE 1 with lists := [(0, l)], cycles := 1000000 }
/-- Action 7 armed, of a kind and trigger; the time in a state. -/
def Tests.action (kind trigger time : Nat) (c : Chip) : Chip :=
  { ((((story {} c).put pTIME F.TIME_TIME_STATUS_STATE time).tput pSTORYTBL 1 7 fOsKind kind).tput pSTORYTBL 1 7 fOsTrigger trigger).tput pSTORYTBL 1 7 fOsArg 99
    with ones := [(7, some ⟨5, 0⟩)] }
/-- Pulse input 0 on with its filter at 1; I pin 3 on for both edges; E pins 0 and 1 enabled. -/
def Tests.inputs (c : Chip) : Chip :=
  { (((((((story {} c).put pPULSE F.CTRL_EN 1).put pEVIO F.CTRL_EN 1).setReg pPULSE 0x940 (c.reg pPULSE 0x940 ||| 0x101)).setReg pEVIO 0x940 3).setReg pEVIO 0x950 0x080808)) with
    pulses := [(0, { mLast := some 0, edges := true })], cycles := 1000000000, pinPulses := [⟨1, 1, 0⟩] }
/-- Both logs with entries, the input log full. -/
def Tests.logged (c : Chip) : Chip :=
  { inputs c with ilog := (List.range 64).map fun n => ⟨0, 3, true, 0, n⟩, rlog := [⟨0, 0, 27, false, false, false, 0, 0, 9⟩] }
/-- CINCH enabled, entry 2 in a state with a repeat of 1 ms. -/
def Tests.watching (st : Nat) (c : Chip) : Chip :=
  { ((story {} c).put pCINCH F.CTRL_EN 1).tput pCINCH 0 2 fWtRepeat 1 with watches := [(2, ⟨st, 1000, 1000⟩)] }
/-- FRER works; compound stream 1 with elimination and the latent test, whose timer ran since reset; member 1 in a state. -/
def Tests.frer (st : Nat) (c : Chip) : Chip :=
  { ((((((story {} c).put pFRER F.CTRL_EN 1).tput pFRER 0 1 fCpValid 1).tput pFRER 0 1 fCpElim 1).tput pFRER 0 1 fCpLatEn 1).tput pFRER 1 1 fMbValid 1) with
    comps := [(1, { recov := { timer := some 0 }, latPassed := 100 })], members := [(1, { state := st, lastGood := 0 })], cycles := 30000000000 }
/-- Units 1 and 2 of kind 1 with keys 7 and 9, unit 2 a spare, in states; a unit command waits. -/
def Tests.unitsIn (su sv : UnitRt) (cmd : Nat) (req : Requester) (c : Chip) : Chip :=
  { ((((((((story {} c).put pUNITS F.CTRL_EN 1).put pTRESTLE F.TRESTLE_TR_STATUS_MODE 1).tput pUNITS 0 1 fUnKind 1).tput pUNITS 0 2 fUnKind 1).tput pUNITS 0 2 fUnSpare 1).setTword pUNITS 0 1 1 7).setTword pUNITS 0 2 1 9) with
    units := [(1, su), (2, sv)], unitCmd := some (BitVec.ofNat 32 (cmd * 2 ^ 28 + 0x20001), req), cycles := 10 ^ 12 }
def Tests.session (phase : Nat) (c : Chip) : Chip := { c with sessions := [(4, { state := 1, phase := phase })], cycles := 10 ^ 12 }
/-- A key installation waits; its slot is LIVE and may wrap keys. -/
def Tests.install (c : Chip) : Chip :=
  { c with keyInstall := some ⟨5, 1, []⟩, slots := [(1, { state := 1, policy := 8 })], root := some [1] }
def Tests.canMsg : Msg := { kind := .can, id := 5, data := [1#8, 2#8] }
/-- CAN channel 3 enabled in a state with two queued frames. -/
def Tests.canAt (st : Nat) (c : Chip) : Chip :=
  { (((story {} c).put (pCAN 3) F.CTRL_EN 1).put (pCAN 3) F.CAN_CAN_STATUS_STATE st) with
    cans := [(3, { queue := [{ msg := { canMsg with id := 9 } }, { msg := canMsg }], tec := 3 })] }
/-- LIN channel 2 enabled in a state with a publish buffer for frame 0, whose table 0 has one unconditional entry. -/
def Tests.linAt (st : Nat) (x : LinRt) (c : Chip) : Chip :=
  { ((((((story {} c).put (pLIN 2) F.CTRL_EN 1).put (pLIN 2) F.LIN_LIN_STATUS_STATE st).tput (pLIN 2) 0 0 fFcPublish 1).tput pGW 4 0 fSdValid 1).tput pGW 4 0 fSdCount 1) with
    lins := [(2, { x with bufs := [(0, some ⟨zeros 8, true⟩)] })], cycles := 1000000000 }
/-- UART channel 1 with a queued message; GCLK lost. -/
def Tests.uartAt (c : Chip) : Chip := { (story {} c).put (pUART 1) F.CTRL_EN 1 with uarts := [(1, { queue := [{ msg := { kind := .uart, data := [7#8] } }] })] }
/-- The gateway enabled with a message from CAN channel 0 in its queue; route 5 leads CAN messages to channel 3. -/
def Tests.routed (route : Bool) (c : Chip) : Chip :=
  let c := { ((canAt 2 c).put pGW F.CTRL_EN 1).put pTRESTLE F.TRESTLE_TR_STATUS_MODE 1 with inq := [{ port := 32, msg := some canMsg }] }
  if route then (((c.tput pGW 0 5 fRoValid 1).tput pGW 0 5 fRoPort 32).tput pGW 0 5 fRoCans 8) else c
/-- Interconnect instance 1 on channels 3 and 4, in an address state on channel 3. -/
def Tests.niuAt (st : Nat) (c : Chip) : Chip :=
  { (((routed false c).tput pGW 6 1 fNiValid 1).tput pGW 6 1 fNiChannels 0x18) with nius := [(4, { sa := 0, state := st })] }
/-- ACF stream 2 with an open frame; assembler 2 with a period of 0.1 ms; signal 9 of it with a timeout. -/
def Tests.assembling (x : AsmRt) (c : Chip) : Chip :=
  { (((((routed false c).tput pGW 2 2 fAsValid 1).tput pGW 2 2 fAsPeriod 1).tput pGW 3 9 fSgValid 1).tput pGW 3 9 fSgTmo 1).tput pGW 3 9 fSgAsm 2 with
    acfs := [(2, { msgs := [[1#8]] })], asms := [(2, x)], cycles := 10000000 }
/-- The PCI Express link up with bus mastering, MSI-X enabled; vector 3 masked with a message pending. -/
def Tests.hosted (c : Chip) : Chip :=
  (((((story {} c).put pHOST F.HOST_PCIE_STATUS_LINK_UP 1).put pHOST F.HOST_PCIE_STATUS_BME 1).put pHOST F.HOST_PCIE_STATUS_MSIX_EN 1).setReg pHOST 0x380 8).setReg pHOST 0x43C 1
/-- Ring 17 in a state, 8 descriptors from 2^20 on, no translation; port 30 forwards frames up to 1522 bytes. -/
def Tests.dmaRing (r st : Nat) (x : RingRt) (c : Chip) : Chip :=
  (((((hosted c).put pDMA F.CTRL_EN 1).setReg pDMA (ringOff r 0x208 + 0x600) 0x0C000008).setReg pDMA (ringOff r 0x200 + 0x600) 0x100000).setReg pDMA (ringOff r 0x20C + 0x600) 0x00801001
    |>.ringPut r F.DMA_RSTATUS_STATE st |>.ringPut r F.DMA_RTAIL_V 2).setRing r x
/-- Host memory: a descriptor of one 64-byte frame at 2^20, the frame at 0. -/
def Tests.hostMem : List MemSeg := [⟨0x100000, [0, 0, 0, 0, 0, 0, 64, 0, 3] ++ zeros 23⟩, ⟨0, zeros 512⟩]
def Tests.txDesc (n : Nat) : TxDesc := ⟨0, 0, n, true, true, 0, none⟩
/-- A QSPI transaction with its CRC. -/
def Tests.qs (bs : List Byte) : List Byte := bs ++ [crc8 bs]
/-- Receive ring 1 runs with a held frame; port 30 up for both directions. -/
def Tests.rxHeldAt (c : Chip) : Chip :=
  { (((live 30 (dmaRing 1 1 {} c)).put pFAB F.FAB_FAB_STATUS_HALTED 0).setReg pDMA 0x940 0x11111111) with rxHeld := [(1, copyAt 30 0)] }
/-- Two translations, an invalidation of context 2 in progress. -/
def Tests.tlbs (invs : List InvCmd) (c : Chip) : Chip :=
  { story {} c with tlb := [⟨1, 0, false, 0, true, true⟩, ⟨2, 4096, false, 0, true, true⟩], invs := invs }
/-- Link 0 in a state with ring ID 2 beyond it; firmware runs. -/
def Tests.tenonAt (st : Nat) (x : TenonRt) (c : Chip) : Chip :=
  (((((story {} c).put pTRESTLE F.TRESTLE_TR_STATUS_MODE 1).put (pTENON 0) F.TENON_TL_STATUS_STATE st).put (pTENON 0) F.TENON_TL_STATUS_PEER_RING_ID 2).setReg (pTENON 0) 0x940 0x404).setTenon 0 x
def Tests.reqTo (write : Bool) : RemoteReq := ⟨.trestle, write, 2, 0x3C, 7, 0, 0, 0, false, false⟩
def Tests.ringed (write en : Bool) (c : Chip) : Chip :=
  { (((tenonAt 3 {} c).setReg pTRING 0x948 (if en then 0x1F1AD else 0)).put pTRING { F.TRING_DOMAIN_CFG_ID_VALID with off := F.TRING_DOMAIN_CFG_ID_VALID.off + 0x800 } 1) with
    remotes := [reqTo write], undecided := [(3, 1)], cycles := 10 ^ 6 }
/-- The crystal in its start check; running; the HFRC trimmed with automatic trims. -/
def Tests.starting (fails : Nat) (por : Bool) (c : Chip) : Chip := { story {} c with clk := { xtalStart := some (0, fails, por) }, cycles := 10 ^ 9 }
def Tests.clocked (trimmed : Nat) (x : ClkRt) (c : Chip) : Chip :=
  { ((((story {} c).put pCLK F.CLK_XTAL_STATUS_RUNNING 1).put pCLK F.CLK_HFRC_STATUS_TRIMMED trimmed).put pCLK F.CLK_HFRC_CFG_TRIM_AUTO 1).put pCLK F.CLK_PLL_STATUS_POWERED 255 with
    clk := x, cycles := 10 ^ 9 }
/-- The watchdog on since reset. -/
def Tests.dog (c : Chip) : Chip := { (story {} c).put pRST F.RST_WDT_CFG_EN 1 with cycles := 10 ^ 12 }
def Tests.moded (m : Nat) (c : Chip) : Chip := { (story {} c).put pPWR F.PWR_MODE_STATUS_MODE m with cycles := 10 ^ 12 }
def Tests.entering (t : Nat) (c : Chip) : Chip := { moded 2 c with pwr := { entry := some ⟨t, 0, true⟩ } }
/-- In DORMANT with all sources targeting RUN and enabled, the alarm at second 0. -/
def Tests.asleep (x : AonRt) (c : Chip) : Chip :=
  { ((((c.setReg pAON 0x144 0x2AAAAA).setReg pAON 0x140 0xFFFF).setReg pAON 0x148 0x40).setReg pAON 0x170 0x80000000).setReg pAON 0x16C 2000 with
    dormant := true, aon := x, cycles := 10 ^ 12 }
/-- The boot memory ready with 64 MiB and an operation waiting; its data erased elsewhere. -/
def Tests.xmem (cmd result : Nat) (c : Chip) : Chip :=
  { (moded 2 c).setReg pXMEM 0x140 0x601 with flOps := [⟨1, cmd, 0x20000, 4, [1, 2, 3, 4], result, 0, false⟩] }
def Tests.otpAt (m : Nat) (o : Option OtpOp) (c : Chip) : Chip := { (moded m c).setReg pBOOT 0x1C0 13 with otpOp := o }
def Tests.dir0 : BootDir := { copy := 0, seq := 0, regions := [], active := 0, trial := false, left := 0 }
/-- A fallback container, with a list that no page takes or without lists; LIMP entered with the fallback due. -/
def Tests.fb (bad : Bool) : ImgHead :=
  { magic := 0, ver := 1, kind := 2, secVer := 0, release := 0, count := 0, total := 0, covered := [], meas := [], pub := [], sig := []
    segs := if bad then [{ type := 16, target := 0, off := 0, len := 8, digest := Config.sha384 (flashRead [] 0 8) }] else [] }
def Tests.limped (h : Option ImgHead) (c : Chip) : Chip :=
  { (moded 3 c).setReg pXMEM 0x140 0x601 with pwr := { fallbackDue := true }, boot := { c.boot with dir := some dir0, fallback := h } }
/-- The cluster in a mode with status bits, and what it keeps. -/
def Tests.cluster (mode : Nat) (bits : Nat) (x : TrRt) (c : Chip) : Chip :=
  { (moded 2 c).setReg pTRESTLE 0x140 (BitVec.ofNat 32 (mode + bits)) with tr := x }
def Tests.working (kind : Nat) (h : Option Nat) : TrRt := { work := some ⟨kind, 0, h, true⟩, ckptAt := 9, violated := some 5 }
/-- An operation at the head of the queue; the root there; slot 3 LIVE for every use, slot 7 EMPTY; a label of 4 bytes. -/
def Tests.prisil (o : PrisilOp) (root : Option (List Byte)) (c : Chip) : Chip :=
  { (moded 2 c).setRegAt (sideKey pPRISIL 0x164 1) 0x00040400 with prisilOps := [o], root := root, slots := [(3, { state := 1, policy := 0x17 })] }
/-- The UPD page in a stage with a command in progress and a verified image of a kind; the directory there, in trial or not. -/
def Tests.updating (stage kind : Nat) (cmd : Option (Nat × Nat)) (trial : Bool) (c : Chip) : Chip :=
  { ((cluster 3 0x400 (working 3 (some 5)) c).put pUPD F.UPD_UPD_STATUS_STAGE stage).put pUPD F.UPD_UPD_STATUS_TRIAL trial.toNat with
    upd := { image := some { fb false with kind := kind, segs := [] }, cmd := cmd, dirDue := true }
    boot := { c.boot with dir := some { dir0 with regions := [(0x20000, 0x20000), (0x40000, 0x20000), (0x60000, 0x20000), (0x80000, 0x20000)], trial := trial } } }
/-- Firmware runs, the boot memory answers; sensors last read at reset; a second to bin; a far mechanism and a near one. -/
def Tests.ageing (c : Chip) : Chip := { cluster 3 0 {} c with wear := { peak := some 85 }, cycles := 10 ^ 13, slots := [(0, { state := 1, value := [1] })], boot := { dir := some { dir0 with regions := (List.range 9).map fun k => (0x100000 * k, 0x80000) } } }.setReg pXMEM 0x140 0x601
def Tests.mechs : List Mech := [⟨2, true, 300, 900, 2000, 40⟩, ⟨3, true, 100, 100, 100, 5⟩]

/-! ## Witnesses -/

/-- CommitRequests: an idle page, with a valid time; a request in each state; one that waits in vain. -/
theorem Tests.wit_CommitRequests_1 : let c := (w fun c => c.put pTIME F.TIME_TIME_STATUS_STATE 1).chip.pass 0
    (pageValid pPULSE && c.takes .qspi && !c.locked pPULSE && decide (c.commitState pPULSE = 0) && c.timeValid) = true := by decide
theorem Tests.wit_CommitRequests_2 : let c := (w (inState (pLIN 0) 1)).chip.pass 0
    (pageValid (pLIN 0) && c.takes .trestle && decide (c.commitState (pLIN 0) = 1)) = true := by decide
/-- An enabled CAN channel: its safe point is an event. -/
theorem Tests.wit_CommitRequests_3 : let c := (w fun c => (inState (pCAN 15) 1 c).put (pCAN 15) F.CTRL_EN 1).chip.pass 0
    (c.live (pCAN 15) && decide ((c.validate (pCAN 15) [pageIdx (pCAN 15)]).1 = 0 ∧ (c.commitRt (pCAN 15)).atTime = false
      ∧ c.safeNow (pCAN 15) = false ∧ c.commitState (pCAN 15) = 1)) = true := by decide
/-- One bound to an armed action of the commit kind; one whose RATE is out of range. -/
theorem Tests.wit_CommitRequests_4 : let c := (w fun c => ((inState pPULSE 1 c).setCommitRt pPULSE { atTime := true, handle := 4095 }) |>.tput pSTORYTBL 1 4095 fOsState oARMED |>.tput pSTORYTBL 1 4095 fOsKind 1).chip.pass 0
    (c.live pPULSE && c.handleOk 4095 && decide ((c.validate pPULSE [pageIdx pPULSE]).1 = 0 ∧ (c.commitRt pPULSE).atTime = true ∧ c.commitState pPULSE = 1)) = true := by decide
theorem Tests.wit_CommitRequests_5 : let c := (w fun c => (inState (pPORT 0) 1 c).put (pPORT 0) F.PORT_RATE_CFG_RATE 7).chip.pass 0
    (c.live (pPORT 0) && decide ((c.validate (pPORT 0) [pageIdx (pPORT 0)]).1 ≠ 0 ∧ c.commitState (pPORT 0) = 1)) = true := by decide
theorem Tests.wit_CommitRequests_6 : let c := (w fun c => (inState pFDB 2 { c with cycles := 5000000 })).chip.pass 0
    (decide (c.commitState pFDB = 2 ∧ (c.commitRt pFDB).since + c.safeTmo ≤ c.cycles ∧ eventSafe pFDB = true)) = true := by decide

theorem Tests.wit_GroupRequests_1 : let c := (w fun c => (grp 0 [] c).setReg pSYS 0x17C 0x00400000).chip.pass 0
    (c.takes .pcie && decide (c.groupState = 0 ∧ c.masked = [118]) && c.timeValid && decide (c.commitState pPULSE = 0)) = true := by decide
theorem Tests.wit_GroupRequests_2 : let c := (w (grp 1 [118])).chip.pass 0
    (decide (c.groupState = 1) && (c.group.members.all fun i => decide ((c.memberCheck i).1 = 0)) && !c.group.atTime) = true := by decide
theorem Tests.wit_GroupRequests_3 : let c := (w fun c => (grp 1 [90] c).put (pCAN 0) F.CTRL_EN 1).chip.pass 0
    (decide (c.groupState = 1) && (c.group.members.all fun i => decide ((c.memberCheck i).1 = 0)) && !c.groupSafe false) = true := by decide
theorem Tests.wit_GroupRequests_4 : let c := (w fun c => { grp 1 [118] c with group := { atTime := true, handle := 4095, members := [118] } }
      |>.tput pSTORYTBL 1 4095 fOsState oARMED |>.tput pSTORYTBL 1 4095 fOsKind 1).chip.pass 0
    (decide (c.groupState = 1) && (c.group.members.all fun i => decide ((c.memberCheck i).1 = 0)) && c.handleOk c.group.handle) = true := by decide
theorem Tests.wit_GroupRequests_5 : let c := (w fun c => (grp 1 [30] c).put (pPORT 0) F.PORT_RATE_CFG_RATE 7).chip.pass 0
    decide (c.groupState = 1 ∧ c.group.members.find? (fun i => decide ((c.memberCheck i).1 ≠ 0)) = some 30) = true := by decide
theorem Tests.wit_GroupRequests_6 : let c := (w (grp 2 [118])).chip.pass 0
    (decide (c.groupState = 2) && c.groupSafe true && c.groupPages.all fun p => c.live p) = true := by decide
theorem Tests.wit_GroupRequests_7 : let c := (w fun c => (grp 2 [90] c).put (pCAN 0) F.CTRL_EN 1).chip.pass 0
    decide (c.groupState = 2 ∧ c.group.since + c.safeTmo ≤ c.cycles ∧ c.groupSafe false = false) = true := by decide
/-- CommitApplies, HeaderWrites, Snapshots, PlainAccesses. -/
theorem Tests.wit_CommitApplies : let c := (w (inState (pPORT 30) 2)).chip.pass 0
    (pageValid (pPORT 30) && c.live (pPORT 30) && decide (c.commitState (pPORT 30) = 2) && c.safePoint (pPORT 30) (c.commitRt (pPORT 30)).since) = true := by decide
theorem Tests.wit_HeaderWrites : let c := (w id).chip.pass 0
    (pageValid pGW && c.takes .peer && decide (c.commitState pGW = 0) && !c.locked pGW && !noSoftReset pGW) = true := by decide
theorem Tests.wit_Snapshots : let c := (w fun c => (c.addCnt pBUF 3 7).snapTake pBUF).chip.pass 0
    (pageValid pBUF && hasSnap pBUF && c.takes .qspi && c.snapBusy pBUF && !c.snapAll.contains (pageIdx pBUF) && canonical (fun _ => 0#48) c.cnt) = true := by decide
/-- TableCommands, TableOperationsEnd: table 0 of BUF, a staged table. -/
theorem Tests.wit_TableCommands : let c := (w id).chip.pass 0
    (pageValid pBUF && hasTable pBUF && c.takes .trestle && !c.locked pBUF && decide (c.win pBUF 1 = none ∧ c.commitState pBUF = 0)) = true := by decide
theorem Tests.wit_TableOperationsEnd_read : let c := (w fun c => c.setWin pBUF 1 (some (wop 1))).chip.pass 0
    (!c.tblWaits pBUF (wop 1) && !c.tblMode pBUF && decide (c.win pBUF 1 = some (wop 1) ∧ tblInfo pBUF 0 = some ⟨256, 1, .staged⟩)) = true := by decide
theorem Tests.wit_TableOperationsEnd_write : let c := (w fun c => c.setWin pBUF 1 (some (wop 3))).chip.pass 0
    (!c.tblWaits pBUF (wop 3) && !c.tblMode pBUF && !c.locked pBUF && decide (c.win pBUF 1 = some (wop 3) ∧ c.commitState pBUF = 0)) = true := by decide
theorem Tests.wit_PlainAccesses : let c := (w id).chip.pass 0
    (c.takes .qspi && pageValid (pUART 3) && decide (c.get (pUART 3) F.ERR_CAUSE_CODE = 0 ∧ c.get pSYS F.ERR_CAUSE_CODE = 0
      ∧ pageOfAddr 0xFFF000 = none)) = true := by decide

theorem Tests.wit_LinkEvents_1 : let c := (w (link 5 1)).chip.pass 0
    (isWire 5 && !isS 5 && decide (c.linkState 5 = 1) && !c.testing 5) = true := by decide
theorem Tests.wit_LinkEvents_2 : let c := (w (link 19 2)).chip.pass 0
    (isWire 19 && decide (c.linkState 19 = 2 ∧ c.trainLimit 19 = some 100000000 ∧ 100000000 ≤ c.linkAge 19)) = true := by decide
theorem Tests.wit_LinkEvents_3 : let c := (w (link 8 3)).chip.pass 0
    (isWire 8 && (isB 8 || isG 8) && decide (c.linkState 8 = 3 ∧ msCycles 6 ≤ c.linkAge 8)) = true := by decide
theorem Tests.wit_LinkEvents_4 : let c := (w (link 7 4)).chip.pass 0
    (isWire 7 && (isB 7 || isX 7 || isG 7) && decide (c.linkState 7 = 4)) = true := by decide
theorem Tests.wit_LinkEvents_5 : let c := (w (followerAt 27 1)).chip.pass 0
    (isWire 27 && c.follower 27 && !c.testing 27 && decide (c.linkState 27 = 1)) = true := by decide
theorem Tests.wit_LinkEvents_6 : let c := (w (followerAt 27 4)).chip.pass 0
    (c.follower 27 && decide (c.linkState 27 = 4 ∧ (c.portRt 27).beacon = some 0 ∧ 0 + msCycles 2 ≤ c.cycles)
      && c.is (pPORT 27) F.PORT_LINK_STATUS_PLCA_ACTIVE) = true := by decide
theorem Tests.wit_LinkEvents_7 : let c := (w (link 20 4)).chip.pass 0
    (isS 20 && c.is (pPORT 20) F.PORT_PLCA_CFG_PLCA_EN && c.linkUp 20 && decide (c.get (pPORT 20) F.PORT_PLCA_CFG_NODE_ID = 0)) = true := by decide
theorem Tests.wit_LinkCommands_1 : let c := (w (link 0 6)).chip.pass 0
    (isWire 0 && c.takes .qspi && !isS 0 && !c.testing 0 && hasTc10 0 && decide (c.linkState 0 = 6)) = true := by decide
theorem Tests.wit_LinkCommands_2 : let c := (w (followerAt 20 4)).chip.pass 0
    (isS 20 && !c.sAlone 20 && hasTc10 20 && decide (c.linkState 20 = 4)) = true := by decide
theorem Tests.wit_LinkCommands_3 : let c := (w fun c => (link 20 4 c).put pCLK F.CLK_XTAL_STATUS_RUNNING 1).chip.pass 0
    (isWire 20 && isS 20 && c.sAlone 20 && c.is pCLK F.CLK_XTAL_STATUS_RUNNING && !c.testing 20 && decide (c.linkState 20 ≠ 0)) = true := by decide
theorem Tests.wit_SleepAndWake_1 : let c := (w (link 5 4)).chip.pass 0
    (hasTc10 5 && decide (c.linkState 5 = 4) && c.is (pPORT 5) F.PORT_TC10_CFG_SLEEP_ACCEPT) = true := by decide
theorem Tests.wit_SleepAndWake_2 : let c := (w fun c => (link 5 4 c).setReg (pPORT 5) 0x954 0).chip.pass 0
    (decide (c.linkState 5 = 4) && !c.is (pPORT 5) F.PORT_TC10_CFG_SLEEP_ACCEPT) = true := by decide
theorem Tests.wit_SleepAndWake_3 : let c := (w (link 5 5)).chip.pass 0
    (hasTc10 5 && decide (c.linkState 5 = 5) && c.egressEmpty 5) = true := by decide
theorem Tests.wit_SleepAndWake_4 : let c := (w fun c => queued 5 3 (link 5 5 c)).chip.pass 0
    (decide (c.linkState 5 = 5 ∧ usCycles (100 * c.get (pPORT 5) F.PORT_TC10_CFG_SLEEP_DRAIN) ≤ c.linkAge 5) && !c.egressEmpty 5) = true := by decide
theorem Tests.wit_PhyOperations_1 : let c := (w fun c => ((link 5 4 c).put (pPORT 5) F.PORT_PREEMPT_STATUS_VERIFY 2).setPortRt 5 { verifyTries := 2 }).chip.pass 0
    (pageValid (pPHY 5) && decide (c.linkState 5 = 4 ∧ c.get (pPORT 5) F.PORT_PREEMPT_STATUS_VERIFY = 2
      ∧ c.get (pPORT 5) F.PORT_PREEMPT_CFG_VERIFY_LIMIT ≤ (c.portRt 5).verifyTries + 1)) = true := by decide
theorem Tests.wit_PhyOperations_2 : let c := (w fun c => (link 27 1 c).put (pPHY 27) F.PHY_CABLE_DIAG_RESULT_BUSY 1).chip.pass 0
    (pageValid (pPHY 27) && c.takes .trestle && c.is (pPHY 27) F.PHY_CABLE_DIAG_RESULT_BUSY && !c.locked (pPHY 27)
      && decide (c.linkState 27 = 1 ∧ c.commitState (pPHY 27) = 0)) = true := by decide

theorem Tests.wit_FrameReceptions_error : let c := (w (live 20)).chip.pass 0
    (isWire 20 && c.receives 20 && decide (c.rxOf 20 = none) && (macError 20 63 (c.get (pPORT 20) F.PORT_MAC_CFG_MAX_LEN) .codeError).isSome) = true := by decide
theorem Tests.wit_FrameReceptions_good : let c := (w (live 20)).chip.pass 0
    decide (c.rxOf 20 = none ∧ macError 20 ((zeros 60).length + 4) (c.get (pPORT 20) F.PORT_MAC_CFG_MAX_LEN) .good = none ∧ beAt (zeros 60) 12 2 ≠ 0x8808 ∧ c.secyAt 20 = none
      ∧ beAt (zeros 12 ++ [0x88, 0x08] ++ zeros 46) 12 2 = 0x8808) = true := by decide
theorem Tests.wit_FrameReceptions_verify : let c := (w fun c => (live 19 c).put (pPORT 19) F.PORT_PREEMPT_STATUS_VERIFY 2).chip.pass 0
    (isWire 19 && c.receives 19 && decide (c.linkState 19 = 4 ∧ c.get (pPORT 19) F.PORT_PREEMPT_STATUS_VERIFY = 2)) = true := by decide
theorem Tests.wit_EgressStarts_copy : let c := (w fun c => { live 5 c with queues := [(47, { items := [copyAt 5 7] })] }).chip.pass 0
    (c.sends 5 && c.opportunity 5 && decide (c.txOf 5 = none ∧ c.pick 5 = some (.copy (copyAt 5 7)))
      && (((c.takeCopy 5 (copyAt 5 7)).prepare (copyAt 5 7) false .good).2.isSome)
      && ((c.takeCopy 5 (copyAt 5 7)).prepare (copyAt 5 7) false .good).1.tWait.isEmpty) = true := by decide
theorem Tests.wit_EgressStarts_safe : let c := (w fun c => { live 5 c with safeFrames := [safeAt 5] }).chip.pass 0
    decide (c.safeOf 5 = some (safeAt 5) ∧ c.secyAt 5 = none ∧ c.tWait = []) = true := by decide
theorem Tests.wit_EgressEnds : let c := (w fun c => (live 5 c).setTx 5 (some (copyAt 5 7))).chip.pass 0
    (isWire 5 && decide (c.txOf 5 = some (copyAt 5 7) ∧ c.tWait = [])) = true := by decide
theorem Tests.wit_GateDeadlines : let c := (w gated).chip.pass 0
    decide (c.gateDeadline 5 = some (0, 500) ∧ c.headOf 5 7 = some (copyAt 5 7) ∧ 0 + 500 ≤ c.cycles ∧ c.tWait = []) = true := by decide
theorem Tests.wit_TimedRelease_request : let c := (w fun c => { live 27 c with queues := [(223, { items := [launched] })], cycles := 0 }).chip.pass 0
    decide (isS 27 = true ∧ (c.queue (qIndex 27 7)).next.find? (fun k => k.launch.isSome && k.present) = some launched ∧ c.noRelease = false ∧ c.localNs ≤ c.effect 1000 - c.leadNs 0
      ∧ c.effect 1000 - c.leadNs 0 ≤ c.localNs + 4000000000 ∧ (c.relsOf 27).length < relCapacity 27) = true := by decide
theorem Tests.wit_TimedRelease_start : let c := (w fun c => { live 27 c with rels := [reqAt 27] }).chip.pass 0
    (decide (c.relDue 27 = some (reqAt 27) ∧ c.safeOf 27 = none ∧ c.txOf 27 = none) && c.sends 27 && c.opportunity 27
      && (c.prepare (copyAt 27 7) true .good).2.isSome) = true := by decide

theorem Tests.wit_ReorderWindow_1 : let c := (w (bulk [seqd 0] [])).chip.pass 0
    (!c.heldClass 3 && decide ((c.queue 43).toWindow.find? Copy.present = some (seqd 0) ∧ seqAhead 0 ((c.queue 43).expectedOf 0) = 0)) = true := by decide
theorem Tests.wit_ReorderWindow_2 : let c := (w (bulk [seqd 5] [])).chip.pass 0
    (!c.heldClass 3 && decide ((c.queue 43).toWindow.find? Copy.present = some (seqd 5) ∧ 0 < seqAhead 5 ((c.queue 43).expectedOf 0)
      ∧ seqAhead 5 ((c.queue 43).expectedOf 0) ≤ 32767 ∧ (c.queue 43).window.length < 1024 ∧ (c.queue 43).lost = []
      ∧ ∀ j ∈ (c.queue 43).window, j.ingress = 0 → j.seq ≠ (c.queue 43).expectedOf 0)) = true := by decide
theorem Tests.wit_ReorderWindow_3 : let c := (w (bulk [seqd 65535] [])).chip.pass 0
    (!c.heldClass 3 && decide ((c.queue 43).toWindow.find? Copy.present = some (seqd 65535) ∧ 32767 < seqAhead 65535 ((c.queue 43).expectedOf 0))) = true := by decide
theorem Tests.wit_ReorderWindow_4 : let c := (w (bulk [] [seqd 5])).chip.pass 0
    (!c.heldClass 3 && decide ((c.queue 43).gapOpener 0 = some (seqd 5) ∧ (seqd 5).winDue ≤ c.cycles ∧ (c.queue 43).firstWaiting 0 = some (seqd 5)
      ∧ (c.queue 43).lost = [])) = true := by decide
theorem Tests.wit_SpillPath_read : let c := (w (bulk [{ seqd 0 with spilled := true }] [])).chip.pass 0
    (!c.heldClass 3 && decide (nextRead (c.queue 43).items = some { seqd 0 with spilled := true } ∧ c.returnBytes + 60 + 4 ≤ 262144)) = true := by decide
theorem Tests.wit_SpillPath_buffered : let c := (w (bulk [{ seqd 0 with spilled := true, writing := true }] [])).chip.pass 0
    (!c.heldClass 3 && decide (nextRead (c.queue 43).items = some { seqd 0 with spilled := true, writing := true })) = true := by decide
theorem Tests.wit_SpillPath_done : let c := (w (bulk [{ seqd 0 with spilled := true, reading := some 0 }] [])).chip.pass 0
    (!c.heldClass 3 && decide ((c.queue 43).items.find? (fun j => j.spilled && !j.back && j.reading.isSome) = some { seqd 0 with spilled := true, reading := some 0 })) = true := by decide
theorem Tests.wit_SpillPath_train : (let c := (w fun c => { c.put pCLK F.CLK_PLL_STATUS_LOCKED 64 with spillTraining := true }).chip.pass 0
    c.spillTraining && (c.get pCLK F.CLK_PLL_STATUS_LOCKED).testBit 6) = true := by decide
theorem Tests.wit_FdbUpkeep_age : let c := (w aged).chip.pass 0
    (c.ready pFDB && decide (secCycles (c.get pFDB F.FDB_FDB_CFG_AGE_TIME) ≠ 0 ∧ c.ageAt + secCycles (c.get pFDB F.FDB_FDB_CFG_AGE_TIME) ≤ c.cycles)
      && c.takes .trestle && decide (c.flush = none)) = true := by decide
theorem Tests.wit_FdbUpkeep_flush : let c := (w fun c => { aged c with flush := some 0x80000000 }).chip.pass 0
    (decide (c.flush = some 0x80000000) && c.flushMatches 0x80000000 8 && !c.flushMatches 0x80000000 10) = true := by decide
theorem Tests.wit_FdbUpkeep_rebuild : ((w fun c => c.put pFAB F.FAB_FAB_STATUS_REBUILD 1).chip.pass 0).is pFAB F.FAB_FAB_STATUS_REBUILD = true := by decide

theorem Tests.wit_TimeSteps_step : let c := (w (timed 7 0)).chip.pass 0
    (c.takes .qspi && mayStep c.source .qspi false && mayStep c.source .qspi true && decide (c.timeState = tINVALID ∧ c.mode ≠ modeSentry ∧ c.lossAt = none) && !c.stepNsBad
      && decide ((c.localNs + 2 ^ 32 - c.get pTIME F.TIME_STEP_REF_STAMP_STAMP) % 2 ^ 32 < 2 ^ 31) && !c.is pTIME F.TIME_STEP_NS_NEG
      && c.is pTIME F.TIME_TIME_CFG_PPS_IN_EN && c.is pTIME F.TIME_TIME_CFG_PPS_IN_EDGE && decide (c.ppsArm = none)) = true := by decide
theorem Tests.wit_TimeSteps_back : let c := (w fun c => (timed 7 0 c).setReg pTIME 0x160 0x80000001).chip.pass 0
    (c.is pTIME F.TIME_STEP_NS_NEG && decide (c.stepAmount ≤ c.localTime) && !c.stepNsBad && decide (c.timeState = tINVALID)) = true := by decide
theorem Tests.wit_TimeSteps_locked : let c := (w (timed 7 1)).chip.pass 0
    (c.takes .qspi && mayStep c.source .qspi false && decide (c.timeState ≠ tINVALID)) = true := by decide
theorem Tests.wit_TimeSteps_arm : let c := (w fun c => { timed 7 0 c with ppsArm := some ⟨5, 2, 0, false⟩ }).chip.pass 0
    (c.takes .qspi && decide (c.ppsArm = some ⟨5, 2, 0, false⟩ ∧ 0 + secCycles 2 ≤ c.cycles)) = true := by decide
theorem Tests.wit_TimeSteps_edge : let c := (w fun c => { timed 7 0 c with ppsArm := some ⟨5, 2, 4900000000, false⟩ }).chip.pass 0
    (c.is pTIME F.TIME_TIME_CFG_PPS_IN_EN && decide (c.ppsArm = some ⟨5, 2, 4900000000, false⟩ ∧ c.cycles < 4900000000 + secCycles 2
      ∧ c.mode ≠ modeSentry ∧ c.lossAt = none ∧ c.timeState = tINVALID)) = true := by decide
theorem Tests.wit_TimeStates_valid : let c := (w fun c => { timed 7 1 c with corrAt := 0 }).chip.pass 0
    (c.takes .qspi && decide (c.timeState = tTRACKING ∧ c.corrAt + msCycles (c.get pTIME F.TIME_HOLDOVER_CFG_DETECT) ≤ c.cycles) && c.timeValid
      && c.is pTIME F.TIME_TIME_CFG_PPS_OUT_EN
      && decide (c.ppsOld = none ∧ (c.localTime + c.get pTIME F.TIME_PPS_OUT_ADV_PS * 2 ^ 40 / 1000) % secondFine < c.incr)
      && decide (c.stepAt ≠ some c.sclk)) = true := by decide
theorem Tests.wit_TimeStates_rate : let c := (w (timed 0 1)).chip.pass 0
    (c.takes .qspi && !c.locked pTIME && mayRate c.source .qspi && !mayRate c.source .trestle && decide ((100 : Word).toInt ≤ 65536000)
      && decide (-65536000 ≤ (100 : Word).toInt ∧ c.slewIndex < c.mono / 1000000 ∧ c.source ≠ 7 ∧ c.timeHfrc = false)) = true := by decide
theorem Tests.wit_TimeStates_long : let c := (w fun c => (timed 0 2 c).setReg pTIME 0x944 0x00010001).chip.pass 0
    decide (c.timeState = tHOLDOVER ∧ c.get pTIME F.TIME_HOLDOVER_CFG_LONG ≠ 0 ∧ c.holdoverLong = false
      ∧ c.holdoverAt + secCycles (c.get pTIME F.TIME_HOLDOVER_CFG_LONG) ≤ c.cycles) = true := by decide
theorem Tests.wit_TimeStates_pps : let c := (w fun c => { timed 0 1 c with ppsOut := some 7 }).chip.pass 0
    decide (c.ppsOut = some 7 ∧ 7 ≤ c.cycles) = true := by decide
theorem Tests.wit_TimeDistribution_word : let c := (w (ring 0)).chip.pass 0
    decide (c.tlState 0 = tlUP ∧ c.ringId ≠ 0 ∧ c.source = 6 ∧ 0 = c.timeLink ∧ c.timeState = tINVALID ∧ c.lossAt = none) = true := by decide
theorem Tests.wit_TimeDistribution_valid : let c := (w (ring 1)).chip.pass 0
    decide (0 = c.timeLink ∧ c.timeState ≠ tINVALID ∧ c.headEpoch = some 3) = true := by decide
theorem Tests.wit_TimeDistribution_head : ((w id).chip.pass 0).ringId = 0 := by decide
theorem Tests.wit_TimeDistribution_sync : let c := (w slave).chip.pass 0
    (c.gptpOn 0 0 && decide (c.get (pGPTP 0) F.GPTP_INST_STATUS_ROLE = gSLAVE ∧ c.get (pGPTP 0) F.GPTP_INST_STATUS_SLAVE_PORT = 0 ∧ c.source ≠ 1)
      && c.fwRuns && c.is (pGPTP 0) F.GPTP_INST_CFG_EN && !(c.ptpRt 0).silent && !c.is (pGPTP 0) F.GPTP_INST_STATUS_GM_PRESENT
      && decide ((c.ptpRt 0).lastSync + c.get (pGPTP 0) F.GPTP_INTERVALS_SYNC_RX_TIMEOUT * c.syncInterval 0 ≤ c.cycles)) = true := by decide
/-- Instance 0 has a master port with its link up. -/
def Tests.mastered (c : Chip) : Chip :=
  ((((slave c).put (pGPTP 0) F.GPTP_INST_STATUS_ROLE 1).put (pGPTP 0) F.GPTP_INST_STATUS_GM_PRESENT 1).tput (pGPTP 0) 0 0 fPdRole 1).put (pPORT 0) F.PORT_LINK_STATUS_STATE 4
theorem Tests.wit_TimeDistribution_tx : let c := (w mastered).chip.pass 0
    (c.is (pGPTP 0) F.GPTP_INST_STATUS_GM_PRESENT && decide (c.get (pGPTP 0) F.GPTP_INST_STATUS_ROLE = 1 ∧ c.masterList 0 = [0] ∧ c.delayPorts 0 = [0])) = true := by decide
/-- An Announce of another device. -/
def Tests.path : AnnouncePath := ⟨0, (Config.clockIdentity.toNat + 1) * 2 ^ 16, 0xA0⟩
theorem Tests.wit_TimeDistribution_announce : let c := (w fun c => (slave c).put (pPORT 0) F.PORT_LINK_STATUS_STATE 4).chip.pass 0
    (c.gptpOn 0 0 && decide (c.tm.offers = []) && c.linkUp 0 && decide ((c.ownOffer 0).prio1 = 255)) = true := by decide
theorem Tests.wit_TimeDistribution_path : ¬ path.sender / 2 ^ 16 % 2 ^ 64 = Config.clockIdentity.toNat := by
  have := Config.clockIdentity.isLt
  rw [show path.sender = (Config.clockIdentity.toNat + 1) * 2 ^ 16 from rfl]; omega
theorem Tests.wit_TimeDistribution_better (o : Offer) (h : o.prio1 = 255) : (⟨0, 0, 0, 5, path⟩ : Offer).root < o.root := by
  simp only [Offer.root, h]; omega

theorem Tests.wit_StoryLists_entry : let c := (w (story { state := 2, oper := some desc })).chip.pass 0
    (c.storyRuns && decide ((c.list 0).state = lRUN ∧ (c.list 0).oper = some desc ∧ (c.list 0).pend = none
      ∧ (c.boundary desc (c.list 0).idx (c.list 0).entryAt (c.list 0).cycleAt).1 ≤ c.localNs)) = true := by decide
theorem Tests.wit_StoryLists_swap : let c := (w (story { state := 1, pend := some desc, pendCt := 5 })).chip.pass 0
    (c.storyRuns && decide ((c.list 0).state = lWAIT ∧ (c.list 0).pend = some desc ∧ (c.list 0).pendCt ≤ c.localNs)) = true := by decide
theorem Tests.wit_OneShotActions_time : let c := (w (action 5 0 1)).chip.pass 0
    (decide (c.armed = [7] ∧ lookupD none c.ones 7 = some ⟨5, 0⟩ ∧ c.one 7 fOsTrigger = 0 ∧ 5 ≤ c.localNs ∧ c.one 7 fOsKind = 5)
      && c.timeValid && c.storyRuns) = true := by decide
theorem Tests.wit_OneShotActions_invalid : let c := (w (action 5 0 0)).chip.pass 0
    (decide (c.armed = [7] ∧ c.one 7 fOsTrigger = 0 ∧ 5 ≤ c.localNs) && !c.timeValid) = true := by decide
theorem Tests.wit_OneShotActions_distance : let c := (w (action 6 1 1)).chip.pass 0
    (decide (c.armed = [7] ∧ c.one 7 fOsTrigger = 1 ∧ c.distIndex < c.mono / 1000) && c.distReached 7 && c.storyRuns) = true := by decide
theorem Tests.wit_PinsAndLogs_edge : let c := (w inputs).chip.pass 0
    (c.pulseOn 0 && !(c.pulse 0).level && !c.is pPULSE (pulseFld F.PULSE_PCFG_p_EDGE 0)
      && decide (0 < 50 * c.get pPULSE (pulseFld F.PULSE_PCFG_p_FILTER 0) ∧ c.pulseFilter 0 (c.cycles - 50000) ≤ 50000) && (c.pulse 0).edges && decide ((c.pulse 0).mLast = some 0)
      && decide (0 + (c.pulse 0).stop * 1000000 ≤ c.mono) && c.takes .qspi && decide (c.armedOn 0 = [])) = true := by decide
theorem Tests.wit_PinsAndLogs_preset : ((w (action 6 1 1)).chip.pass 0).armedOn 0 ≠ [] := by decide
theorem Tests.wit_PinsAndLogs_pins : let c := (w inputs).chip.pass 0
    (decide (c.pinPulses = [⟨1, 1, 0⟩] ∧ c.mode ≠ modeSentry) && c.ready pEVIO && (c.get pEVIO F.EVIO_IN_CFG_EN).testBit 3 && !c.locked pEVIO
      && (c.get pEVIO F.EVIO_IN_CFG_RISE).testBit 3 && (c.get pEVIO F.EVIO_IN_CFG_FALL).testBit 3 && decide (c.ilog.length < 64)) = true := by decide
theorem Tests.wit_PinsAndLogs_full : let c := (w logged).chip.pass 0
    (decide (64 ≤ c.ilog.length ∧ c.rlog = [⟨0, 0, 27, false, false, false, 0, 0, 9⟩] ∧ c.ilog.head? = some ⟨0, 3, true, 0, 0⟩) && c.takes .qspi) = true := by decide
theorem Tests.wit_SafetyActions_trip : let c := (w (watching 2)).chip.pass 0
    (c.ready pCINCH && decide ((c.watch 2).state = wWATCHING ∧ (c.watch 2).deadline ≤ c.mono / 1000 * 1000)) = true := by decide
theorem Tests.wit_SafetyActions_repeat : let c := (w (watching 3)).chip.pass 0
    (c.ready pCINCH && decide ((c.watch 2).state = wTRIPPED ∧ c.wt 2 fWtRepeat * 1000000 ≠ 0 ∧ (c.watch 2).repeatAt ≤ c.mono)) = true := by decide
/-- Watch 2 armed with one safe frame on CAN channel 3, in RUN, with a warning that starts a mass emission. -/
def Tests.warned (frames dormant : Nat) (c : Chip) : Chip :=
  { (((((((canAt 2 (watching 2 c)).put pPWR F.PWR_MODE_STATUS_MODE modeRun).put pPWR { F.PWR_PWR_POLICY_PF_DORMANT with off := F.PWR_PWR_POLICY_PF_DORMANT.off + 0x800 } dormant).tput pCINCH 0 2 fWtCount frames).tput
    pCINCH 0 2 fWtFirst 5).tput pCINCH 1 5 fFrMedium 2).tput pCINCH 1 5 fFrPort 35) with watches := [(2, ⟨2, 1000, 1000⟩)] }
theorem Tests.wit_SafetyActions_fail : ([(1, 0), (1, 1), (0, 1)].all fun (e : Nat × Nat) => let c := (w (warned e.1 e.2)).chip.pass 0
    !c.dark && !c.is pCINCH F.CINCH_CINCH_STATUS_PF_ACTIVE && decide (max 1 (c.get pCINCH F.CINCH_CINCH_CFG_PF_FILTER) ≤ 255 ∧ c.mode = modeRun)
      && c.enabled pCINCH && !c.is pCINCH F.CINCH_CINCH_STATUS_MASS_BUSY && c.is pCINCH F.CINCH_CINCH_CFG_PF_EN
      && decide (c.get pPWR F.PWR_PWR_POLICY_PF_DORMANT = e.2 ∧ (c.safeFrames ++ (c.massEntries.flatMap fun x => c.handedFrames x.1)).length = e.1)) = true := by decide
theorem Tests.wit_SafetyActions_quiet : let c := (w fun c => (watching 2 c).setReg pCINCH 0x940 0).chip.pass 0
    (!c.dark && !c.is pCINCH F.CINCH_CINCH_STATUS_PF_ACTIVE && !c.is pCINCH F.CINCH_CINCH_CFG_PF_EN) = true := by decide
theorem Tests.wit_SafetyActions_done : let c := (w fun c => ((watching 2 c).put pCINCH F.CINCH_CINCH_STATUS_MASS_BUSY 1).put pPWR F.PWR_MODE_STATUS_MODE modeQuarantine).chip.pass 0
    (c.is pCINCH F.CINCH_CINCH_STATUS_MASS_BUSY && decide (c.safeFrames = [] ∧ c.mode = modeQuarantine) && !c.pwr.shortDue && !c.storyHalted) = true := by decide
theorem Tests.wit_SafetyActions_late : let c := (w fun c => { (watching 2 c).put pCINCH F.CINCH_CINCH_STATUS_MASS_BUSY 1 with
    safeFrames := [{ entry := 2, port := 35, cls := 0, bytes := [], msg := some canMsg }], cycles := 1000000 }).chip.pass 0
    (c.is pCINCH F.CINCH_CINCH_STATUS_MASS_BUSY && !c.pwr.shortDue && decide (c.mode ≠ modeQuarantine ∧ c.pwr.massAt + usCycles 500 ≤ c.cycles)) = true := by decide
theorem Tests.wit_SafetyActions_short : let c := (w fun c => { (watching 2 c).put pCINCH F.CINCH_CINCH_STATUS_MASS_BUSY 1 with pwr := { shortDue := true } }).chip.pass 0
    (c.is pCINCH F.CINCH_CINCH_STATUS_MASS_BUSY && c.pwr.shortDue && decide (c.safeFrames = [])) = true := by decide

theorem Tests.wit_RedundancyTimers_comp : let c := (w (frer 1)).chip.pass 0
    (c.ready pFRER && c.takes .qspi && c.tis pFRER 0 1 fCpValid && c.tis pFRER 0 1 fCpElim && c.tis pFRER 0 1 fCpLatEn
      && decide ((c.comp 1).recov.timer = some 0 ∧ 0 + c.resetLimit 1 ≤ c.cycles ∧ (c.comp 1).latAt + msCycles (c.tget pFRER 0 1 fCpLatPeriod) ≤ c.cycles
        ∧ c.tget pFRER 0 1 fCpLatDiff < (((c.comp 1).latPassed : Int) * ((c.tget pFRER 0 1 fCpLatPaths : Int) - 1) - (c.comp 1).latDiscarded).natAbs
        ∧ (c.comp 1).latResetAt + secCycles (c.tget pFRER 0 1 fCpLatReset) ≤ c.cycles)) = true := by decide
theorem Tests.wit_RedundancyTimers_silent : let c := (w (frer 1)).chip.pass 0
    (c.ready pFRER && c.tis pFRER 1 1 fMbValid
      && decide ((c.member 1).state ≠ mFailed ∧ (c.member 1).lastGood + msCycles (c.tget pFRER 1 1 fMbSilent) ≤ c.cycles)) = true := by decide
theorem Tests.wit_RedundancyTimers_return : let c := (w fun c => { frer 3 c with members := [(1, { state := 3, lastGood := 30000000000, entered := 0 })] }).chip.pass 0
    (c.ready pFRER && c.tis pFRER 1 1 fMbValid && decide ((c.member 1).state = mProbation ∧ (c.member 1).entered + msCycles (c.tget pFRER 1 1 fMbHoldoff) ≤ c.cycles
      ∧ c.cycles < (c.member 1).lastGood + msCycles (c.tget pFRER 1 1 fMbSilent))) = true := by decide
theorem Tests.wit_UnitRequests : let c := (w id).chip.pass 0
    (c.takes .qspi && decide (c.unitCmd = none)) = true := by decide
abbrev Tests.unitWord (cmd : Nat) : Word := BitVec.ofNat 32 (cmd * 2 ^ 28 + 0x20001)
theorem Tests.wit_UnitChanges_replace : let c := (w (unitsIn { state := 3 } { state := 1 } 1 .qspi)).chip.pass 0
    decide (c.unitCmd = some (unitWord 1, .qspi) ∧ bitsAt (unitWord 1) 28 4 = 1 ∧ bitsAt (unitWord 1) 0 10 = 1 ∧ bitsAt (unitWord 1) 16 10 = 2
      ∧ c.un 1 fUnKind ≠ 0 ∧ (c.unit 1).state = uDEAD ∧ c.un 2 fUnSpare = 1 ∧ (c.unit 2).state = uALIVE ∧ c.un 1 fUnKind = c.un 2 fUnKind
      ∧ c.unitKey 1 ≠ c.unitKey 2) = true := by decide
theorem Tests.wit_UnitChanges_reinstate : let c := (w (unitsIn { state := 1, peer := some 2 } { state := 4, returned := true } 2 .qspi)).chip.pass 0
    decide (c.unitCmd = some (unitWord 2, .qspi) ∧ bitsAt (unitWord 2) 28 4 = 2 ∧ (c.unit 1).state ≤ uDEAD ∧ (c.unit 1).peer = some 2
      ∧ (c.unit 2).state = uFENCED ∧ c.un 2 fUnKind = c.un 1 fUnKind ∧ c.un 1 fUnKind ≠ 0) = true := by decide
theorem Tests.wit_UnitChanges_fenced : let c := (w (unitsIn { state := 4 } {} 4 .qspi)).chip.pass 0
    decide (c.unitCmd = some (unitWord 4, .qspi) ∧ bitsAt (unitWord 4) 28 4 = 4 ∧ bitsAt (unitWord 5) 28 4 = 5 ∧ bitsAt (unitWord 5) 0 10 = 1
      ∧ (c.unit 1).state = uFENCED) = true := by decide
theorem Tests.wit_UnitChanges_set : let c := (w (unitsIn { state := 2 } {} 10 .trestle)).chip.pass 0
    decide (c.unitCmd = some (unitWord 10, .trestle) ∧ bitsAt (unitWord 10) 28 4 = 10 ∧ hostSide .trestle = false ∧ hostSide .qspi = true
      ∧ c.un 1 fUnKind ≠ 0 ∧ (c.unit 1).state < uFENCED ∧ livenessMove (c.unit 1).state uDEAD = true) = true := by decide
theorem Tests.wit_UnitChanges_scan : let c := (w (unitsIn { state := 1 } { state := 2 } 3 .qspi)).chip.pass 0
    (c.fwRuns && c.ready pUNITS && decide (1 ∈ c.validUnits ∧ 2 ∈ c.validUnits ∧ (c.unit 1).state = uALIVE ∧ (c.unit 2).state = uSUSPECT
      ∧ c.un 1 fUnSuspect * msCycles (c.un 1 fUnExpect) ≤ c.cycles - (c.unit 1).seenAt
      ∧ c.un 2 fUnDead * msCycles (c.un 2 fUnExpect) ≤ c.cycles - (c.unit 2).seenAt)) = true := by decide
theorem Tests.wit_SessionsAndKeys_timers : let c := (w (session 0)).chip.pass 0
    decide ((c.sess 4).state = 1 ∧ (c.sess 4).phase = 0 ∧ (c.sess 4).at' + msCycles (c.get pBRIDLE F.BRIDLE_TP_CFG0_DT_GAP_MS) ≤ c.cycles
      ∧ (c.sess 4).at' + msCycles (c.get pBRIDLE F.BRIDLE_TP_CFG0_CTS_WAIT_MS) ≤ c.cycles
      ∧ (c.sess 4).at' + msCycles (c.get pBRIDLE F.BRIDLE_TP_CFG1_HOLD_MS) ≤ c.cycles ∧ c.keyInstall = none) = true := by decide
theorem Tests.wit_SessionsAndKeys_key : let c := (w install).chip.pass 0
    (decide (c.keyInstall = some ⟨5, 1, []⟩ ∧ c.mode ≠ modeQuarantine ∧ (c.slot 1).state = 1 ∧ c.root ≠ none) && (c.slot 1).policy.testBit 3) = true := by decide
theorem Tests.wit_SessionsAndKeys_withheld : let c := (w fun c => (install c).put pPWR F.PWR_MODE_STATUS_MODE modeQuarantine).chip.pass 0
    decide (c.keyInstall = some ⟨5, 1, []⟩ ∧ c.mode = modeQuarantine) = true := by decide

theorem Tests.wit_CanChannels_send : let c := (w (canAt 2)).chip.pass 0
    (c.canSends 3 && !c.guardBlocks 35 && decide (c.safeFrames = [] ∧ c.mode ≠ modeQuarantine ∧ c.relDue 35 = none ∧ (c.canRt 3).aborts = []
      ∧ c.canNext 3 = some { msg := canMsg } ∧ c.get (pCAN 3) F.CAN_CAN_CFG_MAX_AGE_MS = 0 ∧ (c.canRt 3).tec + 8 ≤ 255
      ∧ c.get (pCAN 3) F.CAN_CAN_CFG_RETRY_LIMIT = 0 ∧ c.canState 3 = caACTIVE ∧ (c.canRt 3).rxe ≤ 127 ∧ (c.canRt 3).tec ≤ 127)) = true := by decide
theorem Tests.wit_CanChannels_states : ((w (canAt 1)).chip.pass 0).canState 3 = caINTEGRATING ∧ ((w (canAt 5)).chip.pass 0).canState 3 = caRECOVERING
    ∧ ((w (canAt 4)).chip.pass 0).canState 3 = caBUSOFF ∧ ((w (canAt 4)).chip.pass 0).takes .qspi = true := by decide
theorem Tests.wit_LinAndUart_slot : let c := (w (linAt 2 {})).chip.pass 0
    (c.ready (pLIN 2) && !c.guardBlocks 50 && c.tis pGW 4 0 fSdValid && c.tis (pLIN 2) 0 (c.sched 0 0 fSeId) fFcPublish
      && decide (c.linState 2 = liRUN ∧ (c.linRt 2).slotEnd ≤ c.cycles ∧ c.relDue 50 = none ∧ c.get (pLIN 2) F.LIN_LIN_SCHED_TABLE = (c.linRt 2).home
        ∧ c.sched 0 0 fSeType = 0 ∧ c.linBuf 2 (c.sched 0 0 fSeId) = some ⟨zeros 8, true⟩)) = true := by decide
theorem Tests.wit_LinAndUart_slave : let c := (w fun c => (linAt 1 {} c).setReg (pLIN 2) 0x940 0).chip.pass 0
    (c.ready (pLIN 2) && !c.linMaster 2 && !c.is (pLIN 2) F.LIN_LIN_CFG_AUTOBAUD && c.tis (pLIN 2) 0 0 fFcPublish && c.takes .qspi
      && decide (c.linState 2 = liIDLE ∧ c.linBuf 2 0 = some ⟨zeros 8, true⟩)) = true := by decide
theorem Tests.wit_LinAndUart_sleep : ((w (linAt 3 {})).chip.pass 0).linState 2 = liSLEEP := by decide
theorem Tests.wit_LinAndUart_restart : let c := (w fun c => ((linAt 1 { wokeAt := some 0 } c).setReg (pLIN 2) 0x940 0xFFFFFFFF).setReg (pLIN 2) 0x944 0xFFFFFFFF).chip.pass 0
    (c.linMaster 2 && c.is (pLIN 2) F.LIN_LIN_SCHED_RUN && decide ((c.linRt 2).wokeAt = some 0 ∧ 0 + msCycles 100 ≤ c.cycles ∧ c.linState 2 = liIDLE)) = true := by decide
theorem Tests.wit_LinAndUart_uart : let c := (w uartAt).chip.pass 0
    (c.uartFree 1 && !c.guardBlocks 57 && decide (c.relDue 57 = none ∧ (c.uartRt 1).queue = [{ msg := { kind := .uart, data := [7#8] } }])) = true := by decide
theorem Tests.wit_LinAndUart_clock : ((w fun c => c.put pGW F.GW_GW_STATUS_CLK_SAFE 1).chip.pass 0).clkSafe = true := by decide
theorem Tests.wit_GatewayMessages_can : let c := (w (canAt 2)).chip.pass 0
    (c.canAccepts 3 canMsg && decide (c.mode ≠ modeQuarantine ∧ c.mode ≠ modeSentry ∧ c.pwr.entry = none ∧ c.inq.length < 4096
      ∧ c.inqBytes + canMsg.data.length ≤ 65536 ∧ c.canState 3 = caACTIVE)) = true := by decide
theorem Tests.wit_GatewayMessages_lin : let c := (w fun c => ((linAt 1 {} c).tput (pLIN 2) 0 4 fFcSubscribe 1).tput (pLIN 2) 0 4 fFcLen 8).chip.pass 0
    (c.ready (pLIN 2) && c.tis (pLIN 2) 0 4 fFcSubscribe && decide (c.linState 2 = liIDLE ∧ (zeros 8).length = c.tget (pLIN 2) 0 4 fFcLen)) = true := by decide
theorem Tests.wit_GatewayMessages_uart : let c := (w fun c => (uartAt c).setReg (pUART 1) 0x944 4).chip.pass 0
    (c.ready (pUART 1) && !c.clkSafe && !c.is (pUART 1) F.UART_RS485_CFG_EN && decide (c.get (pUART 1) F.UART_UART_FRAME_MODE = 0
      ∧ c.get (pUART 1) F.UART_UART_CFG_DATA ≠ 0 ∧ c.get (pUART 1) F.UART_UART_FRAME_GAP_BITS ≤ 255 ∧ (c.uartRt 1).rx = [] ∧ (c.uartRt 1).rxBad = false)) = true := by decide
theorem Tests.wit_GatewayMessages_quarantine : let c := (w fun c => (canAt 2 c).put pPWR F.PWR_MODE_STATUS_MODE modeQuarantine).chip.pass 0
    (c.canAccepts 3 canMsg && decide (c.mode = modeQuarantine ∧ c.canState 3 = caACTIVE ∧ (c.canRt 3).rxe = 0)) = true := by decide
theorem Tests.wit_GatewayMessages_route : let c := (w (routed true)).chip.pass 0
    (c.gwRuns && c.modeRoute c.mode 5 && !c.ready pUNITS && !c.ready pBRIDLE && c.canFormat 3 canMsg && c.canTakes 3 && c.ramRoom 35 canMsg
      && decide (c.inq = [{ port := 32, msg := some canMsg }] ∧ isCan 32 = true
        ∧ (tblIndices c.tblA pGW 0).filter (c.routeMatches { item := { port := 32, msg := some canMsg }, kind := 0, msg := canMsg }) = [5]
        ∧ c.ro 5 fRoDst = 0 ∧ c.ro 5 fRoCans = 2 ^ 3 ∧ c.ro 5 fRoTimed = 0
        ∧ formatted (c.ro 5 fRoFormat) (c.ro 5 fRoBrs = 1) (c.ro 5 fRoPad) (c.translated 5 canMsg) = some canMsg)) = true := by decide
theorem Tests.wit_GatewayMessages_none : let c := (w (routed false)).chip.pass 0
    (c.gwRuns && decide ((tblIndices c.tblA pGW 0).filter (c.routeMatches { item := { port := 32, msg := some canMsg }, kind := 0, msg := canMsg }) = [])) = true := by decide
theorem Tests.wit_GatewayMessages_niu : let c := (w (niuAt 1)).chip.pass 0
    (c.fwRuns && c.gwRuns && decide (c.ni 1 fNiValid = 1 ∧ (bitList (c.ni 1 fNiChannels) 16)[4 % 4]? = some 3 ∧ (c.niu 4).state = 1 ∧ c.ni 1 fNiSelf = 0)) = true := by decide
theorem Tests.wit_GatewayMessages_claim : ((w (niuAt 0)).chip.pass 0).niu 4 = { sa := 0, state := 0 } := by decide
theorem Tests.wit_Assemblers_send : let c := (w (assembling { deferred := some (31, true, {}), sentAt := some 0 })).chip.pass 0
    (c.gwRuns && c.gapOver 2 && c.modeTakes (c.am 2 fAsClass) (c.am 2 fAsActuating = 1) (c.am 2 fAsDiag = 1)
      && decide (c.am 2 fAsStopStale = 0 ∧ (c.acf 2).msgs ≠ [] ∧ (c.acf 2).at' + usCycles (c.ao 2 fAoUs) ≤ c.cycles ∧ c.am 2 fAsValid = 1
        ∧ c.am 2 fAsPeriod ≠ 0 ∧ (c.asm 2).periodAt + tenthMs (c.am 2 fAsPeriod) ≤ c.cycles ∧ (c.asm 2).deferred = some (31, true, {})
        ∧ c.sg 9 fSgValid = 1 ∧ c.sg 9 fSgTmo ≠ 0 ∧ (c.sig 9).stale = false ∧ (c.sig 9).at' + msCycles (c.sg 9 fSgTmo) ≤ c.cycles)) = true := by decide
theorem Tests.wit_Assemblers_gap : let c := (w fun c => (assembling { sentAt := some 10000000 } c).tput pGW 2 2 fAsGap 1).chip.pass 0
    (!c.gapOver 2 && decide ((c.asm 2).deferred = none)) = true := by decide

set_option maxRecDepth 4000 in
theorem Tests.wit_HostBridge_1 : (let c := (w hosted).chip.pass 0
    !c.dark && c.pciePowered && c.takes .pcie && !c.locked pHOST && c.is pHOST F.HOST_PCIE_STATUS_MSIX_EN && (c.reg pHOST 0x380).toNat.testBit 3
      && !c.is pHOST F.HOST_PCIE_STATUS_FUNC_MASK && !c.qsFence && decide (c.fences = []) && decide (c.undecidedOf 1 = 0)) = true := by decide
set_option maxRecDepth 4000 in
theorem Tests.wit_HostBridge_2 : (let c := (w fun c => { hosted c with fences := [(2, 0)], undecided := [(2, 1)] }).chip.pass 0
    !c.qsFence && decide (0 + usCycles c.fenceLimit ≤ c.cycles) && decide (c.undecidedOf (reqCode .qspi) ≠ 0)) = true := by decide
set_option maxRecDepth 4000 in
theorem Tests.wit_HostBridge_3 : (let c := (w fun c => { hosted c with pel := [⟨0, 0, 1, .qspi, 3, 0⟩], flts := [⟨0, 0, 0, true, 3, 0, 65535⟩] }).chip.pass 0
    c.takes .qspi && (c.pel.map PelEntry.seq == [3]) && (c.flts.map FltEntry.seq == [65535])) = true := by decide

set_option maxRecDepth 4000 in
theorem Tests.wit_QspiTransactions_1 : qsCrcOk [1, 2] = false := by decide
set_option maxRecDepth 4000 in
theorem Tests.wit_QspiTransactions_2 : (let bs := qs [0x20, 0, 0, 0x3C, 0, 1, 2, 3, 4]
    qsCrcOk bs && decide (qsHead bs 1 = some (0, 0x3C, 1)) && decide (bs.length = 10)) = true := by decide
set_option maxRecDepth 4000 in
theorem Tests.wit_QspiTransactions_3 : (let bs := qs [0x40, 0, 0, 0x3C, 0]
    qsCrcOk bs && decide (qsHead bs 2 = some (0, 0x3C, 1)) && decide (bs.length = 6) && decide (pageOfAddr 0x3C = some pSYS)) = true := by decide
set_option maxRecDepth 4000 in
theorem Tests.wit_QspiTransactions_4 : (let c := (w fun c => { story {} c with qsRead := some { dev := 0, addr := 0, n := 1, at' := 0 } }).chip.pass 0
    !c.dark && decide (usCycles 200 ≤ c.cycles)) = true := by decide

set_option maxRecDepth 4000 in
theorem Tests.wit_DmaRings_1 : (let c := (w (dmaRing 17 0 {})).chip.pass 0
    c.takes .pcie && !c.locked pDMA && decide (c.ringGet 17 F.DMA_RCFG_USER_DB ≠ 0 ∧ c.ringGet 17 F.DMA_RCFG_SIZE = 8 ∧ c.ringState 17 = 0) && c.ready pDMA) = true := by decide
set_option maxRecDepth 4000 in
theorem Tests.wit_DmaRings_2 : (let c := (w (dmaRing 17 1 {})).chip.pass 0
    c.takes .qspi && decide (c.ringState 17 = rgRUNNING)) = true := by decide
set_option maxRecDepth 4000 in
theorem Tests.wit_DmaRings_3 : (let c := (w (dmaRing 17 2 {})).chip.pass 0
    c.takes .qspi && decide (c.ringState 17 = rgHALTED)) = true := by decide
set_option maxRecDepth 4000 in
theorem Tests.wit_DmaRings_4 : (let c := (w (dmaRing 17 3 { firstAt := some 0 })).chip.pass 0
    !c.inTransfer 17 && decide (c.ringState 17 = rgSTOPPING ∧ (c.ring 17).descs = [] ∧ c.ringGet 17 F.DMA_RMOD_ITR_US = 1 ∧ usCycles 1 ≤ c.cycles)) = true := by decide

set_option maxRecDepth 4000 in
theorem Tests.wit_DmaTransfers_1 : (let c := (w (dmaRing 17 1 {})).chip.pass 0
    c.dmaRuns && decide (c.ringState 17 = rgRUNNING ∧ (c.ring 17).descs = [] ∧ c.rhead 17 = 0 ∧ c.rtail 17 = 2 ∧ c.ringGet 17 F.DMA_RCFG_XLT_EN = 0)
      && decide ((memRead hostMem (c.descAddr 17 0) 32).map (parseDesc 0) = some (txDesc 64)) && decide (64 ≤ c.get (pPORT 30) F.PORT_MAC_CFG_MAX_LEN)
      && decide (c.fetchAt 17 ≠ c.rtail 17)) = true := by decide
set_option maxRecDepth 4000 in
theorem Tests.wit_DmaTransfers_2 : (let c := (w (dmaRing 17 1 { descs := [txDesc 64], whole := true })).chip.pass 0
    c.dmaRuns && decide (c.readTurn.2 = some 17) && decide (c.readTurn.1.ringGet 17 F.DMA_RCFG_XLT_EN = 0) && decide ((c.readTurn.1.ring 17).descs = [txDesc 64])
      && decide ((c.readTurn.1.ring 17).data = []) && decide (memRead hostMem 0 64 = some (zeros 64))) = true := by decide
set_option maxRecDepth 4000 in
theorem Tests.wit_DmaTransfers_3 : (let c := (w (dmaRing 17 1 { descs := [txDesc 300], whole := true })).chip.pass 0
    c.dmaRuns && decide (c.readTurn.2 = some 17) && decide ((c.readTurn.1.ring 17).descs = [txDesc 300])
      && decide (memRead hostMem 0 256 = some (zeros 256))) = true := by decide
set_option maxRecDepth 4000 in
theorem Tests.wit_DmaTransfers_4 : (let c := (w rxHeldAt).chip.pass 0
    let f := c.writeTurn.1
    c.rxRuns && c.rxAside.isNone && decide (c.writeTurn.2 = some 1) && (f.rxCopy 1).isNone && decide (f.heldOf 1 = [copyAt 30 0]) && decide (f.ringGet 1 F.DMA_RCFG_XLT_EN = 0)
      && decide (f.rhead 1 = 0) && f.rxFree 1 && decide (memRead hostMem (f.descAddr 1 0) 6 = some (zeros 6)) && decide ((rxBytes (copyAt 30 0)).length = 64)
      && decide (256 * f.ringGet 1 F.DMA_RMOD_BUF = 2048)) = true := by decide
set_option maxRecDepth 4000 in
theorem Tests.wit_DmaTransfers_5 : (let c := (w fun c => { (rxHeldAt c).setReg pDMA 0x940 0 with queues := [(240, { ready := [copyAt 30 0] })] }).chip.pass 0
    c.rxRuns && decide (c.rxAside = some (copyAt 30 0)) && decide (c.ringState (c.rxRing 0) = rgDISABLED) && (c.takeRx (copyAt 30 0) .good).2.isSome
      && decide ((c.takeRx (copyAt 30 0) .good).1.ringState 0 = rgDISABLED)) = true := by decide
set_option maxRecDepth 4000 in
theorem Tests.wit_Invalidations_1 : (let c := (w (tlbs [])).chip.pass 0
    c.takes .pcie && decide (c.invs = []) && decide (bitsAt 0x80000022 31 1 = 1 ∧ bitsAt 0x80000022 0 2 = 2)) = true := by decide
set_option maxRecDepth 4000 in
theorem Tests.wit_Invalidations_2 : (let c := (w (tlbs [⟨2, 2, 0, 0⟩])).chip.pass 0
    decide (c.invs = [⟨2, 2, 0, 0⟩])) = true := by decide

set_option maxRecDepth 4000 in
theorem Tests.wit_TenonLinks_1 : (let c := (w (tenonAt 3 { tries := 1, used := [(6, 100)] })).chip.pass 0
    decide (c.tlState 0 = tlUP) && decide ((c.tenon 0).tries + 1 < c.get (pTENON 0) F.TENON_TL_CFG_RETRY_LIMIT) && c.tenonUp 0 && c.takes .qspi) = true := by decide
set_option maxRecDepth 4000 in
theorem Tests.wit_TenonLinks_2 : (let c := (w (tenonAt 2 { tries := 100 })).chip.pass 0
    decide (c.tlState 0 = tlCALIBRATE) && decide (c.get (pTENON 0) F.TENON_TL_CFG_RETRY_LIMIT ≤ (c.tenon 0).tries + 1)
      && decide (c.get (pTENON 0) F.TENON_LAT_ASYM_PS = 0)) = true := by decide
set_option maxRecDepth 4000 in
theorem Tests.wit_TenonLinks_3 : (let c := (w (tenonAt 1 {})).chip.pass 0
    decide (c.tlState 0 = tlTRAIN) && (c.tenon 0).conflict.isNone && decide (c.ringId = 0)) = true := by decide
set_option maxRecDepth 4000 in
theorem Tests.wit_TenonLinks_4 : (let c := (w fun c => { tenonAt 1 { conflict := some 0 } c with cycles := 10 ^ 9 }).chip.pass 0
    decide ((c.tenon 0).conflict = some 0) && decide (msCycles 100 ≤ c.cycles)) = true := by decide
set_option maxRecDepth 4000 in
theorem Tests.wit_RingRequests_1 : ∀ b, (let c := (w (ringed b true)).chip.pass 0
    decide (c.tlState 0 = tlUP) && decide (c.remotes = [reqTo b] ∧ c.fences = [] ∧ c.qsRead = none) && decide (usCycles 100 ≤ c.cycles) && c.fwRuns
      && c.is pTRING F.TRING_EHRUZ_CFG_EN && c.is pTRING F.TRING_DOMAIN_CFG_ID_VALID && c.ehruzPort 30 && !c.ehruzPort 5
      && decide (pageOfAddr 0x3C = some pSYS)) = true := by decide
set_option maxRecDepth 4000 in
theorem Tests.wit_RingRequests_2 : (let c := (w (ringed true false)).chip.pass 0
    c.fwRuns && !c.is pTRING F.TRING_EHRUZ_CFG_EN) = true := by decide

set_option maxRecDepth 4000 in
theorem Tests.wit_Oscillators_1 : ∀ por, (let c := (w (starting 1 por)).chip.pass 0
    decide (c.clk.xtalStart = some (0, 1, por)) && decide (0 + c.xsdCycles ≤ c.cycles)) = true := by decide
set_option maxRecDepth 4000 in
theorem Tests.wit_Oscillators_2 : (let c := (w (starting 2 false)).chip.pass 0
    decide (c.clk.xtalStart = some (0, 2, false)) && decide (0 + c.xsdCycles ≤ c.cycles)) = true := by decide
set_option maxRecDepth 4000 in
theorem Tests.wit_Oscillators_3 : (let c := (w (clocked 1 {})).chip.pass 0
    c.xtalRuns && c.monitors && c.is pCLK F.CLK_HFRC_CFG_TRIM_AUTO && !c.hfrcFailed && decide (c.trimRef = 1) && c.trimmed && !c.is pCLK F.CLK_XTAL_CFG_XTAL32_EN) = true := by decide
set_option maxRecDepth 4000 in
theorem Tests.wit_Oscillators_4 : (let c := (w (clocked 0 { good := 1 })).chip.pass 0
    c.is pCLK F.CLK_HFRC_CFG_TRIM_AUTO && !c.hfrcFailed && decide (c.trimRef ≠ 0) && !c.trimmed && decide (c.clk.good + 1 = 2)) = true := by decide
set_option maxRecDepth 4000 in
theorem Tests.wit_Oscillators_5 : (let c := (w fun c => (story {} c).put pCLK F.CLK_XTAL_STATUS_FAILED 1).chip.pass 0
    c.is pCLK F.CLK_XTAL_STATUS_FAILED && c.clk.xtalStart.isNone && c.xtalPowered) = true := by decide
set_option maxRecDepth 4000 in
theorem Tests.wit_PllsAndSwitches_1 : (let c := (w fun c => (clocked 1 {} c).put pCLK F.CLK_PLL_STATUS_LOCKED 0x18).chip.pass 0
    c.pllLocked 3 && c.monitors) = true := by decide
set_option maxRecDepth 4000 in
theorem Tests.wit_PllsAndSwitches_2 : ∀ k, k < 8 → (let c := (w (clocked 1 { lost := 255 })).chip.pass 0
    !c.pllLocked k && c.xtalRuns && (c.get pCLK F.CLK_PLL_STATUS_POWERED).testBit k && c.clk.lost.testBit k) = true := by decide
set_option maxRecDepth 4000 in
theorem Tests.wit_PllsAndSwitches_3 : (let c := (w (clocked 1 { gwait := some (0, true, false) })).chip.pass 0
    decide (c.clk.gwait = some (0, true, false)) && c.gclkIdle && decide (0 + c.gclkLimit false ≤ c.cycles)) = true := by decide
set_option maxRecDepth 4000 in
theorem Tests.wit_DeviceResets_1 : (let c := (w dog).chip.pass 0
    !c.dormant && c.takes .pcie && c.wdtOn && decide (c.wdt.at' + c.wdtTimeout ≤ c.cycles)) = true := by decide
set_option maxRecDepth 4000 in
theorem Tests.wit_WatchdogAndDomains_1 : (let c := (w dog).chip.pass 0
    c.takes .qspi && c.wdtOn && !c.wdt.warned && decide (c.wdt.at' + c.wdtTimeout * 3 / 4 ≤ c.cycles) && decide (c.get pRST F.RST_WDT_STATUS_NEXT = 0)) = true := by decide

set_option maxRecDepth 4000 in
theorem Tests.wit_ModeCommands_1 : (let c := (w (moded 2)).chip.pass 0
    c.takes .trestle && !c.is pPWR F.PWR_MODE_STATUS_BUSY && modeListed c.mode modeSentry && modeListed c.mode modeDormant && !modeListed c.mode modeRun
      && modeListed c.mode modeService && modeListed c.mode modeLimp && !c.bootFail && decide (c.mode ≠ modeQuarantine) && !(c.reg pPWR 0x150).getLsbD lcCMD) = true := by decide
set_option maxRecDepth 4000 in
theorem Tests.wit_ModeCommands_2 : (let c := (w fun c => (moded 3 c).setReg pPWR 0x150 2).chip.pass 0
    c.takes .trestle && !c.is pPWR F.PWR_MODE_STATUS_BUSY && !c.bootFail && decide (c.mode = modeLimp ∧ c.reg pPWR 0x150 ≠ 0)) = true := by decide
set_option maxRecDepth 4000 in
theorem Tests.wit_ModeCommands_3 : (let c := (w fun c => (moded 4 c).put pPWR F.PWR_MODE_STATUS_BUSY 1).chip.pass 0
    c.takes .trestle && c.is pPWR F.PWR_MODE_STATUS_BUSY && modeListed c.mode modeRun && decide (c.reg pPWR 0x150 = 0)) = true := by decide
set_option maxRecDepth 4000 in
theorem Tests.wit_ModeCommands_4 : ∀ m ∈ [2, 3], (let c := (w fun c => ((moded m c).put pPWR F.PWR_DIE_TEMP_C 127).put pPWR { F.PWR_THERM_CFG_THERM_LIMP with off := F.PWR_THERM_CFG_THERM_LIMP.actOff } 110).chip.pass 0
    !c.dark && decide ((c.get pPWR F.PWR_THERM_CFG_THERM_LIMP : Int) ≤ c.dieTemp) && decide (c.mode = m)) = true := by decide
set_option maxRecDepth 4000 in
theorem Tests.wit_EntriesAndPower_1 : ∀ t ∈ [modeSentry, modeDormant], (let c := (w (entering t)).chip.pass 0
    decide (c.pwr.entry = some ⟨t, 0, true⟩) && !c.pwr.filterDue && decide (0 + msCycles (c.get pPWR F.PWR_PWR_POLICY_ENTRY_TMO) ≤ c.cycles)) = true := by decide
set_option maxRecDepth 4000 in
theorem Tests.wit_EntriesAndPower_2 : (let c := (w fun c => (moded 1 c).setReg pPWR 0x940 0x00010001).chip.pass 0
    decide (c.mode = modeSentry) && c.pwr.entry.isNone && decide (c.get pPWR F.PWR_PWR_POLICY_SENTRY_IDLE_S ≠ 0)
      && decide (c.pwr.heard + secCycles (c.get pPWR F.PWR_PWR_POLICY_SENTRY_IDLE_S) ≤ c.cycles)) = true := by decide
set_option maxRecDepth 4000 in
theorem Tests.wit_EntriesAndPower_3 : ∀ b, (let c := (w (asleep { waking := some 0, retried := b })).chip.pass 0
    decide (c.aon.waking = some 0) && decide (0 + msCycles 10 ≤ c.cycles)) = true := by decide
set_option maxRecDepth 4000 in
theorem Tests.wit_EntriesAndPower_4 : (let c := (w (asleep { failedAt := some 0 })).chip.pass 0
    decide (c.aon.failedAt = some 0) && c.dormant && c.aon.waking.isNone && decide (0 + msCycles 100 ≤ c.cycles)) = true := by decide
set_option maxRecDepth 4000 in
theorem Tests.wit_EntriesAndPower_5 : (let c := (w fun c => (moded 1 c).put pCINCH F.CINCH_CINCH_STATUS_PF_ACTIVE 1).chip.pass 0
    c.is pCINCH F.CINCH_CINCH_STATUS_PF_ACTIVE) = true := by decide
set_option maxRecDepth 4000 in
theorem Tests.wit_WakesAndClock_1 : (let c := (w fun c => (asleep { short := true } c).put pAON F.AON_WAKE_PEND_S 1).chip.pass 0
    let held := fun f => (c.get pAON f).testBit 3
    c.dormant && c.aon.waking.isNone && decide (c.aon.sleptAt + usCycles 500 ≤ c.cycles) && decide (c.wakeTarget 3 ≠ 0 ∧ c.wakeTarget 8 ≠ 0 ∧ c.wakeTarget 9 ≠ 0 ∧ c.wakeTarget 10 ≠ 0)
      && held F.AON_WAKE_PIN_CFG_EN && held F.AON_WAKE_PIN_CFG_ACTIVE_HIGH && decide (c.get pAON F.AON_WAKE_PIN_CFG_FILTER + 1 ≤ 1) && c.is pAON F.AON_RTC_ALARM_HI_ALARM_EN
      && decide (c.rtcSec = w48Of (c.reg pAON 0x16C) (c.reg pAON 0x170)) && decide (c.aon.rtcFired ≠ some c.rtcSec) && hasTc10 0
      && decide (bitsAt (c.reg pAON 0x148) 0 6 = 0 ∧ bitsAt (c.reg pAON 0x148) 6 1 = 1) && c.aon.short && decide (c.get pAON F.AON_WAKE_PEND_S ≠ 0)) = true := by decide
set_option maxRecDepth 4000 in
theorem Tests.wit_WakesAndClock_2 : ((w (moded 2)).chip.pass 0).takes .pcie = true := by decide

set_option maxRecDepth 8000 in
theorem Tests.wit_FlashCommands_1 : ∀ cmd ∈ [1, 2, 3], ∀ r ∈ [flOK, flRANGE], (let c := (w (xmem cmd r)).chip.pass 0
    c.takes .trestle && decide (c.flOps = [⟨1, cmd, 0x20000, 4, [1, 2, 3, 4], r, 0, false⟩]) && decide (0 + secCycles 5 ≤ c.cycles)) = true := by decide
set_option maxRecDepth 8000 in
theorem Tests.wit_OtpCommands_1 : (let c := (w (otpAt 4 none)).chip.pass 0
    c.takes .trestle && c.otpOp.isNone && c.serviceOrFail && !(w (otpAt 4 none)).ext.otpClosed (c.get pBOOT F.BOOT_OTP_ADDR_A)) = true := by decide
set_option maxRecDepth 8000 in
theorem Tests.wit_OtpCommands_2 : (let c := (w (otpAt 2 none)).chip.pass 0
    c.takes .trestle && c.otpOp.isNone && !c.serviceOrFail) = true := by decide
set_option maxRecDepth 8000 in
theorem Tests.wit_OtpCommands_3 : (let s := w fun c => (otpAt 4 none c).setReg pBOOT 0x1C0 1
    let c := s.chip.pass 0
    c.takes .trestle && c.otpOp.isNone && c.serviceOrFail && s.ext.otpClosed (c.get pBOOT F.BOOT_OTP_ADDR_A)) = true := by decide
set_option maxRecDepth 8000 in
theorem Tests.wit_OtpCommands_4 : ∀ k ∈ [1, 2], ((w (otpAt 4 (some ⟨k, 13, 5⟩))).chip.pass 0).otpOp = some ⟨k, 13, 5⟩ := by decide
set_option maxRecDepth 8000 in
theorem Tests.wit_BootAndFallback_1 : (let s := w fun c => c.put pCLK F.CLK_XTAL_STATUS_RUNNING 1
    let c := s.chip.pass 0
    c.bootMay && !c.aon.restore && decide (c.get pSYS F.SYS_STRAPS_BOOT_MODE ≠ 3) && (chooseDir s.ext.flash (2 ^ (20 + max 5 (min 10 6)))).isNone) = true := by decide
set_option maxRecDepth 8000 in
theorem Tests.wit_BootAndFallback_2 : ∀ h, (let c := (w (limped h)).chip
    c.pwr.fallbackDue = true ∧ c.mode = modeLimp ∧ c.boot.dir = some dir0 ∧ c.boot.fallback = h ∧ c.is pXMEM F.XMEM_XSPI_STATUS_READY = true) := by
  intro h
  exact ⟨rfl, rfl, rfl, rfl, (by decide : (w (limped none)).chip.is pXMEM F.XMEM_XSPI_STATUS_READY = true)⟩
set_option maxRecDepth 8000 in
theorem Tests.wit_BootAndFallback_3 : (let s := w (limped (some (fb false)))
    let run := (({ chip := s.chip, ext := s.ext } : ListRun).segments (fb false) 0 16).segments (fb false) 0 17
    (fb false).segs.all (fun i => segOk s.ext.flash 0 i) && run.good && (run.chip.romGroup run.pages).2) = true := by decide
set_option maxRecDepth 8000 in
theorem Tests.wit_BootAndFallback_4 : ∀ c, (({ chip := c, ext := State.reset.ext } : ListRun).segments (fb true) 0 16).good = false
    ∧ (fb true).segs.all (fun i => segOk State.reset.ext.flash 0 i) = true := by
  have h : segOk State.reset.ext.flash 0 ((fb true).segs.headD ⟨0, 0, 0, 0, []⟩) = true := decide_eq_true rfl
  intro c
  refine ⟨?_, by simp only [fb, if_true, List.all_cons, List.all_nil]; exact (Bool.and_true _).trans h⟩
  simp only [ListRun.segments, fb, if_true, List.filter_cons, List.filter_nil, decide_true, List.foldl_cons, List.foldl_nil]
  rw [if_neg (by simp), if_neg (by simpa [fb] using h)]
  rfl

set_option maxRecDepth 4000 in
theorem Tests.wit_TrestleServices_1 : (let c := (w (cluster 3 0x800 { reqs := [(1, some ⟨7, 5, []⟩)] })).chip.pass 0
    !c.dark && c.trRuns && c.trIs F.TRESTLE_TR_STATUS_STOPPED && mbxSide .pcie && decide (c.mbxReq .pcie = some ⟨7, 5, []⟩)) = true := by decide
set_option maxRecDepth 4000 in
theorem Tests.wit_TrestleServices_2 : (let c := (w (cluster 3 0x400 {})).chip.pass 0
    decide (c.trMode ≠ trOFF) && !c.trIs F.TRESTLE_TR_STATUS_STOPPED && decide (c.tr.beatAt + msCycles 1 ≤ c.cycles) && c.takes .qspi && mbxSide .qspi
      && (c.mbxReq .qspi).isNone && c.fwRuns && decide (bitsAt (c.regAt (sideKey pTRESTLE 0x200 2)) 0 4 ≤ 7) && c.trRuns) = true := by decide
set_option maxRecDepth 4000 in
theorem Tests.wit_TrestleServices_3 : (let c := (w fun c => (cluster 3 0x400 {} c).setRegAt (sideKey pTRESTLE 0x200 2) 9).chip.pass 0
    c.takes .qspi && (c.mbxReq .qspi).isNone && c.fwRuns && decide (7 < bitsAt (c.regAt (sideKey pTRESTLE 0x200 2)) 0 4)) = true := by decide
set_option maxRecDepth 4000 in
theorem Tests.wit_TrestleServices_4 : (let c := (w fun c => (cluster 3 0x400 { mlog := [⟨0, 1, 0, 0, 0, 0, 65535⟩] } c).setRegAt (sideKey pTRESTLE 0x2C0 2) 0x80000007).chip.pass 0
    c.takes .qspi && decide (bitsAt (c.regAt (sideKey pTRESTLE 0x2C0 2)) 31 1 = 1 ∧ bitsAt (c.regAt (sideKey pTRESTLE 0x2C0 2)) 0 16 = 7)
      && decide (c.tr.mlog = [⟨0, 1, 0, 0, 0, 0, 65535⟩])) = true := by decide
set_option maxRecDepth 4000 in
theorem Tests.wit_TrestleServices_5 : (let c := (w fun c => (cluster 3 0x400 {} c).setReg pTRESTLE 0x960 0x101).chip.pass 0
    decide (c.trMode = trTRIPLE) && c.trIs F.TRESTLE_AGREE_CFG_EXCH_EN) = true := by decide
set_option maxRecDepth 4000 in
theorem Tests.wit_TrestleModes_1 : ∀ r ∈ [0x400, 0x480], (let c := (w (cluster 3 r {})).chip.pass 0
    decide (c.trMode = trTRIPLE) && decide (c.trIs F.TRESTLE_TR_STATUS_RESYNC = decide (r = 0x480)) && c.takes .qspi && c.tr.work.isNone && decide (c.mode = modeRun)
      && c.trIs F.TRESTLE_TR_STATUS_TRIPLE_AVAIL) = true := by decide
set_option maxRecDepth 4000 in
theorem Tests.wit_TrestleModes_2 : (let c := (w (cluster 2 0x408 (working 2 (some 5)))).chip.pass 0
    decide (c.trMode = trPAIR ∧ c.tr.violated = some 5 ∧ 5 < c.tr.ckptAt) && c.trIs F.TRESTLE_TR_STATUS_SPLIT && c.trAtBoundary 2) = true := by decide
set_option maxRecDepth 4000 in
theorem Tests.wit_TrestleModes_3 : ∀ b, (let c := (w (cluster 4 0x400 { noTriple := b })).chip.pass 0
    decide (c.trMode = trRESTART ∧ c.tr.noTriple = b)) = true := by decide
set_option maxRecDepth 4000 in
theorem Tests.wit_TrestleModes_4 : (let c := (w (cluster 3 0x400 (working 1 (some 5)))).chip.pass 0
    decide (c.trMode = trTRIPLE) && c.trAtBoundary 1 && !c.trIs F.TRESTLE_TR_STATUS_RESYNC) = true := by decide
set_option maxRecDepth 4000 in
theorem Tests.wit_TrestleModes_5 : (let c := (w (cluster 3 0x400 (working 1 none))).chip.pass 0
    decide (c.tr.work = some ⟨1, 0, none, true⟩) && !c.trIs F.TRESTLE_TR_STATUS_RESYNC
      && decide (0 + msCycles (c.get pTRESTLE F.TRESTLE_SPLIT_CFG_HANDOVER_TMO_MS) ≤ c.cycles)) = true := by decide
set_option maxRecDepth 4000 in
theorem Tests.wit_TrestleModes_6 : (let c := (w fun c => (cluster 2 0x408 {} c).put pPWR F.PWR_MODE_STATUS_MODE 4).chip.pass 0
    c.takes .qspi && c.tr.work.isNone && decide (c.trMode = trPAIR) && c.trIs F.TRESTLE_TR_STATUS_SPLIT && decide (c.mode = modeService)) = true := by decide
set_option maxRecDepth 4000 in
theorem Tests.wit_TrestleModes_7 : ∀ r ∈ [0x400, 0x480], (let c := (w (cluster 3 r { odd := some 2 })).chip.pass 0
    decide (legVerdict ⟨[1], [], []⟩ c.comparedLegs = some (if r = 0x400 then some 0 else none, 0) ∧ legVerdict ⟨[], [], []⟩ c.comparedLegs = none)) = true := by decide
set_option maxRecDepth 4000 in
theorem Tests.wit_TrestleModes_8 : (let c := (w (cluster 2 0x488 (working 2 (some 5)))).chip.pass 0
    decide (c.trMode = trPAIR ∧ c.tr.violated = some 5) && c.trIs F.TRESTLE_TR_STATUS_RESYNC && decide (legVerdict ⟨[], [1], []⟩ c.comparedLegs ≠ none)) = true := by decide
theorem Tests.wit_TrestleModes_9 : legVerdict ⟨[], [1, 2], []⟩ [0, 1, 2] = some (some 1, 0) ∧ legVerdict ⟨[1], [2], []⟩ [0, 1, 2] = some (none, 0)
    ∧ scribePasses { wrong := [585] } {} = true ∧ scribePasses {} { disagrees := true } = false := by decide

set_option maxRecDepth 4000 in
theorem Tests.wit_PrisilRequests_1 : ∀ b ∈ [0, 1], (let c := (w fun c => (moded 2 c).setRegAt (sideKey pPRISIL 0x16C 1) (BitVec.ofNat 32 b)).chip.pass 0
    c.takes .trestle && decide (bitsAt (c.regAt (sideKey pPRISIL 0x16C (reqSide .trestle))) 0 1 = b) && !c.dark) = true := by decide
set_option maxRecDepth 4000 in
theorem Tests.wit_PrisilRequests_2 : ∀ b, (let c := (w fun c => { moded 2 c with slots := [(5, { state := 1, checked := b })] }).chip.pass 0
    decide ((c.slot 5).state = slLIVE ∧ (c.slot 5).checked = b ∧ c.shareFaults = [] ∧ (c.slot 6).state ≠ slLIVE)) = true := by decide
set_option maxRecDepth 4000 in
theorem Tests.wit_PrisilOperationsEnd_1 : ∀ b, ∀ r, (let c := (w (prisil { cmd := some 0, req := .trestle, withheld := b } r)).chip
    c.prisilOps = [{ cmd := some 0, req := .trestle, withheld := b }] ∧ c.root = r) := fun _ _ => ⟨rfl, rfl⟩
set_option maxRecDepth 4000 in
theorem Tests.wit_PrisilOperationsEnd_2 : (let c := (w (prisil { cmd := some 0, req := .trestle } (some [1]))).chip.pass 0
    decide (c.root = some [1]) && decide (c.pGet 1 F.PRISIL_CMD_ARG_POLICY < 64 ∧ c.pGet 1 F.PRISIL_CMD_ARG_LABEL_LEN = 4 ∧ (c.slot 7).state = slEMPTY)
      && decide (bitsAt (cmdWord 1 7 0 1 false) 0 4 = 1 ∧ bitsAt (cmdWord 1 7 0 1 false) 4 6 = 7 ∧ bitsAt (cmdWord 1 7 0 1 false) 16 3 = 1)
      && ([3, 4, 5].all fun op => c.useRefused 1 3 op == prOK) && ([3, 4, 5].all fun op => c.useRefused 1 7 op == prEMPTY)
      && decide (c.pGet 1 F.PRISIL_CMD_ARG2_SUCC_FW = 0 ∧ c.pGet 1 F.PRISIL_CMD_ARG2_SUCC_SET = 0 ∧ c.pGet 1 F.PRISIL_CMD_ARG2_SUCC_ROM = 0)) = true := by decide
set_option maxRecDepth 4000 in
theorem Tests.wit_PrisilOperationsEnd_3 : (let s := w fun c => { c with prisilOps := [{ cmd := none, key := 0x454E, req := .qspi }], boot := { c.boot with dir := some { dir0 with regions := [(0x20000, 0x20000)] } } }
    let c := s.chip.pass 0
    decide (c.prisilOps = [{ cmd := none, key := 0x454E, req := .qspi }]) && !s.ext.enrolled && decide (c.mode = modeBoot)
      && decide (c.boot.dir.map (fun d => (d.region rgHELPER).2) = some 0x20000)) = true := by decide

set_option maxRecDepth 4000 in
theorem Tests.wit_UpdateCommands_1 : (let c := (w (updating 3 1 none false)).chip.pass 0
    c.takes .trestle && decide (c.upd.cmd = none ∧ c.boot.dir ≠ none ∧ c.stage = usVERIFIED ∧ c.upd.image.map (fun h => h.kind) = some 1)
      && !c.pfActive && !c.is pUPD F.UPD_UPD_STATUS_TRIAL && c.runOrService && c.live pUPD && c.trIs F.TRESTLE_TR_STATUS_TRIPLE_AVAIL && decide (c.trMode = trTRIPLE)) = true := by decide
set_option maxRecDepth 4000 in
theorem Tests.wit_UpdateCommands_2 : ∀ stage ∈ [usARMED, usPREPARING, usREADY, usREJECTED], (let c := (w (updating stage 2 none false)).chip.pass 0
    decide (c.stage = stage ∧ c.upd.cmd = none) && !c.pfActive) = true := by decide
set_option maxRecDepth 4000 in
theorem Tests.wit_UpdateCommands_3 : (let c := (w (updating 1 1 none true)).chip.pass 0
    c.is pUPD F.UPD_UPD_STATUS_TRIAL && decide (c.get pUPD F.UPD_UPD_STATUS_RUN_SLOT = c.get pUPD F.UPD_UPD_STATUS_ACTIVE_SLOT) && c.runOrService && !c.pfActive) = true := by decide
set_option maxRecDepth 4000 in
theorem Tests.wit_UpdateCommands_4 : (let c := (w (fun c => (updating 3 1 none true c).setReg pUPD 0x940 60)).chip.pass 0
    c.autoDue && decide ((w (fun c => (updating 3 1 (some (1, 0)) true c).put pCINCH F.CINCH_CINCH_STATUS_PF_ACTIVE 1)).chip.pfActive = true)) = true := by decide
set_option maxRecDepth 4000 in
theorem Tests.wit_UpdateOperationsEnd_1 : ∀ cmd ∈ [(1, 0), (2, 0), (3, 0), (6, 0)], (let c := (w (updating 3 1 (some cmd) true)).chip.pass 0
    decide (c.upd.cmd = some cmd ∧ c.boot.dir ≠ none ∧ c.upd.image ≠ none ∧ c.stage = usVERIFIED ∧ c.upd.dirDue = true) && !c.pfActive) = true := by decide
set_option maxRecDepth 4000 in
theorem Tests.wit_UpdateOperationsEnd_pf : ∀ cmd ∈ [(2, 0), (3, 0)], (let c := (w fun c => (updating 3 1 (some cmd) true c).put pCINCH F.CINCH_CINCH_STATUS_PF_ACTIVE 1).chip.pass 0
    decide (c.upd.cmd = some cmd ∧ c.boot.dir ≠ none ∧ c.upd.image ≠ none ∧ c.stage = usVERIFIED) && c.pfActive) = true := by decide
set_option maxRecDepth 4000 in
theorem Tests.wit_UpdateOperationsEnd_2 : (let s := w (fun c => (updating 5 1 (some (6, 0)) true c).put pBOOT F.BOOT_FW_SECVER_SEC_VER 3)
    let c := s.chip.pass 0
    decide (s.ext.thermCount < c.get pBOOT F.BOOT_FW_SECVER_SEC_VER ∧ c.upd.cmd = some (6, 0)) && !c.pfActive) = true := by decide
set_option maxRecDepth 4000 in
theorem Tests.wit_UpdateOperationsEnd_3 : (let c := (w (fun c => ((updating 6 1 none true c).put pTRESTLE F.TRESTLE_TR_STATUS_MODE trPAIR).put pTRESTLE F.TRESTLE_TR_STATUS_SPLIT 1)).chip.pass 0
    decide (c.stage = usPREPARING ∧ c.trMode = trPAIR) && c.trIs F.TRESTLE_TR_STATUS_SPLIT && decide (c.tr.work.map (fun x => (x.kind, x.handover)) = some (3, some 5) ∧ 5 + usCycles 1400 ≤ c.cycles)) = true := by decide
set_option maxRecDepth 4000 in
theorem Tests.wit_UpdateOperationsEnd_4 : (let c := (w fun c => (cluster 3 0x400 { working 3 (some (moded 2 c).cycles) with ckptAt := (moded 2 c).cycles } c).put pTRESTLE F.TRESTLE_TR_STATUS_MODE trPAIR).chip.pass 0
    decide (c.tr.work.map (fun x => (x.kind, x.handover)) = some (3, some c.cycles) ∧ c.cycles ≤ c.tr.ckptAt ∧ c.trMode = trPAIR)
      && !c.readyLate && !c.tr.bankBad) = true := by decide

set_option maxRecDepth 4000 in
theorem Tests.wit_CountersAndLife_1 : (let c := (w ageing).chip.pass 0
    c.takes .pcie && !c.is pPERF F.LOCK_LOCK && c.senseDue && decide (c.wear.at' + secCycles 1 ≤ c.cycles) && !c.dark && c.fwRuns && !c.pfActive
      && c.journalThere && decide (c.journalKey ≠ []) && c.wear.armed5 && c.wear.armed1 && decide (least (fun (m : Mech) => m.p10) (c.mechanisms mechs) = (300, 2))) = true := by decide
set_option maxRecDepth 4000 in
theorem Tests.wit_CountersAndLife_2 : (let c := (w fun c => { ageing c with cycles := 5, wear := { senseAt := 0 } }).chip.pass 0
    decide (c.cycles < c.wear.at' + secCycles 1) && !c.senseDue && !(w id).chip.fwRuns) = true := by decide

set_option maxRecDepth 4000 in
theorem Tests.wit_FrameOfRequests : (let c := (w (moded 2)).chip.pass 0
    c.takes .pcie && !c.locked pPERF && pageValid pFRER && hasTable pFRER && decide (c.win pFRER 0 = none ∧ c.win pFRER 1 = none) && !c.locked pFRER && decide (c.commitState pFRER = 0)) = true := by decide
theorem Tests.wit_FrameOfEvents : pageValid pSTORY = true ∧ State.reset.chip.snapAll = [] := by decide

theorem Tests.wit_StepRunsFront : ({ State.reset with pending := [.rtcAlarm 1] } : State).pending = [.rtcAlarm 1] := rfl
theorem Tests.wit_OnlyTheseWriteMemories : writesMemory (.rtcAlarm 1) = false := rfl
theorem Tests.wit_MemoriesStayCanonical : Ext.wf { flash := [(3, 5#8), (9, 0#8)], otp := [(25, 7#32)] } = true := by decide
theorem Tests.wit_CountersWrap : pageValid pRST = true ∧ isCounter pRST 0x404 = true ∧ (regRow pRST 0x404).map (fun r => r.acc) = some .ro := by decide
set_option maxRecDepth 4000 in
theorem Tests.wit_ResetCauses : (let c := (w fun c => (dog c).put pPWR F.PWR_MODE_STATUS_MODE 2).chip.pass 0
    c.takes .pcie && !c.dormant && c.wdtOn && decide (c.wdt.at' + c.wdtTimeout ≤ c.cycles) && !c.locked pRST) = true := by decide
set_option maxRecDepth 4000 in
theorem Tests.wit_Watchdog : (let c := (w dog).chip.pass 0
    c.takes .pcie && c.wdtOn && !c.wdt.warned && decide (c.wdt.at' + c.wdtTimeout ≤ c.cycles) && decide ((w id).chip.cycles < (w id).chip.wdt.at' + (w id).chip.wdtTimeout)) = true := by decide

/-! ## Well-formedness: an ill-formed term for each check, and a well-formed neighbour -/

theorem Tests.test_wf_page : (Instr.commitGo 0 .pcie ⟨.phy, 6⟩).wf = false ∧ (Instr.commitGo 0 .pcie ⟨.phy, 5⟩).wf = true := by decide
theorem Tests.test_wf_table : (Instr.tblRead 0 .pcie pSYS 0).wf = false ∧ (Instr.tblRead 0 .pcie pFDB 0).wf = true := by decide
theorem Tests.test_wf_snapshot : (Instr.snapTake 0 .pcie pTRING).wf = true ∧ (Instr.snapTake 0 .pcie pAON).wf = false := by decide
theorem Tests.test_wf_handle : (Instr.groupAtTime 0 .pcie 4096).wf = false ∧ (Instr.groupAtTime 0 .pcie 4095).wf = true := by decide
theorem Tests.test_wf_port : (Instr.wakeRx 0 28).wf = false ∧ (Instr.wakeRx 0 27).wf = true := by decide
theorem Tests.test_wf_legacy_port : (Instr.gateDeadlineDrop 0 5 8).wf = false ∧ (Instr.gateDeadlineDrop 0 5 7).wf = true := by decide
theorem Tests.test_wf_channel : (Instr.recover 0 .pcie 16).wf = false ∧ (Instr.wake 0 .pcie 8).wf = false ∧ (Instr.uartTx 0 4 false).wf = false
    ∧ (Instr.recover 0 .pcie 15).wf = true := by decide
theorem Tests.test_wf_ring : (Instr.start 0 .pcie 32).wf = false ∧ (Instr.start 0 .pcie 31).wf = true := by decide
theorem Tests.test_wf_link : (Instr.retrain 0 .pcie 2).wf = false ∧ (Instr.retrain 0 .pcie 1).wf = true := by decide
theorem Tests.test_wf_unit : (Instr.retire 0 .pcie 1024).wf = false ∧ (Instr.retire 0 .pcie 1023).wf = true := by decide
theorem Tests.test_wf_session : (Instr.tpHold 0 512).wf = false ∧ (Instr.tpHold 0 511).wf = true := by decide
theorem Tests.test_wf_slot : (Instr.clear 0 .trestle 64).wf = false ∧ (Instr.clear 0 .trestle 63).wf = true := by decide
theorem Tests.test_wf_key : (Instr.devRst 0 .pcie 65536).wf = false ∧ (Instr.devRst 0 .pcie 0x9648).wf = true := by decide

/-! ## The memories: a byte programmed, a sector erased, a word burned -/

theorem Tests.test_program_clears_bits : flashByte (flashProgram (flashProgram [] 5 [0xF0#8]) 5 [0x3C#8]) 5 = 0x30#8 := by decide
theorem Tests.test_erase_removes_entries : flashErase [(4, 1#8), (5, 2#8), (6, 3#8)] 5 1 = [(4, 1#8), (6, 3#8)] := by decide
theorem Tests.test_burn_keeps_bits : (Ext.burn (Ext.burn {} 25 5) 25 2).otpWord 25 = 7 := by decide
set_option maxRecDepth 4000 in
/-- The check value of R88 over the ASCII string 123456789. -/
theorem Tests.test_crc32 : crc32 [0x31, 0x32, 0x33, 0x34, 0x35, 0x36, 0x37, 0x38, 0x39] = 0xCBF43926 := by decide

/-! ## Frames: a state that meets the hypotheses, and a step on it -/

theorem Tests.test_idle : step State.reset = .next State.reset := rfl
theorem Tests.test_no_word : decodeTableWord 32 0 = none := rfl

/-! ## Single steps, with the results that the spec states -/

/-- The chip after one command, as a Bool of it. -/
def Tests.after (s : State) (i : Instr) (P : Chip → Bool) : Bool := match exec i s with | .next t => P t.chip | _ => false

/-- R6: CHIP_ID of a B0 part. -/
theorem Tests.test_chip_id : State.reset.chip.read .pcie pSYS 0x140 = 0x964800B0 := by decide
set_option maxRecDepth 4000 in
/-- R42, R47: an accepted GO shows VALIDATING. -/
theorem Tests.test_commit_go : after (w (moded 2)) (.commitGo 0 .trestle pFRER) (fun d => d.commitState pFRER == 1) = true := by decide
set_option maxRecDepth 4000 in
/-- R51: a commit request on a locked page is refused and logged LOCKED_WRITE (code 3). -/
theorem Tests.test_commit_locked : after (w fun c => (moded 2 c).setReg pFRER 0x030 1) (.commitGo 0 .trestle pFRER)
    (fun d => d.commitState pFRER == 0 && d.get pFRER F.ERR_CAUSE_CODE == 3) = true := by decide
set_option maxRecDepth 4000 in
/-- R319: the first kick is 0x5A5A; the other value is counted. -/
theorem Tests.test_kick : (after (w dog) (.wdtKick 0 .trestle 0x5A5A) (fun d => d.get pRST F.RST_WDT_STATUS_NEXT == 1)
    && after (w dog) (.wdtKick 0 .trestle 0xA5A5) (fun d => d.cntAt (cntKey pRST K.RST_WDT_BAD_KICK) == 1)) = true := by decide
set_option maxRecDepth 4000 in
/-- R320: a software reset with the key latches SW and counts. -/
theorem Tests.test_dev_rst : after (w (moded 2)) (.devRst 0 .trestle 0x9648) (fun d => d.reg pRST 0x140 == 0x00010009) = true := by decide
set_option maxRecDepth 4000 in
/-- R420: 85 °C falls into bin 11, [80, 90). -/
theorem Tests.test_temp_bin : after (w ageing) (.tempBinSecond 0) (fun d => d.cntAt (cntKey pWEAR 11) == 1) = true := by decide
set_option maxRecDepth 4000 in
/-- R356: OTP_CMD without its KEY gives RESULT KEY (1). -/
theorem Tests.test_otp_key : after (w (otpAt 4 none)) (.otpProgram 0 .trestle 0) (fun d => d.get pBOOT F.BOOT_OTP_STATUS_RESULT == 1 && d.otpOp.isNone) = true := by decide
set_option maxRecDepth 4000 in
/-- R403: UPD_CMD with a wrong KEY gives RESULT 2. -/
theorem Tests.test_upd_key : after (w (updating 3 1 none false)) (.verify 0 .trestle 0) (fun d => d.get pUPD F.UPD_UPD_CMD_STATUS_RESULT == 2 && d.stage == 3) = true := by
  decide
end

/-! Counters: what a page counter holds after it has counted (R29), and what its registers show (R56). -/

namespace Sys2Proof.Machine

open Sys2Proof

/-! ## Counting -/

@[simp] theorem Chip.cntAt_setCntAt_same (c : Chip) (k : Nat) (v : W48) : (c.setCntAt k v).cntAt k = v :=
  lookupD_store_same ..

theorem Chip.cntAt_setCntAt_other (c : Chip) {j k : Nat} (v : W48) (h : j ≠ k) : (c.setCntAt k v).cntAt j = c.cntAt j :=
  lookupD_store_other _ _ _ v h

/-- R29: a page counter counts modulo 2^48. -/
theorem Chip.toNat_cntAt_addCnt (c : Chip) (p : Page) (i n : Nat) :
    ((c.addCnt p i n).cntAt (cntKey p i)).toNat = ((c.cntAt (cntKey p i)).toNat + n) % 2 ^ 48 := by
  rw [Chip.addCnt, Chip.cntAt_setCntAt_same, BitVec.toNat_add, BitVec.toNat_ofNat, Nat.add_mod_mod]

/-- Counting advances no other counter: neither a page's nor a table entry's nor a pulse input's. -/
theorem Chip.cntAt_addCnt_other (c : Chip) (p : Page) (i n : Nat) {k : Nat} (h : k ≠ cntKey p i) :
    (c.addCnt p i n).cntAt k = c.cntAt k :=
  c.cntAt_setCntAt_other _ h

/-- R56: the snapshot stays while counters count on. -/
@[simp] theorem Chip.snap_addCnt (c : Chip) (p : Page) (i n : Nat) : (c.addCnt p i n).snap = c.snap :=
  c.snap_setCntAt _ _

/-! ## Reading a counter -/

theorem cntBase_ge (p : Page) : 0x300 ≤ cntBase p := by
  unfold cntBase
  split <;> decide

/-- The counters of a page stand above its header, its window and its snapshot control. -/
theorem le_of_isCounter {p : Page} {off : Nat} (h : isCounter p off = true) : 0x300 ≤ off := by
  simp only [isCounter, Bool.and_eq_true, decide_eq_true_eq] at h
  obtain ⟨⟨-, hbase⟩, -⟩ := h
  exact (cntBase_ge p).trans hbase

/-- A read-only register among a page's counters shows half a counter of the snapshot (R56). -/
theorem Chip.readRow_counter (c : Chip) (req : Requester) {p : Page} {off : Nat} {r : RegRow} (hro : r.acc = .ro)
    (hcnt : isCounter p off = true) :
    c.readRow req p off r = c.snapHalf (cntKey p ((off - cntBase p) / 8)) (off % 8 = 4) := by
  have hoff := le_of_isCounter hcnt
  have hwo : r.acc ≠ .wo := by rw [hro]; decide
  have hwindow : ¬ (hasTable p = true ∧ 0x104 ≤ off ∧ off < 0x124) := by omega
  have htblStatus : ¬ (hasTable p = true ∧ off = 0x128) := by omega
  rw [Chip.readRow, if_neg hwo, if_neg (by omega), if_neg (by omega), if_neg (by omega), if_neg (by omega), if_neg hwindow,
    if_neg htblStatus, if_pos ⟨hcnt, hro⟩]

theorem Chip.read_of_regRow (c : Chip) (req : Requester) {p : Page} {off : Nat} {r : RegRow} (hoff : off < 0x800)
    (hrow : regRow p off = some r) : c.read req p off = c.readRow req p off r := by
  rw [Chip.read, if_neg (by omega), hrow]

/-- A counter's registers show the snapshot and nothing else of the chip (R56). -/
theorem Chip.read_counter (c : Chip) (req : Requester) {p : Page} {off : Nat} {r : RegRow} (hoff : off < 0x800)
    (hrow : regRow p off = some r) (hro : r.acc = .ro) (hcnt : isCounter p off = true) :
    c.read req p off = c.snapHalf (cntKey p ((off - cntBase p) / 8)) (off % 8 = 4) := by
  rw [c.read_of_regRow req hoff hrow, c.readRow_counter req hro hcnt]

/-- Settles O58: `addCnt` is one write to the counters, and a counter's registers read the snapshot, which it leaves alone. -/
theorem countersWrap : Obligations.CountersWrap := by
  intro c p i n req _ _
  refine ⟨c.toNat_cntAt_addCnt p i n, fun k hk => c.cntAt_addCnt_other p i n hk, ?_⟩
  intro q off r hoff hrow hro hcnt
  simp [Chip.read_counter _ req hoff hrow hro hcnt, Chip.snapHalf]

end Sys2Proof.Machine

/-! What a step and a command of the queue do, whatever the command is. -/

namespace Sys2Proof.Machine

open Sys2Proof

/-! ## Completion -/

theorem completes_run (s : State) (dt : Nat) (f : Chip → Chip) :
    ∃ t, (.next (s.run dt f) : Host.Outcome State Fault Refusal) = .next t ∧ t.pending = s.pending :=
  ⟨_, rfl, State.run_pending ..⟩

theorem completes_runExt (s : State) (dt : Nat) (f : Chip → Ext → Chip × Ext) :
    ∃ t, (.next (s.runExt dt f) : Host.Outcome State Fault Refusal) = .next t ∧ t.pending = s.pending :=
  ⟨_, rfl, State.runExt_pending ..⟩

/-- Every command has a next state and leaves the queue as it finds it: some change chip and memories, all others the chip alone. -/
theorem exec_completes (i : Instr) (s : State) : ∃ t, exec i s = .next t ∧ t.pending = s.pending := by
  cases i
  case registerWrite | qspiWrite | remoteRequest | ehruzRequest | bootSequence | fallbackApply | flDone | flEraseTimeout | otpDone
      | unitCmdDone | cmdDone | verify | verifyDone | armNextStart | armComplete | disarm | disarmComplete | prepareHitless | cancelPrep
      | activationDirectoryWrite | confirm | confirmed | revert | autoConfirm | lifeRecordWrite => exact completes_runExt ..
  all_goals exact completes_run ..

theorem step_of_empty {s : State} (h : s.pending = []) : step s = .next s := by
  rw [step, h]

/-- Settles O52: the step of a queue with a front. -/
theorem stepRunsFront : Obligations.StepRunsFront := by
  intro s i rest h
  rw [step, h]

/-- Settles O53: the step is its front command, which completes and leaves the rest of the queue. -/
theorem everyStepCompletes : Obligations.EveryStepCompletes := by
  refine fun s => ⟨step_of_empty, fun i rest h => ?_⟩
  rw [stepRunsFront s i rest h]
  exact exec_completes i { s with pending := rest }

/-- A command that is an effect on the chip does what the effect does after the command's time has passed. -/
theorem Does.of_run {i : Instr} {s : State} {dt : Nat} {f : Chip → Chip} {P : Chip → Prop} (hi : exec i s = .next (s.run dt f))
    (h : P (f (s.chip.pass dt))) : Does i s P :=
  ⟨_, hi, State.run_ext .., State.run_pending .., h⟩

theorem DoesExt.of_runExt {i : Instr} {s : State} {dt : Nat} {f : Chip → Ext → Chip × Ext} {P : Chip → Ext → Prop}
    (hi : exec i s = .next (s.runExt dt f)) (h : P (f (s.chip.pass dt) s.ext).1 (f (s.chip.pass dt) s.ext).2) : DoesExt i s P :=
  ⟨_, hi, State.runExt_pending .., h⟩

end Sys2Proof.Machine

/-! Fields and header registers under the shared operations (R36, R38): puts, events, posted writes. -/

namespace Sys2Proof.Machine

open Sys2Proof

/-! ## Fields after a put -/

/-- A put of `g` changes nothing of `f`: the fields stand in different registers or in different bits of one. -/
def Fld.apart (f g : Fld) : Bool :=
  f.fits && g.fits && (decide (f.actOff ≠ g.off) || decide (f.lo + f.width ≤ g.lo ∨ g.lo + g.width ≤ f.lo))

theorem Chip.get_put_apart (c : Chip) {p q : Page} {f g : Fld} (v : Nat) (hp : pageValid p = true) (hq : pageValid q = true)
    (h : f.apart g = true) : (c.put q g v).get p f = c.get p f := by
  simp only [Fld.apart, Bool.and_eq_true, Bool.or_eq_true, decide_eq_true_eq] at h
  obtain ⟨⟨hf, hg⟩, h⟩ := h
  by_cases hpq : p = q
  · subst hpq
    by_cases ho : f.actOff = g.off
    · exact c.get_put_bits v hp hg ho (h.resolve_left (absurd ho))
    · exact c.get_put_off p v ho
  · exact c.get_put_page v hp hq hf hg hpq

theorem Chip.get_lt (c : Chip) (p : Page) (f : Fld) : c.get p f < 2 ^ f.width := bitsAt_lt ..

/-! ## Events and header fields -/

theorem quiet_of_header {a : Nat} (q : Page) (h : a < 0x140) (hne : a ≠ 0x018) : quiet q a = true := by
  have : a ≠ 0x380 ∧ a ≠ 0x384 ∧ a ≠ 0x148 := by omega
  simp [quiet, still, hne, this]

/-- A field of the header, of the window or of the snapshot control, but for the bits of `EVT_RAW`. -/
def Fld.inHeader (f : Fld) : Bool := f.fits && !f.rws && decide (f.off < 0x140 ∧ f.off ≠ 0x018)

theorem Fld.inHeader_iff (f : Fld) : f.inHeader = true ↔ f.fits = true ∧ f.actOff = f.off ∧ f.off < 0x140 ∧ f.off ≠ 0x018 := by
  cases h : f.rws <;> simp [Fld.inHeader, Fld.actOff, h]

theorem Fld.apart_of_header {f g : Fld} (hf : f.inHeader = true) (hg : g.fits = true) (h : f.off ≠ g.off) : f.apart g = true := by
  obtain ⟨hfit, hact, -⟩ := f.inHeader_iff.1 hf
  simp [Fld.apart, hfit, hact, hg, h]

/-- An event leaves every field of every header alone (R52). -/
theorem Chip.get_raise_header (c : Chip) {p q : Page} {f : Fld} (b : Nat) (hp : pageValid p = true) (hq : pageValid q = true)
    (h : f.inHeader = true) : (c.raise q b).get p f = c.get p f := by
  obtain ⟨hfit, hact, ho, hne⟩ := f.inHeader_iff.1 h
  exact (Loud.raise c b hq).get hp hfit (hact ▸ quiet_of_header p ho hne)

/-! ## What a posted write finds -/

@[simp] theorem Chip.get_sequenced (c : Chip) (req : Requester) (p : Page) (f : Fld) : (c.sequenced req).get p f = c.get p f := by
  simp [Chip.get]

@[simp] theorem Chip.locked_sequenced (c : Chip) (req : Requester) (p : Page) : (c.sequenced req).locked p = c.locked p := by
  simp [Chip.locked, Chip.is]

@[simp] theorem Chip.commitState_sequenced (c : Chip) (req : Requester) (p : Page) :
    (c.sequenced req).commitState p = c.commitState p := by
  simp [Chip.commitState]

@[simp] theorem Chip.timeValid_sequenced (c : Chip) (req : Requester) : (c.sequenced req).timeValid = c.timeValid := by
  simp [Chip.timeValid]

end Sys2Proof.Machine

/-! Commit requests of a page (R42 to R47): what accepting and rejecting leave in COMMIT_STATUS. -/

namespace Sys2Proof.Machine

open Sys2Proof

/-! ## The record of a request -/

@[simp] theorem Chip.commits_put (c : Chip) (p : Page) (f : Fld) (v : Nat) : (c.put p f v).commits = c.commits :=
  Chip.commits_setRegAt ..

@[simp] theorem Chip.cycles_put (c : Chip) (p : Page) (f : Fld) (v : Nat) : (c.put p f v).cycles = c.cycles :=
  Chip.cycles_setRegAt ..

@[simp] theorem Chip.commits_setCommitRt (c : Chip) (p : Page) (x : CommitRt) :
    (c.setCommitRt p x).commits = store {} c.commits (pageIdx p) x := rfl

@[simp] theorem Chip.get_setCommitRt (c : Chip) (p q : Page) (x : CommitRt) (f : Fld) : (c.setCommitRt p x).get q f = c.get q f := by
  simp [Chip.get]

/-! ## Accepted (R42) -/

@[simp] theorem Chip.cycles_acceptCommit (c : Chip) (p : Page) (st : Nat) : (c.acceptCommit p st).cycles = c.cycles := by
  simp [Chip.acceptCommit]

/-- Accepting a request changes no field outside the page's COMMIT_STATUS. -/
theorem Chip.get_acceptCommit (c : Chip) {p q : Page} {f : Fld} (st : Nat) (hp : pageValid p = true) (hq : pageValid q = true)
    (hf : f.fits = true) (h : q ≠ p ∨ f.actOff ≠ 0x02C) : (c.acceptCommit p st).get q f = c.get q f := by
  rcases h with h | h
  · simp [Chip.acceptCommit, Chip.get_put_page _ _ hq hp hf, h, Fld.fits]
  · have : ∀ g : Fld, g.fits = true → g.off = 0x02C → f.apart g = true := fun g hg ho => by simp [Fld.apart, hf, hg, ho, h]
    simp [Chip.acceptCommit, Chip.get_put_apart _ _ hq hp, this, Fld.fits]

section
variable (c : Chip) {p : Page} (hp : pageValid p = true)
include hp

theorem Chip.commitState_acceptCommit {st : Nat} (h : st < 8) : (c.acceptCommit p st).commitState p = st := by
  simp [Chip.acceptCommit, Chip.commitState, Chip.get_put_same, hp, Fld.fits, Nat.mod_eq_of_lt h]

theorem Chip.reason_acceptCommit (st : Nat) : (c.acceptCommit p st).get p F.COMMIT_STATUS_REASON = 0 := by
  simp [Chip.acceptCommit, Chip.get_put_apart, Chip.get_put_same, hp, Fld.apart, Fld.fits, Fld.actOff]

theorem Chip.pendingGen_acceptCommit (st : Nat) :
    (c.acceptCommit p st).get p F.COMMIT_STATUS_PENDING_GEN = (c.get p F.COMMIT_STATUS_PENDING_GEN + 1) % 256 := by
  simp [Chip.acceptCommit, Chip.get_put_apart, Chip.get_put_same, hp, Fld.apart, Fld.fits, Fld.actOff]

/-! ## Rejected (R43) -/

theorem Chip.commitState_rejectPage (reason detail : Nat) : (c.rejectPage p reason detail).commitState p = 0 := by
  simp [Chip.rejectPage, Chip.commitState, Chip.get_raise_header, Chip.get_put_apart, Chip.get_put_same, hp, Fld.inHeader, Fld.apart,
    Fld.fits, Fld.actOff]

theorem Chip.reason_rejectPage (reason detail : Nat) :
    (c.rejectPage p reason detail).get p F.COMMIT_STATUS_REASON = reason % 16 := by
  simp [Chip.rejectPage, Chip.get_raise_header, Chip.get_put_apart, Chip.get_put_same, hp, Fld.inHeader, Fld.apart, Fld.fits, Fld.actOff]

theorem Chip.detail_rejectPage (reason detail : Nat) :
    (c.rejectPage p reason detail).get p F.COMMIT_STATUS_DETAIL = detail % 256 := by
  simp [Chip.rejectPage, Chip.get_raise_header, Chip.get_put_same, hp, Fld.inHeader, Fld.fits]

theorem Chip.latched_rejectPage (reason detail : Nat) : (c.rejectPage p reason detail).latched p E.COMMIT_REJECT = true :=
  Chip.latched_raise _ hp (by decide)

end

theorem Chip.commitRt_rejectPage (c : Chip) (p : Page) (reason detail : Nat) : (c.rejectPage p reason detail).commitRt p = {} := by
  simp [Chip.rejectPage, Chip.commitRt]

/-! ## Requests -/

theorem Chip.timeValid_acceptCommit (c : Chip) {p : Page} (st : Nat) (hp : pageValid p = true) :
    (c.acceptCommit p st).timeValid = c.timeValid := by
  rw [Chip.timeValid, Chip.timeValid, c.get_acceptCommit st hp rfl (by decide) (.inr (by decide))]

/-- A request that needs no time, or finds the time valid, is accepted (R42). -/
theorem Chip.requestPage_accepted (c : Chip) {p : Page} {atTime : Bool} (h : Nat) (hp : pageValid p = true)
    (ht : atTime = true → c.timeValid = true) :
    c.requestPage p atTime h = (c.acceptCommit p 1).setCommitRt p { atTime := atTime, handle := h, since := c.cycles } := by
  have hv : ((c.acceptCommit p 1).setCommitRt p { atTime := atTime, handle := h, since := c.cycles }).timeValid = c.timeValid := by
    rw [← c.timeValid_acceptCommit 1 hp]
    simp [Chip.timeValid]
  simp only [Chip.requestPage]
  rw [if_neg (by rw [hv]; exact fun ⟨h1, h2⟩ => h2 (ht h1))]

/-- GO and AT_TIME of an idle page that is not locked are requests (R42). -/
theorem Chip.commitPosted_request (c : Chip) {req : Requester} {p : Page} {a : Nat} (h : Nat) (ht : c.takes req = true)
    (hp : pageValid p = true) (hl : c.locked p = false) (hs : c.commitState p = 0) (ha : a = 1 ∨ a = 2) :
    c.commitPosted req p a h = (c.sequenced req).requestPage p (decide (a = 2)) (h % 4096) := by
  refine c.posted_ok ht hp ?_
  rcases ha with rfl | rfl <;> simp [Chip.commitWrite, hl, hs]

/-- ABORT of a page's own request rejects it (R44). -/
theorem Chip.commitPosted_abort (c : Chip) {req : Requester} {p : Page} (h : Nat) (ht : c.takes req = true) (hp : pageValid p = true)
    (hs : c.commitState p = 1 ∨ c.commitState p = 2 ∨ c.commitState p = 3) :
    c.commitPosted req p 3 h = (c.sequenced req).rejectPage p 7 0 := by
  refine c.posted_ok ht hp ?_
  rcases hs with hs | hs | hs <;> simp [Chip.commitWrite, hs]

/-- What an accepted request leaves (R36, R42). -/
theorem Chip.requestPage_record (c : Chip) {p : Page} {atTime : Bool} (h : Nat) (hp : pageValid p = true)
    (ht : atTime = true → c.timeValid = true) :
    let d := c.requestPage p atTime h
    d.commitState p = 1 ∧ d.get p F.COMMIT_STATUS_REASON = 0
      ∧ d.get p F.COMMIT_STATUS_PENDING_GEN = (c.get p F.COMMIT_STATUS_PENDING_GEN + 1) % 256
      ∧ d.commitRt p = { atTime := atTime, handle := h, since := c.cycles } := by
  simp only [c.requestPage_accepted h hp ht, Chip.commitState, Chip.get_setCommitRt]
  exact ⟨c.commitState_acceptCommit hp (by decide), c.reason_acceptCommit hp 1, c.pendingGen_acceptCommit hp 1,
    by simp [Chip.commitRt]⟩

/-! ## Validation and the safe point -/

section
variable {c : Chip} {p : Page} (hs : c.commitState p = 1) (hl : c.live p = true)
include hs hl

theorem Chip.validated_bad (hv : (c.validate p [pageIdx p]).1 ≠ 0) :
    c.validated p = c.rejectPage p (c.validate p [pageIdx p]).1 (c.validate p [pageIdx p]).2 := by
  simp [Chip.validated, hs, hl, hv]

/-- A GO request whose safe point is not now waits for it (R45). -/
theorem Chip.validated_waits (hv : (c.validate p [pageIdx p]).1 = 0) (hg : (c.commitRt p).atTime = false) (hn : c.safeNow p = false) :
    c.validated p = (c.put p F.COMMIT_STATUS_STATE 2).setCommitRt p { c.commitRt p with since := c.cycles } := by
  simp [Chip.validated, hs, hl, hv, hg, hn]

/-- An AT_TIME request of an enabled page is bound to its action (R47). -/
theorem Chip.validated_armed (hv : (c.validate p [pageIdx p]).1 = 0) (hg : (c.commitRt p).atTime = true)
    (hh : c.handleOk (c.commitRt p).handle = true) (he : c.enabled p = true) : c.validated p = c.put p F.COMMIT_STATUS_STATE 3 := by
  simp [Chip.validated, hs, hl, hv, hg, hh, he]

end

theorem Chip.safeTimeout_rejects {c : Chip} {p : Page} (hs : c.commitState p = 2) (ht : (c.commitRt p).since + c.safeTmo ≤ c.cycles)
    (hn : eventSafe p = true ∨ c.safePoint p (c.commitRt p).since = false) : c.safeTimeout p = c.rejectPage p 9 0 := by
  rw [Chip.safeTimeout, if_pos ⟨hs, ht, by simpa using hn⟩]

theorem Chip.commitState_put (c : Chip) {p : Page} {st : Nat} (hp : pageValid p = true) (h : st < 8) :
    (c.put p F.COMMIT_STATUS_STATE st).commitState p = st :=
  (c.get_put_same st hp (by decide) rfl).trans (Nat.mod_eq_of_lt h)

/-- Settles O1: each command of a page's request accepts it, moves it on or rejects it. -/
theorem commitRequests : Obligations.CommitRequests := by
  intro s dt req p h c hp
  refine ⟨fun ht hl hs => Does.of_run rfl ?_, fun ht hl hs hv => Does.of_run rfl ?_, fun ht hs => Does.of_run rfl ?_,
    fun hs hl hv hg hn => Does.of_run rfl ?_, fun hs hl hv hg hh he => Does.of_run rfl ?_, fun hs hl hv => Does.of_run rfl ?_,
    fun hs ht hn => Does.of_run rfl ?_⟩
  case refine_1 =>
    rw [Chip.commitPosted_request _ _ ht hp hl hs (.inl rfl)]
    simpa using Chip.requestPage_record (c.sequenced req) (atTime := false) 0 hp nofun
  case refine_2 =>
    rw [Chip.commitPosted_request _ _ ht hp hl hs (.inr rfl)]
    simpa using Chip.requestPage_record (c.sequenced req) (atTime := true) (h % 4096) hp (by simpa using hv)
  case refine_3 =>
    rw [Chip.commitPosted_abort _ _ ht hp hs]
    exact ⟨Chip.commitState_rejectPage _ hp .., Chip.reason_rejectPage _ hp .., Chip.latched_rejectPage _ hp .., Chip.commitRt_rejectPage ..⟩
  all_goals rw [if_pos hp]
  case refine_4 =>
    rw [Chip.validated_waits hs hl hv hg hn]
    exact ⟨(Chip.get_setCommitRt ..).trans (Chip.commitState_put _ hp (by decide)), by simp [Chip.commitRt]⟩
  case refine_5 =>
    rw [Chip.validated_armed hs hl hv hg hh he]
    exact Chip.commitState_put _ hp (by decide)
  case refine_6 =>
    rw [Chip.validated_bad hs hl hv]
    exact ⟨Chip.commitState_rejectPage _ hp .., Chip.latched_rejectPage _ hp .., Chip.commitRt_rejectPage .., Chip.reason_rejectPage _ hp ..,
      Chip.detail_rejectPage _ hp ..⟩
  case refine_7 =>
    rw [Chip.safeTimeout_rejects hs ht hn]
    exact ⟨Chip.commitState_rejectPage _ hp .., Chip.reason_rejectPage _ hp .., Chip.latched_rejectPage _ hp ..⟩

end Sys2Proof.Machine

/-! Group commits (R48 to R50): what becomes of the group's record and of GRP_STATUS. -/

namespace Sys2Proof.Machine

open Sys2Proof

/-! ## The group's record -/

/-- The chip with another group request. -/
def Chip.setGroup (c : Chip) (g : GroupRt) : Chip := { c with group := g }

@[simp] theorem Chip.group_setGroup (c : Chip) (g : GroupRt) : (c.setGroup g).group = g := rfl

@[simp] theorem Chip.reg_setGroup (c : Chip) (g : GroupRt) (p : Page) (a : Nat) : (c.setGroup g).reg p a = c.reg p a :=
  reg_congr (by rw [Chip.setGroup]) ..

@[simp] theorem Chip.get_setGroup (c : Chip) (g : GroupRt) (p : Page) (f : Fld) : (c.setGroup g).get p f = c.get p f := by
  simp [Chip.get]

@[simp] theorem Chip.group_put (c : Chip) (p : Page) (f : Fld) (v : Nat) : (c.put p f v).group = c.group := Chip.group_setRegAt ..

@[simp] theorem Chip.groupState_sequenced (c : Chip) (req : Requester) : (c.sequenced req).groupState = c.groupState := by
  simp [Chip.groupState]

@[simp] theorem Chip.masked_sequenced (c : Chip) (req : Requester) : (c.sequenced req).masked = c.masked := by
  simp [Chip.masked]

/-! ## The end of a group (R48, R49) -/

theorem Chip.endGroup_eq (c : Chip) (reason : Nat) (failPage : Option Nat) : c.endGroup reason failPage =
    ((((c.put pSYS F.SYS_GRP_STATUS_STATE 0).put pSYS F.SYS_GRP_STATUS_REASON reason).put pSYS F.SYS_GRP_STATUS_FAIL_VALID
      failPage.isSome.toNat).put pSYS F.SYS_GRP_STATUS_FAIL_PAGE (failPage.getD 0)).setGroup {} := by
  rw [Chip.setGroup, Chip.endGroup]

section
variable (c : Chip) (reason : Nat) (failPage : Option Nat)

@[simp] theorem Chip.group_endGroup : (c.endGroup reason failPage).group = {} := rfl

@[simp] theorem Chip.groupState_endGroup : (c.endGroup reason failPage).groupState = 0 := by
  simp [Chip.endGroup_eq, Chip.groupState, Chip.get_put_apart, Chip.get_put_same, Fld.apart, Fld.fits, Fld.actOff, pageValid]

theorem Chip.reason_endGroup : (c.endGroup reason failPage).get pSYS F.SYS_GRP_STATUS_REASON = reason % 16 := by
  simp [Chip.endGroup_eq, Chip.get_put_apart, Chip.get_put_same, Fld.apart, Fld.fits, Fld.actOff, pageValid]

theorem Chip.failValid_endGroup : (c.endGroup reason failPage).get pSYS F.SYS_GRP_STATUS_FAIL_VALID = failPage.isSome.toNat := by
  have h : failPage.isSome.toNat % 2 = failPage.isSome.toNat := by cases failPage <;> rfl
  simp [Chip.endGroup_eq, Chip.get_put_apart, Chip.get_put_same, Fld.apart, Fld.fits, Fld.actOff, pageValid, h]

theorem Chip.failPage_endGroup : (c.endGroup reason failPage).get pSYS F.SYS_GRP_STATUS_FAIL_PAGE = failPage.getD 0 % 128 := by
  simp [Chip.endGroup_eq, Chip.get_put_same, Fld.fits, pageValid]

/-- The end of a group changes no field outside GRP_STATUS. -/
theorem Chip.get_endGroup {p : Page} {f : Fld} (hp : pageValid p = true) (hf : f.fits = true) (h : f.actOff ≠ 0x184) :
    (c.endGroup reason failPage).get p f = c.get p f := by
  have ha : ∀ g : Fld, g.fits = true → g.off = 0x184 → f.apart g = true := fun g hg ho => by simp [Fld.apart, hf, hg, ho, h]
  have hs : pageValid pSYS = true := rfl
  simp [Chip.endGroup_eq, Chip.get_put_apart _ _ hp hs, ha, Fld.fits]

end

@[simp] theorem Chip.cycles_endGroup (c : Chip) (reason : Nat) (failPage : Option Nat) :
    (c.endGroup reason failPage).cycles = c.cycles := by
  rw [Chip.endGroup]
  simp

/-! ## Members -/

theorem pageOfIdx_of_ge {i : Nat} (h : 126 ≤ i) : pageOfIdx i = none := by
  unfold pageOfIdx
  simp (disch := omega) only [if_neg]

theorem pageValid_of_pageOfIdx {i : Nat} {p : Page} (h : pageOfIdx i = some p) : pageValid p = true := by
  have hall : ∀ i < 126, (pageOfIdx i).all pageValid = true := by decide
  have hi : i < 126 := by
    by_contra hi
    rw [pageOfIdx_of_ge (by omega)] at h
    cases h
  simpa [h] using hall i hi

/-- A page becomes a member of the group (R48), by its summary index. -/
def Chip.join (c : Chip) (i : Nat) : Chip :=
  match pageOfIdx i with
  | some p => c.acceptCommit p 4
  | none => c

@[simp] theorem Chip.cycles_join (c : Chip) (i : Nat) : (c.join i).cycles = c.cycles := by
  unfold Chip.join
  split <;> simp

theorem Chip.get_join (c : Chip) {p : Page} {f : Fld} (i : Nat) (hp : pageValid p = true) (hf : f.fits = true)
    (h : f.actOff ≠ 0x02C) : (c.join i).get p f = c.get p f := by
  unfold Chip.join
  split
  next q hq => exact c.get_acceptCommit 4 (pageValid_of_pageOfIdx hq) hp hf (.inr h)
  next => rfl

theorem Chip.commitState_join (c : Chip) {p : Page} (i : Nat) (hp : pageValid p = true) :
    (c.join i).commitState p = if pageOfIdx i = some p then 4 else c.commitState p := by
  unfold Chip.join
  cases hq : pageOfIdx i with
  | none => simp
  | some q =>
    by_cases hqp : q = p
    · simp [hqp, c.commitState_acceptCommit hp (st := 4) (by decide)]
    · have := c.get_acceptCommit (f := F.COMMIT_STATUS_STATE) 4 (pageValid_of_pageOfIdx hq) hp (by decide) (.inl (Ne.symm hqp))
      simpa [hqp, Chip.commitState] using this

section
variable (c : Chip) (l : List Nat)

@[simp] theorem Chip.cycles_foldl_join : (l.foldl Chip.join c).cycles = c.cycles := by
  induction l generalizing c with
  | nil => rfl
  | cons i l ih => simp [ih]

theorem Chip.get_foldl_join {p : Page} {f : Fld} (hp : pageValid p = true) (hf : f.fits = true) (h : f.actOff ≠ 0x02C) :
    (l.foldl Chip.join c).get p f = c.get p f := by
  induction l generalizing c with
  | nil => rfl
  | cons i l ih => rw [List.foldl_cons, ih, c.get_join i hp hf h]

theorem Chip.commitState_foldl_join {p : Page} (hp : pageValid p = true) :
    (l.foldl Chip.join c).commitState p = if ∃ i ∈ l, pageOfIdx i = some p then 4 else c.commitState p := by
  induction l generalizing c with
  | nil => simp
  | cons i l ih =>
    rw [List.foldl_cons, ih, c.commitState_join i hp]
    by_cases hi : pageOfIdx i = some p <;> simp [hi]

end

theorem Chip.pageOfIdx_of_masked {c : Chip} {i : Nat} (h : i ∈ c.masked) : ∃ p, pageOfIdx i = some p := by
  simp only [Chip.masked, List.mem_filter, Bool.and_eq_true] at h
  exact Option.isSome_iff_exists.1 h.2.2

/-! ## Requests (R48) -/

/-- A group request advances GEN and clears the result of the group before it. -/
def Chip.groupAsked (c : Chip) : Chip := (c.put pSYS F.SYS_GRP_STATUS_GEN (c.get pSYS F.SYS_GRP_STATUS_GEN + 1)).endGroup 0 none

theorem Chip.get_groupAsked (c : Chip) {p : Page} {f : Fld} (hp : pageValid p = true) (hf : f.fits = true) (h : f.actOff ≠ 0x184) :
    c.groupAsked.get p f = c.get p f := by
  have ha : f.apart F.SYS_GRP_STATUS_GEN = true := by
    have hg : F.SYS_GRP_STATUS_GEN.fits = true := by decide
    simp [Fld.apart, hf, hg, h]
  rw [Chip.groupAsked, Chip.get_endGroup _ _ _ hp hf h, c.get_put_apart _ hp rfl ha]

@[simp] theorem Chip.cycles_groupAsked (c : Chip) : c.groupAsked.cycles = c.cycles := by
  simp [Chip.groupAsked]

/-- The selected pages are all idle, so that none refuses a group request (R48). -/
def Chip.maskedIdle (c : Chip) : Prop := ∀ i ∈ c.masked, ∀ p, pageOfIdx i = some p → c.commitState p = 0

/-- A group request of idle pages is accepted: they are its members (R48). -/
theorem Chip.requestGroup_accepted {c : Chip} {atTime : Bool} (h : Nat) (hne : c.masked ≠ []) (hidle : c.maskedIdle)
    (ht : atTime = true → c.timeValid = true) : c.requestGroup atTime h =
      ((c.masked.foldl Chip.join c.groupAsked).setGroup { atTime := atTime, handle := h, since := c.cycles, members := c.masked }).put
        pSYS F.SYS_GRP_STATUS_STATE 1 := by
  have hidle' : ∀ i ∈ c.masked, ∀ p, pageOfIdx i = some p → c.groupAsked.commitState p = 0 := fun i hi p hp =>
    (c.get_groupAsked (pageValid_of_pageOfIdx hp) (by decide) (by decide)).trans (hidle i hi p hp)
  have htime : ((c.masked.foldl Chip.join c.groupAsked).setGroup
      { atTime := atTime, handle := h, since := c.cycles, members := c.masked }).timeValid = c.timeValid := by
    rw [Chip.timeValid, Chip.get_setGroup, Chip.get_foldl_join _ _ rfl (by decide) (by decide),
      c.get_groupAsked rfl (by decide) (by decide), Chip.timeValid]
  have hcycles : (c.masked.foldl Chip.join c.groupAsked).cycles = c.cycles := by simp
  rw [← hcycles] at htime ⊢
  unfold Chip.requestGroup
  extract_lets ms d
  split
  next i hi =>
    obtain ⟨p, hp⟩ := Chip.pageOfIdx_of_masked (List.mem_of_find?_eq_some hi)
    have hbusy := List.find?_some hi
    simp only [hp, decide_eq_true_eq] at hbusy
    exact absurd (hidle' i (List.mem_of_find?_eq_some hi) p hp) hbusy
  next e e' _ _ =>
    rw [if_neg hne]
    have he' : e' = (c.masked.foldl Chip.join c.groupAsked).setGroup
      { atTime := atTime, handle := h, since := (c.masked.foldl Chip.join c.groupAsked).cycles, members := c.masked } := rfl
    rw [if_neg (by rw [he', htime]; exact fun ⟨h1, h2⟩ => h2 (ht h1)), he']

/-- What a group request that is accepted leaves (R48): its record, and its members in GROUP. -/
theorem Chip.requestGroup_record {c : Chip} {atTime : Bool} (h : Nat) (hne : c.masked ≠ []) (hidle : c.maskedIdle)
    (ht : atTime = true → c.timeValid = true) :
    let d := c.requestGroup atTime h
    d.groupState = 1 ∧ (∀ i ∈ c.masked, ∀ p, pageOfIdx i = some p → d.commitState p = 4)
      ∧ d.group = { atTime := atTime, handle := h, since := c.cycles, members := c.masked } := by
  simp only [Chip.requestGroup_accepted h hne hidle ht]
  refine ⟨Chip.get_put_same _ 1 rfl (by decide) rfl, fun i hi p hp => ?_, by simp⟩
  have hv := pageValid_of_pageOfIdx hp
  rw [Chip.commitState, Chip.get_put_apart _ _ hv rfl (by decide), Chip.get_setGroup]
  exact (Chip.commitState_foldl_join _ _ hv).trans (if_pos ⟨i, hi, hp⟩)

/-- GRP_CMD with GO or AT_TIME while no group is in progress is a group request. -/
theorem Chip.groupPosted_request (c : Chip) {req : Requester} {a : Nat} (h : Nat) (ht : c.takes req = true) (hs : c.groupState = 0)
    (ha : a = 1 ∨ a = 2) : c.groupPosted req a h = (c.sequenced req).requestGroup (decide (a = 2)) (h % 4096) := by
  refine c.posted_ok ht rfl ?_
  rcases ha with rfl | rfl <;> simp [Chip.groupWrite, hs]

/-- ABORT ends the group in progress with ABORTED (R50). -/
theorem Chip.groupPosted_abort (c : Chip) {req : Requester} (h : Nat) (ht : c.takes req = true) (hs : c.groupState ≠ 0) :
    c.groupPosted req 3 h = ((c.sequenced req).rejectMembers 7).endGroup 7 none := by
  refine c.posted_ok ht rfl ?_
  simp [Chip.groupWrite, hs]

/-! ## Validation and the common safe point (R48, R49) -/

theorem Chip.groupValidated_bad {c : Chip} {i : Nat} (hs : c.groupState = 1)
    (hf : c.group.members.find? (fun i => decide ((c.memberCheck i).1 ≠ 0)) = some i) :
    c.groupValidated = c.rejectGroup i (c.memberCheck i).1 (c.memberCheck i).2 := by
  rw [Chip.groupValidated, if_neg (by simp [hs]), hf]

section
variable {c : Chip} (hs : c.groupState = 1) (hm : (c.group.members.all fun i => decide ((c.memberCheck i).1 = 0)) = true)
include hs hm

theorem Chip.groupValidated_good : c.groupValidated =
    if c.group.atTime then
      if c.handleOk c.group.handle then c.put pSYS F.SYS_GRP_STATUS_STATE 3
      else (c.rejectMembers rsnHandle).endGroup rsnHandle c.group.members.head?
    else if c.groupSafe false then c.applyGroup false
    else (c.put pSYS F.SYS_GRP_STATUS_STATE 2).setGroup { c.group with since := c.cycles } := by
  have hf : c.group.members.find? (fun i => decide ((c.memberCheck i).1 ≠ 0)) = none := by
    simpa using hm
  rw [Chip.groupValidated, if_neg (by simp [hs]), hf, Chip.setGroup]

end

theorem Chip.applyGroup_live {c : Chip} (late : Bool) (hl : (c.groupPages.all fun p => c.live p) = true) :
    ∃ d : Chip, c.applyGroup late = d.endGroup 0 none := by
  have hf : c.groupPages.find? (fun p => !c.live p) = none := by simpa using hl
  rw [Chip.applyGroup, hf]
  exact ⟨_, rfl⟩

theorem Chip.groupState_put (c : Chip) {st : Nat} (h : st < 8) : (c.put pSYS F.SYS_GRP_STATUS_STATE st).groupState = st :=
  (c.get_put_same st rfl (by decide) rfl).trans (Nat.mod_eq_of_lt h)

/-- Settles O2: each group command makes a request, moves it on, or ends it with its result. -/
theorem groupRequests : Obligations.GroupRequests := by
  intro s dt req h c idle
  have hidle : idle = true → (c.sequenced req).maskedIdle := by
    intro hi i hm p hp
    have := List.all_eq_true.1 hi i (by simpa using hm)
    simpa [hp] using this
  refine ⟨fun ht hs hne hi => Does.of_run rfl ?_, fun ht hs hne hi hv => Does.of_run rfl ?_, fun ht hs => Does.of_run rfl ?_,
    fun hs hm hg hn => Does.of_run rfl ?_, fun hs hm hg hh => Does.of_run rfl ?_, fun i hs hf => Does.of_run rfl ?_,
    fun hs hsafe ht hl => Does.of_run rfl ?_, fun hs ht hn => Does.of_run rfl ?_⟩
  case refine_1 =>
    rw [Chip.groupPosted_request _ _ ht hs (.inl rfl)]
    obtain ⟨hst, hms, hg⟩ := Chip.requestGroup_record (atTime := false) 0 (by simpa using hne) (hidle hi) nofun
    refine ⟨hst, List.all_eq_true.2 fun i hm => ?_, by simpa using hg⟩
    obtain ⟨p, hp⟩ := Chip.pageOfIdx_of_masked hm
    simpa [hp] using hms i (by simpa using hm) p hp
  case refine_2 =>
    rw [Chip.groupPosted_request _ _ ht hs (.inr rfl)]
    obtain ⟨hst, -, hg⟩ := Chip.requestGroup_record (atTime := true) (h % 4096) (by simpa using hne) (hidle hi) (by simpa using hv)
    exact ⟨hst, by simpa using hg⟩
  case refine_3 =>
    rw [Chip.groupPosted_abort _ _ ht hs]
    exact ⟨Chip.groupState_endGroup .., Chip.group_endGroup .., Chip.reason_endGroup ..⟩
  case refine_4 =>
    rw [Chip.groupValidated_good hs hm, if_neg (ne_true_of_eq_false hg), if_neg (ne_true_of_eq_false hn)]
    exact ⟨(Chip.get_setGroup ..).trans (Chip.groupState_put _ (by decide)), rfl⟩
  case refine_5 =>
    rw [Chip.groupValidated_good hs hm, if_pos hg, if_pos hh]
    exact ⟨Chip.groupState_put _ (by decide), by simp [c]⟩
  case refine_6 =>
    rw [Chip.groupValidated_bad hs hf, Chip.rejectGroup]
    exact ⟨Chip.groupState_endGroup .., Chip.group_endGroup .., Chip.reason_endGroup .., Chip.failValid_endGroup .., Chip.failPage_endGroup ..⟩
  case refine_7 =>
    obtain ⟨d, hd⟩ := Chip.applyGroup_live false hl
    rw [Chip.groupApply, if_pos ⟨hs, hsafe⟩, if_pos ht, hd]
    exact ⟨Chip.groupState_endGroup .., Chip.group_endGroup .., Chip.reason_endGroup .., Chip.failValid_endGroup ..⟩
  case refine_8 =>
    rw [Chip.groupTimeout, if_pos ⟨hs, ht, ne_true_of_eq_false hn⟩]
    exact ⟨Chip.groupState_endGroup .., Chip.group_endGroup .., Chip.reason_endGroup ..⟩

end Sys2Proof.Machine

/-! What traffic leaves alone. A frame on its way, the end of a reception, a port that changes its state, a failed remote request: each may
change many registers, but it changes no header register except that it latches events, nothing of RST besides, and no epoch of a crossing. -/

namespace Sys2Proof.Machine

open Sys2Proof

/-! ## The relation -/

/-- The key of a register that traffic leaves alone: a header, window or snapshot register, or one of RST, but no `EVT_RAW`. -/
def fixedKey (k : Nat) : Bool := decide (k % 0x1000 ≠ 0x018 ∧ (k % 0x1000 < 0x140 ∨ k / 0x1000 = 3))

/-- From `c` to `d` the registers of `fixedKey` and the epochs of the crossings stand, and no latched event is cleared. -/
structure Steady (c d : Chip) : Prop where
  xings : d.xings = c.xings
  fixed : ∀ w k, fixedKey k = true → lookupD w d.regs k = lookupD w c.regs k
  raw : ∀ k i, k % 0x1000 = 0x018 → (lookupD 0 c.regs k).getLsbD i = true → (lookupD 0 d.regs k).getLsbD i = true

theorem Steady.refl (c : Chip) : Steady c c := ⟨rfl, fun _ _ _ => rfl, fun _ _ _ h => h⟩

theorem Steady.trans {c d e : Chip} (h : Steady c d) (g : Steady d e) : Steady c e :=
  ⟨g.xings.trans h.xings, fun w k hk => (g.fixed w k hk).trans (h.fixed w k hk), fun k i hk hi => g.raw k i hk (h.raw k i hk hi)⟩

/-! The lemmas below carry the relation through one operation: the chain `h.op₁.op₂` reads as the program does. -/

section
variable {c d e : Chip} {P : Prop} [Decidable P]

/-- What changes neither registers nor epochs. -/
theorem Steady.same (h : Steady c d) (hr : e.regs = d.regs) (hx : e.xings = d.xings) : Steady c e :=
  ⟨hx.trans h.xings, fun w k hk => hr ▸ h.fixed w k hk, fun k i hk hi => hr ▸ h.raw k i hk hi⟩

theorem Steady.ite (hd : Steady c d) (he : Steady c e) : Steady c (if P then d else e) := by
  split
  · exact hd
  · exact he

theorem Steady.when (h : Steady c d) (g : Steady c d → Steady c e) : Steady c (if P then e else d) := .ite (g h) h

theorem Steady.unless (h : Steady c d) (g : Steady c d → Steady c e) : Steady c (if P then d else e) := .ite h (g h)

end

section
variable {c d : Chip} {α : Type} {l : List α} (h : Steady c d)
include h

theorem Steady.foldl_mem {f : Chip → α → Chip} (hf : ∀ d, ∀ a ∈ l, Steady c d → Steady c (f d a)) : Steady c (l.foldl f d) := by
  induction l generalizing d with
  | nil => exact h
  | cons a l ih =>
    exact ih (hf d a (List.mem_cons_self ..) h) fun d b hb => hf d b (List.mem_cons_of_mem _ hb)

theorem Steady.foldl {f : Chip → α → Chip} (hf : ∀ d a, Steady c d → Steady c (f d a)) : Steady c (l.foldl f d) :=
  h.foldl_mem fun d a _ => hf d a

end

/-- The same where a fold carries something beside the chip. -/
theorem Steady.foldl_fst {c : Chip} {α β : Type} {f : Chip × β → α → Chip × β} (hf : ∀ a i, Steady c a.1 → Steady c (f a i).1)
    {l : List α} {a : Chip × β} (h : Steady c a.1) : Steady c (l.foldl f a).1 := by
  induction l generalizing a with
  | nil => exact h
  | cons i l ih => exact ih (hf a i h)

/-! ## What it says of fields -/

theorem fixedKey_regKey {p : Page} {off : Nat} (h : off < 0x140) (hne : off ≠ 0x018) : fixedKey (regKey p off) = true := by
  have : regKey p off % 0x1000 = off := by unfold regKey pageBase; omega
  simp [fixedKey, this, h, hne]

theorem Steady.reg {c d : Chip} (h : Steady c d) (p : Page) {off : Nat} (ho : off < 0x140) (hne : off ≠ 0x018) :
    d.reg p off = c.reg p off := h.fixed _ _ (fixedKey_regKey ho hne)

theorem Steady.get {c d : Chip} (h : Steady c d) (p : Page) {f : Fld} (hf : f.inHeader = true) : d.get p f = c.get p f := by
  obtain ⟨-, hact, ho, hne⟩ := f.inHeader_iff.1 hf
  rw [Chip.get, Chip.get, hact, h.reg p ho hne]

theorem Steady.commitState {c d : Chip} (h : Steady c d) (p : Page) : d.commitState p = c.commitState p := h.get p (by decide)

theorem Steady.enabled {c d : Chip} (h : Steady c d) (p : Page) : d.enabled p = c.enabled p := by
  rw [Chip.enabled, Chip.is, h.get p (by decide), Chip.enabled, Chip.is]

theorem Steady.pageEpoch {c d : Chip} (h : Steady c d) (p : Page) : d.pageEpoch p = c.pageEpoch p := by
  rw [Chip.pageEpoch, h.xings, Chip.pageEpoch]

/-- `EVT_RAW` of every page is 0 at reset, on the map or not. -/
theorem regReset_raw (p : Page) : regReset p 0x018 = 0 := by
  obtain ⟨k, n⟩ := p
  cases k
  case gptp => exact ite_self 0
  all_goals rfl

theorem regDefault_raw {k : Nat} (h : k % 0x1000 = 0x018) : regDefault k = 0 := by
  unfold regDefault
  split
  · rw [h, regReset_raw]
  · rfl

theorem Steady.latched {c d : Chip} (h : Steady c d) {p : Page} {b : Nat} (hb : c.latched p b = true) : d.latched p b = true := by
  have hk : regKey p 0x018 % 0x1000 = 0x018 := by unfold regKey pageBase; omega
  simp only [Chip.latched, Chip.reg, regReset_raw] at hb ⊢
  exact h.raw _ b hk hb

/-- A register of RST, but `EVT_RAW`, holds what it held. -/
theorem Steady.get_rst {c d : Chip} (h : Steady c d) {f : Fld} (hf : f.fits = true) (hne : f.actOff ≠ 0x018) : d.get pRST f = c.get pRST f := by
  simp only [Fld.fits, Bool.and_eq_true, decide_eq_true_eq] at hf
  have hoff : f.actOff < 0x1000 := by unfold Fld.actOff; split <;> omega
  have hkey : regKey pRST f.actOff / 0x1000 = 3 ∧ regKey pRST f.actOff % 0x1000 = f.actOff := by
    have : pageNo pRST = 3 := rfl
    unfold regKey pageBase
    omega
  have hk : fixedKey (regKey pRST f.actOff) = true := by simp [fixedKey, hkey, hne]
  rw [Chip.get, Chip.get, Chip.reg, h.fixed _ _ hk, Chip.reg]

/-! ## Registers -/

/-- A field of a register that traffic may change: the page's own, outside RST. -/
def ownFld (p : Page) (f : Fld) : Bool := decide (p.kind ≠ .rst) && decide (0x140 ≤ f.off ∧ f.off < 0x1000)

theorem pageNo_ne_rst {p : Page} (h : p.kind ≠ .rst) : pageNo p ≠ 3 := by
  obtain ⟨k, n⟩ := p
  cases k
  case rst => exact absurd rfl h
  all_goals simp only [pageNo]; omega

section
variable {c d : Chip} (h : Steady c d)
include h

theorem Steady.setReg {p : Page} {off : Nat} (own : ownFld p ⟨off, 0, 0, false⟩ = true) (w : Word) : Steady c (d.setReg p off w) := by
  simp only [ownFld, Bool.and_eq_true, decide_eq_true_eq] at own
  obtain ⟨hp, ho, hlt⟩ := own
  have hno := pageNo_ne_rst hp
  have hkey : regKey p off / 0x1000 = pageNo p ∧ regKey p off % 0x1000 = off := by
    unfold regKey pageBase
    omega
  refine ⟨(Chip.xings_setRegAt ..).trans h.xings, fun d j hj => ?_, fun j i hj hi => ?_⟩
  · have hne : j ≠ regKey p off := by
      rintro rfl
      simp only [fixedKey, decide_eq_true_eq] at hj
      omega
    exact (lookupD_store_other _ _ _ _ hne).trans (h.fixed _ _ hj)
  · rw [Chip.setReg, Chip.setRegAt, lookupD_store_other _ _ _ _ (by rintro rfl; omega)]
    exact h.raw j i hj hi

theorem Steady.put {p : Page} {f : Fld} (own : ownFld p f = true) (v : Nat) : Steady c (d.put p f v) := h.setReg own _

/-- Latching an event clears none. -/
theorem Steady.latch (p : Page) (w : Word) : Steady c (d.setReg p 0x018 (d.reg p 0x018 ||| w)) := by
  have hk : regKey p 0x018 % 0x1000 = 0x018 := by unfold regKey pageBase; omega
  refine ⟨(Chip.xings_setRegAt ..).trans h.xings, fun d j hj => ?_, fun j i hj hi => ?_⟩
  · have hne : j ≠ regKey p 0x018 := by
      rintro rfl
      simp only [fixedKey, decide_eq_true_eq] at hj
      omega
    exact (lookupD_store_other _ _ _ _ hne).trans (h.fixed _ _ hj)
  · by_cases e : j = regKey p 0x018
    · subst e
      rw [Chip.setReg, Chip.setRegAt, regDefault_raw hk, lookupD_store_same, Chip.reg, regReset_raw, BitVec.getLsbD_or, h.raw _ i hk hi,
        Bool.true_or]
    · rw [Chip.setReg, Chip.setRegAt, lookupD_store_other _ _ _ _ e]
      exact h.raw j i hj hi

/-! ## Counts, outputs, events -/

theorem Steady.emit (o : Output) : Steady c (d.emit o) := h.same (by rfl) (by rfl)

theorem Steady.setCntAt (k : Nat) (v : W48) : Steady c (d.setCntAt k v) := h.same (by rfl) (by rfl)

theorem Steady.addCnt (p : Page) (i n : Nat) : Steady c (d.addCnt p i n) := h.same (by rfl) (by rfl)

theorem Steady.count (p : Page) (i : Nat) : Steady c (d.count p i) := h.same (by rfl) (by rfl)

theorem Steady.addTCnt (p : Page) (t i k n : Nat) : Steady c (d.addTCnt p t i k n) := h.same (by rfl) (by rfl)

theorem Steady.tcount (p : Page) (t i k : Nat) : Steady c (d.tcount p t i k) := h.same (by rfl) (by rfl)

theorem Steady.perfAdd (i n : Nat) : Steady c (d.perfAdd i n) :=
  .ite (h.addCnt ..) ((h.addCnt ..).setReg (by rfl) _)

theorem Steady.perfBump (ev n : Nat) : Steady c (d.perfBump ev n).1 := by
  delta Chip.perfBump
  split
  · exact h
  · refine Steady.foldl_fst (fun a i ha => ?_) (a := (d, false)) h
    simp only
    split
    · exact ha.perfAdd ..
    · exact ha

theorem Steady.sendMsix (v : Nat) : Steady c (d.sendMsix v) := by
  delta Chip.sendMsix
  refine h.unless fun h => .ite (h.setReg ?_ _) (((h.perfBump ..).count ..).emit ..)
  simp [ownFld]
  omega

theorem Steady.routeEvent (p : Page) : Steady c (d.routeEvent p) :=
  (h.when fun h => h.sendMsix _).when fun h => h.emit _

theorem Steady.raise (p : Page) (b : Nat) : Steady c (d.raise p b) :=
  .ite ((h.latch ..).unless fun h => (h.sendMsix _).emit _) ((h.latch ..).when fun h => h.routeEvent p)

theorem Steady.perf (ev n : Nat) : Steady c (d.perf ev n) := by
  have g := h.perfBump ev n
  delta Chip.perf
  generalize d.perfBump ev n = r at g ⊢
  obtain ⟨e, wrapped⟩ := r
  cases wrapped
  · exact g
  · exact g.raise ..

end

end Sys2Proof.Machine

/-! Table windows (R54, R55): operations that wait, and what an operation leaves when it ends. -/

namespace Sys2Proof.Machine

open Sys2Proof

/-! ## Windows, buffers, staged entries -/

theorem Chip.win_setWin_same (c : Chip) (p : Page) (side : Nat) (o : Option WinOp) : (c.setWin p side o).win p side = o :=
  lookupD_store_same ..

theorem Chip.win_setWin_other (c : Chip) {p : Page} {a b : Nat} (o : Option WinOp) (h : a ≠ b) : (c.setWin p b o).win p a = c.win p a :=
  lookupD_store_other _ _ _ _ (by unfold winKey; omega)

theorem Chip.win_congr {c d : Chip} (h : d.wins = c.wins) (p : Page) (side : Nat) : d.win p side = c.win p side := by
  rw [Chip.win, h, Chip.win]

theorem Chip.bufWord_setBufWord (c : Chip) (p : Page) (side k n : Nat) (w : Word) :
    (c.setBufWord p side k w).bufWord p side n = if n = k then w else c.bufWord p side n := by
  split
  next h => subst h; exact lookupD_store_same ..
  next h => exact lookupD_store_other _ _ _ _ (by omega)

theorem Chip.bufWord_foldl_setBufWord (c : Chip) (p : Page) (side n : Nat) (w : Nat → Word) (l : List Nat) :
    (l.foldl (fun (c : Chip) k => c.setBufWord p side k (w k)) c).bufWord p side n = if n ∈ l then w n else c.bufWord p side n := by
  induction l generalizing c with
  | nil => simp
  | cons k l ih =>
    rw [List.foldl_cons, ih, Chip.bufWord_setBufWord]
    by_cases hn : n = k <;> simp [hn]

/-- The buffer holds the words of an entry that was read. -/
theorem Chip.bufWord_fillBuf (c : Chip) (p : Page) (side parts : Nat) (w : Nat → Word) {n : Nat} (h : n < 8 * parts) :
    (c.fillBuf p side parts w).bufWord p side n = w n := by
  rw [Chip.fillBuf, Chip.bufWord_foldl_setBufWord, if_pos (by simpa using h)]

/-! ## Keys of table words -/

section
variable {p : Page} {t i n : Nat}

theorem tblPage_tblKey (ht : t < 16) (hi : i < 2 ^ 20) (hn : n < 128) : tblPage (tblKey p t i n) = pageIdx p := by
  unfold tblPage tblKey
  omega

theorem tblPageTable_tblKey (hi : i < 2 ^ 20) (hn : n < 128) : tblPageTable (tblKey p t i n) = pageIdx p * 16 + t := by
  unfold tblPageTable tblKey
  omega

theorem index_tblKey (hi : i < 2 ^ 20) (hn : n < 128) : tblKey p t i n / 128 % 2 ^ 20 = i := by
  unfold tblKey
  omega

theorem word_tblKey (hn : n < 128) : tblKey p t i n % 128 = n := by
  unfold tblKey
  omega

/-- An unlisted word of an entry reads as its reset value. -/
theorem tblDefault_tblKey (hp : pageValid p = true) (ht : t < 16) (hi : i < 2 ^ 20) (hn : n < 128) :
    tblDefault (tblKey p t i n) = tblReset p t i n := by
  have ht' : (pageIdx p * 16 + t) % 16 = t := by omega
  rw [tblDefault, tblPage_tblKey ht hi hn, pageOfIdx_pageIdx p hp, tblPageTable_tblKey hi hn, index_tblKey hi hn, word_tblKey hn, ht']

end

theorem Chip.tstaged_setTstaged (c : Chip) {p : Page} {t i k n : Nat} (w : Word) (hp : pageValid p = true) (ht : t < 16)
    (hi : i < 2 ^ 20) (hn : n < 128) : (c.setTstaged p t i k w).tstaged p t i n = if n = k then w else c.tstaged p t i n := by
  split
  next h =>
    subst h
    rw [Chip.setTstaged, Chip.tstaged, ← tblDefault_tblKey hp ht hi hn, lookupD_store_same]
  next h => exact lookupD_store_other _ _ _ _ (by unfold tblKey; omega)

theorem Chip.tstaged_foldl_setTstaged (c : Chip) {p : Page} {t i n : Nat} (w : Nat → Word) (hp : pageValid p = true) (ht : t < 16)
    (hi : i < 2 ^ 20) (hn : n < 128) (l : List Nat) :
    (l.foldl (fun (c : Chip) k => c.setTstaged p t i k (w k)) c).tstaged p t i n = if n ∈ l then w n else c.tstaged p t i n := by
  induction l generalizing c with
  | nil => simp
  | cons k l ih =>
    rw [List.foldl_cons, ih, Chip.tstaged_setTstaged _ _ hp ht hi hn]
    by_cases hn : n = k <;> simp [hn]

/-! ## Tables -/

/-- A table of a page has a number below 11, and entries that its keys can hold. -/
theorem tblInfo_bounds {p : Page} {t : Nat} {i : TblInfo} (h : tblInfo p t = some i) : t < 11 ∧ i.entries ≤ 2 ^ 20 ∧ i.parts ≤ 5 := by
  unfold tblInfo at h
  split at h
  all_goals cases h
  all_goals decide

theorem mem_stagedTables {p : Page} {t : Nat} {i : TblInfo} (h : tblInfo p t = some i) (hk : i.kind = .staged) : t ∈ stagedTables p := by
  simp [stagedTables, h, hk, (tblInfo_bounds h).1]

/-! ## An operation starts (R54) -/

/-- The other window of a page works on the same table. -/
def Chip.otherOn (c : Chip) (p : Page) (side t : Nat) : Bool :=
  match c.win p (1 - side) with
  | some o => decide (o.table = t)
  | none => false

/-- The operation that a write of TBL_CMD starts when nothing refuses it. -/
def Chip.startedOp (c : Chip) (req : Requester) (p : Page) (op tag : Nat) : WinOp :=
  let a := c.tblAddr p (reqSide req)
  let t := bitsAt a 20 4
  { op := op, table := t, index := bitsAt a 0 20, tag := tag, req := req, waiting := c.otherOn p (reqSide req) t, result := 0 }

@[simp] theorem Chip.tblAddr_sequenced (c : Chip) (req : Requester) (p : Page) (side : Nat) :
    (c.sequenced req).tblAddr p side = c.tblAddr p side := by
  simp [Chip.tblAddr, Chip.regAt]

@[simp] theorem Chip.win_sequenced (c : Chip) (req : Requester) (p : Page) (side : Nat) :
    (c.sequenced req).win p side = c.win p side :=
  Chip.win_congr (Chip.wins_sequenced ..) ..

theorem Chip.startedOp_sequenced (c : Chip) (req : Requester) (p : Page) (op tag : Nat) :
    (c.sequenced req).startedOp req p op tag = c.startedOp req p op tag := by
  simp [Chip.startedOp, Chip.otherOn]

/-- A command that changes a table finds the page open: not locked, and no commit in progress where the table is staged (R51, R55). -/
def Chip.tblOpen (c : Chip) (p : Page) (t : Nat) : Prop := c.locked p = false ∧ (t ∉ stagedTables p ∨ c.commitState p = 0)

/-- A table command starts in its requester's free window (R54). -/
theorem Chip.tblCmd_starts (c : Chip) {req : Requester} {p : Page} {op tag : Nat} (htab : hasTable p = true)
    (hw : c.win p (reqSide req) = none) (hop : 0 < op ∧ op ≤ 6) (htag : tag < 256)
    (hch : changes op = true → c.tblOpen p (bitsAt (c.tblAddr p (reqSide req)) 20 4)) :
    c.tblCmd req p op tag = (c.setWin p (reqSide req) (some (c.startedOp req p op tag)), 0) := by
  unfold Chip.tblCmd
  extract_lets side a t staged other e o
  have hstaged : staged = true → t ∈ stagedTables p := by
    intro h
    cases hi : tblInfo p t with
    | none => simp [staged, hi] at h
    | some i => exact mem_stagedTables hi (by simpa [staged, hi] using h)
  have he : e = 0 := by
    have hlocked : ¬ (changes op = true ∧ c.locked p = true) := fun ⟨hc, hl⟩ => by simp [(hch hc).1] at hl
    have hbusy : ¬ (changes op = true ∧ staged = true ∧ c.commitState p ≠ 0) := fun ⟨hc, hs, hn⟩ =>
      (hch hc).2.elim (fun h => h (hstaged hs)) hn
    simp only [e, if_neg hlocked, if_neg hbusy]
  have ho : o = c.startedOp req p op tag := by
    simp only [o, he, Nat.mod_eq_of_lt htag]
    rfl
  rw [if_neg (by simp [htab]), if_neg (by simp [side, hw]), if_neg (by omega), he, ho]

/-- The operation waits in the window, seen from its requester's write. -/
theorem Chip.win_tblPosted (c : Chip) {req : Requester} {p : Page} {op : Nat} (tag : Byte) (hp : pageValid p = true)
    (htab : hasTable p = true) (ht : c.takes req = true) (hw : c.win p (reqSide req) = none) (hop : 0 < op ∧ op ≤ 6)
    (hch : changes op = true → c.tblOpen p (bitsAt (c.tblAddr p (reqSide req)) 20 4)) :
    (c.tblPosted req p op tag.toNat).win p (reqSide req) = some (c.startedOp req p op tag.toNat) := by
  have hact := (c.sequenced req).tblCmd_starts (tag := tag.toNat) htab (by simpa using hw) hop tag.isLt (by simpa [Chip.tblOpen] using hch)
  rw [Chip.tblPosted, c.posted_ok ht hp hact, Chip.win_setWin_same, Chip.startedOp_sequenced]

/-! ## An operation ends (R54, R55) -/

section
variable {c : Chip} {p : Page} {k : Nat} {o : WinOp} {t : TblInfo} (hmode : c.tblMode p = false) (hinfo : tblInfo p o.table = some t)
  (hidx : o.index < t.entries) (hst : t.kind = .staged)
include hmode hinfo hidx hst

theorem Chip.tblAct_readStaged (hop : o.op = 1) :
    c.tblAct p k o false = (c.fillBuf p k t.parts (c.tblStagedWord p o.table o.index), 0) := by
  have : ¬ t.entries ≤ o.index := by omega
  simp [Chip.tblAct, hmode, hinfo, hst, hop, changes, this]

theorem Chip.tblAct_writeStaged (hop : o.op = 3) (hl : c.locked p = false) (hs : c.commitState p = 0) :
    c.tblAct p k o false = (c.changeStaged p o t.parts (c.bufWord p k), 0) := by
  have : ¬ t.entries ≤ o.index := by omega
  simp [Chip.tblAct, hmode, hinfo, hst, hop, changes, this, hl, hs]

end

/-- A WRITE fills the staged entry with the buffer's words. -/
theorem Chip.tstaged_changeStaged_write (c : Chip) {p : Page} {o : WinOp} {parts n : Nat} (w : Nat → Word) (hop : o.op = 3)
    (hmac : p.kind ≠ .macsec) (hp : pageValid p = true) (ht : o.table < 16) (hi : o.index < 2 ^ 20) (hparts : parts ≤ 5) (hn : n < 8 * parts) :
    (c.changeStaged p o parts w).tstaged p o.table o.index n = w n := by
  rw [Chip.changeStaged, hop]
  simp only [hmac, false_and, if_false]
  rw [Chip.tstaged_foldl_setTstaged _ _ hp ht hi (by omega), if_pos (by simpa using hn)]

/-- The other window's operation may go on. -/
def Chip.freeOther (c : Chip) (p : Page) (side : Nat) : Chip :=
  match c.win p (1 - side) with
  | some q => c.setWin p (1 - side) (some { q with waiting := false })
  | none => c

theorem Chip.win_freeOther (c : Chip) (p : Page) {side : Nat} (h : side < 2) : (c.freeOther p side).win p side = c.win p side := by
  unfold Chip.freeOther
  split
  · exact c.win_setWin_other _ (by omega)
  · rfl

/-- An operation that nothing holds up acts, and its window is free with RESULT and TAG in TBL_STATUS. -/
theorem Chip.tblDone_acts {c d : Chip} {p : Page} {k r : Nat} {o : WinOp} {ecc : Bool} (hw : c.win p k = some o)
    (hwait : c.tblWaits p o = false) (hres : o.result = 0) (hact : c.tblAct p k o ecc = (d, r)) : c.tblDone p k ecc =
      ((((d.setWin p k none).freeOther p k).setRegAt (sideKey p 0x128 k) (BitVec.ofNat 32 (16 * r + 256 * o.tag))).raise p E.TBL_DONE) := by
  rw [Chip.tblDone, hw]
  simp only
  rw [if_neg (by simp [hwait]), if_neg (by simp [hres]), hact]
  rfl

/-- What an operation that acts leaves of its window: free, TBL_DONE latched, its tag and result shown, all else as it acted. -/
theorem Chip.tblDone_window {c d : Chip} {p : Page} {k r : Nat} {o : WinOp} {ecc : Bool} (hp : pageValid p = true) (hk : k < 2)
    (hw : c.win p k = some o) (hwait : c.tblWaits p o = false) (hres : o.result = 0) (hact : c.tblAct p k o ecc = (d, r)) :
    let e := c.tblDone p k ecc
    e.win p k = none ∧ e.latched p E.TBL_DONE = true ∧ e.regAt (sideKey p 0x128 k) = BitVec.ofNat 32 (16 * r + 256 * o.tag)
      ∧ e.wbuf = d.wbuf ∧ e.tblS = d.tblS := by
  have hfree : ((d.setWin p k none).freeOther p k).wbuf = d.wbuf ∧ ((d.setWin p k none).freeOther p k).tblS = d.tblS := by
    unfold Chip.freeOther
    split <;> exact ⟨rfl, rfl⟩
  have hkey : fixedKey (sideKey p 0x128 k) = true := by
    have : sideKey p 0x128 k % 0x1000 = 0x128 := by unfold sideKey regKey pageBase; omega
    simp [fixedKey, this]
  simp only [Chip.tblDone_acts hw hwait hres hact]
  refine ⟨?_, Chip.latched_raise _ hp (by decide), ?_, by simp [hfree], by simp [hfree]⟩
  · rw [Chip.win_congr (c := (d.setWin p k none).freeOther p k) (by simp), Chip.win_freeOther _ _ hk, Chip.win_setWin_same]
  · rw [Chip.regAt, ((Steady.refl _).raise ..).fixed _ _ hkey]
    exact lookupD_store_same ..

theorem sideNo_lt (side : Side) : sideNo side < 2 := by
  cases side <;> decide

/-- Settles O5: commands wait in their windows; operations of staged tables act and end; the refill of the banks ends. -/
theorem tableAccesses : Obligations.TableAccesses := by
  refine ⟨?_, ?_⟩
  · intro s dt req p tag c a t op hp htab ht hw
    have hstart : ∀ n, 0 < n ∧ n ≤ 6 → (changes n = true → c.tblOpen p t) → op n (c.tblPosted req p n tag.toNat) :=
      fun n hn hch => c.win_tblPosted tag hp htab ht hw hn hch
    refine ⟨.of_run rfl (hstart 1 (by decide) fun h => absurd h (by decide)), .of_run rfl (hstart 2 (by decide) fun h => absurd h (by decide)),
      .of_run rfl (hstart 5 (by decide) fun h => absurd h (by decide)), fun hl hs => ?_⟩
    have hopen : c.tblOpen p t := ⟨hl, hs⟩
    exact ⟨.of_run rfl (hstart 3 (by decide) fun _ => hopen), .of_run rfl (hstart 4 (by decide) fun _ => hopen),
      .of_run rfl (hstart 6 (by decide) fun _ => hopen)⟩
  · intro s dt side p o t c k hp hw hwait hres hmode hinfo hidx hst hfdb hmac
    have hk : k < 2 := sideNo_lt side
    obtain ⟨ht, hentries, hparts⟩ := tblInfo_bounds hinfo
    refine ⟨fun hop => .of_run rfl ?_, fun hop hl hs => .of_run rfl ?_, .of_run rfl ?_⟩
    all_goals rw [Chip.onPage, if_pos hp]
    case refine_1 =>
      obtain ⟨hwin, hlatched, hstatus, hbuf, -⟩ :=
        Chip.tblDone_window hp hk hw hwait hres (Chip.tblAct_readStaged hmode hinfo hidx hst hop)
      refine ⟨hwin, hlatched, by simpa using hstatus, fun n hn => ?_⟩
      rw [Chip.bufWord, hbuf]
      exact Chip.bufWord_fillBuf _ _ _ _ _ hn
    case refine_2 =>
      obtain ⟨hwin, hlatched, hstatus, -, hbank⟩ :=
        Chip.tblDone_window hp hk hw hwait hres (Chip.tblAct_writeStaged hmode hinfo hidx hst hop hl hs)
      refine ⟨hwin, hlatched, by simpa using hstatus, fun n hn => ?_⟩
      rw [Chip.tstaged, hbank]
      exact Chip.tstaged_changeStaged_write _ _ hop hmac hp (by omega) (by omega) hparts hn
    case refine_3 =>
      simp [Chip.bankSyncDone]

end Sys2Proof.Machine

/-! Commits, soft resets, snapshots (R37, R45, R56): what a set that applies, a page that is reset and a captured set hold. -/

namespace Sys2Proof.Machine

open Sys2Proof

/-! ## A set applies (R45) -/

/-- The staged registers stand in the lower half of a page, their active copies in the upper. -/
theorem stagedOffsets_lt {p : Page} {a : Nat} (h : a ∈ stagedOffsets p) : a < 0x800 := by
  have hall : ∀ k, ((stagedOffsets ⟨k, 0⟩).all fun a => decide (a < 0x800)) = true := by
    intro k
    cases k <;> decide
  exact of_decide_eq_true (List.all_eq_true.1 (hall p.kind) a h)

theorem quiet_of_copy {a : Nat} (q : Page) (h : 0x800 ≤ a) : quiet q a = true := by
  have : a ≠ 0x018 ∧ a ≠ 0x380 ∧ a ≠ 0x384 ∧ a ≠ 0x148 := by omega
  simp [quiet, still, this]

theorem Chip.reg_foldl_copy_low (c : Chip) (p : Page) (l : List Nat) {a : Nat} (h : a < 0x800) :
    (l.foldl (fun (c : Chip) off => c.setReg p (off + 0x800) (c.reg p off)) c).reg p a = c.reg p a := by
  induction l generalizing c with
  | nil => rfl
  | cons b l ih => rw [List.foldl_cons, ih, c.reg_setReg_off _ (by omega)]

theorem Chip.reg_foldl_copy (c : Chip) {p : Page} (hp : pageValid p = true) (l : List Nat) (hl : ∀ a ∈ l, a < 0x800) {a : Nat} (ha : a < 0x800) :
    (l.foldl (fun (c : Chip) off => c.setReg p (off + 0x800) (c.reg p off)) c).reg p (a + 0x800) =
      if a ∈ l then c.reg p a else c.reg p (a + 0x800) := by
  induction l generalizing c with
  | nil => rfl
  | cons b l ih =>
    have hb := hl b (List.mem_cons_self ..)
    rw [List.foldl_cons, ih _ (fun x hx => hl x (List.mem_cons_of_mem _ hx)), c.reg_setReg_off _ (by omega)]
    by_cases hab : a = b
    · subst hab
      simp [c.reg_setReg_same _ hp (show a + 0x800 < 0x1000 by omega)]
    · simp [hab, c.reg_setReg_off _ (show a + 0x800 ≠ b + 0x800 by omega)]

/-- The new set: the page's copies of registers and banks. -/
def Chip.newSet (c : Chip) (p : Page) : Chip := (c.copyRegs p).copyTables p

theorem Chip.regs_copyTables (c : Chip) (p : Page) : (c.copyTables p).regs = c.regs := by
  unfold Chip.copyTables
  extract_lets a d
  split <;> rfl

theorem Chip.reg_newSet (c : Chip) (p : Page) (a : Nat) : (c.newSet p).reg p a = (c.copyRegs p).reg p a :=
  reg_congr (Chip.regs_copyTables ..) ..

theorem Chip.reg_newSet_low (c : Chip) (p : Page) {a : Nat} (h : a < 0x800) : (c.newSet p).reg p a = c.reg p a :=
  (c.reg_newSet p a).trans (c.reg_foldl_copy_low p _ h)

theorem Chip.reg_newSet_copy (c : Chip) {p : Page} (hp : pageValid p = true) {a : Nat} (h : a ∈ stagedOffsets p) :
    (c.newSet p).reg p (a + 0x800) = c.reg p a := by
  rw [c.reg_newSet, Chip.copyRegs, c.reg_foldl_copy hp _ (fun _ => stagedOffsets_lt) (stagedOffsets_lt h), if_pos h]

/-- COMMIT_STATUS of a request that is done: IDLE, its generation applied, no reason, and LATE where it was timed. -/
def Chip.doneStatus (c : Chip) (p : Page) (timed late : Bool) : Chip :=
  let d := ((c.put p F.COMMIT_STATUS_STATE 0).put p F.COMMIT_STATUS_APPLIED_GEN (c.get p F.COMMIT_STATUS_PENDING_GEN)).put p
    F.COMMIT_STATUS_REASON 0
  if timed then d.put p F.COMMIT_STATUS_LATE late.toNat else d

theorem Chip.swapPage_eq (c : Chip) (p : Page) (late : Bool) : c.swapPage p late =
    (((c.newSet p).doneStatus p (c.atTime p) late).setCommitRt p {}).raise p E.COMMIT_DONE := by
  rw [Chip.doneStatus, Chip.swapPage]
  rfl

theorem Chip.reg_doneStatus (c : Chip) (p : Page) (timed late : Bool) {a : Nat} (h : a ≠ 0x02C) :
    (c.doneStatus p timed late).reg p a = c.reg p a := by
  have hput : ∀ (d : Chip) (f : Fld) (v : Nat), f.off = 0x02C → (d.put p f v).reg p a = d.reg p a := fun d f v hf =>
    d.reg_setReg_off _ (by rwa [hf])
  cases timed <;> simp [Chip.doneStatus, hput]

theorem Chip.get_doneStatus (c : Chip) {p : Page} (timed late : Bool) (hp : pageValid p = true) :
    let d := c.doneStatus p timed late
    d.commitState p = 0 ∧ d.get p F.COMMIT_STATUS_APPLIED_GEN = c.get p F.COMMIT_STATUS_PENDING_GEN ∧ d.get p F.COMMIT_STATUS_REASON = 0 := by
  have hgen : c.get p F.COMMIT_STATUS_PENDING_GEN % 256 = c.get p F.COMMIT_STATUS_PENDING_GEN := Nat.mod_eq_of_lt (c.get_lt p _)
  cases timed <;>
    simp [Chip.doneStatus, Chip.commitState, Chip.get_put_apart, Chip.get_put_same, hp, Fld.apart, Fld.fits, Fld.actOff, hgen]

/-- What a request that is done leaves of its page (R45). -/
theorem Chip.swapPage_done (c : Chip) {p : Page} (late : Bool) (hp : pageValid p = true) :
    let e := c.swapPage p late
    (∀ a ∈ stagedOffsets p, e.reg p (a + 0x800) = c.reg p a) ∧ e.commitState p = 0
      ∧ e.get p F.COMMIT_STATUS_APPLIED_GEN = c.get p F.COMMIT_STATUS_PENDING_GEN ∧ e.get p F.COMMIT_STATUS_REASON = 0
      ∧ e.latched p E.COMMIT_DONE = true ∧ e.commitRt p = {} := by
  obtain ⟨hstate, hgen, hreason⟩ := (c.newSet p).get_doneStatus (c.atTime p) late hp
  have hold : (c.newSet p).get p F.COMMIT_STATUS_PENDING_GEN = c.get p F.COMMIT_STATUS_PENDING_GEN := by
    simp [Chip.get, c.reg_newSet_low p, Fld.actOff]
  have hhead : ∀ f : Fld, f.inHeader = true →
      (c.swapPage p late).get p f = ((c.newSet p).doneStatus p (c.atTime p) late).get p f := fun f hf => by
    rw [c.swapPage_eq, Chip.get_raise_header _ _ hp hp hf, Chip.get_setCommitRt]
  refine ⟨fun a ha => ?_, (hhead _ (by decide)).trans hstate, (hhead _ (by decide)).trans (hgen.trans hold),
    (hhead _ (by decide)).trans hreason, ?_, ?_⟩
  · have := stagedOffsets_lt ha
    rw [c.swapPage_eq, Chip.reg_raise _ _ hp hp (by omega) (quiet_of_copy p (by omega)), Chip.reg_setCommitRt,
      Chip.reg_doneStatus _ _ _ _ (by omega), c.reg_newSet_copy hp ha]
  · rw [c.swapPage_eq]
    exact Chip.latched_raise _ hp (by decide)
  · simp [c.swapPage_eq, Chip.commitRt]

/-! ## A page at reset (R37) -/

theorem pageIdx_lt {p : Page} (h : pageValid p = true) : pageIdx p < 126 := by
  by_contra hi
  have := pageOfIdx_pageIdx p h
  rw [pageOfIdx_of_ge (by omega)] at this
  cases this

theorem ownKey_regKey_same {p : Page} {a : Nat} (hp : pageValid p = true) (ha : a < 0x1000) : ownKey p (regKey p a) = decide (0x140 ≤ a) := by
  have := pageNo_lt p hp
  have hmod : regKey p a % 0x1000000 = regKey p a := Nat.mod_eq_of_lt (by unfold regKey pageBase; omega)
  simp only [ownKey, hmod, decide_eq_decide]
  unfold regKey pageBase
  omega

theorem ownKey_regKey_other {p q : Page} {a : Nat} (hp : pageValid p = true) (hq : pageValid q = true) (hne : q ≠ p) (ha : a < 0x1000) :
    ownKey p (regKey q a) = false := by
  have := pageNo_lt q hq
  have hno : pageNo q ≠ pageNo p := fun h => hne (pageNo_inj hq hp h)
  have hmod : regKey q a % 0x1000000 = regKey q a := Nat.mod_eq_of_lt (by unfold regKey pageBase; omega)
  simp only [ownKey, hmod, decide_eq_false_iff_not]
  unfold regKey pageBase
  omega

theorem cntPage_cntKey {p : Page} {i : Nat} (hp : pageValid p = true) (hi : i < 1024) : cntPage (cntKey p i) = pageIdx p := by
  have := pageIdx_lt hp
  rw [cntPage, if_pos (by unfold cntKey; omega)]
  unfold cntKey
  omega

theorem Chip.reg_clearPage (c : Chip) (p q : Page) (a : Nat) :
    (c.clearPage p).reg q a = if ownKey p (regKey q a) = true then regReset q a else c.reg q a := by
  have h : (c.clearPage p).reg q a = lookupD (regReset q a) (keepKeys (fun k => !ownKey p k) c.regs) (regKey q a) := rfl
  rw [h, lookupD_keepKeys]
  cases ownKey p (regKey q a) <;> rfl

theorem Chip.cnt_clearPage (c : Chip) {p : Page} {i : Nat} (hp : pageValid p = true) (hi : i < 1024) :
    (c.clearPage p).cntAt (cntKey p i) = 0 ∧ lookupD 0 (c.clearPage p).snap (cntKey p i) = 0 := by
  have h : ∀ m : List (Nat × W48), lookupD 0 (keepKeys (fun k => decide (cntPage k ≠ pageIdx p)) m) (cntKey p i) = 0 := fun m => by
    rw [lookupD_keepKeys]
    simp [cntPage_cntKey hp hi]
  exact ⟨h c.cnt, h c.snap⟩

theorem Chip.tables_clearPage (c : Chip) {p : Page} {t i w : Nat} (ht : t < 16) (hi : i < 2 ^ 20) (hw : w < 128) :
    (c.clearPage p).tword p t i w = tblReset p t i w ∧ (c.clearPage p).tstaged p t i w = tblReset p t i w := by
  have h : ∀ m : List (Nat × Word),
      lookupD (tblReset p t i w) (keepKeys (fun k => decide (tblPage k ≠ pageIdx p)) m) (tblKey p t i w) = tblReset p t i w := fun m => by
    rw [lookupD_keepKeys]
    simp [tblPage_tblKey ht hi hw]
  exact ⟨h c.tblA, h c.tblS⟩

theorem Chip.win_clearPage (c : Chip) (p : Page) {side : Nat} (h : side < 2) : (c.clearPage p).win p side = none := by
  have hk : winKey p side / 2 = pageIdx p := by unfold winKey; omega
  have : (c.clearPage p).win p side = lookupD none (keepKeys (fun k => decide (k / 2 ≠ pageIdx p)) c.wins) (winKey p side) := rfl
  rw [this, lookupD_keepKeys]
  simp [hk]

/-! ## Snapshots (R56) -/

theorem lookupD_of_risingFrom {α : Type} {d : α} {m : List (Nat × α)} {k n : Nat} (h : risingFrom n m = true) (hk : k < n) :
    lookupD d m k = d := by
  induction m generalizing n with
  | nil => rfl
  | cons e m ih =>
    obtain ⟨a, v⟩ := e
    simp only [risingFrom, Bool.and_eq_true, decide_eq_true_eq] at h
    rw [lookupD, if_neg (by omega), ih h.2 (by omega)]

/-- A map written over another: where it lists a key, its value; elsewhere the other's. -/
theorem lookupD_foldl_store {α : Type} [DecidableEq α] {d : α} {m : List (Nat × α)} {n : Nat} (h : risingFrom n m = true)
    (s : List (Nat × α)) (k : Nat) :
    lookupD d (m.foldl (fun m e => store d m e.1 e.2) s) k = lookupD (lookupD d s k) m k := by
  induction m generalizing s n with
  | nil => rfl
  | cons e m ih =>
    obtain ⟨a, v⟩ := e
    simp only [risingFrom, Bool.and_eq_true] at h
    rw [List.foldl_cons, ih h.2, lookupD]
    split
    next hk =>
      subst hk
      rw [lookupD_store_same, lookupD_of_risingFrom h.2 (by omega)]
    next hk => rw [lookupD_store_other _ _ _ _ (Ne.symm hk)]

/-- The captured counters of a page replaced by its counters. -/
def Chip.capturePage (c : Chip) (p : Page) : Chip :=
  let s := keepKeys (fun k => !decide (cntPage k = pageIdx p)) c.snap
  { c with snap := (c.cnt.filter fun e => decide (cntPage e.1 = pageIdx p)).foldl (fun m e => store 0 m e.1 e.2) s }

theorem Chip.reg_capturePage (c : Chip) (p q : Page) (a : Nat) : (c.capturePage p).reg q a = c.reg q a :=
  reg_congr (by rw [Chip.capturePage]) ..

theorem Chip.snap_capturePage {c : Chip} {p : Page} {i : Nat} (hp : pageValid p = true) (hi : i < 1024)
    (hc : canonical (fun _ => 0#48) c.cnt = true) : lookupD 0 (c.capturePage p).snap (cntKey p i) = c.cntAt (cntKey p i) := by
  have hrise : risingFrom 0 (keepKeys (fun k => decide (cntPage k = pageIdx p)) c.cnt) = true :=
    (Bool.and_eq_true _ _ ▸ canonical_keepKeys _ _ _ hc).1
  refine (lookupD_foldl_store hrise _ _).trans ?_
  rw [lookupD_keepKeys, lookupD_keepKeys]
  simp [cntPage_cntKey hp hi, Chip.cntAt]

theorem Chip.snapEnd_eq (c : Chip) (p : Page) : c.snapEnd p =
    ((c.capturePage p).setReg p 0x134 (BitVec.ofNat 32 ((bitsAt (c.reg p 0x134) 0 16 + 1) % 65536))).raise p E.SNAP_DONE := by
  rw [← c.reg_capturePage p p, Chip.snapEnd, Chip.capturePage]

/-- A capture that ends holds the page's counters and advances SEQ. -/
theorem Chip.snapEnd_done {c : Chip} {p : Page} (hp : pageValid p = true) (hc : canonical (fun _ => 0#48) c.cnt = true) :
    let d := c.snapEnd p
    d.snapBusy p = false ∧ d.latched p E.SNAP_DONE = true ∧ bitsAt (d.reg p 0x134) 0 16 = (bitsAt (c.reg p 0x134) 0 16 + 1) % 65536
      ∧ ∀ i, i < 1024 → lookupD 0 d.snap (cntKey p i) = c.cntAt (cntKey p i) := by
  have hreg : (c.snapEnd p).reg p 0x134 = BitVec.ofNat 32 ((bitsAt (c.reg p 0x134) 0 16 + 1) % 65536) := by
    rw [c.snapEnd_eq, Chip.reg_raise _ _ hp hp (by decide) (quiet_of_header p (by decide) (by decide)), Chip.reg_setReg_same _ _ hp (by decide)]
  have hseq : (bitsAt (c.reg p 0x134) 0 16 + 1) % 65536 < 65536 := Nat.mod_lt _ (by decide)
  have hnat : ((c.snapEnd p).reg p 0x134).toNat = (bitsAt (c.reg p 0x134) 0 16 + 1) % 65536 := by
    rw [hreg, BitVec.toNat_ofNat, Nat.mod_eq_of_lt (by omega)]
  refine ⟨?_, ?_, ?_, fun i hi => ?_⟩
  · rw [Chip.snapBusy, hnat, Nat.testBit_lt_two_pow hseq]
  · rw [c.snapEnd_eq]
    exact Chip.latched_raise _ hp (by decide)
  · rw [bitsAt, hnat, Nat.shiftRight_zero]
    exact Nat.mod_eq_of_lt hseq
  · rw [c.snapEnd_eq, Chip.snap_raise, Chip.setReg, Chip.snap_setRegAt, Chip.snap_capturePage hp hi hc]

theorem testBit_or_busy (w : Word) : (w ||| 0x10000).toNat.testBit 16 = true := by
  rw [BitVec.toNat_or, Nat.testBit_or, show (0x10000 : Word).toNat.testBit 16 = true from rfl, Bool.or_true]

theorem Chip.snapBusy_snapTake_same (c : Chip) {p : Page} (hp : pageValid p = true) : (c.snapTake p).snapBusy p = true := by
  rw [Chip.snapBusy, Chip.snapTake, c.reg_setReg_same _ hp (by decide), testBit_or_busy]

theorem Chip.snapBusy_snapTake {c : Chip} {p : Page} (q : Page) (hp : pageValid p = true) (h : c.snapBusy p = true) :
    (c.snapTake q).snapBusy p = true := by
  rw [Chip.snapBusy, Chip.snapTake, c.reg_setReg _ hp (by decide)]
  split
  · exact testBit_or_busy _
  · exact h

theorem Chip.snapBusy_foldl_snapTake {c : Chip} {p : Page} {l : List Page} (hp : pageValid p = true) (h : p ∈ l ∨ c.snapBusy p = true) :
    (l.foldl (fun (c : Chip) q => c.snapTake q) c).snapBusy p = true := by
  induction l generalizing c with
  | nil => exact h.resolve_left (List.not_mem_nil)
  | cons q l ih =>
    refine ih ?_
    rcases h with h | h
    · rcases List.mem_cons.1 h with rfl | h
      · exact .inr (c.snapBusy_snapTake_same hp)
      · exact .inl h
    · exact .inr (Chip.snapBusy_snapTake q hp h)

theorem mem_snapPages {p : Page} (hp : pageValid p = true) (hs : hasSnap p = true) : p ∈ snapPages :=
  List.mem_filter.2 ⟨List.mem_filterMap.2 ⟨pageIdx p, List.mem_range.2 (pageIdx_lt hp), pageOfIdx_pageIdx p hp⟩, hs⟩

/-- SNAP_ALL: captures in progress in every page that has counters. -/
theorem Chip.snapBusy_snapAllTake (c : Chip) {p : Page} (hp : pageValid p = true) (hs : hasSnap p = true) : c.snapAllTake.snapBusy p = true := by
  have hreg : c.snapAllTake.reg p 0x134 = (snapPages.foldl (fun (c : Chip) p => c.snapTake p) c).reg p 0x134 :=
    reg_congr (by rw [Chip.snapAllTake]) ..
  rw [Chip.snapBusy, hreg]
  exact Chip.snapBusy_foldl_snapTake hp (.inl (mem_snapPages hp hs))

/-- Settles O3: a set that applies, a page at reset, and captures that start and end. -/
theorem commitsApplyAndSnapshots : Obligations.CommitsApplyAndSnapshots := by
  refine ⟨?_, ?_, ?_⟩
  · intro s dt p c hp hs hl hsafe ht
    refine .of_run rfl ⟨c.swapPage p false, ?_, c.swapPage_done false hp⟩
    rw [if_pos hp, Chip.commitApply, if_pos ⟨hs, hsafe⟩, if_pos ht, Chip.applyPage, if_neg (by simpa using hl)]
  · intro c p hp
    refine ⟨fun a h ha => ?_, fun a h => ?_, fun q a hq hne ha => ?_, fun i hi => c.cnt_clearPage hp hi, fun t i w => c.tables_clearPage,
      fun side => c.win_clearPage p⟩
    all_goals rw [Chip.reg_clearPage]
    · rw [ownKey_regKey_same hp ha, if_pos (by simpa using h)]
    · rw [ownKey_regKey_same hp (by omega), if_neg (by simpa using h)]
    · rw [ownKey_regKey_other hp hq hne ha, if_neg (by decide)]
  · intro s dt req p c hp hsnap
    refine ⟨fun ht => .of_run rfl ?_, fun hb hall hc => .of_run rfl ?_, fun ht => .of_run rfl ?_⟩
    · rw [Chip.posted_ok (d := (c.sequenced req).snapTake p) _ ht hp (by rw [if_pos hsnap])]
      exact ⟨Chip.snapBusy_snapTake_same _ hp, by simp [Chip.snapTake, Chip.setReg, c]⟩
    · rw [if_pos (by simp [hp, hsnap]), Chip.snapDone, if_neg (by simpa using hb), if_neg (ne_true_of_eq_false hall)]
      exact Chip.snapEnd_done hp hc
    · rw [Chip.command_ok _ ht rfl]
      exact ⟨Chip.snapBusy_snapAllTake _ hp hsnap, rfl⟩

end Sys2Proof.Machine

/-! Copies and frames leave headers, crossings and latched events alone: queues, links, the ends of receptions. One lemma per operation,
each the chain of the operations it is made of. -/

namespace Sys2Proof.Machine

open Sys2Proof

section
variable {c d : Chip} (h : Steady c d)
include h

/-! ## Records -/

theorem Steady.setQueue (q : Nat) (x : Queue) : Steady c (d.setQueue q x) := h.same (by rfl) (by rfl)

theorem Steady.setPortRt (n : Nat) (x : PortRt) : Steady c (d.setPortRt n x) := h.same (by rfl) (by rfl)

theorem Steady.setTx (n : Nat) (x : Option Copy) : Steady c (d.setTx n x) := h.same (by rfl) (by rfl)

theorem Steady.setRx (n : Nat) (f : Option Frame) : Steady c (d.setRx n f) := h.same (by rfl) (by rfl)

theorem Steady.dropPre (k : Copy) : Steady c (d.dropPre k) := h.same (by rfl) (by rfl)

theorem Steady.takeSeq (i q : Nat) : Steady c (d.takeSeq i q).2 := h.same (by rfl) (by rfl)

theorem Steady.setComp (i : Nat) (x : CompRt) : Steady c (d.setComp i x) := h.same (by rfl) (by rfl)

theorem Steady.setMember (i : Nat) (x : MemRt) : Steady c (d.setMember i x) := h.same (by rfl) (by rfl)

theorem Steady.setPolicer (i : Nat) (x : PolRt) : Steady c (d.setPolicer i x) := h.same (by rfl) (by rfl)

theorem Steady.setCan (n : Nat) (x : CanRt) : Steady c (d.setCan n x) := h.same (by rfl) (by rfl)

theorem Steady.setLin (n : Nat) (x : LinRt) : Steady c (d.setLin n x) := h.same (by rfl) (by rfl)

theorem Steady.setTenon (t : Nat) (x : TenonRt) : Steady c (d.setTenon t x) := h.same (by rfl) (by rfl)

theorem Steady.setRing (r : Nat) (x : RingRt) : Steady c (d.setRing r x) := h.same (by rfl) (by rfl)

theorem Steady.clearPortQueues (n : Nat) : Steady c (d.clearPortQueues n) := h.same (by rfl) (by rfl)

theorem Steady.spillRefill : Steady c d.spillRefill := h.same (by rfl) (by rfl)

theorem Steady.mapCopies (g : Copy → Copy) : Steady c (d.mapCopies g) := h.same (by rfl) (by rfl)

/-! ## Flushed queues -/

theorem Steady.portCount (n k : Nat) : Steady c (d.portCount n k) :=
  h.when fun h => h.count ..

theorem Steady.numberLost (k : Copy) : Steady c (d.numberLost k) :=
  h.unless fun h => h.setQueue ..

theorem Steady.countLinkDown (k : Copy) : Steady c (d.countLinkDown k) := h.portCount ..

theorem Steady.countWindowLost (n : Nat) : Steady c (d.countWindowLost n) :=
  h.foldl fun _ _ h => h.unless fun h => (h.addCnt ..).addTCnt ..

theorem Steady.settleCredit : Steady c d.settleCredit := (h.same (by rfl) (by rfl)).foldl fun _ _ h => h.emit _

theorem Steady.flushQueues (n : Nat) : Steady c (d.flushQueues n) :=
  (((h.same (by rfl) (by rfl)).settleCredit.countWindowLost n).when fun h => h.addCnt ..).clearPortQueues n

theorem Steady.flushPort (n : Nat) : Steady c (d.flushPort n) := by
  delta Chip.flushPort
  extract_lets c₁ c₂ safe mine kept c₃ c₄
  have h₁ : Steady c c₁ := h.when fun h => (h.portCount ..).setTx ..
  have h₂ : Steady c c₂ := h₁.foldl fun _ _ h => (h.portCount ..).dropPre _
  have h₄ : Steady c c₄ := (h₂.same (by rfl) (by rfl)).when fun h => h.addCnt ..
  exact h₄.flushQueues n

/-! ## Links -/

theorem Steady.startVerify (n : Nat) : Steady c (d.startVerify n) :=
  (h.put (by rfl) _).setPortRt ..

theorem Steady.endDiag (n : Nat) : Steady c (d.endDiag n) :=
  h.when fun h => ((h.put (by rfl) _).put (by rfl) _).raise ..

theorem Steady.linkMove (n st : Nat) : Steady c (d.linkMove n st) := by
  delta Chip.linkMove
  extract_lets p c₁ old c₂ c₃ c₄ c₅ c₆ c₇ c₈ x c₉
  have h₁ : Steady c c₁ := h.unless fun h => h.endDiag n
  have h₂ : Steady c c₂ := h₁.when fun h => (h.count ..).raise ..
  have h₃ : Steady c c₃ := h₂.when fun h => h.flushPort n
  have h₇ : Steady c c₇ := (((h₃.put (by rfl) _).put (by rfl) _).put (by rfl) _).put (by rfl) _
  have h₈ : Steady c c₈ := h₇.when fun h => h.put (by rfl) _
  exact (h₈.setPortRt ..).startVerify n

theorem Steady.enterUp (n rate : Nat) (longBed resumed : Bool) : Steady c (d.enterUp n rate longBed resumed) :=
  ((((((((h.put (by rfl) _).put (by rfl) _).put (by rfl) _).put (by rfl) _).put (by rfl) _).endDiag n).setPortRt ..).startVerify n).raise ..

theorem Steady.wakePort (n : Nat) : Steady c (d.wakePort n) :=
  h.when fun h => .ite (h.enterUp ..) (h.linkMove ..)

theorem Steady.wakeOnTx (n : Nat) : Steady c (d.wakeOnTx n) :=
  h.when fun h => (h.emit _).wakePort n

/-! ## Copies refused -/

theorem Steady.partialDelivery (k : Copy) : Steady c (d.partialDelivery k) := by
  delta Chip.partialDelivery
  split
  · exact h
  · extract_lets live e
    have g : Steady c e := h.portCount ..
    exact g.same (by rfl) (by rfl)

theorem Steady.refuseCopy (k : Copy) : Steady c (d.refuseCopy k) :=
  h.when fun h => (h.portCount ..).partialDelivery k

theorem Steady.refuseLinkDown (k : Copy) : Steady c (d.refuseLinkDown k) := (h.countLinkDown k).partialDelivery k

theorem Steady.dtDrop (k : Copy) : Steady c (d.dtDrop k) := ((h.count ..).tcount ..).refuseCopy k

/-! ## Copies that enter their queues -/

theorem Steady.enqueue (k : Copy) : Steady c (d.enqueue k) := by
  delta Chip.enqueue
  extract_lets q
  have g := h.takeSeq k.ingress q
  generalize d.takeSeq k.ingress q = r at g ⊢
  obtain ⟨n, e⟩ := r
  dsimp only at g ⊢
  exact (((g.perf ..).perf ..).setQueue ..).tcount ..

theorem Steady.writeOut (k : Copy) : Steady c (d.writeOut k) := h.setQueue ..

theorem Steady.drainWrites (n : Nat) : Steady c (Chip.drainWrites n d) := by
  induction n generalizing d with
  | zero => exact h
  | succ n ih =>
    unfold Chip.drainWrites
    refine h.unless fun h => ?_
    split
    · exact ih (h.writeOut _)
    · exact h

theorem Steady.spillCopy (k : Copy) : Steady c (d.spillCopy k).1 := by
  delta Chip.spillCopy
  extract_lets q n c₁ c₂ c₃ c₄
  have hfull : Steady c (((d.count pSPILL K.SPILL_SPILL_FULL_DROP).raise pSPILL E.SPILL_SPILL_FULL).dtDrop k) := ((h.count ..).raise ..).dtDrop k
  have h₄ : Steady c c₄ := (((h.spillRefill.same (by rfl) (by rfl)).count ..).addCnt ..).enqueue _
  split
  · split
    · exact hfull
    · split
      · exact (h.spillRefill.count ..).dtDrop k
      · exact (h₄.drainWrites _).tcount ..
  · split
    · exact (h.count ..).dtDrop k
    · exact h.dtDrop k

theorem Steady.beyondHfrc : Steady c d.beyondHfrc.2 := by
  delta Chip.beyondHfrc
  split
  · exact h.same (by rfl) (by rfl)
  · exact h

theorem Steady.letIn (k : Copy) : Steady c (d.letIn k).1 := by
  have g := h.beyondHfrc
  delta Chip.letIn
  generalize d.beyondHfrc = r at g ⊢
  obtain ⟨late, e⟩ := r
  simp only at g ⊢
  split
  · split
    · exact g.enqueue k
    · exact ((g.count ..).tcount ..).refuseCopy k
  · split
    · exact g.enqueue k
    · split
      · exact g.dtDrop k
      · exact g.spillCopy k

theorem Steady.place (k : Copy) : Steady c (d.place k).1 := by
  delta Chip.place
  split
  · exact (h.refuseLinkDown k).wakeOnTx _
  · split
    · split
      · exact h.count ..
      · exact h.same (by rfl) (by rfl)
    · split
      · exact h.same (by rfl) (by rfl)
      · exact h.letIn k

theorem Steady.stage6 (f : Frame) : Steady c (d.stage6 f) := by
  delta Chip.stage6
  refine .ite (h.unless fun h => h.count ..) ?_
  exact (h.when fun h => h.count ..).foldl fun _ _ h => h.place _

/-! ## Members and compound streams -/

theorem Steady.failMember (m cause : Nat) : Steady c (d.failMember m cause) :=
  ((h.setMember ..).tcount ..).unless fun h => (h.count ..).raise ..

theorem Steady.goodMember (m : Nat) : Steady c (d.goodMember m) := by
  have g := h.tcount pFRER 3 m msGood
  delta Chip.goodMember
  exact .ite (g.setMember ..) (.ite (g.setMember ..) (g.setMember ..))

theorem Steady.rogueMember (m limit : Nat) : Steady c (d.rogueMember m limit) :=
  (h.setMember ..).when fun h => h.failMember ..

theorem Steady.generate (f : Frame) (r : FrerRule) : Steady c (d.generate f r).1 := by
  delta Chip.generate
  split
  · split
    · exact h.setComp ..
    · exact h
  · exact h

theorem Steady.holdFull : Steady c d.holdFull := (h.count ..).raise ..

theorem Steady.countRogue (i : Nat) : Steady c (d.countRogue i) := (h.tcount ..).count ..

theorem Steady.indAccept (m s : Nat) (r : FrerRule) : Steady c (d.indAccept m s r) := by
  delta Chip.indAccept
  split
  · exact h.setMember ..
  · exact h

theorem Steady.goodFrom (m : Option Nat) (s : Nat) (r : FrerRule) : Steady c (d.goodFrom m s r) := by
  delta Chip.goodFrom
  split
  · exact (h.indAccept ..).goodMember _
  · exact h

theorem Steady.acceptNumber (i s : Nat) (r : FrerRule) : Steady c (d.acceptNumber i s r) :=
  ((((h.setComp ..).unless fun h => (h.addTCnt ..).addCnt ..).when fun h => h.tcount ..).perf ..).tcount ..

theorem Steady.countDuplicate (i : Nat) : Steady c (d.countDuplicate i) := (((h.setComp ..).perf ..).tcount ..).count ..

theorem Steady.unpend (i s : Nat) : Steady c (d.unpend i s) := h.setComp ..

theorem Steady.dropHeld (i s : Nat) : Steady c (d.dropHeld i s) := (h.same (by rfl) (by rfl)).foldl fun _ _ h => h.countDuplicate i

theorem Steady.accepted (i s : Nat) (f : Frame) : Steady c (d.accepted i s f) := ((h.unpend ..).acceptNumber ..).dropHeld ..

theorem Steady.releaseHeld (i s : Nat) : Steady c (d.releaseHeld i s).1 := by
  have g := h.unpend i s
  delta Chip.releaseHeld
  extract_lets c₁
  split
  · exact g
  next x _ =>
    extract_lets c₂ c₃ c₄ c₅
    have h₃ : Steady c c₃ := ((g.same (by rfl) (by rfl)).count ..).tcount ..
    split
    · exact (h₃.accepted ..).generate ..
    · exact h₃.setComp ..

theorem Steady.holdWhole (f : Frame) : Steady c (d.holdWhole f) :=
  .ite (h.same (by rfl) (by rfl)).holdFull (h.same (by rfl) (by rfl))

theorem Steady.frerEnd (f : Frame) (good : Bool) : Steady c (d.frerEnd f good).1 := by
  delta Chip.frerEnd
  split
  next i s _ _ =>
    have hgood : Steady c (d.goodFrom f.member s f.rule) := h.goodFrom ..
    extract_lets held isPending c₁
    have hacc : Steady c c₁ := hgood.accepted i s f
    split
    · split
      · split
        · exact hacc.generate ..
        · exact hacc
      · exact h.releaseHeld ..
    · split
      · split
        · exact hgood.holdWhole f
        · exact h.same (by rfl) (by rfl)
      · split
        · cases f.verdict with
          | duplicate => exact hgood.countDuplicate i
          | rogue =>
            cases f.member with
            | none => exact h
            | some m => exact ((h.indAccept ..).countRogue i).rogueMember ..
          | individual =>
            cases f.member with
            | none => exact h
            | some m => exact h.tcount ..
          | held | pass | dropped => exact hgood
          | pending => exact h
        · exact h
  · exact h

/-! ## The end of a reception -/

theorem Steady.bridleRest (rules : List Nat) (pols : List (Nat × Bool)) (n : Nat) : Steady c (d.bridleRest rules pols n) :=
  (h.foldl (l := rules) fun _ _ h => h.addTCnt ..).foldl fun _ _ h => h.when fun h => h.setPolicer ..

theorem Steady.countRest (f : Frame) (size : Nat) : Steady c (d.countRest f size) := (h.bridleRest ..).foldl fun _ _ h => h.bridleRest ..

theorem Steady.withdraw (fid : Nat) : Steady c (d.withdraw fid) := by
  refine (h.same (by rfl) (by rfl)).foldl fun d e h => ?_
  split
  · exact h
  · exact (h.setQueue ..).foldl fun _ _ h => h.numberLost _

theorem Steady.tailBad (f : Frame) (size : Nat) : Steady c (d.tailBad f size) := by
  delta Chip.tailBad
  extract_lets c₁ c₂
  have h₂ : Steady c c₂ := ((h.countRest f size).withdraw f.fid).mapCopies _
  have g := h₂.frerEnd f false
  generalize c₂.frerEnd f false = r at g ⊢
  exact g.foldl fun _ _ h => h.stage6 _

theorem Steady.rxAbandon (n : Nat) : Steady c (d.rxAbandon n) := by
  delta Chip.rxAbandon
  split
  · exact ((h.setRx ..).portCount ..).when fun h => h.tailBad ..
  · exact h

end

end Sys2Proof.Machine

/-! What a block does when its enable changes, and what a crossing that is flushed loses: neither changes a header (R37, R320). -/

namespace Sys2Proof.Machine

open Sys2Proof

/-- The registers of the rings end inside their page. -/
theorem ownFld_ringFld {r : Nat} (h : r < 32) : ownFld pDMA (ringFld F.DMA_RSTATUS_STATE r) = true := by
  have hoff : (ringFld F.DMA_RSTATUS_STATE r).off = 0x218 + 0x20 * r := rfl
  simp only [ownFld, hoff, Bool.and_eq_true, decide_eq_true_eq]
  exact ⟨nofun, by omega⟩

section
variable {c d : Chip} (h : Steady c d)
include h

/-! ## Ports -/

theorem Steady.linkTo (n st : Nat) : Steady c (d.linkTo n st) := (h.rxAbandon n).linkMove n st

theorem Steady.search (n : Nat) : Steady c (d.search n) :=
  (h.linkTo ..).unless fun h => h.when fun h => h.enterUp ..

theorem Steady.portFollow (n : Nat) : Steady c (d.portFollow n) :=
  .ite (h.when fun h => h.search n) (h.unless fun h => h.linkTo ..)

theorem Steady.forwardKept : Steady c d.forwardKept := h.foldl fun _ _ h => (h.same (by rfl) (by rfl)).foldl fun _ _ h => h.emit _

theorem Steady.hostEdge (old : Chip) : Steady c (d.hostEdge old) :=
  .ite (((h.count ..).raise ..).flushPort 30) (h.when fun h => h.raise ..)

/-! ## Buses -/

theorem Steady.setCanState (n st : Nat) : Steady c (d.setCanState n st) := h.put (by rfl) _

theorem Steady.canOff (n : Nat) : Steady c (d.canOff n) := (((h.setCan ..).put (by rfl) _).put (by rfl) _).setCanState ..

theorem Steady.canFollow (n : Nat) : Steady c (d.canFollow n) :=
  .ite (h.when fun h => .ite (h.setCanState ..) (h.setCanState ..)) (h.unless fun h => h.canOff n)

theorem Steady.setLinState (n st : Nat) : Steady c (d.setLinState n st) := h.put (by rfl) _

theorem Steady.linRestart (n : Nat) : Steady c (d.linRestart n) := ((h.setLin ..).put (by rfl) _).put (by rfl) _

theorem Steady.linAwake (n : Nat) : Steady c (d.linAwake n) :=
  .ite (h.unless fun h => (h.linRestart n).setLinState ..) (h.setLinState ..)

theorem Steady.linFollow (n : Nat) : Steady c (d.linFollow n) :=
  .ite (h.setLinState ..) (.ite (h.setLinState ..) (h.unless fun h => h.linAwake n))

/-! ## Spill and rings -/

theorem Steady.spillEnable (en : Bool) : Steady c (d.spillEnable en) := by
  delta Chip.spillEnable
  extract_lets e
  have g : Steady c e := (h.put (by rfl) _).put (by rfl) _
  exact g.same (by rfl) (by rfl)

theorem Steady.dropHeldOf (r : Nat) : Steady c (d.dropHeldOf r) := ((h.same (by rfl) (by rfl)).addCnt ..).foldl fun _ _ h => h.refuseCopy _

theorem Steady.ringOff {r : Nat} (hr : r < 32) : Steady c (d.ringOff r) := by
  delta Chip.ringOff
  extract_lets x c₁ c₂
  have h₁ : Steady c c₁ := h.when fun h => h.count ..
  exact (((h₁.same (by rfl) (by rfl)).setRing ..).dropHeldOf r).put (ownFld_ringFld hr) _

theorem Steady.ringsOff : Steady c d.ringsOff :=
  h.foldl_mem fun _ _ hr h => h.unless fun h => h.ringOff (List.mem_range.1 hr)

/-! ## Posted writes and requests that fail -/

theorem Steady.capture (kind : Nat) (ws : List Word) : Steady c (d.capture kind ws) := by
  delta Chip.capture
  refine h.when fun h => ?_
  extract_lets n ring e
  have g : Steady c e := h.setReg (by rfl) _
  exact g.same (by rfl) (by rfl)

theorem Steady.postedFail (req : Requester) (addr : Nat) (data : Word) (cause wseq : Nat) : Steady c (d.postedFail req addr data cause wseq) := by
  delta Chip.postedFail
  extract_lets e c₁ c₂
  have h₂ : Steady c c₂ := (((h.same (by rfl) (by rfl)).count ..).raise ..).capture ..
  exact .ite (h₂.same (by rfl) (by rfl)) ((h₂.count ..).raise ..)

theorem Steady.qsUr : Steady c d.qsUr := by
  delta Chip.qsUr
  extract_lets e
  have g : Steady c e := (h.count ..).emit _
  exact g.same (by rfl) (by rfl)

theorem Steady.qsSettle : Steady c d.qsSettle := by
  delta Chip.qsSettle
  split
  · split
    · exact h.unless fun h => (h.capture ..).qsUr
    · exact h
  · exact h

theorem Steady.qsPush (w : Word) : Steady c (d.qsPush w) := by
  delta Chip.qsPush
  split
  · exact h.same (by rfl) (by rfl)
  · exact h

theorem Steady.answerFence (req : Nat) (timeout : Bool) : Steady c (d.answerFence req timeout) :=
  .ite ((h.same (by rfl) (by rfl)).qsPush _) ((h.same (by rfl) (by rfl)).emit _)

theorem Steady.settleFences : Steady c d.settleFences := h.foldl fun _ _ h => h.when fun h => h.answerFence ..

theorem Steady.noteUr (addr : Nat) : Steady c (d.noteUr addr) := by
  delta Chip.noteUr
  extract_lets e
  have g : Steady c e := (h.count ..).capture ..
  exact g.same (by rfl) (by rfl)

theorem Steady.remoteFail (req : Requester) (write : Bool) (dev addr : Nat) (data : Word) (wseq cause : Nat) :
    Steady c (d.remoteFail req write dev addr data wseq cause) := by
  have g := h.count pTRING K.TRING_REMOTE_FAIL
  delta Chip.remoteFail
  exact .ite (g.when fun h => h.postedFail ..) (g.unless fun h => .ite ((h.emit _).noteUr _) (h.emit _))

theorem Steady.decided (req : Requester) : Steady c (d.decided req) := (h.same (by rfl) (by rfl)).settleFences

theorem Steady.failRemotes (p : RemoteReq → Bool) (cause : Nat) : Steady c (d.failRemotes p cause) := by
  refine ((h.same (by rfl) (by rfl)).foldl fun d e h => ?_).qsSettle
  exact .ite (h.count ..) ((h.remoteFail ..).when fun h => h.decided _)

/-! ## Tenon links -/

theorem Steady.tenonLost (t : Nat) (partnerReset : Bool) : Steady c (d.tenonLost t partnerReset) := by
  delta Chip.tenonLost
  extract_lets p peer c₀ c₁ c₂ c₃ c₄
  have h₁ : Steady c c₁ := h.when fun h => (((h.count ..).raise ..).count ..).raise ..
  have h₂ : Steady c c₂ := (h₁.flushPort _).rxAbandon _
  have h₃ : Steady c c₃ := h₂.same (by rfl) (by rfl)
  exact (h₃.when fun h => h.failRemotes ..).failRemotes ..

theorem Steady.showConflict : Steady c d.showConflict := h.put (by rfl) _

theorem Steady.ringUpdate : Steady c d.ringUpdate := by
  delta Chip.ringUpdate
  extract_lets f old v c₁
  have h₁ : Steady c c₁ := (((h.put (by rfl) _).put (by rfl) _).put (by rfl) _).setReg (by rfl) _
  exact h₁.unless fun h => (h.put (by rfl) _).raise ..

theorem Steady.tenonDown (t st : Nat) (partnerReset : Bool) : Steady c (d.tenonDown t st partnerReset) :=
  ((((h.when fun h => h.tenonLost ..).setTenon ..).setReg (by rfl) _).showConflict).ringUpdate

theorem Steady.tenonFollow (t : Nat) : Steady c (d.tenonFollow t) :=
  .ite (h.unless fun h => h.tenonDown ..) (h.when fun h => h.tenonDown ..)

/-! ## The enable changes, and a crossing is flushed -/

/-- What a block does when its enable has changed. -/
theorem Steady.enFollow (old : Chip) (p : Page) : Steady c (d.enFollow old p) := by
  delta Chip.enFollow
  split
  · exact .ite (h.portFollow _).forwardKept (h.when fun h => h.hostEdge old)
  · exact h.canFollow _
  · exact h.linFollow _
  · exact h.unless fun h => h.spillEnable _
  · exact (h.unless fun h => h.ringsOff).hostEdge old
  · exact h.tenonFollow _
  · exact h

theorem Steady.xingDrop : Steady c d.xingDrop := h.count ..

theorem Steady.xingRx (p : Page) (n : Nat) : Steady c (d.xingRx p n) := by
  delta Chip.xingRx
  split
  · refine h.when fun h => .ite ?_ ?_
    · exact ((h.setRx ..).xingDrop.portCount ..).tailBad ..
    · exact ((h.xingDrop.count ..).withdraw _).setRx ..
  · exact h

theorem Steady.xingCopy (p : Page) (n : Nat) (k : Copy) : Steady c (d.xingCopy p n k) := (h.xingDrop.portCount ..).emit _

theorem Steady.xingTx (p : Page) (n : Nat) : Steady c (d.xingTx p n) := by
  delta Chip.xingTx
  extract_lets old e
  have g : Steady c e := by
    simp only [e]
    split
    · exact (h.xingCopy ..).setTx ..
    · exact h
  exact g.foldl fun _ _ h => (h.xingCopy ..).dropPre _

theorem Steady.xingDma : Steady c d.xingDma := by
  refine h.foldl fun d e h => h.when fun h => ?_
  extract_lets d'
  have g : Steady c d' := h.xingDrop
  exact g.same (by rfl) (by rfl)

end

end Sys2Proof.Machine

/-! Header commands (R36, R37, R51, R52): the lock, the events, the enable, and what a soft reset finds once its crossing is flushed. -/

namespace Sys2Proof.Machine

open Sys2Proof

/-! ## Rejected requests change COMMIT_STATUS alone -/

theorem Chip.get_rejectPage (c : Chip) {p q : Page} {f : Fld} (reason detail : Nat) (hp : pageValid p = true) (hq : pageValid q = true)
    (hf : f.inHeader = true) (hne : f.off ≠ 0x02C) : (c.rejectPage q reason detail).get p f = c.get p f := by
  have hapart : ∀ g : Fld, g.fits = true → g.off = 0x02C → f.apart g = true := fun g hg ho => Fld.apart_of_header hf hg (ho ▸ hne)
  simp [Chip.rejectPage, Chip.get_raise_header _ _ hp hq hf, Chip.get_put_apart _ _ hp hq, hapart, Fld.fits]

@[simp] theorem Chip.xings_put (c : Chip) (p : Page) (f : Fld) (v : Nat) : (c.put p f v).xings = c.xings := Chip.xings_setRegAt ..

@[simp] theorem Chip.xings_sequenced (c : Chip) (req : Requester) : (c.sequenced req).xings = c.xings := by
  unfold Chip.sequenced
  split <;> rfl

@[simp] theorem Chip.xings_raise (c : Chip) (p : Page) (b : Nat) : (c.raise p b).xings = c.xings := ((Steady.refl c).raise ..).xings

@[simp] theorem Chip.xings_setCommitRt (c : Chip) (p : Page) (x : CommitRt) : (c.setCommitRt p x).xings = c.xings := by
  rw [Chip.setCommitRt]

@[simp] theorem Chip.xings_setGroup (c : Chip) (g : GroupRt) : (c.setGroup g).xings = c.xings := by
  rw [Chip.setGroup]

@[simp] theorem Chip.xings_rejectPage (c : Chip) (p : Page) (reason detail : Nat) : (c.rejectPage p reason detail).xings = c.xings := by
  simp [Chip.rejectPage]

/-- From `c` to `d` the crossings and a page's enable stand. -/
def Chip.SameLife (c d : Chip) (p : Page) : Prop := d.xings = c.xings ∧ d.enabled p = c.enabled p

theorem Chip.SameLife.rejectPage {c d : Chip} {p : Page} (h : c.SameLife d p) (hp : pageValid p = true) {q : Page} (hq : pageValid q = true)
    (reason detail : Nat) : c.SameLife (d.rejectPage q reason detail) p := by
  refine ⟨(Chip.xings_rejectPage ..).trans h.1, Eq.trans ?_ h.2⟩
  rw [Chip.enabled, Chip.is, Chip.get_rejectPage _ _ _ hp hq (by decide) (by decide), Chip.enabled, Chip.is]

theorem Chip.SameLife.endGroup {c d : Chip} {p : Page} (h : c.SameLife d p) (hp : pageValid p = true) (reason : Nat) (fail : Option Nat) :
    c.SameLife (d.endGroup reason fail) p := by
  refine ⟨Eq.trans ?_ h.1, Eq.trans ?_ h.2⟩
  · simp [Chip.endGroup_eq]
  · rw [Chip.enabled, Chip.is, Chip.get_endGroup _ _ _ hp (by decide) (by decide), Chip.enabled, Chip.is]

theorem Chip.sameLife_rejectGroup (c : Chip) {p : Page} (hp : pageValid p = true) (i reason detail : Nat) :
    c.SameLife (c.rejectGroup i reason detail) p := by
  have hfold : ∀ (l : List Nat) (d : Chip), c.SameLife d p → c.SameLife (l.foldl (fun d j => match pageOfIdx j with
      | some q => if j = i then d.rejectPage q reason detail else d.rejectPage q rsnGroupPeer 0
      | none => d) d) p := by
    intro l
    induction l with
    | nil => exact fun _ h => h
    | cons j l ih =>
      refine fun d h => ih _ ?_
      dsimp only
      split
      next q hq =>
        have hv := pageValid_of_pageOfIdx hq
        split
        · exact h.rejectPage hp hv ..
        · exact h.rejectPage hp hv ..
      · exact h
  exact (hfold _ c ⟨rfl, rfl⟩).endGroup hp ..

/-- A reset ends its page's request (R37). -/
theorem Chip.sameLife_abortPage (c : Chip) {p : Page} (hp : pageValid p = true) : c.SameLife (c.abortPage p) p := by
  unfold Chip.abortPage
  extract_lets st
  split
  · exact ⟨rfl, rfl⟩
  · split
    · exact c.sameLife_rejectGroup hp ..
    · exact Chip.SameLife.rejectPage ⟨rfl, rfl⟩ hp hp ..

theorem Chip.commitState_abortPage {c : Chip} {p : Page} (hp : pageValid p = true) (h : c.commitState p ≠ 4) :
    (c.abortPage p).commitState p = 0 := by
  unfold Chip.abortPage
  extract_lets st
  split
  next h0 => exact h0
  next => exact Chip.commitState_rejectPage _ hp ..

/-! ## The flush of a crossing (R320) -/

/-- The chip with the crossing of a page in its other epoch. -/
def Chip.epochFlipped (c : Chip) (p : Page) : Chip := { c with xings := store false c.xings (pageIdx p) (!c.pageEpoch p) }

@[simp] theorem Chip.get_epochFlipped (c : Chip) (p q : Page) (f : Fld) : (c.epochFlipped p).get q f = c.get q f := by
  rw [Chip.get, reg_congr (c := c) (by rw [Chip.epochFlipped]), Chip.get]

/-- The chip as the flush of a crossing shows it, before what the crossing held is dropped. -/
def Chip.flushShown (c : Chip) (p : Page) : Chip :=
  let d := c.epochFlipped p
  let e := (d.put pRST F.RST_XING_STATUS_PAGE (pageIdx p)).put pRST F.RST_XING_STATUS_FLUSHES (d.get pRST F.RST_XING_STATUS_FLUSHES + 1)
  ((e.count pRST K.RST_XING_FLUSHES).raise pRST E.RST_XING_FLUSH).addCnt pRST K.RST_XING_DROP (e.xingInner p)

theorem Chip.steady_xingFlush (c : Chip) (p : Page) : Steady (c.flushShown p) (c.xingFlush p) := by
  have h := (((Steady.refl (c.flushShown p)).foldl (l := List.range 32) fun _ n h => (h.xingRx p n).xingTx p n)).xingDma
  rw [Chip.xingFlush]
  exact h.when fun h => h.raise ..

@[simp] theorem Chip.get_count (c : Chip) (q : Page) (i : Nat) (p : Page) (f : Fld) : (c.count q i).get p f = c.get p f := by
  simp [Chip.get]

@[simp] theorem Chip.get_addCnt (c : Chip) (q : Page) (i n : Nat) (p : Page) (f : Fld) : (c.addCnt q i n).get p f = c.get p f := by
  simp [Chip.get]

theorem Chip.get_flushShown (c : Chip) (p : Page) {q : Page} {f : Fld} (hq : pageValid q = true) (hf : f.inHeader = true) :
    (c.flushShown p).get q f = c.get q f := by
  obtain ⟨-, -, ho, -⟩ := f.inHeader_iff.1 hf
  have hapart : ∀ g : Fld, g.fits = true → g.off = 0x160 → f.apart g = true := fun g hg hgo => Fld.apart_of_header hf hg (by omega)
  have hrst : pageValid pRST = true := rfl
  simp [Chip.flushShown, Chip.get_raise_header _ _ hq hrst hf, Chip.get_put_apart _ _ hq hrst, hapart, Fld.fits]

theorem Chip.page_flushShown (c : Chip) {p : Page} (hp : pageValid p = true) : (c.flushShown p).get pRST F.RST_XING_STATUS_PAGE = pageIdx p := by
  have hrst : pageValid pRST = true := rfl
  have hraise : ∀ d : Chip, (d.raise pRST E.RST_XING_FLUSH).get pRST F.RST_XING_STATUS_PAGE = d.get pRST F.RST_XING_STATUS_PAGE := fun d =>
    (Loud.raise d _ hrst).get hrst (by decide) (by decide)
  have hmod : pageIdx p % 128 = pageIdx p := Nat.mod_eq_of_lt (by have := pageIdx_lt hp; omega)
  simp [Chip.flushShown, hraise, Chip.get_put_apart, Chip.get_put_same, hrst, Fld.apart, Fld.fits, Fld.actOff, hmod]

theorem Chip.latched_flushShown (c : Chip) (p : Page) : (c.flushShown p).latched pRST E.RST_XING_FLUSH = true := by
  rw [Chip.flushShown, Chip.latched, Chip.reg_addCnt]
  exact Chip.latched_raise _ rfl (by decide)

theorem Chip.pageEpoch_flushShown (c : Chip) (p : Page) : (c.flushShown p).pageEpoch p = !c.pageEpoch p := by
  have h : (c.flushShown p).xings = store false c.xings (pageIdx p) (!c.pageEpoch p) := by
    rw [Chip.flushShown, Chip.addCnt, Chip.xings_setCntAt, Chip.xings_raise, Chip.count, Chip.addCnt, Chip.xings_setCntAt, Chip.xings_put,
      Chip.xings_put, Chip.epochFlipped]
  rw [Chip.pageEpoch, h, lookupD_store_same]

/-- What a soft reset finds when its page's request is ended and its crossing flushed (R37, R320). -/
theorem Chip.flushed_after_abort (c : Chip) {p : Page} (hp : pageValid p = true) :
    let b := (c.abortPage p).xingFlush p
    b.latched pRST E.RST_XING_FLUSH = true ∧ b.get pRST F.RST_XING_STATUS_PAGE = pageIdx p ∧ b.pageEpoch p = !c.pageEpoch p
      ∧ (c.commitState p ≠ 4 → b.commitState p = 0) ∧ b.enabled p = c.enabled p := by
  intro b
  obtain ⟨hx, hen⟩ := c.sameLife_abortPage hp
  have hs : Steady ((c.abortPage p).flushShown p) b := (c.abortPage p).steady_xingFlush p
  refine ⟨hs.latched (Chip.latched_flushShown ..), ?_, ?_, fun h => ?_, ?_⟩
  · rw [hs.get_rst (by decide) (by decide), Chip.page_flushShown _ hp]
  · rw [hs.pageEpoch, Chip.pageEpoch_flushShown, Chip.pageEpoch, hx, Chip.pageEpoch]
  · rw [hs.commitState, Chip.commitState, Chip.get_flushShown _ _ hp (by decide)]
    exact Chip.commitState_abortPage hp h
  · rw [hs.enabled, ← hen, Chip.enabled, Chip.is, Chip.get_flushShown _ _ hp (by decide), Chip.enabled, Chip.is]

/-! ## The enable (R36) -/

theorem Chip.enabled_put (c : Chip) {p : Page} (en : Bool) (hp : pageValid p = true) : (c.put p F.CTRL_EN en.toNat).enabled p = en := by
  rw [Chip.enabled, Chip.is, c.get_put_same _ hp (by decide) rfl]
  cases en <;> rfl

theorem Chip.steady_enTo (c : Chip) (p : Page) (en : Bool) : Steady (c.put p F.CTRL_EN en.toNat) (c.enTo p en) := (Steady.refl _).enFollow ..

/-- An enable write changes EN alone of its header: the page's request and its crossing stand. -/
theorem Chip.enTo_header (c : Chip) {p : Page} (en : Bool) (hp : pageValid p = true) :
    (c.enTo p en).enabled p = en ∧ (c.enTo p en).commitState p = c.commitState p ∧ (c.enTo p en).pageEpoch p = c.pageEpoch p := by
  have hs := c.steady_enTo p en
  refine ⟨hs.enabled p ▸ c.enabled_put en hp, ?_, ?_⟩
  · rw [hs.commitState, Chip.commitState, c.get_put_apart _ hp hp (by decide), Chip.commitState]
  · rw [hs.pageEpoch, Chip.pageEpoch, Chip.xings_put, Chip.pageEpoch]

theorem Chip.writeCtrl_enable (c : Chip) (x : Ext) {p : Page} (en : Bool) (hl : c.locked p = false) :
    c.writeCtrl x p (BitVec.ofNat 32 en.toNat) = (c.enTo p en, 0) := by
  have hrst : (BitVec.ofNat 32 en.toNat).toNat.testBit 1 = false := by cases en <;> rfl
  have hen : (BitVec.ofNat 32 en.toNat).toNat.testBit 0 = en := by cases en <;> rfl
  rw [Chip.writeCtrl, if_neg (ne_true_of_eq_false hl), hen]
  dsimp only
  rw [if_neg fun h => ne_true_of_eq_false hrst h.1]

theorem Chip.writeCtrl_reset (c : Chip) (x : Ext) {p : Page} (en : Bool) (hl : c.locked p = false) (hr : noSoftReset p = false) :
    c.writeCtrl x p (BitVec.ofNat 32 (2 + en.toNat)) = ((c.enTo p en).softReset x p, 0) := by
  have hrst : (BitVec.ofNat 32 (2 + en.toNat)).toNat.testBit 1 = true := by cases en <;> rfl
  have hen : (BitVec.ofNat 32 (2 + en.toNat)).toNat.testBit 0 = en := by cases en <;> rfl
  rw [Chip.writeCtrl, if_neg (ne_true_of_eq_false hl), hen]
  dsimp only
  rw [if_pos ⟨hrst, ne_true_of_eq_false hr⟩]

/-! ## Lock and events (R51, R52) -/

theorem Chip.writeLock_locks {c : Chip} {p : Page} (hs : c.commitState p = 0) : c.writeLock p 1 = (c.put p F.LOCK_LOCK 1, 0) := by
  simp [Chip.writeLock, hs]

theorem Chip.locked_put (c : Chip) {p : Page} (hp : pageValid p = true) : (c.put p F.LOCK_LOCK 1).locked p = true := by
  rw [Chip.locked, Chip.is, c.get_put_same _ hp (by decide) rfl]
  rfl

/-- EVT_RAW cleared, and with ACCESS_ERR the record of the access. -/
def Chip.eventsCleared (c : Chip) (p : Page) (v : Word) : Chip :=
  let d := c.setReg p 0x018 (c.reg p 0x018 &&& ~~~ v)
  if v.toNat.testBit E.ACCESS_ERR then (d.setReg p 0x034 0).setReg p 0x038 0 else d

theorem Chip.clearEvents_eq (c : Chip) (p : Page) (v : Word) : c.clearEvents p v =
    if (c.eventsCleared p v).evtPendMaskable p ≠ 0 then (c.eventsCleared p v).routeEvent p else c.eventsCleared p v := by
  rw [Chip.clearEvents, Chip.eventsCleared]

theorem Chip.reg_clearEvents (c : Chip) {p : Page} {a : Nat} (v : Word) (hp : pageValid p = true) (ha : a < 0x1000) (h : still p a = true) :
    (c.clearEvents p v).reg p a = (c.eventsCleared p v).reg p a := by
  rw [Chip.clearEvents_eq]
  split
  · exact (Calm.routeEvent (c.eventsCleared p v) p).regs p a hp ha h
  · rfl

section
variable (c : Chip) {p : Page} (v : Word) (hp : pageValid p = true)
include hp

theorem Chip.raw_clearEvents : (c.clearEvents p v).reg p 0x018 = c.reg p 0x018 &&& ~~~ v := by
  rw [c.reg_clearEvents v hp (by decide) (by simp [still]), Chip.eventsCleared]
  split
  · rw [Chip.reg_setReg_off _ _ (by decide), Chip.reg_setReg_off _ _ (by decide), Chip.reg_setReg_same _ _ hp (by decide)]
  · rw [Chip.reg_setReg_same _ _ hp (by decide)]

theorem Chip.cause_clearEvents (hv : v.getLsbD E.ACCESS_ERR = true) :
    (c.clearEvents p v).reg p 0x034 = 0 ∧ (c.clearEvents p v).reg p 0x038 = 0 := by
  have he : c.eventsCleared p v = ((c.setReg p 0x018 (c.reg p 0x018 &&& ~~~ v)).setReg p 0x034 0).setReg p 0x038 0 := if_pos hv
  rw [c.reg_clearEvents v hp (by decide) (by simp [still]), c.reg_clearEvents v hp (by decide) (by simp [still]), he]
  exact ⟨by rw [Chip.reg_setReg_off _ _ (by decide), Chip.reg_setReg_same _ _ hp (by decide)], Chip.reg_setReg_same _ _ hp (by decide)⟩

end

end Sys2Proof.Machine

/-! Register accesses by address (R34, R38, R40, R253): plain writes, refused writes, reads, accesses that nothing takes. -/

namespace Sys2Proof.Machine

open Sys2Proof

/-! ## What a failed access adds

Events, failed writes and captures add outputs and counts; HOST.BAD_ACCESS is counted where the access is judged, by none of them. -/

/-- The key of HOST.BAD_ACCESS. -/
def badKey : Nat := cntKey pHOST K.HOST_BAD_ACCESS

/-- From `c` to `d` no output is taken back, and HOST.BAD_ACCESS stands. -/
structure Logs (c d : Chip) : Prop where
  outs : ∀ o ∈ c.outs, o ∈ d.outs
  bad : d.cntAt badKey = c.cntAt badKey

theorem Logs.refl (c : Chip) : Logs c c := ⟨fun _ h => h, rfl⟩

section
variable {c d e : Chip} {P : Prop} [Decidable P]

theorem Logs.same (h : Logs c d) (ho : e.outs = d.outs) (hn : e.cnt = d.cnt) : Logs c e :=
  ⟨fun o hm => ho ▸ h.outs o hm, by rw [Chip.cntAt, hn, ← Chip.cntAt, h.bad]⟩

theorem Logs.ite (hd : Logs c d) (he : Logs c e) : Logs c (if P then d else e) := by
  split
  · exact hd
  · exact he

theorem Logs.when (h : Logs c d) (g : Logs c d → Logs c e) : Logs c (if P then e else d) := .ite (g h) h

theorem Logs.unless (h : Logs c d) (g : Logs c d → Logs c e) : Logs c (if P then d else e) := .ite h (g h)

end

section
variable {c d : Chip} (h : Logs c d)
include h

theorem Logs.emit (o : Output) : Logs c (d.emit o) := ⟨fun x hx => List.mem_append_left _ (h.outs x hx), h.bad⟩

theorem Logs.setReg (p : Page) (off : Nat) (w : Word) : Logs c (d.setReg p off w) := h.same (by rfl) (by rfl)

theorem Logs.addCnt {p : Page} {i : Nat} (hne : badKey ≠ cntKey p i) (n : Nat) : Logs c (d.addCnt p i n) :=
  ⟨h.outs, (lookupD_store_other _ _ _ _ hne).trans h.bad⟩

theorem Logs.count {p : Page} {i : Nat} (hne : badKey ≠ cntKey p i) : Logs c (d.count p i) := h.addCnt hne 1

theorem Logs.perfAdd {i : Nat} (hi : i < 32) (n : Nat) : Logs c (d.perfAdd i n) := by
  have hne : badKey ≠ cntKey pPERF i := by
    have hbad : badKey = 121861 := rfl
    have hkey : cntKey pPERF i = 10240 + i := rfl
    omega
  delta Chip.perfAdd
  exact .ite (h.addCnt hne n) ((h.addCnt hne n).setReg ..)

theorem Logs.perfBump (ev n : Nat) : Logs c (d.perfBump ev n).1 := by
  have hfold : ∀ (l : List Nat) (a : Chip × Bool), (∀ i ∈ l, i < 32) → Logs c a.1 → Logs c (l.foldl (fun (a : Chip × Bool) i =>
      let w := a.1.reg pPERF (0x180 + 4 * i)
      if w.toNat.testBit 16 ∧ bitsAt w 0 10 = ev then
        (a.1.perfAdd i n, a.2 || decide (2 ^ 48 ≤ (a.1.cntAt (cntKey pPERF i)).toNat + n)) else a) a).1 := by
    intro l
    induction l with
    | nil => exact fun _ _ h => h
    | cons i l ih =>
      refine fun a hl ha => ih _ (fun j hj => hl j (List.mem_cons_of_mem _ hj)) ?_
      dsimp only
      split
      · exact ha.perfAdd (hl i (List.mem_cons_self ..)) n
      · exact ha
  delta Chip.perfBump
  split
  · exact h
  · exact hfold _ _ (fun _ => List.mem_range.1) h

theorem Logs.sendMsix (v : Nat) : Logs c (d.sendMsix v) :=
  h.unless fun h => .ite (h.setReg ..) (((h.perfBump ..).count (by decide)).emit _)

theorem Logs.routeEvent (p : Page) : Logs c (d.routeEvent p) :=
  (h.when fun h => h.sendMsix _).when fun h => h.emit _

theorem Logs.raise (p : Page) (b : Nat) : Logs c (d.raise p b) :=
  .ite ((h.setReg ..).unless fun h => (h.sendMsix _).emit _) ((h.setReg ..).when fun h => h.routeEvent p)

theorem Logs.capture (kind : Nat) (ws : List Word) : Logs c (d.capture kind ws) := by
  delta Chip.capture
  refine h.when fun h => ?_
  extract_lets n ring e
  have g : Logs c e := h.setReg ..
  exact g.same (by rfl) (by rfl)

theorem Logs.postedFail (req : Requester) (addr : Nat) (data : Word) (cause wseq : Nat) : Logs c (d.postedFail req addr data cause wseq) := by
  delta Chip.postedFail
  extract_lets e c₁ c₂
  have h₂ : Logs c c₂ := (((h.same (by rfl) (by rfl)).count (by decide)).raise ..).capture ..
  exact .ite (h₂.same (by rfl) (by rfl)) ((h₂.count (by decide)).raise ..)

theorem Logs.noteUr (addr : Nat) : Logs c (d.noteUr addr) := by
  delta Chip.noteUr
  extract_lets e
  have g : Logs c e := (h.count (by decide)).capture ..
  exact g.same (by rfl) (by rfl)

theorem Logs.logAccess (p : Page) (code : Nat) (req : Requester) (addr : Nat) : Logs c (d.logAccess p code req addr) :=
  Logs.raise (.ite ((h.setReg ..).setReg ..) (h.setReg ..)) ..

theorem Logs.readFails (req : Requester) (addr : Nat) : Logs c (d.readFails req addr) :=
  (h.emit _).when fun h => h.noteUr _

end

theorem Steady.readFails {c d : Chip} (h : Steady c d) (req : Requester) (addr : Nat) : Steady c (d.readFails req addr) :=
  (h.emit _).when fun h => h.noteUr _

/-! ## The record of an access (R40) -/

/-- The first failed access of a page stands in its ERR registers, and ACCESS_ERR is latched. -/
structure Chip.AccessLogged (d : Chip) (p : Page) (code : Nat) (req : Requester) (addr : Nat) : Prop where
  cause : d.reg p 0x034 = BitVec.ofNat 32 (code + 256 * reqCode req)
  address : d.reg p 0x038 = BitVec.ofNat 32 (addr % 2 ^ 24)
  latched : d.latched p E.ACCESS_ERR = true

theorem Chip.logAccess_first {c : Chip} {p : Page} (code : Nat) (req : Requester) (addr : Nat) (hp : pageValid p = true)
    (h : c.get p F.ERR_CAUSE_CODE = 0) : (c.logAccess p code req addr).AccessLogged p code req addr := by
  have hraise : ∀ (d : Chip) {a : Nat}, a < 0x140 → a ≠ 0x018 → (d.raise p E.ACCESS_ERR).reg p a = d.reg p a := fun d a ha hne =>
    d.reg_raise _ hp hp (by omega) (quiet_of_header p ha hne)
  rw [Chip.logAccess, if_pos h]
  refine ⟨?_, ?_, Chip.latched_raise _ hp (by decide)⟩
  · rw [hraise _ (by decide) (by decide), Chip.reg_setReg_off _ _ (by decide), Chip.reg_setReg_same _ _ hp (by decide)]
  · rw [hraise _ (by decide) (by decide), Chip.reg_setReg_same _ _ hp (by decide)]
    rfl

theorem reqCode_lt (req : Requester) : reqCode req < 8 := by
  cases req <;> decide

section
variable {c d : Chip} {p : Page} {code : Nat} {req : Requester} {addr : Nat} (h : c.AccessLogged p code req addr)
include h

/-- What follows a failed access leaves its record. -/
theorem Chip.AccessLogged.steady (hs : Steady c d) : d.AccessLogged p code req addr :=
  ⟨(hs.reg p (by decide) (by decide)).trans h.cause, (hs.reg p (by decide) (by decide)).trans h.address, hs.latched h.latched⟩

theorem Chip.AccessLogged.get_code (hc : code < 16) : c.get p F.ERR_CAUSE_CODE = code := by
  have hreg : c.reg p (F.ERR_CAUSE_CODE.actOff) = BitVec.ofNat 32 (code + 256 * reqCode req) := h.cause
  have hr := reqCode_lt req
  rw [Chip.get, hreg, bitsAt, BitVec.toNat_ofNat]
  simp only [Nat.shiftRight_zero]
  omega

theorem Chip.AccessLogged.get_requester (hc : code < 16) : c.get p F.ERR_CAUSE_REQUESTER = reqCode req := by
  have hreg : c.reg p (F.ERR_CAUSE_REQUESTER.actOff) = BitVec.ofNat 32 (code + 256 * reqCode req) := h.cause
  have hr := reqCode_lt req
  rw [Chip.get, hreg, bitsAt, BitVec.toNat_ofNat, Nat.shiftRight_eq_div_pow]
  change (code + 256 * reqCode req) % 2 ^ 32 / 2 ^ 8 % 2 ^ 4 = reqCode req
  omega

end

/-! ## Addresses -/

theorem pageValid_of_pageOfAddr {a : Nat} {p : Page} (h : pageOfAddr a = some p) : pageValid p = true := by
  have hlow : ∀ n < 0x60, (pageOfNo n).all pageValid = true := by decide
  have hhigh : ∀ n < 0x53, (pageOfNo (0x60 + n)).all pageValid = true := by decide
  have hn : a / 0x1000 < 0xB3 := by
    by_contra hn
    have : pageOfNo (a / 0x1000) = none := by
      unfold pageOfNo
      simp (disch := omega) only [if_neg]
    rw [pageOfAddr, this] at h
    cases h
  have hall : (pageOfNo (a / 0x1000)).all pageValid = true := by
    by_cases hn' : a / 0x1000 < 0x60
    · exact hlow _ hn'
    · have := hhigh (a / 0x1000 - 0x60) (by omega)
      rwa [Nat.add_sub_cancel' (by omega)] at this
  rw [show pageOfNo (a / 0x1000) = some p from h] at hall
  exact hall

theorem pageValid_sizePage (a : Nat) : pageValid (sizePage a) = true := by
  unfold sizePage
  cases h : pageOfAddr (a % 2 ^ 24) with
  | none => rfl
  | some p => exact pageValid_of_pageOfAddr h

section
variable {req : Requester} {a : Nat} (h : a < 2 ^ 24)
include h

theorem barOf_local : barOf req a = 0 := by
  rw [barOf, if_neg (by omega)]

theorem Chip.isLocal_local (c : Chip) : c.isLocal req (a / 2 ^ 24 % 4) = true := by
  rw [Nat.div_eq_of_lt h]
  rfl

end

theorem regKey_ne {p q : Page} {a b : Nat} (hp : pageValid p = true) (hq : pageValid q = true) (ha : a < 0x1000) (hb : b < 0x1000)
    (h : p ≠ q ∨ a ≠ b) : regKey p a ≠ regKey q b := by
  by_cases hpq : p = q
  · subst hpq
    exact regKey_ne_off (h.resolve_left (absurd rfl))
  · exact regKey_ne_page hp hq ha hb hpq

theorem regKey_lt {p : Page} {off : Nat} (hp : pageValid p = true) (ho : off < 0x1000) : regKey p off < 2 ^ 24 := by
  have := pageNo_lt p hp
  unfold regKey pageBase
  omega

theorem regKey_mod (p : Page) {off : Nat} (ho : off < 0x1000) : regKey p off % 0x1000 = off := by
  unfold regKey pageBase
  omega

theorem regKey_mod_four (p : Page) {off : Nat} (h4 : off % 4 = 0) : regKey p off % 4 = 0 := by
  unfold regKey pageBase
  omega

theorem Chip.takes_iff (c : Chip) (req : Requester) : c.takes req = true ↔
    c.dark = false ∧ ¬ (req = .pcie ∧ ¬ c.pciePowered = true) ∧ ¬ (req = .trestle ∧ c.fwHeld = true) := by
  simp only [Chip.takes, Bool.and_eq_true, Bool.not_eq_true', Bool.or_eq_true, decide_eq_true_eq]
  cases c.pciePowered <;> cases c.fwHeld <;> simp [and_assoc]

/-! ## Writes -/

/-- A write of a word at a register of this device is the posted write of its page. -/
theorem Chip.busWrite_reg {c : Chip} (x : Ext) {req : Requester} {p : Page} {off : Nat} (v w : Word) (ht : c.takes req = true)
    (hp : pageValid p = true) (ho : off < 0x1000) (h4 : off % 4 = 0) (hne : off ≠ 0x144) :
    c.busWrite x req (regKey p off) .word v w = (c.posted req p off v fun c => c.writeReg x req p off v, x) := by
  obtain ⟨hdark, hpcie, hfw⟩ := (c.takes_iff req).1 ht
  have hlt := regKey_lt hp ho
  have hmod : regKey p off % 2 ^ 26 = regKey p off := Nat.mod_eq_of_lt (by omega)
  have h4' := regKey_mod_four p h4
  have hlocal : c.localWrite x req (regKey p off) v =
      ((c.postedE req p off v fun c => c.writeReg x req p off v).1, x, (c.postedE req p off v fun c => c.writeReg x req p off v).2) := by
    rw [Chip.localWrite]
    simp only [Nat.mod_eq_of_lt hlt, pageOfAddr_regKey hp ho, regKey_mod p ho]
    rw [if_neg (ne_true_of_eq_false hdark), if_neg (by simpa using h4'), if_neg fun h => hne h.2]
  have hword : c.wordWrite x req (regKey p off) v = (c.posted req p off v fun c => c.writeReg x req p off v, x) := by
    rw [Chip.wordWrite]
    simp only [hlocal, c.isLocal_local hlt, if_true]
    rfl
  rw [Chip.busWrite]
  simp only [barOf_local hlt, hmod, hword]
  rw [if_neg (by simpa [hdark] using hpcie), if_neg hfw, if_neg (by decide), if_neg (by simp [carried, h4'])]
  rfl

theorem regRow_scratch (p : Page) : regRow p 0x03C = some ⟨0x03C, 0, 1, .rw, 0xFFFFFFFF, 0⟩ := rfl

theorem sideOf_scratch (p : Page) (req : Requester) : sideOf p 0x03C req = 0 := by
  rw [sideOf, if_neg (by omega)]
  split <;> rfl

theorem Chip.writePlain_scratch (c : Chip) (req : Requester) (p : Page) (v : Word) : c.writePlain req p 0x03C v = (c.setReg p 0x03C v, 0) := by
  have hfree : lockFreezes p 0x03C = false := rfl
  have hrefuse : c.refuseWrite p 0x03C (lockFreezes p 0x03C) = 0 := by simp [Chip.refuseWrite, hfree, regRow_scratch]
  have hkey : sideKey p 0x03C (sideOf p 0x03C req) = regKey p 0x03C := by
    rw [sideOf_scratch, sideKey, Nat.zero_mul, Nat.add_zero]
  have hmask : BitVec.ofNat 32 0xFFFFFFFF = BitVec.allOnes 32 := rfl
  rw [Chip.writePlain, hrefuse]
  simp only [regRow_scratch, hkey]
  rw [hmask, BitVec.not_allOnes, BitVec.and_zero, BitVec.zero_or, BitVec.and_allOnes, Chip.setReg]

/-- The scratch register of the header takes every bit, locked or not: no page starts anything there. -/
theorem Chip.writeReg_scratch (c : Chip) (x : Ext) (req : Requester) (p : Page) (v : Word) :
    c.writeReg x req p 0x03C v = (c.setReg p 0x03C v, 0) := by
  have hheader : c.writeHeader x req p 0x03C v = none := rfl
  have hpage : c.writePlane req p 0x03C v = none ∧ c.writeHost x req p 0x03C v = none ∧ c.writeSystem x req p 0x03C v = none := by
    obtain ⟨k, n⟩ := p
    cases k <;> exact ⟨rfl, rfl, rfl⟩
  rw [Chip.writeReg, if_pos (by decide), regRow_scratch]
  simp only [hheader, hpage]
  exact c.writePlain_scratch req p v

theorem Chip.writeReg_ro (c : Chip) (x : Ext) (req : Requester) (p : Page) (v : Word) :
    c.writeReg x req p 0x014 v = (c, 2) := rfl

/-- A posted write that its page refuses is logged, and fails for a host. -/
theorem Chip.posted_refused {c : Chip} {req : Requester} {p : Page} {off : Nat} {v : Word} {act : Chip → Chip × Nat} {d : Chip} {e : Nat}
    (ht : c.takes req = true) (hp : pageValid p = true) (ha : act (c.sequenced req) = (d, e + 1)) :
    Steady (d.logAccess p (e + 1) req (regKey p off)) (c.posted req p off v act) := by
  obtain ⟨hdark, hpcie, hfw⟩ := (c.takes_iff req).1 ht
  have h : c.postedE req p off v act = (if isHost req then
      (d.logAccess p (e + 1) req (regKey p off)).postedFail req (regKey p off) v (e + 1) (c.wseqOf req + 1).toNat
      else d.logAccess p (e + 1) req (regKey p off), e + 1) := by
    rw [Chip.postedE, if_neg (ne_true_of_eq_false hdark), if_neg hpcie, if_neg hfw, if_neg (by simp [hp])]
    simp only
    change (match act (c.sequenced req) with | (c', 0) => (c', 0) | (c', e) => _) = _
    rw [ha]
    rfl
  rw [Chip.posted, h]
  exact (Steady.refl _).when fun h => h.postedFail ..

/-! ## Accesses that nothing takes, and of a wrong size (R34, R253) -/

/-- An access to no page is logged in SYS and ends in a bus error. -/
theorem Chip.unimplAccess_logged {c : Chip} (req : Requester) (addr : Nat) (write : Bool) (v : Word)
    (h : c.get pSYS F.ERR_CAUSE_CODE = 0) : let d := c.unimplAccess req addr write v
    .busError req addr ∈ d.outs ∧ d.AccessLogged pSYS errUnimpl req addr := by
  delta Chip.unimplAccess
  extract_lets n w c₁ c₂ d
  have hget : c₁.get pSYS F.ERR_CAUSE_CODE = 0 := by
    simp only [c₁]
    split
    · exact h
    · exact h
  have hlog : c₂.AccessLogged pSYS errUnimpl req addr := (Chip.logAccess_first errUnimpl req addr rfl hget).steady ((Steady.refl _).emit _)
  have hout : .busError req addr ∈ c₂.outs := List.mem_append_right _ (List.mem_singleton_self _)
  have hsteady : Steady c₂ d := .ite ((Steady.refl _).postedFail ..) ((Steady.refl _).when fun h => h.noteUr _)
  have hlogs : Logs c₂ d := .ite ((Logs.refl _).postedFail ..) ((Logs.refl _).when fun h => h.noteUr _)
  exact ⟨hlogs.outs _ hout, hlog.steady hsteady⟩

theorem Chip.cntAt_count_same (c : Chip) (p : Page) (i : Nat) : (c.count p i).cntAt (cntKey p i) = c.cntAt (cntKey p i) + 1 :=
  lookupD_store_same ..

/-- A write of a wrong size or alignment is counted and logged. -/
theorem Chip.badSize_logged {c : Chip} (req : Requester) {p : Page} (addr : Nat) (v : Word) (hp : pageValid p = true)
    (h : c.get p F.ERR_CAUSE_CODE = 0) : let d := c.badSize req p addr v
    d.get p F.ERR_CAUSE_CODE = 6 ∧ d.cntAt badKey = c.cntAt badKey + 1 := by
  intro d
  have hget : ((c.sequenced req).count pHOST K.HOST_BAD_ACCESS).get p F.ERR_CAUSE_CODE = 0 := by simpa using h
  have hsteady : Steady (((c.sequenced req).count pHOST K.HOST_BAD_ACCESS).logAccess p errBusSize req addr) d :=
    (Steady.refl _).when fun h => h.postedFail ..
  have hlogs : Logs ((c.sequenced req).count pHOST K.HOST_BAD_ACCESS) d :=
    ((Logs.refl _).logAccess ..).when fun h => h.postedFail ..
  refine ⟨((Chip.logAccess_first errBusSize req addr hp hget).steady hsteady).get_code (by decide), hlogs.bad.trans ?_⟩
  rw [badKey, Chip.cntAt_count_same, Chip.cntAt, Chip.cnt_sequenced, Chip.cntAt]

/-- So is a read. -/
theorem Chip.badRead_logged {c : Chip} (req : Requester) {p : Page} (addr : Nat) (hp : pageValid p = true)
    (h : c.get p F.ERR_CAUSE_CODE = 0) : let d := c.badRead req p addr
    d.get p F.ERR_CAUSE_CODE = 6 ∧ d.cntAt badKey = c.cntAt badKey + 1 := by
  have hget : (c.count pHOST K.HOST_BAD_ACCESS).get p F.ERR_CAUSE_CODE = 0 := by simpa using h
  have hlogs : Logs (c.count pHOST K.HOST_BAD_ACCESS) (c.badRead req p addr) := ((Logs.refl _).logAccess ..).readFails ..
  have hlogged := (Chip.logAccess_first errBusSize req addr hp hget).steady ((Steady.refl _).readFails req addr)
  exact ⟨hlogged.get_code (by decide), hlogs.bad.trans (Chip.cntAt_count_same ..)⟩

/-! ## Reads and writes by address -/

section
variable {c : Chip} {req : Requester} {addr : Nat} (ht : c.takes req = true) (hlt : addr < 2 ^ 24)
include ht hlt

theorem Chip.busRead_aligned (h4 : addr % 4 = 0) : c.busRead req addr .word = c.wordRead req addr := by
  obtain ⟨hdark, hpcie, -⟩ := (c.takes_iff req).1 ht
  have hmod : addr % 2 ^ 26 = addr := Nat.mod_eq_of_lt (by omega)
  rw [Chip.busRead]
  simp only [barOf_local hlt, hmod]
  rw [if_neg (by simpa [hdark] using hpcie), if_neg (by decide), if_neg (by simp [carried, h4])]
  rfl

theorem Chip.busRead_misaligned (h4 : addr % 4 ≠ 0) : c.busRead req addr .word = c.badRead req (sizePage addr) addr := by
  obtain ⟨hdark, hpcie, -⟩ := (c.takes_iff req).1 ht
  have hmod : addr % 2 ^ 26 = addr := Nat.mod_eq_of_lt (by omega)
  have hlocal : c.isLocal req (addr / 2 ^ 24) = true := by
    rw [Nat.div_eq_of_lt hlt]
    rfl
  rw [Chip.busRead]
  simp only [barOf_local hlt, hmod]
  rw [if_neg (by simpa [hdark] using hpcie), if_neg (by decide), if_pos (by simp [carried, h4]), if_neg (by decide), if_pos trivial, if_pos hlocal]

theorem Chip.unimplPage_none (h4 : addr % 4 = 0) (hnone : pageOfAddr addr = none) (write : Bool) :
    c.unimplPage req addr write .word = c.unimplAccess req addr write 0 := by
  obtain ⟨hdark, hpcie, -⟩ := (c.takes_iff req).1 ht
  have hmod : addr % 2 ^ 24 = addr := Nat.mod_eq_of_lt hlt
  cases write
  · have hlocal := c.isLocal_local (req := req) hlt
    rw [Chip.unimplPage, if_pos (by decide), Chip.busRead_aligned ht hlt h4, Chip.wordRead]
    simp only [hmod, hlocal, hnone]
    rfl
  · rw [Chip.unimplPage, if_neg (by decide)]
    simp only [hmod]
    rw [if_neg (ne_true_of_eq_false hdark), if_neg (by simpa [hnone] using hpcie), if_pos (by simp [carried, h4])]

theorem Chip.unimplPage_misaligned (h4 : addr % 4 ≠ 0) {write : Bool} (hw : write = true → pageOfAddr addr = none)
    (hcause : c.get (sizePage addr) F.ERR_CAUSE_CODE = 0) : let d := c.unimplPage req addr write .word
    d.get (sizePage addr) F.ERR_CAUSE_CODE = 6 ∧ d.cntAt badKey = c.cntAt badKey + 1 := by
  obtain ⟨hdark, hpcie, -⟩ := (c.takes_iff req).1 ht
  have hmod : addr % 2 ^ 24 = addr := Nat.mod_eq_of_lt hlt
  cases write
  · rw [Chip.unimplPage, if_pos (by decide), Chip.busRead_misaligned ht hlt h4]
    exact Chip.badRead_logged req addr (pageValid_sizePage addr) hcause
  · have hnone := hw rfl
    have hsys : sizePage addr = pSYS := by rw [sizePage, hmod, hnone]; rfl
    rw [hsys] at hcause ⊢
    have : c.unimplPage req addr true .word = c.badSize req pSYS addr 0 := by
      rw [Chip.unimplPage, if_neg (by decide)]
      simp only [hmod]
      rw [if_neg (ne_true_of_eq_false hdark), if_neg (by simpa [hnone] using hpcie), if_neg (by simp [carried, h4])]
    rw [this]
    exact Chip.badSize_logged req addr 0 rfl hcause

end

/-- A read of a register answers its value. -/
theorem Chip.unimplPage_read {c : Chip} {req : Requester} {p : Page} {off : Nat} (ht : c.takes req = true) (hp : pageValid p = true)
    (ho : off < 0x1000) (h4 : off % 4 = 0) (hfence : p = pHOST → off ≠ 0x148) :
    c.unimplPage req (regKey p off) false .word = c.emit (.readData req (regKey p off) (c.read req p off)) := by
  have hlt := regKey_lt hp ho
  have hmod : regKey p off % 2 ^ 24 = regKey p off := Nat.mod_eq_of_lt hlt
  have h4' := regKey_mod_four p h4
  rw [Chip.unimplPage, if_pos (by decide), Chip.busRead_aligned ht hlt h4', Chip.wordRead]
  simp only [hmod, c.isLocal_local (req := req) hlt, pageOfAddr_regKey hp ho, regKey_mod p ho]
  rw [if_neg (by decide), if_neg fun h => hfence h.1 h.2]

/-- Settles O4: the header commands, and reads and writes by address. -/
theorem registerAccesses : Obligations.RegisterAccesses := by
  refine ⟨?_, ?_⟩
  · intro s dt req p en v c hp ht
    refine ⟨fun hs => .of_run rfl ?_, fun hv => .of_run rfl ?_, fun hv => .of_run rfl ?_, fun hl => .of_run rfl ?_,
      fun hl hr => .of_run rfl ?_⟩
    case refine_1 =>
      rw [Chip.posted_ok _ ht hp (Chip.writeLock_locks (by simpa using hs))]
      exact ⟨Chip.locked_put _ hp, fun a ha hne => (Chip.reg_setReg_off _ _ hne).trans (Chip.reg_sequenced ..)⟩
    case refine_2 =>
      rw [Chip.command_ok _ ht hp, Chip.raw_clearEvents _ _ hp, Chip.reg_sequenced]
    case refine_3 =>
      rw [Chip.command_ok _ ht hp, Chip.raw_clearEvents _ _ hp, Chip.reg_sequenced]
      exact ⟨rfl, Chip.cause_clearEvents _ _ hp hv⟩
    case refine_4 =>
      rw [Chip.posted_ok _ ht hp (Chip.writeCtrl_enable _ _ en (by simpa using hl))]
      exact ⟨_, _, rfl, Chip.enabled_put _ en hp, fun a ha hne => (Chip.reg_setReg_off _ _ hne).trans (Chip.reg_sequenced ..)⟩
    case refine_5 =>
      rw [Chip.posted_ok _ ht hp (Chip.writeCtrl_reset _ _ en (by simpa using hl) hr)]
      obtain ⟨hen, hstate, hepoch⟩ := (c.sequenced req).enTo_header en hp
      obtain ⟨hlatched, hpage, hflip, habort, hen'⟩ := ((c.sequenced req).enTo p en).flushed_after_abort hp
      refine ⟨_, rfl, hlatched, hpage, hflip.trans ?_, fun h => habort ?_, hen'.trans hen⟩
      · rw [hepoch, Chip.pageEpoch, Chip.xings_sequenced, Chip.pageEpoch]
      · rwa [hstate, Chip.commitState_sequenced]
  · intro s dt req p addr v w c ht
    refine ⟨fun hp => .of_runExt rfl ?_, fun hp hc => .of_runExt rfl ?_, fun hlt h4 hnone hc b => .of_run rfl ?_,
      fun hp ho h4 hf => .of_run rfl (Chip.unimplPage_read ht hp ho h4 hf), fun hlt h4 hc b hb => .of_run rfl ?_⟩
    case refine_1 =>
      rw [Chip.busWrite_reg _ _ _ ht hp (by decide) (by decide) (by decide), Chip.posted_ok _ ht hp (Chip.writeReg_scratch ..)]
      refine ⟨rfl, Chip.reg_setReg_same _ _ hp (by decide), fun q a hq ha hne => ?_⟩
      rw [Chip.reg_setReg _ _ hq ha, if_neg (regKey_ne hq hp ha (by decide) hne), Chip.reg_sequenced]
    case refine_2 =>
      rw [Chip.busWrite_reg _ _ _ ht hp (by decide) (by decide) (by decide)]
      have hfirst : (c.sequenced req).get p F.ERR_CAUSE_CODE = 0 := by simpa using hc
      have hlog := (Chip.logAccess_first 2 req (regKey p 0x014) hp hfirst).steady
        (Chip.posted_refused (v := v) (act := fun c => c.writeReg s.ext req p 0x014 v) (e := 1) ht hp
          (Chip.writeReg_ro (c.sequenced req) s.ext req p v))
      refine ⟨rfl, hlog.get_code (by decide), hlog.get_requester (by decide), ?_, hlog.latched⟩
      rw [hlog.address, Nat.mod_eq_of_lt (regKey_lt hp (by decide))]
    case refine_3 =>
      rw [Chip.unimplPage_none ht hlt h4 hnone]
      obtain ⟨hout, hlog⟩ := Chip.unimplAccess_logged req addr b 0 hc
      refine ⟨hout, hlog.get_code (by decide), ?_, hlog.latched⟩
      rw [hlog.address, Nat.mod_eq_of_lt hlt]
    case refine_4 =>
      refine Chip.unimplPage_misaligned ht hlt h4 hb (hc _ ?_)
      rw [sizePage, Nat.mod_eq_of_lt hlt]
      cases pageOfAddr addr with
      | none => exact .inl rfl
      | some q => exact .inr rfl

end Sys2Proof.Machine

/-! What traffic can do (R12 to R19, R62): frames on their way and the end of a reception change records of frames, count, latch events, and
wake sleeping ports. One lemma per operation says that it is made of such steps; what the steps leave alone, traffic leaves alone. -/

namespace Sys2Proof.Machine

open Sys2Proof

/-! ## The steps -/

/-- `d` with the records of frames on their way, counters, outputs and free values as in `c`. -/
def Chip.withTraffic (d c : Chip) : Chip :=
  { d with
    free := c.free, outs := c.outs, cnt := c.cnt, ports := c.ports, queues := c.queues, seqs := c.seqs, tx := c.tx, preempted := c.preempted
    rx := c.rx, rels := c.rels, bypass := c.bypass, partials := c.partials, comps := c.comps, members := c.members, holds := c.holds
    safeFrames := c.safeFrames, policers := c.policers, tWait := c.tWait, tOwed := c.tOwed, spillCredit := c.spillCredit
    spillAt := c.spillAt, rxDma := c.rxDma, rxHeld := c.rxHeld }

/-- What traffic can make of `c`, in steps: other records, an event of a page of the map, a performance event, a wake of a port that has
TC10. -/
inductive Traffic (c : Chip) : Chip → Prop where
  | refl : Traffic c c
  | record {d e : Chip} (h : Traffic c d) (same : e.withTraffic d = d) : Traffic c e
  | raise {d : Chip} (h : Traffic c d) {p : Page} (b : Nat) (hp : pageValid p = true) : Traffic c (d.raise p b)
  | perf {d : Chip} (h : Traffic c d) (ev n : Nat) : Traffic c (d.perf ev n)
  | wakePort {d : Chip} (h : Traffic c d) {n : Nat} (hn : hasTc10 n = true) : Traffic c (d.wakePort n)

/-! The lemmas below carry the steps through one operation: the chain `h.op₁.op₂` reads as the program does. -/

section
variable {c d e : Chip} {Q : Prop} [Decidable Q]

theorem Traffic.ite (hd : Traffic c d) (he : Traffic c e) : Traffic c (if Q then d else e) := by
  split
  · exact hd
  · exact he

theorem Traffic.when (h : Traffic c d) (g : Traffic c d → Traffic c e) : Traffic c (if Q then e else d) := .ite (g h) h

theorem Traffic.unless (h : Traffic c d) (g : Traffic c d → Traffic c e) : Traffic c (if Q then d else e) := .ite h (g h)

end

section
variable {c d : Chip} (h : Traffic c d)
include h

theorem Traffic.foldl {α : Type} {f : Chip → α → Chip} (hf : ∀ d a, Traffic c d → Traffic c (f d a)) (l : List α) : Traffic c (l.foldl f d) := by
  induction l generalizing d with
  | nil => exact h
  | cons a l ih => exact ih (hf d a h)

/-! ## Records, counts, outputs -/

theorem Traffic.emit (o : Output) : Traffic c (d.emit o) := h.record (by rfl)

theorem Traffic.addCnt (p : Page) (i n : Nat) : Traffic c (d.addCnt p i n) := h.record (by rfl)

theorem Traffic.count (p : Page) (i : Nat) : Traffic c (d.count p i) := h.record (by rfl)

theorem Traffic.addTCnt (p : Page) (t i k n : Nat) : Traffic c (d.addTCnt p t i k n) := h.record (by rfl)

theorem Traffic.tcount (p : Page) (t i k : Nat) : Traffic c (d.tcount p t i k) := h.record (by rfl)

theorem Traffic.setQueue (q : Nat) (x : Queue) : Traffic c (d.setQueue q x) := h.record (by rfl)

theorem Traffic.setTx (n : Nat) (x : Option Copy) : Traffic c (d.setTx n x) := h.record (by rfl)

theorem Traffic.setRx (n : Nat) (f : Option Frame) : Traffic c (d.setRx n f) := h.record (by rfl)

theorem Traffic.dropPre (k : Copy) : Traffic c (d.dropPre k) := h.record (by rfl)

theorem Traffic.takeSeq (i q : Nat) : Traffic c (d.takeSeq i q).2 := h.record (by rfl)

theorem Traffic.setComp (i : Nat) (x : CompRt) : Traffic c (d.setComp i x) := h.record (by rfl)

theorem Traffic.setMember (i : Nat) (x : MemRt) : Traffic c (d.setMember i x) := h.record (by rfl)

theorem Traffic.setPolicer (i : Nat) (x : PolRt) : Traffic c (d.setPolicer i x) := h.record (by rfl)

/-! ## Flushed queues -/

theorem Traffic.portCount (n k : Nat) : Traffic c (d.portCount n k) := h.when fun h => h.count ..

theorem Traffic.numberLost (k : Copy) : Traffic c (d.numberLost k) := h.unless fun h => h.setQueue ..

theorem Traffic.countWindowLost (n : Nat) : Traffic c (d.countWindowLost n) :=
  h.foldl (fun _ _ h => h.unless fun h => (h.addCnt ..).addTCnt ..) _

theorem Traffic.settleCredit : Traffic c d.settleCredit := (h.record (by rfl)).foldl (fun _ _ h => h.emit _) _

theorem Traffic.flushQueues (n : Nat) : Traffic c (d.flushQueues n) := by
  delta Chip.flushQueues
  extract_lets mine lost c₁ c₂ c₃
  have h₁ : Traffic c c₁ := h.record (by rfl)
  have h₃ : Traffic c c₃ := (h₁.settleCredit.countWindowLost n).when fun h => h.addCnt ..
  exact h₃.record (by rfl)

theorem Traffic.flushPort (n : Nat) : Traffic c (d.flushPort n) := by
  delta Chip.flushPort
  extract_lets c₁ c₂ safe mine kept c₃ c₄
  have h₁ : Traffic c c₁ := h.when fun h => (h.portCount ..).setTx ..
  have h₂ : Traffic c c₂ := h₁.foldl (fun _ _ h => (h.portCount ..).dropPre _) _
  have h₃ : Traffic c c₃ := h₂.record (by rfl)
  have h₄ : Traffic c c₄ := h₃.when fun h => h.addCnt ..
  exact h₄.flushQueues n

/-! ## Copies refused -/

theorem Traffic.partialDelivery (k : Copy) : Traffic c (d.partialDelivery k) := by
  delta Chip.partialDelivery
  refine h.unless fun h => ?_
  extract_lets live
  have g := h.portCount k.ingress K.PORT_PARTIAL_DELIVERY
  exact g.record (by rfl)

theorem Traffic.refuseCopy (k : Copy) : Traffic c (d.refuseCopy k) := h.when fun h => (h.portCount ..).partialDelivery k

theorem Traffic.refuseLinkDown (k : Copy) : Traffic c (d.refuseLinkDown k) := (h.portCount ..).partialDelivery k

theorem Traffic.dtDrop (k : Copy) : Traffic c (d.dtDrop k) := ((h.count ..).tcount ..).refuseCopy k

/-! ## Copies that enter their queues -/

theorem Traffic.enqueue (k : Copy) : Traffic c (d.enqueue k) :=
  ((((h.takeSeq k.ingress (qIndex k.egress k.cls)).perf ..).perf ..).setQueue ..).tcount ..

theorem Traffic.drainWrites (n : Nat) : Traffic c (Chip.drainWrites n d) := by
  induction n generalizing d with
  | zero => exact h
  | succ n ih =>
    unfold Chip.drainWrites
    refine h.unless fun h => ?_
    split
    · exact ih (h.setQueue ..)
    · exact h

theorem Traffic.spillCopy (k : Copy) : Traffic c (d.spillCopy k).1 := by
  delta Chip.spillCopy
  extract_lets q n c₁ c₂ c₃ c₄
  have h₁ : Traffic c c₁ := h.record (by rfl)
  have h₂ : Traffic c c₂ := h₁.record (by rfl)
  have h₄ : Traffic c c₄ := ((h₂.count ..).addCnt ..).enqueue _
  split
  · split
    · exact ((h.count ..).raise _ rfl).dtDrop k
    · split
      · exact (h₁.count ..).dtDrop k
      · exact (h₄.drainWrites _).tcount ..
  · split
    · exact (h.count ..).dtDrop k
    · exact h.dtDrop k

theorem Traffic.beyondHfrc : Traffic c d.beyondHfrc.2 := by
  delta Chip.beyondHfrc
  split
  · exact h.record (by rfl)
  · exact h

theorem Traffic.letIn (k : Copy) : Traffic c (d.letIn k).1 := by
  have g := h.beyondHfrc
  delta Chip.letIn
  generalize d.beyondHfrc = r at g ⊢
  obtain ⟨late, e⟩ := r
  dsimp only at g ⊢
  split
  · split
    · exact g.enqueue k
    · exact ((g.count ..).tcount ..).refuseCopy k
  · split
    · exact g.enqueue k
    · split
      · exact g.dtDrop k
      · exact g.spillCopy k

theorem Traffic.wakeOnTx (n : Nat) : Traffic c (d.wakeOnTx n) := by
  unfold Chip.wakeOnTx
  split
  next hw =>
    simp only [Bool.and_eq_true] at hw
    obtain ⟨⟨htc, -⟩, -⟩ := hw
    exact (h.emit _).wakePort htc
  next => exact h

theorem Traffic.place (k : Copy) : Traffic c (d.place k).1 := by
  delta Chip.place
  split
  · exact (h.refuseLinkDown k).wakeOnTx _
  · split
    · split
      · exact h.count ..
      · exact h.record (by rfl)
    · split
      · exact h.record (by rfl)
      · exact h.letIn k

theorem Traffic.stage6 (f : Frame) : Traffic c (d.stage6 f) := by
  delta Chip.stage6
  exact .ite (h.unless fun h => h.count ..) ((h.when fun h => h.count ..).foldl (fun _ _ h => h.place _) _)

/-! ## Members and compound streams -/

theorem Traffic.failMember (m cause : Nat) : Traffic c (d.failMember m cause) :=
  ((h.setMember ..).tcount ..).unless fun h => (h.count ..).raise _ rfl

theorem Traffic.goodMember (m : Nat) : Traffic c (d.goodMember m) := by
  have g := h.tcount pFRER 3 m msGood
  delta Chip.goodMember
  exact .ite (g.setMember ..) (.ite (g.setMember ..) (g.setMember ..))

theorem Traffic.rogueMember (m limit : Nat) : Traffic c (d.rogueMember m limit) :=
  (h.setMember ..).when fun h => h.failMember ..

theorem Traffic.generate (f : Frame) (r : FrerRule) : Traffic c (d.generate f r).1 := by
  delta Chip.generate
  split
  · split
    · exact h.setComp ..
    · exact h
  · exact h

theorem Traffic.indAccept (m s : Nat) (r : FrerRule) : Traffic c (d.indAccept m s r) := by
  delta Chip.indAccept
  split
  · exact h.setMember ..
  · exact h

theorem Traffic.goodFrom (m : Option Nat) (s : Nat) (r : FrerRule) : Traffic c (d.goodFrom m s r) := by
  delta Chip.goodFrom
  split
  · exact (h.indAccept ..).goodMember _
  · exact h

theorem Traffic.acceptNumber (i s : Nat) (r : FrerRule) : Traffic c (d.acceptNumber i s r) :=
  ((((h.setComp ..).unless fun h => (h.addTCnt ..).addCnt ..).when fun h => h.tcount ..).perf ..).tcount ..

theorem Traffic.countDuplicate (i : Nat) : Traffic c (d.countDuplicate i) := (((h.setComp ..).perf ..).tcount ..).count ..

theorem Traffic.dropHeld (i s : Nat) : Traffic c (d.dropHeld i s) := by
  delta Chip.dropHeld
  extract_lets mine e
  have g : Traffic c e := h.record (by rfl)
  exact g.foldl (fun _ _ h => h.countDuplicate i) _

theorem Traffic.accepted (i s : Nat) (f : Frame) : Traffic c (d.accepted i s f) := by
  have g : Traffic c (d.unpend i s) := h.setComp ..
  exact (g.acceptNumber ..).dropHeld ..

theorem Traffic.releaseHeld (i s : Nat) : Traffic c (d.releaseHeld i s).1 := by
  delta Chip.releaseHeld
  extract_lets c₁
  have h₁ : Traffic c c₁ := h.setComp ..
  split
  · exact h₁
  next x _ =>
    extract_lets c₂ c₃ c₄ c₅
    have h₂ : Traffic c c₂ := h₁.record (by rfl)
    have h₃ : Traffic c c₃ := (h₂.count ..).tcount ..
    split
    · exact (h₃.accepted ..).generate ..
    · exact h₃.setComp ..

theorem Traffic.holdWhole (f : Frame) : Traffic c (d.holdWhole f) := by
  delta Chip.holdWhole
  extract_lets others
  have g : Traffic c { d with holds := others } := h.record (by rfl)
  exact .ite ((g.count ..).raise _ rfl) (h.record (by rfl))

theorem Traffic.frerEnd (f : Frame) (good : Bool) : Traffic c (d.frerEnd f good).1 := by
  delta Chip.frerEnd
  split
  next i s _ _ =>
    have hgood : Traffic c (d.goodFrom f.member s f.rule) := h.goodFrom ..
    extract_lets held isPending c₁
    have hacc : Traffic c c₁ := hgood.accepted i s f
    split
    · split
      · split
        · exact hacc.generate ..
        · exact hacc
      · exact h.releaseHeld ..
    · split
      · split
        · exact hgood.holdWhole f
        · exact h.record (by rfl)
      · split
        · cases f.verdict with
          | duplicate => exact hgood.countDuplicate i
          | rogue =>
            cases f.member with
            | none => exact h
            | some m => exact (((h.indAccept ..).tcount ..).count ..).rogueMember ..
          | individual =>
            cases f.member with
            | none => exact h
            | some m => exact h.tcount ..
          | held | pass | dropped => exact hgood
          | pending => exact h
        · exact h
  · exact h

/-! ## The end of a reception -/

theorem Traffic.bridleRest (rules : List Nat) (pols : List (Nat × Bool)) (n : Nat) : Traffic c (d.bridleRest rules pols n) :=
  (h.foldl (fun _ _ h => h.addTCnt ..) rules).foldl (fun _ _ h => h.when fun h => h.setPolicer ..) _

theorem Traffic.countRest (f : Frame) (size : Nat) : Traffic c (d.countRest f size) := (h.bridleRest ..).foldl (fun _ _ h => h.bridleRest ..) _

theorem Traffic.withdraw (fid : Nat) : Traffic c (d.withdraw fid) := by
  delta Chip.withdraw
  extract_lets mine e
  have g : Traffic c e := h.record (by rfl)
  refine g.foldl (fun d x h => ?_) _
  split
  · exact h
  · exact (h.setQueue ..).foldl (fun _ _ h => h.numberLost _) _

theorem Traffic.tailBad (f : Frame) (size : Nat) : Traffic c (d.tailBad f size) := by
  delta Chip.tailBad
  extract_lets c₁ c₂
  have h₁ : Traffic c c₁ := (h.countRest f size).withdraw f.fid
  have h₂ : Traffic c c₂ := h₁.record (by rfl)
  have g := h₂.frerEnd f false
  generalize c₂.frerEnd f false = r at g ⊢
  exact g.foldl (fun _ _ h => h.stage6 _) _

theorem Traffic.rxAbandon (n : Nat) : Traffic c (d.rxAbandon n) := by
  delta Chip.rxAbandon
  split
  · exact ((h.setRx ..).portCount ..).when fun h => h.tailBad ..
  · exact h

end

end Sys2Proof.Machine

/-! The link states of the ports (R62): what entering a state leaves in LINK_STATUS, and what of the port pages traffic leaves alone. -/

namespace Sys2Proof.Machine

open Sys2Proof

/-! ## Pages and fields of a port -/

theorem pageValid_pPORT {n : Nat} (h : n < 28) : pageValid (pPORT n) = true := by
  simp only [pageValid, decide_eq_true_eq]
  omega

/-- The ports that have a PHY page (R33). -/
theorem lt_of_pageValid_pPHY {n : Nat} (h : pageValid (pPHY n) = true) : n < 28 := by
  simp only [pageValid, Bool.or_eq_true, Bool.and_eq_true, decide_eq_true_eq] at h
  omega

theorem get_congr {c d : Chip} (h : d.regs = c.regs) (p : Page) (f : Fld) : d.get p f = c.get p f := by
  rw [Chip.get, reg_congr h, Chip.get]

@[simp] theorem Chip.get_emit (c : Chip) (o : Output) (p : Page) (f : Fld) : (c.emit o).get p f = c.get p f := rfl

@[simp] theorem Chip.get_setPortRt (c : Chip) (n : Nat) (x : PortRt) (p : Page) (f : Fld) : (c.setPortRt n x).get p f = c.get p f := rfl

/-- A field that an event of any page leaves alone. -/
def Fld.quietOn (f : Fld) (p : Page) : Bool := f.fits && quiet p f.actOff

theorem Chip.get_raise {c : Chip} {p q : Page} {f : Fld} (b : Nat) (hp : pageValid p = true) (hq : pageValid q = true)
    (h : f.quietOn p = true) : (c.raise q b).get p f = c.get p f := by
  simp only [Fld.quietOn, Bool.and_eq_true] at h
  exact (Loud.raise c b hq).get hp h.1 h.2

/-! ## What a port keeps: settings, warm records, the links of awake ports -/

/-- The offsets at which traffic and links change no page: `PHY.TEST_MODE`, and every active copy of a staged register. -/
def settingOff (a : Nat) : Bool := decide (a = 0x15C ∨ 0x800 ≤ a ∧ a < 0x1000)

/-- From `c` to `d` settings and warm records stand, and the LINK_STATUS of every port that does not sleep, but for the ports of `P`. -/
structure Undisturbed (P : Nat → Prop) (c d : Chip) : Prop where
  warm : d.warm = c.warm
  settings : ∀ p a, pageValid p = true → settingOff a = true → d.reg p a = c.reg p a
  links : ∀ n < 28, ¬ P n → c.linkState n ≠ lsSleep → d.reg (pPORT n) 0x150 = c.reg (pPORT n) 0x150

theorem linkState_congr {c d : Chip} {n : Nat} (h : d.reg (pPORT n) 0x150 = c.reg (pPORT n) 0x150) : d.linkState n = c.linkState n := by
  simp only [Chip.linkState, Chip.get, Fld.actOff, Bool.false_eq_true, if_false, h]

section
variable {P : Nat → Prop} {c d e : Chip}

theorem Undisturbed.refl (c : Chip) : Undisturbed P c c := ⟨rfl, fun _ _ _ _ => rfl, fun _ _ _ _ => rfl⟩

theorem Undisturbed.linkState (h : Undisturbed P c d) {n : Nat} (hn : n < 28) (hP : ¬ P n) (hs : c.linkState n ≠ lsSleep) :
    d.linkState n = c.linkState n := linkState_congr (h.links n hn hP hs)

theorem Undisturbed.trans (h : Undisturbed P c d) (g : Undisturbed P d e) : Undisturbed P c e where
  warm := g.warm.trans h.warm
  settings p a hp ha := (g.settings p a hp ha).trans (h.settings p a hp ha)
  links n hn hP hs := (g.links n hn hP (by rwa [h.linkState hn hP hs])).trans (h.links n hn hP hs)

/-- What moves one sleeping port disturbs no other. -/
theorem Undisturbed.wakes {n : Nat} (h : Undisturbed P c d) (hs : d.linkState n = lsSleep) (g : Undisturbed (fun m => m = n) d e) :
    Undisturbed P c e where
  warm := g.warm.trans h.warm
  settings p a hp ha := (g.settings p a hp ha).trans (h.settings p a hp ha)
  links m hm hP hsm := by
    have hst := h.linkState hm hP hsm
    have hmn : m ≠ n := by
      rintro rfl
      exact hsm (hst.symm.trans hs)
    exact (g.links m hm hmn (by rwa [hst])).trans (h.links m hm hP hsm)

theorem Undisturbed.when {Q : Prop} [Decidable Q] (h : Undisturbed P c d) (g : Undisturbed P c d → Undisturbed P c e) :
    Undisturbed P c (if Q then e else d) := by
  split
  · exact g h
  · exact h

theorem Undisturbed.get (h : Undisturbed P c d) {p : Page} {f : Fld} (hp : pageValid p = true) (hf : settingOff f.actOff = true) :
    d.get p f = c.get p f := by
  rw [Chip.get, h.settings p _ hp hf, Chip.get]

theorem Undisturbed.is (h : Undisturbed P c d) {p : Page} {f : Fld} (hp : pageValid p = true) (hf : settingOff f.actOff = true) :
    d.is p f = c.is p f := by
  rw [Chip.is, h.get hp hf, Chip.is]

/-! The chain `h.op₁.op₂` reads as the program does. -/

theorem Undisturbed.same (h : Undisturbed P c d) (hr : e.regs = d.regs) (hw : e.warm = d.warm) : Undisturbed P c e :=
  h.trans ⟨hw, fun p a _ _ => reg_congr hr p a, fun _ _ _ _ => reg_congr hr _ _⟩

theorem quiet_of_settingOff {p : Page} {a : Nat} (h : settingOff a = true) : quiet p a = true := by
  have : a ≠ 0x018 ∧ a ≠ 0x380 ∧ a ≠ 0x384 ∧ a ≠ 0x148 := by
    simp only [settingOff, decide_eq_true_eq] at h
    omega
  simp [quiet, still, this]

theorem Undisturbed.loud (h : Undisturbed P c d) (g : Loud d e) : Undisturbed P c e := by
  obtain ⟨⟨r, n, o, rfl⟩, hregs⟩ := g
  refine h.trans ⟨Chip.warm_noise .., fun p a hp ha => hregs p a hp ?_ (quiet_of_settingOff ha), fun n hn _ _ => ?_⟩
  · simp only [settingOff, decide_eq_true_eq] at ha
    omega
  · exact hregs _ _ (pageValid_pPORT hn) (by decide) rfl

variable (h : Undisturbed P c d)
include h

theorem Undisturbed.emit (o : Output) : Undisturbed P c (d.emit o) := h.same (by rfl) (by rfl)

theorem Undisturbed.count (p : Page) (i : Nat) : Undisturbed P c (d.count p i) := h.same (by rfl) (by rfl)

theorem Undisturbed.setPortRt (n : Nat) (x : PortRt) : Undisturbed P c (d.setPortRt n x) := h.same (by rfl) (by rfl)

theorem Undisturbed.raise {p : Page} (b : Nat) (hp : pageValid p = true) : Undisturbed P c (d.raise p b) := h.loud (Loud.raise d b hp)

/-- A put outside the settings, and outside the LINK_STATUS of the ports whose links stand. -/
theorem Undisturbed.put {p : Page} {f : Fld} (v : Nat) (hp : pageValid p = true) (ho : f.off < 0x800) (hne : f.off ≠ 0x15C)
    (hl : f.off = 0x150 → ∃ n, P n ∧ p = pPORT n) : Undisturbed P c (d.put p f v) := by
  have hput : ∀ q a, pageValid q = true → a < 0x1000 → (q = p → a ≠ f.off) → (d.put p f v).reg q a = d.reg q a := by
    intro q a hq ha hpa
    by_cases e : q = p
    · exact e ▸ d.reg_setReg_off _ (hpa e)
    · exact d.reg_setReg_page _ hq hp ha (by omega) e
  refine h.trans ⟨Chip.warm_setRegAt .., fun q a hq ha => ?_, fun n hn hP _ => ?_⟩
  · simp only [settingOff, decide_eq_true_eq] at ha
    exact hput q a hq (by omega) fun _ => by omega
  · refine hput _ _ (pageValid_pPORT hn) (by decide) fun e he => ?_
    obtain ⟨m, hm, rfl⟩ := hl he.symm
    exact hP (by injection e with _ e; exact e ▸ hm)

end

/-! ## Entering a state (R62) -/

/-- A port leaves its state for `st`: the end of a diagnosis, LINK_DOWN. -/
def Chip.linkLeft (c : Chip) (n st : Nat) : Chip :=
  let c := if st = lsSearch then c else c.endDiag n
  if c.linkState n = lsUp then (c.count (pPORT n) K.PORT_LINK_DOWN).raise (pPORT n) E.PORT_LINK_DOWN else c

/-- The frames of a port whose link was up are lost (R63). -/
def Chip.linkFlushed (c : Chip) (n old : Nat) : Chip := if old = lsUp ∨ old = lsSleepNeg then c.flushPort n else c

/-- LINK_STATUS and the quality readings as a port enters a state other than UP and SLEEP_NEG. -/
def Chip.linkShown (c : Chip) (n st : Nat) : Chip :=
  let p := pPORT n
  let c := c.put p F.PORT_LINK_STATUS_STATE st
  let c := c.put p F.PORT_LINK_STATUS_RATE 0
  let c := c.put p F.PORT_LINK_STATUS_LONG_BED 0
  let c := c.put p F.PORT_LINK_STATUS_PLCA_ACTIVE 0
  if pageValid (pPHY n) then c.put (pPHY n) F.PHY_SQI_VALID 0 else c

/-- What the port keeps of its link. -/
def Chip.linkReset (c : Chip) (n st : Nat) : Chip :=
  let x := c.portRt n
  c.setPortRt n { x with
    since := c.cycles, rate := 0, beacon := none, burst := 0
    coeff := if st = lsOff then 0 else x.coeff
    kept := if st = lsSleep ∨ st = lsResume then x.kept else none }

theorem Chip.linkMove_eq (c : Chip) (n st : Nat) : c.linkMove n st =
    ((((c.linkLeft n st).linkFlushed n ((if st = lsSearch then c else c.endDiag n).linkState n)).linkShown n st).linkReset n st).startVerify n := by
  simp only [Chip.linkMove, Chip.linkLeft, Chip.linkFlushed, Chip.linkShown, Chip.linkReset]

/-- A field of a PORT page that neither a diagnosis nor the events of the port's pages change. -/
theorem Chip.get_endDiag (c : Chip) (n : Nat) {m : Nat} {f : Fld} (hm : m < 28) (hf : f.quietOn (pPORT m) = true) :
    (c.endDiag n).get (pPORT m) f = c.get (pPORT m) f := by
  have hp := pageValid_pPORT hm
  have hfit : f.fits = true := by
    simp only [Fld.quietOn, Bool.and_eq_true] at hf
    exact hf.1
  unfold Chip.endDiag
  split
  next hd =>
    simp only [Bool.and_eq_true] at hd
    rw [Chip.get_raise _ hp hd.1 hf, Chip.get_put_page _ _ hp hd.1 hfit rfl nofun, Chip.get_put_page _ _ hp hd.1 hfit rfl nofun]
  next => rfl

theorem Chip.linkState_endDiag (c : Chip) {n : Nat} (hn : n < 28) : (c.endDiag n).linkState n = c.linkState n := c.get_endDiag n hn rfl

section
variable {P : Nat → Prop} {c d : Chip} {n : Nat} (h : Undisturbed P c d)
include h

theorem Undisturbed.endDiag (n : Nat) : Undisturbed P c (d.endDiag n) := by
  unfold Chip.endDiag
  split
  next hd =>
    simp only [Bool.and_eq_true] at hd
    exact ((h.put _ hd.1 (by decide) (by decide) (absurd · (by decide))).put _ hd.1 (by decide) (by decide) (absurd · (by decide))).raise _ hd.1
  next => exact h

theorem Undisturbed.startVerify (hn : n < 28) : Undisturbed P c (d.startVerify n) :=
  (h.put _ (pageValid_pPORT hn) (by decide) (by decide) (absurd · (by decide))).setPortRt ..

theorem Undisturbed.linkLeft (st : Nat) (hn : n < 28) : Undisturbed P c (d.linkLeft n st) := by
  have g : Undisturbed P c (if st = lsSearch then d else d.endDiag n) := by
    split
    · exact h
    · exact h.endDiag n
  exact g.when fun h => (h.count ..).raise _ (pageValid_pPORT hn)

theorem Undisturbed.linkShown (st : Nat) (hn : n < 28) (hP : P n) : Undisturbed P c (d.linkShown n st) := by
  have hp := pageValid_pPORT hn
  have hput : ∀ {d : Chip} (f : Fld) (v : Nat), f.off = 0x150 → Undisturbed P c d → Undisturbed P c (d.put (pPORT n) f v) := fun f v hf h =>
    h.put v hp (by omega) (by omega) fun _ => ⟨n, hP, rfl⟩
  have g := hput F.PORT_LINK_STATUS_PLCA_ACTIVE 0 rfl <| hput F.PORT_LINK_STATUS_LONG_BED 0 rfl <| hput F.PORT_LINK_STATUS_RATE 0 rfl <|
    hput F.PORT_LINK_STATUS_STATE st rfl h
  unfold Chip.linkShown
  dsimp only
  split
  next hphy => exact g.put 0 hphy (by decide) (by decide) (absurd · (by decide))
  next => exact g

/-- What follows the loss of the frames when a port enters a state. -/
theorem Undisturbed.linkEntered (st : Nat) (hn : n < 28) (hP : P n) : Undisturbed P c (((d.linkShown n st).linkReset n st).startVerify n) :=
  ((h.linkShown st hn hP).setPortRt ..).startVerify hn

theorem Undisturbed.enterUp (rate : Nat) (longBed resumed : Bool) (hn : n < 28) (hP : P n) :
    Undisturbed P c (d.enterUp n rate longBed resumed) := by
  have hp := pageValid_pPORT hn
  have hput : ∀ {d : Chip} (f : Fld) (v : Nat), f.off = 0x150 → Undisturbed P c d → Undisturbed P c (d.put (pPORT n) f v) := fun f v hf h =>
    h.put v hp (by omega) (by omega) fun _ => ⟨n, hP, rfl⟩
  have g : Undisturbed P c (d.put (pPORT n) F.PORT_LINK_STATUS_STATE lsUp) := hput _ _ rfl h
  have g := hput F.PORT_LINK_STATUS_RESUMED resumed.toNat rfl <| hput F.PORT_LINK_STATUS_LONG_BED longBed.toNat rfl <|
    hput F.PORT_LINK_STATUS_RATE rate rfl g
  exact ((((hput F.PORT_LINK_STATUS_PLCA_ACTIVE _ rfl g).endDiag n).setPortRt ..).startVerify hn).raise _ hp

end

/-- A sleeping port has no frames to lose. -/
theorem Chip.linkMove_asleep (c : Chip) {n : Nat} (hn : n < 28) (hs : c.linkState n = lsSleep) :
    c.linkMove n lsResume = (((c.linkLeft n lsResume).linkShown n lsResume).linkReset n lsResume).startVerify n := by
  have hold : (if lsResume = lsSearch then c else c.endDiag n).linkState n = lsSleep := (c.linkState_endDiag hn).trans hs
  rw [Chip.linkMove_eq, hold]
  rfl

/-- A wake moves the port that sleeps, and no other (R62). -/
theorem Undisturbed.wakePort {P : Nat → Prop} {c d : Chip} {n : Nat} (h : Undisturbed P c d) (hn : n < 28) : Undisturbed P c (d.wakePort n) := by
  unfold Chip.wakePort
  split
  next hs =>
    refine h.wakes hs ?_
    split
    · exact (Undisturbed.refl d).enterUp _ _ _ hn rfl
    · rw [d.linkMove_asleep hn hs]
      exact ((Undisturbed.refl d).linkLeft lsResume hn).linkEntered _ hn rfl
  next => exact h

/-- Traffic leaves settings, warm records and the links of awake ports alone. -/
theorem Traffic.undisturbed {P : Nat → Prop} {c d : Chip} (h : Traffic c d) : Undisturbed P c d := by
  induction h with
  | refl => exact .refl c
  | record _ same ih =>
    have hregs := congrArg Chip.regs same
    have hwarm := congrArg Chip.warm same
    exact ih.same hregs hwarm
  | raise _ b hp ih => exact ih.raise b hp
  | perf _ ev n ih => exact ih.loud (Loud.perf ..)
  | wakePort _ hn ih => exact ih.wakePort (of_decide_eq_true hn).1

section
variable {P : Nat → Prop} {c d : Chip} {n : Nat} (h : Undisturbed P c d)
include h

theorem Undisturbed.rxAbandon (n : Nat) : Undisturbed P c (d.rxAbandon n) := h.trans (Traffic.refl.rxAbandon n).undisturbed

theorem Undisturbed.linkFlushed (n old : Nat) : Undisturbed P c (d.linkFlushed n old) :=
  h.when fun h => h.trans (Traffic.refl.flushPort n).undisturbed

theorem Undisturbed.linkMove (st : Nat) (hn : n < 28) (hP : P n) : Undisturbed P c (d.linkMove n st) := by
  rw [Chip.linkMove_eq]
  exact ((h.linkLeft st hn).linkFlushed n _).linkEntered st hn hP

theorem Undisturbed.linkTo (st : Nat) (hn : n < 28) (hP : P n) : Undisturbed P c (d.linkTo n st) := (h.rxAbandon n).linkMove st hn hP

end

theorem Chip.portRt_setPortRt_same (c : Chip) (n : Nat) (x : PortRt) : (c.setPortRt n x).portRt n = x := lookupD_store_same ..

theorem Chip.warmOf_setWarm_same (c : Chip) (n : Nat) (w : Option WarmRec) : (c.setWarm n w).warmOf n = w := lookupD_store_same ..

theorem Chip.warmOf_setWarm_other (c : Chip) {m n : Nat} (w : Option WarmRec) (h : m ≠ n) : (c.setWarm n w).warmOf m = c.warmOf m :=
  lookupD_store_other _ _ _ _ h

/-! ## What a port shows of its link -/

theorem Chip.get_startVerify (c : Chip) {n : Nat} {f : Fld} (hn : n < 28) (hf : f.apart F.PORT_PREEMPT_STATUS_VERIFY = true) :
    (c.startVerify n).get (pPORT n) f = c.get (pPORT n) f := by
  unfold Chip.startVerify
  dsimp only
  rw [Chip.get_setPortRt, Chip.get_put_apart _ _ (pageValid_pPORT hn) (pageValid_pPORT hn) hf]

theorem Chip.get_linkShown (c : Chip) {n st : Nat} (hn : n < 28) :
    (c.linkShown n st).linkState n = st % 16 ∧ (c.linkShown n st).get (pPORT n) F.PORT_LINK_STATUS_PLCA_ACTIVE = 0 := by
  have hp := pageValid_pPORT hn
  unfold Chip.linkShown Chip.linkState
  dsimp only
  split
  next hphy => simp [Chip.get_put_page, Chip.get_put_apart, Chip.get_put_same, hp, hphy, Fld.apart, Fld.fits, Fld.actOff]
  next => simp [Chip.get_put_apart, Chip.get_put_same, hp, Fld.apart, Fld.fits, Fld.actOff]

theorem Chip.get_linkMove (c : Chip) {n st : Nat} (hn : n < 28) :
    (c.linkMove n st).linkState n = st % 16 ∧ (c.linkMove n st).get (pPORT n) F.PORT_LINK_STATUS_PLCA_ACTIVE = 0 := by
  rw [Chip.linkMove_eq, Chip.linkState, Chip.get_startVerify _ hn rfl, Chip.get_startVerify _ hn rfl]
  exact Chip.get_linkShown _ hn

theorem Chip.linkState_linkMove (c : Chip) {n st : Nat} (hn : n < 28) (hst : st < 16) : (c.linkMove n st).linkState n = st :=
  (c.get_linkMove hn).1.trans (Nat.mod_eq_of_lt hst)

theorem Chip.linkState_linkTo (c : Chip) {n st : Nat} (hn : n < 28) (hst : st < 16) : (c.linkTo n st).linkState n = st :=
  Chip.linkState_linkMove _ hn hst

theorem Chip.plcaActive_linkTo (c : Chip) {n : Nat} (st : Nat) (hn : n < 28) :
    (c.linkTo n st).get (pPORT n) F.PORT_LINK_STATUS_PLCA_ACTIVE = 0 :=
  (Chip.get_linkMove _ hn).2

/-- A link that was UP goes down with LINK_DOWN (R62). -/
theorem Chip.latched_linkMove_up (c : Chip) {n st : Nat} (hn : n < 28) (hs : c.linkState n = lsUp) :
    (c.linkMove n st).latched (pPORT n) E.PORT_LINK_DOWN = true := by
  have hleft : (c.linkLeft n st).latched (pPORT n) E.PORT_LINK_DOWN = true := by
    have hold : (if st = lsSearch then c else c.endDiag n).linkState n = lsUp := by
      split
      · exact hs
      · exact (c.linkState_endDiag hn).trans hs
    unfold Chip.linkLeft
    dsimp only
    rw [if_pos hold]
    exact Chip.latched_raise _ (pageValid_pPORT hn) (by decide)
  rw [Chip.linkMove_eq]
  generalize (if st = lsSearch then c else c.endDiag n).linkState n = old
  have hflush : Steady (c.linkLeft n st) ((c.linkLeft n st).linkFlushed n old) := (Steady.refl _).when fun h => h.flushPort n
  have hshown : Steady (c.linkLeft n st) (((c.linkLeft n st).linkFlushed n old).linkShown n st) :=
    ((((hflush.put rfl _).put rfl _).put rfl _).put rfl _).when fun h => h.put rfl _
  exact ((hshown.setPortRt ..).startVerify n).latched hleft

theorem Chip.latched_linkTo_up (c : Chip) {n : Nat} (st : Nat) (hn : n < 28) (hs : c.linkState n = lsUp) :
    (c.linkTo n st).latched (pPORT n) E.PORT_LINK_DOWN = true := by
  refine Chip.latched_linkMove_up _ hn ?_
  rw [((Undisturbed.refl (P := fun _ => False) c).rxAbandon n).linkState hn not_false (by rw [hs]; decide), hs]

/-- What a port shows that has entered UP (R62). -/
theorem Chip.enterUp_shown (c : Chip) {n : Nat} (rate : Nat) (longBed resumed : Bool) (hn : n < 28) :
    let d := c.enterUp n rate longBed resumed
    d.linkState n = lsUp ∧ d.latched (pPORT n) E.PORT_LINK_UP = true ∧ d.get (pPORT n) F.PORT_LINK_STATUS_RESUMED = resumed.toNat
      ∧ d.get (pPORT n) F.PORT_LINK_STATUS_RATE = rate % 8 := by
  have hp := pageValid_pPORT hn
  have hresumed : resumed.toNat % 2 = resumed.toNat := by cases resumed <;> rfl
  have hev : ∀ (d : Chip) (f : Fld), f.quietOn (pPORT n) = true → (d.raise (pPORT n) E.PORT_LINK_UP).get (pPORT n) f = d.get (pPORT n) f :=
    fun d f hf => Chip.get_raise _ hp hp hf
  refine ⟨?_, Chip.latched_raise _ hp (by decide), ?_, ?_⟩ <;>
    simp only [Chip.linkState, Chip.enterUp] <;>
    rw [hev _ _ rfl, Chip.get_startVerify _ hn rfl, Chip.get_setPortRt, Chip.get_endDiag _ _ hn rfl]
  all_goals simp [Chip.get_put_apart, Chip.get_put_same, hp, Fld.apart, Fld.fits, Fld.actOff, hresumed, lsUp]

/-! ## SEARCH (R62) -/

theorem Chip.sAlone_of_not_isS (c : Chip) {n : Nat} (h : isS n = false) : c.sAlone n = false := by
  rw [Chip.sAlone, h, Bool.false_and]

section
variable {P : Nat → Prop} {c d : Chip} {n : Nat} (h : Undisturbed P c d) (hn : n < 28)
include h hn

theorem Undisturbed.sAlone : d.sAlone n = c.sAlone n := by
  have hp := pageValid_pPORT hn
  rw [Chip.sAlone, Chip.sAlone, h.get hp (f := F.PORT_PLCA_CFG_PLCA_EN) rfl, h.get hp (f := F.PORT_PLCA_CFG_NODE_ID) rfl]

theorem Undisturbed.trainRate (r : Nat) : d.trainRate n r = c.trainRate n r := by
  have hp := pageValid_pPORT hn
  rw [Chip.trainRate, Chip.trainRate, h.get hp (f := F.PORT_RATE_CFG_RATE) rfl, h.is hp (f := F.PORT_RATE_CFG_X_MODE) rfl]

omit hn in
theorem Undisturbed.testing : d.testing n = c.testing n := by
  unfold Chip.testing
  by_cases hp : pageValid (pPHY n) = true
  · rw [h.get hp (f := F.PHY_TEST_MODE_MODE) rfl]
  · simp [hp]

end

/-- A port that is neither coordinator nor CSMA/CD stays in SEARCH. -/
theorem Chip.search_eq (c : Chip) {n : Nat} (hn : n < 28) (ha : c.sAlone n = false) : c.search n = c.linkTo n lsSearch := by
  have ha' : (c.linkTo n lsSearch).sAlone n = false := (((Undisturbed.refl c).linkTo lsSearch hn (P := fun m => m = n) rfl).sAlone hn).trans ha
  simp [Chip.search, ha, ha']

/-- A coordinator or CSMA/CD port goes on to UP at once. -/
theorem Chip.search_alone (c : Chip) {n : Nat} (hn : n < 28) (ha : c.sAlone n = true) (hx : c.is pCLK F.CLK_XTAL_STATUS_RUNNING = true)
    (ht : c.testing n = false) : c.search n = (c.linkTo n lsSearch).enterUp n 6 false false := by
  have h := (Undisturbed.refl c).linkTo lsSearch hn (P := fun m => m = n) rfl
  simp [Chip.search, ha, hx, h.sAlone hn, h.testing, ht]

end Sys2Proof.Machine

/-! Link events (R61 to R72): each moves its port from one link state to another. -/

namespace Sys2Proof.Machine

open Sys2Proof

/-! ## Training and resume (R61, R64 to R67) -/

/-- Step 12 of the boot changes no PORT page. -/
theorem Chip.reg_bootUp (c : Chip) (n : Nat) {m a : Nat} (hm : m < 28) (ha : a < 0x1000) : (c.bootUp n).reg (pPORT m) a = c.reg (pPORT m) a := by
  unfold Chip.bootUp
  split
  · exact Chip.reg_setReg_page _ _ (pageValid_pPORT hm) rfl ha (by decide) nofun
  · rfl

/-- What a port shows that comes up, in the boot or later. -/
theorem Chip.comesUp_shown (c : Chip) {n : Nat} (rate : Nat) (longBed resumed : Bool) (hn : n < 28) :
    let d := (c.enterUp n rate longBed resumed).bootUp n
    d.linkState n = lsUp ∧ d.latched (pPORT n) E.PORT_LINK_UP = true ∧ d.get (pPORT n) F.PORT_LINK_STATUS_RESUMED = resumed.toNat
      ∧ d.get (pPORT n) F.PORT_LINK_STATUS_RATE = rate % 8 := by
  have hreg : ∀ a < 0x1000, ((c.enterUp n rate longBed resumed).bootUp n).reg (pPORT n) a = (c.enterUp n rate longBed resumed).reg (pPORT n) a :=
    fun a ha => Chip.reg_bootUp _ n hn ha
  have h := c.enterUp_shown rate longBed resumed hn
  simpa only [Chip.linkState, Chip.latched, Chip.get, Fld.actOff, Bool.false_eq_true, if_false, hreg _ (by decide : 0x150 < 0x1000),
    hreg _ (by decide : 0x018 < 0x1000)] using h

/-- The chip that training leaves before its port enters UP. -/
def Chip.trained (c : Chip) (n : Nat) (partnerLongBed resumeAble inverted : Bool) : Chip :=
  let c := (c.settleLongBed n partnerLongBed).takeCoeff n
  let c := c.put (pPORT n) F.PORT_LINK_STATUS_RESUME_ABLE ((isB n || isG n) && resumeAble).toNat
  if pageValid (pPHY n) then c.put (pPHY n) F.PHY_POLARITY_RX_INVERTED inverted.toNat else c

section
variable {P : Nat → Prop} {c d : Chip} {n : Nat} (h : Undisturbed P c d)
include h

theorem Undisturbed.settleLongBed (partner : Bool) (hn : n < 28) (hP : P n) : Undisturbed P c (d.settleLongBed n partner) := by
  have hp := pageValid_pPORT hn
  have g := h.put (f := F.PORT_LINK_STATUS_LB_REJECT) (d.offersLongBed n && !partner).toNat hp (by decide) (by decide) fun _ => ⟨n, hP, rfl⟩
  exact g.when fun h => h.raise _ hp

theorem Undisturbed.takeCoeff (n : Nat) : Undisturbed P c (d.takeCoeff n) := by
  refine h.same ?_ ?_ <;>
  · unfold Chip.takeCoeff Chip.takeFree
    dsimp only
    split <;> rfl

theorem Undisturbed.trained (partner able inv : Bool) (hn : n < 28) (hP : P n) : Undisturbed P c (d.trained n partner able inv) := by
  have g := (h.settleLongBed partner hn hP).takeCoeff n
  have g := g.put (f := F.PORT_LINK_STATUS_RESUME_ABLE) ((isB n || isG n) && able).toNat (pageValid_pPORT hn) (by decide) (by decide)
    fun _ => ⟨n, hP, rfl⟩
  unfold Chip.trained
  dsimp only
  split
  next hphy => exact g.put _ hphy (by decide) (by decide) (absurd · (by decide))
  next => exact g

end

/-- Training that ends before its limit brings the link up (R62). -/
theorem Chip.trainComplete_up (c : Chip) {n : Nat} (rate : Nat) (lb able inv : Bool) (hn : n < 28) (hs : c.linkState n = lsTrain)
    (hl : ∀ l, c.trainLimit n = some l → c.linkAge n < l) : c.trainComplete n rate lb able inv =
      ((c.trained n lb able inv).enterUp n (if c.offersLongBed n && lb then 1 else c.trainRate n rate) (c.offersLongBed n && lb) false).bootUp n := by
  have hrate := ((Undisturbed.refl (P := fun m => m = n) c).trained lb able inv hn rfl).trainRate hn rate
  unfold Chip.trainComplete
  rw [if_pos (by simp [hn, hs])]
  refine (if_neg ?_).trans ?_
  · cases ht : c.trainLimit n with
    | none => simp
    | some l => simpa using hl l ht
  · rw [← hrate]
    rfl

theorem not_isS_of_trainLimit {c : Chip} {n l : Nat} (h : c.trainLimit n = some l) : isS n = false := by
  unfold Chip.trainLimit at h
  split at h
  next hb => simp at hb ⊢; omega
  next =>
    split at h
    next hg => simp at hg ⊢; omega
    next =>
      split at h
      next hx => simp at hx ⊢; omega
      next => cases h

theorem Chip.sAlone_of_follower (c : Chip) {n : Nat} (h : c.follower n = true) : c.sAlone n = false := by
  simp only [Chip.follower, Chip.is, Bool.and_eq_true, decide_eq_true_eq] at h
  obtain ⟨⟨-, hen⟩, hid⟩ := h
  simp [Chip.sAlone, hen, hid]

/-! ## Each event (R62) -/

section
variable (c : Chip) {n : Nat} (hn : n < 28)
include hn

theorem Chip.linkState_partnerSignal (hS : isS n = false) (hs : c.linkState n = lsSearch) (ht : c.testing n = false) :
    (c.partnerSignal n).linkState n = if (isB n || isG n) && c.warmUsable n then lsResume else lsTrain := by
  rw [Chip.partnerSignal, if_pos (by simp [hn, hS, hs, ht])]
  split
  · exact Chip.linkState_linkTo _ hn (by decide)
  · exact Chip.linkState_linkTo _ hn (by decide)

theorem Chip.linkTrainFail_shown {l : Nat} (lb : Bool) (hl : c.trainLimit n = some l) (hs : c.linkState n = lsTrain) (ha : l ≤ c.linkAge n) :
    let d := c.linkTrainFail n lb
    d.linkState n = lsSearch ∧ d.latched (pPORT n) E.PORT_TRAIN_FAIL = true := by
  have hS := not_isS_of_trainLimit hl
  rw [Chip.linkTrainFail, hl]
  dsimp only
  rw [if_pos ⟨hs, ha⟩]
  refine ⟨?_, ((Steady.refl _).search n).latched (Chip.latched_raise _ (pageValid_pPORT hn) (by decide))⟩
  rw [Chip.search_eq _ hn (Chip.sAlone_of_not_isS _ hS), Chip.linkState_linkTo _ hn (by decide)]

theorem Chip.resumeOk_shown (hbg : (isB n || isG n) = true) (hs : c.linkState n = lsResume) (ha : c.linkAge n < msCycles 6) :
    let d := c.resumeOk n
    d.linkState n = lsUp ∧ d.latched (pPORT n) E.PORT_LINK_UP = true ∧ d.get (pPORT n) F.PORT_LINK_STATUS_RESUMED = 1 := by
  rw [Chip.resumeOk, if_pos (by rw [hbg, hs]; rfl), if_neg (Nat.not_le_of_lt ha)]
  dsimp only
  obtain ⟨hst, hev, hres, -⟩ := Chip.comesUp_shown _ _ _ true hn
  exact ⟨hst, hev, hres⟩

theorem Chip.resumeFail_shown (hbg : (isB n || isG n) = true) (hs : c.linkState n = lsResume) (ha : msCycles 6 ≤ c.linkAge n) :
    let d := c.resumeFail n
    d.linkState n = lsTrain ∧ d.warmOf n = none ∧ d.latched (pPORT n) E.PORT_RESUME_FAIL = true := by
  rw [Chip.resumeFail, if_pos (by rw [hbg, decide_eq_true ⟨hs, ha⟩]; rfl)]
  dsimp only
  refine ⟨Chip.linkState_linkTo _ hn (by decide), ?_,
    ((Steady.refl _).linkTo n lsTrain).latched (Chip.latched_raise _ (pageValid_pPORT hn) (by decide))⟩
  generalize he : ((c.setWarm n none).count (pPORT n) K.PORT_RESUME_FAIL).raise (pPORT n) E.PORT_RESUME_FAIL = e
  have hw : e.warm = (c.setWarm n none).warm := he ▸ Chip.warm_raise ..
  rw [Chip.warmOf, ((Undisturbed.refl e).linkTo lsTrain hn (P := fun m => m = n) rfl).warm, hw]
  exact c.warmOf_setWarm_same n none

theorem Chip.pcsLockLoss_shown (hbxg : (isB n || isX n || isG n) = true) (hs : c.linkState n = lsUp) :
    let d := c.pcsLockLoss n
    d.linkState n = lsSearch ∧ d.latched (pPORT n) E.PORT_LINK_DOWN = true := by
  have hS : isS n = false := by
    simp only [Bool.or_eq_true, decide_eq_true_eq, decide_eq_false_iff_not] at hbxg ⊢
    omega
  rw [Chip.pcsLockLoss, if_pos (by rw [hbxg, hs]; rfl), Chip.search_eq _ hn (Chip.sAlone_of_not_isS _ hS)]
  exact ⟨Chip.linkState_linkTo _ hn (by decide), Chip.latched_linkTo_up _ _ hn hs⟩

theorem Chip.plcaBeaconRx_shown (hf : c.follower n = true) (ht : c.testing n = false) (hs : c.linkState n = lsSearch) :
    let d := c.plcaBeaconRx n
    d.linkState n = lsUp ∧ d.latched (pPORT n) E.PORT_LINK_UP = true := by
  rw [Chip.plcaBeaconRx, if_pos (by simp [hf, ht])]
  dsimp only
  rw [if_pos hs]
  obtain ⟨hst, hev, -⟩ := Chip.enterUp_shown c 6 false false hn
  exact ⟨hst, hev⟩

/-- A follower that hears no beacon falls back to CSMA/CD, or searches (R70). -/
theorem Chip.beaconLoss_shown {t : Nat} (hf : c.follower n = true) (hs : c.linkState n = lsUp)
    (ha : c.is (pPORT n) F.PORT_LINK_STATUS_PLCA_ACTIVE = true) (hb : (c.portRt n).beacon = some t) (ht : t + msCycles 2 ≤ c.cycles) :
    let d := c.beaconLoss n
    d.latched (pPORT n) E.PORT_BEACON_LOSS = true ∧ d.get (pPORT n) F.PORT_LINK_STATUS_PLCA_ACTIVE = 0
      ∧ d.linkState n = if c.is (pPORT n) F.PORT_PLCA_CFG_FALLBACK_CSMA && c.is pCLK F.CLK_XTAL_STATUS_RUNNING then lsUp else lsSearch := by
  have hp := pageValid_pPORT hn
  rw [Chip.beaconLoss]
  dsimp only
  rw [if_pos (by simp [hf, hs, ha, hb, ht])]
  generalize he : (c.count (pPORT n) K.PORT_BEACON_LOSS).raise (pPORT n) E.PORT_BEACON_LOSS = e
  have hev : e.latched (pPORT n) E.PORT_BEACON_LOSS = true := he ▸ Chip.latched_raise _ hp (by decide)
  have hget : ∀ p f, pageValid p = true → f.quietOn p = true → e.get p f = c.get p f := fun p f hp' hf => he ▸ Chip.get_raise _ hp' hp hf
  have hcfg : (e.is (pPORT n) F.PORT_PLCA_CFG_FALLBACK_CSMA && e.is pCLK F.CLK_XTAL_STATUS_RUNNING) =
      (c.is (pPORT n) F.PORT_PLCA_CFG_FALLBACK_CSMA && c.is pCLK F.CLK_XTAL_STATUS_RUNNING) := by
    rw [Chip.is, hget _ _ hp rfl, Chip.is, hget _ _ rfl rfl, Chip.is, Chip.is]
  rw [← hcfg]
  simp only [Bool.and_eq_true]
  split
  · refine ⟨((Steady.refl e).put rfl 0).latched hev, Chip.get_put_same _ _ hp rfl rfl, ?_⟩
    rw [Chip.linkState, Chip.get_put_apart _ _ hp hp rfl, hget _ _ hp rfl]
    exact hs
  · have hsa : e.sAlone n = false := by
      rw [Chip.sAlone, hget _ _ hp rfl, hget _ _ hp rfl]
      exact c.sAlone_of_follower hf
    rw [Chip.search_eq _ hn hsa]
    exact ⟨((Steady.refl e).linkTo n lsSearch).latched hev, Chip.plcaActive_linkTo _ _ hn, Chip.linkState_linkTo _ hn (by decide)⟩

omit hn in
theorem Chip.plcaBeaconTx_sends (hS : isS n = true) (hen : c.is (pPORT n) F.PORT_PLCA_CFG_PLCA_EN = true)
    (hid : c.get (pPORT n) F.PORT_PLCA_CFG_NODE_ID = 0) (hup : c.linkUp n = true) (hover : c.cycleOver n = true) (htx : c.txOf n = none)
    (hrx : c.rxOf n = none) : c.plcaBeaconTx n = (c.openCycle n).emit (.beacon n) := by
  rw [Chip.plcaBeaconTx, if_pos (by simp only [hS, hen, hid, hup, hover, htx, hrx]; rfl)]

end

/-- Settles O6: each event moves its port by `linkTo`, `search` or `enterUp`, and what they leave shown and latched is what it says. -/
theorem linkEvents : Obligations.LinkEvents := by
  intro s dt n rate lb able inv c hw
  have hn : n < 28 := of_decide_eq_true hw
  refine ⟨fun hS hs ht => .of_run rfl (c.linkState_partnerSignal hn hS hs ht), fun hs hl => .of_run rfl ?_,
    fun l hl hs ha => .of_run rfl (c.linkTrainFail_shown hn lb hl hs ha), fun hbg hs ha => .of_run rfl (c.resumeOk_shown hn hbg hs ha),
    fun hbg hs ha => .of_run rfl (c.resumeFail_shown hn hbg hs ha), fun hbxg hs => .of_run rfl (c.pcsLockLoss_shown hn hbxg hs),
    fun hf ht hs => .of_run rfl (c.plcaBeaconRx_shown hn hf ht hs), fun t hf hs ha hb ht => .of_run rfl (c.beaconLoss_shown hn hf hs ha hb ht),
    fun hS hen hid hup hover htx hrx => .of_run rfl ?_⟩
  case refine_1 =>
    rw [Chip.trainComplete_up _ _ _ _ _ hn hs hl]
    exact Chip.comesUp_shown _ _ _ _ hn
  case refine_2 =>
    rw [Chip.plcaBeaconTx_sends _ hS hen hid hup hover htx hrx]
    exact ⟨rfl, congrArg PortRt.beacon (c.portRt_setPortRt_same n _)⟩

end Sys2Proof.Machine

/-! Link commands, TC10 sleep and wake (R62, R66, R68, R69): what each makes of the link state, and what leaves the block. -/

namespace Sys2Proof.Machine

open Sys2Proof

/-! ## What has left the block stays so. The chain `h.op₁.op₂` reads as the program does. -/

/-- `o` has left the block during the command that has led to `d`. -/
def Said (o : Output) (d : Chip) : Prop := o ∈ d.outs

@[simp] theorem Chip.outs_put (c : Chip) (p : Page) (f : Fld) (v : Nat) : (c.put p f v).outs = c.outs := Chip.outs_setRegAt ..

section
variable {o : Output} {d e : Chip}

theorem Said.same (h : Said o d) (he : e.outs = d.outs) : Said o e := by
  rw [Said, he]
  exact h

theorem Said.when {Q : Prop} [Decidable Q] (h : Said o d) (g : Said o d → Said o e) : Said o (if Q then e else d) := by
  split
  · exact g h
  · exact h

theorem Chip.outs_perfBump (c : Chip) (ev n : Nat) : (c.perfBump ev n).1.outs = c.outs := by
  have hadd : ∀ (d : Chip) (i : Nat), (d.perfAdd i n).outs = d.outs := fun d i => by
    unfold Chip.perfAdd
    dsimp only
    split
    · rfl
    · exact Chip.outs_setRegAt ..
  delta Chip.perfBump
  split
  · rfl
  · refine List.foldlRecOn (motive := fun a : Chip × Bool => a.1.outs = c.outs) _ _ rfl fun a ha i _ => ?_
    dsimp only
    split
    · exact (hadd ..).trans ha
    · exact ha

variable (h : Said o d)
include h

theorem Said.emit (x : Output) : Said o (d.emit x) := List.mem_append_left _ h

theorem Said.count (p : Page) (i : Nat) : Said o (d.count p i) := h

theorem Said.setReg (p : Page) (a : Nat) (w : Word) : Said o (d.setReg p a w) := h.same (Chip.outs_setRegAt ..)

theorem Said.put (p : Page) (f : Fld) (v : Nat) : Said o (d.put p f v) := h.setReg ..

theorem Said.setPortRt (n : Nat) (x : PortRt) : Said o (d.setPortRt n x) := h

theorem Said.sendMsix (v : Nat) : Said o (d.sendMsix v) := by
  delta Chip.sendMsix
  dsimp only
  split
  · exact h
  · split
    · exact h.setReg ..
    · exact ((h.same (d.outs_perfBump 0x2C4 1)).count ..).emit _

theorem Said.routeEvent (p : Page) : Said o (d.routeEvent p) := (h.when fun h => h.sendMsix _).when fun h => h.emit _

theorem Said.raise (p : Page) (b : Nat) : Said o (d.raise p b) := by
  have g := h.setReg p 0x018 (d.reg p 0x018 ||| BitVec.ofNat 32 (2 ^ b))
  delta Chip.raise
  dsimp only
  split
  · split
    · exact g
    · exact (g.sendMsix _).emit _
  · exact g.when fun g => g.routeEvent p

theorem Said.endDiag (n : Nat) : Said o (d.endDiag n) := h.when fun h => ((h.put ..).put ..).raise ..

theorem Said.startVerify (n : Nat) : Said o (d.startVerify n) := (h.put ..).setPortRt ..

theorem Said.enterUp (n rate : Nat) (longBed resumed : Bool) : Said o (d.enterUp n rate longBed resumed) :=
  ((((((((h.put ..).put ..).put ..).put ..).put ..).endDiag n).setPortRt ..).startVerify n).raise ..

theorem Said.linkLeft (n st : Nat) : Said o (d.linkLeft n st) := by
  have g : Said o (if st = lsSearch then d else d.endDiag n) := by
    split
    · exact h
    · exact h.endDiag n
  exact g.when fun h => (h.count ..).raise ..

theorem Said.linkEntered (n st : Nat) : Said o (((d.linkShown n st).linkReset n st).startVerify n) := by
  have g : Said o (d.linkShown n st) := ((((h.put ..).put ..).put ..).put ..).when fun h => h.put ..
  exact (g.setPortRt ..).startVerify n

theorem Said.wakePort {n : Nat} (hn : n < 28) : Said o (d.wakePort n) := by
  unfold Chip.wakePort
  split
  next hs =>
    split
    · exact h.enterUp ..
    · rw [d.linkMove_asleep hn hs]
      exact (h.linkLeft ..).linkEntered ..
  next => exact h

end

/-! ## What a posted link command finds -/

@[simp] theorem Chip.linkState_sequenced (c : Chip) (req : Requester) (n : Nat) : (c.sequenced req).linkState n = c.linkState n := by
  simp [Chip.linkState]

@[simp] theorem Chip.is_sequenced (c : Chip) (req : Requester) (p : Page) (f : Fld) : (c.sequenced req).is p f = c.is p f := by
  simp [Chip.is]

@[simp] theorem Chip.testing_sequenced (c : Chip) (req : Requester) (n : Nat) : (c.sequenced req).testing n = c.testing n := by
  simp [Chip.testing]

@[simp] theorem Chip.sAlone_sequenced (c : Chip) (req : Requester) (n : Nat) : (c.sequenced req).sAlone n = c.sAlone n := by
  simp [Chip.sAlone]

@[simp] theorem Chip.warmOf_sequenced (c : Chip) (req : Requester) (n : Nat) : (c.sequenced req).warmOf n = c.warmOf n := by
  simp [Chip.warmOf]

/-- A link command that its page takes acts on the link (R62). -/
theorem Chip.linkCmdWrite_acts (c : Chip) {req : Requester} {n : Nat} (cmd : Nat) (hn : n < 28) (ht : c.takes req = true) :
    c.linkCmdWrite req n cmd = (c.sequenced req).linkCmd n cmd := c.command_ok ht (pageValid_pPORT hn)

section
variable (c : Chip) {n : Nat} (hn : n < 28)
include hn

/-! ## RESTART -/

theorem Chip.linkState_restart_wire (hS : isS n = false) (ht : c.testing n = false) (hs : c.linkState n ≠ lsOff) :
    (c.restart n).linkState n = lsTrain := by
  rw [Chip.restart, if_neg hs, if_neg (by rw [hS, ht]; decide), c.linkState_linkTo hn (by decide)]

theorem Chip.linkState_restart_searching (hS : isS n = true) (ha : c.sAlone n = false) (hs : c.linkState n ≠ lsOff) :
    (c.restart n).linkState n = lsSearch := by
  rw [Chip.restart, if_neg hs, if_pos (by rw [hS]; rfl), c.search_eq hn ha, c.linkState_linkTo hn (by decide)]

theorem Chip.restart_alone_shown (hS : isS n = true) (ha : c.sAlone n = true) (hx : c.is pCLK F.CLK_XTAL_STATUS_RUNNING = true)
    (ht : c.testing n = false) (hs : c.linkState n ≠ lsOff) :
    (c.restart n).linkState n = lsUp ∧ (c.restart n).latched (pPORT n) E.PORT_LINK_UP = true := by
  rw [Chip.restart, if_neg hs, if_pos (by rw [hS]; rfl), c.search_alone hn ha hx ht]
  obtain ⟨hst, hev, -⟩ := Chip.enterUp_shown (c.linkTo n lsSearch) 6 false false hn
  exact ⟨hst, hev⟩

/-! ## Sleep -/

theorem Chip.startSleep_shown : (c.startSleep n).linkState n = lsSleepNeg ∧ (c.startSleep n).outs = c.outs := by
  have hp := pageValid_pPORT hn
  refine ⟨?_, ?_⟩
  · simp [Chip.startSleep, Chip.linkState, Chip.get_put_apart, Chip.get_put_same, hp, Fld.apart, Fld.fits, Fld.actOff, lsSleepNeg]
  · change ((c.put (pPORT n) F.PORT_LINK_STATUS_STATE lsSleepNeg).put (pPORT n) F.PORT_LINK_STATUS_RATE 0).outs = c.outs
    rw [Chip.outs_put, Chip.outs_put]

theorem Chip.abandonSleep_shown :
    (c.abandonSleep n).linkState n = lsUp ∧ (c.abandonSleep n).latched (pPORT n) E.PORT_SLEEP_REJECT = true := by
  have hp := pageValid_pPORT hn
  refine ⟨?_, ?_⟩
  · simp [Chip.abandonSleep, Chip.linkState, Chip.get_put_apart, Chip.get_put_same, hp, Fld.apart, Fld.fits, Fld.actOff, lsUp]
  · exact ((((Steady.refl _).put rfl _).put rfl _).setPortRt ..).latched (Chip.latched_raise _ hp (by decide))

theorem Chip.sleepDone_shown (htc : hasTc10 n = true) (hs : c.linkState n = lsSleepNeg) (he : c.egressEmpty n = true) :
    (c.sleepDone n).linkState n = lsSleep ∧ (c.sleepDone n).latched (pPORT n) E.PORT_SLEEP_DONE = true := by
  have hp := pageValid_pPORT hn
  rw [Chip.sleepDone, if_pos (by rw [htc, hs, he]; rfl)]
  dsimp only
  refine ⟨?_, ((Steady.refl _).setPortRt ..).latched (Chip.latched_raise _ hp (by decide))⟩
  rw [Chip.linkState, Chip.get_setPortRt, Chip.get_raise _ hp hp rfl]
  exact c.linkState_linkTo hn (by decide)

theorem Chip.partnerSleepRequest_rejected (htc : hasTc10 n = true) (hs : c.linkState n = lsUp)
    (ha : c.is (pPORT n) F.PORT_TC10_CFG_SLEEP_ACCEPT = false) :
    let d := c.partnerSleepRequest n
    d.linkState n = lsUp ∧ d.latched (pPORT n) E.PORT_SLEEP_REJECT = true ∧ .sleepReject n ∈ d.outs := by
  have hp := pageValid_pPORT hn
  rw [Chip.partnerSleepRequest, if_pos (by rw [htc, hs]; rfl), if_neg (ne_true_of_eq_false ha)]
  refine ⟨?_, ((Steady.refl _).emit _).latched (Chip.latched_raise _ hp (by decide)), List.mem_append_right _ (List.mem_singleton_self _)⟩
  rw [Chip.linkState, Chip.get_emit, Chip.get_raise _ hp hp rfl]
  exact hs

/-! ## Wake (R69) -/

theorem Chip.linkState_wakePort (hs : c.linkState n = lsSleep) : (c.wakePort n).linkState n = if isS n then lsUp else lsResume := by
  rw [Chip.wakePort, if_pos hs]
  split
  · exact (c.enterUp_shown 6 false false hn).1
  · exact c.linkState_linkMove hn (by decide)

omit hn in
theorem Chip.regs_forwardWake (n : Nat) : (c.forwardWake n).regs = c.regs :=
  List.foldlRecOn (motive := fun d : Chip => d.regs = c.regs) _ _ rfl fun _ hd _ _ => hd

theorem Chip.wakeRx_shown (htc : hasTc10 n = true) (hs : c.linkState n = lsSleep) :
    let d := c.wakeRx n
    (d.linkState n = if isS n then lsUp else lsResume) ∧ d.latched (pPORT n) E.PORT_WAKE_RX = true := by
  have hp := pageValid_pPORT hn
  rw [Chip.wakeRx, if_pos (by rw [htc, hs]; rfl)]
  dsimp only
  generalize he : c.raise (pPORT n) E.PORT_WAKE_RX = e
  have hse : e.linkState n = lsSleep := he ▸ (Chip.get_raise _ hp hp rfl).trans hs
  have hev : e.latched (pPORT n) E.PORT_WAKE_RX = true := he ▸ Chip.latched_raise _ hp (by decide)
  rw [if_pos hse]
  have hfwd := Chip.regs_forwardWake (e.wakePort n) n
  refine ⟨(get_congr hfwd _ _).trans (e.linkState_wakePort hn hse), ?_⟩
  rw [Chip.latched, reg_congr hfwd]
  exact ((Steady.refl e).wakePort n).latched hev

end

/-- Settles O7: RESTART searches or trains, the sleep handshake goes to and from SLEEP_NEG, and a wake resumes or comes up. -/
theorem linkAndSleepCommands : Obligations.LinkAndSleepCommands := by
  refine ⟨?_, ?_⟩
  · intro s dt n req c hw ht
    have hn : n < 28 := of_decide_eq_true hw
    have hcmd := fun cmd => c.linkCmdWrite_acts cmd hn ht
    refine ⟨fun hS hs hte => .of_run rfl ?_, fun hS ha hs => .of_run rfl ?_, fun hS ha hx hte hs => .of_run rfl ?_,
      fun htc hs => .of_run rfl ?_, fun htc hs => .of_run rfl ?_, .of_run rfl ?_⟩ <;> rw [hcmd, Chip.linkCmd, if_pos hw]
    case refine_1 => exact Chip.linkState_restart_wire _ hn hS (by simpa using hte) (by simpa using hs)
    case refine_2 => exact Chip.linkState_restart_searching _ hn hS (by simpa using ha) (by simpa using hs)
    case refine_3 => exact Chip.restart_alone_shown _ hn hS (by simpa using ha) (by simpa using hx) (by simpa using hte) (by simpa using hs)
    case refine_4 =>
      rw [if_pos (by simp [htc, hs])]
      obtain ⟨hst, houts⟩ := (c.sequenced req).startSleep_shown hn
      refine ⟨hst, ?_⟩
      rw [Chip.emit, houts, Chip.outs_sequenced]
    case refine_5 =>
      rw [if_pos (by simp [htc, hs])]
      have hpulse : Said (.wakePulse n) ((c.sequenced req).emit (.wakePulse n)) := List.mem_append_right _ (List.mem_singleton_self _)
      exact ⟨Chip.linkState_wakePort _ hn (by simpa [Chip.linkState] using hs), hpulse.wakePort hn⟩
    case refine_6 =>
      refine ⟨Chip.warmOf_setWarm_same .., fun m hm => ?_⟩
      rw [Chip.warmOf_setWarm_other _ _ hm, Chip.warmOf_sequenced]
  · intro s dt n c htc
    have hn : n < 28 := (of_decide_eq_true htc).1
    refine ⟨fun hs ha => .of_run rfl ?_, fun hs ha => .of_run rfl (c.partnerSleepRequest_rejected hn htc hs ha), fun hs => .of_run rfl ?_,
      fun hs he => .of_run rfl (c.sleepDone_shown hn htc hs he), fun hs he hd => .of_run rfl ?_, fun hs => .of_run rfl (c.wakeRx_shown hn htc hs)⟩
    case refine_1 =>
      rw [Chip.partnerSleepRequest, if_pos (by rw [htc, hs]; rfl), if_pos ha]
      exact (c.startSleep_shown hn).1
    case refine_2 =>
      rw [Chip.partnerSleepReject, if_pos (by rw [htc, hs]; rfl)]
      exact c.abandonSleep_shown hn
    case refine_3 =>
      rw [Chip.sleepDrain, if_pos (by rw [htc, hs, he, decide_eq_true hd]; rfl)]
      exact c.abandonSleep_shown hn

end Sys2Proof.Machine

/-! Preemption verification, cable diagnosis, test modes and quality readings of a PHY (R74, R83, R84). -/

namespace Sys2Proof.Machine

open Sys2Proof

/-! ## Verification (R74) -/

/-- A verify attempt that times out is counted; the last one fails the verification. -/
theorem Chip.verifyFail_shown (c : Chip) {n : Nat} (hbxg : (isB n || isX n || isG n) = true) (hs : c.linkState n = lsUp)
    (hv : c.get (pPORT n) F.PORT_PREEMPT_STATUS_VERIFY = 2)
    (ht : (c.portRt n).verifyAt + msCycles (c.get (pPORT n) F.PORT_PREEMPT_CFG_VERIFY_TIME) ≤ c.cycles) :
    let d := c.verifyFail n
    (d.portRt n).verifyTries = (c.portRt n).verifyTries + 1 ∧ (c.get (pPORT n) F.PORT_PREEMPT_CFG_VERIFY_LIMIT ≤ (c.portRt n).verifyTries + 1 →
      d.get (pPORT n) F.PORT_PREEMPT_STATUS_VERIFY = 4 ∧ d.latched (pPORT n) E.PORT_VERIFY_FAIL = true) := by
  have hn : n < 28 := by
    simp only [Bool.or_eq_true, decide_eq_true_eq] at hbxg
    omega
  have hp := pageValid_pPORT hn
  rw [Chip.verifyFail, if_pos (by rw [hbxg, hs, hv, decide_eq_true ht]; rfl)]
  dsimp only
  rw [Chip.get_setPortRt]
  split
  · refine ⟨?_, fun _ => ⟨?_, Chip.latched_raise _ hp (by decide)⟩⟩
    · rw [Chip.portRt, Chip.ports_raise, Chip.put, Chip.setReg, Chip.ports_setRegAt]
      exact congrArg PortRt.verifyTries (c.portRt_setPortRt_same n _)
    · rw [Chip.get_raise _ hp hp rfl]
      exact Chip.get_put_same _ _ hp rfl rfl
  · exact ⟨congrArg PortRt.verifyTries (c.portRt_setPortRt_same n _), fun hl => absurd hl ‹_›⟩

section
variable (c : Chip) {n : Nat} (hp : pageValid (pPHY n) = true)
include hp

/-! ## Diagnosis (R83, R84) -/

theorem Chip.cableDiagStart_busy (hs : c.linkState n = lsSearch) : (c.cableDiagStart n).is (pPHY n) F.PHY_CABLE_DIAG_RESULT_BUSY = true := by
  rw [Chip.cableDiagStart, if_pos hp, if_pos hs, Chip.is, c.get_put_same _ hp rfl rfl]
  rfl

theorem Chip.cableDiagDone_shown (result dist : Nat) (hb : c.is (pPHY n) F.PHY_CABLE_DIAG_RESULT_BUSY = true) :
    let d := c.cableDiagDone n result dist
    d.is (pPHY n) F.PHY_CABLE_DIAG_RESULT_BUSY = false ∧ d.get (pPHY n) F.PHY_CABLE_DIAG_RESULT_RESULT = result % 4
      ∧ d.get (pPHY n) F.PHY_CABLE_DIAG_RESULT_DIST_DM = dist % 4096 ∧ d.latched (pPHY n) E.PHY_CABLE_DIAG_DONE = true := by
  rw [Chip.cableDiagDone, if_pos (by rw [hp, hb]; rfl)]
  dsimp only
  refine ⟨?_, ?_, ?_, Chip.latched_raise _ hp (by decide)⟩ <;>
    simp [Chip.is, Chip.get_raise, Chip.get_put_apart, Chip.get_put_same, hp, Fld.quietOn, quiet, still, Fld.apart, Fld.fits, Fld.actOff]

/-! ## Test modes (R84) -/

omit hp in
theorem Chip.refuseWrite_testMode (hl : c.locked (pPHY n) = false) : c.refuseWrite (pPHY n) 0x15C true = 0 := by
  have hrow : regRow (pPHY n) 0x15C = some ⟨0x15C, 0, 1, .rw, 0x0000000F, 0x00000000⟩ := by
    have hrsv : phyRsv n 0x15C = false := by
      have hlt : ∀ slots, ¬ 0x180 + 8 * slots ≤ 0x15C := fun slots => by omega
      simp only [phyRsv, hlt, decide_false, Bool.false_and]
    change (if true && phyRsv n 0x15C then none else rowIn rowsPhy 0x15C) = _
    rw [hrsv]
    rfl
  rw [Chip.refuseWrite, if_neg (by decide), hrow]
  simp [hl]

/-- A test pattern takes the link to SEARCH, unless its port is off. -/
theorem Chip.writeTestMode_shown {mode : Nat} (hl : c.locked (pPHY n) = false) (hm : mode % 16 ≠ 0) :
    ∃ d, c.writeTestMode n mode = (d, 0) ∧ d.get (pPHY n) F.PHY_TEST_MODE_MODE = mode % 16
      ∧ d.linkState n = if c.linkState n = lsOff then lsOff else lsSearch := by
  have hn := lt_of_pageValid_pPHY hp
  have hst : (c.put (pPHY n) F.PHY_TEST_MODE_MODE mode).linkState n = c.linkState n :=
    Chip.get_put_page _ _ (pageValid_pPORT hn) hp rfl rfl nofun
  have hmode : (c.put (pPHY n) F.PHY_TEST_MODE_MODE mode).get (pPHY n) F.PHY_TEST_MODE_MODE = mode % 16 := Chip.get_put_same _ _ hp rfl rfl
  rw [Chip.writeTestMode, c.refuseWrite_testMode hl]
  dsimp only
  refine ⟨_, rfl, ?_⟩
  rw [hst, if_neg hm]
  split
  next hoff => exact ⟨hmode, hst.trans hoff⟩
  next =>
    have h := (Undisturbed.refl (c.put (pPHY n) F.PHY_TEST_MODE_MODE mode)).linkTo lsSearch hn (P := fun m => m = n) rfl
    exact ⟨(h.get hp rfl).trans hmode, Chip.linkState_linkTo _ hn (by decide)⟩

/-! ## Quality readings (R83) -/

theorem Chip.sqiRefresh_shown (sqi : Nat) (m : Option Nat) (hs : c.linkState n = lsUp) :
    (c.sqiRefresh n sqi m).get (pPHY n) F.PHY_SQI_VALUE = sqi % 8 ∧ (c.sqiRefresh n sqi m).is (pPHY n) F.PHY_SQI_VALID = true := by
  rw [Chip.sqiRefresh, if_pos (by rw [hp, hs]; rfl), Chip.is]
  cases m <;> simp [Chip.get_put_apart, Chip.get_put_same, hp, Fld.apart, Fld.fits, Fld.actOff]

end

/-- Settles O8: each operation puts the fields that it names, and a test pattern outlasts the link's move to SEARCH. -/
theorem phyOperations : Obligations.PhyOperations := by
  intro s dt n result dist mode sqi req c hp
  refine ⟨fun hbxg hs hv ht => .of_run rfl (c.verifyFail_shown hbxg hs hv ht), fun ht hs => .of_run rfl ?_,
    fun hb => .of_run rfl (c.cableDiagDone_shown hp result dist hb), fun ht hl hm _ => .of_run rfl ?_,
    fun m hs => .of_run rfl (c.sqiRefresh_shown hp sqi m hs)⟩
  case refine_1 =>
    rw [Chip.command_ok _ ht hp]
    exact Chip.cableDiagStart_busy _ hp (by simpa using hs)
  case refine_2 =>
    obtain ⟨d, hd, hmode, hst⟩ := (c.sequenced req).writeTestMode_shown hp (by simpa using hl) hm
    rw [Chip.posted_ok _ ht hp hd]
    exact ⟨hmode, by simpa using hst⟩

end Sys2Proof.Machine

/-! The reception of a frame (R60, R73, R74, R418): what its end counts at its port, and what goes on from there. -/

namespace Sys2Proof.Machine

open Sys2Proof

/-! ## Counters of a port -/

theorem Chip.cntAt_addCnt_same (c : Chip) (p : Page) (i n : Nat) :
    (c.addCnt p i n).cntAt (cntKey p i) = c.cntAt (cntKey p i) + BitVec.ofNat 48 n := Chip.cntAt_setCntAt_same ..

theorem Chip.cntAt_addCnt_slot (c : Chip) (p : Page) {i j : Nat} (n : Nat) (h : i ≠ j) :
    (c.addCnt p j n).cntAt (cntKey p i) = c.cntAt (cntKey p i) :=
  c.cntAt_addCnt_other p j n fun hk => h (Nat.add_left_cancel hk)

@[simp] theorem Chip.queues_addCnt (c : Chip) (p : Page) (i n : Nat) : (c.addCnt p i n).queues = c.queues := rfl
@[simp] theorem Chip.nextFid_addCnt (c : Chip) (p : Page) (i n : Nat) : (c.addCnt p i n).nextFid = c.nextFid := rfl

/-- Counters that single out some of the frames received: the kinds of error, fragments of preemption, kinds of destination and tag,
length bins. -/
def sorts (i : Nat) : Bool := decide (1 ≤ i ∧ i ≤ 3 ∨ i = K.PORT_PREEMPT_FRAG_RX ∨ 36 ≤ i ∧ i < 64)

/-- The chip with other counters and another state of its power management, which notes when a port was last heard. -/
def Chip.withTally (c : Chip) (m : List (Nat × W48)) (p : PwrRt) : Chip := { c with cnt := m, pwr := p }

/-- `d` is `c` but for counters and what power management notes, and of port `n` the counters that single out no frames agree. -/
structure Sorted (n : Nat) (c d : Chip) : Prop where
  same : ∃ m p, d = c.withTally m p
  kept : ∀ i, sorts i = false → d.cntAt (cntKey (pPORT n) i) = c.cntAt (cntKey (pPORT n) i)

section
variable {n : Nat} {c d e : Chip}

theorem Sorted.refl (c : Chip) : Sorted n c c := ⟨⟨c.cnt, c.pwr, rfl⟩, fun _ _ => rfl⟩

theorem Sorted.hear (c : Chip) (m : Nat) : Sorted n c (c.hear m) := by
  unfold Chip.hear
  split
  · exact ⟨⟨c.cnt, _, rfl⟩, fun _ _ => rfl⟩
  · exact .refl c

theorem Sorted.addCnt (h : Sorted n c d) {j : Nat} (hj : sorts j = true) (k : Nat) : Sorted n c (d.addCnt (pPORT n) j k) := by
  obtain ⟨⟨m, p, rfl⟩, hkept⟩ := h
  refine ⟨⟨_, p, rfl⟩, fun i hi => (Chip.cntAt_addCnt_slot _ _ _ ?_).trans (hkept i hi)⟩
  rintro rfl
  rw [hj] at hi
  cases hi

theorem Sorted.count (h : Sorted n c d) {j : Nat} (hj : sorts j = true) : Sorted n c (d.count (pPORT n) j) := h.addCnt hj 1

/-- One amount counted on both sides. -/
theorem Sorted.addCnt_both (h : Sorted n c d) (j k : Nat) : Sorted n (c.addCnt (pPORT n) j k) (d.addCnt (pPORT n) j k) := by
  obtain ⟨⟨m, p, rfl⟩, hkept⟩ := h
  refine ⟨⟨_, p, rfl⟩, fun i hi => ?_⟩
  by_cases hij : i = j
  · subst hij
    rw [Chip.cntAt_addCnt_same, Chip.cntAt_addCnt_same, hkept i hi]
  · rw [Chip.cntAt_addCnt_slot _ _ _ hij, Chip.cntAt_addCnt_slot _ _ _ hij, hkept i hi]

theorem Sorted.count_both (h : Sorted n c d) (j : Nat) : Sorted n (c.count (pPORT n) j) (d.count (pPORT n) j) := h.addCnt_both j 1

theorem Sorted.when {Q : Prop} [Decidable Q] (h : Sorted n c d) (g : Sorted n c d → Sorted n c e) : Sorted n c (if Q then e else d) := by
  split
  · exact g h
  · exact h

theorem Sorted.unless {Q : Prop} [Decidable Q] (h : Sorted n c d) (g : Sorted n c d → Sorted n c e) : Sorted n c (if Q then d else e) := by
  split
  · exact h
  · exact g h

theorem Sorted.queues (h : Sorted n c d) : d.queues = c.queues := by
  obtain ⟨⟨m, p, rfl⟩, -⟩ := h
  rfl

theorem Sorted.nextFid (h : Sorted n c d) : d.nextFid = c.nextFid := by
  obtain ⟨⟨m, p, rfl⟩, -⟩ := h
  rfl

theorem Sorted.rxOf (h : Sorted n c d) (m : Nat) : d.rxOf m = c.rxOf m := by
  obtain ⟨⟨m, p, rfl⟩, -⟩ := h
  rfl

theorem Sorted.rxFrame (h : Sorted n c d) (m : Nat) (bs : List Byte) (node : Option Nat) (o : RingOrigin) (ago : Nat) :
    d.rxFrame m bs node o ago = c.rxFrame m bs node o ago := by
  obtain ⟨⟨m, p, rfl⟩, -⟩ := h
  rfl

end

/-! ## Statistics (R418) -/

theorem castOf_le (bs : List Byte) : castOf bs ≤ 2 := by
  unfold castOf
  split
  · exact le_refl 2
  · split <;> decide

theorem lengthBin_lt (n : Nat) : lengthBin n < 8 := by
  unfold lengthBin
  split_ifs <;> decide

theorem sorts_castOf (bs : List Byte) : sorts (K.PORT_RX_UNICAST + castOf bs) = true := by
  have := castOf_le bs
  simp only [sorts, K.PORT_RX_UNICAST, decide_eq_true_eq]
  omega

theorem sorts_lengthBin (n : Nat) : sorts (K.PORT_RX_BINS + lengthBin n) = true := by
  have := lengthBin_lt n
  simp only [sorts, K.PORT_RX_BINS, decide_eq_true_eq]
  omega

theorem sorts_macError {n len maxLen k : Nat} {e : RxEnd} (h : macError n len maxLen e = some (some k)) : sorts k = true := by
  unfold macError at h
  split_ifs at h
  · cases h; rfl
  · cases h; rfl
  · cases e <;> cases h
    rfl

/-- Octets and frames, which count every frame whose end has arrived. -/
def Chip.rxTotals (c : Chip) (n len : Nat) : Chip := (c.addCnt (pPORT n) K.PORT_RX_OCTETS len).count (pPORT n) K.PORT_RX_FRAMES

/-- The same and those of good frames. -/
def Chip.rxGood (c : Chip) (n len : Nat) : Chip :=
  ((c.rxTotals n len).addCnt (pPORT n) K.PORT_RX_OCTETS_GOOD len).count (pPORT n) K.PORT_RX_FRAMES_GOOD

/-- The kind of its destination, and a tag. -/
def Chip.rxKinds (c : Chip) (n : Nat) (bs : List Byte) : Chip :=
  let c := if bs.length < 6 then c else c.count (pPORT n) (K.PORT_RX_UNICAST + castOf bs)
  if isTagType (beAt bs 12 2) then c.count (pPORT n) K.PORT_RX_TAGGED else c

theorem Sorted.rxKinds {n : Nat} {c d : Chip} (h : Sorted n c d) (bs : List Byte) : Sorted n c (d.rxKinds n bs) :=
  (h.unless fun h => h.count (sorts_castOf bs)).when fun h => h.count rfl

section
variable {n : Nat} {c d : Chip} (h : Sorted n c d) (bs : List Byte) {maxLen : Nat} {e : RxEnd}
include h

theorem Sorted.rxTotals (len : Nat) : Sorted n (c.rxTotals n len) (d.rxTotals n len) := (h.addCnt_both _ _).count_both _

/-- A bad frame counts in the totals, and in counters that single out frames. -/
theorem Sorted.rxStats_bad (he : macError n (bs.length + 4) maxLen e ≠ none) :
    Sorted n (c.rxTotals n (bs.length + 4)) (d.rxStats n bs e maxLen) := by
  unfold Chip.rxStats
  extract_lets p len c₁ c₂ c₃
  have g : Sorted n (c.rxTotals n (bs.length + 4)) c₃ := (h.rxTotals _).rxKinds bs
  split
  · exact (g.when fun h => h.count rfl).when fun h => h.count rfl
  next hnone => exact absurd hnone he

/-- A good frame counts in the totals of the good ones too. -/
theorem Sorted.rxStats_good (he : macError n (bs.length + 4) maxLen e = none) :
    Sorted n (c.rxGood n (bs.length + 4)) (d.rxStats n bs e maxLen) := by
  unfold Chip.rxStats
  extract_lets p len c₁ c₂ c₃ c₄
  have g : Sorted n (c.rxTotals n (bs.length + 4)) c₃ := (h.rxTotals _).rxKinds bs
  split
  next hsome =>
    rw [hsome] at he
    cases he
  next => exact ((g.addCnt_both _ _).count_both _).count (sorts_lengthBin _)

end

/-! ## What the totals read -/

section
variable (c : Chip) (n len : Nat)

@[simp] theorem Chip.queues_rxTotals : (c.rxTotals n len).queues = c.queues := by simp [Chip.rxTotals, Chip.count]
@[simp] theorem Chip.nextFid_rxTotals : (c.rxTotals n len).nextFid = c.nextFid := by simp [Chip.rxTotals, Chip.count]
@[simp] theorem Chip.queues_rxGood : (c.rxGood n len).queues = c.queues := by simp [Chip.rxGood, Chip.count]

theorem Chip.cntAt_rxTotals_frames :
    (c.rxTotals n len).cntAt (cntKey (pPORT n) K.PORT_RX_FRAMES) = c.cntAt (cntKey (pPORT n) K.PORT_RX_FRAMES) + 1 := by
  rw [Chip.rxTotals, Chip.cntAt_count_same, Chip.cntAt_addCnt_slot _ _ _ (by decide)]

theorem Chip.cntAt_rxTotals_octets :
    (c.rxTotals n len).cntAt (cntKey (pPORT n) K.PORT_RX_OCTETS) = c.cntAt (cntKey (pPORT n) K.PORT_RX_OCTETS) + BitVec.ofNat 48 len := by
  rw [Chip.rxTotals, Chip.count, Chip.cntAt_addCnt_slot _ _ _ (by decide), Chip.cntAt_addCnt_same]

theorem Chip.cntAt_rxTotals_other {i : Nat} (ho : i ≠ K.PORT_RX_OCTETS) (hf : i ≠ K.PORT_RX_FRAMES) :
    (c.rxTotals n len).cntAt (cntKey (pPORT n) i) = c.cntAt (cntKey (pPORT n) i) := by
  rw [Chip.rxTotals, Chip.count, Chip.cntAt_addCnt_slot _ _ _ hf, Chip.cntAt_addCnt_slot _ _ _ ho]

theorem Chip.cntAt_rxGood_framesGood :
    (c.rxGood n len).cntAt (cntKey (pPORT n) K.PORT_RX_FRAMES_GOOD) = c.cntAt (cntKey (pPORT n) K.PORT_RX_FRAMES_GOOD) + 1 := by
  rw [Chip.rxGood, Chip.cntAt_count_same, Chip.cntAt_addCnt_slot _ _ _ (by decide), Chip.cntAt_rxTotals_other _ _ _ (by decide) (by decide)]

theorem Chip.cntAt_rxGood_pause : (c.rxGood n len).cntAt (cntKey (pPORT n) K.PORT_PAUSE_RX) = c.cntAt (cntKey (pPORT n) K.PORT_PAUSE_RX) := by
  rw [Chip.rxGood, Chip.count, Chip.cntAt_addCnt_slot _ _ _ (by decide), Chip.cntAt_addCnt_slot _ _ _ (by decide),
    Chip.cntAt_rxTotals_other _ _ _ (by decide) (by decide)]

end

/-! ## The end of a frame (R60, R73) -/

section
variable {n : Nat} {c d : Chip} (h : Sorted n c d) (bs : List Byte) {e : RxEnd} (f : Frame)
include h

/-- A bad frame counts in the totals and among the errors, and nothing else comes of it. -/
theorem Sorted.rxWhole_bad (hassy : e ≠ .assyError) (he : macError n (bs.length + 4) f.maxLen e ≠ none) :
    Sorted n ((c.rxTotals n (bs.length + 4)).count (pPORT n) K.PORT_RX_ERR) (d.rxWhole n bs e f).1 := by
  have g := (h.rxStats_bad bs he).count_both K.PORT_RX_ERR
  rw [Chip.rxWhole, if_neg hassy]
  dsimp only
  split
  next sub hsub =>
    unfold Chip.rxError
    cases sub with
    | some k => exact g.count (sorts_macError hsub)
    | none => exact g
  next hnone => exact absurd hnone he

/-- A good PAUSE frame ends at the MAC. -/
theorem Sorted.rxWhole_pause (he : macError n (bs.length + 4) f.maxLen .good = none) (hp : beAt bs 12 2 = etPAUSE) :
    Sorted n ((c.rxGood n (bs.length + 4)).count (pPORT n) K.PORT_PAUSE_RX) (d.rxWhole n bs .good f).1 := by
  rw [Chip.rxWhole, if_neg nofun]
  dsimp only
  rw [he]
  dsimp only
  rw [if_pos hp]
  exact (h.rxStats_good bs he).count_both _

omit h in
/-- Any other good frame that no SecY verifies enters the parser and Bridle after its statistics. -/
theorem Chip.rxWhole_good (he : macError n (bs.length + 4) f.maxLen .good = none) (hp : beAt bs 12 2 ≠ etPAUSE) (hplan : f.plan = none) :
    (d.rxWhole n bs .good f).1 = (d.rxStats n bs .good f.maxLen).ingestWhole { f with bytes := bs, raw := [] } := by
  rw [Chip.rxWhole, if_neg nofun]
  dsimp only
  rw [he]
  dsimp only
  rw [if_neg hp, hplan]
  rfl

end

/-! ## Reception -/

section
variable (c : Chip) (n : Nat) (node : Option Nat) (began : Nat)

/-- The opportunity that follows a node's frame is the state of its port alone. -/
theorem Chip.plcaHeard_eq : ∃ ps, c.plcaHeard n node began = { c with ports := ps } := by
  unfold Chip.plcaHeard
  dsimp only
  split
  · exact ⟨_, rfl⟩
  · exact ⟨c.ports, rfl⟩

@[simp] theorem Chip.queues_plcaHeard : (c.plcaHeard n node began).queues = c.queues := by
  obtain ⟨ps, h⟩ := c.plcaHeard_eq n node began
  rw [h]

@[simp] theorem Chip.nextFid_plcaHeard : (c.plcaHeard n node began).nextFid = c.nextFid := by
  obtain ⟨ps, h⟩ := c.plcaHeard_eq n node began
  rw [h]

@[simp] theorem Chip.cntAt_plcaHeard (k : Nat) : (c.plcaHeard n node began).cntAt k = c.cntAt k := by
  obtain ⟨ps, h⟩ := c.plcaHeard_eq n node began
  rw [h]
  rfl

end

theorem Chip.rxAbandon_idle (c : Chip) (n : Nat) (hx : c.rxOf n = none) : c.rxAbandon n = c := by
  rw [Chip.rxAbandon, hx]

section
variable (c : Chip) {n : Nat} (hw : isWire n = true) (hr : c.receives n = true) (hx : c.rxOf n = none) (bs : List Byte) (node : Option Nat)
  (o : RingOrigin) (frags ago : Nat)
include hw hr hx

/-- A whole frame at a port of the wire that is receiving no other: its start is heard, its fragments count, its end is judged. -/
theorem Chip.receive_whole (e : RxEnd) : ∃ b, Sorted n c b ∧ c.receive n (.whole bs e) node o frags ago =
    (b.rxWhole n bs e (c.rxFrame n bs node o ago)).1.plcaHeard n (c.rxFrame n bs node o ago).node (c.rxFrame n bs node o ago).began := by
  have hheard : Sorted n c (c.hear n) := .hear c n
  have hb : Sorted n c ((c.hear n).addCnt (pPORT n) K.PORT_PREEMPT_FRAG_RX frags) := hheard.addCnt rfl frags
  have hT : isT n = false := by
    have : n < 28 := of_decide_eq_true hw
    exact decide_eq_false (by omega)
  refine ⟨_, hb, ?_⟩
  rw [Chip.receive, if_pos hr, Chip.rxAbandon_idle _ _ ((hheard.rxOf n).trans hx)]
  dsimp only
  rw [hb.rxFrame, Chip.oweCredit, hT]
  rfl

/-- A bad frame is counted and goes no further. -/
theorem Chip.receive_bad (e : RxEnd) (hassy : e ≠ .assyError)
    (he : macError n (bs.length + 4) (c.get (pPORT n) F.PORT_MAC_CFG_MAX_LEN) e ≠ none) :
    let d := c.receive n (.whole bs e) node o frags ago
    d.queues = c.queues ∧ d.nextFid = c.nextFid
      ∧ d.cntAt (cntKey (pPORT n) K.PORT_RX_ERR) = c.cntAt (cntKey (pPORT n) K.PORT_RX_ERR) + 1
      ∧ d.cntAt (cntKey (pPORT n) K.PORT_RX_FRAMES) = c.cntAt (cntKey (pPORT n) K.PORT_RX_FRAMES) + 1
      ∧ d.cntAt (cntKey (pPORT n) K.PORT_RX_OCTETS) = c.cntAt (cntKey (pPORT n) K.PORT_RX_OCTETS) + BitVec.ofNat 48 (bs.length + 4)
      ∧ d.cntAt (cntKey (pPORT n) K.PORT_RX_FRAMES_GOOD) = c.cntAt (cntKey (pPORT n) K.PORT_RX_FRAMES_GOOD) := by
  obtain ⟨b, hb, heq⟩ := c.receive_whole hw hr hx bs node o frags ago e
  have hd := hb.rxWhole_bad bs (c.rxFrame n bs node o ago) hassy he
  rw [heq]
  simp only [Chip.queues_plcaHeard, Chip.nextFid_plcaHeard, Chip.cntAt_plcaHeard]
  refine ⟨by simp [hd.queues, Chip.count], by simp [hd.nextFid, Chip.count],
    (hd.kept _ rfl).trans ?_, (hd.kept _ rfl).trans ?_, (hd.kept _ rfl).trans ?_, (hd.kept _ rfl).trans ?_⟩
  · rw [Chip.cntAt_count_same, Chip.cntAt_rxTotals_other _ _ _ (by decide) (by decide)]
  · rw [Chip.count, Chip.cntAt_addCnt_slot _ _ _ (by decide), Chip.cntAt_rxTotals_frames]
  · rw [Chip.count, Chip.cntAt_addCnt_slot _ _ _ (by decide), Chip.cntAt_rxTotals_octets]
  · rw [Chip.count, Chip.cntAt_addCnt_slot _ _ _ (by decide), Chip.cntAt_rxTotals_other _ _ _ (by decide) (by decide)]

/-- A PAUSE frame counts as a good one and ends at the MAC. -/
theorem Chip.receive_pause (he : macError n (bs.length + 4) (c.get (pPORT n) F.PORT_MAC_CFG_MAX_LEN) .good = none)
    (hp : beAt bs 12 2 = etPAUSE) :
    let d := c.receive n (.whole bs .good) node o frags ago
    d.queues = c.queues ∧ d.cntAt (cntKey (pPORT n) K.PORT_PAUSE_RX) = c.cntAt (cntKey (pPORT n) K.PORT_PAUSE_RX) + 1
      ∧ d.cntAt (cntKey (pPORT n) K.PORT_RX_FRAMES_GOOD) = c.cntAt (cntKey (pPORT n) K.PORT_RX_FRAMES_GOOD) + 1 := by
  obtain ⟨b, hb, heq⟩ := c.receive_whole hw hr hx bs node o frags ago .good
  have hd := hb.rxWhole_pause bs (c.rxFrame n bs node o ago) he hp
  rw [heq]
  simp only [Chip.queues_plcaHeard, Chip.cntAt_plcaHeard]
  refine ⟨by simp [hd.queues, Chip.count], (hd.kept _ rfl).trans ?_, (hd.kept _ rfl).trans ?_⟩
  · rw [Chip.cntAt_count_same, Chip.cntAt_rxGood_pause]
  · rw [Chip.count, Chip.cntAt_addCnt_slot _ _ _ (by decide), Chip.cntAt_rxGood_framesGood]

/-- Any other good frame of a port without a SecY enters the parser and Bridle after its statistics. -/
theorem Chip.receive_good (he : macError n (bs.length + 4) (c.get (pPORT n) F.PORT_MAC_CFG_MAX_LEN) .good = none)
    (hp : beAt bs 12 2 ≠ etPAUSE) (hsecy : c.secyAt n = none) :
    ∃ (a : Chip) (f : Frame), c.receive n (.whole bs .good) node o frags ago = (a.ingestWhole f).plcaHeard n f.node f.began
      ∧ f.bytes = bs ∧ f.ingress = n ∧ f.origin = n ∧ f.stamp = c.rxStamp n ago ∧ a.queues = c.queues
      ∧ a.cntAt (cntKey (pPORT n) K.PORT_RX_FRAMES_GOOD) = c.cntAt (cntKey (pPORT n) K.PORT_RX_FRAMES_GOOD) + 1 := by
  obtain ⟨b, hb, heq⟩ := c.receive_whole hw hr hx bs node o frags ago .good
  have hplan : (c.rxFrame n bs node o ago).plan = none := by
    change c.macPlan n bs = none
    rw [Chip.macPlan, hsecy]
  have ha := hb.rxStats_good bs he
  rw [Chip.rxWhole_good bs _ he hp hplan] at heq
  exact ⟨_, { c.rxFrame n bs node o ago with bytes := bs, raw := [] }, heq, rfl, rfl, rfl, rfl, ha.queues.trans (c.queues_rxGood ..),
    (ha.kept _ rfl).trans (c.cntAt_rxGood_framesGood ..)⟩

omit hw hx in
/-- The partner's response makes verification succeed. -/
theorem Chip.receive_verifyResponse (hn : n < 28) (hs : c.linkState n = lsUp) (hv : c.get (pPORT n) F.PORT_PREEMPT_STATUS_VERIFY = 2) :
    (c.receive n .verifyResponse node o frags ago).get (pPORT n) F.PORT_PREEMPT_STATUS_VERIFY = 3 := by
  rw [Chip.receive, if_pos hr, Chip.verifyOk, if_pos ⟨hs, hv⟩]
  exact c.get_put_same 3 (pageValid_pPORT hn) rfl rfl

omit hw in
/-- The first bytes of a frame, too few to decide it, are kept. -/
theorem Chip.receive_head (hlen : bs.length < 128) :
    let d := c.receive n (.head bs) node o frags ago
    (d.rxOf n).map (fun f => f.raw) = some bs ∧ d.queues = c.queues := by
  have hheard : Sorted n c (c.hear n) := .hear c n
  rw [Chip.receive, if_pos hr, Chip.rxAbandon_idle _ _ ((hheard.rxOf n).trans hx)]
  dsimp only
  rw [hheard.rxFrame, Chip.rxHead, if_pos (Or.inl hlen)]
  refine ⟨?_, hheard.queues⟩
  rw [Chip.rxOf, Chip.setRx, lookupD_store_same]
  rfl

end

/-- Settles O9: the end of a frame is judged once its start has been heard and its fragments counted. -/
theorem frameReceptions : Obligations.FrameReceptions := by
  intro s dt n bs e node o frags ago c cnt maxLen hw hr
  exact ⟨fun hx hassy he => .of_run rfl (c.receive_bad hw hr hx bs node o frags ago e hassy (Option.isSome_iff_ne_none.mp he)),
    fun hx he hp => .of_run rfl (c.receive_pause hw hr hx bs node o frags ago he hp),
    fun hx he hp hsecy => .of_run rfl (c.receive_good hw hr hx bs node o frags ago he hp hsecy),
    fun hs hv => .of_run rfl (c.receive_verifyResponse hr node o frags ago (of_decide_eq_true hw) hs hv),
    fun hx hlen => .of_run rfl (c.receive_head hr hx bs node o frags ago hlen)⟩

end Sys2Proof.Machine

/-! Ageing, flush and rebuild (R88, R105, R112): what a pass over the forwarding database makes of each entry, and what ends a rebuild. -/

namespace Sys2Proof.Machine

open Sys2Proof

/-! ## Words of the acting bank -/

theorem exists_mem_of_lookupD_ne {α : Type} {d : α} {m : List (Nat × α)} {k : Nat} (h : lookupD d m k ≠ d) : ∃ v, (k, v) ∈ m := by
  induction m with
  | nil => exact absurd rfl h
  | cons e m ih =>
    obtain ⟨a, v⟩ := e
    by_cases hk : a = k
    · exact ⟨v, by simp [hk]⟩
    · obtain ⟨u, hu⟩ := ih (by simpa [lookupD, hk] using h)
      exact ⟨u, List.mem_cons_of_mem _ hu⟩

section
variable (c : Chip) {p : Page} {t i n : Nat}

theorem Chip.tword_setTword (w : Word) {k : Nat} (hp : pageValid p = true) (ht : t < 16) (hi : i < 2 ^ 20) (hn : n < 128) :
    (c.setTword p t i k w).tword p t i n = if n = k then w else c.tword p t i n := by
  split
  next h =>
    subst h
    rw [Chip.setTword, Chip.tword, ← tblDefault_tblKey hp ht hi hn, lookupD_store_same]
  next h => exact lookupD_store_other _ _ _ _ (by unfold tblKey; omega)

theorem Chip.tword_setTword_entry (w : Word) {j k : Nat} (hn : n < 128) (hk : k < 128) (h : i ≠ j) :
    (c.setTword p t j k w).tword p t i n = c.tword p t i n :=
  lookupD_store_other _ _ _ _ (by unfold tblKey; omega)

/-- A field of an entry that has been replaced. -/
theorem Chip.tget_tput_same {f : TFld} (v : Nat) (hp : pageValid p = true) (ht : t < 16) (hi : i < 2 ^ 20) (hf : f.word < 128)
    (h : f.lo + f.width ≤ 32) : (c.tput p t i f v).tget p t i f = v % 2 ^ f.width := by
  rw [Chip.tget, Chip.tput, Chip.tword_setTword _ _ hp ht hi hf, if_pos rfl, bitsAt_putBits_same _ _ h]

/-- A field beside one that has been replaced in the same word. -/
theorem Chip.tget_tput_beside {f g : TFld} (v : Nat) (hp : pageValid p = true) (ht : t < 16) (hi : i < 2 ^ 20) (hf : f.word < 128)
    (hw : f.word = g.word) (h : f.lo + f.width ≤ g.lo ∨ g.lo + g.width ≤ f.lo) : (c.tput p t i g v).tget p t i f = c.tget p t i f := by
  rw [Chip.tget, Chip.tput, Chip.tword_setTword _ _ hp ht hi hf, if_pos hw, bitsAt_putBits_other _ _ h, ← hw, Chip.tget]

/-- An entry that differs from its reset value is among those that a pass over the table visits. -/
theorem Chip.mem_tblIndices (hi : i < 2 ^ 20) (hn : n < 128) (h : c.tword p t i n ≠ tblReset p t i n) : i ∈ tblIndices c.tblA p t := by
  obtain ⟨v, hv⟩ := exists_mem_of_lookupD_ne h
  rw [tblIndices, List.mem_eraseDups]
  exact List.mem_map.2 ⟨_, List.mem_filter.2 ⟨hv, by simp [tblPageTable_tblKey hi hn]⟩, index_tblKey hi hn⟩

end

theorem nodup_eraseDups {α : Type} [BEq α] [LawfulBEq α] (l : List α) : l.eraseDups.Nodup := by
  match l with
  | [] => simp
  | a :: l =>
    rw [List.eraseDups_cons, List.nodup_cons]
    exact ⟨by simp, nodup_eraseDups _⟩
termination_by l.length
decreasing_by simpa [Nat.lt_succ_iff] using List.length_filter_le ..

/-- A pass visits no entry twice. -/
theorem nodup_tblIndices (bank : List (Nat × Word)) (p : Page) (t : Nat) : (tblIndices bank p t).Nodup := nodup_eraseDups _

/-! ## One entry of the FDB -/

/-- Entry `i` of the FDB holds the same words in both chips. -/
def SameEntry (i : Nat) (c d : Chip) : Prop := ∀ w, w < 8 → d.tword pFDB 0 i w = c.tword pFDB 0 i w

section
variable {i : Nat} {c d e : Chip}

theorem SameEntry.refl (i : Nat) (c : Chip) : SameEntry i c c := fun _ _ => rfl

theorem SameEntry.trans (h : SameEntry i c d) (g : SameEntry i d e) : SameEntry i c e := fun w hw => (g w hw).trans (h w hw)

theorem SameEntry.same (h : SameEntry i c d) (he : e.tblA = d.tblA) : SameEntry i c e := fun w hw => by
  rw [← h w hw, Chip.tword, he, Chip.tword]

theorem SameEntry.tget (h : SameEntry i c d) {f : TFld} (hf : f.word < 8) : d.tget pFDB 0 i f = c.tget pFDB 0 i f := by
  rw [Chip.tget, h _ hf, Chip.tget]

theorem SameEntry.tis (h : SameEntry i c d) {f : TFld} (hf : f.word < 8) : d.tis pFDB 0 i f = c.tis pFDB 0 i f := by
  rw [Chip.tis, h.tget hf, Chip.tis]

@[simp] theorem Chip.tis_count (c : Chip) (p q : Page) (k t i : Nat) (f : TFld) : (c.count p k).tis q t i f = c.tis q t i f := rfl

/-- A valid entry is one that a pass visits. -/
theorem Chip.mem_tblIndices_of_valid (hi : i < 2 ^ 20) (h : c.tis pFDB 0 i fFdbValid = true) : i ∈ tblIndices c.tblA pFDB 0 := by
  refine c.mem_tblIndices (n := fFdbValid.word) hi (by decide) fun hw => ?_
  rw [Chip.tis, Chip.tget, hw, show tblReset pFDB 0 i fFdbValid.word = 0 from rfl] at h
  exact absurd h (by decide)

end

theorem SameEntry.tput {i j : Nat} (c : Chip) (f : TFld) (v : Nat) (hf : f.word < 8) (h : i ≠ j) : SameEntry i c (c.tput pFDB 0 j f v) :=
  fun _ hw => c.tword_setTword_entry _ (by omega) (by omega) h

/-! ## A pass over the entries -/

section
variable {i : Nat} {f : Chip → Nat → Chip} (hf : ∀ d j, i ≠ j → SameEntry i d (f d j))
include hf

/-- A pass leaves the entries that it does not visit. -/
theorem SameEntry.foldl_of_notMem {l : List Nat} (c : Chip) (h : i ∉ l) : SameEntry i c (l.foldl f c) := by
  induction l generalizing c with
  | nil => exact .refl i c
  | cons j l ih =>
    obtain ⟨hj, hl⟩ := List.ne_and_not_mem_of_not_mem_cons h
    exact (hf c j hj).trans (ih _ hl)

/-- A pass that visits an entry once treats it as the pass found it. -/
theorem SameEntry.foldl_of_mem {l : List Nat} (c : Chip) (hl : l.Nodup) (h : i ∈ l) :
    ∃ d, SameEntry i c d ∧ SameEntry i (f d i) (l.foldl f c) := by
  obtain ⟨before, after, rfl⟩ := List.append_of_mem h
  obtain ⟨hi, -⟩ := List.nodup_cons.1 (List.nodup_middle.1 hl)
  rw [List.mem_append, not_or] at hi
  refine ⟨before.foldl f c, .foldl_of_notMem hf c hi.1, ?_⟩
  rw [List.foldl_append, List.foldl_cons]
  exact .foldl_of_notMem hf _ hi.2

end

/-! ## An entry emptied -/

theorem Chip.tword_fdbErase (c : Chip) {i w : Nat} (hi : i < 2 ^ 20) (hw : w < 8) : (c.fdbErase i).tword pFDB 0 i w = 0 := by
  have hfold : ∀ (l : List Nat) (d : Chip), (l.foldl (fun (d : Chip) k => d.setTword pFDB 0 i k 0) d).tword pFDB 0 i w =
      if w ∈ l then 0 else d.tword pFDB 0 i w := by
    intro l
    induction l with
    | nil => simp
    | cons k l ih =>
      intro d
      rw [List.foldl_cons, ih, Chip.tword_setTword _ _ rfl (by decide) hi (by omega)]
      by_cases hk : w = k <;> simp [hk]
  rw [Chip.fdbErase, hfold, if_pos (by simpa using hw)]

theorem Chip.tis_fdbErase (c : Chip) {i : Nat} {f : TFld} (hi : i < 2 ^ 20) (hf : f.word < 8) : (c.fdbErase i).tis pFDB 0 i f = false := by
  rw [Chip.tis, Chip.tget, c.tword_fdbErase hi hf]
  simp [bitsAt]

theorem SameEntry.fdbErase {i j : Nat} (c : Chip) (h : i ≠ j) : SameEntry i c (c.fdbErase j) := by
  intro w hw
  have hfold : ∀ l : List Nat, (∀ k ∈ l, k < 8) → ∀ d : Chip,
      (l.foldl (fun (d : Chip) k => d.setTword pFDB 0 j k 0) d).tword pFDB 0 i w = d.tword pFDB 0 i w := by
    intro l
    induction l with
    | nil => exact fun _ _ => rfl
    | cons k l ih =>
      intro hl d
      obtain ⟨hk, hl⟩ := List.forall_mem_cons.1 hl
      rw [List.foldl_cons, ih hl, Chip.tword_setTword_entry _ _ (by omega) (by omega) h]
  exact hfold _ (fun k hk => List.mem_range.1 hk) c

/-! ## Ageing (R88) -/

/-- What an ageing pass makes of one entry. -/
def Chip.ageEntry (c : Chip) (i : Nat) : Chip :=
  if ¬ c.tis pFDB 0 i fFdbValid then c
  else if ¬ c.tis pFDB 0 i fFdbStatic ∧ ¬ c.tis pFDB 0 i fFdbHit then (c.fdbErase i).count pFDB K.FDB_AGED_OUT
  else c.tput pFDB 0 i fFdbHit 0

theorem Chip.agePass_eq (c : Chip) : c.agePass = (tblIndices c.tblA pFDB 0).foldl Chip.ageEntry c := rfl

theorem SameEntry.ageEntry {i j : Nat} (c : Chip) (h : i ≠ j) : SameEntry i c (c.ageEntry j) := by
  unfold Chip.ageEntry
  split
  · exact .refl i c
  · split
    · exact .same (.fdbErase c h) rfl
    · exact .tput c _ _ (by decide) h

/-- A valid entry is emptied where it is dynamic and was not hit, else its HIT bit is cleared. -/
theorem Chip.ageEntry_of_valid {c : Chip} {i : Nat} (hi : i < 2 ^ 20) (hv : c.tis pFDB 0 i fFdbValid = true) :
    (c.ageEntry i).tis pFDB 0 i fFdbHit = false
      ∧ (c.ageEntry i).tis pFDB 0 i fFdbValid = (c.tis pFDB 0 i fFdbStatic || c.tis pFDB 0 i fFdbHit) := by
  rw [Chip.ageEntry, if_neg (not_not_intro hv)]
  split
  next h =>
    have hkeep : (c.tis pFDB 0 i fFdbStatic || c.tis pFDB 0 i fFdbHit) = false := by simpa using h
    rw [Chip.tis_count, Chip.tis_count, hkeep]
    exact ⟨c.tis_fdbErase hi (by decide), c.tis_fdbErase hi (by decide)⟩
  next h =>
    have hkeep : (c.tis pFDB 0 i fFdbStatic || c.tis pFDB 0 i fFdbHit) = true := by simpa [or_iff_not_imp_left] using h
    have hhit := c.tget_tput_same (p := pFDB) (t := 0) (f := fFdbHit) 0 rfl (by decide) hi (by decide) (by decide)
    have hvalid := c.tget_tput_beside (p := pFDB) (t := 0) (f := fFdbValid) (g := fFdbHit) 0 rfl (by decide) hi (by decide) rfl (by decide)
    rw [hkeep, ← hv, Chip.tis, hhit, Chip.tis, hvalid, Chip.tis]
    exact ⟨rfl, rfl⟩

/-- R88: a pass clears the HIT bit of every valid entry and leaves valid those that are static or were hit. -/
theorem Chip.tis_agePass (c : Chip) {i : Nat} (hi : i < 2 ^ 20) :
    (c.tis pFDB 0 i fFdbValid = true → c.agePass.tis pFDB 0 i fFdbHit = false)
      ∧ c.agePass.tis pFDB 0 i fFdbValid = (c.tis pFDB 0 i fFdbValid && (c.tis pFDB 0 i fFdbStatic || c.tis pFDB 0 i fFdbHit)) := by
  rw [Chip.agePass_eq]
  have hother : ∀ d j, i ≠ j → SameEntry i d (Chip.ageEntry d j) := fun d _ => .ageEntry d
  by_cases hl : i ∈ tblIndices c.tblA pFDB 0
  · obtain ⟨d, hd, hdone⟩ := SameEntry.foldl_of_mem hother c (nodup_tblIndices ..) hl
    rw [hdone.tis (by decide), hdone.tis (by decide), ← hd.tis (f := fFdbValid) (by decide), ← hd.tis (f := fFdbStatic) (by decide),
      ← hd.tis (f := fFdbHit) (by decide)]
    cases hv : d.tis pFDB 0 i fFdbValid with
    | true =>
      obtain ⟨hhit, hvalid⟩ := Chip.ageEntry_of_valid hi hv
      exact ⟨fun _ => hhit, by simpa using hvalid⟩
    | false => simp [Chip.ageEntry, hv]
  · have hv : c.tis pFDB 0 i fFdbValid = false := Bool.eq_false_iff.2 fun h => hl (Chip.mem_tblIndices_of_valid hi h)
    simp [hv, (SameEntry.foldl_of_notMem hother c hl).tis (f := fFdbValid)]

/-! ## Flush (R112) -/

/-- What the end of a flush makes of one entry. -/
def Chip.flushEntry (v : Word) (c : Chip) (i : Nat) : Chip := if c.flushMatches v i then c.fdbErase i else c

/-- The chip after a flush pass, no flush running. -/
def Chip.flushed (c : Chip) (v : Word) : Chip := { (tblIndices c.tblA pFDB 0).foldl (Chip.flushEntry v) c with flush := none }

theorem Chip.flushDone_eq {c : Chip} {v : Word} (h : c.flush = some v) : c.flushDone = (c.flushed v).raise pFDB E.FDB_FLUSH_DONE := by
  rw [Chip.flushDone, h]
  rfl

theorem SameEntry.flushEntry {i j : Nat} (v : Word) (c : Chip) (h : i ≠ j) : SameEntry i c (c.flushEntry v j) := by
  unfold Chip.flushEntry
  split
  · exact .fdbErase c h
  · exact .refl i c

theorem SameEntry.flushMatches {i : Nat} {c d : Chip} (h : SameEntry i c d) (v : Word) : d.flushMatches v i = c.flushMatches v i := by
  simp [Chip.flushMatches, h.tis, h.tget]

/-- R112: a flush empties the entries that match its request and leaves the others. -/
theorem Chip.entry_flushed (c : Chip) (v : Word) {i : Nat} (hi : i < 2 ^ 20) :
    (c.flushMatches v i = true → (c.flushed v).tis pFDB 0 i fFdbValid = false)
      ∧ (c.flushMatches v i = false → SameEntry i c (c.flushed v)) := by
  have hother : ∀ d j, i ≠ j → SameEntry i d (Chip.flushEntry v d j) := fun d _ => .flushEntry v d
  by_cases hl : i ∈ tblIndices c.tblA pFDB 0
  · obtain ⟨d, hd, hdone⟩ := SameEntry.foldl_of_mem hother c (nodup_tblIndices ..) hl
    rw [Chip.flushEntry, hd.flushMatches] at hdone
    refine ⟨fun h => ?_, fun h => ?_⟩
    · rw [if_pos h] at hdone
      exact (hdone.tis (by decide)).trans (d.tis_fdbErase hi (by decide))
    · rw [if_neg (ne_true_of_eq_false h)] at hdone
      exact hd.trans hdone
  · refine ⟨fun h => ?_, fun _ => .foldl_of_notMem hother c hl⟩
    simp only [Chip.flushMatches, Bool.and_eq_true] at h
    obtain ⟨⟨⟨hv, -⟩, -⟩, -⟩ := h
    exact absurd (Chip.mem_tblIndices_of_valid hi hv) hl

/-! ## The commands -/

/-- The chip after an ageing pass, the next ageing period running from `t`. -/
def Chip.agedAt (c : Chip) (t : Nat) : Chip := { c.agePass with ageAt := t }

@[simp] theorem Chip.ageAt_agedAt (c : Chip) (t : Nat) : (c.agedAt t).ageAt = t := rfl

@[simp] theorem Chip.tis_agedAt (c : Chip) (t : Nat) (p : Page) (k i : Nat) (f : TFld) : (c.agedAt t).tis p k i f = c.agePass.tis p k i f := rfl

/-- R88: at the end of an ageing period its pass is made, and the next period begins. -/
theorem Chip.ageingPass_due {c : Chip} {period : Nat} (hready : c.ready pFDB = true)
    (hperiod : secCycles (c.get pFDB F.FDB_FDB_CFG_AGE_TIME) = period) (hne : period ≠ 0) (hdue : c.ageAt + period ≤ c.cycles) :
    c.ageingPass = c.agedAt (c.ageAt + period) := by
  subst hperiod
  rw [Chip.ageingPass]
  exact if_pos ⟨hready, hne, hdue⟩

theorem Chip.ageingPass_shown {c : Chip} {period : Nat} (hready : c.ready pFDB = true)
    (hperiod : secCycles (c.get pFDB F.FDB_FDB_CFG_AGE_TIME) = period) (hne : period ≠ 0) (hdue : c.ageAt + period ≤ c.cycles) :
    let d := c.ageingPass
    d.ageAt = c.ageAt + period ∧ ∀ i, i < 32768 → (c.tis pFDB 0 i fFdbValid = true → d.tis pFDB 0 i fFdbHit = false)
      ∧ d.tis pFDB 0 i fFdbValid = (c.tis pFDB 0 i fFdbValid && (c.tis pFDB 0 i fFdbStatic || c.tis pFDB 0 i fFdbHit)) := by
  rw [Chip.ageingPass_due hready hperiod hne hdue]
  exact ⟨c.ageAt_agedAt _, fun i hi => by simpa using c.tis_agePass (i := i) (by omega)⟩

/-- A flush request is kept until the flush is done; no entry changes before. -/
theorem Chip.fdbFlush_starts {c : Chip} {v : Word} (hstart : v.getLsbD 31 = true) (h : c.flush = none) :
    c.fdbFlush v = { c with flush := some v } := by
  rw [Chip.fdbFlush]
  exact if_pos ⟨hstart, by rw [h]; rfl⟩

/-- R105: the end of a rebuild sets the fabric going again. -/
theorem Chip.rebuildDone_shown {c : Chip} (h : c.is pFAB F.FAB_FAB_STATUS_REBUILD = true) :
    let d := c.rebuildDone
    d.is pFAB F.FAB_FAB_STATUS_REBUILD = false ∧ d.is pFAB F.FAB_FAB_STATUS_HALTED = false ∧ d.latched pFAB E.FAB_REBUILD_DONE := by
  rw [Chip.rebuildDone, if_pos h]
  refine ⟨?_, ?_, Chip.latched_raise _ rfl (by decide)⟩
  · rw [Chip.is, Chip.get_raise _ rfl rfl (by decide), Chip.get_put_apart _ _ rfl rfl (by decide), Chip.get_put_same _ _ rfl (by decide) rfl]
    rfl
  · rw [Chip.is, Chip.get_raise _ rfl rfl (by decide), Chip.get_put_same _ _ rfl (by decide) rfl]
    rfl

/-- Settles O14: a pass over the database visits every valid entry once and changes no other with it. -/
theorem fdbUpkeep : Obligations.FdbUpkeep := by
  intro s dt req v c period
  refine ⟨fun hready hne hdue => .of_run rfl (Chip.ageingPass_shown hready rfl hne hdue), fun ht hstart hf => .of_run rfl ?_,
    fun hf => .of_run rfl ?_, fun hr => .of_run rfl (Chip.rebuildDone_shown hr)⟩
  case refine_1 =>
    rw [Chip.command_ok _ ht rfl, Chip.fdbFlush_starts hstart (by simpa using hf)]
    exact ⟨rfl, c.tblA_sequenced req⟩
  case refine_2 =>
    rw [Chip.flushDone_eq hf]
    refine ⟨Chip.flush_raise .., Chip.latched_raise _ rfl (by decide), fun i hi => ?_⟩
    obtain ⟨hmatch, hother⟩ := c.entry_flushed v (i := i) (by omega)
    have hraise := (SameEntry.refl i (c.flushed v)).same (Chip.tblA_raise _ pFDB E.FDB_FLUSH_DONE)
    exact ⟨fun h => (hraise.tis (by decide)).trans (hmatch h), fun h => (hother h).trans hraise⟩

end Sys2Proof.Machine

/-! The head of a queue (R145) against what the resequencer and the spill path leave of it (R97 to R99). Replacing a queue notes on the direct
copy at its head, the next to be sent, since when it stands there. Taking away the copy before it therefore changes the one behind, and two
statements that say exactly which copies stay fail there. -/

namespace Sys2Proof.Machine

open Sys2Proof

/-- What a command makes of the chip, where it completes as `P` says. -/
theorem Does.chip {i : Instr} {s : State} {dt : Nat} {f : Chip → Chip} {P : Chip → Prop} (h : Does i s P)
    (hi : exec i s = .next (s.run dt f)) : P (f (s.chip.pass dt)) := by
  obtain ⟨t, ht, -, -, hP⟩ := h
  rw [hi] at ht
  cases ht
  exact hP

/-! ## A queue replaced -/

@[simp] theorem Chip.queues_count (c : Chip) (p : Page) (i : Nat) : (c.count p i).queues = c.queues := rfl

theorem queue_congr {c d : Chip} (h : d.queues = c.queues) (q : Nat) : d.queue q = c.queue q := by
  rw [Chip.queue, h, Chip.queue]

/-- Replacing a queue sets what it expects as given. -/
@[simp] theorem Chip.expectedOf_setQueue (c : Chip) (q : Nat) (x : Queue) (ingress : Nat) :
    ((c.setQueue q x).queue q).expectedOf ingress = x.expectedOf ingress := by
  rw [Chip.setQueue, Chip.queue, lookupD_store_same]
  split
  · split <;> rfl
  · rfl

/-- A direct copy that comes to the head of its queue notes the cycle. -/
theorem Chip.items_setQueue_direct (c : Chip) (q : Nat) {x : Queue} {k : Copy} {ks : List Copy} (hready : x.ready = [])
    (hitems : x.items = k :: ks) (hk : k.direct = true) :
    ((c.setQueue q x).queue q).items = { k with head := some (k.head.getD c.cycles) } :: ks := by
  rw [Chip.setQueue, Chip.queue, lookupD_store_same]
  simp [hready, hitems, hk, noteHead]

/-! ## A chip at reset but for one queue -/

/-- Reset, with some copies in queue `q`. -/
def State.holding (q : Nat) (items : List Copy) : State :=
  { State.reset with chip := { State.reset.chip with queues := [(q, { items := items })] } }

section
variable (q : Nat) (items : List Copy)

theorem State.queue_holding (dt : Nat) : ((State.holding q items).chip.pass dt).queue q = { items := items } := by
  rw [Chip.queue, Chip.queues_pass]
  simp [State.holding, lookupD]

/-- Class 3 is a bulk class at reset. -/
theorem State.heldClass_holding (dt : Nat) : ((State.holding q items).chip.pass dt).heldClass 3 = false := by
  rw [Chip.heldClass, Chip.get_pass _ _ rfl (by decide) (by decide), get_congr (c := State.reset.chip) (d := (State.holding q items).chip) rfl]
  decide

theorem State.cycles_holding : ((State.holding q items).chip.pass 0).cycles = 0 := by
  rw [Chip.cycles_pass]
  rfl

end

/-! ## A late copy before a direct one (R99) -/

theorem Chip.judgeCopy_late {c : Chip} {q : Nat} {k : Copy} (h : 32767 < seqAhead k.seq ((c.queue q).expectedOf k.ingress)) :
    c.judgeCopy q k = c.lateCopy q k := by
  rw [Chip.judgeCopy, if_neg (by omega), if_pos h]

/-- A copy whose number lies behind leaves its queue and is counted. -/
theorem Chip.windowEntry_late {c : Chip} {egress cls q : Nat} {x : Queue} {k : Copy} (hq : qIndex egress cls = q) (hx : c.queue q = x)
    (hk : x.toWindow.find? Copy.present = some k) (hlate : 32767 < seqAhead k.seq (x.expectedOf k.ingress)) :
    c.windowEntry egress cls = (c.setQueue q { x with items := x.items.filter fun j => j ≠ k }).lateCopy q k := by
  subst hq hx
  rw [Chip.windowEntry, hk]
  simp only
  rw [if_neg fun ⟨_, hwaits, _⟩ => hwaits.not_gt hlate]
  exact Chip.judgeCopy_late (by rwa [Chip.expectedOf_setQueue])

theorem Chip.queues_lateCopy (c : Chip) (q : Nat) {k : Copy} (h : k.multi = false) : (c.lateCopy q k).queues = c.queues := by
  rw [Chip.lateCopy, Chip.refuseCopy, if_neg (ne_true_of_eq_false h)]
  rfl

/-- A bulk copy whose number lies behind, and a copy that took no number and leaves its queue without the resequencer. -/
def lateOne : Copy :=
  { fid := 0, bytes := [], ingress := 0, origin := 0, egress := 5, cls := 3, seq := 65535, regime := .bulk, vid := 0, pcp := 0 }
def directOne : Copy := { lateOne with fid := 1, seq := 0, regime := .outside }

/-- Refutes O12: once the late copy before a direct one is discarded, the direct copy stands at the head of its queue and notes the cycle
(R145), so that the queue's items are not those that were there before. -/
theorem not_reorderWindow : ¬ Obligations.ReorderWindow := by
  intro h
  have hqueue : ((State.holding 43 [lateOne, directOne]).chip.pass 0).queue (qIndex 5 3) = { items := [lateOne, directOne] } :=
    State.queue_holding ..
  have hfind : ({ items := [lateOne, directOne] } : Queue).toWindow.find? Copy.present = some lateOne := by decide
  have hlate : 32767 < seqAhead lateOne.seq (({ items := [lateOne, directOne] } : Queue).expectedOf lateOne.ingress) := by decide
  obtain ⟨-, -, hdiscards, -⟩ := h (State.holding 43 [lateOne, directOne]) 0 5 3 0 lateOne lateOne (by decide) (State.heldClass_holding ..)
  rw [hqueue] at hdiscards
  obtain ⟨hitems, -⟩ := (hdiscards hfind hlate).chip rfl
  have hfilter : [lateOne, directOne].filter (fun j => j ≠ lateOne) = [directOne] := by decide
  rw [Chip.windowEntry_late rfl hqueue hfind hlate, queue_congr (Chip.queues_lateCopy _ _ rfl), hfilter,
    Chip.items_setQueue_direct _ _ rfl rfl (by decide)] at hitems
  simp [directOne, lateOne] at hitems

/-! ## Two copies alike but for their heads (R97) -/

/-- A direct copy with an uncorrectable error leaves its queue; no number of it was waited for. -/
theorem Chip.spillReadDone_uncorrectable {c : Chip} {egress cls q : Nat} {x : Queue} {k : Copy} (hq : qIndex egress cls = q)
    (hx : c.queue q = x) (hk : x.items.find? (fun j => j.spilled && !j.back && j.reading.isSome) = some k) (hdirect : k.direct = true) :
    c.spillReadDone egress cls .uncorrectable = ((c.setQueue q { x with items := x.items.filter fun j => j ≠ k }).count pSPILL
      K.SPILL_SPILL_ECC_DROP).raise pSPILL E.SPILL_ECC_UNCORR := by
  subst hq hx
  rw [Chip.spillReadDone, hk]
  dsimp only
  rw [Chip.numberLost, if_pos hdirect]

/-- A direct copy being read back that came to the head of its queue at cycle 0, and the same copy with no head noted. -/
def headedOne : Copy :=
  { fid := 0, bytes := [], ingress := 0, origin := 0, egress := 5, cls := 3, seq := 0, vid := 0, pcp := 0, spilled := true, reading := some 0
    head := some 0 }
def unheadedOne : Copy := { headedOne with head := none }

/-- Refutes O13: the copy that is discarded for its error leaves its like at the head of the queue, which notes the cycle (R145) and with it
is equal to the copy discarded. -/
theorem not_spillPath : ¬ Obligations.SpillPath := by
  intro h
  have hqueue : ((State.holding 43 [headedOne, unheadedOne]).chip.pass 0).queue (qIndex 5 3) = { items := [headedOne, unheadedOne] } :=
    State.queue_holding ..
  have hfind : [headedOne, unheadedOne].find? (fun j => j.spilled && !j.back && j.reading.isSome) = some headedOne := by decide
  obtain ⟨-, hdone, -⟩ := h (State.holding 43 [headedOne, unheadedOne]) 0 5 3 .trestle headedOne (by decide) (State.heldClass_holding ..)
  rw [hqueue] at hdone
  obtain ⟨-, hdrops⟩ := hdone hfind
  obtain ⟨hgone, -⟩ := hdrops.chip rfl
  have hfilter : [headedOne, unheadedOne].filter (fun j => j ≠ headedOne) = [unheadedOne] := by decide
  rw [Chip.spillReadDone_uncorrectable rfl hqueue hfind (by decide), queue_congr (Chip.queues_raise ..),
    queue_congr (Chip.queues_count ..), hfilter, Chip.items_setQueue_direct _ _ rfl rfl (by decide), State.cycles_holding] at hgone
  exact hgone (by decide)

end Sys2Proof.Machine

/-! INVALIDATE and the steps of its SCLK cycle (R120, R122). A step refused in that cycle because the time was valid comes after the INVALIDATE
and is taken back: it is carried out, and the time is TRACKING. The statement that INVALIDATE leaves the time INVALID names no such step. -/

namespace Sys2Proof.Machine

open Sys2Proof

/-- A chip out of reset under SOURCE FREE whose time is TRACKING, just after the refusal of a STEP_ADD of 0 in the same SCLK cycle. -/
def State.stepRefused : State :=
  let c := State.reset.chip
  let c : Chip := { c with clk := { c.clk with xtalStart := none, hold := false } }
  let c := (c.setReg pTIME 0x940 7).put pTIME F.TIME_TIME_STATUS_STATE tTRACKING
  { State.reset with chip := c.stepAdd .qspi }

set_option maxRecDepth 4000 in
/-- Refutes O16: INVALIDATE of the cycle in which a step was refused carries that step out, which ends with a valid time. -/
theorem not_timeStates : ¬ Obligations.TimeStates := by
  intro h
  obtain ⟨-, hinvalidates, -⟩ := h State.stepRefused 0 0 .qspi 0
  obtain ⟨hinvalid, -⟩ := (hinvalidates (by decide) (by decide) (by decide)).chip rfl
  have hsteps : ((State.stepRefused.chip.pass 0).timeCmd .qspi 2 fun c => c.invalidateCmd .qspi).timeState = tTRACKING := by decide
  exact absurd (hsteps.symm.trans hinvalid) (by decide)

end Sys2Proof.Machine

/-! What lists and actions do at a step of the time (R143, R151): whatever they set off, up to the reset of an activation, records no loss of
PLL_S (R120) and arms no step by PPS_IN (R119). -/

namespace Sys2Proof.Machine

open Sys2Proof

/-! ## The relation -/

/-- From `c` to `d` no loss of PLL_S has come on record and no arm has been set. -/
structure Spared (c d : Chip) : Prop where
  noLoss : c.lossAt = none → d.lossAt = none
  noArm : c.ppsArm = none → d.ppsArm = none

theorem Spared.refl (c : Chip) : Spared c c := ⟨id, id⟩

theorem Spared.trans {c d e : Chip} (h : Spared c d) (g : Spared d e) : Spared c e := ⟨g.noLoss ∘ h.noLoss, g.noArm ∘ h.noArm⟩

/-! The lemmas below carry the relation through one operation: the chain `h.op₁.op₂` reads as the program does. -/

section
variable {c d e : Chip} {P : Prop} [Decidable P]

/-- What changes neither record. -/
theorem Spared.same (h : Spared c d) (hl : e.lossAt = d.lossAt) (ha : e.ppsArm = d.ppsArm) : Spared c e :=
  ⟨fun n => hl.trans (h.noLoss n), fun n => ha.trans (h.noArm n)⟩

theorem Spared.ite (hd : Spared c d) (he : Spared c e) : Spared c (if P then d else e) := by
  split
  · exact hd
  · exact he

theorem Spared.when (h : Spared c d) (g : Spared c d → Spared c e) : Spared c (if P then e else d) := .ite (g h) h

theorem Spared.unless (h : Spared c d) (g : Spared c d → Spared c e) : Spared c (if P then d else e) := .ite h (g h)

theorem Spared.foldl {α : Type} {f : Chip → α → Chip} {l : List α} (h : Spared c d) (hf : ∀ d a, Spared c d → Spared c (f d a)) :
    Spared c (l.foldl f d) :=
  List.foldlRecOn (motive := Spared c) l f h fun d hd a _ => hf d a hd

end

section
variable {c d : Chip} (h : Spared c d)
include h

/-! ## Registers, tables, events -/

theorem Spared.setReg (p : Page) (off : Nat) (w : Word) : Spared c (d.setReg p off w) := h.same (Chip.lossAt_setRegAt ..) (Chip.ppsArm_setRegAt ..)

theorem Spared.put (p : Page) (f : Fld) (v : Nat) : Spared c (d.put p f v) := h.setReg ..

theorem Spared.tput (p : Page) (t i : Nat) (f : TFld) (v : Nat) : Spared c (d.tput p t i f v) :=
  h.same (Chip.lossAt_setTword ..) (Chip.ppsArm_setTword ..)

theorem Spared.count (p : Page) (i : Nat) : Spared c (d.count p i) := h.same (by rfl) (by rfl)

theorem Spared.emit (o : Output) : Spared c (d.emit o) := h.same (by rfl) (by rfl)

/-- Other registers, counters and outputs. -/
theorem Spared.noise {e : Chip} (g : ∃ r n o, e = d.noise r n o) : Spared c e := by
  obtain ⟨r, n, o, rfl⟩ := g
  exact h.same rfl rfl

theorem Spared.raise (p : Page) (b : Nat) : Spared c (d.raise p b) := (h.setReg ..).noise (d.raise_calm p b).same

theorem Spared.perf (ev n : Nat) : Spared c (d.perf ev n) := h.noise (Loud.perf d ev n).same

end

/-! ## Records -/

/-- The arm for PPS_IN has ended. -/
def Chip.disarmed (c : Chip) : Chip := { c with ppsArm := none }

/-- An action no longer armed. -/
def Chip.disarm (c : Chip) (i : Nat) : Chip := { c with ones := store none c.ones i none }

section
variable {c d : Chip} (h : Spared c d)
include h

theorem Spared.setCommitRt (p : Page) (x : CommitRt) : Spared c (d.setCommitRt p x) := h.same (by rfl) (by rfl)
theorem Spared.setGroup (g : GroupRt) : Spared c (d.setGroup g) := h.same (by rfl) (by rfl)
theorem Spared.setPortRt (n : Nat) (x : PortRt) : Spared c (d.setPortRt n x) := h.same (by rfl) (by rfl)
theorem Spared.setWarm (n : Nat) (x : Option WarmRec) : Spared c (d.setWarm n x) := h.same (by rfl) (by rfl)
theorem Spared.setPtp (g : Nat) (x : PtpRt) : Spared c (d.setPtp g x) := h.same (by rfl) (by rfl)
theorem Spared.setListAt (i : Nat) (x : ListRt) (m : Nat) : Spared c (d.setListAt i x m) := h.same (by rfl) (by rfl)
theorem Spared.setPulse (i : Nat) (x : PulseRt) : Spared c (d.setPulse i x) := h.same (by rfl) (by rfl)
theorem Spared.setComp (i : Nat) (x : CompRt) : Spared c (d.setComp i x) := h.same (by rfl) (by rfl)
theorem Spared.setMember (i : Nat) (x : MemRt) : Spared c (d.setMember i x) := h.same (by rfl) (by rfl)
theorem Spared.setAsm (i : Nat) (x : AsmRt) : Spared c (d.setAsm i x) := h.same (by rfl) (by rfl)
theorem Spared.setSig (i : Nat) (x : SigRt) : Spared c (d.setSig i x) := h.same (by rfl) (by rfl)
theorem Spared.setCan (n : Nat) (x : CanRt) : Spared c (d.setCan n x) := h.same (by rfl) (by rfl)
theorem Spared.setLin (n : Nat) (x : LinRt) : Spared c (d.setLin n x) := h.same (by rfl) (by rfl)
theorem Spared.setWatch (i : Nat) (x : WatchRt) : Spared c (d.setWatch i x) := h.same (by rfl) (by rfl)
theorem Spared.setTr (x : TrRt) : Spared c (d.setTr x) := h.same (by rfl) (by rfl)
theorem Spared.setQueue (q : Nat) (x : Queue) : Spared c (d.setQueue q x) := h.same (by rfl) (by rfl)

theorem Spared.disarmed : Spared c d.disarmed := ⟨h.noLoss, fun _ => rfl⟩
theorem Spared.disarm (i : Nat) : Spared c (d.disarm i) := h.same (by rfl) (by rfl)

end

/-! ## Ports and traffic (R62) -/

section
variable {c d : Chip} (h : Spared c d)
include h

theorem Spared.endDiag (n : Nat) : Spared c (d.endDiag n) := h.when fun h => ((h.put ..).put ..).raise ..

theorem Spared.startVerify (n : Nat) : Spared c (d.startVerify n) := (h.put ..).setPortRt ..

theorem Spared.enterUp (n rate : Nat) (longBed resumed : Bool) : Spared c (d.enterUp n rate longBed resumed) :=
  ((((((((h.put ..).put ..).put ..).put ..).put ..).endDiag n).setPortRt ..).startVerify n).raise ..

theorem Spared.linkLeft (n st : Nat) : Spared c (d.linkLeft n st) :=
  (h.unless fun h => h.endDiag n).when fun h => (h.count ..).raise ..

theorem Spared.linkEntered (n st : Nat) : Spared c (((d.linkShown n st).linkReset n st).startVerify n) :=
  ((((((h.put ..).put ..).put ..).put ..).when fun h => h.put ..).setPortRt ..).startVerify n

theorem Spared.wakePort {n : Nat} (hn : n < 28) : Spared c (d.wakePort n) := by
  unfold Chip.wakePort
  split
  next hs =>
    split
    · exact h.enterUp ..
    · rw [d.linkMove_asleep hn hs]
      exact (h.linkLeft ..).linkEntered ..
  next => exact h

end

/-- Traffic records no loss and sets no arm. -/
theorem Traffic.spared {c d : Chip} (h : Traffic c d) : Spared c d := by
  induction h with
  | refl => exact .refl c
  | record _ same ih =>
    have hl := congrArg Chip.lossAt same
    have ha := congrArg Chip.ppsArm same
    exact ih.same hl ha
  | raise _ b _ ih => exact ih.raise ..
  | perf _ ev n ih => exact ih.perf ev n
  | wakePort _ hn ih => exact ih.wakePort (of_decide_eq_true hn).1

section
variable {c d : Chip} (h : Spared c d)
include h

theorem Spared.linkMove (n st : Nat) : Spared c (d.linkMove n st) := by
  rw [Chip.linkMove_eq]
  exact ((h.linkLeft n st).when fun h => h.trans (Traffic.refl.flushPort n).spared).linkEntered n st

theorem Spared.linkTo (n st : Nat) : Spared c (d.linkTo n st) := (h.trans (Traffic.refl.rxAbandon n).spared).linkMove n st

theorem Spared.search (n : Nat) : Spared c (d.search n) :=
  (h.linkTo ..).unless fun h => h.when fun h => h.enterUp ..

theorem Spared.portFollow (n : Nat) : Spared c (d.portFollow n) :=
  .ite (h.when fun h => h.search n) (h.unless fun h => h.linkTo ..)

theorem Spared.restart (n : Nat) : Spared c (d.restart n) :=
  h.unless fun h => .ite (h.search n) (h.linkTo ..)

theorem Spared.forwardKept : Spared c d.forwardKept := h.foldl fun _ _ h => (h.same (by rfl) (by rfl)).foldl fun _ _ h => h.emit _

end

/-! ## What the best master leaves, and a port that takes up its settings -/

/-- The roles and the grandmaster shown (R136), before what a slave port brings. -/
def Chip.masterShown (c : Chip) (g : Nat) : Chip :=
  let d := (List.range 20).foldl (fun (d : Chip) q => d.tput (pGPTP g) 0 q fPdRole (c.portRole g q)) c
  let gm := (c.grandmaster g).getD 0
  let d := (d.setReg (pGPTP g) 0x158 (BitVec.ofNat 32 gm)).setReg (pGPTP g) 0x15C (BitVec.ofNat 32 (gm / 2 ^ 32))
  let d := d.put (pGPTP g) F.GPTP_INST_STATUS_ROLE (if ((c.parent g).map Prod.fst).isSome then gSLAVE else if c.gmCapable g then 1 else 3)
  let d := d.put (pGPTP g) F.GPTP_INST_STATUS_SLAVE_PORT (((c.parent g).map Prod.fst).getD 0)
  d.put (pGPTP g) F.GPTP_INST_STATUS_GM_PRESENT (c.grandmaster g).isSome.toNat

/-- The grandmaster shown. -/
def Chip.shownMaster (c : Chip) (g : Nat) : Option Nat :=
  if c.is (pGPTP g) F.GPTP_INST_STATUS_GM_PRESENT then some ((c.reg (pGPTP g) 0x158).toNat + 2 ^ 32 * (c.reg (pGPTP g) 0x15C).toNat) else none

/-- A new slave waits afresh for Syncs; without a slave port no offset is valid. -/
def Chip.slaveFollows (c : Chip) (g : Nat) : Chip :=
  let d := c.masterShown g
  if ((c.parent g).map Prod.fst).isNone then d.put (pGPTP g) F.GPTP_INST_STATUS_OFFSET_VALID 0
  else if decide (c.get (pGPTP g) F.GPTP_INST_STATUS_ROLE = gSLAVE) then d else d.setPtp g { lastSync := d.cycles }

theorem Chip.bmca_eq (c : Chip) (g : Nat) : c.bmca g = if c.shownMaster g = c.grandmaster g then c.slaveFollows g
    else ((c.slaveFollows g).count (pGPTP g) K.GPTP_GM_CHANGE).raise (pGPTP g) E.GPTP_GM_CHANGE := rfl

/-- A port's records once its settings have changed: a kept partner and the measured beacon interval go with those they depend on. -/
def Chip.portSettled (c old : Chip) (n : Nat) : Chip :=
  let changed := fun off => decide (c.reg (pPORT n) (off + 0x800) ≠ old.reg (pPORT n) (off + 0x800))
  let c := if changed 0x148 then c.setWarm n none else c
  if changed 0x164 ∧ ¬ c.follower n then c.put (pPORT n) F.PORT_PLCA_BEACON_INTERVAL 0 else c

/-- A field of a port's settings differs between two chips. -/
def Chip.portChanged (c old : Chip) (n off : Nat) : Bool := decide (c.reg (pPORT n) (off + 0x800) ≠ old.reg (pPORT n) (off + 0x800))

theorem Chip.appliedPort_eq (c old : Chip) (n : Nat) : c.appliedPort old n = if isWire n then
    (if c.portChanged old n 0x148 || c.portChanged old n 0x164 then ((c.portSettled old n).restart n).portFollow n
      else if c.portChanged old n 0x15C && decide ((c.portSettled old n).get (pPORT n) F.PORT_PREEMPT_STATUS_VERIFY ≠ 4) then
        (c.portSettled old n).startVerify n
      else (c.portSettled old n).forwardKept) else c := rfl

/-! ## What a commit does at its blocks (R45) -/

section
variable {c d : Chip} (h : Spared c d) (old : Chip)
include h

theorem Spared.stepResult (result req : Nat) (handled : Bool) : Spared c (d.stepResult result req handled) :=
  ((h.put ..).put ..).when fun h => h.put ..

theorem Spared.appliedTime : Spared c (d.appliedTime old) := by
  have hpps : Spared c (if d.ppsSettings = old.ppsSettings ∨ ¬ d.timeValid then d
      else { d with ppsOld := some (old.ppsOld.getD old.ppsSettings), ppsSecond := d.localTime / secondFine + 1 }) :=
    h.unless fun h => h.same rfl rfl
  unfold Chip.appliedTime
  dsimp only
  split
  next =>
    exact hpps.unless fun h => (h.stepResult ..).disarmed
  next => exact hpps

theorem Spared.masterShown (g : Nat) : Spared c (d.masterShown g) :=
  (((((h.foldl fun _ _ h => h.tput ..).setReg ..).setReg ..).put ..).put ..).put ..

theorem Spared.bmca (g : Nat) : Spared c (d.bmca g) := by
  have hm := h.masterShown g
  rw [Chip.bmca_eq]
  exact (Spared.ite (hm.put ..) (hm.unless fun h => h.setPtp ..)).unless fun h => (h.count ..).raise ..

theorem Spared.appliedGptp (g : Nat) : Spared c (d.appliedGptp g) :=
  h.unless fun h => .ite (h.bmca g) ((((h.foldl fun _ _ h => h.tput ..).put ..).put ..).put ..)

theorem Spared.setPins (mask levels : Nat) : Spared c (d.setPins mask levels) := by
  unfold Chip.setPins
  exact h.unless fun h => h.put ..

theorem Spared.unnamePins (before : Nat) : Spared c (d.unnamePins before) := h.setPins ..

theorem Spared.appliedStory : Spared c (d.appliedStory old) := by
  unfold Chip.appliedStory
  refine Spared.setPins (Spared.unnamePins (h.foldl fun e i h => ?_) _) _ _
  exact h.when fun h => .ite (h.setListAt ..) (h.setListAt ..)

theorem Spared.appliedPulse : Spared c (d.appliedPulse old) := h.foldl fun _ _ h => h.unless fun h => h.setPulse ..

theorem Spared.appliedFdb : Spared c (d.appliedFdb old) := h.when fun h => h.same rfl rfl

theorem Spared.appliedFrer : Spared c (d.appliedFrer old) :=
  (h.foldl fun _ _ h => h.setComp ..).foldl fun _ _ h => h.when fun h => h.setMember ..

theorem Spared.appliedPort (n : Nat) : Spared c (d.appliedPort old n) := by
  have hset : Spared c (d.portSettled old n) := (h.when fun h => h.setWarm ..).when fun h => h.put ..
  rw [Chip.appliedPort_eq]
  exact h.when fun _ => .ite ((hset.restart n).portFollow n) (.ite (hset.startVerify n) hset.forwardKept)

theorem Spared.appliedGw : Spared c (d.appliedGw old) :=
  (h.foldl fun _ _ h => h.setAsm ..).foldl fun _ _ h => h.setSig ..

theorem Spared.canOff (n : Nat) : Spared c (d.canOff n) := (((h.setCan ..).put ..).put ..).put ..

theorem Spared.canFollow (n : Nat) : Spared c (d.canFollow n) :=
  .ite (h.when fun h => .ite (h.put ..) (h.put ..)) (h.unless fun h => h.canOff n)

theorem Spared.appliedCan (n : Nat) : Spared c (d.appliedCan old n) :=
  .ite ((h.canOff n).canFollow n) (h.when fun h => h.when fun h => h.put ..)

theorem Spared.linAwake (n : Nat) : Spared c (d.linAwake n) :=
  .ite (h.unless fun h => (((h.setLin ..).put ..).put ..).put ..) (h.put ..)

theorem Spared.appliedLin (n : Nat) : Spared c (d.appliedLin n) :=
  .ite (h.put ..) (.ite (h.put ..) (h.unless fun h => h.linAwake n))

theorem Spared.ringUpdate : Spared c d.ringUpdate :=
  ((((h.put ..).put ..).put ..).setReg ..).unless fun h => (h.put ..).raise ..

theorem Spared.appliedTring : Spared c (d.appliedTring old) := by
  have hcleared : Spared c (if d.get pTRING F.TRING_DOMAIN_CFG_DEVICE_ID = old.get pTRING F.TRING_DOMAIN_CFG_DEVICE_ID then d
      else { d with ehruzConflict := none }) := h.unless fun h => h.same rfl rfl
  exact (hcleared.put ..).ringUpdate

theorem Spared.applied (p : Page) : Spared c (d.applied old p) := by
  unfold Chip.applied
  split
  case h_1 => exact h.appliedTime old
  case h_2 => exact h.appliedGptp _
  case h_3 => exact h.appliedStory old
  case h_4 => exact h.put ..
  case h_5 => exact h.appliedPulse old
  case h_6 => exact h.appliedFdb old
  case h_7 => exact h.appliedFrer old
  case h_8 => exact h.same rfl rfl
  case h_9 => exact h.same rfl rfl
  case h_10 => exact h.appliedPort old _
  case h_11 => exact h.appliedGw old
  case h_12 => exact h.appliedCan old _
  case h_13 => exact h.appliedLin _
  case h_14 => exact h.same rfl rfl
  case h_15 => exact h.appliedTring old
  case h_16 => exact h

end

/-! ## Requests that apply or are rejected (R43, R47, R49) -/

section
variable {c d : Chip} (h : Spared c d)
include h

theorem Spared.rejectPage (p : Page) (reason detail : Nat) : Spared c (d.rejectPage p reason detail) :=
  ((((h.put ..).put ..).put ..).setCommitRt ..).raise ..

theorem Spared.endGroup (reason : Nat) (failPage : Option Nat) : Spared c (d.endGroup reason failPage) := by
  rw [Chip.endGroup_eq]
  exact ((((h.put ..).put ..).put ..).put ..).setGroup _

theorem Spared.rejectMembers (reason : Nat) : Spared c (d.rejectMembers reason) := by
  refine h.foldl fun d i h => ?_
  split
  · exact h.rejectPage ..
  · exact h

theorem Spared.rejectNaming (a st reason : Nat) : Spared c (d.rejectNaming a st reason) :=
  (h.foldl fun _ _ h => h.rejectPage ..).when fun h => (h.rejectMembers _).endGroup ..

theorem Spared.rejectBound (a reason : Nat) : Spared c (d.rejectBound a reason) := (h.rejectNaming ..).rejectNaming ..

theorem Spared.rejectGroup (i reason detail : Nat) : Spared c (d.rejectGroup i reason detail) := by
  refine Spared.endGroup (h.foldl fun d j h => ?_) ..
  split
  · exact .ite (h.rejectPage ..) (h.rejectPage ..)
  · exact h

theorem Spared.swapPage (p : Page) (late : Bool) : Spared c (d.swapPage p late) := by
  have hset : Spared c (d.newSet p) := by
    have hregs : Spared c (d.copyRegs p) := h.foldl fun _ _ h => h.setReg ..
    unfold Chip.newSet Chip.copyTables
    exact Spared.ite (hregs.same rfl rfl) (hregs.same rfl rfl)
  rw [Chip.swapPage_eq]
  exact Spared.raise (Spared.setCommitRt ((((hset.put ..).put ..).put ..).when fun h => h.put ..) _ _) _ _

theorem Spared.applyPage (p : Page) (late : Bool) : Spared c (d.applyPage p late) :=
  .ite (h.rejectPage ..) ((h.swapPage p late).applied d p)

theorem Spared.applyGroup (late : Bool) : Spared c (d.applyGroup late) := by
  unfold Chip.applyGroup
  split
  · exact h.rejectGroup ..
  · exact ((h.foldl fun _ _ h => h.swapPage ..).foldl fun _ _ h => h.applied ..).endGroup ..

theorem Spared.fireBound (a : Nat) (late : Bool) : Spared c (d.fireBound a late) :=
  .ite (h.rejectBound ..) (((h.rejectNaming ..).foldl fun _ _ h => h.applyPage ..).when fun h => h.applyGroup _)

end

/-! ## A device reset (R320): the chip starts afresh -/

/-- The chip afresh, with its root and the wake record of the always-on domain as they stay. -/
def Chip.resetCore (c : Chip) (cause : Nat) : Chip :=
  { c.freshCore with
    root := if cause = rcCORE_BOR then none else c.root
    aon := { c.freshCore.aon with wakeTo := none, restore := false, waking := none, failedAt := none, retried := false } }

theorem Chip.spared_freshCore (b c : Chip) : Spared b c.freshCore := by
  unfold Chip.freshCore
  refine Spared.unless ?_ fun h => ((h.setReg ..).setReg ..).put ..
  refine (((((Spared.put ?_ ..).put ..).put ..).put ..).put ..)
  exact ⟨fun _ => rfl, fun _ => rfl⟩

theorem Chip.spared_resetCore (b c : Chip) (cause : Nat) : Spared b (c.resetCore cause) := (spared_freshCore b c).same (by rfl) (by rfl)

section
variable {c d : Chip} (h : Spared c d)
include h

theorem Spared.setClk (x : ClkRt) : Spared c (d.setClk x) := h.same (by rfl) (by rfl)

theorem Spared.startXtal (por hold : Bool) : Spared c (d.startXtal por hold) := ((h.put ..).put ..).setClk _

theorem Spared.keepXtal : Spared c d.keepXtal := (((h.put ..).put ..).put ..).setClk _

theorem Spared.keepFailed : Spared c d.keepFailed := (Spared.put (h.foldl fun _ _ h => h.put ..) ..).setClk _

theorem Spared.resetXtal (was : Chip) (cause : Nat) : Spared c (d.resetXtal was cause) := by
  refine .ite (h.startXtal ..) ?_
  split
  · exact h.same rfl rfl
  · exact .ite h.keepXtal (.ite h.keepFailed (h.startXtal ..))

end

theorem Chip.spared_deviceReset (b c : Chip) (cause : Nat) : Spared b (c.deviceReset cause) :=
  Spared.unless ((((spared_resetCore b c cause).resetXtal c cause).setReg ..).put ..) fun h => h.raise ..

/-! ## What an action does (R147, R148, R151) -/

/-- A request waits for its release. -/
def Chip.addRel (c : Chip) (q : RelReq) : Chip := { c with rels := insertRel q c.rels }

section
variable {c d : Chip} (h : Spared c d)
include h

theorem Spared.pinAction (mask arg : Nat) : Spared c (d.pinAction mask arg) := by
  unfold Chip.pinAction
  extract_lets en before width k e
  have he : Spared c e := (h.setPins ..).same rfl rfl
  exact he.unless fun h => h.same rfl rfl

theorem Spared.watchAction (i : Nat) (arm : Bool) : Spared c (d.watchAction i arm) := by
  have hstart : Spared c (d.startWatch i) := .ite (h.same (by rfl) (by rfl)) (h.same (by rfl) (by rfl))
  exact .ite (Spared.tput (h.same (by rfl) (by rfl)) ..) (h.unless fun h => h.unless fun _ => hstart.tput ..)

theorem Spared.actFailed (r : Nat) : Spared c (d.actFailed r) := ((h.put ..).count ..).raise ..

theorem Spared.fwActivate (method arg : Nat) : Spared c (d.fwActivate method arg) := by
  unfold Chip.fwActivate
  extract_lets e m
  have he : Spared c e := (h.put ..).put ..
  exact .ite (he.actFailed _) (.ite (he.actFailed _) (.ite (he.actFailed _) (.ite ((he.setTr _).put ..) (Chip.spared_deviceReset ..))))

theorem Spared.countLinkDown (k : Copy) : Spared c (d.countLinkDown k) := h.when fun h => h.count ..

theorem Spared.addRel (q : RelReq) : Spared c (d.addRel q) := h.same (by rfl) (by rfl)

theorem Spared.release (q : RelReq) (execLate : Bool) : Spared c (d.release q execLate).1 := by
  unfold Chip.release
  dsimp only
  split_ifs
  · exact h.count ..
  · exact h.count ..
  · exact h.count ..
  · exact (h.addRel q).perf ..
  · exact ((h.addRel { q with late := true }).perf ..).count ..
  · show Spared c ((d.count pSTORY K.STORY_RELEASE_PAST).raise pSTORY E.STORY_RELEASE_PAST)
    exact (h.count ..).raise ..

theorem Spared.sendTail (k : Copy) : Spared c (d.sendTail k) :=
  .ite (h.countLinkDown k) (.ite (h.setQueue ..) (h.setQueue ..))

theorem Spared.sendAction (slot : Nat) (distance : Bool) : Spared c (d.sendAction slot distance) := by
  unfold Chip.sendAction
  dsimp only
  split
  · have htaken : Spared c { d with nextFid := d.nextFid + 1 } := h.same rfl rfl
    exact .ite (htaken.sendTail _) (.ite (htaken.countLinkDown _) (htaken.release ..))
  · exact h.release ..
  · exact h

theorem Spared.fire (i : Nat) (late : Bool) : Spared c (d.fire i late) := by
  unfold Chip.fire
  extract_lets kind distance target arg heard freed shown stamped counted done
  have hfreed : Spared c freed := (h.perf 0x281 1).same rfl rfl
  have hdone : Spared c done := Spared.when ((((hfreed.tput ..).tput ..).tput ..).count ..) fun h => h.count ..
  clear_value kind done
  split
  · exact hdone.fireBound ..
  · exact hdone.pinAction ..
  · exact hdone.watchAction ..
  · exact hdone.fwActivate ..
  · exact hdone.raise ..
  · exact hdone.sendAction ..
  · exact hdone

theorem Spared.endPast (i : Nat) : Spared c (d.endPast i) := by
  have hunrun : Spared c (d.actUnrun i arPAST) := h.when fun h => (h.put ..).put ..
  exact ((((hunrun.tput ..).disarm i).count ..).raise ..).rejectBound ..

theorem Spared.judgeTime (i : Nat) : Spared c (d.judgeTime i) := by
  unfold Chip.judgeTime
  split
  · exact h.when fun h => h.unless fun h => .ite (h.fire ..) (h.endPast _)
  · exact h

end

/-! ## A step of the time (R121, R143, R151) -/

theorem Chip.spared_rejudge (c : Chip) : Spared c c.rejudge := (Spared.refl c).foldl fun _ _ h => h.judgeTime _

theorem Chip.spared_listsStep (c : Chip) : Spared c c.listsStep :=
  (Spared.refl c).when fun h => ((h.foldl fun _ _ h => h.setListAt ..).unnamePins _).setPins ..

end Sys2Proof.Machine

/-! The local time and its step (R113, R118, R119, R121, R127): what operations leave of the time, what an accepted step leaves, what
refuses a step. -/

namespace Sys2Proof.Machine

open Sys2Proof

/-! ## Counters through events -/

/-- A counter that no event counts: neither one of PERF nor the messages that HOST has sent. -/
def uncounted (k : Nat) : Bool := decide (k / 1024 ≠ pageIdx pPERF ∧ k ≠ cntKey pHOST K.HOST_MSIX_SENT)

section
variable (c : Chip) {k : Nat} (hk : uncounted k = true)
include hk

theorem Chip.cntAt_perfAdd_uncounted {i : Nat} (n : Nat) (hi : i < 1024) : (c.perfAdd i n).cntAt k = c.cntAt k := by
  have hne : k ≠ cntKey pPERF i := by
    have hpage := (of_decide_eq_true hk).1
    unfold cntKey
    omega
  have hadd := c.cntAt_addCnt_other pPERF i n hne
  unfold Chip.perfAdd
  dsimp only
  split
  · exact hadd
  · exact hadd

theorem Chip.cntAt_perfBump_uncounted (ev n : Nat) : (c.perfBump ev n).1.cntAt k = c.cntAt k := by
  unfold Chip.perfBump
  split
  · rfl
  refine List.foldlRecOn (motive := fun a : Chip × Bool => a.1.cntAt k = c.cntAt k) (List.range 32) _ rfl fun a ha i hi => ?_
  have hi := List.mem_range.1 hi
  dsimp only
  split
  · exact (a.1.cntAt_perfAdd_uncounted hk n (by omega)).trans ha
  · exact ha

theorem Chip.cntAt_sendMsix_uncounted (v : Nat) : (c.sendMsix v).cntAt k = c.cntAt k := by
  unfold Chip.sendMsix
  dsimp only
  split_ifs
  · rfl
  · rfl
  · exact (Chip.cntAt_addCnt_other _ _ _ _ (of_decide_eq_true hk).2).trans (c.cntAt_perfBump_uncounted hk ..)

theorem Chip.cntAt_routeEvent_uncounted (p : Page) : (c.routeEvent p).cntAt k = c.cntAt k := by
  unfold Chip.routeEvent
  dsimp only
  split_ifs
  · exact c.cntAt_sendMsix_uncounted hk _
  · exact c.cntAt_sendMsix_uncounted hk _
  · rfl
  · rfl

theorem Chip.cntAt_raise_uncounted (p : Page) (b : Nat) : (c.raise p b).cntAt k = c.cntAt k := by
  unfold Chip.raise
  dsimp only
  split_ifs
  · rfl
  · exact Chip.cntAt_sendMsix_uncounted _ hk _
  · exact Chip.cntAt_routeEvent_uncounted _ hk _
  · rfl

end

/-! ## Fields of other registers -/

section
variable (c : Chip) {p q : Page} {f : Fld} (hp : pageValid p = true) (hq : pageValid q = true) (hf : f.fits = true)
include hp hq hf

theorem Chip.get_setReg_elsewhere {off : Nat} (w : Word) (ho : off < 0x1000) (h : f.actOff ≠ off) : (c.setReg q off w).get p f = c.get p f := by
  have hact : f.actOff < 0x1000 := by
    simp only [Fld.fits, Bool.and_eq_true, decide_eq_true_eq] at hf
    unfold Fld.actOff
    split <;> omega
  by_cases hpq : p = q
  · rw [hpq, Chip.get, c.reg_setReg_off w h, Chip.get]
  · rw [Chip.get, c.reg_setReg_page w hp hq hact ho hpq, Chip.get]

theorem Chip.get_put_elsewhere {g : Fld} (v : Nat) (hg : g.fits = true) (h : f.actOff ≠ g.off) : (c.put q g v).get p f = c.get p f :=
  c.get_put_apart v hp hq (by simp [Fld.apart, hf, hg, h])

end

/-! ## The local time (R113) -/

/-- What stands between two chips whose local time is the same. -/
theorem localTime_congr {c d : Chip} (hbase : d.tBase = c.tBase) (hanchor : d.tAnchor = c.tAnchor) (hstop : d.tStopped = c.tStopped)
    (hcycles : d.cycles = c.cycles) (hincr : d.incr = c.incr) : d.localTime = c.localTime := by
  rw [Chip.localTime, hbase, hanchor, hstop, hcycles, hincr, Chip.localTime]

theorem Chip.localTime_setReg (c : Chip) {off : Nat} (w : Word) (h : off ≠ 0x180 ∧ off ≠ 0x184) :
    (c.setReg pTIME off w).localTime = c.localTime := by
  refine localTime_congr rfl rfl rfl rfl ?_
  rw [Chip.incr, Chip.reg_setReg_off _ _ h.1.symm, Chip.reg_setReg_off _ _ h.2.symm, Chip.incr]

theorem Chip.localTime_put (c : Chip) {f : Fld} (v : Nat) (h : f.off ≠ 0x180 ∧ f.off ≠ 0x184) : (c.put pTIME f v).localTime = c.localTime :=
  c.localTime_setReg _ h

@[simp] theorem Chip.localTime_count (c : Chip) (p : Page) (i : Nat) : (c.count p i).localTime = c.localTime := rfl

@[simp] theorem Chip.localTime_sequenced (c : Chip) (req : Requester) : (c.sequenced req).localTime = c.localTime :=
  localTime_congr (by simp) (by simp) (by simp) (by simp) (by simp [Chip.incr])

@[simp] theorem Chip.localTime_raise (c : Chip) (b : Nat) : (c.raise pTIME b).localTime = c.localTime := by
  refine localTime_congr (by simp) (by simp) (by simp) (by simp) ?_
  rw [Chip.incr, c.reg_raise b rfl rfl (by decide) (by decide), c.reg_raise b rfl rfl (by decide) (by decide), Chip.incr]

theorem Chip.localTime_anchor (c : Chip) (t : Nat) : (c.anchor t).localTime = t := by
  simp [Chip.localTime, Chip.anchor]

/-! ## A loss of PLL_S on record -/

@[simp] theorem Chip.lossAt_sequenced (c : Chip) (req : Requester) : (c.sequenced req).lossAt = c.lossAt := by
  unfold Chip.sequenced
  split <;> rfl

@[simp] theorem Chip.lossAt_raise (c : Chip) (p : Page) (b : Nat) : (c.raise p b).lossAt = c.lossAt := by
  obtain ⟨r, n, o, h⟩ := (c.raise_calm p b).same
  rw [h]
  rfl

/-! ## The result of a step command (R117) -/

section
variable (c : Chip) (result req : Nat) (handled : Bool)

@[simp] theorem Chip.lossAt_stepResult : (c.stepResult result req handled).lossAt = c.lossAt := by
  unfold Chip.stepResult
  dsimp only
  split <;> rfl

@[simp] theorem Chip.ppsArm_stepResult : (c.stepResult result req handled).ppsArm = c.ppsArm := by
  unfold Chip.stepResult
  dsimp only
  split <;> rfl

@[simp] theorem Chip.localTime_stepResult : (c.stepResult result req handled).localTime = c.localTime := by
  unfold Chip.stepResult
  dsimp only
  split
  · rw [Chip.localTime_put _ _ (by decide), Chip.localTime_put _ _ (by decide), Chip.localTime_put _ _ (by decide)]
  · rw [Chip.localTime_put _ _ (by decide), Chip.localTime_put _ _ (by decide)]

theorem Chip.get_stepResult : (c.stepResult result req handled).get pTIME F.TIME_STEP_RESULT_RESULT = result % 16 := by
  unfold Chip.stepResult
  dsimp only
  split
  · rw [Chip.get_put_apart _ _ rfl rfl (by decide), Chip.get_put_apart _ _ rfl rfl (by decide), Chip.get_put_same _ _ rfl (by decide) rfl]
    rfl
  · rw [Chip.get_put_apart _ _ rfl rfl (by decide), Chip.get_put_same _ _ rfl (by decide) rfl]
    rfl

/-- A field in another register than STEP_RESULT. -/
theorem Chip.get_stepResult_apart {p : Page} {f : Fld} (hp : pageValid p = true) (hf : f.fits = true) (hoff : f.actOff ≠ 0x168) :
    (c.stepResult result req handled).get p f = c.get p f := by
  unfold Chip.stepResult
  dsimp only
  split
  · rw [Chip.get_put_elsewhere _ hp rfl hf _ (by decide) hoff, Chip.get_put_elsewhere _ hp rfl hf _ (by decide) hoff,
      Chip.get_put_elsewhere _ hp rfl hf _ (by decide) hoff]
  · rw [Chip.get_put_elsewhere _ hp rfl hf _ (by decide) hoff, Chip.get_put_elsewhere _ hp rfl hf _ (by decide) hoff]

end

/-! ## An accepted step (R118, R119, R121) -/

/-- The step is noted: the last correction, the SCLK cycle of the step, and a waiting arm locked out. -/
def Chip.stepNoted (c : Chip) : Chip :=
  { c with corrAt := c.cycles, stepAt := some c.sclk, ppsArm := c.ppsArm.map fun (a : PpsArm) => { a with locked := true } }

@[simp] theorem Chip.localTime_stepNoted (c : Chip) : c.stepNoted.localTime = c.localTime := rfl

/-- The time is set, TRACKING and in a new epoch, before lists and actions are judged anew. -/
def Chip.timeSet (c : Chip) (t req : Nat) (handled : Bool) : Chip :=
  let c := (c.anchor t).put pTIME F.TIME_TIME_STATUS_STATE tTRACKING
  let c := c.put pTIME F.TIME_TIME_STATUS_EPOCH (c.epoch + 1)
  (((c.count pTIME K.TIME_STEP_ACCEPTED).stepResult stDONE req handled).stepNoted).raise pTIME E.TIME_STEP_DONE

/-- A loss of PLL_S in the SCLK cycle of a step comes after it. -/
def Chip.lossFollows (c : Chip) : Chip :=
  match c.lossAt with
  | some (k, _) => if k = c.sclk then c.invalidate icPLLS else c
  | none => c

theorem Chip.stepTo_eq (c : Chip) (t req : Nat) (handled : Bool) :
    c.stepTo t req handled = (c.timeSet t req handled).listsStep.rejudge.lossFollows := rfl

section
variable (c : Chip) (t req : Nat) (handled : Bool)

theorem Chip.lossAt_timeSet : (c.timeSet t req handled).lossAt = c.lossAt :=
  (Chip.lossAt_raise ..).trans (Chip.lossAt_stepResult ..)

/-- With no loss of PLL_S on record the step ends with lists and actions judged anew. -/
theorem Chip.stepTo_noLoss (h : c.lossAt = none) : c.stepTo t req handled = (c.timeSet t req handled).listsStep.rejudge := by
  have hset := (c.lossAt_timeSet t req handled).trans h
  have hloss := (Chip.spared_rejudge _).noLoss ((Chip.spared_listsStep _).noLoss hset)
  rw [Chip.stepTo_eq, Chip.lossFollows, hloss]

theorem Chip.localTime_timeSet : (c.timeSet t req handled).localTime = t := by
  rw [Chip.timeSet, Chip.localTime_raise, Chip.localTime_stepNoted, Chip.localTime_stepResult, Chip.localTime_count,
    Chip.localTime_put _ _ (by decide), Chip.localTime_put _ _ (by decide), Chip.localTime_anchor]

theorem Chip.timeState_timeSet : (c.timeSet t req handled).timeState = tTRACKING := by
  rw [Chip.timeState, Chip.timeSet, Chip.get_raise _ rfl rfl (by decide)]
  refine (Chip.get_stepResult_apart _ _ _ _ rfl (by decide) (by decide)).trans ?_
  rw [Chip.get_count, Chip.get_put_apart _ _ rfl rfl (by decide), Chip.get_put_same _ _ rfl (by decide) rfl]
  rfl

theorem Chip.epoch_timeSet : (c.timeSet t req handled).epoch = (c.epoch + 1) % 256 := by
  rw [Chip.epoch, Chip.timeSet, Chip.get_raise _ rfl rfl (by decide)]
  refine (Chip.get_stepResult_apart _ _ _ _ rfl (by decide) (by decide)).trans ?_
  rw [Chip.get_count, Chip.get_put_same _ _ rfl (by decide) rfl, Chip.epoch, Chip.get_put_apart _ _ rfl rfl (by decide)]
  rfl

theorem Chip.latched_timeSet : (c.timeSet t req handled).latched pTIME E.TIME_STEP_DONE = true := Chip.latched_raise _ rfl (by decide)

theorem Chip.result_timeSet : (c.timeSet t req handled).get pTIME F.TIME_STEP_RESULT_RESULT = stDONE := by
  rw [Chip.timeSet, Chip.get_raise _ rfl rfl (by decide)]
  exact Chip.get_stepResult ..

/-- A chip on which no arm waits has none after a step. -/
theorem Chip.ppsArm_stepTo (hloss : c.lossAt = none) (harm : c.ppsArm = none) : (c.stepTo t req handled).ppsArm = none := by
  have hresult : ∀ d : Chip, (d.stepResult stDONE req handled).ppsArm = d.ppsArm := fun d => d.ppsArm_stepResult ..
  have hset : (c.timeSet t req handled).ppsArm = none := by
    rw [Chip.timeSet, Chip.ppsArm_raise, Chip.stepNoted]
    dsimp only
    rw [hresult]
    exact congrArg (Option.map _) harm
  rw [c.stepTo_noLoss t req handled hloss]
  exact (Chip.spared_rejudge _).noArm ((Chip.spared_listsStep _).noArm hset)

/-- A step with no loss of PLL_S on record sets the time, which is TRACKING in a new epoch, before lists and actions are judged anew. -/
theorem Chip.stepTo_sets (h : c.lossAt = none) : ∃ e : Chip, c.stepTo t req handled = e.listsStep.rejudge ∧ e.localTime = t
    ∧ e.timeState = tTRACKING ∧ e.epoch = (c.epoch + 1) % 256 ∧ e.latched pTIME E.TIME_STEP_DONE = true
    ∧ e.get pTIME F.TIME_STEP_RESULT_RESULT = stDONE :=
  ⟨c.timeSet t req handled, c.stepTo_noLoss t req handled h, c.localTime_timeSet .., c.timeState_timeSet .., c.epoch_timeSet ..,
    c.latched_timeSet .., c.result_timeSet ..⟩

end

/-! ## The checks of a step command (R117, R118) -/

section
variable (c : Chip) (req : Requester)

@[simp] theorem Chip.timeState_sequenced : (c.sequenced req).timeState = c.timeState := by simp [Chip.timeState]
@[simp] theorem Chip.epoch_sequenced : (c.sequenced req).epoch = c.epoch := by simp [Chip.epoch]
@[simp] theorem Chip.source_sequenced : (c.sequenced req).source = c.source := by simp [Chip.source]
@[simp] theorem Chip.mode_sequenced : (c.sequenced req).mode = c.mode := by simp [Chip.mode]
@[simp] theorem Chip.localNs_sequenced : (c.sequenced req).localNs = c.localNs := by simp [Chip.localNs]
@[simp] theorem Chip.stepNsBad_sequenced : (c.sequenced req).stepNsBad = c.stepNsBad := by simp [Chip.stepNsBad]
@[simp] theorem Chip.stepAmount_sequenced : (c.sequenced req).stepAmount = c.stepAmount := by simp [Chip.stepAmount]
@[simp] theorem Chip.sclk_sequenced : (c.sequenced req).sclk = c.sclk := by simp [Chip.sclk]
@[simp] theorem Chip.stepState_sequenced : (c.sequenced req).stepState = c.stepState := by simp [Chip.stepState]

@[simp] theorem Chip.stepCheck_sequenced (arm bad : Bool) : (c.sequenced req).stepCheck req arm bad = c.stepCheck req arm bad := by
  simp [Chip.stepCheck]

end

section
variable {c : Chip} {req : Requester} {arm : Bool} (hmay : mayStep c.source req arm = true)

theorem Chip.stepState_noLoss (h : c.lossAt = none) : c.stepState = c.timeState := by
  rw [Chip.stepState, h]

include hmay

theorem Chip.stepCheck_accepts (hmode : c.mode ≠ modeSentry) (hloss : c.lossAt = none) (hinv : c.timeState = tINVALID) :
    c.stepCheck req arm false = 0 := by
  rw [Chip.stepCheck, Chip.stepState_noLoss hloss]
  simp [hmay, hmode, hinv]

theorem Chip.stepCheck_locked (bad : Bool) (h : (c.timeState ≠ tINVALID ∧ c.lossAt = none) ∨ c.mode = modeSentry) :
    c.stepCheck req arm bad = stLOCKED := by
  have hbars : c.stepState ≠ tINVALID ∨ c.mode = modeSentry :=
    h.imp_left fun ⟨hvalid, hloss⟩ => by rwa [Chip.stepState_noLoss hloss]
  rw [Chip.stepCheck, if_neg (not_not.2 hmay), if_pos hbars]

end

/-! ## The commands (R119) -/

theorem Chip.timeCmd_ok (c : Chip) {req : Requester} (cmd : Nat) (f : Chip → Chip) (ht : c.takes req = true) :
    c.timeCmd req cmd f = f (c.sequenced req) := c.command_ok ht rfl

section
variable (c : Chip) (result cmd : Nat) (req : Requester)

/-- A refused step is kept for an INVALIDATE of its SCLK cycle (R120). -/
def Chip.refusalKept (c : Chip) (result cmd : Nat) (req : Requester) : Chip :=
  if result = stLOCKED then
    { c with tm := { c.tm with lockedStep := some { sclk := c.sclk, cmd := cmd, req := req, fresh := !c.timeRaw E.TIME_STEP_REFUSED } } }
  else c

theorem Chip.refuseCmd_eq : c.refuseCmd result cmd req = (c.refusalKept result cmd req).refuseStep result (reqCode req) true := rfl

@[simp] theorem Chip.localTime_refusalKept : (c.refusalKept result cmd req).localTime = c.localTime := by
  unfold Chip.refusalKept
  split <;> rfl

/-- The count of a refusal (R117). -/
def Chip.refusalCounted (c : Chip) (result : Nat) : Chip :=
  if result = stNOTSOURCE then c.count pTIME K.TIME_NOT_SOURCE else if result = stLOCKED then c.count pTIME K.TIME_STEP_LOCKED else c

@[simp] theorem Chip.localTime_refusalCounted : (c.refusalCounted result).localTime = c.localTime := by
  unfold Chip.refusalCounted
  split_ifs <;> rfl

@[simp] theorem Chip.get_refusalCounted (p : Page) (f : Fld) : (c.refusalCounted result).get p f = c.get p f := by
  unfold Chip.refusalCounted
  split_ifs <;> simp

theorem Chip.refuseStep_eq (who : Nat) (handled : Bool) : c.refuseStep result who handled
    = ((c.stepResult result who handled).refusalCounted result).raise pTIME E.TIME_STEP_REFUSED := rfl

/-- A refused step leaves the time, shows its result and is reported. -/
theorem Chip.refuseCmd_shows : let d := c.refuseCmd result cmd req
    d.localTime = c.localTime ∧ d.get pTIME F.TIME_STEP_RESULT_RESULT = result % 16 ∧ d.latched pTIME E.TIME_STEP_REFUSED = true := by
  rw [Chip.refuseCmd_eq, Chip.refuseStep_eq]
  refine ⟨by simp, ?_, Chip.latched_raise _ rfl (by decide)⟩
  rw [Chip.get_raise _ rfl rfl (by decide), Chip.get_refusalCounted, Chip.get_stepResult]

end

/-- The ns since the 32-bit stamp to which STEP_SET refers. -/
def Chip.sinceStamp (c : Chip) : Nat := (c.localNs + 2 ^ 32 - c.get pTIME F.TIME_STEP_REF_STAMP_STAMP) % 2 ^ 32

@[simp] theorem Chip.sinceStamp_sequenced (c : Chip) (req : Requester) : (c.sequenced req).sinceStamp = c.sinceStamp := by
  simp [Chip.sinceStamp]

section
variable {c : Chip} {req : Requester}

theorem Chip.stepSet_accepts (hcheck : c.stepCheck req false false = 0) (hns : c.stepNsBad = false) (hgone : c.sinceStamp < 2 ^ 31) :
    c.stepSet req = c.stepTo (c.stepAmount + c.sinceStamp * 2 ^ 40) (reqCode req) true := by
  have hchecked : c.stepCheck req false (c.stepNsBad || decide (2 ^ 31 ≤ c.sinceStamp)) = 0 := by
    rwa [hns, decide_eq_false (not_le.2 hgone)]
  unfold Chip.stepSet
  dsimp only
  rw [← Chip.sinceStamp, hchecked]
  rfl

theorem Chip.stepAdd_forward (hcheck : c.stepCheck req false false = 0) (hns : c.stepNsBad = false)
    (hneg : c.is pTIME F.TIME_STEP_NS_NEG = false) : c.stepAdd req = c.stepTo (c.localTime + c.stepAmount) (reqCode req) true := by
  unfold Chip.stepAdd
  rw [hns, hneg]
  dsimp only
  rw [Bool.false_and, Bool.or_false, hcheck]
  simp only [Bool.false_eq_true, if_false]

theorem Chip.stepAdd_back (hcheck : c.stepCheck req false false = 0) (hns : c.stepNsBad = false)
    (hneg : c.is pTIME F.TIME_STEP_NS_NEG = true) (hle : c.stepAmount ≤ c.localTime) :
    c.stepAdd req = c.stepTo (c.localTime - c.stepAmount) (reqCode req) true := by
  unfold Chip.stepAdd
  rw [hns, hneg, decide_eq_false (not_lt.2 hle)]
  dsimp only
  rw [Bool.true_and, Bool.or_false, hcheck]
  simp only [if_true]

theorem Chip.stepSet_locked (hcheck : ∀ bad, c.stepCheck req false bad = stLOCKED) : c.stepSet req = c.refuseCmd stLOCKED 3 req := by
  rw [Chip.stepSet, hcheck]
  rfl

theorem Chip.stepAdd_locked (hcheck : ∀ bad, c.stepCheck req false bad = stLOCKED) : c.stepAdd req = c.refuseCmd stLOCKED 4 req := by
  rw [Chip.stepAdd, hcheck]
  rfl

/-! ## PPS_STEP_ARM and its ends (R119) -/

theorem Chip.ppsStepArm_accepts (hcheck : c.stepCheck req true false = 0) (hns : c.stepNsBad = false)
    (hen : c.is pTIME F.TIME_TIME_CFG_PPS_IN_EN = true) : let d := c.ppsStepArm req
    d.get pTIME F.TIME_STEP_RESULT_RESULT = stARMED
      ∧ d.ppsArm = some ⟨w48Of (c.reg pTIME 0x158) (c.reg pTIME 0x15C), reqCode req, c.cycles, false⟩ := by
  unfold Chip.ppsStepArm
  rw [hns, hen]
  dsimp only
  rw [Bool.not_true, Bool.or_false, hcheck]
  exact ⟨Chip.get_stepResult .., rfl⟩

theorem Chip.ppsStepDisarm_ends (hmay : mayStep c.source req true = true) (harm : c.ppsArm ≠ none) : let d := c.ppsStepDisarm req
    d.ppsArm = none ∧ d.get pTIME F.TIME_STEP_RESULT_RESULT = stDISARMED := by
  unfold Chip.ppsStepDisarm
  rw [if_neg (not_not.2 hmay), if_pos (Option.isSome_iff_ne_none.2 harm)]
  exact ⟨rfl, Chip.get_stepResult ..⟩

theorem Chip.ppsArmTimeout_lapses {a : PpsArm} (harm : c.ppsArm = some a) (hlate : a.at' + secCycles 2 ≤ c.cycles) :
    let d := c.ppsArmTimeout
    d.ppsArm = none ∧ d.get pTIME F.TIME_STEP_RESULT_RESULT = stTIMEOUT := by
  rw [Chip.ppsArmTimeout, harm]
  dsimp only
  rw [if_pos hlate]
  exact ⟨rfl, Chip.get_stepResult ..⟩

theorem Chip.ppsArmTimeout_none (h : c.ppsArm = none) : c.ppsArmTimeout = c := by
  rw [Chip.ppsArmTimeout, h]

theorem Chip.ppsArmTimeout_waits {a : PpsArm} (harm : c.ppsArm = some a) (hfresh : c.cycles < a.at' + secCycles 2) :
    c.ppsArmTimeout = c := by
  rw [Chip.ppsArmTimeout, harm]
  exact if_neg (not_le.2 hfresh)

end

/-! ## An edge of PPS_IN (R127) -/

section
variable (c : Chip)

/-- The capture leaves every field but those of its own registers. -/
theorem Chip.get_ppsCapture {p : Page} {f : Fld} (hp : pageValid p = true) (hq : f.quietOn p = true)
    (h : f.actOff < 0x1B0 ∨ 0x1C0 ≤ f.actOff) : c.ppsCapture.get p f = c.get p f := by
  have hfit : f.fits = true := (Bool.and_eq_true_iff.1 hq).1
  have hstatus : f.actOff ≠ 0x1BC := by omega
  unfold Chip.ppsCapture
  dsimp only
  rw [Chip.get_raise _ hp rfl hq, Chip.get_count, Chip.get_put_elsewhere _ hp rfl hfit _ (by decide) hstatus,
    Chip.get_put_elsewhere _ hp rfl hfit _ (by decide) hstatus, Chip.get_setReg_elsewhere _ hp rfl hfit _ (by decide) (by omega),
    Chip.get_setReg_elsewhere _ hp rfl hfit _ (by decide) (by omega), Chip.get_setReg_elsewhere _ hp rfl hfit _ (by decide) (by omega)]

theorem Chip.timeState_ppsCapture : c.ppsCapture.timeState = c.timeState := c.get_ppsCapture rfl (by decide) (by decide)

theorem Chip.epoch_ppsCapture : c.ppsCapture.epoch = c.epoch := c.get_ppsCapture rfl (by decide) (by decide)

theorem Chip.ppsDelay_ppsCapture : c.ppsCapture.ppsDelay = c.ppsDelay := by
  rw [Chip.ppsDelay, c.get_ppsCapture rfl (by decide) (by decide), Chip.ppsDelay]

theorem Chip.mode_ppsCapture : c.ppsCapture.mode = c.mode := by
  have hdormant : c.ppsCapture.dormant = c.dormant := by
    simp [Chip.ppsCapture, Chip.count, Chip.addCnt, Chip.put, Chip.setReg]
  rw [Chip.mode, hdormant, c.get_ppsCapture rfl (by decide) (by decide), Chip.mode]

theorem Chip.lossAt_ppsCapture : c.ppsCapture.lossAt = c.lossAt := by
  simp [Chip.ppsCapture, Chip.count, Chip.addCnt, Chip.put, Chip.setReg]

theorem Chip.ppsArm_ppsCapture : c.ppsCapture.ppsArm = c.ppsArm := by
  simp [Chip.ppsCapture, Chip.count, Chip.addCnt, Chip.put, Chip.setReg]

/-- A capture is reported, numbered and counted. -/
theorem Chip.ppsCapture_shows : let d := c.ppsCapture
    d.latched pTIME E.TIME_PPS_IN = true ∧ d.get pTIME F.TIME_PPS_IN_STATUS_SEQ = (c.get pTIME F.TIME_PPS_IN_STATUS_SEQ + 1) % 65536
      ∧ d.cntAt (cntKey pTIME K.TIME_PPS_IN_EDGES) = c.cntAt (cntKey pTIME K.TIME_PPS_IN_EDGES) + 1 := by
  unfold Chip.ppsCapture
  refine ⟨Chip.latched_raise _ rfl (by decide), ?_, ?_⟩
  · rw [Chip.get_raise _ rfl rfl (by decide), Chip.get_count, Chip.get_put_same _ _ rfl (by decide) rfl,
      Chip.get_put_apart _ _ rfl rfl (by decide), Chip.get_setReg_elsewhere _ rfl rfl (by decide) _ (by decide) (by decide),
      Chip.get_setReg_elsewhere _ rfl rfl (by decide) _ (by decide) (by decide),
      Chip.get_setReg_elsewhere _ rfl rfl (by decide) _ (by decide) (by decide)]
    rfl
  · rw [Chip.cntAt_raise_uncounted _ (by decide), Chip.cntAt_count_same]
    rfl

end

/-- What an edge does with a waiting arm (R119): its step, which another accepted step has locked out. -/
def Chip.ppsStep (c : Chip) : Chip :=
  match c.ppsArm with
  | some a =>
    if c.disarmed.timeState = tINVALID ∧ ¬ a.locked ∧ c.disarmed.mode ≠ modeSentry then
      c.disarmed.stepTo ((timeOf a.sec 0 : Int) + c.disarmed.ppsDelay).toNat a.req false
    else c.disarmed.refuseStep stLOCKED a.req false
  | none => c

section
variable {c : Chip} {rising : Bool}
  (hedge : (c.is pTIME F.TIME_TIME_CFG_PPS_IN_EN && decide (rising ≠ c.is pTIME F.TIME_TIME_CFG_PPS_IN_EDGE)) = true)
include hedge

theorem Chip.ppsIn_edge : c.ppsIn rising = c.ppsArmTimeout.ppsCapture.ppsStep := by
  simp only [Bool.and_eq_true, decide_eq_true_eq] at hedge
  exact if_neg (by simp [hedge.1, hedge.2])

/-- An edge with no arm is captured, no more. -/
theorem Chip.ppsIn_unarmed (harm : c.ppsArm = none) : c.ppsIn rising = c.ppsCapture := by
  rw [Chip.ppsIn_edge hedge, Chip.ppsArmTimeout_none harm, Chip.ppsStep, Chip.ppsArm_ppsCapture, harm]

/-- An edge with a waiting arm, while the time is INVALID, steps to the armed second and the cable's delay. -/
theorem Chip.ppsIn_armed {a : PpsArm} (harm : c.ppsArm = some a) (hfree : a.locked = false) (hfresh : c.cycles < a.at' + secCycles 2)
    (hmode : c.mode ≠ modeSentry) (hinv : c.timeState = tINVALID) :
    c.ppsIn rising = (c.ppsCapture.disarmed).stepTo ((timeOf a.sec 0 : Int) + c.ppsDelay).toNat a.req false := by
  rw [Chip.ppsIn_edge hedge, Chip.ppsArmTimeout_waits harm hfresh, Chip.ppsStep, Chip.ppsArm_ppsCapture, harm]
  have hready : c.ppsCapture.disarmed.timeState = tINVALID ∧ ¬ a.locked = true ∧ c.ppsCapture.disarmed.mode ≠ modeSentry :=
    ⟨c.timeState_ppsCapture.trans hinv, ne_true_of_eq_false hfree, fun h => hmode (c.mode_ppsCapture.symm.trans h)⟩
  have hdelay : c.ppsCapture.disarmed.ppsDelay = c.ppsDelay := c.ppsDelay_ppsCapture
  rw [← hdelay]
  exact if_pos hready

end

/-! ## The statement -/

section
variable {c : Chip} {req : Requester}

/-- The checks accept the step of a command as they accept it before its sequence number is taken. -/
theorem Chip.stepCheck_taken {arm : Bool} (hmay : mayStep c.source req arm = true)
    (hjudged : decide (c.mode ≠ modeSentry ∧ c.lossAt = none) = true) (hinv : c.timeState = tINVALID) :
    (c.sequenced req).stepCheck req arm false = 0 := by
  obtain ⟨hmode, hloss⟩ := of_decide_eq_true hjudged
  rw [Chip.stepCheck_sequenced]
  exact Chip.stepCheck_accepts hmay hmode hloss hinv

end

/-- Settles O15: a step that the checks accept is `stepTo`, which with no loss of PLL_S on record sets the time and then judges anew; a
step that they refuse leaves the time. -/
theorem timeSteps : Obligations.TimeSteps := by
  unfold Obligations.TimeSteps
  intro s dt req rising arm c gone stepped edge judged
  have hsteps : ∀ (d : Chip) (t who : Nat) (handled : Bool), d.lossAt = none → d.epoch = c.epoch →
      stepped (t : Nat) (d.stepTo t who handled) := by
    intro d t who handled hloss hepoch
    obtain ⟨e, he, htime, hstate, hnext, hdone, hresult⟩ := d.stepTo_sets t who handled hloss
    exact ⟨e, he, congrArg Int.ofNat htime, hstate, hepoch ▸ hnext, hdone, hresult⟩
  refine ⟨fun ht hmay hjudged hinv hns => ?_, fun ht hmay hbars i hi => ?_, fun ht hmay => ⟨fun hjudged hinv hen hns => ?_, fun harm => ?_⟩,
    fun harm hlate => ?_, fun hedge harm => ?_, fun hedge harm hfree hfresh hjudged hinv => ?_⟩
  · have hcheck : (c.sequenced req).stepCheck req false false = 0 := Chip.stepCheck_taken hmay hjudged hinv
    have hns : (c.sequenced req).stepNsBad = false := (c.stepNsBad_sequenced req).trans hns
    have hsteps := fun t => hsteps (c.sequenced req) t (reqCode req) true
      ((c.lossAt_sequenced req).trans (of_decide_eq_true hjudged).2) (c.epoch_sequenced req)
    refine ⟨fun hgone => .of_run rfl ?_, fun hneg => .of_run rfl ?_, fun hneg hle => .of_run rfl ?_⟩
    · have hsince : (c.sequenced req).sinceStamp = gone := c.sinceStamp_sequenced req
      rw [Chip.timeCmd_ok _ _ _ ht, Chip.stepSet_accepts hcheck hns (hsince.trans_lt hgone), hsince, Chip.stepAmount_sequenced]
      exact hsteps _
    · rw [Chip.timeCmd_ok _ _ _ ht, Chip.stepAdd_forward hcheck hns ((c.is_sequenced ..).trans hneg), Chip.localTime_sequenced,
        Chip.stepAmount_sequenced]
      exact hsteps _
    · rw [Chip.timeCmd_ok _ _ _ ht, Chip.stepAdd_back hcheck hns ((c.is_sequenced ..).trans hneg) (by simpa using hle),
        Chip.localTime_sequenced, Chip.stepAmount_sequenced]
      exact hsteps _
  · have hcheck : ∀ bad, (c.sequenced req).stepCheck req false bad = stLOCKED := fun bad =>
      (c.stepCheck_sequenced req false bad).trans (Chip.stepCheck_locked hmay bad hbars)
    obtain rfl | rfl := hi
    · refine .of_run rfl ?_
      rw [Chip.timeCmd_ok _ _ _ ht, Chip.stepSet_locked hcheck, ← c.localTime_sequenced req]
      exact Chip.refuseCmd_shows ..
    · refine .of_run rfl ?_
      rw [Chip.timeCmd_ok _ _ _ ht, Chip.stepAdd_locked hcheck, ← c.localTime_sequenced req]
      exact Chip.refuseCmd_shows ..
  · refine .of_run rfl ?_
    have harms := Chip.ppsStepArm_accepts (Chip.stepCheck_taken hmay hjudged hinv) ((c.stepNsBad_sequenced req).trans hns)
      ((c.is_sequenced req ..).trans hen)
    rw [Chip.reg_sequenced, Chip.reg_sequenced, Chip.cycles_sequenced] at harms
    rwa [Chip.timeCmd_ok _ _ _ ht]
  · refine .of_run rfl ?_
    rw [Chip.timeCmd_ok _ _ _ ht]
    exact Chip.ppsStepDisarm_ends (by rwa [Chip.source_sequenced]) (by rwa [Chip.ppsArm_sequenced])
  · exact .of_run rfl (Chip.ppsArmTimeout_lapses harm hlate)
  · refine .of_run rfl ?_
    rw [Chip.ppsIn_unarmed hedge harm]
    exact Chip.ppsCapture_shows _
  · obtain ⟨hmode, hloss⟩ := of_decide_eq_true hjudged
    have hloss : c.ppsCapture.disarmed.lossAt = none := c.lossAt_ppsCapture.trans hloss
    refine .of_run rfl ?_
    rw [Chip.ppsIn_armed hedge harm hfree hfresh hmode hinv]
    exact ⟨Chip.ppsArm_stepTo _ _ _ _ hloss rfl, hsteps _ _ _ _ hloss c.epoch_ppsCapture⟩

end Sys2Proof.Machine

/-! Time words of the ring (R133, R292): what the head sends, what a follower does with a word of the head. -/

namespace Sys2Proof.Machine

open Sys2Proof

/-! ## A word leaves -/

section
variable (c : Chip) (t time epoch : Nat) (valid : Bool)

theorem Chip.sendWord_up (h : c.tlState t = tlUP) : c.sendWord t time epoch valid = (c.flitsOut t 1).emit (.timeWord (28 + t) time epoch valid) :=
  if_pos h

@[simp] theorem Chip.regs_sendWord : (c.sendWord t time epoch valid).regs = c.regs := by
  unfold Chip.sendWord
  split <;> rfl

@[simp] theorem Chip.lossAt_sendWord : (c.sendWord t time epoch valid).lossAt = c.lossAt := by
  unfold Chip.sendWord
  split <;> rfl

@[simp] theorem Chip.headEpoch_sendWord : (c.sendWord t time epoch valid).headEpoch = c.headEpoch := by
  unfold Chip.sendWord
  split <;> rfl

@[simp] theorem Chip.cycles_sendWord : (c.sendWord t time epoch valid).cycles = c.cycles := by
  unfold Chip.sendWord
  split <;> rfl

@[simp] theorem Chip.get_sendWord (p : Page) (f : Fld) : (c.sendWord t time epoch valid).get p f = c.get p f :=
  get_congr (c.regs_sendWord ..) p f

theorem Chip.said_sendWord {o : Output} (h : Said o c) : Said o (c.sendWord t time epoch valid) :=
  Said.when h fun h => Said.emit h _

theorem Chip.said_sendWord_same (h : c.tlState t = tlUP) : Said (.timeWord (28 + t) time epoch valid) (c.sendWord t time epoch valid) := by
  rw [c.sendWord_up t time epoch valid h]
  exact List.mem_append_right _ (List.mem_singleton_self _)

end

/-- The head's word leaves on both links that are UP. -/
theorem Chip.said_timeWordTx (c : Chip) (h : c.ringId = 0) {l : Nat} (hl : l < 2) (hup : c.tlState l = tlUP) :
    Said (.timeWord (28 + l) c.localTime c.epoch c.timeValid) c.timeWordTx := by
  rw [Chip.timeWordTx, if_pos h]
  obtain rfl | rfl : l = 0 ∨ l = 1 := by omega
  · exact Chip.said_sendWord _ _ _ _ _ (c.said_sendWord_same _ _ _ _ hup)
  · exact Chip.said_sendWord_same _ _ _ _ _ ((Chip.get_sendWord ..).trans hup)

/-! ## The link that a follower hears (R292) -/

/-- The link named, or the one nearer to the head. -/
def Chip.namedLink (c : Chip) : Nat :=
  match c.get pTRING F.TRING_RING_CFG_TIME_LINK with
  | 1 => 0
  | 2 => 1
  | _ => if c.pathTo 0 = 2 then 1 else 0

theorem Chip.timeLink_eq (c : Chip) : c.timeLink = if c.tlState c.namedLink = tlUP then c.namedLink else 1 - c.namedLink := rfl

theorem Chip.namedLink_lt (c : Chip) : c.namedLink < 2 := by
  unfold Chip.namedLink
  split
  · decide
  · decide
  · split <;> decide

/-- What stands between two chips that hear the same link. -/
structure SameLinks (c d : Chip) : Prop where
  states : ∀ t, t < 2 → d.tlState t = c.tlState t
  named : d.get pTRING F.TRING_RING_CFG_TIME_LINK = c.get pTRING F.TRING_RING_CFG_TIME_LINK
  size : d.get pTRING F.TRING_RING_CFG_SIZE = c.get pTRING F.TRING_RING_CFG_SIZE
  ring : d.ringId = c.ringId
  reach : ∀ t, t < 2 → (d.tenon t).reach = (c.tenon t).reach
  remeasure : ∀ t, t < 2 → (d.tenon t).remeasure = (c.tenon t).remeasure

section
variable {c d : Chip} (h : SameLinks c d)
include h

theorem SameLinks.reachOf {t : Nat} (ht : t < 2) : d.reachOf t = c.reachOf t := by
  have hup : d.tenonUp t = c.tenonUp t := by
    rw [Chip.tenonUp, h.remeasure t ht, ← Chip.tlState, h.states t ht, Chip.tenonUp, Chip.tlState]
  rw [Chip.reachOf, hup, h.reach t ht, Chip.reachOf]

theorem SameLinks.pathTo (k : Nat) : d.pathTo k = c.pathTo k := by
  simp only [Chip.pathTo, h.ring, h.size, h.reachOf (t := 0) (by decide), h.reachOf (t := 1) (by decide)]

theorem SameLinks.timeLink : d.timeLink = c.timeLink := by
  have hnamed : d.namedLink = c.namedLink := by
    rw [Chip.namedLink, h.named, h.pathTo, Chip.namedLink]
  rw [Chip.timeLink_eq, hnamed, h.states _ c.namedLink_lt, Chip.timeLink_eq]

end

/-- A word passed on changes of a link its flits and what waits for acknowledgement. -/
theorem Chip.tenon_sendWord (c : Chip) (k t time epoch : Nat) (valid : Bool) : let d := c.sendWord t time epoch valid
    (d.tenon k).reach = (c.tenon k).reach ∧ (d.tenon k).remeasure = (c.tenon k).remeasure := by
  intro d
  by_cases hup : c.tlState t = tlUP
  · have htenon : d.tenon k = lookupD {} (store {} c.tenons t { c.tenon t with unacked := min 64 ((c.tenon t).unacked + 1) }) k := by
      show (c.sendWord t time epoch valid).tenon k = _
      rw [c.sendWord_up t time epoch valid hup]
      rfl
    rw [htenon]
    by_cases hk : k = t
    · subst hk
      rw [lookupD_store_same]
      exact ⟨rfl, rfl⟩
    · rw [lookupD_store_other _ _ _ _ hk]
      exact ⟨rfl, rfl⟩
  · have hd : d = c := if_neg hup
    rw [hd]
    exact ⟨rfl, rfl⟩

/-- The head's time as a word comes in on link `t`, the latency of the link added. -/
def Chip.wordTime (c : Chip) (t time : Nat) : Nat := time + c.linkPs t * 2 ^ 40 / 1000

/-- The chip once a word has come in on link `t` and gone out on the other: the latency is shown. -/
def Chip.wordPassed (c : Chip) (t time epoch : Nat) (valid : Bool) : Chip :=
  (c.put (pTENON t) F.TENON_LINK_LAT_PS (c.linkPs t)).sendWord (1 - t) time epoch valid

section
variable (c : Chip) {t : Nat} (time epoch : Nat) (valid : Bool) (ht : t < 2)
include ht

theorem Chip.get_wordPassed {p : Page} {f : Fld} (hp : pageValid p = true) (h : f.apart F.TENON_LINK_LAT_PS = true) :
    (c.wordPassed t time epoch valid).get p f = c.get p f := by
  rw [Chip.wordPassed, Chip.get_sendWord, Chip.get_put_apart _ _ hp (by simpa [pageValid] using ht) h]

theorem Chip.sameLinks_wordPassed : SameLinks c (c.wordPassed t time epoch valid) where
  states k hk := c.get_wordPassed time epoch valid ht (by simpa [pageValid] using hk) (by decide)
  named := c.get_wordPassed time epoch valid ht rfl (by decide)
  size := c.get_wordPassed time epoch valid ht rfl (by decide)
  ring := c.get_wordPassed time epoch valid ht rfl (by decide)
  reach k _ := (Chip.tenon_sendWord _ k _ _ _ _).1
  remeasure k _ := (Chip.tenon_sendWord _ k _ _ _ _).2

theorem Chip.timeState_wordPassed : (c.wordPassed t time epoch valid).timeState = c.timeState :=
  c.get_wordPassed time epoch valid ht rfl (by decide)

omit ht in
theorem Chip.lossAt_wordPassed : (c.wordPassed t time epoch valid).lossAt = c.lossAt := Chip.lossAt_sendWord ..

omit ht in
theorem Chip.headEpoch_wordPassed : (c.wordPassed t time epoch valid).headEpoch = c.headEpoch := Chip.headEpoch_sendWord ..

omit ht in
theorem Chip.cycles_wordPassed : (c.wordPassed t time epoch valid).cycles = c.cycles := Chip.cycles_sendWord ..

/-- A follower of the ring's time takes up a word of the head that comes in on the link it hears. -/
theorem Chip.timeWordRx_hears (rate : Int) (hup : c.tlState t = tlUP) (hring : c.ringId ≠ 0) (hsource : c.source = 6) (hlink : t = c.timeLink) :
    c.timeWordRx t time epoch valid false rate
      = (c.wordPassed t (c.wordTime t time) epoch valid).follow (c.wordTime t time) epoch valid rate := by
  have hpassed : (c.wordPassed t (c.wordTime t time) epoch valid).source = 6
      ∧ t = (c.wordPassed t (c.wordTime t time) epoch valid).timeLink :=
    ⟨(c.get_wordPassed _ epoch valid ht rfl (by decide)).trans hsource, hlink.trans (c.sameLinks_wordPassed _ epoch valid ht).timeLink.symm⟩
  have htaken : ¬ (false = true ∨ ¬ (t < 2 ∧ c.tlState t = tlUP) ∨ c.ringId = 0) := by simp [ht, hup, hring]
  exact (if_neg htaken).trans (if_pos hpassed)

end

/-! ## What a word of the head does (R133) -/

/-- The head's epoch has been heard. -/
def Chip.epochHeard (c : Chip) (epoch : Nat) : Chip := { c with headEpoch := some epoch }

@[simp] theorem Chip.lossAt_epochHeard (c : Chip) (epoch : Nat) : (c.epochHeard epoch).lossAt = c.lossAt := rfl

@[simp] theorem Chip.timeState_epochHeard (c : Chip) (epoch : Nat) : (c.epochHeard epoch).timeState = c.timeState := rfl

section
variable {c : Chip} {time epoch : Nat} {rate : Int}

theorem Chip.follow_steps (h : c.timeState = tINVALID) : c.follow time epoch true rate = (c.epochHeard epoch).stepTo time 0 false :=
  (if_pos ((c.timeState_epochHeard epoch).trans h)).trans (if_pos rfl)

variable (hvalid : c.timeState ≠ tINVALID)
include hvalid

theorem Chip.follow_stays (he : c.headEpoch = some epoch) (hlow : -65536000 ≤ rate) (hhigh : rate ≤ 65536000) :
    c.follow time epoch true rate = ((c.epochHeard epoch).setReg pTIME 0x170 (BitVec.ofInt 32 rate)).correction := by
  unfold Chip.follow
  rw [he]
  exact ((if_neg hvalid).trans (if_neg (by simp))).trans (if_neg (by omega))

end

/-! ## The time becomes INVALID (R122) -/

section
variable (c : Chip)

theorem Chip.get_setPins (mask levels : Nat) {p : Page} {f : Fld} (hp : pageValid p = true) (h : f.apart F.EVIO_OUT_LEVEL_L = true) :
    (c.setPins mask levels).get p f = c.get p f := by
  unfold Chip.setPins
  dsimp only
  split
  · rfl
  · exact c.get_put_apart _ hp rfl h

/-- What falls back leaves the time's page. -/
theorem Chip.get_listsFailsafe {f : Fld} (h : f.apart F.EVIO_OUT_LEVEL_L = true) : c.listsFailsafe.get pTIME f = c.get pTIME f := by
  have hlists : ∀ l : List (Nat × ListRt), (l.foldl (fun (d : Chip) e => d.setList e.1 e.2.failed) c).regs = c.regs := fun l =>
    List.foldlRecOn (motive := fun d : Chip => d.regs = c.regs) l _ rfl fun _ hd _ _ => hd
  rw [Chip.listsFailsafe, Chip.get_setPins _ _ _ rfl h]
  exact get_congr (hlists _) _ _

/-- The time shown as INVALID in a new epoch, and reported. -/
def Chip.shownInvalid (c : Chip) (cause : Nat) : Chip :=
  let c := (c.put pTIME F.TIME_TIME_STATUS_STATE tINVALID).put pTIME F.TIME_TIME_STATUS_INV_CAUSE cause
  let c := c.put pTIME F.TIME_TIME_STATUS_EPOCH (c.epoch + 1)
  (c.count pTIME K.TIME_INVALIDATED).raise pTIME E.TIME_INVALID

/-- PPS_OUT ends. -/
def Chip.ppsEnded (c : Chip) : Chip := { c with ppsOut := none, ppsOld := none }

@[simp] theorem Chip.get_ppsEnded (p : Page) (f : Fld) : c.ppsEnded.get p f = c.get p f := rfl

@[simp] theorem Chip.get_releasesInvalid (p : Page) (f : Fld) : c.releasesInvalid.get p f = c.get p f := rfl

theorem Chip.invalidNow_eq (cause : Nat) : c.invalidNow cause = (c.shownInvalid cause).ppsEnded.listsFailsafe.releasesInvalid := rfl

theorem Chip.timeState_invalidNow (cause : Nat) : (c.invalidNow cause).timeState = tINVALID := by
  rw [Chip.timeState, Chip.invalidNow_eq, Chip.get_releasesInvalid, Chip.get_listsFailsafe _ (by decide), Chip.get_ppsEnded,
    Chip.shownInvalid, Chip.get_raise _ rfl rfl (by decide), Chip.get_count, Chip.get_put_apart _ _ rfl rfl (by decide),
    Chip.get_put_apart _ _ rfl rfl (by decide), Chip.get_put_same _ _ rfl (by decide) rfl]
  rfl

/-- A valid time becomes INVALID. -/
theorem Chip.timeState_invalidate (cause : Nat) (h : c.timeState ≠ tINVALID) : (c.invalidate cause).timeState = tINVALID := by
  rw [Chip.invalidate, if_neg h, Chip.timeState_invalidNow]

end

section
variable {c : Chip} {time epoch : Nat} {rate : Int} (hvalid : c.timeState ≠ tINVALID)
include hvalid

/-- A word that says INVALID ends the time. -/
theorem Chip.timeState_follow_unsure : (c.follow time epoch false rate).timeState = tINVALID := by
  have hfollow : c.follow time epoch false rate = (c.epochHeard epoch).invalidate icTENON := (if_neg hvalid).trans (if_pos (Or.inl (by decide)))
  rw [hfollow, Chip.timeState_invalidate (c.epochHeard epoch) icTENON hvalid]

/-- A word of another epoch ends the time. -/
theorem Chip.timeState_follow_changed {e : Nat} (he : c.headEpoch = some e) (hne : e ≠ epoch) :
    (c.follow time epoch true rate).timeState = tINVALID := by
  have hfollow : c.follow time epoch true rate = (c.epochHeard epoch).invalidate icTENON := by
    unfold Chip.follow
    rw [he]
    exact (if_neg hvalid).trans (if_pos (Or.inr (decide_eq_true hne)))
  rw [hfollow, Chip.timeState_invalidate (c.epochHeard epoch) icTENON hvalid]

end

/-! ## A correction (R122) -/

theorem signedOf_toNat_ofInt {r : Int} (hlow : -65536000 ≤ r) (hhigh : r ≤ 65536000) : signedOf (BitVec.ofInt 32 r).toNat 32 = r := by
  rw [BitVec.toNat_ofInt, signedOf]
  split <;> omega

theorem Chip.corrAt_correction (c : Chip) : c.correction.corrAt = c.cycles := by
  unfold Chip.correction
  dsimp only
  split
  · exact Chip.corrAt_raise ..
  · rfl

theorem Chip.rateTarget_correction (c : Chip) : c.correction.rateTarget = c.rateTarget := by
  have htracks : ∀ d : Chip, ((d.put pTIME F.TIME_TIME_STATUS_STATE tTRACKING).raise pTIME E.TIME_TRACKING).rateTarget = d.rateTarget := fun d => by
    rw [Chip.rateTarget, Chip.get_raise _ rfl rfl (by decide), Chip.get_put_apart _ _ rfl rfl (by decide), Chip.rateTarget]
  unfold Chip.correction
  dsimp only
  split
  · exact htracks _
  · rfl

theorem Chip.rateTarget_setReg (c : Chip) {r : Int} (hlow : -65536000 ≤ r) (hhigh : r ≤ 65536000) :
    (c.setReg pTIME 0x170 (BitVec.ofInt 32 r)).rateTarget = r := by
  have hget : (c.setReg pTIME 0x170 (BitVec.ofInt 32 r)).get pTIME F.TIME_RATE_ADJ_RATE = (BitVec.ofInt 32 r).toNat := by
    rw [Chip.get]
    refine (congrArg (bitsAt · 0 32) (c.reg_setReg_same _ rfl (by decide))).trans ?_
    exact Nat.mod_eq_of_lt (BitVec.isLt _)
  rw [Chip.rateTarget, hget, signedOf_toNat_ofInt hlow hhigh]

/-! ## What a follower does with a word of the head -/

section
variable (c : Chip) {t time epoch : Nat} (ht : t < 2) (hup : c.tlState t = tlUP) (hring : c.ringId ≠ 0) (hsource : c.source = 6)
  (hlink : t = c.timeLink)
include ht hup hring hsource hlink

/-- A valid word steps an INVALID time. -/
theorem Chip.timeWordRx_steps {rate : Int} (hloss : c.lossAt = none) (h : c.timeState = tINVALID) :
    ∃ e : Chip, c.timeWordRx t time epoch true false rate = e.listsStep.rejudge ∧ e.timeState = tTRACKING
      ∧ e.localTime = c.wordTime t time := by
  rw [c.timeWordRx_hears time epoch true ht rate hup hring hsource hlink,
    Chip.follow_steps ((c.timeState_wordPassed _ epoch true ht).trans h)]
  have hloss : ((c.wordPassed t (c.wordTime t time) epoch true).epochHeard epoch).lossAt = none :=
    (Chip.lossAt_epochHeard ..).trans ((c.lossAt_wordPassed ..).trans hloss)
  obtain ⟨e, he, htime, hstate, -⟩ := Chip.stepTo_sets _ (c.wordTime t time) 0 false hloss
  exact ⟨e, he, hstate, htime⟩

variable (hvalid : c.timeState ≠ tINVALID)
include hvalid

/-- A word in the epoch heard last sets the rate, which is a correction. -/
theorem Chip.timeWordRx_stays {rate : Int} (he : c.headEpoch = some epoch) (hlow : -65536000 ≤ rate) (hhigh : rate ≤ 65536000) :
    let d := c.timeWordRx t time epoch true false rate
    d.rateTarget = rate ∧ d.corrAt = c.cycles := by
  rw [c.timeWordRx_hears time epoch true ht rate hup hring hsource hlink,
    Chip.follow_stays (by rwa [c.timeState_wordPassed _ epoch true ht]) (by rwa [Chip.headEpoch_wordPassed]) hlow hhigh]
  have hcycles : ∀ d : Chip, ((d.epochHeard epoch).setReg pTIME 0x170 (BitVec.ofInt 32 rate)).cycles = d.cycles := fun _ => rfl
  refine ⟨?_, ?_⟩
  · rw [Chip.rateTarget_correction, Chip.rateTarget_setReg _ hlow hhigh]
  · rw [Chip.corrAt_correction, hcycles, Chip.cycles_wordPassed]

/-- A word of another epoch ends the time. -/
theorem Chip.timeWordRx_changed {rate : Int} {e : Nat} (he : c.headEpoch = some e) (hne : e ≠ epoch) :
    (c.timeWordRx t time epoch true false rate).timeState = tINVALID := by
  rw [c.timeWordRx_hears time epoch true ht rate hup hring hsource hlink]
  exact Chip.timeState_follow_changed (by rwa [c.timeState_wordPassed _ epoch true ht]) (by rwa [Chip.headEpoch_wordPassed]) hne

/-- A word that says INVALID ends the time. -/
theorem Chip.timeWordRx_unsure {rate : Int} : (c.timeWordRx t time epoch false false rate).timeState = tINVALID := by
  rw [c.timeWordRx_hears time epoch false ht rate hup hring hsource hlink]
  exact Chip.timeState_follow_unsure (by rwa [c.timeState_wordPassed _ epoch false ht])

end

end Sys2Proof.Machine

/-! gPTP messages (R129, R130, R131): what firmware sends adds to the outputs and to the counters of the ports, no more. -/

namespace Sys2Proof.Machine

open Sys2Proof

/-! ## The relation -/

/-- From `c` to `d` messages have left: outputs and the counters of ports are added, none of a GPTP page. -/
structure Sends (c d : Chip) : Prop where
  same : ∃ n o, d = c.noise c.regs n o
  outs : ∀ o, Said o c → Said o d
  kept : ∀ g i, g < 4 → i < 1024 → d.cntAt (cntKey (pGPTP g) i) = c.cntAt (cntKey (pGPTP g) i)

theorem Sends.refl (c : Chip) : Sends c c := ⟨⟨c.cnt, c.outs, rfl⟩, fun _ h => h, fun _ _ _ _ => rfl⟩

theorem Sends.trans {c d e : Chip} (h : Sends c d) (k : Sends d e) : Sends c e := by
  obtain ⟨⟨n, o, rfl⟩, houts, hkept⟩ := h
  obtain ⟨⟨n', o', rfl⟩, kouts, kkept⟩ := k
  exact ⟨⟨n', o', rfl⟩, fun x hx => kouts x (houts x hx), fun g i hg hi => (kkept g i hg hi).trans (hkept g i hg hi)⟩

section
variable {c d : Chip} (h : Sends c d)
include h

theorem Sends.addPortCnt (n i k : Nat) : Sends c (d.addCnt (pPORT n) i k) := by
  refine h.trans ⟨⟨_, _, rfl⟩, fun _ h => h, fun g j hg hj => d.cntAt_addCnt_other _ _ _ ?_⟩
  have hgptp : cntKey (pGPTP g) j = (14 + g) * 1024 + j := rfl
  have hport : cntKey (pPORT n) i = (30 + n) * 1024 + i := rfl
  omega

theorem Sends.emit (o : Output) : Sends c (d.emit o) := h.trans ⟨⟨_, _, rfl⟩, fun _ h => h.emit o, fun _ _ _ _ => rfl⟩

/-! ## One message -/

theorem Sends.ptpSend (g kind port time : Nat) : Sends c (d.ptpSend g kind port time) :=
  ((((h.addPortCnt ..).addPortCnt ..).addPortCnt ..).addPortCnt ..).emit _

/-- The message bears the fields and the stamp that it would have borne before the others left. -/
theorem Sends.said_ptpSend (g kind port time : Nat) :
    Said (.gptpMessage port g kind (c.ptpFields g kind port time) (c.txStamp port)) (d.ptpSend g kind port time) := by
  obtain ⟨⟨n, o, rfl⟩, -, -⟩ := h
  exact List.mem_append_right _ (List.mem_singleton_self _)

theorem Sends.masterList (g : Nat) : d.masterList g = c.masterList g := by
  obtain ⟨⟨n, o, rfl⟩, -, -⟩ := h
  rfl

theorem Sends.txNs (n : Nat) : d.txNs n = c.txNs n := by
  obtain ⟨⟨n, o, rfl⟩, -, -⟩ := h
  rfl

end

/-! ## A message on each port of a list -/

section
variable {c : Chip} {f : Chip → Nat → Chip} (hf : ∀ d a, Sends c d → Sends d (f d a)) (l : List Nat)
include hf

theorem Sends.foldl {d : Chip} (h : Sends c d) : Sends c (l.foldl f d) :=
  List.foldlRecOn (motive := Sends c) l f h fun d h a _ => h.trans (hf d a h)

/-- What is sent for one port of the list stays sent. -/
theorem Sends.said_foldl {d : Chip} {n : Nat} {o : Output} (h : Sends c d) (hn : n ∈ l) (ho : ∀ d, Sends c d → Said o (f d n)) :
    Said o (l.foldl f d) := by
  induction l generalizing d with
  | nil => exact absurd hn (List.not_mem_nil)
  | cons a l ih =>
    have hnext := h.trans (hf d a h)
    obtain rfl | hmem := List.mem_cons.1 hn
    · have hrest := List.foldlRecOn (motive := fun e => Sends c e ∧ Said o e) l f ⟨hnext, ho d h⟩
        fun e he b _ => ⟨he.1.trans (hf e b he.1), (hf e b he.1).outs o he.2⟩
      exact hrest.2
    · exact ih hnext hmem

end

/-! ## Syncs (R131, R132) -/

section
variable (c : Chip) (g : Nat) (ahead : Int)

/-- A Sync with its Follow_Up on one port. -/
def Chip.syncPair (c : Chip) (g : Nat) (ahead : Int) (n : Nat) : Chip :=
  (c.ptpSend g 0 n ((c.txNs n : Int) + ahead).toNat).ptpSend g 3 n ((c.txNs n : Int) + ahead).toNat

theorem Chip.syncSend_eq : c.syncSend g ahead = (c.masterList g).foldl (fun d n => d.syncPair g ahead n) c := rfl

theorem Chip.sends_syncPair (n : Nat) : Sends c (c.syncPair g ahead n) := ((Sends.refl c).ptpSend ..).ptpSend ..

theorem Chip.sends_syncSend : Sends c (c.syncSend g ahead) := by
  rw [Chip.syncSend_eq]
  exact (Sends.refl c).foldl (fun d n _ => d.sends_syncPair g ahead n) _

/-- Each master port sends its Sync, and the Follow_Up with the time of its departure. -/
theorem Chip.said_syncSend {n : Nat} (hn : n ∈ c.masterList g) : let t := ((c.txNs n : Int) + ahead).toNat
    Said (.gptpMessage n g 0 [c.get (pGPTP g) F.GPTP_INST_CFG_DOMAIN] (c.txStamp n)) (c.syncSend g ahead)
      ∧ Said (.gptpMessage n g 3 [c.get (pGPTP g) F.GPTP_INST_CFG_DOMAIN, t / 1000000000, t % 1000000000] (c.txStamp n)) (c.syncSend g ahead) := by
  have hpair : ∀ d m, Sends c d → Sends d (d.syncPair g ahead m) := fun d m _ => d.sends_syncPair g ahead m
  rw [Chip.syncSend_eq]
  refine ⟨Sends.said_foldl hpair _ (Sends.refl c) hn fun d h => ?_, Sends.said_foldl hpair _ (Sends.refl c) hn fun d h => ?_⟩
  · exact ((Sends.refl _).ptpSend ..).outs _ (h.said_ptpSend g 0 n _)
  · rw [Chip.syncPair, h.txNs]
    exact (h.ptpSend ..).said_ptpSend g 3 n _

end

/-! ## Message intervals (R129) -/

section
variable (c : Chip) (g : Nat)

/-- A message of one kind on each port of a list. -/
def Chip.ptpSends (c : Chip) (g kind : Nat) (l : List Nat) : Chip := l.foldl (fun d n => d.ptpSend g kind n 0) c

theorem Chip.sends_ptpSends (kind : Nat) (l : List Nat) : Sends c (c.ptpSends g kind l) :=
  (Sends.refl c).foldl (fun d n _ => (Sends.refl d).ptpSend g kind n 0) _

theorem Chip.said_ptpSends (kind : Nat) {l : List Nat} {n : Nat} (hn : n ∈ l) :
    Said (.gptpMessage n g kind (c.ptpFields g kind n 0) (c.txStamp n)) (c.ptpSends g kind l) :=
  Sends.said_foldl (fun d m _ => (Sends.refl d).ptpSend g kind m 0) _ (Sends.refl c) hn fun _ h => h.said_ptpSend g kind n 0

theorem Chip.gptpTx_sync (h : c.get (pGPTP g) F.GPTP_INST_STATUS_ROLE = 1) :
    c.gptpTx g 0 = (c.addCnt (pGPTP g) K.GPTP_SYNC_TX (c.masterPorts g)).syncSend g 0 := if_pos h

theorem Chip.gptpTx_announce (h : c.is (pGPTP g) F.GPTP_INST_STATUS_GM_PRESENT = true) :
    c.gptpTx g 1 = (c.addCnt (pGPTP g) K.GPTP_ANNOUNCE_TX (c.masterPorts g)).ptpSends g 1 (c.masterList g) := if_pos h

/-- A Sync interval of a grandmaster. -/
theorem Chip.gptpTx_sync_does (hg : g < 4) (h : c.get (pGPTP g) F.GPTP_INST_STATUS_ROLE = 1) : let d := c.gptpTx g 0
    d.cntAt (cntKey (pGPTP g) K.GPTP_SYNC_TX) = c.cntAt (cntKey (pGPTP g) K.GPTP_SYNC_TX) + BitVec.ofNat 48 (c.masterPorts g)
      ∧ ∀ n ∈ c.masterList g, Said (.gptpMessage n g 0 [c.get (pGPTP g) F.GPTP_INST_CFG_DOMAIN] (c.txStamp n)) d
        ∧ Said (.gptpMessage n g 3 [c.get (pGPTP g) F.GPTP_INST_CFG_DOMAIN, c.txNs n / 1000000000, c.txNs n % 1000000000] (c.txStamp n)) d := by
  rw [c.gptpTx_sync g h]
  exact ⟨((Chip.sends_syncSend ..).kept g _ hg (by decide)).trans (c.cntAt_addCnt_same ..), fun n hn => Chip.said_syncSend _ g 0 hn⟩

/-- An Announce interval of a domain that knows a grandmaster. -/
theorem Chip.gptpTx_announce_does (hg : g < 4) (h : c.is (pGPTP g) F.GPTP_INST_STATUS_GM_PRESENT = true) : let d := c.gptpTx g 1
    d.cntAt (cntKey (pGPTP g) K.GPTP_ANNOUNCE_TX) = c.cntAt (cntKey (pGPTP g) K.GPTP_ANNOUNCE_TX) + BitVec.ofNat 48 (c.masterPorts g)
      ∧ ∀ n ∈ c.masterList g, Said (.gptpMessage n g 1 (c.ptpFields g 1 n 0) (c.txStamp n)) d := by
  rw [c.gptpTx_announce g h]
  exact ⟨((Chip.sends_ptpSends ..).kept g _ hg (by decide)).trans (c.cntAt_addCnt_same ..), fun n hn => Chip.said_ptpSends _ g 1 hn⟩

end

end Sys2Proof.Machine

/-! A Sync of a slave domain that is not the source of the time, and the Syncs it misses (R131). -/

namespace Sys2Proof.Machine

open Sys2Proof

/-! ## Fields of a GPTP page -/

theorem pageValid_pGPTP {g : Nat} (hg : g < 4) : pageValid (pGPTP g) = true := decide_eq_true hg

theorem Chip.is_put_one (c : Chip) {p : Page} {f : Fld} (b : Bool) (hp : pageValid p = true) (hf : f.fits = true) (hs : f.rws = false)
    (hw : f.width = 1) : (c.put p f b.toNat).is p f = b := by
  rw [Chip.is, c.get_put_same _ hp hf hs, hw]
  cases b <;> decide

/-! ## What messages leave -/

section
variable {c d : Chip} (h : Sends c d)
include h

theorem Sends.localTime : d.localTime = c.localTime := by
  obtain ⟨⟨n, o, rfl⟩, -, -⟩ := h
  rfl

theorem Sends.is (p : Page) (f : Fld) : d.is p f = c.is p f := by
  obtain ⟨⟨n, o, rfl⟩, -, -⟩ := h
  rfl

theorem Sends.ptpRt (g : Nat) : d.ptpRt g = c.ptpRt g := by
  obtain ⟨⟨n, o, rfl⟩, -, -⟩ := h
  rfl

end

/-! ## A Sync is processed (R131, R132) -/

section
variable (c : Chip) {g : Nat} (hg : g < 4) (offset ratio : Int)

@[simp] theorem Chip.ptp_showOffset : (c.showOffset g offset ratio).ptp = c.ptp := by
  simp [Chip.showOffset, Chip.put, Chip.setReg]

@[simp] theorem Chip.cnt_showOffset : (c.showOffset g offset ratio).cnt = c.cnt := by
  simp [Chip.showOffset, Chip.put, Chip.setReg]

include hg

/-- An offset shown leaves the page of the time. -/
theorem Chip.reg_showOffset {a : Nat} (ha : a < 0x1000) : (c.showOffset g offset ratio).reg pTIME a = c.reg pTIME a := by
  have hreg : ∀ (d : Chip) (off : Nat) (w : Word), off < 0x1000 → (d.setReg (pGPTP g) off w).reg pTIME a = d.reg pTIME a := fun d off w ho =>
    d.reg_setReg_page w rfl (pageValid_pGPTP hg) ha ho (by simp)
  unfold Chip.showOffset
  dsimp only
  rw [Chip.put, hreg _ _ _ (by decide), hreg _ _ _ (by decide), hreg _ _ _ (by decide), hreg _ _ _ (by decide), hreg _ _ _ (by decide)]

theorem Chip.source_showOffset : (c.showOffset g offset ratio).source = c.source := by
  rw [Chip.source, Chip.get, c.reg_showOffset hg _ _ (by decide)]
  rfl

theorem Chip.localTime_showOffset : (c.showOffset g offset ratio).localTime = c.localTime := by
  refine localTime_congr ?_ ?_ ?_ ?_ ?_
  iterate 4 simp [Chip.showOffset, Chip.put, Chip.setReg]
  rw [Chip.incr, c.reg_showOffset hg _ _ (by decide), c.reg_showOffset hg _ _ (by decide), Chip.incr]

theorem Chip.offsetValid_showOffset : (c.showOffset g offset ratio).is (pGPTP g) F.GPTP_INST_STATUS_OFFSET_VALID = true :=
  Chip.is_put_one _ true (pageValid_pGPTP hg) (by decide) rfl rfl

end

@[simp] theorem Chip.localTime_addCnt (c : Chip) (p : Page) (i n : Nat) : (c.addCnt p i n).localTime = c.localTime := rfl

@[simp] theorem Chip.localTime_setPtp (c : Chip) (g : Nat) (x : PtpRt) : (c.setPtp g x).localTime = c.localTime := rfl

theorem Chip.source_addCnt (c : Chip) (p : Page) (i n : Nat) : (c.addCnt p i n).source = c.source := rfl

theorem Chip.source_setPtp (c : Chip) (g : Nat) (x : PtpRt) : (c.setPtp g x).source = c.source := rfl

theorem Chip.ptpRt_addCnt (c : Chip) (p : Page) (i n g : Nat) : (c.addCnt p i n).ptpRt g = c.ptpRt g := rfl

theorem Chip.ptpRt_setPtp_same (c : Chip) (g : Nat) (x : PtpRt) : (c.setPtp g x).ptpRt g = x := lookupD_store_same ..

/-- The Sync is counted with those passed on, and the cycle in which it came is kept. -/
def Chip.syncHeard (c : Chip) (g : Nat) (followUp : Bool) : Chip :=
  let c := (c.count (pGPTP g) K.GPTP_SYNC_RX).setPtp g { lastSync := c.cycles }
  let c := if followUp then c.count (pGPTP g) K.GPTP_FOLLOW_UP_RX else c
  c.addCnt (pGPTP g) K.GPTP_SYNC_TX (c.masterPorts g)

section
variable (c : Chip) (g : Nat) (followUp : Bool)

theorem Chip.localTime_syncHeard : (c.syncHeard g followUp).localTime = c.localTime := by
  unfold Chip.syncHeard
  dsimp only
  rw [Chip.localTime_addCnt]
  split
  · rw [Chip.localTime_count, Chip.localTime_setPtp, Chip.localTime_count]
  · rw [Chip.localTime_setPtp, Chip.localTime_count]

theorem Chip.source_syncHeard : (c.syncHeard g followUp).source = c.source := by
  unfold Chip.syncHeard
  dsimp only
  rw [Chip.source_addCnt]
  split
  · rw [Chip.count, Chip.source_addCnt, Chip.source_setPtp, Chip.count, Chip.source_addCnt]
  · rw [Chip.source_setPtp, Chip.count, Chip.source_addCnt]

theorem Chip.lastSync_syncHeard : ((c.syncHeard g followUp).ptpRt g).lastSync = c.cycles := by
  unfold Chip.syncHeard
  dsimp only
  rw [Chip.ptpRt_addCnt]
  split
  · rw [Chip.count, Chip.ptpRt_addCnt, Chip.ptpRt_setPtp_same]
  · rw [Chip.ptpRt_setPtp_same]

theorem Chip.cntAt_syncHeard :
    (c.syncHeard g followUp).cntAt (cntKey (pGPTP g) K.GPTP_SYNC_RX) = c.cntAt (cntKey (pGPTP g) K.GPTP_SYNC_RX) + 1 := by
  have hcount : ((c.count (pGPTP g) K.GPTP_SYNC_RX).setPtp g { lastSync := c.cycles }).cntAt (cntKey (pGPTP g) K.GPTP_SYNC_RX)
      = c.cntAt (cntKey (pGPTP g) K.GPTP_SYNC_RX) + 1 := c.cntAt_count_same ..
  unfold Chip.syncHeard
  dsimp only
  rw [Chip.cntAt_addCnt_slot _ _ _ (by decide)]
  split
  · rw [Chip.count, Chip.cntAt_addCnt_slot _ _ _ (by decide), hcount]
  · exact hcount

end

section
variable (c : Chip) {g : Nat} (hg : g < 4) {followUp : Bool}
include hg

/-- Where the domain is not the source, no alarm is judged. -/
theorem Chip.syncRecord_other (offset ratio : Int) (h : c.source ≠ g + 1) :
    c.syncRecord g followUp offset ratio = (c.syncHeard g followUp).showOffset g offset ratio := by
  have hsource : ((c.syncHeard g followUp).showOffset g offset ratio).source ≠ g + 1 := by
    rwa [Chip.source_showOffset _ hg, Chip.source_syncHeard]
  exact if_neg fun hboth => hsource hboth.1

variable {port gm stamp : Nat} {rate ratio : Int}

/-- A Sync of a slave that is not the source: it steps nothing. -/
theorem Chip.gptpSync_other (hon : c.gptpOn g port = true) (hrole : c.get (pGPTP g) F.GPTP_INST_STATUS_ROLE = gSLAVE)
    (hport : c.get (pGPTP g) F.GPTP_INST_STATUS_SLAVE_PORT = port) (h : c.source ≠ g + 1) : ∃ ahead : Int,
    c.gptpSync g port followUp gm stamp rate ratio = ((c.syncHeard g followUp).showOffset g ahead ratio).syncSend g ahead := by
  unfold Chip.gptpSync
  dsimp only
  rw [if_pos ⟨hon, hrole, hport⟩, if_pos h, c.syncRecord_other hg _ _ h]
  exact ⟨_, rfl⟩

/-- It leaves the local time, shows the offset and is counted. -/
theorem Chip.gptpSync_does (hon : c.gptpOn g port = true) (hrole : c.get (pGPTP g) F.GPTP_INST_STATUS_ROLE = gSLAVE)
    (hport : c.get (pGPTP g) F.GPTP_INST_STATUS_SLAVE_PORT = port) (h : c.source ≠ g + 1) :
    let d := c.gptpSync g port followUp gm stamp rate ratio
    d.localTime = c.localTime ∧ d.is (pGPTP g) F.GPTP_INST_STATUS_OFFSET_VALID = true ∧ (d.ptpRt g).lastSync = c.cycles
      ∧ d.cntAt (cntKey (pGPTP g) K.GPTP_SYNC_RX) = c.cntAt (cntKey (pGPTP g) K.GPTP_SYNC_RX) + 1 := by
  obtain ⟨ahead, hsync⟩ := c.gptpSync_other hg hon hrole hport h
  rw [hsync]
  have hsends := Chip.sends_syncSend ((c.syncHeard g followUp).showOffset g ahead ratio) g ahead
  refine ⟨?_, ?_, ?_, ?_⟩
  · rw [hsends.localTime, Chip.localTime_showOffset _ hg, Chip.localTime_syncHeard]
  · rw [hsends.is, Chip.offsetValid_showOffset _ hg]
  · rw [hsends.ptpRt, Chip.ptpRt, Chip.ptp_showOffset, ← Chip.ptpRt, Chip.lastSync_syncHeard]
  · rw [hsends.kept g _ hg (by decide), Chip.cntAt, Chip.cnt_showOffset, ← Chip.cntAt, Chip.cntAt_syncHeard]

end

/-! ## Missed Syncs (R131) -/

/-- A slave that has missed its Syncs shows no offset, reports it and falls silent. -/
theorem Chip.syncTimeout_does (c : Chip) {g : Nat} (hg : g < 4) (hruns : c.fwRuns = true) (hen : c.is (pGPTP g) F.GPTP_INST_CFG_EN = true)
    (hrole : c.get (pGPTP g) F.GPTP_INST_STATUS_ROLE = gSLAVE) (hheard : (c.ptpRt g).silent = false)
    (hdue : (c.ptpRt g).lastSync + c.get (pGPTP g) F.GPTP_INTERVALS_SYNC_RX_TIMEOUT * c.syncInterval g ≤ c.cycles) :
    let d := c.syncTimeout g
    d.is (pGPTP g) F.GPTP_INST_STATUS_OFFSET_VALID = false ∧ d.latched (pGPTP g) E.GPTP_SYNC_TIMEOUT = true ∧ (d.ptpRt g).silent = true := by
  have hp := pageValid_pGPTP hg
  unfold Chip.syncTimeout
  dsimp only
  rw [if_pos ⟨hg, hruns, hen, hrole, ne_true_of_eq_false hheard, hdue⟩]
  refine ⟨?_, Chip.latched_raise _ hp (by decide), ?_⟩
  · rw [Chip.is, Chip.get_raise _ hp hp rfl, Chip.get_count, ← Chip.is]
    exact Chip.is_put_one _ false hp (by decide) rfl rfl
  · rw [Chip.ptpRt, Chip.ptp_raise]
    exact congrArg PtpRt.silent (lookupD_store_same ..)

end Sys2Proof.Machine

/-! The best master (R129, R136): what an Announce leaves shown, and the one offer that is better than the domain's own. -/

namespace Sys2Proof.Machine

open Sys2Proof

/-! ## One field of several entries -/

theorem tget_congr {c d : Chip} (h : d.tblA = c.tblA) (p : Page) (t i : Nat) (f : TFld) : d.tget p t i f = c.tget p t i f := by
  rw [Chip.tget, Chip.tword, h, ← Chip.tword, ← Chip.tget]

/-- An entry keeps its field while another of the table is put. -/
theorem Chip.tget_tput_entry (c : Chip) {p : Page} {t i j : Nat} {f g : TFld} (v : Nat) (hf : f.word < 128) (hg : g.word < 128) (h : i ≠ j) :
    (c.tput p t j g v).tget p t i f = c.tget p t i f := by
  rw [Chip.tget, Chip.tput, Chip.tword_setTword_entry _ _ hf hg h, Chip.tget]

/-- What one step of a pass brings about and the others keep holds at the end of a pass with that step. -/
theorem foldl_holds_of_mem {f : Chip → Nat → Chip} {P : Chip → Prop} {i : Nat} (hset : ∀ d, P (f d i))
    (hkeep : ∀ d j, j ≠ i → P d → P (f d j)) (c : Chip) {l : List Nat} (h : i ∈ l) : P (l.foldl f c) := by
  induction l using List.reverseRecOn with
  | nil => exact absurd h List.not_mem_nil
  | append_singleton l j ih =>
    rw [List.foldl_append, List.foldl_cons, List.foldl_nil]
    by_cases hj : j = i
    · rw [hj]
      exact hset _
    · exact hkeep _ j hj (ih ((List.mem_append.1 h).resolve_right fun hlast => hj (List.mem_singleton.1 hlast).symm))

/-- Each entry of a list holds what has been put into it. -/
theorem Chip.tget_foldl_tput (c : Chip) {p : Page} {t i : Nat} {f : TFld} (v : Nat → Nat) (hp : pageValid p = true) (ht : t < 16)
    (hi : i < 2 ^ 20) (hf : f.word < 128) (hw : f.lo + f.width ≤ 32) {l : List Nat} (h : i ∈ l) :
    (l.foldl (fun (d : Chip) j => d.tput p t j f (v j)) c).tget p t i f = v i % 2 ^ f.width :=
  foldl_holds_of_mem (f := fun d j => d.tput p t j f (v j)) (P := fun d => d.tget p t i f = v i % 2 ^ f.width)
    (fun d => d.tget_tput_same _ hp ht hi hf hw)
    (fun d _ hj hd => (d.tget_tput_entry _ hf hf (Ne.symm hj)).trans hd) c h

/-! ## What the best master leaves shown -/

section
variable (c : Chip) {g : Nat} (hg : g < 4)
include hg

theorem Chip.role_masterShown : (c.masterShown g).get (pGPTP g) F.GPTP_INST_STATUS_ROLE
    = if (c.parent g).isSome then gSLAVE else if c.gmCapable g then 1 else 3 := by
  have hp := pageValid_pGPTP hg
  unfold Chip.masterShown
  dsimp only
  rw [Chip.get_put_apart _ _ hp hp (by decide), Chip.get_put_apart _ _ hp hp (by decide), Chip.get_put_same _ _ hp (by decide) rfl,
    Option.isSome_map]
  split_ifs <;> rfl

theorem Chip.gmPresent_masterShown : (c.masterShown g).is (pGPTP g) F.GPTP_INST_STATUS_GM_PRESENT = (c.grandmaster g).isSome :=
  Chip.is_put_one _ _ (pageValid_pGPTP hg) (by decide) rfl rfl

theorem Chip.slavePort_masterShown :
    (c.masterShown g).get (pGPTP g) F.GPTP_INST_STATUS_SLAVE_PORT = ((c.parent g).map Prod.fst).getD 0 % 32 := by
  have hp := pageValid_pGPTP hg
  unfold Chip.masterShown
  dsimp only
  rw [Chip.get_put_apart _ _ hp hp (by decide), Chip.get_put_same _ _ hp (by decide) rfl]
  rfl

theorem Chip.grandmaster_masterShown : (c.masterShown g).reg (pGPTP g) 0x158 = BitVec.ofNat 32 ((c.grandmaster g).getD 0) := by
  unfold Chip.masterShown
  dsimp only
  rw [Chip.put, Chip.reg_setReg_off _ _ (by decide), Chip.put, Chip.reg_setReg_off _ _ (by decide), Chip.put,
    Chip.reg_setReg_off _ _ (by decide), Chip.reg_setReg_off _ _ (by decide), Chip.reg_setReg_same _ _ (pageValid_pGPTP hg) (by decide)]

omit hg in
theorem Chip.tblA_masterShown (g : Nat) :
    (c.masterShown g).tblA = ((List.range 20).foldl (fun (d : Chip) q => d.tput (pGPTP g) 0 q fPdRole (c.portRole g q)) c).tblA := by
  simp [Chip.masterShown, Chip.put, Chip.setReg]

omit hg in
theorem Chip.portRole_lt (q : Nat) : c.portRole g q < 8 := by
  unfold Chip.portRole
  split
  · decide
  · split
    · decide
    · split
      · decide
      · split
        · decide
        · split <;> decide

theorem Chip.portRole_masterShown {q : Nat} (hq : q < 20) : (c.masterShown g).tget (pGPTP g) 0 q fPdRole = c.portRole g q := by
  have hfold := c.tget_foldl_tput (c.portRole g) (pageValid_pGPTP hg) (by decide : 0 < 16) (by omega : q < 2 ^ 20) (f := fPdRole) (by decide)
    (by decide) (List.mem_range.2 hq)
  exact (tget_congr (c.tblA_masterShown g) ..).trans (hfold.trans (Nat.mod_eq_of_lt (c.portRole_lt q)))

end

/-! ## What a slave port adds -/

theorem Chip.tblA_setPtp (c : Chip) (g : Nat) (x : PtpRt) : (c.setPtp g x).tblA = c.tblA := rfl

theorem Chip.cnt_setPtp (c : Chip) (g : Nat) (x : PtpRt) : (c.setPtp g x).cnt = c.cnt := rfl

/-- From `c` to `d` the roles of a domain and the grandmaster shown stand, with its counters but for the changes of grandmaster. -/
structure SameMaster (g : Nat) (c d : Chip) : Prop where
  tables : d.tblA = c.tblA
  fields : ∀ f : Fld, f.apart F.GPTP_INST_STATUS_OFFSET_VALID = true → f.quietOn (pGPTP g) = true → d.get (pGPTP g) f = c.get (pGPTP g) f
  master : d.reg (pGPTP g) 0x158 = c.reg (pGPTP g) 0x158
  counts : ∀ i, i < 1024 → i ≠ K.GPTP_GM_CHANGE → d.cntAt (cntKey (pGPTP g) i) = c.cntAt (cntKey (pGPTP g) i)

theorem SameMaster.refl (g : Nat) (c : Chip) : SameMaster g c c := ⟨rfl, fun _ _ _ => rfl, rfl, fun _ _ _ => rfl⟩

theorem SameMaster.trans {g : Nat} {c d e : Chip} (h : SameMaster g c d) (k : SameMaster g d e) : SameMaster g c e where
  tables := k.tables.trans h.tables
  fields f hf hq := (k.fields f hf hq).trans (h.fields f hf hq)
  master := k.master.trans h.master
  counts i hi hne := (k.counts i hi hne).trans (h.counts i hi hne)

section
variable (c : Chip) {g : Nat} (hg : g < 4)
include hg

theorem Chip.sameMaster_slaveFollows : SameMaster g (c.masterShown g) (c.slaveFollows g) := by
  have hp := pageValid_pGPTP hg
  unfold Chip.slaveFollows
  dsimp only
  split
  · exact ⟨Chip.tblA_setRegAt .., fun f hf _ => Chip.get_put_apart _ _ hp hp hf, Chip.reg_setReg_off _ _ (by decide),
      fun i _ _ => congrArg (lookupD 0 · _) (Chip.cnt_setRegAt ..)⟩
  · split
    · exact .refl ..
    · exact ⟨Chip.tblA_setPtp .., fun _ _ _ => get_congr (by rfl) .., Chip.reg_setPtp ..,
        fun i _ _ => congrArg (lookupD 0 · _) (Chip.cnt_setPtp ..)⟩

/-- A report of a changed grandmaster. -/
theorem Chip.sameMaster_gmChange : SameMaster g c ((c.count (pGPTP g) K.GPTP_GM_CHANGE).raise (pGPTP g) E.GPTP_GM_CHANGE) where
  tables := Chip.tblA_raise ..
  fields f _ hq := (Chip.get_raise _ (pageValid_pGPTP hg) (pageValid_pGPTP hg) hq).trans (Chip.get_count ..)
  master := (Chip.reg_raise _ _ (pageValid_pGPTP hg) (pageValid_pGPTP hg) (by decide) rfl).trans (reg_congr (by rfl) ..)
  counts i hi hne := by
    have hkey : uncounted (cntKey (pGPTP g) i) = true := by
      have hgptp : cntKey (pGPTP g) i = (14 + g) * 1024 + i := rfl
      have hperf : pageIdx pPERF = 10 := rfl
      have hmsix : cntKey pHOST K.HOST_MSIX_SENT = 119 * 1024 + K.HOST_MSIX_SENT := rfl
      exact decide_eq_true (by omega)
    rw [Chip.cntAt_raise_uncounted _ hkey, Chip.count, Chip.cntAt_addCnt_slot _ _ _ hne]

theorem Chip.sameMaster_bmca : SameMaster g (c.masterShown g) (c.bmca g) := by
  rw [Chip.bmca_eq]
  split
  · exact c.sameMaster_slaveFollows hg
  · exact (c.sameMaster_slaveFollows hg).trans (Chip.sameMaster_gmChange _ hg)

omit hg in
theorem Chip.cnt_masterShown (g : Nat) : (c.masterShown g).cnt = c.cnt := by
  have hfold : ∀ l : List Nat, (l.foldl (fun (d : Chip) q => d.tput (pGPTP g) 0 q fPdRole (c.portRole g q)) c).cnt = c.cnt := fun l =>
    List.foldlRecOn (motive := fun d : Chip => d.cnt = c.cnt) l _ rfl fun _ hd _ _ => (Chip.cnt_setTword ..).trans hd
  simp [Chip.masterShown, Chip.put, Chip.setReg, hfold]

/-- The best master leaves the roles and the grandmaster shown. -/
theorem Chip.bmca_shows : let d := c.bmca g
    d.get (pGPTP g) F.GPTP_INST_STATUS_ROLE = (if (c.parent g).isSome then gSLAVE else if c.gmCapable g then 1 else 3)
      ∧ d.get (pGPTP g) F.GPTP_INST_STATUS_SLAVE_PORT = ((c.parent g).map Prod.fst).getD 0 % 32
      ∧ d.is (pGPTP g) F.GPTP_INST_STATUS_GM_PRESENT = (c.grandmaster g).isSome
      ∧ d.reg (pGPTP g) 0x158 = BitVec.ofNat 32 ((c.grandmaster g).getD 0)
      ∧ (∀ q, q < 20 → d.tget (pGPTP g) 0 q fPdRole = c.portRole g q)
      ∧ d.cntAt (cntKey (pGPTP g) K.GPTP_ANNOUNCE_RX) = c.cntAt (cntKey (pGPTP g) K.GPTP_ANNOUNCE_RX) := by
  have h := c.sameMaster_bmca hg
  refine ⟨?_, ?_, ?_, ?_, fun q hq => ?_, ?_⟩
  · rw [h.fields _ (by decide) rfl, c.role_masterShown hg]
  · rw [h.fields _ (by decide) rfl, c.slavePort_masterShown hg]
  · rw [Chip.is, h.fields _ (by decide) rfl, ← Chip.is, c.gmPresent_masterShown hg]
  · rw [h.master, c.grandmaster_masterShown hg]
  · rw [tget_congr h.tables, c.portRole_masterShown hg hq]
  · rw [h.counts _ (by decide) (by decide), Chip.cntAt, c.cnt_masterShown, ← Chip.cntAt]

end

/-- A grandmaster found where none was shown is reported. -/
theorem Chip.latched_bmca (c : Chip) {g : Nat} (hg : g < 4) (hnone : c.is (pGPTP g) F.GPTP_INST_STATUS_GM_PRESENT = false)
    (hfound : (c.grandmaster g).isSome = true) : (c.bmca g).latched (pGPTP g) E.GPTP_GM_CHANGE = true := by
  have hchanged : c.shownMaster g ≠ c.grandmaster g := by
    rw [Chip.shownMaster, if_neg (ne_true_of_eq_false hnone)]
    exact fun h => by simp [← h] at hfound
  rw [Chip.bmca_eq, if_neg hchanged]
  exact Chip.latched_raise _ (pageValid_pGPTP hg) (by decide)

end Sys2Proof.Machine

/-! An Announce is received (R129). -/

namespace Sys2Proof.Machine

open Sys2Proof

/-! ## An offer taken up -/

/-- The offer of a port has been received. -/
def Chip.offered (c : Chip) (g port : Nat) (o : Offer) : Chip :=
  { c with tm := { c.tm with offers := store none c.tm.offers (g * 32 + port) (some o) } }

section
variable (c : Chip) {g port : Nat} {o : Offer}

/-- The device has sent the Announce itself, or it has come too far. -/
def Offer.ignored (o : Offer) : Prop := 255 ≤ o.path.steps ∨ o.path.sender / 2 ^ 16 % 2 ^ 64 = Config.clockIdentity.toNat

theorem Chip.announceRx_ignored (hon : c.gptpOn g port = true) (h : o.ignored) :
    c.announceRx g port o = c.count (pGPTP g) K.GPTP_ANNOUNCE_RX := (if_pos hon).trans (if_pos h)

theorem Chip.announceRx_judged (hon : c.gptpOn g port = true) (h : ¬ o.ignored) :
    c.announceRx g port o = ((c.offered g port o).count (pGPTP g) K.GPTP_ANNOUNCE_RX).bmca g := (if_pos hon).trans (if_neg h)

/-! ## The one offer -/

/-- The better of the best so far and the offer of a port. -/
def Chip.betterOffer (c : Chip) (g : Nat) (best : Option (Nat × Offer)) (q : Nat) : Option (Nat × Offer) :=
  match c.offerAt g q, best with
  | some o, some (p, b) => if o.rank q < b.rank p then some (q, o) else best
  | some o, none => some (q, o)
  | none, _ => best

theorem Chip.bestOffer_eq : c.bestOffer g = (List.range 20).foldl (c.betterOffer g) none := rfl

/-- Where one port alone has an offer, that is the best. -/
theorem Chip.foldl_betterOffer_single (hport : c.offerAt g port = some o) (hothers : ∀ q, q ≠ port → c.offerAt g q = none) (l : List Nat) :
    l.foldl (c.betterOffer g) (some (port, o)) = some (port, o) ∧ (port ∈ l → l.foldl (c.betterOffer g) none = some (port, o)) := by
  induction l with
  | nil => exact ⟨rfl, fun h => absurd h List.not_mem_nil⟩
  | cons q l ih =>
    rw [List.foldl_cons, List.foldl_cons]
    by_cases hq : q = port
    · subst hq
      have hstays : c.betterOffer g (some (q, o)) q = some (q, o) := by
        simp [Chip.betterOffer, hport]
      have hfirst : c.betterOffer g none q = some (q, o) := by
        simp [Chip.betterOffer, hport]
      rw [hstays, hfirst]
      exact ⟨ih.1, fun _ => ih.1⟩
    · have hpasses : ∀ best, c.betterOffer g best q = best := fun best => by
        simp [Chip.betterOffer, hothers q hq]
      rw [hpasses, hpasses]
      exact ⟨ih.1, fun h => ih.2 ((List.mem_cons.1 h).resolve_left (Ne.symm hq))⟩

section
variable (hon : c.gptpOn g port = true)
include hon

theorem Chip.port_lt_of_gptpOn : g < 4 ∧ port < 20 := by
  simp only [Chip.gptpOn, Bool.and_eq_true, decide_eq_true_eq] at hon
  exact hon.1.1.1.1

variable (hnone : c.tm.offers = []) (hup : c.linkUp port = true) (hbetter : o.root < (c.ownOffer g).root)
include hnone hup hbetter

/-- The first offer that is better than the domain's own makes its port the slave port. -/
theorem Chip.parent_offered_first : (c.offered g port o).parent g = some (port, o) := by
  have hoffers : ∀ q, lookupD none (c.offered g port o).tm.offers (g * 32 + q) = if q = port then some o else none := fun q => by
    show lookupD none (store none c.tm.offers (g * 32 + port) (some o)) (g * 32 + q) = _
    rw [hnone]
    split
    next h => rw [h, lookupD_store_same]
    next h => rw [lookupD_store_other _ _ _ _ (by omega), lookupD]
  have hport : (c.offered g port o).offerAt g port = some o := by
    have hheard : ((c.offered g port o).gptpOn g port && (c.offered g port o).linkUp port) = true := Bool.and_eq_true_iff.2 ⟨hon, hup⟩
    rw [Chip.offerAt, if_pos hheard, hoffers, if_pos rfl]
  have hothers : ∀ q, q ≠ port → (c.offered g port o).offerAt g q = none := fun q hq => by
    rw [Chip.offerAt, hoffers, if_neg hq, ite_self]
  have hbest : (c.offered g port o).bestOffer g = some (port, o) := by
    rw [Chip.bestOffer_eq]
    exact ((c.offered g port o).foldl_betterOffer_single hport hothers (List.range 20)).2 (List.mem_range.2 (c.port_lt_of_gptpOn hon).2)
  rw [Chip.parent, hbest]
  exact if_pos hbetter

theorem Chip.portRole_offered_first : (c.offered g port o).portRole g port = prSLAVE := by
  have hon : (c.offered g port o).gptpOn g port = true := hon
  rw [Chip.portRole, if_neg (not_not.2 hon), c.parent_offered_first ‹_› hnone hup hbetter]
  exact if_pos rfl

end

end

/-! ## What an Announce leaves -/

section
variable (c : Chip) {g port : Nat} {o : Offer} (hon : c.gptpOn g port = true)
include hon

theorem Chip.cntAt_announceRx :
    (c.announceRx g port o).cntAt (cntKey (pGPTP g) K.GPTP_ANNOUNCE_RX) = c.cntAt (cntKey (pGPTP g) K.GPTP_ANNOUNCE_RX) + 1 := by
  by_cases h : o.ignored
  · rw [c.announceRx_ignored hon h, Chip.cntAt_count_same]
  · obtain ⟨-, -, -, -, -, hcount⟩ := ((c.offered g port o).count (pGPTP g) K.GPTP_ANNOUNCE_RX).bmca_shows (c.port_lt_of_gptpOn hon).1
    rw [c.announceRx_judged hon h, hcount, Chip.cntAt_count_same]
    rfl

variable (hjudged : ¬ o.ignored)
include hjudged

theorem Chip.announceRx_shows : let e := c.offered g port o
    let d := c.announceRx g port o
    d.get (pGPTP g) F.GPTP_INST_STATUS_ROLE = (if (e.parent g).isSome then gSLAVE else if c.gmCapable g then 1 else 3)
      ∧ d.get (pGPTP g) F.GPTP_INST_STATUS_SLAVE_PORT = ((e.parent g).map Prod.fst).getD 0 % 32
      ∧ d.is (pGPTP g) F.GPTP_INST_STATUS_GM_PRESENT = (e.grandmaster g).isSome
      ∧ d.reg (pGPTP g) 0x158 = BitVec.ofNat 32 ((e.grandmaster g).getD 0)
      ∧ ∀ q, q < 20 → d.tget (pGPTP g) 0 q fPdRole = e.portRole g q := by
  obtain ⟨hrole, hport, hpresent, hmaster, hroles, -⟩ :=
    ((c.offered g port o).count (pGPTP g) K.GPTP_ANNOUNCE_RX).bmca_shows (c.port_lt_of_gptpOn hon).1
  rw [c.announceRx_judged hon hjudged]
  exact ⟨hrole, hport, hpresent, hmaster, hroles⟩

theorem Chip.latched_announceRx (hnone : c.is (pGPTP g) F.GPTP_INST_STATUS_GM_PRESENT = false)
    (hfound : ((c.offered g port o).grandmaster g).isSome = true) : (c.announceRx g port o).latched (pGPTP g) E.GPTP_GM_CHANGE = true := by
  rw [c.announceRx_judged hon hjudged]
  exact Chip.latched_bmca _ (c.port_lt_of_gptpOn hon).1 hnone hfound

end

end Sys2Proof.Machine

/-! An exchange that measures the delay of a link (R129, R136). -/

namespace Sys2Proof.Machine

open Sys2Proof

section
variable (c : Chip) {g h port n k : Nat}

/-- A word of another domain's page leaves this one's. -/
theorem Chip.tword_setTword_other (w : Word) (hn : n < 128) (hk : k < 128) (hne : h ≠ g) :
    (c.setTword (pGPTP h) 0 port k w).tword (pGPTP g) 0 port n = c.tword (pGPTP g) 0 port n := by
  refine lookupD_store_other _ _ _ _ ?_
  have hpage : ∀ i, pageIdx (pGPTP i) = 14 + i := fun _ => rfl
  unfold tblKey
  rw [hpage, hpage]
  omega

/-- The measured delay and rate ratio of a port, in the page of one domain. -/
def Chip.delayShown (c : Chip) (port delay : Nat) (ratio : Int) (g : Nat) : Chip :=
  (c.setTword (pGPTP g) 0 port 1 (BitVec.ofNat 32 delay)).setTword (pGPTP g) 0 port 2 (BitVec.ofInt 32 ratio)

/-- asCapable of a port, in the page of one domain. -/
def Chip.capableShown (c : Chip) (port : Nat) (able : Bool) (g : Nat) : Chip := c.tput (pGPTP g) 0 port fPdCapable able.toNat

/-- asCapable and the failure of the exchange. -/
def Chip.pdelayFailed (c : Chip) (port : Nat) (able : Bool) (g : Nat) : Chip :=
  (c.capableShown port able g).count (pGPTP g) K.GPTP_PDELAY_FAIL

theorem Chip.tword_delayShown (delay : Nat) (ratio : Int) (hg : g < 4) (hport : port < 2 ^ 20) :
    (c.delayShown port delay ratio g).tword (pGPTP g) 0 port 1 = BitVec.ofNat 32 delay := by
  have hp := pageValid_pGPTP hg
  rw [Chip.delayShown, Chip.tword_setTword _ _ hp (by decide) hport (by decide), if_neg (by decide),
    Chip.tword_setTword _ _ hp (by decide) hport (by decide), if_pos rfl]

theorem Chip.tword_delayShown_other (delay : Nat) (ratio : Int) (hne : h ≠ g) :
    (c.delayShown port delay ratio h).tword (pGPTP g) 0 port 1 = c.tword (pGPTP g) 0 port 1 := by
  rw [Chip.delayShown, Chip.tword_setTword_other _ _ (by decide) (by decide) hne, Chip.tword_setTword_other _ _ (by decide) (by decide) hne]

/-- asCapable stands beside the delay. -/
theorem Chip.tword_capableShown (able : Bool) (hh : h < 4) (hport : port < 2 ^ 20) :
    (c.capableShown port able g).tword (pGPTP h) 0 port 1 = c.tword (pGPTP h) 0 port 1 := by
  by_cases hgh : g = h
  · rw [hgh]
    exact (c.tword_setTword _ (pageValid_pGPTP hh) (by decide) hport (by decide)).trans (if_neg (by decide))
  · exact c.tword_setTword_other _ (by decide) (by decide) hgh

theorem Chip.tis_capableShown (able : Bool) (hg : g < 4) (hport : port < 2 ^ 20) :
    (c.capableShown port able g).tis (pGPTP g) 0 port fPdCapable = able := by
  rw [Chip.tis, Chip.capableShown, Chip.tget_tput_same _ _ (pageValid_pGPTP hg) (by decide) hport (by decide) (by decide)]
  cases able <;> rfl

theorem Chip.tis_capableShown_other (able : Bool) (hne : h ≠ g) :
    (c.capableShown port able h).tis (pGPTP g) 0 port fPdCapable = c.tis (pGPTP g) 0 port fPdCapable := by
  have hword : (c.capableShown port able h).tword (pGPTP g) 0 port fPdCapable.word = c.tword (pGPTP g) 0 port fPdCapable.word :=
    c.tword_setTword_other _ (by decide) (by decide) hne
  rw [Chip.tis, Chip.tget, hword, ← Chip.tget, ← Chip.tis]

theorem Chip.tis_pdelayFailed (able : Bool) (i : Nat) :
    (c.pdelayFailed port able h).tis (pGPTP g) 0 i fPdCapable = (c.capableShown port able h).tis (pGPTP g) 0 i fPdCapable := Chip.tis_count ..

theorem Chip.cntAt_capableShown (able : Bool) (i : Nat) : (c.capableShown port able h).cntAt i = c.cntAt i :=
  congrArg (lookupD 0 · i) (Chip.cnt_setTword ..)

theorem Chip.cntAt_pdelayFailed_same (able : Bool) : (c.pdelayFailed port able g).cntAt (cntKey (pGPTP g) K.GPTP_PDELAY_FAIL)
    = c.cntAt (cntKey (pGPTP g) K.GPTP_PDELAY_FAIL) + 1 := by
  rw [Chip.pdelayFailed, Chip.cntAt_count_same, Chip.cntAt_capableShown]

theorem Chip.cntAt_pdelayFailed_other (able : Bool) (hne : h ≠ g) : (c.pdelayFailed port able h).cntAt (cntKey (pGPTP g) K.GPTP_PDELAY_FAIL)
    = c.cntAt (cntKey (pGPTP g) K.GPTP_PDELAY_FAIL) := by
  have hkey : ∀ i, cntKey (pGPTP i) K.GPTP_PDELAY_FAIL = (14 + i) * 1024 + K.GPTP_PDELAY_FAIL := fun _ => rfl
  rw [Chip.pdelayFailed, Chip.count, Chip.cntAt_addCnt_other _ _ _ _ (by rw [hkey, hkey]; omega), Chip.cntAt_capableShown]

/-- A pass that visits no domain twice counts one failure of each that it visits. -/
theorem Chip.cntAt_foldl_pdelayFailed (able : Bool) {l : List Nat} (hl : l.Nodup) :
    (l.foldl (fun d i => d.pdelayFailed port able i) c).cntAt (cntKey (pGPTP g) K.GPTP_PDELAY_FAIL)
      = if g ∈ l then c.cntAt (cntKey (pGPTP g) K.GPTP_PDELAY_FAIL) + 1 else c.cntAt (cntKey (pGPTP g) K.GPTP_PDELAY_FAIL) := by
  induction l generalizing c with
  | nil => rfl
  | cons i l ih =>
    obtain ⟨hi, hl⟩ := List.nodup_cons.1 hl
    rw [List.foldl_cons, ih _ hl]
    by_cases hig : i = g
    · subst hig
      rw [if_neg hi, if_pos (List.mem_cons_self ..), Chip.cntAt_pdelayFailed_same]
    · rw [Chip.cntAt_pdelayFailed_other _ _ hig]
      simp only [List.mem_cons, Ne.symm hig, false_or]

/-! ## The exchange -/

variable (hon : c.gptpOn g port = true)
include hon

theorem Chip.mem_instancesOn : g ∈ c.instancesOn port :=
  List.mem_filter.2 ⟨List.mem_range.2 (c.port_lt_of_gptpOn hon).1, hon⟩

theorem Chip.instancesOn_nonempty : ¬ (c.instancesOn port).isEmpty = true :=
  fun h => List.ne_nil_of_mem (c.mem_instancesOn hon) (List.isEmpty_iff.1 h)

theorem Chip.pdelayExchange_measured (delay : Nat) (ratio : Int) (able : Bool) : c.pdelayExchange port (some (delay, ratio)) able
    = (c.instancesOn port).foldl (fun d i => d.capableShown port able i) ((List.range 4).foldl (fun d i => d.delayShown port delay ratio i) c) :=
  if_neg (c.instancesOn_nonempty hon)

theorem Chip.pdelayExchange_failed (able : Bool) : c.pdelayExchange port none able
    = (c.instancesOn port).foldl (fun d i => d.pdelayFailed port able i) c :=
  if_neg (c.instancesOn_nonempty hon)

/-- A completed exchange shows asCapable, and the delay in all four pages. -/
theorem Chip.pdelayExchange_measured_shows (delay : Nat) (ratio : Int) (able : Bool) : let d := c.pdelayExchange port (some (delay, ratio)) able
    d.tis (pGPTP g) 0 port fPdCapable = able ∧ ∀ h, h < 4 → d.tword (pGPTP h) 0 port 1 = BitVec.ofNat 32 delay := by
  obtain ⟨hg, hport⟩ := c.port_lt_of_gptpOn hon
  have hport : port < 2 ^ 20 := by omega
  rw [c.pdelayExchange_measured hon]
  refine ⟨foldl_holds_of_mem (P := fun d => d.tis (pGPTP g) 0 port fPdCapable = able) (fun d => d.tis_capableShown able hg hport)
    (fun d i hi hd => (d.tis_capableShown_other able hi).trans hd) _ (c.mem_instancesOn hon), fun h hh => ?_⟩
  refine List.foldlRecOn (motive := fun d : Chip => d.tword (pGPTP h) 0 port 1 = BitVec.ofNat 32 delay) _ _ ?_
    fun d hd i _ => (d.tword_capableShown able hh hport).trans hd
  exact foldl_holds_of_mem (P := fun d => d.tword (pGPTP h) 0 port 1 = BitVec.ofNat 32 delay) (fun d => d.tword_delayShown delay ratio hh hport)
    (fun d i hi hd => (d.tword_delayShown_other delay ratio hi).trans hd) c (List.mem_range.2 hh)

/-- A failed exchange shows asCapable and is counted once. -/
theorem Chip.pdelayExchange_failed_shows (able : Bool) : let d := c.pdelayExchange port none able
    d.tis (pGPTP g) 0 port fPdCapable = able
      ∧ d.cntAt (cntKey (pGPTP g) K.GPTP_PDELAY_FAIL) = c.cntAt (cntKey (pGPTP g) K.GPTP_PDELAY_FAIL) + 1 := by
  obtain ⟨hg, hport⟩ := c.port_lt_of_gptpOn hon
  have hmem := c.mem_instancesOn hon
  rw [c.pdelayExchange_failed hon]
  refine ⟨foldl_holds_of_mem (P := fun d => d.tis (pGPTP g) 0 port fPdCapable = able)
    (fun d => (d.tis_pdelayFailed able port).trans (d.tis_capableShown able hg (by omega)))
    (fun d i hi hd => (d.tis_pdelayFailed able port).trans ((d.tis_capableShown_other able hi).trans hd)) c hmem, ?_⟩
  have hnodup : (c.instancesOn port).Nodup := List.nodup_range.filter _
  rw [c.cntAt_foldl_pdelayFailed able hnodup, if_pos hmem]

end

end Sys2Proof.Machine

/-! The time words of the ring and gPTP (R129 to R133, R136), put together. -/

namespace Sys2Proof.Machine

open Sys2Proof

/-- Settles O17: each command does what the lemmas above say of its operation. -/
theorem timeDistribution : Obligations.TimeDistribution := by
  unfold Obligations.TimeDistribution
  intro s dt t time epoch g port gm stamp prio1 quality prio2 delay path fu able rate ratio c p word
  refine ⟨fun hhead => .of_run rfl fun l hl hup => c.said_timeWordTx hhead hl hup,
    fun ht hup hring hsource hlink hloss => ⟨fun hinv => ?_, fun hvalid he hlow hhigh => ?_, fun hvalid he => ?_, fun hvalid => ?_⟩,
    fun hon hrole hport hother => ?_, fun hg hruns hen hrole hheard hdue => ?_, fun hg => ⟨fun hrole => ?_, fun hpresent => ?_, ?_⟩,
    fun hon => ?_, fun hon => ⟨?_, ?_⟩⟩
  · exact .of_run rfl (c.timeWordRx_steps ht hup hring hsource hlink hloss hinv)
  · exact .of_run rfl (c.timeWordRx_stays ht hup hring hsource hlink hvalid he hlow hhigh)
  · obtain ⟨e, he, hne⟩ := he
    exact .of_run rfl (c.timeWordRx_changed ht hup hring hsource hlink hvalid he hne)
  · exact .of_run rfl (c.timeWordRx_unsure ht hup hring hsource hlink hvalid)
  · exact .of_run rfl (c.gptpSync_does (c.port_lt_of_gptpOn hon).1 hon hrole hport hother)
  · exact .of_run rfl (c.syncTimeout_does hg hruns hen hrole hheard hdue)
  · exact .of_run rfl (c.gptpTx_sync_does g hg hrole)
  · exact .of_run rfl (c.gptpTx_announce_does g hg hpresent)
  · exact .of_run rfl fun n hn => c.said_ptpSends g 2 hn
  · intro o e own
    refine .of_run rfl ⟨c.cntAt_announceRx hon, fun hignored => ?_, fun hsteps hforeign => ?_⟩
    · rw [c.announceRx_ignored (o := o) hon hignored]
      rfl
    · have hjudged : ¬ o.ignored := not_or.2 ⟨not_le.2 hsteps, hforeign⟩
      obtain ⟨hrole, hport, hpresent, hmaster, hroles⟩ := c.announceRx_shows hon hjudged
      refine ⟨hrole, hpresent, hmaster, hroles, fun hnone hfound => c.latched_announceRx hon hjudged hnone hfound, fun hnone hup hbetter => ?_⟩
      have hparent := c.parent_offered_first hon hnone hup hbetter
      have hlt := (c.port_lt_of_gptpOn hon).2
      rw [hparent] at hrole hport
      exact ⟨hrole, hport.trans (Nat.mod_eq_of_lt (show port < 32 by omega)),
        (hroles port hlt).trans (c.portRole_offered_first hon hnone hup hbetter)⟩
  · exact .of_run rfl (c.pdelayExchange_measured_shows hon delay ratio able)
  · exact .of_run rfl (c.pdelayExchange_failed_shows hon able)

end Sys2Proof.Machine

/-! What the pins, the pulse inputs and the logs share: fields that events leave alone, levels of pins bit by bit. -/

namespace Sys2Proof.Machine

open Sys2Proof

/-! ## Fields through events -/

/-- What is read from neither registers, counters nor outputs stands through events. -/
theorem Loud.field {α : Type} {c d : Chip} (h : Loud c d) (f : Chip → α) (hf : ∀ r n o, f (c.noise r n o) = f c) : f d = f c := by
  obtain ⟨⟨r, n, o, rfl⟩, -⟩ := h
  exact hf r n o

theorem Chip.raise_field {α : Type} (c : Chip) {p : Page} (b : Nat) (hp : pageValid p = true) (f : Chip → α)
    (hf : ∀ r n o, f (c.noise r n o) = f c) : f (c.raise p b) = f c := (Loud.raise c b hp).field f hf

/-! ## Levels of pins (R147) -/

theorem add_eq_or_of_and_eq_zero {a b : Nat} (h : a &&& b = 0) : a + b = a ||| b := by
  have hlt : a + b < 2 ^ (a + b) := Nat.lt_two_pow_self
  have ha : a < 2 ^ (a + b) := by omega
  have hb : b < 2 ^ (a + b) := by omega
  have hdisjoint : BitVec.ofNat (a + b) a &&& BitVec.ofNat (a + b) b = 0#(a + b) := by
    apply BitVec.eq_of_toNat_eq
    simp [Nat.mod_eq_of_lt ha, Nat.mod_eq_of_lt hb, h]
  have hor := congrArg BitVec.toNat (BitVec.add_eq_or_of_and_eq_zero _ _ hdisjoint)
  simpa [Nat.mod_eq_of_lt ha, Nat.mod_eq_of_lt hb, Nat.mod_eq_of_lt hlt] using hor

theorem sub_and_eq_xor (a m : Nat) : a - (a &&& m) = a ^^^ (a &&& m) := by
  have hsplit : (a &&& m) + (a ^^^ (a &&& m)) = a := by
    rw [add_eq_or_of_and_eq_zero] <;> (apply Nat.eq_of_testBit_eq; intro i; simp; cases a.testBit i <;> simp)
  omega

theorem testBit_sub_and (a m i : Nat) : (a - (a &&& m)).testBit i = (a.testBit i && !m.testBit i) := by
  rw [sub_and_eq_xor]
  cases ha : a.testBit i <;> simp [ha]

/-- Bits of a mask replaced by other levels. -/
theorem testBit_replaced (a m l i : Nat) : (a - (a &&& m) + (l &&& m)).testBit i = if m.testBit i then l.testBit i else a.testBit i := by
  have hdisjoint : (a - (a &&& m)) &&& (l &&& m) = 0 := by
    apply Nat.eq_of_testBit_eq
    intro j
    rw [Nat.testBit_and, testBit_sub_and]
    cases hm : m.testBit j <;> simp [hm]
  rw [add_eq_or_of_and_eq_zero hdisjoint, Nat.testBit_or, testBit_sub_and]
  cases hm : m.testBit i <;> simp [hm]


/-- The level that an E pin drives. -/
def Chip.pinHigh (c : Chip) (b : Nat) : Bool := (c.get pEVIO F.EVIO_OUT_LEVEL_L).testBit b

theorem Chip.pinHigh_setPins (c : Chip) (mask levels : Nat) {b : Nat} (hmode : c.mode ≠ modeSentry) (hb : b < 8) :
    (c.setPins mask levels).pinHigh b
      = if mask.testBit b && (c.get pEVIO F.EVIO_OUT_CFG_EN).testBit b then levels.testBit b else c.pinHigh b := by
  rw [Chip.setPins, if_neg hmode, Chip.pinHigh, c.get_put_same _ rfl rfl rfl, Nat.testBit_mod_two_pow, testBit_replaced, Nat.testBit_and]
  simp [hb, Chip.pinHigh]

theorem Chip.setPins_field {α : Type} (c : Chip) (mask levels : Nat) (f : Chip → α) (hf : ∀ r n o, f (c.noise r n o) = f c) :
    f (c.setPins mask levels) = f c := by
  unfold Chip.setPins
  dsimp only
  split
  · rfl
  · exact hf ..

/-- The one pulse on E pins has ended (R148). -/
theorem Chip.pinPulseEnd_one (c : Chip) {k : PinPulse} (hk : c.pinPulses = [k]) (hdue : k.due ≤ c.cycles) :
    c.pinPulseEnd = ({ c with pinPulses := [] } : Chip).setPins k.mask k.levels := by
  simp [Chip.pinPulseEnd, hk, hdue]

/-! ## OUT_MANUAL (R147) -/

/-- A field inside the mask of a write reads what is written. -/
theorem bitsAt_written (w v m : Word) {lo width : Nat} (h : ∀ i < width, m.getLsbD (lo + i) = true) :
    bitsAt ((w &&& ~~~m) ||| (v &&& m)) lo width = bitsAt v lo width := by
  apply Nat.eq_of_testBit_eq
  intro i
  rw [testBit_bitsAt, testBit_bitsAt]
  by_cases hi : i < width
  · simp [h i hi]
  · simp [hi]

/-- The word that sets mask and levels, and the register once it holds them. -/
def manualWord (mask levels : Nat) : Word := BitVec.ofNat 32 (mask % 256 + 256 * (levels % 256))

def Chip.manualSet (c : Chip) (mask levels : Nat) : Chip :=
  c.setReg pEVIO 0x148 ((c.reg pEVIO 0x148 &&& ~~~0xFFFF#32) ||| (manualWord mask levels &&& 0xFFFF#32))

theorem Chip.writePlain_outManual (c : Chip) (req : Requester) (mask levels : Nat) (hl : c.locked pEVIO = false) :
    c.writePlain req pEVIO 0x148 (manualWord mask levels) = (c.manualSet mask levels, 0) := by
  have hrow : regRow pEVIO 0x148 = some ⟨0x148, 0, 1, .rw, 0xFFFF, 0⟩ := rfl
  have hfree : c.refuseWrite pEVIO 0x148 (lockFreezes pEVIO 0x148) = 0 := by
    rw [Chip.refuseWrite, if_neg (by decide), hrow]
    simp [hl]
  have hkey : sideKey pEVIO 0x148 (sideOf pEVIO 0x148 req) = regKey pEVIO 0x148 := by
    have hside : sideOf pEVIO 0x148 req = 0 := rfl
    rw [hside, sideKey, Nat.zero_mul, Nat.add_zero]
  have hreg : c.regAt (regKey pEVIO 0x148) = c.reg pEVIO 0x148 := by
    rw [Chip.regAt, regDefault_regKey rfl (by decide), Chip.reg]
  rw [Chip.writePlain, hfree]
  simp only [hrow, hkey, hreg]
  rfl

section
variable (c : Chip) (mask levels : Nat)

theorem Chip.mask_manualSet : (c.manualSet mask levels).get pEVIO F.EVIO_OUT_MANUAL_MASK = mask % 256 := by
  change bitsAt ((c.manualSet mask levels).reg pEVIO 0x148) 0 8 = _
  rw [Chip.manualSet, c.reg_setReg_same _ rfl (by decide), bitsAt_written _ _ _ (by decide)]
  simp only [manualWord, bitsAt, BitVec.toNat_ofNat, Nat.shiftRight_eq_div_pow]
  omega

theorem Chip.levels_manualSet : (c.manualSet mask levels).get pEVIO F.EVIO_OUT_MANUAL_LEVELS = levels % 256 := by
  change bitsAt ((c.manualSet mask levels).reg pEVIO 0x148) 8 8 = _
  rw [Chip.manualSet, c.reg_setReg_same _ rfl (by decide), bitsAt_written _ _ _ (by decide)]
  simp only [manualWord, bitsAt, BitVec.toNat_ofNat, Nat.shiftRight_eq_div_pow]
  omega

theorem Chip.get_manualSet {p : Page} {f : Fld} (hp : pageValid p = true) (hf : f.fits = true) (h : f.actOff ≠ 0x148) :
    (c.manualSet mask levels).get p f = c.get p f := c.get_setReg_elsewhere hp rfl hf _ (by decide) h

theorem Chip.mode_manualSet : (c.manualSet mask levels).mode = c.mode := by
  rw [Chip.mode, c.get_manualSet mask levels rfl rfl (by decide), Chip.manualSet, Chip.setReg, Chip.dormant_setRegAt, Chip.mode]

theorem Chip.manualPins_shown (hmode : c.mode ≠ modeSentry) : let d := (c.manualSet mask levels).manualPins
    d.get pEVIO F.EVIO_OUT_MANUAL_MASK = mask % 256 ∧ d.get pEVIO F.EVIO_OUT_MANUAL_LEVELS = levels % 256
      ∧ ∀ b, b < 8 → d.pinHigh b
        = if mask.testBit b && (c.get pEVIO F.EVIO_OUT_CFG_EN).testBit b && !c.pinsNamed.testBit b then levels.testBit b else c.pinHigh b := by
  refine ⟨?_, ?_, fun b hb => ?_⟩
  · rw [Chip.manualPins, Chip.get_setPins _ _ _ rfl (by decide), c.mask_manualSet]
  · rw [Chip.manualPins, Chip.get_setPins _ _ _ rfl (by decide), c.levels_manualSet]
  · rw [Chip.manualPins, Chip.pinHigh_setPins _ _ _ (by rwa [c.mode_manualSet]) hb, c.mask_manualSet, c.levels_manualSet,
      c.get_manualSet mask levels rfl rfl (by decide), Chip.pinHigh, c.get_manualSet mask levels rfl rfl (by decide), testBit_sub_and,
      show mask % 256 = mask % 2 ^ 8 from rfl, show levels % 256 = levels % 2 ^ 8 from rfl, Nat.testBit_mod_two_pow, Nat.testBit_mod_two_pow,
      decide_eq_true hb, Bool.true_and, Bool.true_and]
    have hnamed : (c.manualSet mask levels).pinsNamed = c.pinsNamed := rfl
    rw [hnamed, Bool.and_right_comm, Chip.pinHigh]

end

/-! ## Pulse inputs (R158, R160, R168) -/

@[simp] theorem Chip.pulse_setPulse_same (c : Chip) (p : Nat) (x : PulseRt) : (c.setPulse p x).pulse p = x := lookupD_store_same ..

theorem pulse_congr {c d : Chip} (h : d.pulses = c.pulses) (p : Nat) : d.pulse p = c.pulse p := by rw [Chip.pulse, h, Chip.pulse]

theorem pulseCount_congr {c d : Chip} {p : Nat} (h : d.cntAt (pulseKey p) = c.cntAt (pulseKey p)) : d.pulseCount p = c.pulseCount p :=
  congrArg BitVec.toNat h

theorem pulseKey_ne_cntKey {p i : Nat} (h : i < 16) : pulseKey p ≠ cntKey pPULSE i := by
  unfold pulseKey cntKey
  omega

theorem uncounted_pulseKey {p : Nat} (hp : p < 4) : uncounted (pulseKey p) = true := by
  interval_cases p <;> rfl

theorem fits_pulseFld {f : Fld} {p : Nat} (hp : p < 4) (ho : f.off < 0x200) (hw : f.lo + f.width ≤ 32) : (pulseFld f p).fits = true := by
  have hoff : f.off + 0x20 * p < 0x800 := by omega
  simp [Fld.fits, pulseFld, hoff, hw]

section
variable (c : Chip) {p held : Nat} {level : Bool}

/-- What a counted edge leaves beside the registers that show it (R158). -/
def Chip.edgeNoted (c : Chip) (p ago : Nat) : Chip :=
  let x := c.pulse p
  let m := c.mono - 2 * ago
  let tp := match x.mLast with | some t => m - t | none => 0
  let d := c.setPulse p { x with
    mLast := some m, tp := tp, edges := true, moving := x.edges, stop := c.get pPULSE (pulseFld F.PULSE_PCFG_p_STOP_MS p) }
  d.setCntAt (pulseKey p) (c.cntAt (pulseKey p) + 1)

theorem Chip.countEdge_noted (ago : Nat) :
    (c.countEdge p ago).cnt = (c.edgeNoted p ago).cnt ∧ (c.countEdge p ago).pulses = (c.edgeNoted p ago).pulses := by
  unfold Chip.countEdge
  dsimp only
  split_ifs
  · exact ⟨rfl, rfl⟩
  · exact ⟨rfl, rfl⟩

theorem Chip.countEdge_shown (ago : Nat) : (c.countEdge p ago).pulseCount p = (c.pulseCount p + 1) % 2 ^ 48
    ∧ ((c.countEdge p ago).pulse p).level = (c.pulse p).level := by
  obtain ⟨hcnt, hpulses⟩ := c.countEdge_noted (p := p) ago
  have hcount : (c.countEdge p ago).cntAt (pulseKey p) = c.cntAt (pulseKey p) + 1 := by
    rw [Chip.cntAt, hcnt]
    exact Chip.cntAt_setCntAt_same ..
  refine ⟨?_, ?_⟩
  · rw [Chip.pulseCount, hcount, BitVec.toNat_add]
    rfl
  · rw [pulse_congr hpulses]
    exact (congrArg PulseRt.level (Chip.pulse_setPulse_same ..)).trans rfl

theorem Chip.lt_of_pulseOn (hon : c.pulseOn p = true) : p < 4 := by
  simp only [Chip.pulseOn, Bool.and_eq_true, decide_eq_true_eq] at hon
  exact hon.1.1

theorem Chip.pulseEdge_counted (hon : c.pulseOn p = true) (hlevel : level ≠ (c.pulse p).level) (hlong : c.pulseFilter p (c.cycles - held) ≤ held)
    (hedge : level = !c.is pPULSE (pulseFld F.PULSE_PCFG_p_EDGE p)) :
    (c.pulseEdge p level held).pulseCount p = (c.pulseCount p + 1) % 2 ^ 48 ∧ ((c.pulseEdge p level held).pulse p).level = level := by
  have hp := c.lt_of_pulseOn hon
  have hshown := (c.setPulse p { c.pulse p with level := level }).countEdge_shown (p := p) held
  have hedge' : level = !(c.setPulse p { c.pulse p with level := level }).is pPULSE (pulseFld F.PULSE_PCFG_p_EDGE p) := hedge
  rw [Chip.pulse_setPulse_same] at hshown
  unfold Chip.pulseEdge
  dsimp only
  rw [if_neg (by simp [hlevel, hp]), if_neg (by simp [hon]), if_neg (by simpa using hlong), if_pos hedge']
  exact hshown

theorem Chip.pulseEdge_short (hon : c.pulseOn p = true) (hlevel : level ≠ (c.pulse p).level) (hshort : held < c.pulseFilter p (c.cycles - held)) :
    c.pulseEdge p level held = c.count pPULSE p := by
  have hp := c.lt_of_pulseOn hon
  unfold Chip.pulseEdge
  dsimp only
  rw [if_neg (by simp [hlevel, hp]), if_neg (by simp [hon]), if_pos (by simpa using hshort)]

theorem Chip.pulseEdge_off (hp : p < 4) (hoff : c.pulseOn p = false) (hlevel : level ≠ (c.pulse p).level)
    (hlong : c.pulseFilter p (c.cycles - held) ≤ held) : c.pulseEdge p level held = c.setPulse p { c.pulse p with level := level } := by
  unfold Chip.pulseEdge
  dsimp only
  rw [if_neg (by simp [hlevel, hp]), if_pos (by simp [hoff]), if_neg (by simpa using hlong)]

theorem Chip.pulseStop_shown {t : Nat} (hp : p < 4) (hedges : (c.pulse p).edges = true) (hlast : (c.pulse p).mLast = some t)
    (hstop : t + (c.pulse p).stop * 1000000 ≤ c.mono) :
    (c.pulseStop p).is pPULSE (pulseFld F.PULSE_PSTATUS_p_MOVING p) = false ∧ ((c.pulseStop p).pulse p).moving = false := by
  unfold Chip.pulseStop
  dsimp only
  rw [hlast]
  dsimp only
  rw [if_pos ⟨hedges, hstop⟩]
  refine ⟨?_, ?_⟩
  · rw [Chip.is, Chip.get_put_same _ _ rfl (fits_pulseFld hp (by decide) (by decide)) rfl]
    rfl
  · exact congrArg PulseRt.moving (c.pulse_setPulse_same p _)

/-! ## PCMD (R160, R168) -/

/-- The count that PRESET gives a pulse input. -/
def Chip.presetValue (c : Chip) (p : Nat) : Nat := w48Of (c.reg pPULSE (0x158 + 0x20 * p)) (c.reg pPULSE (0x15C + 0x20 * p))

theorem w48Of_lt (lo hi : Word) : w48Of lo hi < 2 ^ 48 := by
  have hlo := lo.isLt
  have hhi : hi.toNat % 2 ^ 16 < 2 ^ 16 := Nat.mod_lt _ (by decide)
  unfold w48Of
  omega

theorem bitList_two_pow (hp : p < 4) : bitList (2 ^ p) 4 = [p] := by
  interval_cases p <;> rfl

theorem Chip.pulsePreset_taken (hp : p < 4) (hfree : c.armedOn p = []) : let d := c.pulsePreset (2 ^ p)
    d.get pPULSE (pulseFld F.PULSE_PSTATUS_p_PRESET p) = 1 ∧ d.pulseCount p = c.presetValue p := by
  unfold Chip.pulsePreset
  rw [bitList_two_pow hp]
  simp only [List.foldl_cons, List.foldl_nil, hfree, List.isEmpty_nil, if_true]
  refine ⟨?_, ?_⟩
  · exact Chip.get_put_same _ _ rfl (fits_pulseFld hp (by decide) (by decide)) rfl
  · have hcnt := c.cntAt_setCntAt_same (pulseKey p) (BitVec.ofNat 48 (c.presetValue p))
    have hlt : c.presetValue p < 2 ^ 48 := w48Of_lt ..
    exact (congrArg BitVec.toNat hcnt).trans (by rw [BitVec.toNat_ofNat, Nat.mod_eq_of_lt hlt])

theorem Chip.pulsePreset_refused (hp : p < 4) (harmed : c.armedOn p ≠ []) : let d := c.pulsePreset (2 ^ p)
    d.get pPULSE (pulseFld F.PULSE_PSTATUS_p_PRESET p) = 2 ∧ d.pulseCount p = c.pulseCount p ∧ d.latched pPULSE E.PULSE_PRESET_REFUSED = true := by
  have hfits : (pulseFld F.PULSE_PSTATUS_p_PRESET p).fits = true := fits_pulseFld hp (by decide) (by decide)
  have hquiet : (pulseFld F.PULSE_PSTATUS_p_PRESET p).quietOn pPULSE = true := by
    interval_cases p <;> rfl
  unfold Chip.pulsePreset
  rw [bitList_two_pow hp]
  simp only [List.foldl_cons, List.foldl_nil, List.isEmpty_iff, harmed, if_false]
  refine ⟨?_, ?_, Chip.latched_raise _ rfl (by decide)⟩
  · rw [Chip.get_raise _ rfl rfl hquiet]
    exact Chip.get_put_same _ _ rfl hfits rfl
  · exact pulseCount_congr (Chip.cntAt_raise_uncounted _ (uncounted_pulseKey hp) _ _)

end

/-! ## I pins and the logs (R156, R169, R264) -/

section
variable (c : Chip) {pin held : Nat} {rising : Bool}

/-- An edge of an I pin that is selected and has held for the filter's time. -/
def Chip.edgeSeen (c : Chip) (pin : Nat) (rising : Bool) (held : Nat) : Prop :=
  pin < 8 ∧ c.ready pEVIO = true ∧ (c.get pEVIO F.EVIO_IN_CFG_EN).testBit pin = true
    ∧ (if rising then c.get pEVIO F.EVIO_IN_CFG_RISE else c.get pEVIO F.EVIO_IN_CFG_FALL).testBit pin = true
    ∧ 5 * c.get pEVIO F.EVIO_IN_FILTER_F ≤ held

theorem Chip.inputEdge_logged (h : c.edgeSeen pin rising held) (hroom : c.ilog.length < 64) : let d := c.inputEdge pin rising held
    d.latched pEVIO E.EVIO_ILOG = true ∧ d.ilog = c.ilog ++ [⟨c.stampAgo held, pin, rising, c.epoch, c.ilogSeq⟩] := by
  unfold Chip.edgeSeen at h
  unfold Chip.inputEdge
  dsimp only
  rw [if_pos h, if_pos hroom]
  exact ⟨Chip.latched_raise _ rfl (by decide), Chip.raise_field _ _ rfl Chip.ilog fun _ _ _ => rfl⟩

theorem Chip.inputEdge_lost (h : c.edgeSeen pin rising held) (hfull : 64 ≤ c.ilog.length) : let d := c.inputEdge pin rising held
    d.latched pEVIO E.EVIO_ILOG_LOST = true ∧ d.ilog = c.ilog := by
  unfold Chip.edgeSeen at h
  unfold Chip.inputEdge
  dsimp only
  rw [if_pos h, if_neg (by omega)]
  exact ⟨Chip.latched_raise _ rfl (by decide), Chip.raise_field _ _ rfl Chip.ilog fun _ _ _ => rfl⟩

theorem Chip.ilog_ilogAck {e : IlogEntry} {es : List IlogEntry} (h : c.ilog = e :: es) (hseq : e.seq < 65536) : (c.ilogAck e.seq).ilog = es := by
  simp [Chip.ilogAck, h, Nat.mod_eq_of_lt hseq]

theorem Chip.rlog_rlogAck {r : RlogEntry} {rs : List RlogEntry} (h : c.rlog = r :: rs) (hseq : r.seq < 65536) : (c.rlogAck r.seq).rlog = rs := by
  simp [Chip.rlogAck, h, Nat.mod_eq_of_lt hseq]

end

/-! ## What a posted command finds -/

section
variable (c : Chip) (req : Requester)

@[simp] theorem Chip.armedOn_sequenced (p : Nat) : (c.sequenced req).armedOn p = c.armedOn p := by
  have harmed : (c.sequenced req).armed = c.armed := by simp [Chip.armed]
  have hone : ∀ i f, (c.sequenced req).one i f = c.one i f := fun i f => by simp [Chip.one, Chip.tget, Chip.tword]
  simp only [Chip.armedOn, harmed, hone]

@[simp] theorem Chip.presetValue_sequenced (p : Nat) : (c.sequenced req).presetValue p = c.presetValue p := by
  simp [Chip.presetValue]

@[simp] theorem Chip.pulseCount_sequenced (p : Nat) : (c.sequenced req).pulseCount p = c.pulseCount p := by
  simp [Chip.pulseCount, Chip.cntAt]

@[simp] theorem Chip.pinsNamed_sequenced : (c.sequenced req).pinsNamed = c.pinsNamed := by
  simp [Chip.pinsNamed]

@[simp] theorem Chip.pinHigh_sequenced (b : Nat) : (c.sequenced req).pinHigh b = c.pinHigh b := by
  simp [Chip.pinHigh]

end

/-- Settles O19: each command does what the lemmas above say of its operation. -/
theorem pinsAndLogs : Obligations.PinsAndLogs := by
  intro s dt p held mask levels req rising k r rs e es c pin en
  refine ⟨fun hon hlevel => ⟨fun hlong hedge => .of_run rfl (c.pulseEdge_counted hon hlevel hlong hedge), fun hshort => .of_run rfl ?_⟩,
    fun hp hoff hlong hlevel => .of_run rfl ?_, fun t hp hedges hlast hstop => .of_run rfl (c.pulseStop_shown hp hedges hlast hstop),
    fun hp ht => ⟨fun hfree => .of_run rfl ?_, fun harmed => .of_run rfl ?_⟩, fun hk hdue hmode => .of_run rfl ?_,
    fun hp hready hen hsel hlong => ⟨fun hroom => .of_run rfl (c.inputEdge_logged ⟨hp, hready, hen, hsel, hlong⟩ hroom),
      fun hfull => .of_run rfl (c.inputEdge_lost ⟨hp, hready, hen, hsel, hlong⟩ hfull)⟩,
    fun ht => ⟨fun hlog hseq => .of_run rfl ?_, fun hlog hseq => .of_run rfl ?_, fun hl hmode => .of_run rfl ?_⟩⟩
  case refine_1 =>
    have hp := c.lt_of_pulseOn hon
    rw [c.pulseEdge_short hon hlevel hshort]
    exact ⟨pulseCount_congr (c.cntAt_addCnt_other _ _ _ (pulseKey_ne_cntKey (by omega))), rfl, c.cntAt_count_same _ _⟩
  case refine_2 =>
    rw [c.pulseEdge_off hp hoff hlevel hlong]
    exact ⟨rfl, congrArg PulseRt.level (c.pulse_setPulse_same ..)⟩
  case refine_3 =>
    rw [Chip.command_ok _ ht rfl]
    have hshown := (c.sequenced req).pulsePreset_taken hp (by simpa using hfree)
    rwa [Chip.presetValue_sequenced] at hshown
  case refine_4 =>
    rw [Chip.command_ok _ ht rfl]
    simpa using (c.sequenced req).pulsePreset_refused hp (by simpa using harmed)
  case refine_5 =>
    rw [c.pinPulseEnd_one hk hdue]
    exact ⟨Chip.setPins_field _ _ _ Chip.pinPulses fun _ _ _ => rfl, fun b hb => Chip.pinHigh_setPins _ _ _ hmode hb⟩
  case refine_6 =>
    rw [Chip.command_ok _ ht rfl]
    exact (c.sequenced req).ilog_ilogAck (by simpa using hlog) hseq
  case refine_7 =>
    rw [Chip.command_ok _ ht rfl]
    exact (c.sequenced req).rlog_rlogAck (by simpa using hlog) hseq
  case refine_8 =>
    have hwrite : (c.sequenced req).writePlain req pEVIO 0x148 (BitVec.ofNat 32 (mask % 256 + 256 * (levels % 256)))
        = ((c.sequenced req).manualSet mask levels, 0) := Chip.writePlain_outManual _ req mask levels (by simpa using hl)
    have hshown := (c.sequenced req).manualPins_shown mask levels (by simpa using hmode)
    simp only [Chip.pinsNamed_sequenced, Chip.pinHigh_sequenced, Chip.get_sequenced] at hshown
    rw [Chip.posted_ok _ ht rfl (d := ((c.sequenced req).manualSet mask levels).manualPins)]
    · exact hshown
    · simp only [hwrite]

end Sys2Proof.Machine

/-! Cinch: what handing over a safe frame looks at, and what it leaves (R161 to R163, R336). -/

namespace Sys2Proof.Machine

open Sys2Proof

/-! ## Registers by their offset, on the map or not -/

/-- The registers at an offset of every page hold in `d` what they held in `c`. -/
structure SameAt (c d : Chip) (off : Nat) : Prop where
  lookup : ∀ dflt k, k % 0x1000 = off → lookupD dflt d.regs k = lookupD dflt c.regs k

/-- The offsets that events write, on some page. -/
def eventOff (off : Nat) : Bool := decide (off = 0x018 ∨ off = 0x148 ∨ off = 0x380 ∨ off = 0x384)

section
variable {c d : Chip} {off : Nat} (h : SameAt c d off)
include h

theorem SameAt.same {e : Chip} (hr : e.regs = d.regs) : SameAt c e off := ⟨fun dflt k hk => by rw [hr, h.lookup dflt k hk]⟩

theorem SameAt.reg {p : Page} (ho : off < 0x1000) : d.reg p off = c.reg p off := h.lookup _ _ (regKey_mod p ho)

theorem SameAt.get {p : Page} {f : Fld} (hf : f.actOff = off) (ho : off < 0x1000) : d.get p f = c.get p f := by
  rw [Chip.get, hf, h.reg ho, Chip.get, hf]

theorem SameAt.setReg {p : Page} {a : Nat} (w : Word) (ha : a < 0x1000) (hne : a ≠ off) : SameAt c (d.setReg p a w) off := by
  refine ⟨fun dflt k hk => ?_⟩
  have hkey : k ≠ regKey p a := fun e => hne (by rw [← regKey_mod p ha, ← e, hk])
  exact (lookupD_store_other _ _ _ _ hkey).trans (h.lookup dflt k hk)

theorem SameAt.perfAdd (he : eventOff off = false) (i n : Nat) : SameAt c (d.perfAdd i n) off := by
  simp only [eventOff, decide_eq_false_iff_not, not_or] at he
  have hcount : SameAt c (d.addCnt pPERF i n) off := h.same rfl
  unfold Chip.perfAdd
  dsimp only
  split
  · exact hcount
  · exact hcount.setReg _ (by decide) (Ne.symm he.2.1)

end

theorem SameAt.perfBump {c d : Chip} {off : Nat} (h : SameAt c d off) (he : eventOff off = false) (ev n : Nat) :
    SameAt c (d.perfBump ev n).1 off := by
  unfold Chip.perfBump
  split
  · exact h
  · suffices hall : ∀ (l : List Nat) (a : Chip × Bool), SameAt c a.1 off → SameAt c (l.foldl _ a).1 off from hall _ (d, false) h
    intro l
    induction l with
    | nil => exact fun _ ha => ha
    | cons i l ih =>
      refine fun a ha => ih _ ?_
      dsimp only
      split
      · exact ha.perfAdd he ..
      · exact ha

section
variable {c d : Chip} {off : Nat} (h : SameAt c d off) (he : eventOff off = false)
include h he

theorem SameAt.sendMsix (v : Nat) : SameAt c (d.sendMsix v) off := by
  have hoff := he
  simp only [eventOff, decide_eq_false_iff_not, not_or] at hoff
  unfold Chip.sendMsix
  dsimp only
  split
  · exact h
  · split
    · have hword : v % 64 / 32 = 0 ∨ v % 64 / 32 = 1 := by omega
      exact h.setReg _ (by omega) (by omega)
    · exact (h.perfBump he ..).same rfl

theorem SameAt.routeEvent (p : Page) : SameAt c (d.routeEvent p) off := by
  unfold Chip.routeEvent
  dsimp only
  split_ifs
  · exact (h.sendMsix he _).same rfl
  · exact h.sendMsix he _
  · exact h.same rfl
  · exact h

theorem SameAt.raise (p : Page) (b : Nat) : SameAt c (d.raise p b) off := by
  have hraw : SameAt c (d.setReg p 0x018 (d.reg p 0x018 ||| BitVec.ofNat 32 (2 ^ b))) off := by
    simp only [eventOff, decide_eq_false_iff_not, not_or] at he
    exact h.setReg _ (by decide) (Ne.symm he.1)
  unfold Chip.raise
  dsimp only
  split_ifs
  · exact hraw
  · exact (hraw.sendMsix he _).same rfl
  · exact hraw.routeEvent he _
  · exact hraw

end

/-! ## What handing over looks at (R162) -/

/-- From `c` to `d` the tables, the Tenon links and the registers stand that say whether a port or a CAN channel takes a safe frame;
of the own registers of CINCH, `CINCH_STATUS` may change. -/
structure SameSenders (c d : Chip) : Prop where
  tables : d.tblA = c.tblA
  tenons : d.tenons = c.tenons
  dormant : d.dormant = c.dormant
  wires : ∀ off, off = 0x150 ∨ off = 0x160 ∨ off = 0x940 → SameAt c d off
  regs : ∀ q a, pageValid q = true → a < 0x1000 → quiet q a = true → a ≠ 0x144 ∨ q ≠ pCINCH → d.reg q a = c.reg q a

theorem eventOff_wires {off : Nat} (h : off = 0x150 ∨ off = 0x160 ∨ off = 0x940) : eventOff off = false := by
  obtain rfl | rfl | rfl := h <;> rfl

theorem SameSenders.refl (c : Chip) : SameSenders c c := ⟨rfl, rfl, rfl, fun _ _ => ⟨fun _ _ _ => rfl⟩, fun _ _ _ _ _ _ => rfl⟩

section
variable {c d : Chip} (h : SameSenders c d)
include h

theorem SameSenders.same {e : Chip} (hr : e.regs = d.regs) (ht : e.tblA = d.tblA) (hn : e.tenons = d.tenons) (hd : e.dormant = d.dormant) :
    SameSenders c e :=
  ⟨ht.trans h.tables, hn.trans h.tenons, hd.trans h.dormant, fun off ho => (h.wires off ho).same hr,
    fun q a hq ha hh hne => (reg_congr hr q a).trans (h.regs q a hq ha hh hne)⟩

theorem SameSenders.count (p : Page) (i : Nat) : SameSenders c (d.count p i) := h.same rfl rfl rfl rfl

theorem SameSenders.tcount (p : Page) (t i k : Nat) : SameSenders c (d.tcount p t i k) := h.same rfl rfl rfl rfl

theorem SameSenders.setWatch (i : Nat) (x : WatchRt) : SameSenders c (d.setWatch i x) := h.same rfl rfl rfl rfl

theorem SameSenders.setPwr (x : PwrRt) : SameSenders c (d.setPwr x) := h.same rfl rfl rfl rfl

theorem SameSenders.raise {p : Page} (b : Nat) (hp : pageValid p = true) : SameSenders c (d.raise p b) :=
  ⟨(d.raise_field b hp Chip.tblA fun _ _ _ => rfl).trans h.tables, (d.raise_field b hp Chip.tenons fun _ _ _ => rfl).trans h.tenons,
    (d.raise_field b hp Chip.dormant fun _ _ _ => rfl).trans h.dormant, fun off ho => (h.wires off ho).raise (eventOff_wires ho) p b,
    fun q a hq ha hh hne => (d.reg_raise b hp hq ha hh).trans (h.regs q a hq ha hh hne)⟩

theorem SameSenders.putStatus {f : Fld} (v : Nat) (hf : f.off = 0x144) : SameSenders c (d.put pCINCH f v) := by
  refine ⟨h.tables, h.tenons, h.dormant, fun off ho => ?_, fun q a hq ha hh hne => ?_⟩
  · exact (h.wires off ho).setReg _ (by omega) (by omega)
  · refine Eq.trans ?_ (h.regs q a hq ha hh hne)
    rw [Chip.put, hf]
    by_cases hpage : q = pCINCH
    · subst hpage
      exact d.reg_setReg_off _ (hne.resolve_right fun e => e rfl)
    · exact d.reg_setReg_page _ hq rfl ha (by decide) hpage

/-! ### What follows -/

theorem SameSenders.get {q : Page} {f : Fld} (hq : pageValid q = true) (hf : f.quietOn q = true) (hne : f.actOff ≠ 0x144 ∨ q ≠ pCINCH) :
    d.get q f = c.get q f := by
  simp only [Fld.quietOn, Fld.fits, Bool.and_eq_true, decide_eq_true_eq] at hf
  have ho : f.actOff < 0x1000 := by
    unfold Fld.actOff
    split <;> omega
  rw [Chip.get, h.regs q _ hq ho hf.2 hne, Chip.get]

theorem SameSenders.tget (p : Page) (t i : Nat) (f : TFld) : d.tget p t i f = c.tget p t i f := tget_congr h.tables ..

theorem SameSenders.mode : d.mode = c.mode := by
  rw [Chip.mode, h.dormant, h.get rfl rfl (.inr (by decide)), Chip.mode]

theorem SameSenders.ready (q : Page) (hq : pageValid q = true) : d.ready q = c.ready q := by
  have hen : d.enabled q = c.enabled q := by
    have hf : F.CTRL_EN.quietOn q = true := by simp [Fld.quietOn, Fld.fits, quiet, still, Fld.actOff]
    rw [Chip.enabled, Chip.is, h.get hq hf (.inl (by decide)), Chip.enabled, Chip.is]
  rw [Chip.ready, Chip.live, h.mode, hen, Chip.ready, Chip.live]

theorem SameSenders.tenonUp {t : Nat} (ht : t < 2) : d.tenonUp t = c.tenonUp t := by
  have hstate : d.get (pTENON t) F.TENON_TL_STATUS_STATE = c.get (pTENON t) F.TENON_TL_STATUS_STATE := by
    refine h.get (by simpa [pageValid] using ht) ?_ (.inr (by simp))
    interval_cases t <;> rfl
  rw [Chip.tenonUp, hstate, Chip.tenon, h.tenons, Chip.tenonUp, Chip.tenon]

theorem SameSenders.hostUp : d.hostUp = c.hostUp := by
  have hring : ∀ r < 32, d.reg pDMA (0x218 + 0x20 * r) = c.reg pDMA (0x218 + 0x20 * r) := fun r hr =>
    h.regs pDMA _ rfl (by omega) (by simp [quiet, still]; omega) (.inr (by decide))
  rw [Chip.hostUp, Chip.is, Chip.is, h.get rfl rfl (.inr (by decide)), h.get rfl rfl (.inr (by decide)), h.ready _ rfl, Chip.hostUp, Chip.is,
    Chip.is]
  congr 1
  rw [Bool.eq_iff_iff, List.any_eq_true, List.any_eq_true]
  exact exists_congr fun r => and_congr_right fun hr => by rw [hring r (List.mem_range.1 hr)]

theorem SameSenders.linkUp (n : Nat) : d.linkUp n = c.linkUp n := by
  have hstate : d.linkState n = c.linkState n := (h.wires 0x150 (.inl rfl)).get rfl (by decide)
  unfold Chip.linkUp
  split
  next ht => exact h.tenonUp (by have := of_decide_eq_true ht; omega)
  next => rw [h.hostUp, hstate]

theorem SameSenders.canTakes (n : Nat) : d.canTakes n = c.canTakes n := by
  have hstate : d.canState n = c.canState n := (h.wires 0x160 (.inr (.inl rfl))).get rfl (by decide)
  have hlisten : d.is (pCAN n) F.CAN_CAN_CFG_LISTEN_ONLY = c.is (pCAN n) F.CAN_CAN_CFG_LISTEN_ONLY := by
    rw [Chip.is, (h.wires 0x940 (.inr (.inr rfl))).get rfl (by decide), Chip.is]
  rw [Chip.canTakes, hstate, hlisten, Chip.canTakes]

theorem SameSenders.handedFrame (e slot : Nat) : d.handedFrame e slot = c.handedFrame e slot := by
  have hfr : ∀ f, d.fr slot f = c.fr slot f := fun f => h.tget ..
  have hbytes : ∀ n, d.slotBytes slot n = c.slotBytes slot n := fun n => by
    simp only [Chip.slotBytes, Chip.tword, h.tables]
  simp only [Chip.handedFrame, hfr, h.linkUp, h.canTakes, Chip.slotMsg, hbytes]

theorem SameSenders.handedFrames (i : Nat) : d.handedFrames i = c.handedFrames i := by
  simp only [Chip.handedFrames, Chip.wt, h.tget, h.handedFrame]

end

/-! ## Handing over (R162) -/

/-- From `c` to `d` the safe frames `fs` are handed over behind those that wait; else at most counts change, and neither the trips nor
the power failures are among them. -/
structure Hands (fs : List SafeFrame) (c d : Chip) : Prop where
  same : ∃ m, d = { c with safeFrames := c.safeFrames ++ fs, cnt := m }
  trips : d.cntAt (cntKey pCINCH K.CINCH_TRIPS) = c.cntAt (cntKey pCINCH K.CINCH_TRIPS)
  failures : d.cntAt (cntKey pPWR K.PWR_PF_EVENTS) = c.cntAt (cntKey pPWR K.PWR_PF_EVENTS)

theorem Hands.nil (c : Chip) : Hands [] c c := ⟨⟨c.cnt, by rw [List.append_nil]⟩, rfl, rfl⟩

theorem Hands.trans {fs gs : List SafeFrame} {c d e : Chip} (h : Hands fs c d) (g : Hands gs d e) : Hands (fs ++ gs) c e := by
  obtain ⟨⟨m, rfl⟩, htrips, hfailures⟩ := h
  obtain ⟨⟨n, rfl⟩, gtrips, gfailures⟩ := g
  exact ⟨⟨n, by rw [List.append_assoc]⟩, gtrips.trans htrips, gfailures.trans hfailures⟩

theorem Hands.count (c : Chip) {p : Page} {i : Nat} (htrips : cntKey pCINCH K.CINCH_TRIPS ≠ cntKey p i)
    (hfailures : cntKey pPWR K.PWR_PF_EVENTS ≠ cntKey p i) : Hands [] c (c.count p i) :=
  ⟨⟨_, by rw [List.append_nil]; rfl⟩, c.cntAt_addCnt_other _ _ _ htrips, c.cntAt_addCnt_other _ _ _ hfailures⟩

theorem Hands.portCount (c : Chip) (n k : Nat) (hk : k < 1024) : Hands [] c (c.portCount n k) := by
  have hpage : cntKey (pPORT n) k = (30 + n) * 1024 + k := rfl
  have htrips : cntKey pCINCH K.CINCH_TRIPS < 30 * 1024 := by decide
  have hfailures : cntKey pPWR K.PWR_PF_EVENTS < 30 * 1024 := by decide
  unfold Chip.portCount
  split
  · exact Hands.count c (by omega) (by omega)
  · exact Hands.nil c

section
variable {fs : List SafeFrame} {c d : Chip} (h : Hands fs c d)
include h

theorem Hands.safeFrames : d.safeFrames = c.safeFrames ++ fs := by obtain ⟨⟨m, rfl⟩, -, -⟩ := h; rfl

theorem Hands.field {α : Type} (f : Chip → α) (hf : ∀ s m, f { c with safeFrames := s, cnt := m } = f c) : f d = f c := by
  obtain ⟨⟨m, rfl⟩, -, -⟩ := h
  exact hf ..

theorem Hands.handedFrame (e slot : Nat) : d.handedFrame e slot = c.handedFrame e slot := h.field (·.handedFrame e slot) fun _ _ => rfl

theorem Hands.handedFrames (i : Nat) : d.handedFrames i = c.handedFrames i := h.field (·.handedFrames i) fun _ _ => rfl

end

theorem Chip.hands_handSafe (c : Chip) (e slot : Nat) : Hands (c.handedFrame e slot).toList c (c.handSafe e slot) := by
  unfold Chip.handSafe
  dsimp only
  split
  next f hf =>
    rw [hf]
    exact ⟨⟨c.cnt, rfl⟩, rfl, rfl⟩
  next hf =>
    rw [hf]
    split
    · exact Hands.portCount _ _ _ (by split <;> decide)
    · exact Hands.count _ (by decide) (by decide)
    · exact Hands.nil c

theorem Chip.hands_emitSafe (c : Chip) (i : Nat) : Hands (c.handedFrames i) c (c.emitSafe i) := by
  have hfold : ∀ (l : List Nat) (d : Chip), Hands (l.flatMap fun k => (d.handedFrame i (d.wt i fWtFirst + k)).toList) d
      (l.foldl (fun d k => d.handSafe i (d.wt i fWtFirst + k)) d) := by
    intro l
    induction l with
    | nil => exact Hands.nil
    | cons k l ih =>
      intro d
      have hone := d.hands_handSafe i (d.wt i fWtFirst + k)
      have hrest := ih (d.handSafe i (d.wt i fWtFirst + k))
      simp only [hone.handedFrame, hone.field (·.wt i fWtFirst) fun _ _ => rfl] at hrest
      exact hone.trans hrest
  rw [Chip.handedFrames, List.filterMap_eq_flatMap_toList]
  exact hfold _ c

/-- Every entry of the list hands its frames over, in their order. -/
theorem Chip.hands_foldl_emitSafe (c : Chip) (l : List (Nat × WatchRt)) :
    Hands (l.flatMap fun e => c.handedFrames e.1) c (l.foldl (fun d e => d.emitSafe e.1) c) := by
  induction l generalizing c with
  | nil => exact Hands.nil c
  | cons e l ih =>
    have hone := c.hands_emitSafe e.1
    have hrest := ih (c.emitSafe e.1)
    simp only [hone.handedFrames] at hrest
    exact hone.trans hrest

/-! ## Trips and repeats (R161, R162) -/

@[simp] theorem Chip.watch_setWatch_same (c : Chip) (i : Nat) (x : WatchRt) : (c.setWatch i x).watch i = x := lookupD_store_same ..

theorem Chip.watch_setWatch_other (c : Chip) {i j : Nat} (x : WatchRt) (h : j ≠ i) : (c.setWatch i x).watch j = c.watch j :=
  lookupD_store_other _ _ _ _ h

theorem watch_congr {c d : Chip} (h : d.watches = c.watches) (i : Nat) : d.watch i = c.watch i := by rw [Chip.watch, h, Chip.watch]

section
variable (c : Chip) (i : Nat)

/-- The chip with the trip of an entry counted and reported, before its safe frames are handed over. -/
def Chip.tripNoted (x : WatchRt) : Chip := (((c.setWatch i x).count pCINCH K.CINCH_TRIPS).tcount pCINCH 0 i 0).raise pCINCH E.CINCH_TRIP

theorem Chip.sameSenders_tripNoted (x : WatchRt) : SameSenders c (c.tripNoted i x) :=
  ((((SameSenders.refl c).setWatch i x).count ..).tcount ..).raise _ rfl

theorem Chip.watches_tripNoted (x : WatchRt) : (c.tripNoted i x).watches = (c.setWatch i x).watches :=
  Chip.raise_field _ _ rfl Chip.watches fun _ _ _ => rfl

theorem Chip.trips_tripNoted (x : WatchRt) :
    (c.tripNoted i x).cntAt (cntKey pCINCH K.CINCH_TRIPS) = c.cntAt (cntKey pCINCH K.CINCH_TRIPS) + 1 := by
  have hentry : cntKey pCINCH K.CINCH_TRIPS ≠ tblCntKey pCINCH 0 i 0 := by
    have hsmall : cntKey pCINCH K.CINCH_TRIPS < 2 ^ 40 := by decide
    unfold tblCntKey
    omega
  rw [Chip.tripNoted, Chip.cntAt_raise_uncounted _ (by decide)]
  exact (Chip.cntAt_setCntAt_other _ _ hentry).trans (Chip.cntAt_count_same ..)

theorem Chip.cinchDeadline_shown (hready : c.ready pCINCH = true) (hstate : (c.watch i).state = wWATCHING)
    (hdue : (c.watch i).deadline ≤ c.mono / 1000 * 1000) :
    let x := { c.watch i with state := wTRIPPED, repeatAt := c.mono + c.wt i fWtRepeat * 1000000 }
    let d := c.cinchDeadline i
    d.watch i = x ∧ (∀ j, j ≠ i → d.watch j = c.watch j) ∧ d.latched pCINCH E.CINCH_TRIP = true
      ∧ d.safeFrames = c.safeFrames ++ c.handedFrames i ∧ d.cntAt (cntKey pCINCH K.CINCH_TRIPS) = c.cntAt (cntKey pCINCH K.CINCH_TRIPS) + 1 := by
  intro x d
  have hd : d = (c.tripNoted i x).emitSafe i := if_pos ⟨hready, hstate, hdue⟩
  have hands := (c.tripNoted i x).hands_emitSafe i
  rw [← hd, (c.sameSenders_tripNoted i x).handedFrames] at hands
  have hwatches : d.watches = (c.setWatch i x).watches := (hands.field Chip.watches fun _ _ => rfl).trans (c.watches_tripNoted i x)
  refine ⟨?_, fun j hj => ?_, ?_, ?_, hands.trips.trans (c.trips_tripNoted i x)⟩
  · rw [watch_congr hwatches, Chip.watch_setWatch_same]
  · rw [watch_congr hwatches, Chip.watch_setWatch_other _ _ hj]
  · exact (hands.field (·.latched pCINCH E.CINCH_TRIP) fun _ _ => rfl).trans (Chip.latched_raise _ rfl (by decide))
  · exact hands.safeFrames.trans (congrArg (· ++ _) (Chip.raise_field _ _ rfl Chip.safeFrames fun _ _ _ => rfl))

theorem Chip.cinchRepeat_shown (hready : c.ready pCINCH = true) (hstate : (c.watch i).state = wTRIPPED)
    (hperiod : c.wt i fWtRepeat * 1000000 ≠ 0) (hdue : (c.watch i).repeatAt ≤ c.mono) :
    let x := { c.watch i with repeatAt := (c.watch i).repeatAt + c.wt i fWtRepeat * 1000000 }
    let d := c.cinchRepeat i
    d.watch i = x ∧ (∀ j, j ≠ i → d.watch j = c.watch j)
      ∧ d.safeFrames = if c.safeWaiting i then c.safeFrames else c.safeFrames ++ c.handedFrames i := by
  intro x d
  have hd : d = if c.safeWaiting i then c.setWatch i x else (c.setWatch i x).emitSafe i := if_pos ⟨hready, hstate, hperiod, hdue⟩
  have hwatch : d.watches = (c.setWatch i x).watches → d.watch i = x ∧ ∀ j, j ≠ i → d.watch j = c.watch j := fun h =>
    ⟨(watch_congr h i).trans (c.watch_setWatch_same i x), fun j hj => (watch_congr h j).trans (c.watch_setWatch_other x hj)⟩
  rw [← and_assoc]
  split_ifs at hd ⊢
  · exact ⟨hwatch (hd ▸ rfl), hd ▸ rfl⟩
  · have hands := (c.setWatch i x).hands_emitSafe i
    rw [← hd, ((SameSenders.refl c).setWatch i x).handedFrames] at hands
    exact ⟨hwatch (hands.field Chip.watches fun _ _ => rfl), hands.safeFrames⟩

end

end Sys2Proof.Machine

/-! The warning of a power failure and the mass emission (R163, R336). -/

namespace Sys2Proof.Machine

open Sys2Proof

/-! ## The warning of a power failure (R336) -/

section
variable (c : Chip)

/-- The chip with the warning shown, counted and reported. -/
def Chip.pfReported : Chip := ((c.put pCINCH F.CINCH_CINCH_STATUS_PF_ACTIVE 1).count pPWR K.PWR_PF_EVENTS).raise pPWR E.PWR_PF

/-- The same with what xSPI may still program. -/
def Chip.pfWarned : Chip := c.pfReported.setPwr { c.pfReported.pwr with pfBudget := 4096 }

/-- In `d` the warning of a power failure at `c` is seen. -/
def Chip.pfShown (d : Chip) : Prop := d.is pCINCH F.CINCH_CINCH_STATUS_PF_ACTIVE = true ∧ d.latched pPWR E.PWR_PF = true
  ∧ d.cntAt (cntKey pPWR K.PWR_PF_EVENTS) = c.cntAt (cntKey pPWR K.PWR_PF_EVENTS) + 1

theorem Chip.sameSenders_pfWarned : SameSenders c c.pfWarned :=
  ((((SameSenders.refl c).putStatus 1 rfl).count ..).raise _ rfl).setPwr _

/-- What is read from neither registers, counters, outputs nor the state of PWR stands through the warning. -/
theorem Chip.pfWarned_field {α : Type} (f : Chip → α) (hf : ∀ d r n o, f (d.noise r n o) = f d) (hpwr : ∀ d x, f (Chip.setPwr d x) = f d) :
    f c.pfWarned = f c := by
  rw [Chip.pfWarned, hpwr, Chip.pfReported, Chip.raise_field _ _ rfl f (hf _)]
  exact hf c _ _ _

theorem Chip.pfShown_pfWarned : c.pfShown c.pfWarned := by
  refine ⟨decide_eq_true ?_, Chip.latched_raise _ rfl (by decide), ?_⟩
  · exact (Chip.get_raise _ rfl rfl (by decide)).trans (c.get_put_same 1 rfl rfl rfl)
  · exact (Chip.cntAt_raise_uncounted _ (by decide) _ _).trans (Chip.cntAt_count_same ..)

theorem Chip.pfShown.later {c d e : Chip} (h : c.pfShown d) (hsteady : Steady d e)
    (hactive : e.get pCINCH F.CINCH_CINCH_STATUS_PF_ACTIVE = d.get pCINCH F.CINCH_CINCH_STATUS_PF_ACTIVE)
    (hcount : e.cntAt (cntKey pPWR K.PWR_PF_EVENTS) = d.cntAt (cntKey pPWR K.PWR_PF_EVENTS)) : c.pfShown e := by
  obtain ⟨hpf, hlatched, hcnt⟩ := h
  exact ⟨by rwa [Chip.is, hactive], hsteady.latched hlatched, hcount.trans hcnt⟩

end

/-! ## Mass emission (R163, R336) -/

section
variable (c : Chip)

/-- The chip with a mass emission begun, before an entry hands over its frames. -/
def Chip.massBegun : Chip := ((c.put pCINCH F.CINCH_CINCH_STATUS_MASS_BUSY 1).count pCINCH K.CINCH_MASS_EMITS).raise pCINCH E.CINCH_MASS_EMIT

/-- The safe frames that wait once a mass emission has begun: those that waited, and behind them the frames of every armed entry that
none of them is of. -/
def Chip.massFrames : List SafeFrame := c.safeFrames ++ c.massEntries.flatMap fun e => c.handedFrames e.1

theorem Chip.massBegun_field {α : Type} (f : Chip → α) (hf : ∀ d r n o, f (d.noise r n o) = f d) : f c.massBegun = f c :=
  (Chip.raise_field _ _ rfl f (hf _)).trans (hf c _ _ _)

theorem Chip.sameSenders_massBegun : SameSenders c c.massBegun := (((SameSenders.refl c).putStatus 1 rfl).count ..).raise _ rfl

theorem Chip.massFrames_congr {c d : Chip} (h : SameSenders c d) (hframes : d.safeFrames = c.safeFrames) (hwatches : d.watches = c.watches) :
    d.massFrames = c.massFrames := by
  simp only [Chip.massFrames, Chip.massEntries, Chip.safeWaiting, hframes, hwatches, h.handedFrames]

theorem Chip.massFrames_massBegun : c.massBegun.massFrames = c.massFrames :=
  Chip.massFrames_congr c.sameSenders_massBegun (c.massBegun_field Chip.safeFrames fun _ _ _ _ => rfl)
    (c.massBegun_field Chip.watches fun _ _ _ _ => rfl)

theorem Chip.busy_massBegun : c.massBegun.is pCINCH F.CINCH_CINCH_STATUS_MASS_BUSY = true :=
  decide_eq_true ((Chip.get_raise _ rfl rfl (by decide)).trans (c.get_put_same 1 rfl rfl rfl))

theorem Chip.massStart_eq (hidle : c.is pCINCH F.CINCH_CINCH_STATUS_MASS_BUSY = false) (hen : c.enabled pCINCH = true) :
    ∃ d, Hands (c.massBegun.massEntries.flatMap fun e => c.massBegun.handedFrames e.1) c.massBegun d
      ∧ c.massStart = d.setPwr { d.pwr with massAt := d.cycles } := by
  have hen' : c.massBegun.enabled pCINCH = true := by
    rw [Chip.enabled, Chip.is, Chip.massBegun, Chip.get_raise_header _ _ rfl rfl rfl]
    exact (congrArg (fun n => decide (n = 1)) (c.get_put_elsewhere rfl rfl rfl 1 rfl (by decide))).trans hen
  have hemit : c.massEmit = c.massBegun.massEntries.foldl (fun d e => d.emitSafe e.1) c.massBegun := by
    unfold Chip.massEmit
    rw [if_neg (by simp [hidle])]
    exact if_neg (not_not_intro hen')
  refine ⟨_, c.massBegun.hands_foldl_emitSafe c.massBegun.massEntries, ?_⟩
  unfold Chip.massStart
  simp only [hidle, hemit]
  rfl

/-- What a mass emission that begins leaves (R163). -/
theorem Chip.massStart_shown (hidle : c.is pCINCH F.CINCH_CINCH_STATUS_MASS_BUSY = false) (hen : c.enabled pCINCH = true) :
    let d := c.massStart
    d.is pCINCH F.CINCH_CINCH_STATUS_MASS_BUSY = true ∧ d.latched pCINCH E.CINCH_MASS_EMIT = true ∧ d.safeFrames = c.massFrames
      ∧ d.pwr.massAt = c.cycles ∧ d.mode = c.mode := by
  obtain ⟨d, hands, heq⟩ := c.massStart_eq hidle hen
  have hregs : (d.setPwr { d.pwr with massAt := d.cycles }).regs = c.massBegun.regs := hands.field Chip.regs fun _ _ => rfl
  rw [heq]
  refine ⟨?_, ?_, ?_, ?_, ?_⟩
  · rw [Chip.is, get_congr hregs]
    exact c.busy_massBegun
  · rw [Chip.latched, reg_congr hregs]
    exact Chip.latched_raise _ rfl (by decide)
  · rw [← c.massFrames_massBegun]
    exact hands.safeFrames
  · exact (hands.field Chip.cycles fun _ _ => rfl).trans (c.massBegun_field Chip.cycles fun _ _ _ _ => rfl)
  · exact (hands.field Chip.mode fun _ _ => rfl).trans c.sameSenders_massBegun.mode

theorem Chip.pfShown.massStart {c d : Chip} (h : c.pfShown d) (hidle : d.is pCINCH F.CINCH_CINCH_STATUS_MASS_BUSY = false)
    (hen : d.enabled pCINCH = true) : c.pfShown d.massStart := by
  have hbegun : c.pfShown d.massBegun := by
    refine h.later (((Steady.refl d).put (by rfl) 1).count .. |>.raise ..) ?_ ?_
    · exact (Chip.get_raise _ rfl rfl (by decide)).trans (d.get_put_apart 1 rfl rfl (by decide))
    · exact (Chip.cntAt_raise_uncounted _ (by decide) _ _).trans (Chip.cntAt_addCnt_other _ _ _ _ (by decide))
  obtain ⟨e, hands, heq⟩ := d.massStart_eq hidle hen
  have hregs : (e.setPwr { e.pwr with massAt := e.cycles }).regs = d.massBegun.regs := hands.field Chip.regs fun _ _ => rfl
  have hxings : (e.setPwr { e.pwr with massAt := e.cycles }).xings = d.massBegun.xings := hands.field Chip.xings fun _ _ => rfl
  rw [heq]
  exact hbegun.later ((Steady.refl _).same hregs hxings) (get_congr hregs _ _) hands.failures

theorem Chip.sameSenders_massStart (hidle : c.is pCINCH F.CINCH_CINCH_STATUS_MASS_BUSY = false) (hen : c.enabled pCINCH = true) :
    SameSenders c c.massStart := by
  obtain ⟨d, hands, heq⟩ := c.massStart_eq hidle hen
  rw [heq]
  exact c.sameSenders_massBegun.same (hands.field Chip.regs fun _ _ => rfl) (hands.field Chip.tblA fun _ _ => rfl)
    (hands.field Chip.tenons fun _ _ => rfl) (hands.field Chip.dormant fun _ _ => rfl)

end

/-! ## An entry to a low power mode is overridden (R336) -/

section
variable (c : Chip)

theorem Chip.overrideEntry_field {α : Type} (f : Chip → α) (hf : ∀ d r n o, f (d.noise r n o) = f d) (hpwr : ∀ d x, f (Chip.setPwr d x) = f d) :
    f c.overrideEntry = f c := by
  unfold Chip.overrideEntry
  split
  · dsimp only
    split
    · exact (hf _ _ _ _).trans ((hf _ _ _ _).trans (hpwr ..))
    · exact (hf _ _ _ _).trans (hpwr ..)
  · rfl

theorem Chip.steady_overrideEntry : Steady c c.overrideEntry := by
  have hpwr : ∀ x, Steady c (c.setPwr x) := fun x => (Steady.refl c).same rfl rfl
  unfold Chip.overrideEntry
  split
  · exact ((hpwr _).put (by rfl) 0).when fun h => h.put (by rfl) 5
  · exact .refl c

theorem Chip.get_overrideEntry {f : Fld} (hf : f.fits = true) : c.overrideEntry.get pCINCH f = c.get pCINCH f := by
  unfold Chip.overrideEntry
  split
  · dsimp only
    split
    · rw [Chip.get_put_page _ _ rfl rfl hf rfl (by decide), Chip.get_put_page _ _ rfl rfl hf rfl (by decide)]
      rfl
    · rw [Chip.get_put_page _ _ rfl rfl hf rfl (by decide)]
      rfl
  · rfl

/-- The chip with the short path to DORMANT due once the safe frames have left. -/
def Chip.shortAwaited : Chip :=
  let d := c.overrideEntry
  (d.setPwr { d.pwr with shortDue := true }).put pPWR F.PWR_MODE_STATUS_BUSY 1

theorem Chip.steady_shortAwaited : Steady c c.shortAwaited := by
  have hdue : Steady c (c.overrideEntry.setPwr { c.overrideEntry.pwr with shortDue := true }) := c.steady_overrideEntry.same rfl rfl
  exact hdue.put (by rfl) 1

theorem Chip.get_shortAwaited {f : Fld} (hf : f.fits = true) : c.shortAwaited.get pCINCH f = c.get pCINCH f :=
  (Chip.get_put_page _ 1 rfl rfl hf rfl (by decide)).trans (c.get_overrideEntry hf)

theorem Chip.shortAwaited_field {α : Type} (f : Chip → α) (hf : ∀ d r n o, f (d.noise r n o) = f d)
    (hpwr : ∀ d x, f (Chip.setPwr d x) = f d) : f c.shortAwaited = f c :=
  (hf _ _ _ _).trans ((hpwr _ _).trans (c.overrideEntry_field f hf hpwr))

theorem Chip.cntAt_overrideEntry (k : Nat) : c.overrideEntry.cntAt k = c.cntAt k := by
  unfold Chip.overrideEntry
  split
  · dsimp only
    split <;> rfl
  · rfl

theorem Chip.coreOff_short : (c.coreOff true).dormant = true ∧ (c.coreOff true).aon.short = true := ⟨rfl, rfl⟩

end

/-! ## A power failure (R336) -/

section
variable (c : Chip) {us : Nat} (hdark : c.dark = false) (hpf : c.is pCINCH F.CINCH_CINCH_STATUS_PF_ACTIVE = false)
  (hheld : max 1 (c.get pCINCH F.CINCH_CINCH_CFG_PF_FILTER) ≤ us)
include hdark hpf hheld

theorem Chip.powerFail_taken : c.powerFail us = if ¬ c.pfWarned.is pCINCH F.CINCH_CINCH_CFG_PF_EN then c.pfWarned
    else
      let m := c.pfWarned.mode
      let d : Chip := if m = modeSentry then c.pfWarned else c.pfWarned.massStart
      if ¬ d.is pPWR F.PWR_PWR_POLICY_PF_DORMANT ∨ ¬ (m = modeRun ∨ m = modeLimp ∨ m = modeService ∨ m = modeSentry) then d
      else if d.overrideEntry.safeFrames = [] then d.overrideEntry.coreOff true else d.shortAwaited := by
  have htaken : ¬ (c.dark ∨ c.is pCINCH F.CINCH_CINCH_STATUS_PF_ACTIVE ∨ us < max 1 (c.get pCINCH F.CINCH_CINCH_CFG_PF_FILTER)) := by
    simp [hdark, hpf, not_lt.2 hheld]
  unfold Chip.powerFail
  rw [if_neg htaken]
  rfl

theorem Chip.powerFail_unarmed (hen : c.is pCINCH F.CINCH_CINCH_CFG_PF_EN = false) : c.powerFail us = c.pfWarned := by
  rw [c.powerFail_taken hdark hpf hheld, Chip.is, c.sameSenders_pfWarned.get rfl rfl (.inl (by decide)), ← Chip.is, if_pos (by simp [hen])]

theorem Chip.powerFail_armed (hen : c.is pCINCH F.CINCH_CINCH_CFG_PF_EN = true) (hidle : c.is pCINCH F.CINCH_CINCH_STATUS_MASS_BUSY = false)
    (hon : c.enabled pCINCH = true) (hmode : c.mode = modeRun ∨ c.mode = modeLimp ∨ c.mode = modeService) :
    let w := c.pfWarned
    w.is pCINCH F.CINCH_CINCH_STATUS_MASS_BUSY = false ∧ w.enabled pCINCH = true ∧ w.massFrames = c.massFrames
      ∧ c.powerFail us = if c.is pPWR F.PWR_PWR_POLICY_PF_DORMANT = false then w.massStart
        else if c.massFrames = [] then w.massStart.overrideEntry.coreOff true else w.massStart.shortAwaited := by
  intro w
  have hsame : SameSenders c w := c.sameSenders_pfWarned
  have hbusy : w.is pCINCH F.CINCH_CINCH_STATUS_MASS_BUSY = false := by
    rw [← hidle, Chip.is, Chip.is]
    exact congrArg (fun n => decide (n = 1)) ((Chip.get_raise _ rfl rfl (by decide)).trans (c.get_put_apart 1 rfl rfl (by decide)))
  have hon' : w.enabled pCINCH = true := by
    rw [← hon, Chip.enabled, Chip.is, hsame.get rfl rfl (.inl (by decide)), ← Chip.is, ← Chip.enabled]
  have hframes : w.massFrames = c.massFrames :=
    Chip.massFrames_congr hsame (c.pfWarned_field Chip.safeFrames (fun _ _ _ _ => rfl) fun _ _ => rfl)
      (c.pfWarned_field Chip.watches (fun _ _ _ _ => rfl) fun _ _ => rfl)
  have hen' : w.is pCINCH F.CINCH_CINCH_CFG_PF_EN = true := by
    rw [← hen, Chip.is, hsame.get rfl rfl (.inl (by decide)), ← Chip.is]
  have hmode' : w.mode ≠ modeSentry ∧ (w.mode = modeRun ∨ w.mode = modeLimp ∨ w.mode = modeService ∨ w.mode = modeSentry) := by
    rw [hsame.mode]
    obtain h | h | h := hmode <;> rw [h] <;> decide
  have hpolicy : w.massStart.is pPWR F.PWR_PWR_POLICY_PF_DORMANT = c.is pPWR F.PWR_PWR_POLICY_PF_DORMANT := by
    rw [Chip.is, (w.sameSenders_massStart hbusy hon').get rfl rfl (.inl (by decide)), hsame.get rfl rfl (.inl (by decide)), ← Chip.is]
  have hwait : w.massStart.overrideEntry.safeFrames = c.massFrames := by
    obtain ⟨-, -, hsafe, -, -⟩ := w.massStart_shown hbusy hon'
    exact (Chip.overrideEntry_field _ Chip.safeFrames (fun _ _ _ _ => rfl) fun _ _ => rfl).trans (hsafe.trans hframes)
  refine ⟨hbusy, hon', hframes, ?_⟩
  rw [c.powerFail_taken hdark hpf hheld, if_neg (not_not_intro hen')]
  dsimp only
  rw [if_neg hmode'.1, hpolicy, hwait]
  cases hdormant : c.is pPWR F.PWR_PWR_POLICY_PF_DORMANT with
  | false => exact (if_pos (.inl (by simp))).trans (if_pos rfl).symm
  | true => exact (if_neg (not_or.2 ⟨by simp, not_not_intro hmode'.2⟩)).trans (if_neg (by simp)).symm

end

end Sys2Proof.Machine

/-! What rejecting the pages and groups that wait for an action leaves (R43, R47). -/

namespace Sys2Proof.Machine

open Sys2Proof

/-! ## Rejected requests -/

/-- The chip with other registers, counters, outputs, requests of pages and of a group. -/
def Chip.rejected (c : Chip) (r : List (Nat × Word)) (n : List (Nat × W48)) (o : List Output) (x : List (Nat × CommitRt)) (g : GroupRt) : Chip :=
  { c with regs := r, cnt := n, outs := o, commits := x, group := g }

/-- From `c` to `d` requests are rejected: the pages' own registers that events leave alone stand, `GRP_STATUS` apart; what is latched stays
so, and counters that events leave alone stand. -/
structure Rejects (c d : Chip) : Prop where
  same : ∃ r n o x g, d = c.rejected r n o x g
  regs : ∀ q a, pageValid q = true → 0x140 ≤ a → a < 0x1000 → quiet q a = true → a ≠ 0x184 ∨ q ≠ pSYS → d.reg q a = c.reg q a
  latches : ∀ q b, pageValid q = true → c.latched q b = true → d.latched q b = true
  counts : ∀ k, uncounted k = true → d.cntAt k = c.cntAt k

theorem Rejects.refl (c : Chip) : Rejects c c :=
  ⟨⟨_, _, _, _, _, rfl⟩, fun _ _ _ _ _ _ _ => rfl, fun _ _ _ h => h, fun _ _ => rfl⟩

section
variable {c d : Chip} (h : Rejects c d)
include h

theorem Rejects.field {α : Type} (f : Chip → α) (hf : ∀ r n o x g, f (c.rejected r n o x g) = f c) : f d = f c := by
  obtain ⟨⟨r, n, o, x, g, rfl⟩, -, -, -⟩ := h
  exact hf ..

theorem Rejects.get {q : Page} {f : Fld} (hq : pageValid q = true) (hf : f.quietOn q = true) (hown : 0x140 ≤ f.off)
    (hne : f.actOff ≠ 0x184 ∨ q ≠ pSYS) : d.get q f = c.get q f := by
  simp only [Fld.quietOn, Fld.fits, Bool.and_eq_true, decide_eq_true_eq] at hf
  have ho : 0x140 ≤ f.actOff ∧ f.actOff < 0x1000 := by
    unfold Fld.actOff
    split <;> omega
  rw [Chip.get, h.regs q _ hq ho.1 ho.2 hf.2 hne, Chip.get]

/-- A register of the header, or `GRP_STATUS`, may be put. -/
theorem Rejects.put {p : Page} {f : Fld} (v : Nat) (hp : pageValid p = true)
    (hf : f.off < 0x140 ∧ f.off ≠ 0x018 ∨ f.off = 0x184 ∧ p = pSYS) : Rejects c (d.put p f v) := by
  have ho : f.off < 0x1000 := by omega
  obtain ⟨⟨r, n, o, x, g, rfl⟩, hregs, hlatches, hcounts⟩ := h
  refine ⟨⟨_, _, _, _, _, rfl⟩, fun q a hq hown ha hh hne => Eq.trans ?_ (hregs q a hq hown ha hh hne), fun q b hq hb => ?_, hcounts⟩
  · by_cases hpage : q = p
    · subst hpage
      refine Chip.reg_setReg_off _ _ ?_
      rintro rfl
      obtain hf | ⟨hf, hsys⟩ := hf
      · omega
      · exact hne.elim (fun hne => hne hf) fun hne => hne hsys
    · exact Chip.reg_setReg_page _ _ hq hp ha ho hpage
  · have hraw : f.off ≠ 0x018 := by omega
    rw [← hlatches q b hq hb, Chip.latched, Chip.latched]
    by_cases hpage : q = p
    · subst hpage
      rw [Chip.put, Chip.reg_setReg_off _ _ (Ne.symm hraw)]
    · rw [Chip.put, Chip.reg_setReg_page _ _ hq hp (by decide) ho hpage]

theorem Rejects.setCommitRt (p : Page) (x : CommitRt) : Rejects c (d.setCommitRt p x) := by
  obtain ⟨⟨r, n, o, y, g, rfl⟩, hregs, hlatches, hcounts⟩ := h
  exact ⟨⟨_, _, _, _, _, rfl⟩, hregs, hlatches, hcounts⟩

theorem Rejects.setGroup (x : GroupRt) : Rejects c (d.setGroup x) := by
  obtain ⟨⟨r, n, o, y, g, rfl⟩, hregs, hlatches, hcounts⟩ := h
  exact ⟨⟨_, _, _, _, _, rfl⟩, hregs, hlatches, hcounts⟩

theorem Rejects.raise {p : Page} (b : Nat) (hp : pageValid p = true) : Rejects c (d.raise p b) := by
  have hloud := Loud.raise d b hp
  obtain ⟨⟨r, n, o, hraise⟩, hquiet⟩ := hloud
  have hlatch := (Steady.refl d).raise p b
  obtain ⟨⟨r', n', o', x, g, rfl⟩, hregs, hlatches, hcounts⟩ := h
  exact ⟨⟨r, n, o, x, g, hraise⟩, fun q a hq hown ha hh hne => (hquiet q a hq ha hh).trans (hregs q a hq hown ha hh hne),
    fun q b hq hb => hlatch.latched (hlatches q b hq hb), fun k hk => (Chip.cntAt_raise_uncounted _ hk _ _).trans (hcounts k hk)⟩

theorem Rejects.rejectPage {p : Page} (hp : pageValid p = true) (reason detail : Nat) : Rejects c (d.rejectPage p reason detail) :=
  ((((h.put _ hp (.inl (by decide))).put _ hp (.inl (by decide))).put _ hp (.inl (by decide))).setCommitRt p {}).raise _ hp

theorem Rejects.foldl {α : Type} {f : Chip → α → Chip} (l : List α) (hf : ∀ d, ∀ a ∈ l, Rejects c d → Rejects c (f d a)) :
    Rejects c (l.foldl f d) := by
  induction l generalizing d with
  | nil => exact h
  | cons a l ih => exact ih (hf d a (List.mem_cons_self ..) h) fun e b hb => hf e b (List.mem_cons_of_mem _ hb)

theorem Rejects.rejectMembers (reason : Nat) : Rejects c (d.rejectMembers reason) := by
  refine h.foldl _ fun e i _ h => ?_
  split
  next p hp => exact h.rejectPage (pageValid_of_pageOfIdx hp) ..
  next => exact h

theorem Rejects.endGroup (reason : Nat) (failPage : Option Nat) : Rejects c (d.endGroup reason failPage) := by
  rw [Chip.endGroup_eq]
  exact ((((h.put _ rfl (.inr (by decide))).put _ rfl (.inr (by decide))).put _ rfl (.inr (by decide))).put _ rfl (.inr (by decide))).setGroup {}

theorem Rejects.rejectNaming (a st reason : Nat) : Rejects c (d.rejectNaming a st reason) := by
  have hpages : Rejects c ((d.pagesNaming a st).foldl (fun e p => e.rejectPage p reason 0) d) := by
    refine h.foldl _ fun e p hp h => h.rejectPage ?_ ..
    obtain ⟨x, -, hx⟩ := List.mem_filterMap.1 hp
    split at hx
    next q hq =>
      split at hx
      · exact Option.some.inj hx ▸ pageValid_of_pageOfIdx hq
      · exact absurd hx (by simp)
    next => exact absurd hx (by simp)
  unfold Chip.rejectNaming
  dsimp only
  split
  · exact (hpages.rejectMembers reason).endGroup ..
  · exact hpages

theorem Rejects.rejectBound (a reason : Nat) : Rejects c (d.rejectBound a reason) := (h.rejectNaming ..).rejectNaming ..

end

end Sys2Proof.Machine

/-! The end of QUARANTINE's mass emission (R163, R398), and the actions of Story pole that end with it. -/

namespace Sys2Proof.Machine

open Sys2Proof

/-! ## Entries of a table, as its passes visit them -/

theorem mem_tblIndices_iff {bank : List (Nat × Word)} {p : Page} {t j : Nat} :
    j ∈ tblIndices bank p t ↔ ∃ k ∈ bank.map Prod.fst, tblPageTable k = pageIdx p * 16 + t ∧ k / 128 % 2 ^ 20 = j := by
  simp only [tblIndices, List.mem_eraseDups, List.mem_map, List.mem_filter, decide_eq_true_eq]
  constructor
  · rintro ⟨e, ⟨he, ht⟩, rfl⟩
    exact ⟨e.1, ⟨e, he, rfl⟩, ht, rfl⟩
  · rintro ⟨_, ⟨e, he, rfl⟩, ht, rfl⟩
    exact ⟨e, ⟨he, ht⟩, rfl⟩

theorem keys_insert_subset {α : Type} (m : List (Nat × α)) (k : Nat) (v : α) : m.map Prod.fst ⊆ (insert m k v).map Prod.fst := by
  induction m with
  | nil => exact List.nil_subset _
  | cons e m ih =>
    obtain ⟨a, w⟩ := e
    unfold insert
    split_ifs with ha hlt
    · exact ha ▸ fun _ => id
    · exact List.subset_cons_self ..
    · exact List.cons_subset_cons _ ih

/-- No table's reset value has, at the state of a one-shot action, the state of an ended one. -/
theorem bitsAt_tblDefault_osState {k : Nat} (h : k % 128 = fOsState.word) : bitsAt (tblDefault k) fOsState.lo fOsState.width = 0 := by
  have hreset : ∀ p t i, bitsAt (tblReset p t i fOsState.word) fOsState.lo fOsState.width = 0 := by
    intro p t i
    obtain ⟨kind, inst⟩ := p
    unfold tblReset
    split <;> simp_all [bitsAt]
  unfold tblDefault
  split
  · rw [h]
    exact hreset ..
  · rfl

/-- An entry that a pass visits is visited still once an action's state is put. -/
theorem mem_tblIndices_tput_osState (c : Chip) (i : Nat) {v : Nat} (hv : v % 8 ≠ 0) {p : Page} {t j : Nat} (h : j ∈ tblIndices c.tblA p t) :
    j ∈ tblIndices (c.tput pSTORYTBL 1 i fOsState v).tblA p t := by
  have hword : tblKey pSTORYTBL 1 i fOsState.word % 128 = fOsState.word := by
    unfold tblKey
    rw [Nat.mul_add_mod_of_lt]
    decide
  have hne : putBits (c.tword pSTORYTBL 1 i fOsState.word) fOsState.lo fOsState.width v ≠ tblDefault (tblKey pSTORYTBL 1 i fOsState.word) := by
    intro heq
    have hbits := bitsAt_tblDefault_osState hword
    rw [← heq, bitsAt_putBits_same _ _ (by decide)] at hbits
    exact hv hbits
  have hbank : (c.tput pSTORYTBL 1 i fOsState v).tblA = insert c.tblA (tblKey pSTORYTBL 1 i fOsState.word)
      (putBits (c.tword pSTORYTBL 1 i fOsState.word) fOsState.lo fOsState.width v) := if_neg hne
  obtain ⟨k, hk, ht, hj⟩ := mem_tblIndices_iff.1 h
  rw [hbank]
  exact mem_tblIndices_iff.2 ⟨k, keys_insert_subset _ _ _ hk, ht, hj⟩

/-! ## An action ends with the time INVALID (R151) -/

section
variable (c : Chip) (i : Nat)

/-- The chip with the end of an action shown and counted. -/
def Chip.actNoted : Chip :=
  (((c.actUnrun i arTIMEINVALID).tput pSTORYTBL 1 i fOsState oTIMEINVALID).disarm i).count pSTORY K.STORY_ONESHOT_TIME_INVALID

/-- The same with the end reported, before what was bound to the action is rejected. -/
def Chip.actEnded : Chip := (c.actNoted i).raise pSTORY E.STORY_ONESHOT_TIME_INVALID

theorem Chip.regs_actNoted : (c.actNoted i).regs = (c.actUnrun i arTIMEINVALID).regs := rfl

theorem Chip.rejects_endAction : Rejects (c.actEnded i) (c.endAction i) := (Rejects.refl (c.actEnded i)).rejectBound i rsnTimeInvalid

theorem Chip.get_actUnrun (r : Nat) {p : Page} {f : Fld} (hp : pageValid p = true) (hf : f.fits = true) (hne : p ≠ pUPD) :
    (c.actUnrun i r).get p f = c.get p f := by
  unfold Chip.actUnrun
  split
  · rw [Chip.get_put_page _ _ hp rfl hf rfl hne, Chip.get_put_page _ _ hp rfl hf rfl hne]
  · rfl

theorem Chip.actUnrun_field (r : Nat) {α : Type} (f : Chip → α) (hf : ∀ d r n o, f (Chip.noise d r n o) = f d) : f (c.actUnrun i r) = f c := by
  unfold Chip.actUnrun
  split
  · exact (hf _ _ _ _).trans (hf _ _ _ _)
  · rfl

theorem Chip.tblA_actEnded : (c.actEnded i).tblA = (c.tput pSTORYTBL 1 i fOsState oTIMEINVALID).tblA := by
  have hbank : (c.actUnrun i arTIMEINVALID).tblA = c.tblA := c.actUnrun_field i _ Chip.tblA fun _ _ _ _ => rfl
  refine ((c.actNoted i).raise_field _ rfl Chip.tblA fun _ _ _ => rfl).trans ?_
  change ((c.actUnrun i arTIMEINVALID).tput pSTORYTBL 1 i fOsState oTIMEINVALID).tblA = _
  simp only [Chip.tput, Chip.setTword, Chip.tword, hbank]

theorem Chip.get_actEnded {p : Page} {f : Fld} (hp : pageValid p = true) (hf : f.quietOn p = true) (hne : p ≠ pUPD) :
    (c.actEnded i).get p f = c.get p f := by
  have hfits : f.fits = true := by
    simp only [Fld.quietOn, Bool.and_eq_true] at hf
    exact hf.1
  rw [Chip.actEnded, Chip.get_raise _ hp rfl hf, get_congr (c.regs_actNoted i), c.get_actUnrun i _ hp hfits hne]

end

/-! ## What Cinch sees of it -/

/-- From `c` to `d` the emission in progress stands, and the table of the entries has lost none. -/
structure CinchKept (c d : Chip) : Prop where
  busy : d.get pCINCH F.CINCH_CINCH_STATUS_MASS_BUSY = c.get pCINCH F.CINCH_CINCH_STATUS_MASS_BUSY
  entries : ∀ j ∈ tblIndices c.tblA pCINCH 0, j ∈ tblIndices d.tblA pCINCH 0

theorem CinchKept.refl (c : Chip) : CinchKept c c := ⟨rfl, fun _ => id⟩

theorem CinchKept.trans {c d e : Chip} (h : CinchKept c d) (g : CinchKept d e) : CinchKept c e :=
  ⟨g.busy.trans h.busy, fun j hj => g.entries j (h.entries j hj)⟩

theorem CinchKept.foldl {α : Type} {f : Chip → α → Chip} (hf : ∀ d a, CinchKept d (f d a)) (l : List α) (c : Chip) :
    CinchKept c (l.foldl f c) := by
  induction l generalizing c with
  | nil => exact .refl c
  | cons a l ih => exact (hf c a).trans (ih _)

section
variable (c : Chip)

theorem Chip.cinchKept_endAction (i : Nat) : CinchKept c (c.endAction i) := by
  have hrej := c.rejects_endAction i
  refine ⟨?_, fun j hj => ?_⟩
  · exact (hrej.get rfl rfl (by decide) (.inl (by decide))).trans (c.get_actEnded i rfl rfl (by decide))
  · rw [hrej.field Chip.tblA fun _ _ _ _ _ => rfl, Chip.tblA_actEnded]
    exact mem_tblIndices_tput_osState c i (by decide) hj

theorem Chip.cinchKept_listsFailsafe : CinchKept c c.listsFailsafe := by
  have hlists : CinchKept c (c.lists.foldl (fun (d : Chip) (e : Nat × ListRt) => d.setList e.1 e.2.failed) c) :=
    CinchKept.foldl (f := fun (d : Chip) (e : Nat × ListRt) => d.setList e.1 e.2.failed) (fun _ _ => ⟨rfl, fun _ => id⟩) _ c
  have hpins : ∀ (d : Chip) (mask levels : Nat), CinchKept d (d.setPins mask levels) := fun d mask levels =>
    ⟨d.get_setPins mask levels rfl (by decide), fun j hj => by rwa [d.setPins_field mask levels Chip.tblA fun _ _ _ => rfl]⟩
  exact hlists.trans (hpins ..)

/-- The chip as QUARANTINE disarms its entries: the lists at rest, the actions ended, no release waiting. -/
def Chip.storyEnded : Chip := (c.listsFailsafe.endActions).releasesInvalid

theorem Chip.cinchKept_storyEnded : CinchKept c c.storyEnded := by
  have hactions : ∀ d : Chip, CinchKept d d.endActions := fun d =>
    CinchKept.foldl (f := fun (e : Chip) i => e.endAction i) (fun e i => e.cinchKept_endAction i) d.armed d
  have hreleases : ∀ d : Chip, CinchKept d d.releasesInvalid := fun d => ⟨rfl, fun _ => id⟩
  exact (c.cinchKept_listsFailsafe.trans (hactions _)).trans (hreleases _)

/-- Disarming an entry leaves what is read from neither the entries' states nor the tables. -/
theorem Chip.disarmAll_field {α : Type} (f : Chip → α) (hf : ∀ d i, f (Chip.disarmWatch d i) = f d) : f c.disarmAll = f c := by
  unfold Chip.disarmAll
  generalize tblIndices c.tblA pCINCH 0 = l
  induction l generalizing c with
  | nil => rfl
  | cons i l ih => exact (ih _).trans (hf c i)

theorem Chip.watch_disarmAll {j : Nat} (hj : j ∈ tblIndices c.tblA pCINCH 0) : c.disarmAll.watch j = {} := by
  refine foldl_holds_of_mem (f := Chip.disarmWatch) (P := fun d => d.watch j = {}) (fun d => ?_) (fun d i hi hd => ?_) c hj
  · exact (watch_congr (Chip.watches_setTword ..) j).trans (d.watch_setWatch_same j {})
  · exact (watch_congr (Chip.watches_setTword ..) j).trans ((d.watch_setWatch_other {} (Ne.symm hi)).trans hd)

/-- The chip halted in QUARANTINE: no safe frame waits, and the secrets are gone. -/
def Chip.secretsGone : Chip :=
  let d := { c.addCnt pCINCH K.CINCH_SAFE_DROP c.safeFrames.length with safeFrames := [], storyHalted := true }
  let d := { d with root := none, slots := [], succ := none, saKeys := [] }
  ((d.put pPRISIL F.PRISIL_STATUS_P_ROOT 0).put pPRISIL F.PRISIL_STATUS_P_BRANCH_FW 0).put pPRISIL F.PRISIL_STATUS_P_SUCC_DECLARED 0

theorem Chip.quarantineEnd_eq : c.quarantineEnd = c.storyEnded.disarmAll.secretsGone := rfl

theorem Chip.get_secretsGone {f : Fld} (hf : f.fits = true) : c.secretsGone.get pCINCH f = c.get pCINCH f := by
  unfold Chip.secretsGone
  dsimp only
  rw [Chip.get_put_page _ _ rfl rfl hf rfl (by decide), Chip.get_put_page _ _ rfl rfl hf rfl (by decide),
    Chip.get_put_page _ _ rfl rfl hf rfl (by decide)]
  rfl

theorem Chip.secretsGone_shown : let d := c.secretsGone
    d.storyHalted = true ∧ d.root = none ∧ d.slots = [] ∧ d.saKeys = [] ∧ d.rels = c.rels ∧ d.watches = c.watches :=
  ⟨rfl, rfl, rfl, rfl, rfl, rfl⟩

/-- What the halt in QUARANTINE leaves (R398). -/
theorem Chip.quarantineEnd_shown : let d := c.quarantineEnd
    d.get pCINCH F.CINCH_CINCH_STATUS_MASS_BUSY = c.get pCINCH F.CINCH_CINCH_STATUS_MASS_BUSY ∧ d.storyHalted = true ∧ d.root = none ∧ d.slots = []
      ∧ d.saKeys = [] ∧ d.rels = [] ∧ ∀ j ∈ tblIndices c.tblA pCINCH 0, (d.watch j).state = wDISARMED := by
  have hkept := c.cinchKept_storyEnded
  have hrels : c.storyEnded.disarmAll.rels = [] := c.storyEnded.disarmAll_field Chip.rels fun _ _ => rfl
  have hbusy : c.storyEnded.disarmAll.get pCINCH F.CINCH_CINCH_STATUS_MASS_BUSY = c.get pCINCH F.CINCH_CINCH_STATUS_MASS_BUSY :=
    (c.storyEnded.disarmAll_field (·.get pCINCH F.CINCH_CINCH_STATUS_MASS_BUSY) fun _ _ => rfl).trans hkept.busy
  have hwatch := fun j hj => c.storyEnded.watch_disarmAll (hkept.entries j hj)
  intro d
  have hd : d = c.storyEnded.disarmAll.secretsGone := c.quarantineEnd_eq
  rw [hd]
  obtain ⟨hhalted, hroot, hslots, hkeys, hrels', hwatches⟩ := c.storyEnded.disarmAll.secretsGone_shown
  exact ⟨(Chip.get_secretsGone _ rfl).trans hbusy, hhalted, hroot, hslots, hkeys, hrels'.trans hrels,
    fun j hj => congrArg WatchRt.state ((watch_congr hwatches j).trans (hwatch j hj))⟩

/-! ## The emission ends (R163, R336) -/

/-- The chip with the emission shown as ended. -/
def Chip.massIdle : Chip := c.put pCINCH F.CINCH_CINCH_STATUS_MASS_BUSY 0

theorem Chip.busy_massIdle : c.massIdle.get pCINCH F.CINCH_CINCH_STATUS_MASS_BUSY = 0 := c.get_put_same 0 rfl rfl rfl

theorem Chip.mode_massIdle : c.massIdle.mode = c.mode := ((SameSenders.refl c).putStatus 0 rfl).mode

theorem Chip.massDone_taken (hbusy : c.is pCINCH F.CINCH_CINCH_STATUS_MASS_BUSY = true)
    (hend : c.safeFrames = [] ∨ ¬ (c.mode = modeQuarantine ∧ c.storyHalted = false ∧ c.pwr.shortDue = false)
      ∧ c.pwr.massAt + usCycles 500 ≤ c.cycles) :
    c.massDone = if c.pwr.shortDue then c.massIdle.coreOff true
      else if c.mode = modeQuarantine ∧ ¬ c.storyHalted then c.massIdle.quarantineEnd else c.massIdle := by
  unfold Chip.massDone
  dsimp only
  rw [if_neg, ← Chip.massIdle, c.mode_massIdle]
  · rfl
  · rintro (h | ⟨hwait, h⟩)
    · exact h hbusy
    · obtain hend | ⟨hends, hlate⟩ := hend
      · exact hwait hend
      · obtain h | h := h
        · refine hends ?_
          simpa [and_assoc] using h
        · omega

end

/-- Settles O20: what the lemmas above say of a trip, a repeat, the warning and the end of a mass emission. -/
theorem safetyActions : Obligations.SafetyActions := by
  intro s dt i us c x period busy all warned off
  refine ⟨fun hready hstate hdue => .of_run rfl (c.cinchDeadline_shown i hready hstate hdue),
    fun hready hstate hperiod hdue => .of_run rfl (c.cinchRepeat_shown i hready hstate hperiod hdue),
    fun hdark hpf hheld => ⟨fun hen => .of_run rfl ?_, fun hen hidle hon hmode => ?_⟩,
    fun hbusy => ⟨fun hnone hshort => .of_run rfl ?_, fun hshort hhalt hend => .of_run rfl ?_, fun hnone hshort hmode hhalt => .of_run rfl ?_⟩⟩
  case refine_1 =>
    rw [c.powerFail_unarmed hdark hpf hheld hen]
    exact ⟨c.pfShown_pfWarned, c.pfWarned_field Chip.safeFrames (fun _ _ _ _ => rfl) fun _ _ => rfl, c.sameSenders_pfWarned.mode⟩
  case refine_2 =>
    obtain ⟨hidle', hon', hframes, heq⟩ := c.powerFail_armed hdark hpf hheld hen hidle hon hmode
    obtain ⟨hbusy, hlatched, hsafe, hat, hsame⟩ := c.pfWarned.massStart_shown hidle' hon'
    have hwarned : warned c.pfWarned.massStart := c.pfShown_pfWarned.massStart hidle' hon'
    have hsafe' : c.pfWarned.massStart.safeFrames = all := hsafe.trans hframes
    refine ⟨fun hpolicy => .of_run rfl ?_, fun hpolicy hall => .of_run rfl ?_, fun hpolicy hall => .of_run rfl ?_⟩
    · rw [heq, if_pos hpolicy]
      exact ⟨hwarned, hbusy, hlatched, hsafe', hat.trans (c.pfWarned_field Chip.cycles (fun _ _ _ _ => rfl) fun _ _ => rfl),
        hsame.trans c.sameSenders_pfWarned.mode⟩
    · rw [heq, if_neg (by simp [hpolicy]), if_neg (show ¬ c.massFrames = [] from hall)]
      refine ⟨Chip.pfShown.later hwarned (Chip.steady_shortAwaited _) (Chip.get_shortAwaited _ rfl) (Chip.cntAt_overrideEntry ..), ?_,
        (Chip.shortAwaited_field _ Chip.safeFrames (fun _ _ _ _ => rfl) fun _ _ => rfl).trans hsafe', rfl⟩
      exact (congrArg (fun n => decide (n = 1)) (Chip.get_shortAwaited _ rfl)).trans hbusy
    · rw [heq, if_neg (by simp [hpolicy]), if_pos (show c.massFrames = [] from hall)]
      exact Chip.coreOff_short _
  case refine_3 =>
    rw [c.massDone_taken hbusy (.inl hnone), if_pos hshort]
    exact Chip.coreOff_short _
  case refine_4 =>
    have hstays : ¬ (c.mode = modeQuarantine ∧ c.storyHalted = false ∧ c.pwr.shortDue = false) := fun ⟨hmode, hgo, _⟩ =>
      hhalt.elim (fun h => h hmode) fun h => Bool.noConfusion (hgo.symm.trans h)
    rw [c.massDone_taken hbusy (hend.imp_right fun h => ⟨hstays, h⟩), if_neg (by simp [hshort]), if_neg (by simpa [hshort] using hstays)]
    exact ⟨decide_eq_false (by rw [c.busy_massIdle]; decide), rfl, c.mode_massIdle, rfl⟩
  case refine_5 =>
    obtain ⟨hidle, hhalted, hroot, hslots, hkeys, hrels, hdisarmed⟩ := c.massIdle.quarantineEnd_shown
    rw [c.massDone_taken hbusy (.inl hnone), if_neg (by simp [hshort]), if_pos (by simp [hmode, hhalt])]
    exact ⟨decide_eq_false (by rw [hidle, c.busy_massIdle]; decide), hhalted, hroot, hslots, hkeys, hrels, hdisarmed⟩

end Sys2Proof.Machine

/-! The lists of the Story pole (R140, R141, R143). -/

namespace Sys2Proof.Machine

open Sys2Proof

/-! ## A list replaced -/

theorem list_congr {c d : Chip} (h : d.lists = c.lists) (i : Nat) : d.list i = c.list i := by rw [Chip.list, h, Chip.list]

/-- What a list replaced reads as, but for the views that it keeps of the past. -/
theorem Chip.list_setListAt_same (c : Chip) (i : Nat) (x : ListRt) (m : Nat) : ∃ past, (c.setListAt i x m).list i = { x with past := past } :=
  ⟨_, lookupD_store_same ..⟩

theorem Chip.list_setListAt_other (c : Chip) {i j : Nat} (x : ListRt) (m : Nat) (h : j ≠ i) : (c.setListAt i x m).list j = c.list j :=
  lookupD_store_other _ _ _ _ h

/-! ## An entry begins (R140, R144) -/

theorem Chip.lists_holdPort (c : Chip) (n : Nat) : (c.holdPort n).lists = c.lists := by
  unfold Chip.holdPort
  split
  · split
    · unfold Chip.interrupt
      split
      · rfl
      · unfold Chip.portCount
        split <;> rfl
    · rfl
  · rfl

theorem Chip.lists_setPins (c : Chip) (mask levels : Nat) : (c.setPins mask levels).lists = c.lists :=
  c.setPins_field mask levels Chip.lists fun _ _ _ => rfl

theorem Chip.lists_tcount (c : Chip) (p : Page) (t i k : Nat) : (c.tcount p t i k).lists = c.lists := rfl

/-- A list whose entry `k` has begun: all that a hold leaves open. -/
def ListRt.begun (l : ListRt) (k at' cyc value : Nat) (hold : Bool) : ListRt :=
  { l with idx := k, entryAt := at', cycleAt := cyc, value := value, hold := hold }

theorem Chip.lists_perf (c : Chip) (ev n : Nat) : (c.perf ev n).lists = c.lists := (Loud.perf c ev n).field Chip.lists fun _ _ _ => rfl

theorem Chip.lists_beginEntry (c : Chip) {i : Nat} (k at' cyc : Nat) {a : LDesc} (h : (c.list i).oper = some a) :
    ∃ hold, (c.beginEntry i k at' cyc).lists = (c.setList i ((c.list i).begun k at' cyc (c.entryVal a k) hold)).lists := by
  have hsame := fun {α : Type} (f : Chip → α) hf => (Loud.perf c 0x280 1).field f hf
  have hlist : (c.perf 0x280 1).list i = c.list i := list_congr (c.lists_perf ..) i
  have hset : ∀ x, ((c.perf 0x280 1).setList i x).lists = (c.setList i x).lists := fun x =>
    hsame (fun d => (d.setList i x).lists) fun _ _ _ => rfl
  have hval : (c.perf 0x280 1).entryVal a k = c.entryVal a k := hsame (·.entryVal a k) fun _ _ _ => rfl
  unfold Chip.beginEntry
  dsimp only
  rw [hlist, h]
  dsimp only
  rw [hval]
  generalize hhold : (if a.kind = kGATE then _ else _ : Bool) = hold
  refine ⟨hold, ?_⟩
  rw [← hset]
  simp only [apply_ite Chip.lists, Chip.lists_setPins, Chip.lists_holdPort, Chip.lists_tcount, ite_self]
  rw [ListRt.begun, h]

section
variable (c : Chip) {i : Nat} {a : LDesc}

/-- The list whose entry begins, and the others. -/
theorem Chip.beginEntry_shown (k at' cyc : Nat) (h : (c.list i).oper = some a) : let d := c.beginEntry i k at' cyc
    (∃ hold past, d.list i = { (c.list i).begun k at' cyc (c.entryVal a k) hold with past := past }) ∧ ∀ j, j ≠ i → d.list j = c.list j := by
  obtain ⟨hold, hlists⟩ := c.lists_beginEntry k at' cyc h
  obtain ⟨past, hpast⟩ := c.list_setListAt_same i ((c.list i).begun k at' cyc (c.entryVal a k) hold) c.mono
  exact ⟨⟨hold, past, (list_congr hlists i).trans hpast⟩, fun j hj => (list_congr hlists j).trans (c.list_setListAt_other _ _ hj)⟩

/-- A boundary of a running list reached begins its next entry (R140). -/
theorem Chip.listEntryStart_runs (hruns : c.storyRuns = true) (hstate : (c.list i).state = lRUN) (hoper : (c.list i).oper = some a)
    (hpend : (c.list i).pend = none) (hdue : (c.boundary a (c.list i).idx (c.list i).entryAt (c.list i).cycleAt).1 ≤ c.localNs) :
    let b := c.boundary a (c.list i).idx (c.list i).entryAt (c.list i).cycleAt
    c.listEntryStart i = c.beginEntry i b.2.1 b.1 b.2.2 := by
  intro b
  unfold Chip.listEntryStart
  simp only [hoper, decide_eq_true hstate]
  exact if_pos ⟨hruns, hdue, .inl (by rw [hpend]; rfl)⟩

/-! ## A pending descriptor operates (R141, R143) -/

/-- The chip with a pending descriptor taken over, before its first entry begins. -/
def Chip.descTaken (i : Nat) (a : LDesc) : Chip :=
  let l := c.list i
  (c.setListAt i { l with state := lRUN, oper := some a, operCt := l.pendCt, pend := none, pendCt := 0 }
    (c.mono - (c.localNs - l.pendCt))).unnamePins c.pinsNamed

theorem Chip.listSwap_pending (hruns : c.storyRuns = true) (hstate : (c.list i).state = lRUN ∨ (c.list i).state = lWAIT)
    (hpend : (c.list i).pend = some a) (hdue : (c.list i).pendCt ≤ c.localNs) :
    c.listSwap i = ((c.descTaken i a).beginEntry i 0 (c.list i).pendCt (c.list i).pendCt).raise pSTORY E.STORY_LIST_SWAP := by
  have htaken : ¬ (¬ c.storyRuns ∨ (c.list i).state ≠ lWAIT ∧ (c.list i).state ≠ lRUN) := by
    obtain h | h := hstate <;> simp [hruns, h]
  unfold Chip.listSwap
  simp only [if_neg htaken, hpend, decide_eq_true hdue]
  rfl

theorem Chip.list_descTaken : ∃ past, (c.descTaken i a).list i
    = { c.list i with state := lRUN, oper := some a, operCt := (c.list i).pendCt, pend := none, pendCt := 0, past := past } := by
  obtain ⟨past, hpast⟩ := c.list_setListAt_same i
    { c.list i with state := lRUN, oper := some a, operCt := (c.list i).pendCt, pend := none, pendCt := 0 } (c.mono - (c.localNs - (c.list i).pendCt))
  exact ⟨past, (list_congr (Chip.lists_setPins ..) i).trans hpast⟩

theorem Chip.entryVal_descTaken (k : Nat) : (c.descTaken i a).entryVal a k = c.entryVal a k :=
  tget_congr (Chip.setPins_field _ _ _ Chip.tblA fun _ _ _ => rfl) ..

/-- What the swap leaves. -/
theorem Chip.listSwap_shown (hruns : c.storyRuns = true) (hstate : (c.list i).state = lRUN ∨ (c.list i).state = lWAIT)
    (hpend : (c.list i).pend = some a) (hdue : (c.list i).pendCt ≤ c.localNs) : let d := c.listSwap i
    d.latched pSTORY E.STORY_LIST_SWAP = true ∧ (d.list i).state = lRUN ∧ (d.list i).oper = some a ∧ (d.list i).pend = none
      ∧ (d.list i).idx = 0 ∧ (d.list i).entryAt = (c.list i).pendCt ∧ (d.list i).value = c.entryVal a 0 := by
  obtain ⟨past, htaken⟩ := c.list_descTaken (i := i) (a := a)
  obtain ⟨⟨hold, past', hbegun⟩, -⟩ := (c.descTaken i a).beginEntry_shown 0 (c.list i).pendCt (c.list i).pendCt (i := i) (a := a) (by rw [htaken])
  have hlist : (c.listSwap i).list i = { ((c.descTaken i a).list i).begun 0 (c.list i).pendCt (c.list i).pendCt (c.entryVal a 0) hold with
      past := past' } := by
    rw [c.listSwap_pending hruns hstate hpend hdue, list_congr (Chip.raise_field _ _ rfl Chip.lists fun _ _ _ => rfl), hbegun,
      Chip.entryVal_descTaken]
  intro d
  refine ⟨?_, ?_⟩
  · rw [show d = _ from c.listSwap_pending hruns hstate hpend hdue]
    exact Chip.latched_raise _ rfl (by decide)
  · rw [hlist, htaken]
    exact ⟨rfl, rfl, rfl, rfl, rfl, rfl⟩

end

end Sys2Proof.Machine

/-! One-shot actions: what their execution leaves (R149 to R151, R158, R159). -/

namespace Sys2Proof.Machine

open Sys2Proof

/-! ## What an action leaves of its entry -/

theorem Chip.cntAt_perf_uncounted (c : Chip) {k : Nat} (hk : uncounted k = true) (ev n : Nat) : (c.perf ev n).cntAt k = c.cntAt k := by
  have hbump := c.cntAt_perfBump_uncounted hk ev n
  unfold Chip.perf
  split
  next d heq =>
    rw [heq] at hbump
    exact (Chip.cntAt_raise_uncounted _ hk _ _).trans hbump
  next d heq =>
    rw [heq] at hbump
    exact hbump

/-- From `c` to `d` the armed actions, the tick of the distances, the entry `i` of ONESHOT and the count of executed actions stand. -/
structure Acted (i : Nat) (c d : Chip) : Prop where
  ones : d.ones = c.ones
  tick : d.distIndex = c.distIndex
  entry : ∀ n < 8, d.tword pSTORYTBL 1 i n = c.tword pSTORYTBL 1 i n
  done : d.cntAt (cntKey pSTORY K.STORY_ONESHOT_DONE) = c.cntAt (cntKey pSTORY K.STORY_ONESHOT_DONE)

theorem Acted.refl (i : Nat) (c : Chip) : Acted i c c := ⟨rfl, rfl, fun _ _ => rfl, rfl⟩

theorem tword_congr {c d : Chip} (h : d.tblA = c.tblA) (p : Page) (t i n : Nat) : d.tword p t i n = c.tword p t i n := by
  rw [Chip.tword, h, Chip.tword]

theorem Acted.one {i : Nat} {c d : Chip} (h : Acted i c d) {f : TFld} (hf : f.word < 8) : d.one i f = c.one i f := by
  rw [Chip.one, Chip.tget, h.entry _ hf, Chip.one, Chip.tget]

section
variable {i : Nat} {c d : Chip} (h : Acted i c d)
include h

theorem Acted.same {e : Chip} (hones : e.ones = d.ones) (htick : e.distIndex = d.distIndex) (htbl : e.tblA = d.tblA) (hcnt : e.cnt = d.cnt) :
    Acted i c e :=
  ⟨hones.trans h.ones, htick.trans h.tick, fun n hn => (tword_congr htbl ..).trans (h.entry n hn), by rw [Chip.cntAt, hcnt]; exact h.done⟩

theorem Acted.count {p : Page} {k : Nat} (hne : cntKey pSTORY K.STORY_ONESHOT_DONE ≠ cntKey p k) : Acted i c (d.count p k) :=
  ⟨h.ones, h.tick, h.entry, (d.cntAt_addCnt_other _ _ _ hne).trans h.done⟩

theorem Acted.raise {p : Page} (b : Nat) (hp : pageValid p = true) : Acted i c (d.raise p b) :=
  ⟨(d.raise_field b hp Chip.ones fun _ _ _ => rfl).trans h.ones, (d.raise_field b hp Chip.distIndex fun _ _ _ => rfl).trans h.tick,
    fun n hn => (tword_congr (d.raise_field b hp Chip.tblA fun _ _ _ => rfl) ..).trans (h.entry n hn),
    (Chip.cntAt_raise_uncounted _ (by decide) _ _).trans h.done⟩

theorem Acted.perf (ev n : Nat) : Acted i c (d.perf ev n) :=
  ⟨((Loud.perf d ev n).field Chip.ones fun _ _ _ => rfl).trans h.ones, ((Loud.perf d ev n).field Chip.distIndex fun _ _ _ => rfl).trans h.tick,
    fun w hw => (tword_congr ((Loud.perf d ev n).field Chip.tblA fun _ _ _ => rfl) ..).trans (h.entry w hw),
    (Chip.cntAt_perf_uncounted _ (by decide) _ _).trans h.done⟩

theorem Acted.setPins (mask levels : Nat) : Acted i c (d.setPins mask levels) :=
  h.same (d.setPins_field _ _ Chip.ones fun _ _ _ => rfl) (d.setPins_field _ _ Chip.distIndex fun _ _ _ => rfl)
    (d.setPins_field _ _ Chip.tblA fun _ _ _ => rfl) (by unfold Chip.setPins; dsimp only; split <;> rfl)

theorem Acted.setWatch (j : Nat) (x : WatchRt) : Acted i c (d.setWatch j x) := h.same rfl rfl rfl rfl

/-- An entry of CINCH is none of ONESHOT. -/
theorem Acted.tputWatch (hi : i < 2 ^ 20) {j : Nat} (hj : j < 2 ^ 20) {f : TFld} (hf : f.word < 128) (v : Nat) : Acted i c (d.tput pCINCH 0 j f v) := by
  refine ⟨(Chip.ones_setTword ..).trans h.ones, (Chip.distIndex_setTword ..).trans h.tick, fun n hn => Eq.trans ?_ (h.entry n hn),
    (congrArg (lookupD 0 · _) (Chip.cnt_setTword ..)).trans h.done⟩
  have hkey : tblKey pSTORYTBL 1 i n ≠ tblKey pCINCH 0 j f.word := by
    have hstory : pageIdx pSTORYTBL = 19 := rfl
    have hcinch : pageIdx pCINCH = 20 := rfl
    unfold tblKey
    omega
  exact lookupD_store_other _ _ _ _ hkey

theorem Acted.setQueue (q : Nat) (x : Queue) : Acted i c (d.setQueue q x) := h.same rfl rfl rfl rfl

theorem Acted.portCount (n : Nat) {k : Nat} (hk : k < 1024) : Acted i c (d.portCount n k) := by
  have hpage : cntKey (pPORT n) k = (30 + n) * 1024 + k := rfl
  have hdone : cntKey pSTORY K.STORY_ONESHOT_DONE < 30 * 1024 := by decide
  unfold Chip.portCount
  split
  · exact h.count (by omega)
  · exact h

theorem Acted.countLinkDown (k : Copy) : Acted i c (d.countLinkDown k) := h.portCount _ (by split <;> decide)

/-! ### Each kind of action -/

theorem Acted.pinAction (mask arg : Nat) : Acted i c (d.pinAction mask arg) := by
  unfold Chip.pinAction
  dsimp only
  have hpins := h.setPins (mask % 256 &&& d.get pEVIO F.EVIO_OUT_CFG_EN) (arg % 256)
  split
  · exact hpins.same rfl rfl rfl rfl
  · exact hpins.same rfl rfl rfl rfl

theorem Acted.watchAction (hi : i < 2 ^ 20) {j : Nat} (hj : j < 2 ^ 20) (arm : Bool) : Acted i c (d.watchAction j arm) := by
  have hstart : Acted i c (d.startWatch j) := by
    unfold Chip.startWatch
    split
    · exact h.setWatch ..
    · exact h.setWatch ..
  unfold Chip.watchAction
  split
  · exact (h.setWatch j {}).tputWatch (f := fWtArm) hi hj (by decide) 0
  · split
    · exact h
    · split
      · exact h
      · exact hstart.tputWatch (f := fWtArm) hi hj (by decide) 1

theorem Acted.addRel (q : RelReq) : Acted i c (d.addRel q) := h.same rfl rfl rfl rfl

theorem Acted.release (q : RelReq) (execLate : Bool) : Acted i c (d.release q execLate).1 := by
  unfold Chip.release
  dsimp only
  split_ifs
  · exact h.count (by decide)
  · exact h.count (by decide)
  · exact h.count (by decide)
  · exact (h.addRel q).perf ..
  · exact Acted.count ((h.addRel { q with late := true }).perf ..) (by decide)
  · have hcount : Acted i c (d.count pSTORY K.STORY_RELEASE_PAST) := h.count (by decide)
    exact hcount.raise (p := pSTORY) E.STORY_RELEASE_PAST rfl

theorem Acted.sendTail (k : Copy) : Acted i c (d.sendTail k) := by
  unfold Chip.sendTail
  dsimp only
  split
  · exact h.countLinkDown k
  · split
    · exact h.setQueue ..
    · exact h.setQueue ..

theorem Acted.sendAction (slot : Nat) (distance : Bool) : Acted i c (d.sendAction slot distance) := by
  have hfid : Acted i c { d with nextFid := d.nextFid + 1 } := h.same rfl rfl rfl rfl
  unfold Chip.sendAction
  dsimp only
  split
  · split
    · exact hfid.sendTail _
    · split
      · exact hfid.countLinkDown _
      · exact hfid.release ..
  · exact h.release ..
  · exact h

end

/-! ## Execution (R149, R151) -/

/-- A field of another word of the entry. -/
theorem Chip.tget_tput_word (c : Chip) {p : Page} {t i : Nat} {f g : TFld} (v : Nat) (h : f.word ≠ g.word) :
    (c.tput p t i g v).tget p t i f = c.tget p t i f := by
  have hkey : tblKey p t i f.word ≠ tblKey p t i g.word := by
    unfold tblKey
    omega
  rw [Chip.tget, Chip.tput, Chip.tword, Chip.setTword, lookupD_store_other _ _ _ _ hkey, ← Chip.tword, ← Chip.tget]

section
variable (c : Chip) (i : Nat) (late : Bool)

/-- The chip with an executing action no longer armed. -/
def Chip.fireFreed : Chip := { c.perf 0x281 1 with ones := store none c.ones i none }

/-- The same with the action's entry written: its state, the epoch and the stamp. -/
def Chip.firedEntry : Chip :=
  let d := c.fireFreed i
  let d := (d.tput pSTORYTBL 1 i fOsState (if late then oDONELATE else oDONE)).tput pSTORYTBL 1 i fOsEpoch d.epoch
  d.tput pSTORYTBL 1 i fOsStamp (if c.one i fOsKind = 5 then c.one i fOsArg else d.stamp)

/-- The same counted, before the action itself acts. -/
def Chip.fireNoted : Chip :=
  let d := (c.firedEntry i late).count pSTORY (if late then K.STORY_ONESHOT_LATE else K.STORY_ONESHOT_DONE)
  if late ∧ decide (c.one i fOsTrigger = 1) then d.count pSTORY K.STORY_DIST_LATE else d

/-- What an action of a kind does once it is noted. -/
def Chip.actOf (d : Chip) (i : Nat) (late distance : Bool) (kind target arg : Nat) : Chip :=
  match kind with
  | 1 => d.fireBound i late
  | 2 => d.pinAction target arg
  | 3 => d.watchAction (target % 512) (arg.testBit 0)
  | 4 => d.fwActivate (target % 4) arg
  | 5 => d.raise pSTORY E.STORY_MARK
  | 6 => d.sendAction (target % 2048) distance
  | _ => d

theorem Chip.fire_eq : c.fire i late
    = (c.fireNoted i late).actOf i late (decide (c.one i fOsTrigger = 1)) (c.one i fOsKind) (c.one i fOsTarget) (c.one i fOsArg) := rfl

theorem Chip.fire_mark (h : c.one i fOsKind = 5) : c.fire i late = (c.fireNoted i late).raise pSTORY E.STORY_MARK := by
  rw [Chip.fire_eq, h]
  rfl

theorem Chip.acted_fire (hi : i < 2 ^ 20) (hcommit : c.one i fOsKind ≠ 1) (hfw : c.one i fOsKind ≠ 4) :
    Acted i (c.fireNoted i late) (c.fire i late) := by
  have hnoted : Acted i (c.fireNoted i late) (c.fireNoted i late) := .refl ..
  rw [Chip.fire_eq]
  unfold Chip.actOf
  split
  next h => exact absurd h hcommit
  next => exact hnoted.pinAction ..
  next => exact hnoted.watchAction hi ((Nat.mod_lt _ (by decide)).trans (by decide)) _
  next h => exact absurd h hfw
  next => exact hnoted.raise _ rfl
  next => exact hnoted.sendAction ..
  next => exact hnoted

/-! ### What the note shows -/

/-- Counting leaves an entry, the armed actions and the tick. -/
theorem Chip.fireNoted_field {α : Type} (f : Chip → α) (hf : ∀ d r n o, f (Chip.noise d r n o) = f d) :
    f (c.fireNoted i late) = f (c.firedEntry i late) := by
  unfold Chip.fireNoted
  dsimp only
  split
  · exact (hf _ _ _ _).trans (hf _ _ _ _)
  · exact hf _ _ _ _

theorem Chip.ones_fireNoted : lookupD none (c.fireNoted i late).ones i = none := by
  rw [c.fireNoted_field i late Chip.ones fun _ _ _ _ => rfl]
  exact lookupD_store_same none c.ones i none

theorem Chip.distIndex_fireNoted : (c.fireNoted i late).distIndex = c.distIndex := by
  have hperf : (c.perf 0x281 1).distIndex = c.distIndex := (Loud.perf c 0x281 1).field Chip.distIndex fun _ _ _ => rfl
  rw [c.fireNoted_field i late Chip.distIndex fun _ _ _ _ => rfl, ← hperf, Chip.firedEntry]
  simp only [Chip.tput, Chip.distIndex_setTword]
  rfl

theorem Chip.done_fireNoted :
    (c.fireNoted i false).cntAt (cntKey pSTORY K.STORY_ONESHOT_DONE) = c.cntAt (cntKey pSTORY K.STORY_ONESHOT_DONE) + 1 := by
  have hnoted : c.fireNoted i false = (c.firedEntry i false).count pSTORY K.STORY_ONESHOT_DONE := by
    unfold Chip.fireNoted
    dsimp only
    rw [if_neg (by simp)]
    rfl
  have hentry : (c.firedEntry i false).cnt = (c.perf 0x281 1).cnt := by
    rw [Chip.firedEntry]
    simp only [Chip.tput, Chip.cnt_setTword]
    rfl
  rw [hnoted, Chip.cntAt_count_same, Chip.cntAt, hentry, ← Chip.cntAt, c.cntAt_perf_uncounted (by decide)]

variable (hi : i < 2 ^ 20)
include hi

theorem Chip.state_firedEntry : (c.firedEntry i late).one i fOsState = if late then oDONELATE else oDONE := by
  rw [Chip.one, Chip.firedEntry, Chip.tget_tput_word _ _ (by decide),
    Chip.tget_tput_beside (f := fOsState) (g := fOsEpoch) _ _ rfl (by decide) hi (by decide) rfl (by decide),
    Chip.tget_tput_same _ _ rfl (by decide) hi (by decide) (by decide)]
  cases late <;> rfl

theorem Chip.epoch_firedEntry : (c.firedEntry i late).one i fOsEpoch = c.epoch := by
  have hepoch : (c.perf 0x281 1).epoch = c.epoch := (Loud.perf c 0x281 1).get rfl rfl rfl
  have hlt : c.epoch < 2 ^ 8 := bitsAt_lt ..
  rw [Chip.one, Chip.firedEntry, Chip.tget_tput_word _ _ (by decide), Chip.tget_tput_same _ _ rfl (by decide) hi (by decide) (by decide)]
  exact (congrArg (· % 2 ^ 8) hepoch).trans (Nat.mod_eq_of_lt hlt)

theorem Chip.stamp_firedEntry (h : c.one i fOsKind = 5) : (c.firedEntry i late).one i fOsStamp = c.one i fOsArg := by
  have hlt : c.one i fOsArg < 2 ^ 32 := bitsAt_lt ..
  rw [Chip.one, Chip.firedEntry, Chip.tget_tput_same _ _ rfl (by decide) hi (by decide) (by decide), if_pos h]
  exact Nat.mod_eq_of_lt hlt

/-- What an action that has executed leaves of its entry, by the note that it is. -/
theorem Chip.one_fire (hcommit : c.one i fOsKind ≠ 1) (hfw : c.one i fOsKind ≠ 4) {f : TFld} (hf : f.word < 8) :
    (c.fire i late).one i f = (c.firedEntry i late).one i f :=
  ((c.acted_fire i late hi hcommit hfw).one hf).trans (c.fireNoted_field i late (·.one i f) fun _ _ _ _ => rfl)

end

/-! ## The one armed action (R149 to R151, R159) -/

/-- The chip with the present tick of the distances taken (R159). -/
def Chip.ticked (c : Chip) : Chip := { c with distIndex := c.mono / 1000 }

section
variable (c : Chip) {i : Nat} {o : OneRt} (harmed : c.armed = [i]) (hone : lookupD none c.ones i = some o)
include harmed hone

theorem Chip.runActions_one (htrigger : c.one i fOsTrigger = 0) (hdue : o.rel ≤ c.localNs) :
    c.runActions = if c.timeValid ∧ c.storyRuns then c.fire i false else c.endAction i := by
  have hrun : c.runAction i = if c.timeValid ∧ c.storyRuns then c.fire i false else c.endAction i := by
    unfold Chip.runAction
    rw [hone]
    exact if_pos ⟨htrigger, hdue⟩
  rw [Chip.runActions, harmed, ← hrun]
  rfl

theorem Chip.distTick_one (hlast : c.distIndex < c.mono / 1000) (hruns : c.storyRuns = true) (htrigger : c.one i fOsTrigger = 1)
    (hreached : c.distReached i = true) :
    c.distTick = c.ticked.fire i (decide (c.one i fOsLeadEn = 1)) := by
  have hact : c.ticked.distAction i
      = c.ticked.fire i (decide (c.one i fOsLeadEn = 1)) := by
    have hone' : lookupD none c.ticked.ones i = some o := hone
    unfold Chip.distAction
    rw [hone']
    exact (if_neg (show ¬ c.one i fOsTrigger = 0 by omega)).trans (if_pos hreached)
  have hticked : c.distTick = c.ticked.armed.foldl (fun d j => d.distAction j) c.ticked := by
    unfold Chip.distTick
    dsimp only
    rw [if_neg (Nat.not_le.2 hlast)]
    exact if_neg (not_not_intro (show c.ticked.storyRuns = true from hruns))
  rw [hticked, show c.ticked.armed = [i] from harmed]
  exact hact

end

/-- What the end of an action while the time is INVALID leaves (R151). -/
theorem Chip.endAction_shown (c : Chip) {i : Nat} (hi : i < 2 ^ 20) : let d := c.endAction i
    d.one i fOsState = oTIMEINVALID ∧ lookupD none d.ones i = none ∧ d.latched pSTORY E.STORY_ONESHOT_TIME_INVALID = true := by
  have hrej := c.rejects_endAction i
  have hones : (c.endAction i).ones = (c.actNoted i).ones :=
    (hrej.field Chip.ones fun _ _ _ _ _ => rfl).trans (Chip.raise_field _ _ rfl Chip.ones fun _ _ _ => rfl)
  refine ⟨?_, ?_, hrej.latches pSTORY _ rfl (Chip.latched_raise _ rfl (by decide))⟩
  · rw [Chip.one, tget_congr ((hrej.field Chip.tblA fun _ _ _ _ _ => rfl).trans (c.tblA_actEnded i)),
      Chip.tget_tput_same _ _ rfl (by decide) hi (by decide) (by decide)]
    rfl
  · rw [hones]
    exact lookupD_store_same none _ i none

/-- Settles O18: what the lemmas above say of a boundary, a swap, and the one action that is armed. -/
theorem storyPole : Obligations.StoryPole := by
  refine ⟨fun s dt i a => ?_, fun s dt i o => ?_⟩
  · intro c l b hruns
    refine ⟨fun hstate hoper hpend hdue => .of_run rfl ?_, fun hstate hpend hdue => .of_run rfl (c.listSwap_shown hruns hstate hpend hdue)⟩
    obtain ⟨⟨hold, past, hlist⟩, hothers⟩ := c.beginEntry_shown b.2.1 b.1 b.2.2 hoper
    rw [c.listEntryStart_runs hruns hstate hoper hpend hdue, hlist]
    exact ⟨rfl, rfl, rfl, rfl, hoper, hothers⟩
  · intro c state hlt harmed hone
    have hi : i < 2 ^ 20 := by omega
    refine ⟨fun htrigger hdue hvalid hruns hcommit hfw => .of_run rfl ?_, fun htrigger hdue hvalid hcommit => .of_run rfl ?_,
      fun hlast hruns htrigger hreached hcommit hfw => .of_run rfl ?_⟩
    case refine_1 =>
      have hacted := c.acted_fire i false hi hcommit hfw
      rw [c.runActions_one harmed hone htrigger hdue, if_pos ⟨hvalid, hruns⟩]
      refine ⟨(c.one_fire i false hi hcommit hfw (by decide)).trans (c.state_firedEntry i false hi),
        (c.one_fire i false hi hcommit hfw (by decide)).trans (c.epoch_firedEntry i false hi), ?_, hacted.done.trans (c.done_fireNoted i),
        fun hmark => ⟨?_, (c.one_fire i false hi hcommit hfw (by decide)).trans (c.stamp_firedEntry i false hi hmark)⟩⟩
      · rw [hacted.ones]
        exact c.ones_fireNoted i false
      · rw [c.fire_mark i false hmark]
        exact Chip.latched_raise _ rfl (by decide)
    case refine_2 =>
      rw [c.runActions_one harmed hone htrigger hdue, if_neg (by simp [hvalid])]
      exact c.endAction_shown hi
    case refine_3 =>
      rw [c.distTick_one harmed hone hlast hruns htrigger hreached]
      have hacted := c.ticked.acted_fire i (decide (c.one i fOsLeadEn = 1)) hi hcommit hfw
      have hstate := c.ticked.state_firedEntry i (decide (c.one i fOsLeadEn = 1)) hi
      rw [← c.ticked.one_fire i _ hi hcommit hfw (by decide)] at hstate
      refine ⟨hacted.tick.trans (c.ticked.distIndex_fireNoted ..), ?_, hstate.trans (by simp only [decide_eq_true_eq])⟩
      rw [hacted.ones]
      exact c.ticked.ones_fireNoted ..

end Sys2Proof.Machine

/-! Egress: what judging a copy leaves of the crossings (R144), and how a copy comes into transmission. -/

namespace Sys2Proof.Machine

open Sys2Proof

/-! ## Judging by Bridle (R192 to R201) -/

theorem Steady.ite_fst {α : Type} {c : Chip} {P : Prop} [Decidable P] {a b : Chip × α} (ha : Steady c a.1) (hb : Steady c b.1) :
    Steady c (if P then a else b).1 := by
  split
  · exact ha
  · exact hb

section
variable {c d : Chip} (h : Steady c d)
include h

theorem Steady.takeFree : Steady c d.takeFree.2 := h.same (by rfl) (by rfl)

theorem Steady.countBridleDrop (port : Nat) (egress : Bool) : Steady c (d.countBridleDrop port egress) := by
  unfold Chip.countBridleDrop
  exact .ite (h.count ..) (.ite h (.ite (h.count ..) (.ite (h.count ..) (h.when fun h => h.count ..))))

theorem Steady.matchRules (x : Subject) : Steady c (d.matchRules x).1 := by
  unfold Chip.matchRules
  extract_lets profile key rules total
  split
  next taken dec heq =>
    extract_lets perfed handled counted dropped
    have hperfed : Steady c perfed := (h.perf ..).perf ..
    have hhandled : Steady c handled := hperfed.when fun h => h.perf ..
    have hcounted : Steady c counted := hhandled.foldl fun _ _ h => (h.tcount ..).addTCnt ..
    have hdropped : Steady c dropped := by
      simp only [dropped]
      split
      · exact hcounted.tcount ..
      · exact hcounted
    split
    · exact hcounted
    · exact (hdropped.count ..).countBridleDrop ..
    · exact .ite_fst hcounted (((hcounted.count ..).count ..).countBridleDrop ..)

theorem Steady.mirrorDrop : Steady c d.mirrorDrop := (h.count ..).raise ..

theorem Steady.canMirror (m port : Nat) (g : Msg) : Steady c (d.canMirror m port g).1 := h.takeFree.takeFree

theorem Steady.mirror (x : Subject) (m : Nat) : Steady c (d.mirror x m) := by
  unfold Chip.mirror
  extract_lets cfg
  refine .ite h ?_
  generalize x.source.getD (x.port, x.msg, x.orig.getD x.bytes) = r
  obtain ⟨from', msg, frame⟩ := r
  refine .ite h.mirrorDrop ?_
  split
  next e bytes hbytes =>
    have he : Steady c e := by
      cases msg with
      | none =>
        have hsame : d = e := congrArg Prod.fst hbytes
        exact hsame ▸ h
      | some g =>
        have hsame : (d.canMirror m from' g).1 = e := congrArg Prod.fst hbytes
        exact hsame ▸ h.canMirror m from' g
    extract_lets cut whole k
    have hnext : Steady c { e with nextFid := e.nextFid + 1 } := he.same rfl rfl
    have hlet := hnext.letIn k
    refine .ite he.mirrorDrop ?_
    split
    next heq =>
      rw [heq] at hlet
      exact hlet.count ..
    next heq =>
      rw [heq] at hlet
      exact hlet.mirrorDrop

theorem Steady.meter (i size : Nat) : Steady c (d.meter i size).1 := by
  unfold Chip.meter
  extract_lets b x d₁
  have h₁ : Steady c d₁ := (h.setPolicer ..).tcount ..
  refine .ite_fst h (.ite_fst ((h.setPolicer ..).tcount ..) (.ite_fst (.ite_fst ((h₁.count ..).tcount ..) h₁) ?_))
  exact (((h.setPolicer ..).perf ..).count ..).tcount ..

end

theorem Steady.meterAll {c d : Chip} (h : Steady c d) (size : Nat) (l : List Nat) (x : Metered) : Steady c (d.meterAll size l x).1 := by
  induction l generalizing d x with
  | nil => exact h
  | cons i l ih =>
    have hmeter := h.meter i size
    unfold Chip.meterAll
    split
    next heq => rw [heq] at hmeter; exact hmeter
    next heq => rw [heq] at hmeter; exact ih hmeter _
    next heq => rw [heq] at hmeter; exact ih hmeter _
    next heq => rw [heq] at hmeter; exact ih hmeter _

section
variable {c d : Chip} (h : Steady c d)
include h

theorem Steady.windowTest (rules : List Nat) (x : Subject) : Steady c (d.windowTest rules x).1 := by
  unfold Chip.windowTest
  extract_lets shut
  exact .ite_fst h ((h.count ..).foldl fun _ _ h => h.tcount ..)

/-- Bridle's judgement of a frame: no message is tracked. -/
theorem Steady.bridle {x : Subject} (hx : x.msg = none) (far : Nat) : Steady c (d.bridle x far).1 := by
  unfold Chip.bridle
  refine .ite_fst h ?_
  have hmatch := h.matchRules x
  split
  next e t heq =>
    rw [heq] at hmatch
    extract_lets e₁ no
    have h₁ : Steady c e₁ := hmatch.foldl fun _ _ h => h.mirror ..
    refine .ite_fst h₁ ?_
    have hmeter := h₁.meterAll x.size ((t.rules.filter fun r => decide (e₁.rule r fRuPolice = 1)).map fun r => e₁.rule r fRuPolicer) {}
    split
    next e₂ m heq₂ =>
      rw [heq₂] at hmeter
      refine .ite_fst hmeter ?_
      have hwindow := hmeter.windowTest t.rules x
      split
      next e₃ ok heq₃ =>
        rw [heq₃] at hwindow
        refine .ite_fst hwindow ?_
        have htrack : e₃.track x (e₃.trackLimit t.rules) far = (e₃, true) := by
          unfold Chip.track
          rw [hx]
        rw [htrack]
        exact hwindow

/-! ## Judging a copy -/

theorem Steady.eccCopy (k : Copy) (ecc : EccResult) : Steady c (d.eccCopy k ecc).1 := by
  unfold Chip.eccCopy
  split
  · exact h
  · exact h.count ..
  · exact (((h.raise ..).count ..).numberLost _).refuseCopy _

theorem Steady.egressLookup (k : Copy) : Steady c (d.egressLookup k).1 := by
  unfold Chip.egressLookup
  exact .ite_fst h (h.bridle rfl 0)

theorem Steady.owe (k : Copy) (rules : List Nat) : Steady c (d.owe k rules) := by
  unfold Chip.owe
  split
  · exact h.when fun h => h.setRx ..
  · exact h

theorem Steady.macTake (port etype : Nat) : Steady c (d.macTake port etype).1 := by
  unfold Chip.macTake
  split
  · exact h
  next y hy =>
    extract_lets sa pn limit near e
    have hpn : Steady c (d.setPn sa (pn + 1)) := h.same rfl rfl
    have he : Steady c e := hpn.tcount ..
    exact .ite_fst h (.ite_fst (h.tcount ..) (he.when fun h => h.raise ..))

/-- Judging a copy for the wire leaves the crossings (R144). -/
theorem Steady.prepare (k : Copy) (timed : Bool) (ecc : EccResult) : Steady c (d.prepare k timed ecc).1 := by
  have hecc : Steady c (if k.safe || k.send then (d, some k) else d.eccCopy k ecc).1 := .ite_fst h (h.eccCopy ..)
  unfold Chip.prepare
  split
  next heq =>
    rw [heq] at hecc
    exact hecc
  next e k₁ heq =>
    rw [heq] at hecc
    extract_lets edit len maxLen
    refine .ite_fst ((hecc.count ..).refuseCopy _) ?_
    have hlookup := hecc.egressLookup k₁
    split
    next f x heq₁ =>
      rw [heq₁] at hlookup
      extract_lets owed edited
      have howed : Steady c owed := hlookup.owe ..
      refine .ite_fst (howed.refuseCopy _) ?_
      have hmac := howed.macTake k₁.egress (beAt (wireBytes k₁ edited) 12 2)
      split
      next heq₂ =>
        rw [heq₂] at hmac
        exact hmac.refuseCopy _
      next heq₂ =>
        rw [heq₂] at hmac
        exact hmac

end

end Sys2Proof.Machine

/-! Egress: a copy comes into transmission (R144), timed releases (R153 to R156). -/

namespace Sys2Proof.Machine

open Sys2Proof

/-! ## A copy leaves its queue -/

theorem Chip.takeCopy_field {α : Type} (c : Chip) (n : Nat) (k : Copy) (f : Chip → α) (hb : ∀ b, f { c with bypass := b } = f c)
    (hq : ∀ q x, f (c.setQueue q x) = f c) : f (c.takeCopy n k) = f c := by
  unfold Chip.takeCopy
  split
  · exact hb _
  · exact hq ..

theorem portEpoch_congr {c d : Chip} (h : d.xings = c.xings) (n : Nat) : d.portEpoch n = c.portEpoch n := by
  simp only [Chip.portEpoch, Chip.pageEpoch, h]

theorem txOf_congr {c d : Chip} (h : d.tx = c.tx) (n : Nat) : d.txOf n = c.txOf n := by rw [Chip.txOf, h, Chip.txOf]

/-! ## A judged copy starts -/

section
variable (c : Chip) (n : Nat)

/-- The chip with the start of a judged copy counted and its credit taken. -/
def Chip.startNoted (k : Copy) : Chip :=
  let d := (c.perf (0x60 + n) k.cells).takeCredit n k 0 (k.going.getD {}).wire
  if k.rx.isSome then d.count pFAB K.FAB_CT_COPIES else d

theorem Chip.startNoted_field {α : Type} (k : Copy) (f : Chip → α) (hf : ∀ d r m o, f (Chip.noise d r m o) = f d)
    (ht : ∀ d t x, f (Chip.setTenon d t x) = f d) : f (c.startNoted n k) = f c := by
  have hperf : f (c.perf (0x60 + n) k.cells) = f c := (Loud.perf ..).field f (hf c)
  have hcredit : f ((c.perf (0x60 + n) k.cells).takeCredit n k 0 (k.going.getD {}).wire) = f c := by
    unfold Chip.takeCredit
    split
    · exact (ht ..).trans hperf
    · exact hperf
  unfold Chip.startNoted
  dsimp only
  split
  · exact (hf _ _ _ _).trans hcredit
  · exact hcredit

/-- The chip with a judged copy in transmission. -/
def Chip.inTransmission (k : Copy) : Chip :=
  let d := c.startNoted n k
  let x := d.portRt n
  (if isS n then d.setPortRt n { x with burst := x.burst + 1 } else d).setTx n (some { k with xing := d.portEpoch n })

theorem Chip.startCopy_eq {c a : Chip} {n : Nat} {k k' : Copy} {timed : Bool} {ecc : EccResult} (h : c.prepare k timed ecc = (a, some k')) :
    c.startCopy n k timed ecc = (a.inTransmission n k', true) := by
  unfold Chip.startCopy
  rw [h]
  rfl

theorem Chip.inTransmission_field {α : Type} (k : Copy) (f : Chip → α) (hf : ∀ d r m o, f (Chip.noise d r m o) = f d)
    (ht : ∀ d t x, f (Chip.setTenon d t x) = f d) (hp : ∀ d i x, f (Chip.setPortRt d i x) = f d) (hx : ∀ d i x, f (Chip.setTx d i x) = f d) :
    f (c.inTransmission n k) = f c := by
  have hnoted := c.startNoted_field n k f hf ht
  unfold Chip.inTransmission
  dsimp only
  rw [hx]
  split
  · exact (hp ..).trans hnoted
  · exact hnoted

theorem Chip.txOf_inTransmission (k : Copy) : (c.inTransmission n k).txOf n = some { k with xing := c.portEpoch n } := by
  have hepoch : (c.startNoted n k).portEpoch n = c.portEpoch n :=
    portEpoch_congr (c.startNoted_field n k Chip.xings (fun _ _ _ _ => rfl) fun _ _ _ => rfl) n
  rw [← hepoch]
  exact lookupD_store_same (none : Option Copy) _ n (some _)

/-! ## The medium -/

/-- The chip with what a start on a shared medium counts. -/
def Chip.mediumNoted (waited : Bool) (collisions : Nat) : Chip :=
  if isS n then
    let d := if waited then c.count (pPORT n) K.PORT_TX_DEFERRED else c
    if d.is (pPORT n) F.PORT_LINK_STATUS_PLCA_ACTIVE then d else d.addCnt (pPORT n) K.PORT_TX_COLLISIONS collisions
  else c

theorem Chip.mediumNoted_field {α : Type} (waited : Bool) (collisions : Nat) (f : Chip → α) (hf : ∀ d r m o, f (Chip.noise d r m o) = f d) :
    f (c.mediumNoted n waited collisions) = f c := by
  have hdeferred : f (if waited then c.count (pPORT n) K.PORT_TX_DEFERRED else c) = f c := by
    split
    · exact hf _ _ _ _
    · rfl
  unfold Chip.mediumNoted
  split
  · dsimp only
    generalize (if waited then c.count (pPORT n) K.PORT_TX_DEFERRED else c : Chip) = d at hdeferred ⊢
    split
    · exact hdeferred
    · exact (hf _ _ _ _).trans hdeferred
  · rfl

variable {c} {n} {k k' : Copy} {a : Chip} {ecc : EccResult} (waited : Bool) (collisions : Nat)

theorem Chip.startPick_copy (h : (c.takeCopy n k).prepare k false ecc = (a, some k')) :
    c.startPick n (.copy k) ecc waited collisions = (a.inTransmission n k').mediumNoted n waited collisions := by
  unfold Chip.startPick
  dsimp only
  rw [Chip.startCopy_eq h]
  rfl

theorem Chip.startPick_timed {q : RelReq} (h : c.prepare k true ecc = (a, some k')) : c.startPick n (.timed q k) ecc waited collisions
    = ((a.inTransmission n k').logRelease q waited (((a.inTransmission n k').txOf n).map fun j => (j.going.getD {}).sof)).mediumNoted n waited
      collisions := by
  unfold Chip.startPick
  dsimp only
  rw [Chip.startCopy_eq h]
  rfl

end

/-! ## The log of releases (R156) -/

theorem Chip.logRelease_field {α : Type} (c : Chip) (q : RelReq) (busy : Bool) (sof : Option Nat) (f : Chip → α)
    (hf : ∀ d r m o, f (Chip.noise d r m o) = f d) (hl : ∀ d l s, f { d with rlog := l, rlogSeq := s } = f d) :
    f (c.logRelease q busy sof) = f { c with rels := c.rels.erase q } := by
  have hraise : ∀ (d : Chip) b, f (d.raise pSTORY b) = f d := fun d b => d.raise_field b rfl f (hf d)
  unfold Chip.logRelease
  dsimp only
  split
  · exact (hraise ..).trans ((hl _ _ _).trans (hf _ _ _ _))
  · exact (hraise ..).trans ((hf _ _ _ _).trans (hf _ _ _ _))

/-! ## Requests (R153, R154) -/

theorem mem_insertRel (q : RelReq) (l : List RelReq) : q ∈ insertRel q l := by
  induction l with
  | nil => exact List.mem_singleton_self q
  | cons a l ih =>
    unfold insertRel
    split
    · exact List.mem_cons_self ..
    · exact List.mem_cons_of_mem _ ih

/-- A request that is in time and has room joins its queue (R153). -/
theorem Chip.release_taken (c : Chip) {q : RelReq} (execLate : Bool) (hmsg : q.msg = none) (hon : c.noRelease = false)
    (hfar : q.r ≤ c.localNs + 4000000000) (hroom : (c.relsOf q.target).length < relCapacity q.target) (htime : c.localNs ≤ q.r) :
    c.release q execLate = ((c.addRel q).perf 0x244 1, true) := by
  unfold Chip.release
  rw [hmsg]
  dsimp only
  rw [if_neg (by simp [hon]), if_neg (by omega), if_neg (by simp; omega), if_pos htime]
  rfl

theorem Chip.mem_rels_release (c : Chip) (q : RelReq) : q ∈ ((c.addRel q).perf 0x244 1).rels := by
  have hperf : ((c.addRel q).perf 0x244 1).rels = (c.addRel q).rels := (Loud.perf ..).field Chip.rels fun _ _ _ => rfl
  rw [hperf]
  exact mem_insertRel q c.rels

/-- The request of a copy with a launch time. -/
def Chip.launchOf (c : Chip) (n : Nat) (k : Copy) (l : Launch) : RelReq :=
  { target := n, r := c.effect l.e - c.leadNs l.lead, tag := l.tag, copy := some { k with launch := none } }

theorem Chip.launchRequest_taken (c : Chip) {n cls : Nat} {k : Copy} {l : Launch} (hs : isS n = true)
    (hnext : (c.queue (qIndex n cls)).next.find? (fun k => k.launch.isSome && k.present) = some k) (hlaunch : k.launch = some l)
    (hon : c.noRelease = false) (htime : c.localNs ≤ c.effect l.e - c.leadNs l.lead)
    (hfar : c.effect l.e - c.leadNs l.lead ≤ c.localNs + 4000000000) (hroom : (c.relsOf n).length < relCapacity n) :
    c.launchRequest n cls = ((c.takeCopy n k).addRel (c.launchOf n k l)).perf 0x244 1 := by
  have htake := fun {α : Type} (f : Chip → α) hb hq => c.takeCopy_field n k f hb hq
  have hreq : (c.takeCopy n k).launchOf n k l = c.launchOf n k l := htake (·.launchOf n k l) (fun _ => rfl) fun _ _ => rfl
  have hnow : (c.takeCopy n k).localNs = c.localNs := htake Chip.localNs (fun _ => rfl) fun _ _ => rfl
  have hrels : (c.takeCopy n k).relsOf n = c.relsOf n := htake (·.relsOf n) (fun _ => rfl) fun _ _ => rfl
  have hon' : (c.takeCopy n k).noRelease = false := (htake Chip.noRelease (fun _ => rfl) fun _ _ => rfl).trans hon
  have htaken := (c.takeCopy n k).release_taken (q := c.launchOf n k l) l.execLate rfl hon' (by rw [hnow]; exact hfar)
    (by rw [show (c.launchOf n k l).target = n from rfl, hrels]; exact hroom) (by rw [hnow]; exact htime)
  unfold Chip.launchRequest
  rw [if_pos hs, hnext]
  dsimp only
  rw [hlaunch]
  dsimp only
  rw [show ({ target := n, r := (c.takeCopy n k).effect l.e - (c.takeCopy n k).leadNs l.lead, tag := l.tag
              copy := some { k with launch := none } } : RelReq) = c.launchOf n k l from hreq, htaken]

/-! ## The start at the instant (R155) -/

theorem Chip.releaseStart_taken (c : Chip) {n : Nat} {q : RelReq} {k : Copy} (res : CanResult) (waited : Bool) (hs : isS n = true)
    (hdue : c.relDue n = some q) (hcopy : q.copy = some k) (hsafe : c.safeOf n = none) (hsends : c.sends n = true) (hidle : c.txOf n = none)
    (hopp : c.opportunity n = true) : c.releaseStart n res waited = c.startPick n (.timed q k) .good waited 0 := by
  have hpick : c.pick n = some (.timed q k) := by
    unfold Chip.pick
    rw [hsafe]
    dsimp only
    rw [if_pos hs, hdue]
    dsimp only
    rw [hcopy]
    rfl
  have hegress : c.egressStart n .good waited 0 = c.startPick n (.timed q k) .good waited 0 := by
    unfold Chip.egressStart
    rw [if_neg (not_not_intro hsends), hidle]
    dsimp only
    rw [if_neg (not_not_intro hopp), hpick]
  unfold Chip.releaseStart
  rw [if_pos hs, if_pos (by simp [hdue, hsafe]), hegress]

/-- Settles O11: the request joins its queue, and at its instant its copy starts. -/
theorem timedRelease : Obligations.TimedRelease := by
  intro s dt n cls k l q res waited c hs
  refine ⟨fun hnext hlaunch hon htime hfar hroom => .of_run rfl ?_, fun k' a hdue hcopy hsafe hsends hidle hopp hprep => .of_run rfl ?_⟩
  · rw [c.launchRequest_taken hs hnext hlaunch hon htime hfar hroom]
    exact ⟨c.launchOf n k l, Chip.mem_rels_release .., rfl, rfl, rfl, rfl⟩
  · have hepoch : a.portEpoch n = c.portEpoch n := by
      have hsteady := (Steady.refl c).prepare k true .good
      rw [hprep] at hsteady
      exact portEpoch_congr hsteady.xings n
    rw [c.releaseStart_taken res waited hs hdue hcopy hsafe hsends hidle hopp, Chip.startPick_timed _ _ hprep, ← hepoch]
    refine ⟨?_, ?_⟩
    · rw [txOf_congr (Chip.mediumNoted_field _ n waited 0 Chip.tx fun _ _ _ _ => rfl),
        txOf_congr (Chip.logRelease_field _ q waited _ Chip.tx (fun _ _ _ _ => rfl) fun _ _ _ => rfl)]
      exact a.txOf_inTransmission n k'
    · rw [Chip.mediumNoted_field _ n waited 0 Chip.rels fun _ _ _ _ => rfl,
        Chip.logRelease_field _ q waited _ Chip.rels (fun _ _ _ _ => rfl) fun _ _ _ => rfl]
      exact congrArg (List.erase · q) (a.inTransmission_field n k' Chip.rels (fun _ _ _ _ => rfl) (fun _ _ _ => rfl) (fun _ _ _ => rfl)
        fun _ _ _ => rfl)

end Sys2Proof.Machine

/-! Egress: starts, ends and gate drops at a port (R15, R94, R144, R145, R162, R418). -/

namespace Sys2Proof.Machine

open Sys2Proof

/-! ## No copy waits at a Tenon port -/

theorem Chip.retryT_none (c : Chip) (h : c.tWait = []) : c.retryT = c.settleCredit := by
  unfold Chip.retryT
  rw [h]
  rfl

/-- Settling credit changes what is owed, and says so. -/
theorem Chip.settleCredit_field {α : Type} (c : Chip) (f : Chip → α) (he : ∀ d o, f (Chip.emit d o) = f d)
    (ho : ∀ d l, f { d with tOwed := l } = f d) : f c.settleCredit = f c := by
  have hfold : ∀ (l : List CreditOwed) (d : Chip), f (l.foldl (fun d o => d.emit (.credit o.port o.cls o.bytes)) d) = f d := by
    intro l
    induction l with
    | nil => exact fun _ => rfl
    | cons o l ih => exact fun d => (ih _).trans (he d _)
  exact (hfold _ _).trans (ho c _)

theorem Said.settleCredit {o : Output} {d : Chip} (h : Said o d) : Said o d.settleCredit := by
  have hfold : ∀ (l : List CreditOwed) (e : Chip), Said o e → Said o (l.foldl (fun e x => e.emit (.credit x.port x.cls x.bytes)) e) := by
    intro l
    induction l with
    | nil => exact fun _ he => he
    | cons x l ih => exact fun e he => ih _ (he.emit _)
  exact hfold _ _ (h.same rfl)

/-! ## The pick starts (R144, R162) -/

section
variable (c : Chip) {n : Nat} (ecc : EccResult) (waited : Bool) (collisions : Nat)

theorem Chip.egressStart_pick {p : Pick} (hsends : c.sends n = true) (hidle : c.txOf n = none) (hopp : c.opportunity n = true)
    (hpick : c.pick n = some p) : c.egressStart n ecc waited collisions = c.startPick n p ecc waited collisions := by
  unfold Chip.egressStart
  rw [if_neg (not_not_intro hsends), hidle]
  dsimp only
  rw [if_neg (not_not_intro hopp), hpick]

/-- What a copy in transmission leaves, what a shared medium counts and what is owed apart. -/
theorem Chip.started_field {α : Type} (k : Copy) (f : Chip → α) (hf : ∀ d r m o, f (Chip.noise d r m o) = f d)
    (ht : ∀ d t x, f (Chip.setTenon d t x) = f d) (hp : ∀ d i x, f (Chip.setPortRt d i x) = f d) (hx : ∀ d i x, f (Chip.setTx d i x) = f d) :
    f ((c.inTransmission n k).mediumNoted n waited collisions) = f c :=
  (Chip.mediumNoted_field _ n waited collisions f hf).trans (c.inTransmission_field n k f hf ht hp hx)

theorem Chip.retryT_started {k : Copy} (h : c.tWait = []) :
    let d := (c.inTransmission n k).mediumNoted n waited collisions
    d.retryT.txOf n = some { k with xing := c.portEpoch n } ∧ d.retryT.safeFrames = c.safeFrames := by
  intro d
  have hwait : d.tWait = [] :=
    (c.started_field waited collisions k Chip.tWait (fun _ _ _ _ => rfl) (fun _ _ _ => rfl) (fun _ _ _ => rfl) fun _ _ _ => rfl).trans h
  rw [d.retryT_none hwait]
  refine ⟨?_, ?_⟩
  · rw [txOf_congr (d.settleCredit_field Chip.tx (fun _ _ => rfl) fun _ _ => rfl),
      txOf_congr (Chip.mediumNoted_field _ n waited collisions Chip.tx fun _ _ _ _ => rfl), c.txOf_inTransmission n k]
  · rw [d.settleCredit_field Chip.safeFrames (fun _ _ => rfl) fun _ _ => rfl]
    exact c.started_field waited collisions k Chip.safeFrames (fun _ _ _ _ => rfl) (fun _ _ _ => rfl) (fun _ _ _ => rfl) fun _ _ _ => rfl

/-! ### A safe frame (R162) -/

/-- A safe frame passes no judgement: where no secure channel takes it, it goes as it is. -/
theorem Chip.prepare_safe (f : SafeFrame) (ring : Nat) (timed : Bool) (hsecy : c.secyAt f.port = none) :
    ∃ k, c.prepare (f.copy ring) timed ecc = (c, some k) ∧ (k.bytes, k.safe, k.egress) = (f.bytes, true, f.port) := by
  have hlookup : c.egressLookup (f.copy ring) = (c, { pass := true }) := rfl
  have howe : ∀ rules, c.owe (f.copy ring) rules = c := fun _ => rfl
  have hmac : ∀ etype, c.macTake f.port etype = (c, some none) := fun etype => by
    unfold Chip.macTake
    rw [hsecy]
  have hprep : ∃ e m, c.prepare (f.copy ring) timed ecc = (c, some { f.copy ring with going := e, mark := m }) := by
    unfold Chip.prepare
    rw [if_pos (show ((f.copy ring).safe || (f.copy ring).send) = true from rfl)]
    dsimp only
    rw [if_neg (by simp [Copy.tagOversize, SafeFrame.copy]), hlookup]
    dsimp only
    rw [if_neg (by simp), howe, show (f.copy ring).egress = f.port from rfl, hmac]
    exact ⟨_, _, rfl⟩
  obtain ⟨e, m, hprep⟩ := hprep
  exact ⟨_, hprep, rfl⟩

theorem Chip.egressStart_safe {f : SafeFrame} (hsends : c.sends n = true) (hidle : c.txOf n = none) (hopp : c.opportunity n = true)
    (hsafe : c.safeOf n = some f) (hsecy : c.secyAt n = none) (hport : f.port = n) :
    ∃ k, (k.bytes, k.safe, k.egress) = (f.bytes, true, n) ∧ c.egressStart n ecc waited collisions
      = (({ c with safeFrames := c.safeFrames.erase f } : Chip).inTransmission n k).mediumNoted n waited collisions := by
  have hpick : c.pick n = some (.safe f) := by
    unfold Chip.pick
    rw [hsafe]
  obtain ⟨k, hprep, hk⟩ := ({ c with safeFrames := c.safeFrames.erase f } : Chip).prepare_safe .good f c.ringId false (by rw [hport]; exact hsecy)
  refine ⟨k, hport ▸ hk, ?_⟩
  rw [c.egressStart_pick ecc waited collisions hsends hidle hopp hpick]
  unfold Chip.startPick
  dsimp only
  rw [Chip.startCopy_eq hprep]
  rfl

end

/-! ## The end of a frame (R418) -/

theorem Chip.cntAt_count_slot (c : Chip) (p : Page) {i j : Nat} (h : i ≠ j) : (c.count p j).cntAt (cntKey p i) = c.cntAt (cntKey p i) :=
  c.cntAt_addCnt_slot p 1 h

theorem Chip.cntAt_countIf_slot (c : Chip) (p : Page) (b : Bool) {i j : Nat} (h : i ≠ j) :
    (if b then c.count p j else c).cntAt (cntKey p i) = c.cntAt (cntKey p i) := by
  split
  · exact c.cntAt_count_slot p h
  · rfl

section
variable (c : Chip) (n : Nat) (k : Copy) (e : Edit) (bs : List Byte)

theorem Chip.calm_txStats : Calm c (c.txStats n k e bs) := by
  have hone : ∀ (d : Chip) (b : Bool) i, Calm d (if b then d.count (pPORT n) i else d) := fun d b i => by
    split
    · exact Calm.count ..
    · exact Calm.refl d
  unfold Chip.txStats
  dsimp only
  exact (((Calm.addCnt ..).trans (Calm.count ..)).trans ((Calm.count ..).trans (hone ..))).trans
    (((Calm.count ..).trans (Calm.addCnt ..)).trans ((((((hone ..).trans (hone ..)).trans (hone ..)).trans (hone ..)).trans (hone ..)).trans (hone ..)))

/-- Of the counters below those of transmission, `txStats` counts at most the fragments. -/
theorem Chip.cntAt_txStats_low {i : Nat} (hi : i < 20) : (c.txStats n k e bs).cntAt (cntKey (pPORT n) i) = c.cntAt (cntKey (pPORT n) i) := by
  unfold Chip.txStats
  dsimp only [K.PORT_TX_OCTETS, K.PORT_TX_FRAMES, K.PORT_TX_UNICAST, K.PORT_TX_BINS, K.PORT_TX_CLASS, K.PORT_TX_CLASS_OCTETS, K.PORT_TX_TAGGED,
    K.PORT_TX_CUT_THROUGH, K.PORT_TX_PREEMPTED, K.PORT_PREEMPT_FRAG_TX, K.PORT_TX_SAFE, K.PORT_TX_TIMED]
  simp (disch := omega) only [Chip.cntAt_countIf_slot, Chip.cntAt_count_slot, Chip.cntAt_addCnt_slot]

theorem Chip.cntAt_txStats_frames :
    (c.txStats n k e bs).cntAt (cntKey (pPORT n) K.PORT_TX_FRAMES) = c.cntAt (cntKey (pPORT n) K.PORT_TX_FRAMES) + 1 := by
  unfold Chip.txStats
  dsimp only [K.PORT_TX_OCTETS, K.PORT_TX_FRAMES, K.PORT_TX_UNICAST, K.PORT_TX_BINS, K.PORT_TX_CLASS, K.PORT_TX_CLASS_OCTETS, K.PORT_TX_TAGGED,
    K.PORT_TX_CUT_THROUGH, K.PORT_TX_PREEMPTED, K.PORT_PREEMPT_FRAG_TX, K.PORT_TX_SAFE, K.PORT_TX_TIMED]
  simp (disch := omega) only [Chip.cntAt_countIf_slot, Chip.cntAt_count_slot, Chip.cntAt_addCnt_slot, Chip.cntAt_count_same]

/-- The chip with a frame sent, counted and its end reported. -/
def Chip.sentNoted : Chip :=
  let d := (c.txStats n k e bs).emit (.frame n bs (!k.bad))
  let d := if k.bad then d.count (pPORT n) K.PORT_STOMPED else d
  if k.safe then d.count pCINCH K.CINCH_SAFE_SENT else d

theorem Chip.calm_sentNoted : Calm c (c.sentNoted n k e bs) := by
  have hsent : Calm c ((c.txStats n k e bs).emit (.frame n bs (!k.bad))) := (c.calm_txStats n k e bs).trans (Calm.emit ..)
  unfold Chip.sentNoted
  dsimp only
  split_ifs
  · exact (hsent.trans (Calm.count ..)).trans (Calm.count ..)
  · exact hsent.trans (Calm.count ..)
  · exact hsent.trans (Calm.count ..)
  · exact hsent

theorem Chip.said_sentNoted : Said (.frame n bs (!k.bad)) (c.sentNoted n k e bs) := by
  have hsent : Said (.frame n bs (!k.bad)) ((c.txStats n k e bs).emit (.frame n bs (!k.bad))) :=
    List.mem_append_right _ (List.mem_singleton_self _)
  exact (hsent.when fun h => h.count ..).when fun h => h.count ..

/-- A count of the port after a frame is sent. -/
theorem Chip.cntAt_sentNoted (i : Nat) : (c.sentNoted n k e bs).cntAt (cntKey (pPORT n) i)
    = (if k.bad then (c.txStats n k e bs).count (pPORT n) K.PORT_STOMPED else c.txStats n k e bs).cntAt (cntKey (pPORT n) i) := by
  have hkey : cntKey (pPORT n) i ≠ cntKey pCINCH K.CINCH_SAFE_SENT := by
    have hport : cntKey (pPORT n) i = (30 + n) * 1024 + i := rfl
    have hcinch : cntKey pCINCH K.CINCH_SAFE_SENT < 30 * 1024 := by decide
    omega
  unfold Chip.sentNoted
  dsimp only
  split_ifs
  · exact Chip.cntAt_addCnt_other _ _ _ _ hkey
  · exact Chip.cntAt_addCnt_other _ _ _ _ hkey
  · rfl
  · rfl

theorem Chip.cntAt_sentNoted_frames :
    (c.sentNoted n k e bs).cntAt (cntKey (pPORT n) K.PORT_TX_FRAMES) = c.cntAt (cntKey (pPORT n) K.PORT_TX_FRAMES) + 1 := by
  rw [Chip.cntAt_sentNoted, Chip.cntAt_countIf_slot _ _ _ (by decide), Chip.cntAt_txStats_frames]

theorem Chip.cntAt_sentNoted_stomped (hbad : k.bad = true) :
    (c.sentNoted n k e bs).cntAt (cntKey (pPORT n) K.PORT_STOMPED) = c.cntAt (cntKey (pPORT n) K.PORT_STOMPED) + 1 := by
  rw [Chip.cntAt_sentNoted, if_pos hbad, Chip.cntAt_count_same, Chip.cntAt_txStats_low _ _ _ _ _ (by decide)]

/-- The chip with the port idle. -/
def Chip.portIdle : Chip := (c.setTx n none).plcaSent n

theorem Chip.portIdle_field {α : Type} (f : Chip → α) (hp : ∀ d i x, f (Chip.setPortRt d i x) = f d) : f (c.portIdle n) = f (c.setTx n none) := by
  unfold Chip.portIdle Chip.plcaSent
  split
  · exact hp ..
  · rfl

theorem Chip.txOf_portIdle : (c.portIdle n).txOf n = none := by
  rw [txOf_congr (c.portIdle_field n Chip.tx fun _ _ _ => rfl)]
  exact lookupD_store_same (none : Option Copy) _ n none

variable {c} {n} {k}

theorem Chip.egressEnd_wire (ecc : EccResult) (hwire : isWire n = true) (htx : c.txOf n = some k) (hrx : k.rx = none)
    (hcut : (k.going.getD {}).cut = false) :
    let r := (c.portIdle n).eccSent k ecc
    c.egressEnd n ecc = r.1.sentNoted n r.2 (k.going.getD {}) (k.sent (k.going.getD {})) := by
  have hn : n < 28 := of_decide_eq_true hwire
  have ht : isT n = false := decide_eq_false (by omega)
  have hcredit : ∀ (d : Chip) back size, d.takeCredit n k back size = d := fun d back size => by
    unfold Chip.takeCredit
    rw [ht]
    rfl
  have hsettle : ∀ (d : Chip) j, d.settleCut j (k.going.getD {}) = (d, j) := fun d j => by
    unfold Chip.settleCut
    rw [hcut]
    exact if_neg (by simp)
  intro r
  unfold Chip.egressEnd
  rw [htx]
  dsimp only
  rw [if_neg (by simp [hrx]), hcredit, show (c.setTx n none).plcaSent n = c.portIdle n from rfl, hsettle, if_neg (by omega), ht]
  simp only [Bool.and_false, Bool.false_eq_true, if_false]
  rfl

/-- What stands once no copy waits to be let in again. -/
theorem Chip.retryT_sent (d : Chip) (j : Copy) (e : Edit) (bs : List Byte) (hwait : d.tWait = []) (hidle : d.txOf n = none) :
    let x := d.sentNoted n j e bs
    x.retryT.txOf n = none ∧ .frame n bs (!j.bad) ∈ x.retryT.outs ∧ (∀ i, x.retryT.cntAt i = x.cntAt i) ∧ x.retryT.regs = x.regs := by
  intro x
  have hcalm := (d.calm_sentNoted n j e bs).loud
  rw [x.retryT_none ((hcalm.field Chip.tWait fun _ _ _ => rfl).trans hwait)]
  refine ⟨?_, (d.said_sentNoted n j e bs).settleCredit, fun i => x.settleCredit_field (·.cntAt i) (fun _ _ => rfl) fun _ _ => rfl,
    x.settleCredit_field Chip.regs (fun _ _ => rfl) fun _ _ => rfl⟩
  rw [txOf_congr (x.settleCredit_field Chip.tx (fun _ _ => rfl) fun _ _ => rfl), txOf_congr (hcalm.field Chip.tx fun _ _ _ => rfl), hidle]

theorem Chip.eccSent_good (d : Chip) (j : Copy) : d.eccSent j .good = (d, j) := by
  unfold Chip.eccSent
  split
  · rfl
  · rfl

/-- The chip with an uncorrectable error in a sent frame's cells reported (R94). -/
def Chip.eccNoted (d : Chip) (j : Copy) : Chip := (d.raise pBUF E.BUF_ECC_UNCORR).portCount j.ingress K.PORT_RX_ERR

theorem Chip.eccSent_uncorrectable (d : Chip) {j : Copy} (hsafe : j.safe = false) (hsend : j.send = false) :
    d.eccSent j .uncorrectable = (d.eccNoted j, { j with bad := true }) := by
  unfold Chip.eccSent
  rw [if_neg (by simp [hsafe, hsend])]
  rfl

theorem Chip.portCount_field {α : Type} (d : Chip) (i m : Nat) (f : Chip → α) (hf : ∀ d r m o, f (Chip.noise d r m o) = f d) :
    f (d.portCount i m) = f d := by
  unfold Chip.portCount
  split
  · exact hf _ _ _ _
  · rfl

theorem Chip.eccNoted_field {α : Type} (d : Chip) (j : Copy) (f : Chip → α) (hf : ∀ d r m o, f (Chip.noise d r m o) = f d) :
    f (d.eccNoted j) = f d := (Chip.portCount_field _ _ _ f hf).trans (d.raise_field _ rfl f (hf d))

theorem Chip.latched_eccNoted (d : Chip) (j : Copy) : (d.eccNoted j).latched pBUF E.BUF_ECC_UNCORR = true := by
  have hregs : (d.eccNoted j).regs = (d.raise pBUF E.BUF_ECC_UNCORR).regs := by
    unfold Chip.eccNoted Chip.portCount
    split
    · rfl
    · rfl
  rw [Chip.latched, reg_congr hregs]
  exact Chip.latched_raise _ rfl (by decide)

theorem Chip.stomped_eccNoted (d : Chip) (j : Copy) (hn : n < 28) :
    (d.eccNoted j).cntAt (cntKey (pPORT n) K.PORT_STOMPED) = d.cntAt (cntKey (pPORT n) K.PORT_STOMPED) := by
  have hkey : cntKey (pPORT n) K.PORT_STOMPED = (30 + n) * 1024 + 6 := rfl
  have hingress : cntKey (pPORT j.ingress) K.PORT_RX_ERR = (30 + j.ingress) * 1024 + 0 := rfl
  have huncounted : uncounted (cntKey (pPORT n) K.PORT_STOMPED) = true := by
    have hhost : cntKey pHOST K.HOST_MSIX_SENT = 119 * 1024 + K.HOST_MSIX_SENT := rfl
    have hperf : pageIdx pPERF = 10 := rfl
    rw [uncounted, decide_eq_true_eq]
    omega
  unfold Chip.eccNoted Chip.portCount
  split
  · exact (Chip.cntAt_addCnt_other _ _ _ _ (by omega)).trans (Chip.cntAt_raise_uncounted _ huncounted _ _)
  · exact Chip.cntAt_raise_uncounted _ huncounted _ _

end

/-! ## The gate's deadline (R145) -/

/-- The chip with a head copy discarded at its deadline. -/
def Chip.deadlineDropped (c : Chip) (n i : Nat) (k : Copy) : Chip :=
  (((c.takeCopy n k).tcount pSTORY 3 i lsDeadlineDrop).count pSTORY K.STORY_GATE_DEADLINE_DROP).raise pSTORY E.STORY_GATE_DEADLINE

theorem Chip.deadlineDropped_field {α : Type} (c : Chip) (n i : Nat) (k : Copy) (f : Chip → α)
    (hf : ∀ d r m o, f (Chip.noise d r m o) = f d) : f (c.deadlineDropped n i k) = f (c.takeCopy n k) :=
  (Chip.raise_field _ _ rfl f (hf _)).trans ((hf _ _ _ _).trans (hf _ _ _ _))

theorem Chip.gateExpire_due {c : Chip} {n cls i limit t : Nat} {k : Copy} (hn : n < 32) (hcls : cls < 8) (hgate : c.gateDeadline n = some (i, limit))
    (hhead : c.headOf n cls = some k) (hstood : k.head = some t) (hdue : t + limit ≤ c.cycles) (hmirror : k.mirror = false) (hone : k.multi = false) :
    c.gateExpire n cls = c.deadlineDropped n i k := by
  unfold Chip.gateExpire
  rw [hgate, hhead]
  dsimp only
  rw [hstood]
  dsimp only
  rw [if_pos ⟨hdue, by simp [hmirror], hn, hcls⟩]
  unfold Chip.refuseCopy
  rw [if_neg (by simp [hone])]
  rfl

theorem Chip.cntAt_deadlineDropped (c : Chip) (n i : Nat) (k : Copy) :
    (c.deadlineDropped n i k).cntAt (cntKey pSTORY K.STORY_GATE_DEADLINE_DROP) = c.cntAt (cntKey pSTORY K.STORY_GATE_DEADLINE_DROP) + 1 := by
  have hentry : cntKey pSTORY K.STORY_GATE_DEADLINE_DROP ≠ tblCntKey pSTORY 3 i lsDeadlineDrop := by
    have hsmall : cntKey pSTORY K.STORY_GATE_DEADLINE_DROP < 2 ^ 40 := by decide
    unfold tblCntKey
    omega
  have htable : ((c.takeCopy n k).tcount pSTORY 3 i lsDeadlineDrop).cntAt (cntKey pSTORY K.STORY_GATE_DEADLINE_DROP)
      = (c.takeCopy n k).cntAt (cntKey pSTORY K.STORY_GATE_DEADLINE_DROP) := Chip.cntAt_setCntAt_other _ _ hentry
  rw [Chip.deadlineDropped, Chip.cntAt_raise_uncounted _ (by decide), Chip.cntAt_count_same, htable,
    c.takeCopy_field n k (·.cntAt (cntKey pSTORY K.STORY_GATE_DEADLINE_DROP)) (fun _ => rfl) fun _ _ => rfl]

/-- Settles O10: the pick in transmission, the frame sent, the head copy dropped. -/
theorem egressTransmission : Obligations.EgressTransmission := by
  refine ⟨fun s dt n collisions ecc waited => ?_, fun s dt n k => ?_, fun s dt n cls i limit t k => ?_⟩
  · intro c hsends hidle hopp
    refine ⟨fun k k' a hpick hprep hwait => .of_run rfl ?_, fun f hsafe hsecy hport hwait => .of_run rfl ?_⟩
    · have hsteady := (Steady.refl (c.takeCopy n k)).prepare k false ecc
      rw [hprep] at hsteady
      have hxings : a.xings = c.xings := hsteady.xings.trans (c.takeCopy_field n k Chip.xings (fun _ => rfl) fun _ _ => rfl)
      rw [c.egressStart_pick ecc waited collisions hsends hidle hopp hpick, Chip.startPick_copy waited collisions hprep, ← portEpoch_congr hxings]
      exact (a.retryT_started waited collisions hwait).1
    · obtain ⟨k, hk, hstart⟩ := c.egressStart_safe ecc waited collisions hsends hidle hopp hsafe hsecy hport
      obtain ⟨htx, hframes⟩ := ({ c with safeFrames := c.safeFrames.erase f } : Chip).retryT_started (n := n) waited collisions (k := k) hwait
      rw [hstart, htx]
      exact ⟨hframes, congrArg some hk⟩
  · intro c cnt bs hwire htx hrx hcls hcut hwait
    have hidle := c.txOf_portIdle n
    have hwait' : (c.portIdle n).tWait = [] := (c.portIdle_field n Chip.tWait fun _ _ _ => rfl).trans hwait
    have hcount : ∀ i, (c.portIdle n).cntAt i = c.cntAt i := fun i => c.portIdle_field n (·.cntAt i) fun _ _ _ => rfl
    refine ⟨.of_run rfl ?_, fun hsafe hsend => .of_run rfl ?_⟩
    · obtain ⟨htx', hout, hcnt, -⟩ := (c.portIdle n).retryT_sent k (k.going.getD {}) bs hwait' hidle
      rw [Chip.egressEnd_wire .good hwire htx hrx hcut, Chip.eccSent_good]
      exact ⟨htx', hout, (hcnt _).trans ((Chip.cntAt_sentNoted_frames ..).trans (congrArg (· + 1) (hcount _)))⟩
    · have hfield := fun {α : Type} (f : Chip → α) hf => (c.portIdle n).eccNoted_field k f hf
      obtain ⟨htx', hout, hcnt, hregs⟩ := ((c.portIdle n).eccNoted k).retryT_sent { k with bad := true } (k.going.getD {}) bs
        ((hfield Chip.tWait fun _ _ _ _ => rfl).trans hwait') ((txOf_congr (hfield Chip.tx fun _ _ _ _ => rfl) n).trans hidle)
      rw [Chip.egressEnd_wire .uncorrectable hwire htx hrx hcut, Chip.eccSent_uncorrectable _ hsafe hsend]
      refine ⟨htx', hout, (hcnt _).trans ((Chip.cntAt_sentNoted_stomped _ _ _ _ _ rfl).trans (congrArg (· + 1) ?_)), ?_⟩
      · exact (Chip.stomped_eccNoted _ _ (of_decide_eq_true hwire)).trans (hcount _)
      · rw [Chip.latched, reg_congr hregs, (Chip.calm_sentNoted ..).regs pBUF 0x018 rfl (by decide) rfl]
        exact (c.portIdle n).latched_eccNoted k
  · intro c hn hcls hgate hhead hstood hdue hmirror hone hwait
    refine .of_run rfl ?_
    have htwait : (c.deadlineDropped n i k).tWait = [] :=
      (c.deadlineDropped_field n i k Chip.tWait fun _ _ _ _ => rfl).trans ((c.takeCopy_field n k Chip.tWait (fun _ => rfl) fun _ _ => rfl).trans hwait)
    have hsettle := fun {α : Type} (f : Chip → α) => (c.deadlineDropped n i k).settleCredit_field f
    rw [Chip.gateExpire_due hn hcls hgate hhead hstood hdue hmirror hone, Chip.retryT_none _ htwait]
    refine ⟨?_, ?_, (hsettle Chip.queues (fun _ _ => rfl) fun _ _ => rfl).trans (c.deadlineDropped_field n i k Chip.queues fun _ _ _ _ => rfl)⟩
    · rw [hsettle (·.latched pSTORY E.STORY_GATE_DEADLINE) (fun _ _ => rfl) fun _ _ => rfl]
      exact Chip.latched_raise _ rfl (by decide)
    · rw [hsettle (·.cntAt (cntKey pSTORY K.STORY_GATE_DEADLINE_DROP)) (fun _ _ => rfl) fun _ _ => rfl]
      exact c.cntAt_deadlineDropped n i k

end Sys2Proof.Machine

/-! Seamless redundancy: timers, commands and latent errors (R174, R180, R182, R185). -/

namespace Sys2Proof.Machine

open Sys2Proof

/-! ## Compound streams and members under the shared operations -/

@[simp] theorem Chip.comp_setComp_same (c : Chip) (i : Nat) (x : CompRt) : (c.setComp i x).comp i = x := lookupD_store_same ..

theorem Chip.comp_setComp_other (c : Chip) {i j : Nat} (x : CompRt) (h : j ≠ i) : (c.setComp i x).comp j = c.comp j :=
  lookupD_store_other _ _ _ x h

@[simp] theorem Chip.member_setMember_same (c : Chip) (m : Nat) (x : MemRt) : (c.setMember m x).member m = x := lookupD_store_same ..

theorem Chip.member_setMember_other (c : Chip) {m j : Nat} (x : MemRt) (h : j ≠ m) : (c.setMember m x).member j = c.member j :=
  lookupD_store_other _ _ _ x h

@[simp] theorem Chip.comp_tcount (c : Chip) (p : Page) (t k slot i : Nat) : (c.tcount p t k slot).comp i = c.comp i := rfl
@[simp] theorem Chip.comp_count (c : Chip) (p : Page) (k i : Nat) : (c.count p k).comp i = c.comp i := rfl
@[simp] theorem Chip.member_tcount (c : Chip) (p : Page) (t k slot m : Nat) : (c.tcount p t k slot).member m = c.member m := rfl
@[simp] theorem Chip.member_count (c : Chip) (p : Page) (k m : Nat) : (c.count p k).member m = c.member m := rfl

@[simp] theorem Chip.comp_raise (c : Chip) (p : Page) (b i : Nat) : (c.raise p b).comp i = c.comp i := by
  rw [Chip.comp, Chip.comps_raise, Chip.comp]

@[simp] theorem Chip.member_raise (c : Chip) (p : Page) (b m : Nat) : (c.raise p b).member m = c.member m := by
  rw [Chip.member, Chip.members_raise, Chip.member]

@[simp] theorem Chip.comp_sequenced (c : Chip) (req : Requester) (i : Nat) : (c.sequenced req).comp i = c.comp i := by
  rw [Chip.comp, Chip.comps_sequenced, Chip.comp]

/-- A counter in a table entry is none of a page's counters, whose keys lie below all of theirs. -/
theorem Chip.cntAt_tcount_page (c : Chip) (p : Page) (t index slot : Nat) {k : Nat} (hk : k < 2 ^ 40) :
    (c.tcount p t index slot).cntAt k = c.cntAt k := by
  have hne : k ≠ tblCntKey p t index slot := by
    unfold tblCntKey
    omega
  exact Chip.cntAt_setCntAt_other _ _ hne

/-! ## Recovery takes any number (R174) -/

section
variable (c : Chip) (i : Nat)

theorem Chip.comp_takeAny_same : (c.takeAny i).comp i = { c.comp i with recov := { (c.comp i).recov with takeAny := true, timer := none } } := by
  simp [Chip.takeAny]

theorem Chip.comp_takeAny_other {j : Nat} (h : j ≠ i) : (c.takeAny i).comp j = c.comp j := by
  simp [Chip.takeAny, Chip.comp_setComp_other _ _ h]

theorem Chip.latched_takeAny : (c.takeAny i).latched pFRER E.FRER_RECOV_RESET = true := Chip.latched_raise _ rfl (by decide)

/-- Recovery starts anew: it takes any number, which is reported, and no other stream changes. -/
theorem Chip.takeAny_shown : let d := c.takeAny i
    (d.comp i).recov.takeAny = true ∧ d.latched pFRER E.FRER_RECOV_RESET = true ∧ ∀ j, j ≠ i → d.comp j = c.comp j :=
  ⟨congrArg (·.recov.takeAny) (c.comp_takeAny_same i), c.latched_takeAny i, fun _ hj => c.comp_takeAny_other i hj⟩

theorem Chip.recovReset_due {t : Nat} (hready : c.ready pFRER = true) (hvalid : c.tis pFRER 0 i fCpValid = true)
    (helim : c.tis pFRER 0 i fCpElim = true) (htimer : (c.comp i).recov.timer = some t) (hdue : t + c.resetLimit i ≤ c.cycles) :
    c.recovReset i = c.takeAny i := by
  unfold Chip.recovReset
  rw [htimer]
  exact if_pos ⟨hready, hvalid, helim, hdue⟩

end

/-! ## FRER_CMD (R185) -/

/-- The word that names stream `i` with bit `b` alone set over its index. -/
def frerWord (i b : Nat) : Word := BitVec.ofNat 32 (i % 1024 + 2 ^ b)

section
variable (c : Chip) {i : Nat} (hi : i < 1024)
include hi

theorem toNat_frerWord {b : Nat} (hb : b < 31) : (frerWord i b).toNat = 2 ^ b + i := by
  have hpow : 2 ^ b < 2 ^ 31 := Nat.pow_lt_pow_right (by decide) hb
  rw [frerWord, BitVec.toNat_ofNat, Nat.mod_eq_of_lt hi, Nat.mod_eq_of_lt (by omega), Nat.add_comm]

/-- Over the index the word has the one bit. -/
theorem testBit_frerWord {b k : Nat} (hb : b < 31) (hbi : 10 ≤ b) (hk : 10 ≤ k) : (frerWord i b).toNat.testBit k = decide (b = k) := by
  have hlow : ∀ n, 10 ≤ n → i < 2 ^ n := fun n hn => hi.trans_le (Nat.pow_le_pow_right Nat.two_pos hn)
  have hor : 2 ^ b + i = 2 ^ b ||| i := by simpa using Nat.two_pow_add_eq_or_of_lt (hlow b hbi) 1
  rw [toNat_frerWord hi hb, hor, Nat.testBit_or, Nat.testBit_two_pow, Nat.testBit_lt_two_pow (hlow k hk), Bool.or_false]

theorem bitsAt_frerWord {b : Nat} (hb : b < 31) (hbi : 10 ≤ b) : bitsAt (frerWord i b) 0 10 = i := by
  have hindex : 2 ^ b % 2 ^ 10 = 0 := Nat.mod_eq_zero_of_dvd (pow_dvd_pow 2 hbi)
  rw [bitsAt, Nat.shiftRight_zero, toNat_frerWord hi hb]
  omega

theorem Chip.frerCmd_frerWord {b : Nat} (hb : b < 31) (hbi : 10 ≤ b) : c.frerCmd (frerWord i b) =
    let d := if b = 16 then c.takeAny i else c
    if b = 17 then d.setComp i { d.comp i with gen := 0 } else d := by
  unfold Chip.frerCmd
  simp only [testBit_frerWord hi hb hbi, bitsAt_frerWord hi hb hbi, Nat.reduceLeDiff, decide_eq_true_eq]

theorem Chip.frerCmd_resetRecov : c.frerCmd (frerWord i 16) = c.takeAny i := c.frerCmd_frerWord hi (by decide) (by decide)

theorem Chip.frerCmd_resetGen : c.frerCmd (frerWord i 17) = c.setComp i { c.comp i with gen := 0 } :=
  c.frerCmd_frerWord hi (by decide) (by decide)

end

/-! ## Members (R180) -/

section
variable (c : Chip) (m cause : Nat)

theorem Chip.member_failMember_same :
    (c.failMember m cause).member m = { c.member m with state := mFailed, cause := cause, entered := c.cycles } := by
  unfold Chip.failMember
  dsimp only
  split <;> simp

theorem Chip.member_failMember_other {j : Nat} (h : j ≠ m) : (c.failMember m cause).member j = c.member j := by
  unfold Chip.failMember
  dsimp only
  split <;> simp [Chip.member_setMember_other _ _ h]

theorem Chip.latched_failMember (h : (c.member m).state ≠ mProbation) : (c.failMember m cause).latched pFRER E.FRER_MEMBER_FAIL = true := by
  unfold Chip.failMember
  dsimp only
  rw [if_neg h]
  exact Chip.latched_raise _ rfl (by decide)

theorem Chip.memberSilent_due (hready : c.ready pFRER = true) (hvalid : c.tis pFRER 1 m fMbValid = true) (hstate : (c.member m).state ≠ mFailed)
    (hdue : (c.member m).lastGood + msCycles (c.tget pFRER 1 m fMbSilent) ≤ c.cycles) : c.memberSilent m = c.failMember m 1 :=
  if_pos ⟨hready, hvalid, hstate, hdue⟩

theorem Chip.memberReturn_due (hready : c.ready pFRER = true) (hvalid : c.tis pFRER 1 m fMbValid = true)
    (hstate : (c.member m).state = mProbation) (hdue : (c.member m).entered + msCycles (c.tget pFRER 1 m fMbHoldoff) ≤ c.cycles)
    (hheard : c.cycles < (c.member m).lastGood + msCycles (c.tget pFRER 1 m fMbSilent)) :
    c.memberReturn m = (c.setMember m { c.member m with state := mActive, cause := 0, entered := c.cycles }).raise pFRER E.FRER_MEMBER_RETURN :=
  if_pos ⟨hready, hvalid, hstate, hdue, hheard⟩

end

/-! ## Latent errors (R182) -/

/-- How far the discarded copies are from those that the expected paths should have brought. -/
def Chip.latentDiff (c : Chip) (i : Nat) : Nat :=
  (((c.comp i).latPassed : Int) * ((c.tget pFRER 0 i fCpLatPaths : Int) - 1) - (c.comp i).latDiscarded).natAbs

/-- A latent error counted in its stream and on the page, and reported. -/
def Chip.latentNoted (c : Chip) (i : Nat) : Chip :=
  ((c.tcount pFRER 2 i csLatentErr).count pFRER K.FRER_LATENT_ERR).raise pFRER E.FRER_LATENT_ERR

section
variable (c : Chip) (i : Nat) (hready : c.ready pFRER = true) (hvalid : c.tis pFRER 0 i fCpValid = true) (hon : c.tis pFRER 0 i fCpLatEn = true)

theorem Chip.latched_latentNoted : (c.latentNoted i).latched pFRER E.FRER_LATENT_ERR = true := Chip.latched_raise _ rfl (by decide)

@[simp] theorem Chip.comp_latentNoted (j : Nat) : (c.latentNoted i).comp j = c.comp j := by
  simp [Chip.latentNoted]

theorem Chip.cntAt_latentNoted :
    (c.latentNoted i).cntAt (cntKey pFRER K.FRER_LATENT_ERR) = c.cntAt (cntKey pFRER K.FRER_LATENT_ERR) + 1 := by
  rw [Chip.latentNoted, Chip.cntAt_raise_uncounted _ (by decide), Chip.cntAt_count_same, Chip.cntAt_tcount_page _ _ _ _ _ (by decide)]

include hready hvalid hon

theorem Chip.latentTest_error (hdue : (c.comp i).latAt + msCycles (c.tget pFRER 0 i fCpLatPeriod) ≤ c.cycles)
    (hdiff : c.tget pFRER 0 i fCpLatDiff < c.latentDiff i) :
    c.latentTest i
      = (c.setComp i { c.comp i with latAt := nextDue c.cycles (c.comp i).latAt (msCycles (c.tget pFRER 0 i fCpLatPeriod)) }).latentNoted i := by
  unfold Chip.latentTest
  dsimp only
  rw [if_pos ⟨hready, hvalid, hon, hdue⟩]
  exact if_pos hdiff

theorem Chip.latentReset_due (hdue : (c.comp i).latResetAt + secCycles (c.tget pFRER 0 i fCpLatReset) ≤ c.cycles) :
    c.latentReset i = c.setComp i { c.comp i with
      latPassed := 0, latDiscarded := 0, latResetAt := nextDue c.cycles (c.comp i).latResetAt (secCycles (c.tget pFRER 0 i fCpLatReset)) } :=
  if_pos ⟨hready, hvalid, hon, hdue⟩

end

/-- Settles O21: each timer that is due and each command does what the lemmas above say of its operation. -/
theorem redundancyTimers : Obligations.RedundancyTimers := by
  intro s dt i t req c x m ms anew differ
  refine ⟨fun hready hvalid helim htimer hdue => .of_run rfl ?recovReset, fun htakes hi => ⟨.of_run rfl ?resetRecov, .of_run rfl ?resetGen⟩,
    fun hready hvalid hstate hdue => .of_run rfl ?silent, fun hready hvalid hstate hdue hheard => .of_run rfl ?returns,
    fun hready hvalid hon => ⟨fun hdue hdiff => .of_run rfl ?latentErr, fun hdue => .of_run rfl ?latentReset⟩, fun htakes => .of_run rfl ?holdClr⟩
  case recovReset =>
    rw [c.recovReset_due i hready hvalid helim htimer hdue]
    exact c.takeAny_shown i
  case resetRecov =>
    rw [Chip.frerCmdWrite, c.command_ok htakes rfl, ← frerWord, Chip.frerCmd_resetRecov _ hi]
    obtain ⟨htaken, hlatched, hothers⟩ := (c.sequenced req).takeAny_shown i
    exact ⟨htaken, hlatched, fun j hj => (hothers j hj).trans (c.comp_sequenced req j)⟩
  case resetGen =>
    rw [Chip.frerCmdWrite, c.command_ok htakes rfl, ← frerWord, Chip.frerCmd_resetGen _ hi, Chip.comp_setComp_same, Chip.comp_sequenced]
    exact ⟨rfl, rfl⟩
  case silent =>
    rw [c.memberSilent_due i hready hvalid hstate hdue, c.member_failMember_same]
    exact ⟨rfl, rfl, c.latched_failMember i 1, fun j hj => c.member_failMember_other i 1 hj⟩
  case returns =>
    rw [c.memberReturn_due i hready hvalid hstate hdue hheard, Chip.member_raise, Chip.member_setMember_same]
    exact ⟨rfl, Chip.latched_raise _ rfl (by decide), fun j hj => (Chip.member_raise ..).trans (c.member_setMember_other _ hj)⟩
  case latentErr =>
    rw [c.latentTest_error i hready hvalid hon hdue hdiff, Chip.comp_latentNoted, Chip.comp_setComp_same]
    exact ⟨Chip.latched_latentNoted .., rfl, Chip.cntAt_latentNoted ..⟩
  case latentReset =>
    rw [c.latentReset_due i hready hvalid hon hdue, Chip.comp_setComp_same]
    exact ⟨rfl, rfl, rfl⟩
  case holdClr =>
    rw [c.command_ok htakes rfl]
    exact Chip.get_put_same _ 0 rfl rfl rfl

end Sys2Proof.Machine

/-! Unit commands, transport sessions and MACsec keys (R202, R206 to R209, R211, R213). -/

namespace Sys2Proof.Machine

open Sys2Proof

/-! ## UNIT_CMD (R208, R211) -/

/-- The word of `UNIT_CMD` with its fields. -/
def unitCmdWord (cmd unit other : Nat) (force : Bool) : Word :=
  BitVec.ofNat 32 (unit % 1024 + 65536 * (other % 1024) + 2 ^ 27 * force.toNat + 2 ^ 28 * cmd)

section
variable {cmd unit other : Nat} (force : Bool)

theorem toNat_unitCmdWord (hcmd : cmd < 16) : (unitCmdWord cmd unit other force).toNat
    = unit % 1024 + 65536 * (other % 1024) + 2 ^ 27 * force.toNat + 2 ^ 28 * cmd := by
  have hforce := force.toNat_lt
  rw [unitCmdWord, BitVec.toNat_ofNat, Nat.mod_eq_of_lt (by omega)]

theorem cmd_unitCmdWord (hcmd : cmd < 16) : bitsAt (unitCmdWord cmd unit other force) 28 4 = cmd := by
  have hforce := force.toNat_lt
  rw [bitsAt, toNat_unitCmdWord force hcmd, Nat.shiftRight_eq_div_pow]
  omega

theorem unit_unitCmdWord (hcmd : cmd < 16) (hunit : unit < 1024) : bitsAt (unitCmdWord cmd unit other force) 0 10 = unit := by
  rw [bitsAt, toNat_unitCmdWord force hcmd, Nat.shiftRight_eq_div_pow]
  omega

theorem other_unitCmdWord (hcmd : cmd < 16) (hother : other < 1024) : bitsAt (unitCmdWord cmd unit other force) 16 10 = other := by
  rw [bitsAt, toNat_unitCmdWord force hcmd, Nat.shiftRight_eq_div_pow]
  omega

theorem force_unitCmdWord (hcmd : cmd < 16) : (unitCmdWord cmd unit other force).getLsbD 27 = force := by
  rw [BitVec.getLsbD, toNat_unitCmdWord force hcmd, Nat.testBit_eq_decide_div_mod_eq]
  cases force <;> simp <;> omega

end

/-- A unit command waits for its execution, and BUSY shows it. -/
def Chip.unitWaits (c : Chip) (req : Requester) (cmd unit other : Nat) (force : Bool) : Prop :=
  c.is pUNITS F.UNITS_UNIT_CMD_STATUS_BUSY = true ∧ c.unitCmd = some (unitCmdWord cmd unit other force, req)

/-- R208: a command written while none waits is kept until it executes. -/
theorem Chip.unitCmdWrite_waits (c : Chip) {req : Requester} (cmd unit other : Nat) (force : Bool) (htakes : c.takes req = true)
    (hfree : c.unitCmd = none) : (c.unitCmdWrite req cmd unit other force).unitWaits req cmd unit other force := by
  have hbusy : ((c.sequenced req).put pUNITS F.UNITS_UNIT_CMD_STATUS_BUSY 1).get pUNITS F.UNITS_UNIT_CMD_STATUS_BUSY = 1 :=
    Chip.get_put_same _ 1 rfl rfl rfl
  rw [Chip.unitCmdWrite, c.command_ok htakes rfl, Chip.unitStart, if_neg (by simp [hfree])]
  exact ⟨decide_eq_true hbusy, rfl⟩

/-! ## Sessions (R202, R209) -/

@[simp] theorem Chip.sess_setSess_same (c : Chip) (i : Nat) (x : Sess) : (c.setSess i x).sess i = x := lookupD_store_same ..

theorem Chip.sess_setSess_other (c : Chip) {i j : Nat} (x : Sess) (h : j ≠ i) : (c.setSess i x).sess j = c.sess j :=
  lookupD_store_other _ _ _ x h

/-- The timer of an open session's phase has run out: the session is free, and this is counted. -/
theorem Chip.sessExpire_frees (c : Chip) {i phase limit : Nat} (hopen : (c.sess i).state = 1) (hphase : (c.sess i).phase = phase)
    (hdue : (c.sess i).at' + msCycles limit ≤ c.cycles) : let d := c.sessExpire i phase limit
    d.sess i = {} ∧ (∀ j, j ≠ i → d.sess j = c.sess j)
      ∧ d.cntAt (cntKey pBRIDLE K.BRIDLE_TP_TIMEOUT) = c.cntAt (cntKey pBRIDLE K.BRIDLE_TP_TIMEOUT) + 1 := by
  have hfreed : c.sessExpire i phase limit = (c.setSess i {}).count pBRIDLE K.BRIDLE_TP_TIMEOUT := by
    rw [Chip.sessExpire, if_pos hdue, if_pos ⟨hopen, hphase⟩]
  rw [hfreed]
  exact ⟨c.sess_setSess_same i {}, fun j hj => c.sess_setSess_other {} hj, Chip.cntAt_count_same ..⟩

/-! ## MACsec keys (R213) -/

theorem length_leBytes (k v : Nat) : (leBytes k v).length = k := by
  induction k generalizing v with
  | zero => rfl
  | succ k ih => rw [leBytes, List.length_cons, ih]

/-- The word of `KEY_CMD` with START. -/
def keyCmdWord (sa slot : Nat) : Word := BitVec.ofNat 32 (sa % 4096 + 65536 * (slot % 64) + 2 ^ 31)

section
variable (sa slot : Nat)

theorem toNat_keyCmdWord : (keyCmdWord sa slot).toNat = sa % 4096 + 65536 * (slot % 64) + 2 ^ 31 := by
  rw [keyCmdWord, BitVec.toNat_ofNat, Nat.mod_eq_of_lt (by omega)]

theorem sa_keyCmdWord : bitsAt (keyCmdWord sa slot) 0 12 = sa % 4096 := by
  rw [bitsAt, toNat_keyCmdWord, Nat.shiftRight_eq_div_pow]
  omega

theorem slot_keyCmdWord : bitsAt (keyCmdWord sa slot) 16 6 = slot % 64 := by
  rw [bitsAt, toNat_keyCmdWord, Nat.shiftRight_eq_div_pow]
  omega

theorem start_keyCmdWord : (keyCmdWord sa slot).toNat.testBit 31 = true := by
  rw [toNat_keyCmdWord, Nat.testBit_eq_decide_div_mod_eq, decide_eq_true_eq]
  omega

/-- An install waits, with the SA, the slot and the 40 bytes of the wrapped key. -/
theorem Chip.keyCmd_waits (c : Chip) (hfree : c.keyInstall = none) : let d := c.keyCmd (keyCmdWord sa slot)
    d.is pMACSEC F.MACSEC_KEY_STATUS_BUSY = true ∧ ∃ bs, d.keyInstall = some ⟨sa % 4096, slot % 64, bs⟩ ∧ bs.length = 40 := by
  have hbusy : (c.put pMACSEC F.MACSEC_KEY_STATUS_BUSY 1).get pMACSEC F.MACSEC_KEY_STATUS_BUSY = 1 := Chip.get_put_same _ 1 rfl rfl rfl
  rw [Chip.keyCmd, if_pos ⟨start_keyCmdWord sa slot, by rw [hfree]; rfl⟩, sa_keyCmdWord, slot_keyCmdWord]
  refine ⟨decide_eq_true hbusy, _, rfl, ?_⟩
  simp [List.length_flatten, Function.comp_def, length_leBytes]

end

/-- What the end of an install makes of the chip that its result `r` leaves. -/
def Chip.keyEnded (c : Chip) (r : Nat) : Chip :=
  ((c.put pMACSEC F.MACSEC_KEY_STATUS_BUSY 0).put pMACSEC F.MACSEC_KEY_STATUS_RESULT r).raise pMACSEC E.MACSEC_KEY_DONE

section
variable (c : Chip) (r : Nat)

@[simp] theorem Chip.saKeys_keyEnded : (c.keyEnded r).saKeys = c.saKeys := by
  rw [Chip.keyEnded, Chip.saKeys_raise]
  rfl

theorem Chip.saKey_keyEnded (sa : Nat) : (c.keyEnded r).saKey sa = c.saKey sa := by
  rw [Chip.saKey, Chip.saKeys_keyEnded, Chip.saKey]

@[simp] theorem Chip.keyInstall_keyEnded : (c.keyEnded r).keyInstall = c.keyInstall := by
  rw [Chip.keyEnded, Chip.keyInstall_raise]
  rfl

theorem Chip.result_keyEnded (h : r < 16) : (c.keyEnded r).get pMACSEC F.MACSEC_KEY_STATUS_RESULT = r := by
  rw [Chip.keyEnded, Chip.get_raise _ rfl rfl rfl, Chip.get_put_same _ _ rfl rfl rfl]
  exact Nat.mod_eq_of_lt h

theorem Chip.latched_keyEnded : (c.keyEnded r).latched pMACSEC E.MACSEC_KEY_DONE = true := Chip.latched_raise _ rfl (by decide)

end

/-- The chip once its install is no longer in progress. -/
def Chip.keyTaken (c : Chip) : Chip := { c with keyInstall := none }

/-- The chip once an SA has a key. -/
def Chip.withKey (c : Chip) (sa : Nat) (sak : List Byte) : Chip := { c with saKeys := insert c.saKeys sa sak }

theorem Chip.saKey_withKey_same (c : Chip) (sa : Nat) (sak : List Byte) : (c.withKey sa sak).saKey sa = sak := lookupD_insert_same ..

theorem Chip.saKey_withKey_other (c : Chip) {sa j : Nat} (sak : List Byte) (h : j ≠ sa) : (c.withKey sa sak).saKey j = c.saKey j :=
  lookupD_insert_other _ _ sak h

section
variable {c : Chip} {k : KeyInstall}

theorem Chip.keyDone_ended {d : Chip} {r : Nat} (hk : c.keyInstall = some k) (hresult : c.keyTaken.keyResult k = (d, r)) :
    c.keyDone = d.keyEnded r := by
  rw [Chip.keyTaken] at hresult
  simp only [Chip.keyDone, hk, hresult, Chip.keyEnded]

theorem Chip.keyResult_withheld (hmode : c.mode = modeQuarantine) : c.keyResult k = (c, kyWITHHELD) := if_pos hmode

/-- In QUARANTINE no key is installed. -/
theorem Chip.keyDone_withheld (hk : c.keyInstall = some k) (hmode : c.mode = modeQuarantine) :
    c.keyDone.saKeys = c.saKeys ∧ c.keyDone.get pMACSEC F.MACSEC_KEY_STATUS_RESULT = kyWITHHELD := by
  rw [Chip.keyDone_ended hk (Chip.keyResult_withheld hmode)]
  exact ⟨Chip.saKeys_keyEnded .., Chip.result_keyEnded _ kyWITHHELD (by decide)⟩

variable (hmode : c.mode ≠ modeQuarantine) (hsa : k.sa < 2816) (hlive : (c.slot k.slot).state = 1)
  (hpolicy : (c.slot k.slot).policy.testBit 3 = true) (hroot : c.root ≠ none)
include hmode hsa hlive hpolicy hroot

/-- From a LIVE slot of a policy that allows it the key is what its unwrapping answers. -/
theorem Chip.keyResult_unwraps {o : Option (List Byte)} (hunwrap : Config.keyUnwrap (c.slot k.slot).value k.wrapped = o) :
    c.keyResult k = o.elim (c, kyUNWRAP) fun sak => (c.withKey k.sa sak, kyOK) := by
  rw [Chip.keyResult, if_neg hmode, if_neg (by simpa using hroot), if_neg (by omega), if_neg (by simp [hlive, hpolicy]), hunwrap]
  cases o <;> rfl

/-- R213: a key installed is its SA's key, and no other SA's. -/
theorem Chip.keyDone_installs (hk : c.keyInstall = some k) : let d := c.keyDone
    d.keyInstall = none ∧ d.latched pMACSEC E.MACSEC_KEY_DONE = true
      ∧ d.get pMACSEC F.MACSEC_KEY_STATUS_RESULT = (match Config.keyUnwrap (c.slot k.slot).value k.wrapped with | some _ => kyOK | none => kyUNWRAP)
      ∧ (∀ sak, Config.keyUnwrap (c.slot k.slot).value k.wrapped = some sak → d.saKey k.sa = sak) ∧ ∀ j, j ≠ k.sa → d.saKey j = c.saKey j := by
  cases hunwrap : Config.keyUnwrap (c.slot k.slot).value k.wrapped with
  | none =>
    rw [Chip.keyDone_ended hk (Chip.keyResult_unwraps (c := c.keyTaken) hmode hsa hlive hpolicy hroot hunwrap)]
    exact ⟨Chip.keyInstall_keyEnded .., Chip.latched_keyEnded .., Chip.result_keyEnded _ kyUNWRAP (by decide), nofun,
      fun j _ => Chip.saKey_keyEnded ..⟩
  | some sak =>
    rw [Chip.keyDone_ended hk (Chip.keyResult_unwraps (c := c.keyTaken) hmode hsa hlive hpolicy hroot hunwrap)]
    refine ⟨Chip.keyInstall_keyEnded .., Chip.latched_keyEnded .., Chip.result_keyEnded _ kyOK (by decide), ?_, fun j hj => ?_⟩
    · rintro _ ⟨⟩
      exact (Chip.saKey_keyEnded ..).trans (Chip.saKey_withKey_same ..)
    · exact (Chip.saKey_keyEnded ..).trans (c.keyTaken.saKey_withKey_other sak hj)

end

/-- Settles O22: each command and each timer that is due does what the lemmas above say of its operation. -/
theorem unitsSessionsAndKeys : Obligations.UnitsSessionsAndKeys := by
  refine ⟨?unitCommands, ?sessionsAndKeys⟩
  case unitCommands =>
    intro s dt u o req force c waits htakes hfree hu ho
    have hwaits : ∀ cmd other force, cmd < 16 → other < 1024 → waits cmd other (c.unitCmdWrite req cmd u other force) := by
      intro cmd other force hcmd hother
      obtain ⟨hbusy, hcommand⟩ := c.unitCmdWrite_waits cmd u other force htakes hfree
      exact ⟨hbusy, _, hcommand, cmd_unitCmdWord force hcmd, unit_unitCmdWord force hcmd hu, other_unitCmdWord force hcmd hother⟩
    have hplain : ∀ cmd, cmd < 16 → waits cmd 0 (c.unitCmdWrite req cmd u 0 false) := fun cmd hcmd => hwaits cmd 0 false hcmd (by decide)
    exact ⟨.of_run rfl ⟨hwaits 1 o force (by decide) ho, _, (c.unitCmdWrite_waits 1 u o force htakes hfree).2, force_unitCmdWord force (by decide)⟩,
      .of_run rfl (hplain 2 (by decide)), .of_run rfl (hplain 3 (by decide)), .of_run rfl (hplain 4 (by decide)),
      .of_run rfl (hplain 5 (by decide)), .of_run rfl (hplain 8 (by decide)), .of_run rfl (hplain 9 (by decide)),
      .of_run rfl (hplain 10 (by decide))⟩
  case sessionsAndKeys =>
    intro s dt i sa slot req k c x due gone
    refine ⟨fun hopen => ⟨fun hphase hdue => .of_run rfl (c.sessExpire_frees hopen hphase hdue),
        fun hphase hdue => .of_run rfl (c.sessExpire_frees hopen hphase hdue), fun hphase hdue => .of_run rfl (c.sessExpire_frees hopen hphase hdue)⟩,
      fun htakes => ⟨.of_run rfl ?_, fun hfree => .of_run rfl ?_⟩,
      fun hk hmode hsa hlive hpolicy hroot => .of_run rfl (Chip.keyDone_installs hmode hsa hlive hpolicy hroot hk),
      fun hk hmode => .of_run rfl (Chip.keyDone_withheld hk hmode)⟩
    · rw [c.command_ok htakes rfl]
      exact Chip.get_put_same _ 0 rfl rfl rfl
    · rw [c.command_ok htakes rfl, ← keyCmdWord]
      exact (c.sequenced req).keyCmd_waits sa slot (by simpa using hfree)

end Sys2Proof.Machine

/-! REINSTATE with a peer that UNIT has no entry for (R207). A record may hold any number as its peer. The words of an entry so numbered are those
of another table, whose reset values are others: a word set to such a value reads as 0. The statement that REINSTATE exchanges the two keys names
no bound for the peer. -/

namespace Sys2Proof.Machine

open Sys2Proof

/-- What a command makes of chip and memories, where it completes as `P` says. -/
theorem DoesExt.states {i : Instr} {s : State} {dt : Nat} {f : Chip → Ext → Chip × Ext} {P : Chip → Ext → Prop} (h : DoesExt i s P)
    (hi : exec i s = .next (s.runExt dt f)) : P (f (s.chip.pass dt) s.ext).1 (f (s.chip.pass dt) s.ext).2 := by
  obtain ⟨t, ht, -, hP⟩ := h
  rw [hi] at ht
  cases ht
  exact hP

/-- As an index of UNIT's table this leads to entry 1 of MACSEC's table 1, whose word 1 is 1 at reset. -/
def strayPeer : Nat := 17 * 2 ^ 20 + 1

/-- Reset, with a REINSTATE of unit 1 waiting: its key is the MAC address 1, its peer `strayPeer` is fenced and of the same kind. -/
def State.reinstatesStray : State :=
  let c := ((State.reset.chip.setTword pUNITS 0 1 0 1).setTword pUNITS 0 1 1 1).setTword pUNITS 0 strayPeer 0 1
  { State.reset with chip := { c with
      units := [(1, { state := uALIVE, peer := some strayPeer }), (strayPeer, { state := uFENCED })]
      unitCmd := some (unitCmdWord 2 1 0 false, .qspi) } }

/-- Refutes O23: the peer is given key 1 of unit 1, the reset value of the word that holds it, and reads key 0. -/
theorem not_unitChanges : ¬ Obligations.UnitChanges := by
  intro h
  obtain ⟨hcommands, -⟩ := h State.reinstatesStray 0 (unitCmdWord 2 1 0 false) .qspi
  obtain ⟨-, hreinstates, -⟩ := hcommands rfl
  obtain ⟨-, -, -, ⟨-, hgiven, -⟩, -⟩ :=
    (hreinstates strayPeer (by decide) (by decide) (by decide) (by decide) (by decide) (by decide)).states rfl
  have hbefore : (State.reinstatesStray.chip.pass 0).unitKey 1 = (1, 0, 1) := by decide
  have hafter : ((State.reinstatesStray.chip.pass 0).unitRecorded State.reinstatesStray.ext).1.unitKey strayPeer = (1, 0, 0) := by decide
  exact absurd (hafter.symm.trans (hgiven.trans hbefore)) (by decide)

end Sys2Proof.Machine

/-! The gateway's clock (R241). GCLK_RESTORED acts once GCLK is in tolerance, and leaves the channels without their clock until then; the
statement about it has no such condition. -/

namespace Sys2Proof.Machine

open Sys2Proof

/-- Reset, with the gateway's clock lost: GCLK comes from PLL_G, which is not locked. -/
def State.clockLost : State := { State.reset with chip := State.reset.chip.put pGW F.GW_GW_STATUS_CLK_SAFE 1 }

/-- Out of tolerance GCLK does not come back. -/
theorem Chip.clkSafe_of_bad (c : Chip) (hbad : c.gclkGood = false) (h : c.clkSafe = true) :
    (if c.gclkGood then c.gclkBack else c).clkSafe = true := by
  rwa [hbad, if_neg Bool.false_ne_true]

/-- Refutes O25: its clause on GCLK_RESTORED does not ask that GCLK is in tolerance, and PLL_G is not locked at reset. -/
theorem not_linAndUart : ¬ Obligations.LinAndUart := by
  intro h
  obtain ⟨-, -, -, -, -, hclock⟩ := h State.clockLost 0 0 0 0 0 0 .qspi false ⟨[], false⟩ { msg := { kind := .uart } } []
  have hlost : (State.clockLost.chip.pass 0).clkSafe = true := by decide
  have hbad : (State.clockLost.chip.pass 0).gclkGood = false := by decide
  obtain ⟨hclear, -⟩ := (hclock hlost).chip rfl
  rw [Chip.clkSafe_of_bad _ hbad hlost] at hclear
  cases hclear

end Sys2Proof.Machine

/-! CAN channels (R231, R232, R245): what CAN_STATUS shows of the error counters and of the state that follows them, and what becomes of the
queued frame whose turn it is. -/

namespace Sys2Proof.Machine

open Sys2Proof

/-! ## Channels and their counters -/

theorem pageValid_pCAN {n : Nat} (h : n < 16) : pageValid (pCAN n) = true := decide_eq_true h

/-- The counters of the pages of the gateway and of its channels: no event counts one. -/
theorem uncounted_legacy {p : Page} {i : Nat} (hp : 89 ≤ pageIdx p ∧ pageIdx p < 118) (hi : i < 1024) : uncounted (cntKey p i) = true := by
  have hhost : cntKey pHOST K.HOST_MSIX_SENT = 119 * 1024 + K.HOST_MSIX_SENT := rfl
  have hperf : pageIdx pPERF = 10 := rfl
  rw [uncounted, decide_eq_true_eq, hhost, hperf, cntKey]
  omega

theorem uncounted_pCAN {n i : Nat} (hn : n < 16) (hi : i < 1024) : uncounted (cntKey (pCAN n) i) = true := by
  have hidx : pageIdx (pCAN n) = 90 + n := rfl
  exact uncounted_legacy (by omega) hi

@[simp] theorem Chip.canRt_setCan_same (c : Chip) (n : Nat) (x : CanRt) : (c.setCan n x).canRt n = x := lookupD_store_same ..

theorem canRt_congr {c d : Chip} (h : d.cans = c.cans) (n : Nat) : d.canRt n = c.canRt n := by
  rw [Chip.canRt, h, Chip.canRt]

/-! ## What CAN_STATUS shows -/

/-- `d` is `c` but for what CAN_STATUS of channel `n` shows, and for events and what they count. -/
structure CanShows (n : Nat) (c d : Chip) : Prop where
  same : ∃ r m o, d = c.noise r m o
  regs : ∀ q a, pageValid q = true → a < 0x1000 → quiet q a = true → (q = pCAN n → a ≠ 0x160) → d.reg q a = c.reg q a
  counts : ∀ k, uncounted k = true → d.cntAt k = c.cntAt k

section
variable {n : Nat} {c d e : Chip}

theorem CanShows.refl (c : Chip) : CanShows n c c := ⟨⟨c.regs, c.cnt, c.outs, rfl⟩, fun _ _ _ _ _ _ => rfl, fun _ _ => rfl⟩

theorem CanShows.ite {P : Prop} [Decidable P] (hd : CanShows n c d) (he : CanShows n c e) : CanShows n c (if P then d else e) := by
  split
  · exact hd
  · exact he

section
variable (h : CanShows n c d)
include h

theorem CanShows.field {α : Type} (f : Chip → α) (hf : ∀ r m o, f (c.noise r m o) = f c) : f d = f c := by
  obtain ⟨⟨r, m, o, rfl⟩, -⟩ := h
  exact hf r m o

theorem CanShows.canRt (m : Nat) : d.canRt m = c.canRt m := h.field (fun c => c.canRt m) fun _ _ _ => rfl

theorem CanShows.put (hn : n < 16) {f : Fld} (v : Nat) (hf : f.off = 0x160) : CanShows n c (d.put (pCAN n) f v) := by
  obtain ⟨⟨r, m, o, rfl⟩, hregs, hcounts⟩ := h
  refine ⟨⟨_, m, o, rfl⟩, fun q a hq ha hquiet hne => ?_, hcounts⟩
  refine Eq.trans ?_ (hregs q a hq ha hquiet hne)
  rw [Chip.put, hf]
  by_cases hpage : q = pCAN n
  · subst hpage
    exact Chip.reg_setReg_off _ _ (hne rfl)
  · exact Chip.reg_setReg_page _ _ hq (pageValid_pCAN hn) ha (by decide) hpage

theorem CanShows.raise (hn : n < 16) (b : Nat) : CanShows n c (d.raise (pCAN n) b) := by
  obtain ⟨⟨r, m, o, rfl⟩, hregs, hcounts⟩ := h
  obtain ⟨⟨r', m', o', hsame⟩, hloud⟩ := Loud.raise (c.noise r m o) b (pageValid_pCAN hn)
  exact ⟨⟨r', m', o', hsame⟩, fun q a hq ha hquiet hne => (hloud q a hq ha hquiet).trans (hregs q a hq ha hquiet hne),
    fun k hk => (Chip.cntAt_raise_uncounted _ hk _ _).trans (hcounts k hk)⟩

end

/-- A put of another field leaves the state that is shown. -/
theorem Chip.canState_put (c : Chip) (hn : n < 16) {f : Fld} (v : Nat) (h : F.CAN_CAN_STATUS_STATE.apart f = true) :
    (c.put (pCAN n) f v).canState n = c.canState n :=
  c.get_put_apart v (pageValid_pCAN hn) (pageValid_pCAN hn) h

@[simp] theorem Chip.canState_count (c : Chip) (p : Page) (i m : Nat) : (c.count p i).canState m = c.canState m := c.get_count ..

theorem Chip.canState_raise (c : Chip) (hn : n < 16) {p : Page} (b : Nat) (hp : pageValid p = true) : (c.raise p b).canState n = c.canState n :=
  Chip.get_raise b (pageValid_pCAN hn) hp rfl

theorem Chip.canState_setCanState (c : Chip) (hn : n < 16) {st : Nat} (hst : st < 8) : (c.setCanState n st).canState n = st :=
  (c.get_put_same st (pageValid_pCAN hn) rfl rfl).trans (Nat.mod_eq_of_lt hst)

end

/-! ## Error counters (R232) -/

/-- The chip with new error counters of a channel, before its state follows them. -/
def Chip.errorsNoted (c : Chip) (n tec rxe : Nat) : Chip :=
  let x := c.canRt n
  let d := (c.setCan n { x with tec := tec, rxe := rxe }).showErrors n
  if (x.tec < 96 ∧ 96 ≤ tec) ∨ (x.rxe < 96 ∧ 96 ≤ rxe) then d.raise (pCAN n) E.CAN_ERR_WARN else d

theorem Chip.setErrors_eq (c : Chip) (n tec rxe : Nat) : c.setErrors n tec rxe = (c.errorsNoted n tec rxe).canErrorState n := by
  simp only [Chip.setErrors, Chip.errorsNoted, decide_eq_true_eq]

section
variable (c : Chip) {n tec rxe : Nat} (hn : n < 16)
include hn

theorem Chip.errorsNoted_shows : CanShows n (c.setCan n { c.canRt n with tec := tec, rxe := rxe }) (c.errorsNoted n tec rxe) := by
  have hshown : CanShows n (c.setCan n { c.canRt n with tec := tec, rxe := rxe })
      ((c.setCan n { c.canRt n with tec := tec, rxe := rxe }).showErrors n) := ((CanShows.refl _).put hn _ rfl).put hn _ rfl
  exact .ite (hshown.raise hn _) hshown

theorem Chip.canRt_errorsNoted : (c.errorsNoted n tec rxe).canRt n = { c.canRt n with tec := tec, rxe := rxe } :=
  ((c.errorsNoted_shows hn).canRt n).trans (c.canRt_setCan_same ..)

theorem Chip.canState_errorsNoted : (c.errorsNoted n tec rxe).canState n = c.canState n := by
  have hshown : ∀ d : Chip, (d.showErrors n).canState n = d.canState n := fun d =>
    (Chip.canState_put _ hn _ rfl).trans (Chip.canState_put _ hn _ rfl)
  unfold Chip.errorsNoted
  dsimp only
  split
  · exact (Chip.canState_raise _ hn _ (pageValid_pCAN hn)).trans (hshown _)
  · exact hshown _

/-- Below 256 errors in transmission the state moves between ACTIVE and PASSIVE at most. -/
theorem Chip.canErrorState_shows {d : Chip} (h : CanShows n d c) (htec : (c.canRt n).tec ≤ 255) : CanShows n d (c.canErrorState n) := by
  unfold Chip.canErrorState
  refine .ite ?_ h
  rw [if_neg (by omega)]
  exact .ite ((h.put hn _ rfl).raise hn _) (.ite (h.put hn _ rfl) h)

theorem Chip.setErrors_shows (htec : tec ≤ 255) :
    CanShows n (c.setCan n { c.canRt n with tec := tec, rxe := rxe }) (c.setErrors n tec rxe) := by
  rw [Chip.setErrors_eq]
  exact Chip.canErrorState_shows _ hn (c.errorsNoted_shows hn) (by rwa [c.canRt_errorsNoted hn])

theorem Chip.canRt_setErrors (htec : tec ≤ 255) : (c.setErrors n tec rxe).canRt n = { c.canRt n with tec := tec, rxe := rxe } :=
  ((c.setErrors_shows hn htec).canRt n).trans (c.canRt_setCan_same ..)

theorem Chip.cntAt_setErrors (htec : tec ≤ 255) {k : Nat} (hk : uncounted k = true) : (c.setErrors n tec rxe).cntAt k = c.cntAt k :=
  (c.setErrors_shows hn htec).counts k hk

end

section
variable (c : Chip) {n : Nat}

theorem Chip.canErrorState_low (hst : c.canState n = caACTIVE) (htec : (c.canRt n).tec ≤ 127) (hrxe : (c.canRt n).rxe ≤ 127) :
    c.canErrorState n = c := by
  unfold Chip.canErrorState
  dsimp only
  rw [if_pos (.inl hst), if_neg (by omega), if_neg (by omega), if_neg fun h => absurd (hst.symm.trans h.1) (by decide)]

theorem Chip.canErrorState_high (hst : c.canState n = caACTIVE) (htec : (c.canRt n).tec ≤ 255) (hrxe : 127 < (c.canRt n).rxe) :
    c.canErrorState n = (c.setCanState n caPASSIVE).raise (pCAN n) E.CAN_ERR_PASSIVE := by
  unfold Chip.canErrorState
  dsimp only
  rw [if_pos (.inl hst), if_neg (by omega), if_pos ⟨hst, .inr hrxe⟩]

end

/-! ## The frame whose turn it is (R231) -/

theorem mem_of_foldl_option {α : Type} {f : Option α → α → Option α} (hf : ∀ b a t, f b a = some t → t = a ∨ b = some t) {l : List α}
    {b : Option α} {t : α} (h : l.foldl f b = some t) : t ∈ l ∨ b = some t := by
  induction l generalizing b with
  | nil => exact .inr h
  | cons a l ih =>
    obtain hl | hb := ih h
    · exact .inl (List.mem_cons_of_mem _ hl)
    · obtain rfl | hb := hf b a t hb
      · exact .inl (List.mem_cons_self ..)
      · exact .inr hb

theorem Chip.mem_queue_of_canNext {c : Chip} {n : Nat} {t : TxMsg} (h : c.canNext n = some t) : t ∈ (c.canRt n).queue := by
  unfold Chip.canNext at h
  split at h
  · exact List.mem_of_head? h
  · refine (mem_of_foldl_option (fun b a t ht => ?_) h).resolve_right nofun
    cases b with
    | none => exact .inl (Option.some.inj ht).symm
    | some x =>
      dsimp only at ht
      split at ht
      · exact .inl (Option.some.inj ht).symm
      · exact .inr ht

/-- A replacement stands where the replaced element stood. -/
theorem mem_replace_of_mem {α : Type} [BEq α] [LawfulBEq α] {l : List α} {a b : α} (h : a ∈ l) : b ∈ l.replace a b := by
  induction l with
  | nil => cases h
  | cons x l ih =>
    rw [List.replace_cons]
    split
    · exact List.mem_cons_self ..
    · next hx =>
      have hne : a ≠ x := fun e => by simp [e] at hx
      exact List.mem_cons_of_mem _ (ih ((List.mem_cons.1 h).resolve_left hne))

/-- What a channel that may send finds at the head of its candidates: an untimed frame, which does not age. -/
structure Chip.canTurn (c : Chip) (n : Nat) (t : TxMsg) : Prop where
  sends : c.canSends n = true
  noSafe : ∀ f ∈ c.safeFrames, f.port ≠ 32 + n
  loud : c.mode ≠ modeQuarantine
  notDue : c.relDue (32 + n) = none
  noAbort : (c.canRt n).aborts = []
  unguarded : c.guardBlocks (32 + n) = false
  next : c.canNext n = some t
  ageless : c.get (pCAN n) F.CAN_CAN_CFG_MAX_AGE_MS = 0

section
variable {c : Chip} {n : Nat} {t : TxMsg} (h : c.canTurn n t)
include h

theorem Chip.canTurn.pick : c.canPick n = (c, some (.queued t)) := by
  have hsafe : c.safeFrames.find? (fun f => decide (f.port = 32 + n)) = none := by simpa using h.noSafe
  have hquiet : c.canQuiet = false := decide_eq_false h.loud
  have hfresh : ∀ k, c.canFresh n (k + 1) = (c, some t) := fun k => by
    rw [Chip.canFresh, h.next]
    dsimp only
    rw [if_neg (by simp [h.ageless])]
  unfold Chip.canPick
  simp only [hsafe, hquiet, h.notDue, h.noAbort, h.unguarded, hfresh, List.head?_nil, Bool.false_eq_true, if_false, Option.map_some]

theorem Chip.canTurn.tx (r : CanResult) (waited : Bool) : c.canTx n r waited = c.canAttempt n (.queued t) r waited := by
  rw [Chip.canTx, if_pos h.sends, h.pick]

end

section
variable (c : Chip) {n : Nat} (t : TxMsg) (waited : Bool) (hn : n < 16)
include hn

theorem Chip.canSent_queued (htec : (c.canRt n).tec ≤ 255) : let d := c.canSent n (.queued t) waited
    d.canRt n = { c.canRt n with queue := (c.canRt n).queue.erase t, tec := (c.canRt n).tec - 1 }
      ∧ d.cntAt (cntKey (pCAN n) K.CAN_TX_FRAMES) = c.cntAt (cntKey (pCAN n) K.CAN_TX_FRAMES) + 1 := by
  have hle : (c.canRt n).tec - 1 ≤ 255 := by omega
  have hrt := (c.count (pCAN n) K.CAN_TX_FRAMES).canRt_setErrors (tec := (c.canRt n).tec - 1) (rxe := (c.canRt n).rxe) hn hle
  refine ⟨?_, ?_⟩
  · have heq : c.canSent n (.queued t) waited
        = ((c.count (pCAN n) K.CAN_TX_FRAMES).setErrors n ((c.canRt n).tec - 1) (c.canRt n).rxe).canRemove n (.queued t) := rfl
    rw [heq, Chip.canRemove, Chip.canRt_setCan_same, hrt]
    rfl
  · exact (Chip.cntAt_setErrors _ hn hle (uncounted_pCAN hn (by decide))).trans (Chip.cntAt_count_same ..)

theorem Chip.canTxError_queued {e : CanError} (he : e ≠ .ack) (hlimit : c.get (pCAN n) F.CAN_CAN_CFG_RETRY_LIMIT = 0)
    (htec : (c.canRt n).tec + 8 ≤ 255) : let d := c.canTxError n (.queued t) e
    d.canRt n = { c.canRt n with queue := (c.canRt n).queue.replace t { t with retries := t.retries + 1 }, tec := (c.canRt n).tec + 8 }
      ∧ d.cntAt (cntKey (pCAN n) (canErrCounter e)) = c.cntAt (cntKey (pCAN n) (canErrCounter e)) + 1 := by
  have hlow : canErrCounter e < 1024 := by cases e <;> decide
  have heq : c.canTxError n (.queued t) e
      = ((c.count (pCAN n) (canErrCounter e)).canKeep n (.queued t) (t.retries + 1)).setErrors n ((c.canRt n).tec + 8) (c.canRt n).rxe := by
    unfold Chip.canTxError
    dsimp only
    rw [Chip.get_count, if_neg (not_and_of_not_left _ (not_not_intro hlimit)), if_neg (not_and_of_not_left _ he)]
    rfl
  rw [heq]
  refine ⟨?_, ?_⟩
  · rw [Chip.canRt_setErrors _ hn htec, Chip.canKeep, Chip.canRt_setCan_same]
    rfl
  · exact (Chip.cntAt_setErrors _ hn htec (uncounted_pCAN hn hlow)).trans (Chip.cntAt_count_same ..)

end

/-! ## States and commands (R232, R245) -/

section
variable (c : Chip) {n : Nat} (hn : n < 16)
include hn

theorem Chip.canState_integrated (htec : (c.canRt n).tec ≤ 127) (hrxe : (c.canRt n).rxe ≤ 127) :
    ((c.setCanState n caACTIVE).canErrorState n).canState n = caACTIVE := by
  have hst := c.canState_setCanState hn (st := caACTIVE) (by decide)
  rw [Chip.canErrorState_low _ hst htec hrxe, hst]

theorem Chip.recovered_shown :
    let d := ((c.setErrors n 0 0).setCanState n caACTIVE).raise (pCAN n) E.CAN_RECOVERED
    d.canState n = caACTIVE ∧ d.latched (pCAN n) E.CAN_RECOVERED ∧ (d.canRt n).tec = 0 ∧ (d.canRt n).rxe = 0 := by
  have hshows := ((c.setErrors_shows hn (tec := 0) (rxe := 0) (by decide)).put hn (f := F.CAN_CAN_STATUS_STATE) caACTIVE rfl).raise hn
    E.CAN_RECOVERED
  have hrt := (hshows.canRt n).trans (c.canRt_setCan_same ..)
  exact ⟨(Chip.canState_raise _ hn _ (pageValid_pCAN hn)).trans (Chip.canState_setCanState _ hn (by decide)),
    Chip.latched_raise _ (pageValid_pCAN hn) (by decide), congrArg CanRt.tec hrt, congrArg CanRt.rxe hrt⟩

theorem Chip.canState_canRecover (hst : c.canState n = caBUSOFF) : (c.canRecover n).canState n = caRECOVERING := by
  rw [Chip.canRecover, if_pos hst, c.canState_setCanState hn (by decide)]

/-- An error in reception: REC rises by 1, or 9 after a dominant bit (ISO 11898-1; log entry 35). -/
theorem Chip.canRxError_shown (e : CanError) (dom : Bool) (hst : c.canState n = caACTIVE) (htec : (c.canRt n).tec ≤ 127) :
    let d := c.canRxError n e dom
    let rxe := (c.canRt n).rxe + if dom then 9 else 1
    (d.canRt n).rxe = rxe ∧ d.cntAt (cntKey (pCAN n) (canErrCounter e)) = c.cntAt (cntKey (pCAN n) (canErrCounter e)) + 1
      ∧ (127 < rxe → d.canState n = caPASSIVE ∧ d.latched (pCAN n) E.CAN_ERR_PASSIVE) := by
  intro d rxe
  have hlow : canErrCounter e < 1024 := by cases e <;> decide
  have hrxe : (c.canRt n).rxe + 1 + (if dom then 8 else 0) = rxe := by cases dom <;> rfl
  have hd : d = (c.count (pCAN n) (canErrCounter e)).setErrors n (c.canRt n).tec rxe := by
    rw [← hrxe]
    exact if_pos ⟨hn, .inl hst⟩
  have htec' : (c.canRt n).tec ≤ 255 := by omega
  rw [hd]
  refine ⟨congrArg CanRt.rxe (Chip.canRt_setErrors _ hn htec'),
    (Chip.cntAt_setErrors _ hn htec' (uncounted_pCAN hn hlow)).trans (Chip.cntAt_count_same ..), fun hhigh => ?_⟩
  have hnoted := Chip.canRt_errorsNoted (c.count (pCAN n) (canErrCounter e)) (tec := (c.canRt n).tec) (rxe := rxe) hn
  have hactive := (Chip.canState_errorsNoted (c.count (pCAN n) (canErrCounter e)) (tec := (c.canRt n).tec) (rxe := rxe) hn).trans
    ((c.canState_count ..).trans hst)
  rw [Chip.setErrors_eq, Chip.canErrorState_high _ hactive (by rwa [hnoted]) (by rwa [hnoted])]
  exact ⟨(Chip.canState_raise _ hn _ (pageValid_pCAN hn)).trans (Chip.canState_setCanState _ hn (by decide)),
    Chip.latched_raise _ (pageValid_pCAN hn) (by decide)⟩

end

theorem Chip.canFlush_empties (c : Chip) (n : Nat) : ((c.canFlush n).canRt n).queue = [] ∧ (c.canFlush n).cntAt (cntKey (pCAN n) K.CAN_TX_FULL_DROP)
    = c.cntAt (cntKey (pCAN n) K.CAN_TX_FULL_DROP) + BitVec.ofNat 48 (c.canRt n).queue.length :=
  ⟨congrArg CanRt.queue (c.canRt_setCan_same ..), Chip.cntAt_addCnt_same ..⟩

@[simp] theorem Chip.canRt_sequenced (c : Chip) (req : Requester) (n : Nat) : (c.sequenced req).canRt n = c.canRt n := canRt_congr (by simp) n

@[simp] theorem Chip.canState_sequenced (c : Chip) (req : Requester) (n : Nat) : (c.sequenced req).canState n = c.canState n := c.get_sequenced ..

@[simp] theorem Chip.cntAt_sequenced (c : Chip) (req : Requester) (k : Nat) : (c.sequenced req).cntAt k = c.cntAt k := by
  rw [Chip.cntAt, Chip.cnt_sequenced, Chip.cntAt]

/-- Settles O24: the frame whose turn it is and what becomes of it; the states that commands, recovery and errors lead to. -/
theorem canChannels : Obligations.CanChannels := by
  intro s dt n req waited dom t err c p x cnt hn
  refine ⟨fun hsends hsafe hmode hdue haborts hguard hnext hage htec => ?_, fun hst htec hrxe => .of_run rfl ?_,
    fun hst => .of_run rfl ?_, fun htakes => ⟨fun hst => .of_run rfl ?_, .of_run rfl ?_, .of_run rfl ?_⟩,
    fun hst htec _ => .of_run rfl (c.canRxError_shown hn err dom hst htec)⟩
  case refine_1 =>
    have hturn : c.canTurn n t := ⟨hsends, hsafe, hmode, hdue, haborts, hguard, hnext, hage⟩
    refine ⟨.of_run rfl ?_, .of_run rfl ?_, fun hlimit hroom => .of_run rfl ?_⟩
    · obtain ⟨hrt, hsent⟩ := c.canSent_queued t waited hn htec
      rw [hturn.tx]
      exact ⟨congrArg CanRt.queue hrt, congrArg CanRt.tec hrt, hsent⟩
    · rw [hturn.tx]
      exact ⟨rfl, Chip.cntAt_count_same ..⟩
    · obtain ⟨hrt, herror⟩ := c.canTxError_queued t hn (e := .bit) nofun hlimit hroom
      rw [hturn.tx]
      refine ⟨congrArg CanRt.tec hrt, (congrArg (fun x => x.queue.length) hrt).trans List.length_replace, ?_, herror⟩
      exact (congrArg CanRt.queue hrt).symm ▸ mem_replace_of_mem (Chip.mem_queue_of_canNext hnext)
  case refine_2 =>
    rw [if_pos ⟨hn, hst⟩]
    exact c.canState_integrated hn htec hrxe
  case refine_3 =>
    rw [if_pos ⟨hn, hst⟩]
    exact c.recovered_shown hn
  case refine_4 =>
    rw [Chip.canCmdWrite, c.command_ok htakes (pageValid_pCAN hn)]
    exact Chip.canState_canRecover _ hn (by simpa using hst)
  case refine_5 =>
    rw [Chip.canCmdWrite, c.command_ok htakes (pageValid_pCAN hn)]
    have hflushed := (c.sequenced req).canFlush_empties n
    rwa [Chip.cntAt_sequenced, Chip.canRt_sequenced] at hflushed
  case refine_6 =>
    rw [Chip.canCmdWrite, c.command_ok htakes (pageValid_pCAN hn)]
    exact Chip.get_put_same _ 0 (pageValid_pCAN hn) rfl rfl

end Sys2Proof.Machine

/-! Assemblers and ACF streams (R223, R226, R227): what enters the fabric or goes to a channel, what waits for the end of MIN_GAP, what a signal
reads as once it is stale. -/

namespace Sys2Proof.Machine

open Sys2Proof

/-! ## Records -/

@[simp] theorem Chip.acf_setAcf_same (c : Chip) (k : Nat) (x : AcfRt) : (c.setAcf k x).acf k = x := lookupD_store_same ..

@[simp] theorem Chip.asm_setAsm_same (c : Chip) (a : Nat) (x : AsmRt) : (c.setAsm a x).asm a = x := lookupD_store_same ..

@[simp] theorem Chip.sig_setSig_same (c : Chip) (i : Nat) (x : SigRt) : (c.setSig i x).sig i = x := lookupD_store_same ..

/-! ## ACF streams (R223) -/

/-- The batch time of an open frame has passed: it enters the fabric at GW, and its stream goes on with the next number. -/
theorem Chip.acfTimeout_sends (c : Chip) {k : Nat} (hruns : c.gwRuns = true) (hmsgs : (c.acf k).msgs ≠ [])
    (hdue : (c.acf k).at' + usCycles (c.ao k fAoUs) ≤ c.cycles) : ∃ (e : Chip) (f : Frame), c.acfTimeout k = e.ingestWhole f ∧ f.ingress = 31
      ∧ f.cls = (c.acf k).cls ∧ e.acf k = { seq := ((c.acf k).seq + 1) % 256 } := by
  have hopen : (c.acf k).msgs.isEmpty = false := by simpa using hmsgs
  unfold Chip.acfTimeout
  dsimp only
  rw [if_pos ⟨by simp [hopen], hdue, hruns⟩]
  unfold Chip.acfSend
  dsimp only
  rw [if_neg (by simp [hopen])]
  refine ⟨_, _, rfl, rfl, rfl, ?_⟩
  exact ((Loud.perf _ 0x242 1).field (fun d => d.acf k) fun _ _ _ => rfl).trans (c.acf_setAcf_same ..)

/-! ## An assembler transmits (R226, R227) -/

/-- Neither the mode nor stale signals stop an assembler. -/
def Chip.asmMay (c : Chip) (a : Nat) : Prop :=
  c.modeTakes (c.am a fAsClass) (c.am a fAsActuating = 1) (c.am a fAsDiag = 1) = true ∧ (c.am a fAsStopStale = 0 ∨ c.allStale a = false)

/-- An assembler's period and its minimum gap begin, and its transmission is counted. -/
def Chip.asmBegun (c : Chip) (a : Nat) : Chip :=
  ((c.setAsm a { c.asm a with sentAt := some c.cycles, periodAt := c.cycles, deferred := none }).tcount pGW 9 a 0).perf 0x243 1

theorem Chip.asm_asmBegun (c : Chip) (a : Nat) :
    (c.asmBegun a).asm a = { c.asm a with sentAt := some c.cycles, periodAt := c.cycles, deferred := none } :=
  ((Loud.perf _ 0x243 1).field (fun d => d.asm a) fun _ _ _ => rfl).trans (c.asm_setAsm_same ..)

section
variable (c : Chip) {a : Nat}

theorem Chip.asmSend_goes (x : GwItem) (h : c.asmMay a) : c.asmSend a x = (c.asmBegun a).pduOut a x := by
  obtain ⟨hmode, hstale⟩ := h
  have hgo : ¬ (c.am a fAsStopStale = 1 ∧ c.allStale a = true) := by
    rintro ⟨hstop, hall⟩
    obtain h0 | hfresh := hstale
    · omega
    · rw [hfresh] at hall
      cases hall
  unfold Chip.asmSend
  dsimp only
  rw [if_neg hgo, if_neg (not_not_intro hmode)]
  rfl

/-- An assembler with cause to transmit after its minimum gap does so. -/
theorem Chip.asmWant_goes (x : GwItem) (counts : Bool) (hvalid : c.am a fAsValid = 1) (hruns : c.gwRuns = true) (hgap : c.gapOver a = true)
    (h : c.asmMay a) : c.asmWant a x counts = (c.asmBegun a).pduOut a x := by
  unfold Chip.asmWant
  rw [if_neg (by simp [hvalid, hruns]), if_pos hgap, c.asmSend_goes x h]

/-- Within its minimum gap it waits for the end of it; the first cause stands. -/
theorem Chip.asmWant_waits (x : GwItem) (hvalid : c.am a fAsValid = 1) (hruns : c.gwRuns = true) (hgap : c.gapOver a = false) :
    c.asmWant a x false = c.setAsm a { c.asm a with deferred := some ((c.asm a).deferred.getD (x.origin, x.asked, x.rewrite)) } := by
  unfold Chip.asmWant
  rw [if_neg (by simp [hvalid, hruns]), if_neg (by simp [hgap])]
  rfl

end

/-! ## Causes without a source message (R226) -/

/-- The chip in which an assembler with a new record comes to transmit without a source message. -/
def Chip.asmTries (c : Chip) (a : Nat) (x : AsmRt) (asked : Bool) : Chip := ((c.setAsm a x).noSource asked).2

section
variable (c : Chip) {a : Nat} {x : AsmRt} (asked : Bool)

@[simp] theorem Chip.asm_asmTries : (c.asmTries a x asked).asm a = x := c.asm_setAsm_same a x

@[simp] theorem Chip.am_asmTries (b : Nat) (f : TFld) : (c.asmTries a x asked).am b f = c.am b f := rfl

@[simp] theorem Chip.gwRuns_asmTries : (c.asmTries a x asked).gwRuns = c.gwRuns := rfl

theorem Chip.asmMay_asmTries (h : c.asmMay a) : (c.asmTries a x asked).asmMay a := h

theorem Chip.gapOver_asmTries (h : x.sentAt = (c.asm a).sentAt) : (c.asmTries a x asked).gapOver a = c.gapOver a := by
  rw [Chip.gapOver, Chip.asm_asmTries, h]
  rfl

/-- What its transmission leaves of its record, whatever the period and the deferral before it. -/
theorem Chip.asm_begun_asmTries (h : x.order = (c.asm a).order) :
    ((c.asmTries a x asked).asmBegun a).asm a = { c.asm a with periodAt := c.cycles, deferred := none, sentAt := some c.cycles } := by
  rw [Chip.asm_asmBegun, Chip.asm_asmTries]
  cases x
  cases h
  rfl

/-- A period that has expired is a cause of its own. -/
theorem Chip.asmPeriod_wants (ha : a < 1024) (hruns : c.gwRuns = true) (hvalid : c.am a fAsValid = 1) (hperiod : c.am a fAsPeriod ≠ 0)
    (hdue : (c.asm a).periodAt + tenthMs (c.am a fAsPeriod) ≤ c.cycles) :
    ∃ y : GwItem, y.origin = 31 ∧ y.asked = true ∧ y.rewrite = {}
      ∧ c.asmPeriod a = (c.asmTries a { c.asm a with periodAt := c.cycles } true).asmWant a y false := by
  unfold Chip.asmPeriod
  dsimp only
  rw [if_pos ⟨ha, hruns, hvalid, hperiod, hdue⟩]
  exact ⟨_, rfl, rfl, rfl, rfl⟩

/-- The end of a minimum gap: what was deferred goes out with the origin and the rewrite of its cause. -/
theorem Chip.asmGapEnd_sends {asked : Bool} {o : Nat} {rw : Rewrite} (hdef : (c.asm a).deferred = some (o, asked, rw))
    (hgap : c.gapOver a = true) (hruns : c.gwRuns = true) : ∃ y : GwItem, y.origin = o ∧ y.asked = asked ∧ y.rewrite = rw
      ∧ c.asmGapEnd a = (c.asmTries a { c.asm a with deferred := none } asked).asmSend a y := by
  unfold Chip.asmGapEnd
  rw [hdef]
  dsimp only
  rw [if_pos ⟨hgap, hruns⟩]
  exact ⟨_, rfl, rfl, rfl, rfl⟩

end

/-! ## A signal turns stale (R227) -/

/-- The chip with a signal stale, counted and latched; its substitute is the last value copied into the buffer of its assembler. -/
def Chip.staleNoted (c : Chip) (i : Nat) : Chip :=
  (((((c.setSig i { c.sig i with value := none, stale := true }).copied i).count pGW K.GW_SIGNAL_STALE).tcount pGW 9 (c.sg i fSgAsm) 2).raise pGW
    E.GW_SIGNAL_STALE)

/-- What `e` shows of a signal that has turned stale in `c`. -/
def Chip.showsStale (c e : Chip) (i : Nat) : Prop :=
  e.sig i = { c.sig i with value := none, stale := true } ∧ e.sigValue i = c.subst i ∧ e.latched pGW E.GW_SIGNAL_STALE
    ∧ e.cntAt (cntKey pGW K.GW_SIGNAL_STALE) = c.cntAt (cntKey pGW K.GW_SIGNAL_STALE) + 1

section
variable (c : Chip) (i : Nat)

theorem Chip.staleNoted_shows : c.showsStale (c.staleNoted i) i := by
  have hloud : Loud ((c.setSig i { c.sig i with value := none, stale := true }).copied i) (c.staleNoted i) :=
    ((Calm.count ..).trans (Calm.tcount ..)).loud.trans (Loud.raise _ _ rfl)
  have hsig : (c.staleNoted i).sig i = { c.sig i with value := none, stale := true } :=
    (hloud.field (fun d => d.sig i) fun _ _ _ => rfl).trans (c.sig_setSig_same ..)
  have hsubst : (c.staleNoted i).subst i = c.subst i := hloud.field (fun d => d.subst i) fun _ _ _ => rfl
  refine ⟨hsig, ?_, Chip.latched_raise _ rfl (by decide), ?_⟩
  · rw [Chip.sigValue, hsig, hsubst]
    rfl
  · rw [Chip.staleNoted, Chip.cntAt_raise_uncounted _ (by decide), Chip.cntAt_tcount_page _ _ _ _ _ (by decide), Chip.cntAt_count_same]
    rfl

/-- Where the substitute is a change that triggers, the signal's assembler has cause to transmit. -/
theorem Chip.signalStale_noted (hi : i < 16384) (hruns : c.gwRuns = true) (hvalid : c.sg i fSgValid = 1) (htmo : c.sg i fSgTmo ≠ 0)
    (hfresh : (c.sig i).stale = false) (hdue : (c.sig i).at' + msCycles (c.sg i fSgTmo) ≤ c.cycles) :
    c.signalStale i = c.staleNoted i
      ∨ c.signalStale i = ((c.staleNoted i).noSource false).2.asmWant (c.sg i fSgAsm) ((c.staleNoted i).noSource false).1 true := by
  unfold Chip.signalStale
  dsimp only
  rw [if_pos ⟨hi, hruns, hvalid, htmo, by simp [hfresh], hdue⟩]
  split
  · exact .inr rfl
  · exact .inl rfl

end

/-- Settles O27: what goes, what waits, and a signal that turns stale. -/
theorem assemblers : Obligations.Assemblers := by
  intro s dt a i o asked rw c g mayGo goes hruns
  refine ⟨fun hmsgs hdue => .of_run rfl (c.acfTimeout_sends hruns hmsgs hdue), fun ha hvalid hperiod hdue => ⟨fun hgap hmay => .of_run rfl ?_,
    fun hgap hnone => .of_run rfl ?_⟩, fun hdef hgap hmay => .of_run rfl ?_, fun hi hvalid htmo hfresh hdue => .of_run rfl ?_⟩
  case refine_1 =>
    obtain ⟨y, horigin, hasked, -, hy⟩ := c.asmPeriod_wants ha hruns hvalid hperiod hdue
    have hover := (c.gapOver_asmTries (a := a) (x := { c.asm a with periodAt := c.cycles }) true rfl).trans hgap
    rw [hy, Chip.asmWant_goes (c.asmTries a { c.asm a with periodAt := c.cycles } true) y false (by simpa using hvalid) (by simpa using hruns)
      hover (c.asmMay_asmTries true hmay)]
    exact ⟨_, y, rfl, ⟨horigin, hasked⟩, c.asm_begun_asmTries true rfl⟩
  case refine_2 =>
    obtain ⟨y, horigin, hasked, hrewrite, hy⟩ := c.asmPeriod_wants ha hruns hvalid hperiod hdue
    have hwait := (c.gapOver_asmTries (a := a) (x := { c.asm a with periodAt := c.cycles }) true rfl).trans hgap
    rw [hy, Chip.asmWant_waits (c.asmTries a { c.asm a with periodAt := c.cycles } true) y (by simpa using hvalid) (by simpa using hruns) hwait,
      Chip.asm_setAsm_same, Chip.asm_asmTries, horigin, hasked, hrewrite]
    dsimp only
    rw [hnone]
    rfl
  case refine_3 =>
    obtain ⟨y, horigin, hasked, hrewrite, hy⟩ := c.asmGapEnd_sends hdef hgap hruns
    rw [hy, Chip.asmSend_goes (c.asmTries a { c.asm a with deferred := none } asked) y (c.asmMay_asmTries asked hmay)]
    exact ⟨_, y, rfl, ⟨horigin, hasked, hrewrite⟩, c.asm_begun_asmTries asked rfl⟩
  case refine_4 =>
    have hshows := c.staleNoted_shows i
    obtain h | h := c.signalStale_noted i hi hruns hvalid htmo hfresh hdue
    · exact h ▸ ⟨c.staleNoted i, .inl rfl, hshows⟩
    · exact h ▸ ⟨((c.staleNoted i).noSource false).2, .inr ⟨_, rfl⟩, hshows⟩

end Sys2Proof.Machine

/-! Legacy messages at the gateway's door (R215, R216, R230, R233, R236, R240): a message received good joins the input queue, or is dropped by
the mode. -/

namespace Sys2Proof.Machine

open Sys2Proof

/-! ## Fields through events -/

section
variable {c d : Chip} (h : Loud c d)
include h

theorem Loud.is {p : Page} {f : Fld} (hp : pageValid p = true) (hf : f.quietOn p = true) : d.is p f = c.is p f := by
  simp only [Fld.quietOn, Bool.and_eq_true] at hf
  rw [Chip.is, h.get hp hf.1 hf.2, Chip.is]

theorem Loud.mode : d.mode = c.mode := by
  rw [Chip.mode, h.field Chip.dormant fun _ _ _ => rfl, h.get rfl rfl rfl, Chip.mode]

theorem Loud.ready {p : Page} (hp : pageValid p = true) (hf : F.CTRL_EN.quietOn p = true) : d.ready p = c.ready p := by
  rw [Chip.ready, Chip.enabled, Chip.live, h.is hp hf, h.mode, Chip.ready, Chip.enabled, Chip.live]

end

/-! ## The input queue (R216) -/

/-- The gateway's input queue takes a message of this length. -/
def Chip.inqTakes (c : Chip) (n : Nat) : Prop := c.inq.length < 4096 ∧ c.inqBytes + n ≤ 65536

/-- `d` is `c` but for a message `y` of port `q` at the end of the input queue, what GW shows of it, and events. -/
structure Joins (q : Nat) (y : Msg) (stamp : Nat) (c d : Chip) : Prop where
  inq : ∃ i : GwItem, d.inq = c.inq ++ [i] ∧ i.msg = some y ∧ i.port = q ∧ i.stamp = stamp
  mode : d.mode = c.mode
  uarts : d.uarts = c.uarts
  counts : ∀ k, uncounted k = true → d.cntAt k = c.cntAt k

theorem Chip.inqPush_joins (c : Chip) (x : GwItem) {m : Msg} (hm : x.msg = some m) (hroom : c.inqTakes m.data.length) :
    Joins x.port m x.stamp c (c.inqPush x) := by
  have hsize : x.size = m.data.length := by rw [GwItem.size, hm]
  have hfull : ¬ (4096 ≤ c.inq.length ∨ 65536 < c.inqBytes + x.size) := by
    obtain ⟨hlen, hbytes⟩ := hroom
    omega
  have hput : ∀ (e : Chip) (v : Nat), (e.put pGW F.GW_INQ_STATUS_MAX v).mode = e.mode := fun e v => by
    rw [Chip.mode, Chip.mode, Chip.get_put_apart e v rfl rfl (by decide)]
    rfl
  unfold Chip.inqPush
  rw [if_neg hfull]
  dsimp only
  have hjoins : ∀ e : Chip, e.mode = c.mode → e.uarts = c.uarts → e.cnt = c.cnt →
      e.inq = c.inq ++ [{ x with asleep := decide (c.mode = modeSentry) }] → Joins x.port m x.stamp c (e.perf 0x240 1) := fun e hmode huarts hcnt hinq =>
    have hloud := Loud.perf e 0x240 1
    ⟨⟨_, (hloud.field Chip.inq fun _ _ _ => rfl).trans hinq, hm, rfl, rfl⟩, hloud.mode.trans hmode,
      (hloud.field Chip.uarts fun _ _ _ => rfl).trans huarts, fun k hk => by rw [Chip.cntAt_perf_uncounted _ hk, Chip.cntAt, hcnt, Chip.cntAt]⟩
  split
  · exact hjoins _ (hput _ _) rfl rfl rfl
  · exact hjoins _ rfl rfl rfl rfl

theorem Chip.toRoutes_joins (c : Chip) (port : Nat) (m : Msg) (ago : Nat) (hmode : c.mode ≠ modeQuarantine) (hroom : c.inqTakes m.data.length) :
    Joins port m (c.stampAgo ago) c (c.toRoutes port m ago) := by
  rw [Chip.toRoutes, if_neg hmode]
  exact c.inqPush_joins { port := port, msg := some m, ingress := port, origin := port, stamp := c.stampAgo ago
                          time := (c.localTime - ago * c.incr) / 2 ^ 40, valid := c.timeValid, seen := c.mono - 2 * ago } rfl hroom

/-- Outside SENTRY a message wakes nothing; during an entry the wake it would cause is noted. -/
theorem Chip.filterWake_awake (c : Chip) (n : Nat) (m : Msg) (hmode : c.mode ≠ modeSentry) :
    (c.filterWake n m).inq = c.inq ∧ ∀ k, k ≠ cntKey pPWR K.PWR_WAKE_DURING_ENTRY → (c.filterWake n m).cntAt k = c.cntAt k := by
  unfold Chip.filterWake
  rw [if_neg (not_and_of_not_left _ hmode)]
  split_ifs
  · exact ⟨rfl, fun _ _ => rfl⟩
  · exact ⟨rfl, fun _ hk => Chip.cntAt_addCnt_other _ _ _ _ hk⟩
  · exact ⟨rfl, fun _ _ => rfl⟩

/-! ## CAN (R230, R232) -/

/-- The counters of the CAN pages stand above those of the pages before them. -/
theorem canKey_ne {n i k : Nat} (hk : k < 90 * 1024) : cntKey (pCAN n) i ≠ k := by
  have hidx : pageIdx (pCAN n) = 90 + n := rfl
  unfold cntKey
  omega

/-- From `c` to `d` stands what a good frame on channel `n` goes on with, whatever its error counters do: the input queue, the mode, the local
time, the frames received. -/
structure CanHeard (n : Nat) (c d : Chip) : Prop where
  same : ∃ r m o q f l k, d = { c with regs := r, cnt := m, outs := o, cans := q, safeFrames := f, rels := l, free := k }
  regs : ∀ q a, pageValid q = true → a < 0x1000 → quiet q a = true → (q = pCAN n → a ≠ 0x160) → d.reg q a = c.reg q a
  received : d.cntAt (cntKey (pCAN n) K.CAN_RX_FRAMES) = c.cntAt (cntKey (pCAN n) K.CAN_RX_FRAMES)

section
variable {n : Nat} {c d e : Chip}

theorem CanHeard.refl (c : Chip) : CanHeard n c c :=
  ⟨⟨c.regs, c.cnt, c.outs, c.cans, c.safeFrames, c.rels, c.free, rfl⟩, fun _ _ _ _ _ _ => rfl, rfl⟩

theorem CanHeard.ite {P : Prop} [Decidable P] (hd : CanHeard n c d) (he : CanHeard n c e) : CanHeard n c (if P then d else e) := by
  split
  · exact hd
  · exact he

section
variable (h : CanHeard n c d)
include h

theorem CanHeard.shows (hn : n < 16) (g : CanShows n d e) : CanHeard n c e := by
  obtain ⟨⟨r, m, o, q, f, l, k, rfl⟩, hregs, hrx⟩ := h
  obtain ⟨⟨r', m', o', rfl⟩, gregs, gcounts⟩ := g
  exact ⟨⟨r', m', o', q, f, l, k, rfl⟩, fun p a hp ha hq hne => (gregs p a hp ha hq hne).trans (hregs p a hp ha hq hne),
    (gcounts _ (uncounted_pCAN hn (by decide))).trans hrx⟩

theorem CanHeard.setCanState (hn : n < 16) (st : Nat) : CanHeard n c (d.setCanState n st) :=
  h.shows hn ((CanShows.refl d).put hn (f := F.CAN_CAN_STATUS_STATE) st rfl)

theorem CanHeard.raise (hn : n < 16) (b : Nat) : CanHeard n c (d.raise (pCAN n) b) := h.shows hn ((CanShows.refl d).raise hn b)

/-- What waits for channels may change. -/
theorem CanHeard.waiting (q : List (Nat × CanRt)) (f : List SafeFrame) (l : List RelReq) :
    CanHeard n c { d with cans := q, safeFrames := f, rels := l } := by
  obtain ⟨⟨r, m, o, q', f', l', k, rfl⟩, hregs, hrx⟩ := h
  exact ⟨⟨r, m, o, q, f, l, k, rfl⟩, hregs, hrx⟩

theorem CanHeard.takeFree : CanHeard n c d.takeFree.2 := by
  obtain ⟨⟨r, m, o, q, f, l, k, rfl⟩, hregs, hrx⟩ := h
  exact ⟨⟨r, m, o, q, f, l, _, rfl⟩, hregs, hrx⟩

theorem CanHeard.addCnt {p : Page} {i : Nat} (k : Nat) (hne : cntKey (pCAN n) K.CAN_RX_FRAMES ≠ cntKey p i) : CanHeard n c (d.addCnt p i k) := by
  have hcount := d.cntAt_addCnt_other p i k hne
  obtain ⟨⟨r, m, o, q, f, l, v, rfl⟩, hregs, hrx⟩ := h
  exact ⟨⟨r, _, o, q, f, l, v, rfl⟩, hregs, hcount.trans hrx⟩

theorem CanHeard.canDiscard {k : Nat} (hk : k ≠ K.CAN_RX_FRAMES) : CanHeard n c (d.canDiscard n k) := by
  have hown : cntKey (pCAN n) K.CAN_RX_FRAMES ≠ cntKey (pCAN n) k := fun e => hk (Nat.add_left_cancel e).symm
  have hcinch : cntKey (pCAN n) K.CAN_RX_FRAMES ≠ cntKey pCINCH K.CINCH_SAFE_DROP := canKey_ne (by decide)
  unfold Chip.canDiscard
  dsimp only
  have hcounted := fun total => (h.addCnt total hown).waiting
  exact (CanHeard.ite (hcounted ..) ((hcounted ..).addCnt _ hcinch)).waiting _ _ _

theorem CanHeard.busOff (hn : n < 16) : CanHeard n c (d.busOff n) := by
  have hown : cntKey (pCAN n) K.CAN_RX_FRAMES ≠ cntKey (pCAN n) K.CAN_BUS_OFF := fun e => absurd (Nat.add_left_cancel e) (by decide)
  have hdiscarded := (((h.setCanState hn caBUSOFF).addCnt 1 hown).raise hn E.CAN_BUS_OFF).canDiscard (k := K.CAN_TX_BUSOFF_DROP) (by decide)
  exact .ite (.ite (hdiscarded.setCanState hn _) hdiscarded) hdiscarded

theorem CanHeard.canErrorState (hn : n < 16) : CanHeard n c (d.canErrorState n) :=
  .ite (.ite (h.busOff hn) (.ite ((h.setCanState hn _).raise hn _) (.ite (h.setCanState hn _) h))) h

theorem CanHeard.setErrors (hn : n < 16) (tec rxe : Nat) : CanHeard n c (d.setErrors n tec rxe) := by
  rw [Chip.setErrors_eq]
  exact ((h.waiting _ d.safeFrames d.rels).shows hn (d.errorsNoted_shows hn)).canErrorState hn

theorem CanHeard.canRxOk (hn : n < 16) : CanHeard n c (d.canRxOk n) :=
  .ite h (.ite (h.setErrors hn _ _) (h.takeFree.setErrors hn _ _))

end

/-! ### What follows -/

section
variable (h : CanHeard n c d)
include h

theorem CanHeard.field {α : Type} (f : Chip → α)
    (hf : ∀ r m o q g l k, f { c with regs := r, cnt := m, outs := o, cans := q, safeFrames := g, rels := l, free := k } = f c) : f d = f c := by
  obtain ⟨⟨r, m, o, q, g, l, k, rfl⟩, -⟩ := h
  exact hf r m o q g l k

theorem CanHeard.mode : d.mode = c.mode := by
  rw [Chip.mode, h.field Chip.dormant fun _ _ _ _ _ _ _ => rfl, Chip.get, h.regs pPWR _ rfl (by decide) (by decide) nofun, Chip.mode, Chip.get]

theorem CanHeard.stampAgo (ago : Nat) : d.stampAgo ago = c.stampAgo ago := by
  have hincr : d.incr = c.incr := by
    rw [Chip.incr, h.regs pTIME _ rfl (by decide) (by decide) nofun, h.regs pTIME _ rfl (by decide) (by decide) nofun, Chip.incr]
  have hlocal : d.localTime = c.localTime :=
    localTime_congr (h.field Chip.tBase fun _ _ _ _ _ _ _ => rfl) (h.field Chip.tAnchor fun _ _ _ _ _ _ _ => rfl)
      (h.field Chip.tStopped fun _ _ _ _ _ _ _ => rfl) (h.field Chip.cycles fun _ _ _ _ _ _ _ => rfl) hincr
  rw [Chip.stampAgo, hlocal, hincr, Chip.stampAgo]

theorem CanHeard.inqTakes {k : Nat} (hroom : c.inqTakes k) : d.inqTakes k := by
  have hinq : d.inq = c.inq := h.field Chip.inq fun _ _ _ _ _ _ _ => rfl
  rwa [Chip.inqTakes, Chip.inqBytes, hinq]

end

end

/-- The chip once a good frame of a channel has been counted, and the channel's error counters have followed. -/
def Chip.canCounted (c : Chip) (n : Nat) : Chip :=
  (({ c with pwr := { c.pwr with heard := c.cycles } } : Chip).count (pCAN n) K.CAN_RX_FRAMES).canRxOk n

section
variable (c : Chip) {n : Nat} {m : Msg} (ago : Nat)

theorem Chip.canReceive_good (haccepts : c.canAccepts n m = true) (hst : c.canState n = caACTIVE ∨ c.canState n = caPASSIVE) :
    c.canReceive n m ago = ((c.canCounted n).toRoutes (32 + n) m ago).filterWake n m := by
  unfold Chip.canReceive
  rw [if_pos (by simpa [haccepts] using hst)]
  rfl

theorem Chip.canReceive_joins (hn : n < 16) (haccepts : c.canAccepts n m = true) (hst : c.canState n = caACTIVE ∨ c.canState n = caPASSIVE)
    (hquar : c.mode ≠ modeQuarantine) (hsentry : c.mode ≠ modeSentry) (hroom : c.inqTakes m.data.length) : let d := c.canReceive n m ago
    (∃ i : GwItem, d.inq = c.inq ++ [i] ∧ i.msg = some m ∧ i.port = 32 + n ∧ i.stamp = c.stampAgo ago)
      ∧ d.cntAt (cntKey (pCAN n) K.CAN_RX_FRAMES) = c.cntAt (cntKey (pCAN n) K.CAN_RX_FRAMES) + 1 := by
  have hheard : CanHeard n (({ c with pwr := { c.pwr with heard := c.cycles } } : Chip).count (pCAN n) K.CAN_RX_FRAMES) (c.canCounted n) :=
    (CanHeard.refl _).canRxOk hn
  have hmode : (c.canCounted n).mode = c.mode := hheard.mode
  have hinq : (c.canCounted n).inq = c.inq := hheard.field Chip.inq fun _ _ _ _ _ _ _ => rfl
  have hjoins := (c.canCounted n).toRoutes_joins (32 + n) m ago (hmode ▸ hquar) (hheard.inqTakes hroom)
  have hawake := Chip.filterWake_awake ((c.canCounted n).toRoutes (32 + n) m ago) n m (by rwa [hjoins.mode, hmode])
  obtain ⟨i, hi, hmsg, hport, hstamp⟩ := hjoins.inq
  intro d
  rw [show d = _ from c.canReceive_good ago haccepts hst]
  refine ⟨⟨i, ?_, hmsg, hport, hstamp.trans (hheard.stampAgo ago)⟩, ?_⟩
  · rw [hawake.1, hi, hinq]
  · rw [hawake.2 _ (canKey_ne (by decide)), hjoins.counts _ (uncounted_pCAN hn (by decide)), hheard.received]
    exact Chip.cntAt_count_same ..

/-- R240: QUARANTINE drops what a channel receives, and counts it there. -/
theorem Chip.canReceive_quarantined (hn : n < 16) (haccepts : c.canAccepts n m = true) (hst : c.canState n = caACTIVE) (hrxe : (c.canRt n).rxe = 0)
    (hmode : c.mode = modeQuarantine) : let d := c.canReceive n m ago
    d.inq = c.inq ∧ d.cntAt (cntKey (pCAN n) K.CAN_MODE_DROP) = c.cntAt (cntKey (pCAN n) K.CAN_MODE_DROP) + 1 := by
  let e : Chip := ({ c with pwr := { c.pwr with heard := c.cycles } } : Chip).count (pCAN n) K.CAN_RX_FRAMES
  have hcounted : c.canCounted n = e := if_pos hrxe
  have hport : isCan (32 + n) = true := decide_eq_true ⟨by omega, by omega⟩
  have hpage : chanPage (32 + n) = pCAN n := by
    rw [chanPage, if_pos (by omega), Nat.add_sub_cancel_left]
  have hdropped : e.toRoutes (32 + n) m ago = e.count (pCAN n) K.CAN_MODE_DROP := by
    rw [Chip.toRoutes, if_pos (show e.mode = _ from hmode), Chip.modeDrop, if_neg (by omega), Chip.chanCount, if_pos hport, hpage]
  have hsentry : (e.count (pCAN n) K.CAN_MODE_DROP).mode ≠ modeSentry := by
    rw [show (e.count (pCAN n) K.CAN_MODE_DROP).mode = _ from hmode]
    decide
  obtain ⟨hinq, hcnt⟩ := Chip.filterWake_awake _ n m hsentry
  intro d
  rw [show d = _ from c.canReceive_good ago haccepts (.inl hst), hcounted, hdropped]
  refine ⟨hinq, ?_⟩
  rw [hcnt _ (canKey_ne (by decide)), Chip.cntAt_count_same, Chip.cntAt_count_slot _ _ (by decide)]
  rfl

end

/-! ## LIN (R233) -/

/-- A response of a subscribed ID, received whole. -/
theorem Chip.linFrame_joins (c : Chip) {n : Nat} {m : Msg} (ago : Nat) (hn : n < 8) (hready : c.ready (pLIN n) = true)
    (hst : c.linState n = liIDLE ∨ c.linState n = liRUN) (hid : m.id < 64) (hsub : c.tis (pLIN n) 0 m.id fFcSubscribe = true)
    (hm : m = { kind := .lin, id := m.id, data := m.data }) (hlen : m.data.length = c.tget (pLIN n) 0 m.id fFcLen)
    (hmode : c.mode ≠ modeQuarantine) (hroom : c.inqTakes m.data.length) : let d := c.linFrame n m.id (.data m.data) ago
    (∃ i : GwItem, d.inq = c.inq ++ [i] ∧ i.msg = some m ∧ i.port = 48 + n ∧ i.stamp = c.stampAgo ago)
      ∧ d.cntAt (cntKey (pLIN n) K.LIN_RX_FRAMES) = c.cntAt (cntKey (pLIN n) K.LIN_RX_FRAMES) + 1 := by
  have hmod : m.id % 64 = m.id := Nat.mod_eq_of_lt hid
  have htakes : (c.ready (pLIN n) && (decide (c.linState n = liIDLE) || decide (c.linState n = liRUN))
      && c.tis (pLIN n) 0 (m.id % 64) fFcSubscribe) = true := by simpa [hready, hmod, hsub] using hst
  have hheard : c.linFrame n m.id (.data m.data) ago = (c.count (pLIN n) K.LIN_RX_FRAMES).toRoutes (48 + n) m ago := by
    rw [Chip.linFrame, if_pos htakes, hmod]
    unfold Chip.linReceive
    dsimp only
    rw [if_neg (by omega), ← hlen, List.take_length, ← hm]
  have hjoins := (c.count (pLIN n) K.LIN_RX_FRAMES).toRoutes_joins (48 + n) m ago hmode hroom
  have hidx : pageIdx (pLIN n) = 106 + n := rfl
  intro d
  rw [show d = _ from hheard]
  exact ⟨hjoins.inq, (hjoins.counts _ (uncounted_legacy (by omega) (by decide))).trans (Chip.cntAt_count_same ..)⟩

/-! ## UART (R236) -/

@[simp] theorem Chip.uartRt_setUart_same (c : Chip) (n : Nat) (x : UartRt) : (c.setUart n x).uartRt n = x := lookupD_store_same ..

section
variable {c : Chip} {n : Nat}

/-- A character of a message without a frame of its own, where it is not too long: it joins the message, whose stamp is its first one's. -/
theorem Chip.uartByte_joins (ago : Nat) (b : Byte) (hmode : c.get (pUART n) F.UART_UART_FRAME_MODE = 0)
    (hdata : c.get (pUART n) F.UART_UART_CFG_DATA ≠ 0) (hbad : (c.uartRt n).rxBad = false) (hroom : (c.uartRt n).rx.length < 256) :
    ∃ x : UartRt, c.uartByte n ago b = c.setUart n x ∧ x.rx = (c.uartRt n).rx ++ [b] ∧ x.rxBad = false
      ∧ x.stamp = if (c.uartRt n).rx = [] then c.stampAgo ago else (c.uartRt n).stamp := by
  have hwhole : ∀ (x : UartRt) rx, (c.setUart n x).uartWhole n rx = false := fun x rx => by
    have hmode' : (c.setUart n x).get (pUART n) F.UART_UART_FRAME_MODE = 0 := hmode
    unfold Chip.uartWhole
    dsimp only
    rw [hmode']
    rfl
  have hshort : ¬ 256 ≤ (c.uartRt n).rx.length := by omega
  unfold Chip.uartByte
  by_cases hfirst : (c.uartRt n).rx = []
  · simp only [hfirst, hbad, Bool.false_eq_true, not_false_eq_true, and_self, if_true, if_false, List.length_nil, nonpos_iff_eq_zero,
      OfNat.ofNat_ne_zero, decide_false, and_true, hdata, List.nil_append, Bool.or_self, hwhole]
    exact ⟨_, rfl, rfl, rfl, rfl⟩
  · simp only [hfirst, hbad, Bool.false_eq_true, not_false_eq_true, and_true, if_false, hshort, decide_false, hdata, Bool.or_self, hwhole]
    exact ⟨_, rfl, rfl, rfl, rfl⟩

/-- One character of a run, with its number: each starts `step` cycles after the one before it. -/
def uartNext (n ago step : Nat) (a : Chip × Nat) (b : Byte) : Chip × Nat := (a.1.uartByte n (ago - a.2 * step) b, a.2 + 1)

/-- Further characters of a message leave its stamp. -/
theorem Chip.uartMore_joins (ago step : Nat) (chars : List Byte) (hmode : c.get (pUART n) F.UART_UART_FRAME_MODE = 0)
    (hdata : c.get (pUART n) F.UART_UART_CFG_DATA ≠ 0) (k : Nat) (hbad : (c.uartRt n).rxBad = false) (hsome : (c.uartRt n).rx ≠ [])
    (hroom : (c.uartRt n).rx.length + chars.length ≤ 256) : ∃ u, let d := (chars.foldl (uartNext n ago step) (c, k)).1
      d = { c with uarts := u } ∧ (d.uartRt n).rx = (c.uartRt n).rx ++ chars ∧ (d.uartRt n).rxBad = false
        ∧ (d.uartRt n).stamp = (c.uartRt n).stamp := by
  induction chars generalizing c k with
  | nil => exact ⟨c.uarts, rfl, (List.append_nil _).symm, hbad, rfl⟩
  | cons b l ih =>
    simp only [List.length_cons] at hroom
    obtain ⟨x, hx, hrx, hxbad, hstamp⟩ := c.uartByte_joins (ago - k * step) b hmode hdata hbad (by omega)
    rw [if_neg hsome] at hstamp
    have hrt := c.uartRt_setUart_same n x
    obtain ⟨u, hu, hall, hgood, hkept⟩ := ih (c := c.setUart n x) hmode hdata (k + 1) (hrt.symm ▸ hxbad) (by simp [hrt, hrx])
      (by simp only [hrt, hrx, List.length_append, List.length_singleton]; omega)
    have hfold : (b :: l).foldl (uartNext n ago step) (c, k) = l.foldl (uartNext n ago step) (c.setUart n x, k + 1) := by
      rw [List.foldl_cons, uartNext, hx]
    refine ⟨u, ?_⟩
    rw [hfold]
    exact ⟨hu, by rw [hall, hrt, hrx, List.append_assoc]; rfl, hgood, by rw [hkept, hrt, hstamp]⟩

/-- A run of characters on an idle line is a message with the stamp of its first one. -/
theorem Chip.uartRun_joins (ago step : Nat) {chars : List Byte} (hmode : c.get (pUART n) F.UART_UART_FRAME_MODE = 0)
    (hdata : c.get (pUART n) F.UART_UART_CFG_DATA ≠ 0) (hbad : (c.uartRt n).rxBad = false) (hnone : (c.uartRt n).rx = [])
    (hchars : chars ≠ []) (hroom : chars.length ≤ 256) : ∃ u, let d := (chars.foldl (uartNext n ago step) (c, 0)).1
      d = { c with uarts := u } ∧ (d.uartRt n).rx = chars ∧ (d.uartRt n).rxBad = false ∧ (d.uartRt n).stamp = c.stampAgo ago := by
  obtain ⟨b, l, rfl⟩ := List.exists_cons_of_ne_nil hchars
  simp only [List.length_cons] at hroom
  obtain ⟨x, hx, hrx, hxbad, hstamp⟩ := c.uartByte_joins (ago - 0 * step) b hmode hdata hbad (by simp [hnone])
  rw [if_pos hnone, Nat.zero_mul, Nat.sub_zero] at hstamp
  rw [hnone, List.nil_append] at hrx
  have hrt := c.uartRt_setUart_same n x
  obtain ⟨u, hu, hall, hgood, hkept⟩ := (c.setUart n x).uartMore_joins ago step l hmode hdata 1 (hrt.symm ▸ hxbad) (by simp [hrt, hrx])
    (by simp only [hrt, hrx, List.length_singleton]; omega)
  have hfold : (b :: l).foldl (uartNext n ago step) (c, 0) = l.foldl (uartNext n ago step) (c.setUart n x, 1) := by
    rw [List.foldl_cons, uartNext, hx]
  refine ⟨u, ?_⟩
  rw [hfold]
  exact ⟨hu, by rw [hall, hrt, hrx]; rfl, hgood, by rw [hkept, hrt, hstamp]⟩

/-- A whole message goes to the routes. -/
theorem Chip.uartEnd_joins {m : Msg} (hn : n < 4) (hm : m = { kind := .uart, data := (c.uartRt n).rx }) (hbad : (c.uartRt n).rxBad = false)
    (hsome : (c.uartRt n).rx ≠ []) (hmode : c.mode ≠ modeQuarantine) (hroom : c.inqTakes m.data.length) : let d := c.uartEnd n
      (∃ i : GwItem, d.inq = c.inq ++ [i] ∧ i.msg = some m ∧ i.port = 56 + n ∧ i.stamp = (c.uartRt n).stamp) ∧ (d.uartRt n).rx = []
        ∧ d.cntAt (cntKey (pUART n) K.UART_RX_MSGS) = c.cntAt (cntKey (pUART n) K.UART_RX_MSGS) + 1 := by
  let e := (c.setUart n { c.uartRt n with rx := [], rxBad := false }).count (pUART n) K.UART_RX_MSGS
  have hend : c.uartEnd n = e.inqPush { port := 56 + n, msg := some m, ingress := 56 + n, origin := 56 + n, stamp := (c.uartRt n).stamp
                                        time := (c.uartRt n).time, valid := (c.uartRt n).valid, seen := (c.uartRt n).seen } := by
    unfold Chip.uartEnd
    dsimp only
    rw [if_neg (by simp [hbad, hsome]), if_neg (show e.mode ≠ modeQuarantine from hmode), hm]
  have hjoins := e.inqPush_joins { port := 56 + n, msg := some m, ingress := 56 + n, origin := 56 + n, stamp := (c.uartRt n).stamp
                                   time := (c.uartRt n).time, valid := (c.uartRt n).valid, seen := (c.uartRt n).seen } rfl hroom
  have hidx : pageIdx (pUART n) = 114 + n := rfl
  intro d
  rw [show d = _ from hend]
  refine ⟨hjoins.inq, ?_, (hjoins.counts _ (uncounted_legacy (by omega) (by decide))).trans (Chip.cntAt_count_same ..)⟩
  rw [Chip.uartRt, hjoins.uarts]
  exact congrArg UartRt.rx (c.uartRt_setUart_same ..)

/-- A line of a channel without a driver enable, that was idle before a run of good characters and is idle after it for a gap. -/
theorem Chip.uartRx_joins {chars : List Byte} {m : Msg} {idle : Nat} (ago : Nat) (hn : n < 4) (hready : c.ready (pUART n) = true)
    (hclk : c.clkSafe = false) (hde : c.is (pUART n) F.UART_RS485_CFG_EN = false) (hmode : c.get (pUART n) F.UART_UART_FRAME_MODE = 0)
    (hdata : c.get (pUART n) F.UART_UART_CFG_DATA ≠ 0) (hgap : c.get (pUART n) F.UART_UART_FRAME_GAP_BITS ≤ idle) (hnone : (c.uartRt n).rx = [])
    (hbad : (c.uartRt n).rxBad = false) (hchars : chars ≠ []) (hlen : chars.length ≤ 256) (hm : m = { kind := .uart, data := chars })
    (hquar : c.mode ≠ modeQuarantine) (hroom : c.inqTakes m.data.length) : let d := c.uartRx n chars false false idle ago
      (∃ i : GwItem, d.inq = c.inq ++ [i] ∧ i.msg = some m ∧ i.port = 56 + n ∧ i.stamp = c.stampAgo ago) ∧ (d.uartRt n).rx = []
        ∧ d.cntAt (cntKey (pUART n) K.UART_RX_MSGS) = c.cntAt (cntKey (pUART n) K.UART_RX_MSGS) + 1 := by
  let e := c.setUart n { c.uartRt n with lastRx := c.cycles, rxBad := false }
  have hrt : e.uartRt n = { c.uartRt n with lastRx := c.cycles, rxBad := false } := c.uartRt_setUart_same ..
  obtain ⟨u, hu, hrx, hgood, hstamp⟩ := e.uartRun_joins ago (e.uartBits n (e.uartChar n)) hmode hdata (by rw [hrt]) (by rw [hrt]; exact hnone)
    hchars hlen
  have hecho : (c.is (pUART n) F.UART_RS485_CFG_ECHO_SUPPRESS && c.uartDeSince n ago) = false := by
    rw [Chip.uartDeSince, hde, Bool.false_and, Bool.and_false]
  rw [hu] at hrx hgood hstamp
  have he : e = c.setUart n { c.uartRt n with lastRx := c.cycles, rxBad := (c.uartRt n).rxBad || false || false } := by
    rw [hbad]
    rfl
  have hfold : (chars.foldl (fun (a : Chip × Nat) b => (a.1.uartByte n (ago - a.2 * e.uartBits n (e.uartChar n)) b, a.2 + 1)) (e, 0)).1
      = { e with uarts := u } := hu
  have hend : c.uartRx n chars false false idle ago = ({ e with uarts := u } : Chip).uartEnd n := by
    have hshort : decide (({ e with uarts := u } : Chip).get (pUART n) F.UART_UART_FRAME_MODE ≠ 0) = false := decide_eq_false (not_not_intro hmode)
    unfold Chip.uartRx
    dsimp only
    rw [if_neg (by simp [hn, hready, hclk, hecho]), if_neg Bool.false_ne_true, if_neg Bool.false_ne_true, ← he, hfold,
      if_pos (show ({ e with uarts := u } : Chip).get (pUART n) F.UART_UART_FRAME_GAP_BITS ≤ idle from hgap), hshort, Bool.false_and,
      if_neg Bool.false_ne_true]
  have hd := ({ e with uarts := u } : Chip).uartEnd_joins (m := m) hn (by rw [hrx, hm]) hgood (by rwa [hrx]) hquar hroom
  rw [hstamp] at hd
  exact hend ▸ hd

end

end Sys2Proof.Machine

/-! The head of the gateway's input queue is routed (R215, R217, R218, R220): a CAN message without a route, and one whose route leads to a CAN
channel, where neither fencing nor Bridle judges it. -/

namespace Sys2Proof.Machine

open Sys2Proof

/-! ## Routes (R218, R240) -/

section
variable {c d : Chip} (h : Loud c d)
include h

theorem Loud.ro (r : Nat) (f : TFld) : d.ro r f = c.ro r f := h.field (fun d => d.ro r f) fun _ _ _ => rfl

theorem Loud.modeRoute (m r : Nat) : d.modeRoute m r = c.modeRoute m r := by
  have hheld : ∀ cls, d.heldClass cls = c.heldClass cls := fun cls => by
    rw [Chip.heldClass, h.get rfl rfl rfl, Chip.heldClass]
  rw [Chip.modeRoute, Chip.modeTakesIn, hheld, h.field Chip.bootFail fun _ _ _ => rfl, h.ro, h.ro, h.ro, Chip.modeRoute, Chip.modeTakesIn]

theorem Loud.itemMode (x : GwItem) : d.itemMode x = c.itemMode x := by
  rw [Chip.itemMode, h.mode, Chip.itemMode]

theorem Loud.canFormat {n : Nat} (hn : n < 16) (m : Msg) : d.canFormat n m = c.canFormat n m := by
  rw [Chip.canFormat, h.is (pageValid_pCAN hn) rfl, h.is (pageValid_pCAN hn) rfl, Chip.canFormat]

theorem Loud.canTakes {n : Nat} (hn : n < 16) : d.canTakes n = c.canTakes n := by
  rw [Chip.canTakes, Chip.canState, h.get (pageValid_pCAN hn) rfl rfl, h.is (pageValid_pCAN hn) rfl, Chip.canTakes, Chip.canState]

theorem Loud.ramRoom {n : Nat} (hn : n < 16) (m : Msg) : d.ramRoom (32 + n) m = c.ramRoom (32 + n) m := by
  have hused : d.ramUsed (32 + n) = c.ramUsed (32 + n) := h.field (fun d => d.ramUsed (32 + n)) fun _ _ _ => rfl
  have hshare : d.ramShare (32 + n) = c.ramShare (32 + n) := by
    rw [Chip.ramShare, if_pos (by omega), Nat.add_sub_cancel_left, h.get (pageValid_pCAN hn) rfl rfl, Chip.ramShare, if_pos (by omega),
      Nat.add_sub_cancel_left]
  rw [Chip.ramRoom, hused, hshare, Chip.ramRoom]

end

/-- The routes that match a message. -/
def Chip.routesFor (c : Chip) (w : Way) : List Nat := (tblIndices c.tblA pGW 0).filter (c.routeMatches w)

section
variable (c : Chip) {w : Way}

theorem Chip.routesFor_perf : (c.perf 0x241 1).routesFor w = c.routesFor w :=
  (Loud.perf c 0x241 1).field (fun d => d.routesFor w) fun _ _ _ => rfl

theorem Chip.routesOf_none (h : c.routesFor w = []) : c.routesOf w = (c.perf 0x241 1, []) := by
  have hnone := c.routesFor_perf.trans h
  rw [Chip.routesFor] at hnone
  unfold Chip.routesOf
  simp only [hnone, List.length_nil, List.take_nil, List.foldl_nil]
  rfl

theorem Chip.routesOf_one {r : Nat} (h : c.routesFor w = [r]) : c.routesOf w = ((c.perf 0x241 1).tcount pGW 8 r 0, [r]) := by
  have hone := c.routesFor_perf.trans h
  rw [Chip.routesFor] at hone
  unfold Chip.routesOf
  simp only [hone]
  rfl

/-- A route that the mode takes stays; SENTRY counts that it has blocked none. -/
theorem Chip.modeRoutes_one {x : GwItem} {r : Nat} (ingress : Nat) (h : c.modeRoute (c.itemMode x) r = true) :
    ∃ d, c.modeRoutes x ingress [r] = (d, [r]) ∧ Loud c d := by
  have hleft : [r].filter (c.modeRoute (c.itemMode x)) = [r] := by simp [h]
  have hcut : [r].filter (fun r => !c.modeRoute (c.itemMode x) r) = [] := by simp [h]
  unfold Chip.modeRoutes
  simp only [hleft, hcut, List.foldl_nil]
  refine ⟨_, rfl, ?_⟩
  split
  · exact (Calm.addCnt ..).loud
  · exact (Calm.refl c).loud

end

/-! ## A copy on a CAN channel (R220, R231) -/

theorem bitList_channel {n : Nat} (hn : n < 16) : bitList (2 ^ n) 16 = [n] := by
  have hall : ∀ k < 16, bitList (2 ^ k) 16 = [k] := by decide
  exact hall n hn

section
variable (c : Chip) {n : Nat}

theorem Chip.canEnqueue_room (t : TxMsg) (htakes : c.canTakes n = true) (hroom : c.ramRoom (32 + n) t.msg = true) :
    ∃ d, c.canEnqueue n t = (d, true) ∧ d.inq = c.inq ∧ (d.canRt n).queue = (c.canRt n).queue ++ [{ t with at' := c.cycles }] := by
  unfold Chip.canEnqueue
  rw [if_neg (not_not_intro htakes), if_neg (not_not_intro hroom)]
  refine ⟨_, rfl, ?_, ?_⟩
  · split <;> rfl
  · split <;> exact congrArg CanRt.queue (c.canRt_setCan_same ..)

theorem Chip.bridle_off (h : c.ready pBRIDLE = false) (x : Subject) (far : Nat) : c.bridle x far = (c, { pass := true }) := by
  rw [Chip.bridle, if_pos (by simp [h])]

theorem Chip.toCan_off (x : GwItem) {m : Msg} (t : Msg → TxMsg) (hbridle : c.ready pBRIDLE = false) (hformat : c.canFormat n m = true) :
    c.toCan x n (some m) t none = c.canEnqueue n (t m) := by
  unfold Chip.toCan
  dsimp only
  rw [if_neg (not_not_intro hformat), Chip.gwEgress, c.bridle_off hbridle]

/-- One untimed route to one CAN channel. -/
theorem Chip.actRoutes_can {w : Way} {r : Nat} {m : Msg} (hn : n < 16) (hdst : c.ro r fRoDst = 0) (hcans : c.ro r fRoCans = 2 ^ n)
    (htimed : c.ro r fRoTimed = 0) (hbridle : c.ready pBRIDLE = false)
    (hm : formatted (c.ro r fRoFormat) (c.ro r fRoBrs = 1) (c.ro r fRoPad) (c.translated r w.msg) = some m) (hformat : c.canFormat n m = true)
    (htakes : c.canTakes n = true) (hroom : c.ramRoom (32 + n) m = true) : let d := c.actRoutes w [r] false
    d.inq = c.inq ∧ (d.canRt n).queue.map TxMsg.msg = (c.canRt n).queue.map TxMsg.msg ++ [m] := by
  let t : TxMsg := { msg := m, cls := c.ro r fRoClass, actuating := decide (c.ro r fRoActuating = 1), diag := decide (c.ro r fRoDiag = 1) }
  obtain ⟨d, hd, hinq, hqueue⟩ := c.canEnqueue_room t htakes hroom
  have hdeliver : c.deliver w r {} none = (d, { left := true }) := by
    unfold Chip.deliver
    dsimp only
    rw [hdst, hcans, bitList_channel hn]
    simp only [List.foldl_cons, List.foldl_nil, hm]
    rw [c.toCan_off _ _ hbridle hformat, hd]
    rfl
  have hact : c.actRoute w {} r = (d, { left := true }) := by
    rw [Chip.actRoute, if_pos (.inl htimed), hdeliver]
  have hacts : c.actRoutes w [r] false = d := by
    unfold Chip.actRoutes
    have hsigs : [r].filter (fun r => decide (c.ro r fRoDst = 4)) = [] := by simp [hdst]
    have hupdate : c.updateSigs [] w.msg.data = (c, []) := by
      unfold Chip.updateSigs
      simp
    simp only [hsigs, List.map_nil, List.flatten_nil, hupdate, List.foldl_cons, List.foldl_nil, hact]
    rfl
  intro e
  rw [show e = d from hacts]
  refine ⟨hinq, ?_⟩
  rw [hqueue, List.map_append]
  rfl

end

/-! ## A CAN message at the head of the queue (R215) -/

section
variable (c : Chip) {x : GwItem} {m : Msg}

theorem Chip.gwLegacy_lost (hkind : m.kind = .can) (hport : isCan x.port = true) (h : c.routesFor { item := x, kind := 0, msg := m } = []) :
    c.gwLegacy x m = (c.perf 0x241 1).count (chanPage x.port) K.CAN_NO_ROUTE := by
  unfold Chip.gwLegacy
  simp only [hkind, c.routesOf_none h]
  rw [Chip.chanCount, if_pos hport]

/-- One route takes the message, and nothing on the way to it judges it. -/
theorem Chip.gwLegacy_one {r : Nat} (hkind : m.kind = .can) (h : c.routesFor { item := x, kind := 0, msg := m } = [r])
    (hmode : c.modeRoute (c.itemMode x) r = true) (hunits : c.ready pUNITS = false) (hbridle : c.ready pBRIDLE = false) :
    ∃ d y, c.gwLegacy x m = d.actRoutes { item := y, kind := 0, msg := m } [r] false ∧ Loud c d := by
  have hcounted : Loud c ((c.perf 0x241 1).tcount pGW 8 r 0) := (Loud.perf c 0x241 1).trans (Calm.tcount ..).loud
  obtain ⟨d, hd, hloud⟩ := ((c.perf 0x241 1).tcount pGW 8 r 0).modeRoutes_one (x := x) x.port (by rwa [hcounted.modeRoute, hcounted.itemMode])
  have hall := hcounted.trans hloud
  have hunits' : d.ready pUNITS = false := (hall.ready rfl rfl).trans hunits
  have hbridle' : d.ready pBRIDLE = false := (hall.ready rfl rfl).trans hbridle
  have hfence : ∀ keys, d.fence keys = .pass [] := fun keys => by
    rw [Chip.fence, if_pos (by simp [hunits'])]
  have hhandle : ∀ port bytes msg vid, d.identify port bytes msg vid = none := fun port bytes msg vid => by
    rw [Chip.identify, if_pos (by simp [hbridle'])]
  unfold Chip.gwLegacy
  simp only [hkind, c.routesOf_one h, hd]
  generalize (if isCan x.port = true then claimName m else none) = name
  cases name <;> simp only [hunits', Bool.false_eq_true, if_false, hfence, ite_self, hhandle, d.bridle_off hbridle', if_true] <;>
    exact ⟨d, _, rfl, hall⟩

/-- The head of the queue leaves it for its routes. -/
theorem Chip.gwProcess_legacy {xs : List GwItem} (hruns : c.gwRuns = true) (hinq : c.inq = x :: xs) (hm : x.msg = some m) :
    c.gwProcess = ({ c with inq := xs } : Chip).gwLegacy x m := by
  rw [Chip.gwProcess, if_neg (not_not_intro hruns), hinq]
  dsimp only
  rw [hm]

end

end Sys2Proof.Machine

/-! Legacy messages through the gateway, put together; the addresses that firmware claims for network interconnects (R239). -/

namespace Sys2Proof.Machine

open Sys2Proof

/-! ## Address claims (R239) -/

@[simp] theorem Chip.niu_setNiu_same (c : Chip) (k : Nat) (x : NiuRt) : (c.setNiu k x).niu k = x := lookupD_store_same ..

theorem Chip.nius_canEnqueue (c : Chip) (n : Nat) (t : TxMsg) : (c.canEnqueue n t).1.nius = c.nius := by
  unfold Chip.canEnqueue
  dsimp only
  split_ifs <;> rfl

/-- What an interconnect sends leaves its addresses. -/
theorem Chip.niu_niuSend (c : Chip) (inst n sa k : Nat) : (c.niuSend inst n sa).niu k = c.niu k := by
  rw [Chip.niu, Chip.niuSend, Chip.nius_canEnqueue, Chip.niu]

section
variable (c : Chip) {inst member port : Nat} (hinst : inst < 8) (hvalid : c.ni inst fNiValid = 1) (hfw : c.fwRuns = true) (hruns : c.gwRuns = true)
  (hport : (bitList (c.ni inst fNiChannels) 16)[member]? = some port)
include hinst hvalid hfw hruns hport

theorem Chip.niuClaim_claims (h : (c.niu (inst * 4 + member)).state = 0) :
    (c.niuClaim inst member .claim).niu (inst * 4 + member) = { sa := c.ni inst fNiPref, state := 1 } := by
  unfold Chip.niuClaim
  simp only [hport]
  rw [if_neg (not_not_intro ⟨hinst, hvalid, hfw, hruns⟩)]
  simp [h, Chip.niu_niuSend]

theorem Chip.niuClaim_wins (h : (c.niu (inst * 4 + member)).state = 1) :
    (c.niuClaim inst member .won).niu (inst * 4 + member) = { c.niu (inst * 4 + member) with state := 2 } := by
  unfold Chip.niuClaim
  simp only [hport]
  rw [if_neg (not_not_intro ⟨hinst, hvalid, hfw, hruns⟩)]
  simp [h]

/-- An interconnect that does not configure itself has no other address. -/
theorem Chip.niuClaim_loses (h : (c.niu (inst * 4 + member)).state = 1 ∨ (c.niu (inst * 4 + member)).state = 2) (hself : c.ni inst fNiSelf = 0) :
    let d := c.niuClaim inst member .lost
    d.niu (inst * 4 + member) = { sa := 254, state := 3 } ∧ d.latched pGW E.GW_NIU_CLAIM := by
  have hlost : c.niuClaim inst member .lost
      = ((c.setNiu (inst * 4 + member) { sa := 254, state := 3 }).niuSend inst port 254).raise pGW E.GW_NIU_CLAIM := by
    unfold Chip.niuClaim
    simp only [hport]
    rw [if_neg (not_not_intro ⟨hinst, hvalid, hfw, hruns⟩), if_neg (by omega), if_neg (by omega)]
  intro d
  rw [show d = _ from hlost]
  refine ⟨?_, Chip.latched_raise _ rfl (by decide)⟩
  rw [Chip.raise_field _ _ rfl (fun d => d.niu (inst * 4 + member)) fun _ _ _ => rfl, Chip.niu_niuSend, Chip.niu_setNiu_same]

end

/-! ## What arrives -/

theorem Chip.legacyRx_can (c : Chip) {n : Nat} (m : Msg) (ago : Nat) (hn : n < 16) : c.legacyRx (32 + n) (.can m) ago = c.canReceive n m ago := by
  rw [Chip.legacyRx, if_pos (decide_eq_true ⟨by omega, by omega⟩), Nat.add_sub_cancel_left]

theorem Chip.legacyRx_lin (c : Chip) {n : Nat} (id : Nat) (r : LinResponse) (ago : Nat) (hn : n < 8) :
    c.legacyRx (48 + n) (.lin id r) ago = c.linFrame n id r ago := by
  rw [Chip.legacyRx, if_pos (decide_eq_true ⟨by omega, by omega⟩), Nat.add_sub_cancel_left]

theorem Chip.legacyRx_uart (c : Chip) {n : Nat} (chars : List Byte) (idle ago : Nat) (hn : n < 4) :
    c.legacyRx (56 + n) (.uart chars false false idle) ago = c.uartRx n chars false false idle ago := by
  rw [Chip.legacyRx, if_pos (decide_eq_true ⟨by omega, by omega⟩), Nat.add_sub_cancel_left]

/-- Settles O26: what joins the queue, what the mode drops, where the one route leads, and the claims of addresses. -/
theorem gatewayMessages : Obligations.GatewayMessages := by
  intro s dt n ago port r k idle req chars m m' x xs c joined way routes inst
  refine ⟨fun hquar hsentry _ hlen hbytes => ⟨fun hn haccepts hst => .of_run rfl ?_, fun hn hready hst hid hsub hm hdata => .of_run rfl ?_,
      fun hn hready hclk hde hmode hdata hgap hnone hbad hchars hshort hm => .of_run rfl ?_⟩,
    fun hn hquar haccepts hst hrxe => .of_run rfl ?_,
    fun hruns hinq hmsg hkind hcan => ⟨fun hnone => .of_run rfl ?_,
      fun hone hmode hunits hbridle hn hdst hcans htimed hm hformat htakes hroom => .of_run rfl ?_⟩,
    fun htakes => .of_run rfl ?_, fun hinst hvalid hfw hruns hport => ?_⟩
  case refine_1 =>
    rw [c.legacyRx_can m ago hn]
    exact c.canReceive_joins ago hn haccepts hst hquar hsentry ⟨hlen, hbytes⟩
  case refine_2 =>
    rw [c.legacyRx_lin m.id _ ago hn]
    exact c.linFrame_joins ago hn hready hst hid hsub hm hdata hquar ⟨hlen, hbytes⟩
  case refine_3 =>
    rw [c.legacyRx_uart chars idle ago hn]
    exact Chip.uartRx_joins ago hn hready hclk hde hmode hdata hgap hnone hbad hchars hshort hm hquar ⟨hlen, hbytes⟩
  case refine_4 =>
    rw [c.legacyRx_can m ago hn]
    exact c.canReceive_quarantined ago hn haccepts hst hrxe hquar
  case refine_5 =>
    have hlost := ({ c with inq := xs } : Chip).gwLegacy_lost (x := x) hkind hcan hnone
    have hcount : uncounted (cntKey (chanPage x.port) K.CAN_NO_ROUTE) = true := by
      have hrange := of_decide_eq_true hcan
      rw [chanPage, if_pos hrange.2]
      exact uncounted_pCAN (by omega) (by decide)
    rw [c.gwProcess_legacy hruns hinq hmsg, hlost]
    refine ⟨(Loud.perf _ 0x241 1).field Chip.inq fun _ _ _ => rfl, ?_⟩
    rw [Chip.cntAt_count_same, Chip.cntAt_perf_uncounted _ hcount]
    rfl
  case refine_6 =>
    obtain ⟨d, y, hd, hloud⟩ := ({ c with inq := xs } : Chip).gwLegacy_one (x := x) hkind hone hmode hunits hbridle
    have htranslated : d.translated r m = c.translated r m := hloud.field (fun d => d.translated r m) fun _ _ _ => rfl
    have hsent := d.actRoutes_can (w := { item := y, kind := 0, msg := m }) (r := r) (m := m') hn ((hloud.ro r _).trans hdst)
      ((hloud.ro r _).trans hcans) ((hloud.ro r _).trans htimed) ((hloud.ready rfl rfl).trans hbridle)
      (by rw [hloud.ro, hloud.ro, hloud.ro, htranslated]; exact hm) ((hloud.canFormat hn m').trans hformat) ((hloud.canTakes hn).trans htakes)
      ((hloud.ramRoom hn m').trans hroom)
    obtain ⟨hinq', hqueue⟩ := hsent
    rw [c.gwProcess_legacy hruns hinq hmsg, hd]
    refine ⟨hinq'.trans (hloud.field Chip.inq fun _ _ _ => rfl), hqueue.trans ?_⟩
    rw [canRt_congr (hloud.field Chip.cans fun _ _ _ => rfl)]
    rfl
  case refine_7 =>
    rw [c.command_ok htakes rfl]
    exact Chip.get_put_same _ 0 rfl rfl rfl
  case refine_8 =>
    have hk : inst * 4 + k % 4 = k := by omega
    refine ⟨fun h => .of_run rfl ?_, fun h => .of_run rfl ?_, fun h hself => .of_run rfl ?_⟩
    · simpa only [hk] using c.niuClaim_claims hinst hvalid hfw hruns hport (by rwa [hk])
    · simpa only [hk] using c.niuClaim_wins hinst hvalid hfw hruns hport (by rwa [hk])
    · simpa only [hk] using c.niuClaim_loses hinst hvalid hfw hruns hport (by rwa [hk]) hself

end Sys2Proof.Machine

/-! The mask of the PCI Express function (R260). Nothing reaches the bridge while no interface answers (R1, R331), and the mask stays as it was; the
statement about its unmasking names no such state. -/

namespace Sys2Proof.Machine

open Sys2Proof

theorem Chip.unmaskFunction_dark {c : Chip} (h : c.dark = true) : c.unmaskFunction = c := if_pos h

/-- Reset, in DORMANT, with the mask of the PCI Express function set. -/
def State.dormantMasked : State :=
  { State.reset with chip := { State.reset.chip.put pHOST F.HOST_PCIE_STATUS_FUNC_MASK 1 with dormant := true } }

set_option maxRecDepth 4000 in
/-- Refutes O28: in DORMANT the host's write to the mask of the function is not taken, and the mask stays set. -/
theorem not_hostBridge : ¬ Obligations.HostBridge := by
  intro h
  obtain ⟨-, -, -, hunmasks, -⟩ := h State.dormantMasked 0 0 0 0 0 .flr .pcie false false false ⟨0, 0, 0, .pcie, 0, 0⟩ [] ⟨0, 0, 0, false, 0, 0, 0⟩ []
  have hdark : (State.dormantMasked.chip.pass 0).dark = true := by decide
  have hmask : (State.dormantMasked.chip.pass 0).is pHOST F.HOST_PCIE_STATUS_FUNC_MASK = true := by decide
  have hcleared := hunmasks.chip rfl
  dsimp only at hcleared
  rw [Chip.unmaskFunction_dark hdark, hmask] at hcleared
  exact Bool.noConfusion hcleared

end Sys2Proof.Machine

/-! Descriptor fetches (R267, R274). The engine fetches descriptors of the ring that the read path serves; the statement about a fetch does not say
that the path serves the ring. -/

namespace Sys2Proof.Machine

open Sys2Proof

theorem Chip.descriptorFetch_elsewhere {c d : Chip} {r q : Nat} (mem : List MemSeg) (hturn : c.readTurn = (d, some q)) (hne : q ≠ r) :
    c.descriptorFetch r mem = c := by
  rw [Chip.descriptorFetch, hturn]
  simp only [if_neg hne, ite_self]

/-- A transmit ring with 8 descriptors from address 0 on and one of them to be fetched is RUNNING. -/
def Chip.oneToFetch (c : Chip) (r : Nat) : Chip :=
  ((c.setReg pDMA (ringFld F.DMA_RCFG_SIZE r).actOff 8).ringPut r F.DMA_RTAIL_V 1).ringPut r F.DMA_RSTATUS_STATE rgRUNNING

/-- The DMA engine runs in mode RUN; the rings 16 and 17 have a descriptor to be fetched. -/
def State.twoToFetch : State :=
  let c := { State.reset.chip with clk := { State.reset.chip.clk with xtalStart := none, hold := false } }
  let c := ((c.put pPWR F.PWR_MODE_STATUS_MODE modeRun).put pHOST F.HOST_PCIE_STATUS_LINK_UP 1).put pHOST F.HOST_PCIE_STATUS_BME 1
  { State.reset with chip := ((c.put pDMA F.CTRL_EN 1).oneToFetch 16).oneToFetch 17 }

/-- The descriptor of a frame of 64 bytes at address 0. -/
def frameDesc : List Byte := [0, 0, 0, 0, 0, 0, 64, 0, 3] ++ List.replicate 23 0

/-- A copy for the operands that a descriptor fetch does not look at. -/
def idleCopy : Copy := { fid := 0, bytes := [], ingress := 0, origin := 0, egress := 30, cls := 0, seq := 0, vid := 0, pcp := 0 }

set_option maxRecDepth 4000 in
/-- Refutes O31: while the read path serves ring 16, ring 17 fetches nothing. -/
theorem not_dmaTransfers : ¬ Obligations.DmaTransfers := by
  intro h
  let c := State.twoToFetch.chip.pass 0
  obtain ⟨hfetches, -⟩ :=
    h State.twoToFetch 0 17 0 0 [⟨0, frameDesc⟩] frameDesc [] .good idleCopy idleCopy ⟨0, 0, 64, true, true, 0, none⟩ c c (by decide)
  obtain ⟨hfetched, -⟩ := (hfetches (by decide) (by decide) (by decide) (by decide) (by decide) (by decide) (by decide) (by decide) (by decide)
    (by decide) (by decide) (by decide) (by decide) (by decide)).chip rfl
  have hserves : c.readTurn.2 = some 16 := by decide
  have hnone : (c.ring 17).descs = [] := by decide
  rw [c.descriptorFetch_elsewhere _ (Prod.ext rfl hserves) (by decide), hnone] at hfetched
  exact List.cons_ne_nil _ _ hfetched.symm

end Sys2Proof.Machine

/-! What a port that leaves UP and a copy that is refused take with them (R19, R63, R101, R280): records of frames, counters, outputs and
registers of events. Nothing of a ring is among them. -/

namespace Sys2Proof.Machine

open Sys2Proof

/-! ## The relation -/

/-- `d` with its registers, counters and outputs, and with the copies on their way out of a port, as in `c`. -/
def Chip.withDiscards (d c : Chip) : Chip :=
  { d with
    regs := c.regs, cnt := c.cnt, outs := c.outs, tx := c.tx, preempted := c.preempted, safeFrames := c.safeFrames, bypass := c.bypass
    rels := c.rels, tWait := c.tWait, tOwed := c.tOwed, queues := c.queues, seqs := c.seqs, partials := c.partials }

/-- From `c` to `d` copies on their way out of ports have been discarded, and no more: no register but those of events has changed. -/
structure Discards (c d : Chip) : Prop where
  same : d.withDiscards c = c
  regs : ∀ q a, pageValid q = true → a < 0x1000 → quiet q a = true → d.reg q a = c.reg q a

theorem Discards.refl (c : Chip) : Discards c c := ⟨rfl, fun _ _ _ _ _ => rfl⟩

/-! The lemmas below carry the relation through one operation: the chain `h.op₁.op₂` reads as the program does. -/

section
variable {c d e : Chip} {P : Prop} [Decidable P]

theorem Discards.ite (hd : Discards c d) (he : Discards c e) : Discards c (if P then d else e) := by
  split
  · exact hd
  · exact he

theorem Discards.when (h : Discards c d) (g : Discards c d → Discards c e) : Discards c (if P then e else d) := .ite (g h) h

theorem Discards.unless (h : Discards c d) (g : Discards c d → Discards c e) : Discards c (if P then d else e) := .ite h (g h)

end

section
variable {c d : Chip} (h : Discards c d)
include h

theorem Discards.record {e : Chip} (hs : e.withDiscards d = d) (hr : e.regs = d.regs) : Discards c e := by
  refine ⟨?_, fun q a hq ha hquiet => (reg_congr hr q a).trans (h.regs q a hq ha hquiet)⟩
  calc e.withDiscards c = (e.withDiscards d).withDiscards c := rfl
    _ = c := by rw [hs, h.same]

theorem Discards.loud {e : Chip} (g : Loud d e) : Discards c e := by
  obtain ⟨⟨r, n, o, rfl⟩, hregs⟩ := g
  exact ⟨h.same, fun q a hq ha hquiet => (hregs q a hq ha hquiet).trans (h.regs q a hq ha hquiet)⟩

theorem Discards.foldl {α : Type} {f : Chip → α → Chip} {l : List α} (hf : ∀ d a, Discards c d → Discards c (f d a)) :
    Discards c (l.foldl f d) :=
  List.foldlRecOn (motive := Discards c) l f h fun d hd a _ => hf d a hd

theorem Discards.field {α : Type} (f : Chip → α) (hf : ∀ x y, f (Chip.withDiscards x y) = f x) : f d = f c := by
  rw [← hf d c, h.same]

theorem Discards.get {p : Page} {f : Fld} (hp : pageValid p = true) (hf : f.quietOn p = true) : d.get p f = c.get p f := by
  simp only [Fld.quietOn, Fld.fits, Bool.and_eq_true, decide_eq_true_eq] at hf
  have hoff : f.actOff < 0x1000 := by unfold Fld.actOff; split <;> omega
  rw [Chip.get, h.regs p _ hp hoff hf.2, Chip.get]

/-! ## Counts, outputs, events -/

theorem Discards.addCnt (p : Page) (i n : Nat) : Discards c (d.addCnt p i n) := h.record rfl rfl

theorem Discards.count (p : Page) (i : Nat) : Discards c (d.count p i) := h.record rfl rfl

theorem Discards.addTCnt (p : Page) (t i k n : Nat) : Discards c (d.addTCnt p t i k n) := h.record rfl rfl

theorem Discards.emit (o : Output) : Discards c (d.emit o) := h.record rfl rfl

theorem Discards.raise {p : Page} (b : Nat) (hp : pageValid p = true) : Discards c (d.raise p b) := h.loud (Loud.raise d b hp)

theorem Discards.portCount (n k : Nat) : Discards c (d.portCount n k) := h.when fun h => h.count ..

/-! ## Copies refused, queues flushed -/

theorem Discards.partialDelivery (k : Copy) : Discards c (d.partialDelivery k) := by
  delta Chip.partialDelivery
  exact h.unless fun h => (h.portCount k.ingress K.PORT_PARTIAL_DELIVERY).record rfl rfl

theorem Discards.refuseCopy (k : Copy) : Discards c (d.refuseCopy k) := h.when fun h => (h.portCount ..).partialDelivery k

theorem Discards.settleCredit : Discards c d.settleCredit := (h.record (by rfl) (by rfl)).foldl fun _ _ h => h.emit _

theorem Discards.countWindowLost (n : Nat) : Discards c (d.countWindowLost n) :=
  h.foldl fun _ _ h => h.unless fun h => (h.addCnt ..).addTCnt ..

theorem Discards.flushQueues (n : Nat) : Discards c (d.flushQueues n) := by
  delta Chip.flushQueues
  extract_lets mine lost c₁ c₂ c₃
  have h₁ : Discards c c₁ := h.record rfl rfl
  have h₃ : Discards c c₃ := (h₁.settleCredit.countWindowLost n).when fun h => h.addCnt ..
  exact h₃.record rfl rfl

theorem Discards.flushPort (n : Nat) : Discards c (d.flushPort n) := by
  delta Chip.flushPort
  extract_lets c₁ c₂ safe mine kept c₃ c₄
  have h₁ : Discards c c₁ := h.when fun h => (h.portCount ..).record rfl rfl
  have h₂ : Discards c c₂ := h₁.foldl fun _ _ h => (h.portCount ..).record rfl rfl
  have h₃ : Discards c c₃ := h₂.record rfl rfl
  have h₄ : Discards c c₄ := h₃.when fun h => h.addCnt ..
  exact h₄.flushQueues n

/-- Port 30 follows the rings (R280). -/
theorem Discards.hostEdge (old : Chip) : Discards c (d.hostEdge old) :=
  .ite (((h.count ..).raise _ rfl).flushPort 30) (h.when fun h => h.raise _ rfl)

end

end Sys2Proof.Machine

/-! Rings (R265, R272, R273): the registers and the records of one ring under the operations on rings. -/

namespace Sys2Proof.Machine

open Sys2Proof

/-! ## Registers of a ring -/

/-- A field of a ring's block, as the block of ring 0 has it. -/
def Fld.ofRing (f : Fld) : Bool := decide (0x200 ≤ f.off ∧ f.off < 0x220) && decide (f.lo + f.width ≤ 32)

theorem Fld.ofRing_iff (f : Fld) : f.ofRing = true ↔ (0x200 ≤ f.off ∧ f.off < 0x220) ∧ f.lo + f.width ≤ 32 := by
  simp [Fld.ofRing]

theorem actOff_ringFld (f : Fld) (r : Nat) : (ringFld f r).actOff = f.actOff + 0x20 * r := by
  cases h : f.rws
  · simp [Fld.actOff, ringFld, h]
  · simp [Fld.actOff, ringFld, h]
    omega

theorem Fld.off_le_actOff (f : Fld) : f.off ≤ f.actOff := by
  unfold Fld.actOff
  split <;> omega

section
variable {r : Nat} (hr : r < 32) {f g : Fld} (hf : f.ofRing = true)
include hr hf

theorem fits_ringFld : (ringFld f r).fits = true := by
  obtain ⟨hoff, hbits⟩ := f.ofRing_iff.1 hf
  have hin : (ringFld f r).off < 0x800 := by
    change f.off + 0x20 * r < 0x800
    omega
  exact Bool.and_eq_true_iff.2 ⟨decide_eq_true hin, decide_eq_true hbits⟩

theorem quietOn_ringFld : (ringFld f r).quietOn pDMA = true := by
  obtain ⟨hoff, -⟩ := f.ofRing_iff.1 hf
  have hraw : (ringFld f r).actOff ≠ 0x018 := by
    have := f.off_le_actOff
    rw [actOff_ringFld]
    omega
  simp [Fld.quietOn, fits_ringFld hr hf, quiet, still, hraw]

theorem Discards.ringGet {c d : Chip} (h : Discards c d) : d.ringGet r f = c.ringGet r f := h.get rfl (quietOn_ringFld hr hf)

theorem Loud.ringGet {c d : Chip} (h : Loud c d) : d.ringGet r f = c.ringGet r f := ((Discards.refl c).loud h).ringGet hr hf

theorem Chip.ringGet_ringPut_same (c : Chip) (v : Nat) (hs : f.rws = false) : (c.ringPut r f v).ringGet r f = v % 2 ^ f.width :=
  c.get_put_same v rfl (fits_ringFld hr hf) hs

theorem Chip.ringGet_ringPut_apart (c : Chip) (v : Nat) (hg : g.ofRing = true) (hne : f.actOff ≠ g.off) :
    (c.ringPut r g v).ringGet r f = c.ringGet r f := by
  refine c.get_put_elsewhere rfl rfl (fits_ringFld hr hf) v (fits_ringFld hr hg) ?_
  rw [actOff_ringFld]
  change f.actOff + 0x20 * r ≠ g.off + 0x20 * r
  omega

end

/-! ## Records of rings -/

section
variable (c : Chip)

theorem ring_congr {c d : Chip} (h : d.rings = c.rings) (r : Nat) : d.ring r = c.ring r := by rw [Chip.ring, h, Chip.ring]

theorem heldOf_congr {c d : Chip} (h : d.rxHeld = c.rxHeld) (r : Nat) : d.heldOf r = c.heldOf r := by rw [Chip.heldOf, h, Chip.heldOf]

@[simp] theorem Chip.ring_setRing_same (r : Nat) (x : RingRt) : (c.setRing r x).ring r = x := lookupD_store_same ..

@[simp] theorem Chip.ring_ringPut (r q : Nat) (f : Fld) (v : Nat) : (c.ringPut r f v).ring q = c.ring q := ring_congr (Chip.rings_setRegAt ..) q

@[simp] theorem Chip.heldOf_ringPut (r q : Nat) (f : Fld) (v : Nat) : (c.ringPut r f v).heldOf q = c.heldOf q :=
  heldOf_congr (Chip.rxHeld_setRegAt ..) q

@[simp] theorem Chip.ringGet_setRing (r q : Nat) (x : RingRt) (f : Fld) : (c.setRing q x).ringGet r f = c.ringGet r f := get_congr rfl ..

/-! ## What a posted command finds -/

variable (req : Requester)

@[simp] theorem Chip.ringGet_sequenced (r : Nat) (f : Fld) : (c.sequenced req).ringGet r f = c.ringGet r f := c.get_sequenced ..

@[simp] theorem Chip.ringState_sequenced (r : Nat) : (c.sequenced req).ringState r = c.ringState r := c.ringGet_sequenced ..

@[simp] theorem Chip.rtail_sequenced (r : Nat) : (c.sequenced req).rtail r = c.rtail r := c.ringGet_sequenced ..

@[simp] theorem Chip.heldOf_sequenced (r : Nat) : (c.sequenced req).heldOf r = c.heldOf r := heldOf_congr (by simp) r

@[simp] theorem Chip.ready_sequenced (p : Page) : (c.sequenced req).ready p = c.ready p := by
  simp [Chip.ready, Chip.enabled, Chip.live]

end

/-! ## A ring moves to a state -/

section
variable (c : Chip) {r : Nat} (hr : r < 32)

theorem Chip.discards_ringTo (r st : Nat) : Discards (c.ringPut r F.DMA_RSTATUS_STATE st) (c.ringTo r st) := (Discards.refl _).hostEdge c

@[simp] theorem Chip.ring_ringTo (r q st : Nat) : (c.ringTo r st).ring q = c.ring q :=
  ((c.discards_ringTo r st).field (fun d => d.ring q) fun _ _ => rfl).trans (c.ring_ringPut ..)

@[simp] theorem Chip.heldOf_ringTo (r q st : Nat) : (c.ringTo r st).heldOf q = c.heldOf q :=
  ((c.discards_ringTo r st).field (fun d => d.heldOf q) fun _ _ => rfl).trans (c.heldOf_ringPut ..)

include hr

theorem Chip.ringState_ringTo {st : Nat} (hst : st < 4) : (c.ringTo r st).ringState r = st :=
  ((c.discards_ringTo r st).ringGet hr rfl).trans ((c.ringGet_ringPut_same hr rfl st rfl).trans (Nat.mod_eq_of_lt hst))

theorem Chip.ringGet_ringTo {f : Fld} (st : Nat) (hf : f.ofRing = true) (hne : f.actOff ≠ 0x218) : (c.ringTo r st).ringGet r f = c.ringGet r f :=
  ((c.discards_ringTo r st).ringGet hr hf).trans (c.ringGet_ringPut_apart hr hf st rfl hne)

end

/-! ## Held frames are dropped (R272) -/

section
variable (c : Chip) {r : Nat}

theorem Chip.discards_dropHeldOf (r : Nat) :
    Discards { c with rxHeld := c.rxHeld.filter fun (e : Nat × Copy) => decide (e.1 ≠ r) } (c.dropHeldOf r) :=
  ((Discards.refl _).addCnt ..).foldl fun _ _ h => h.refuseCopy _

theorem Chip.heldOf_dropHeldOf (r : Nat) : (c.dropHeldOf r).heldOf r = [] := by
  rw [Chip.heldOf, (c.discards_dropHeldOf r).field Chip.rxHeld fun _ _ => rfl, List.filter_filter]
  simp

theorem Chip.heldOf_ringOff (r : Nat) : (c.ringOff r).heldOf r = [] := (Chip.heldOf_ringPut ..).trans (Chip.heldOf_dropHeldOf ..)

theorem Chip.ringState_ringOff (hr : r < 32) : (c.ringOff r).ringState r = rgDISABLED := Chip.ringGet_ringPut_same hr rfl _ _ rfl

end

/-! ## Doorbells (R265) -/

section
variable (c : Chip) {r v : Nat} {user : Bool} (huser : user = true → c.ringGet r F.DMA_RCFG_USER_DB ≠ 0) (hl : c.locked pDMA = false)
  (hv : v < 8192)
include huser hl hv

theorem Chip.doorbell_taken (h : v < c.ringGet r F.DMA_RCFG_SIZE) : c.doorbell r v user = (c.ringPut r F.DMA_RTAIL_V v, 0) := by
  rw [Chip.doorbell, if_neg fun ⟨hu, hdb⟩ => huser hu hdb, if_neg (ne_true_of_eq_false hl), if_neg (by omega)]

theorem Chip.doorbell_bad (h : c.ringGet r F.DMA_RCFG_SIZE ≤ v) : c.doorbell r v user = (c.raise pDMA E.DMA_BAD_DOORBELL, 0) := by
  rw [Chip.doorbell, if_neg fun ⟨hu, hdb⟩ => huser hu hdb, if_neg (ne_true_of_eq_false hl), if_pos (by omega)]

end

/-! ## Ring commands (R272) -/

section
variable (c : Chip) {r : Nat} (hr : r < 32)
include hr

theorem Chip.rcmd_ok {req : Requester} (v : Word) (f : Chip → Chip) (ht : c.takes req = true) : c.rcmd req r v f = f (c.sequenced req) := by
  rw [Chip.rcmd, if_neg (by omega), c.command_ok ht rfl]

theorem Chip.ringStart_shown (hst : c.ringState r = rgDISABLED) (hsize : c.ringGet r F.DMA_RCFG_SIZE ≠ 0) (hready : c.ready pDMA = true) :
    let d := c.ringStart r
    d.ringState r = rgRUNNING ∧ d.rhead r = 0 ∧ d.rtail r = 0 ∧ d.ring r = {} := by
  intro d
  rw [show d = _ from if_pos ⟨hr, hst, hsize, hready⟩]
  refine ⟨Chip.ringState_ringTo _ hr (by decide), ?_, ?_, by simp [Chip.setHead]⟩
  · rw [Chip.rhead, Chip.ringGet_ringTo _ hr _ rfl (by decide), Chip.ringGet_ringPut_apart hr rfl _ _ rfl (by decide), Chip.setHead,
      Chip.ringGet_ringPut_same hr rfl _ _ rfl, Nat.zero_mod]
  · rw [Chip.rtail, Chip.ringGet_ringTo _ hr _ rfl (by decide), Chip.ringGet_ringPut_same hr rfl _ _ rfl, Nat.zero_mod]

theorem Chip.ringStop_running (hst : c.ringState r = rgRUNNING) : c.ringStop r = c.ringTo r rgSTOPPING := by
  rw [Chip.ringStop, if_neg (by omega), if_pos hst]

theorem Chip.ringStop_halted (hst : c.ringState r = rgHALTED) : let d := c.ringStop r
    d.ringState r = rgDISABLED ∧ d.heldOf r = [] := by
  intro d
  have hd : d = (c.ringOff r).hostEdge c := by
    change c.ringStop r = _
    rw [Chip.ringStop, if_neg (by omega), if_neg (by rw [hst]; decide), if_pos hst]
  have hedge : Discards (c.ringOff r) d := hd ▸ (Discards.refl _).hostEdge c
  exact ⟨(hedge.ringGet hr rfl).trans (c.ringState_ringOff hr), (hedge.field (fun d => d.heldOf r) fun _ _ => rfl).trans (c.heldOf_ringOff r)⟩

theorem Chip.ringResume_halted (discard : Bool) (hst : c.ringState r = rgHALTED) : let d := c.ringResume r discard
    d.ringState r = rgRUNNING ∧ d.heldOf r = if discard then [] else c.heldOf r := by
  intro d
  rw [show d = _ from if_pos ⟨hr, hst⟩]
  refine ⟨Chip.ringState_ringTo _ hr (by decide), ?_⟩
  cases discard
  · exact c.heldOf_ringTo ..
  · exact (Chip.heldOf_ringTo ..).trans (c.heldOf_dropHeldOf r)

end

/-! ## The end of a STOP (R272) -/

section
variable (c : Chip) {r : Nat} (mem : List MemSeg)

theorem Chip.rxCopy_none_of_idle (h : c.inTransfer r = false) : c.rxCopy r = none := by
  simp only [Chip.inTransfer, Bool.or_eq_false_iff] at h
  rw [Chip.rxCopy, Option.map_eq_none_iff, List.find?_eq_none]
  simpa using h.2

theorem Chip.rxChunks_idle (n : Nat) (h : c.inTransfer r = false) : Chip.rxChunks mem r n c = c := by
  cases n
  · rfl
  · rw [Chip.rxChunks, c.rxCopy_none_of_idle h]
    rfl

theorem Chip.txChunks_idle (n : Nat) (h : c.inTransfer r = false) : Chip.txChunks mem r n c = c := by
  have hwhole : (c.ring r).whole = false := (Bool.or_eq_false_iff.1 h).1
  cases n
  · rfl
  · rw [Chip.txChunks, if_neg (ne_true_of_eq_false hwhole)]

theorem Chip.ringState_stopComplete (hr : r < 32) (hst : c.ringState r = rgSTOPPING) (hidle : c.inTransfer r = false)
    (hdescs : (c.ring r).descs = []) : (c.stopComplete r mem).ringState r = rgDISABLED := by
  have hsettles : c.settleStop r mem = (c.ringOff r).hostEdge c := by
    rw [Chip.settleStop, if_neg (by simp [hst, hidle])]
    simp only [hdescs, if_true]
  rw [Chip.stopComplete, if_neg (by simp [hr, hst])]
  simp only [c.rxChunks_idle mem _ hidle, c.txChunks_idle mem _ hidle, ite_self, hsettles]
  exact (((Discards.refl _).hostEdge c).ringGet hr rfl).trans (c.ringState_ringOff hr)

end

/-! ## The interrupt (R273) -/

theorem Chip.ring_ringIrq (c : Chip) (r : Nat) : (c.ringIrq r).ring r = { c.ring r with frames := 0, firstAt := none } := by
  have hset : (c.setRing r { c.ring r with frames := 0, firstAt := none }).ring r = _ := Chip.ring_setRing_same ..
  rw [Chip.ringIrq]
  split
  · exact ((Calm.sendMsix ..).loud.field (fun d => d.ring r) fun _ _ _ => rfl).trans hset
  · exact hset

theorem Chip.itrExpire_due (c : Chip) {r t : Nat} (hr : r < 32) (ht : (c.ring r).firstAt = some t) (hus : c.ringGet r F.DMA_RMOD_ITR_US ≠ 0)
    (hdue : t + usCycles (c.ringGet r F.DMA_RMOD_ITR_US) ≤ c.cycles) : c.itrExpire r = c.ringIrq r := by
  simp only [Chip.itrExpire, ht]
  exact if_pos ⟨hr, hus, hdue⟩

end Sys2Proof.Machine

/-! Invalidations of translations (R276, R283), and with them what ring commands and doorbells do, put together. -/

namespace Sys2Proof.Machine

open Sys2Proof

/-! ## Invalidations -/

section
variable (c : Chip)

theorem Chip.tlb_runInv {x : InvCmd} {xs : List InvCmd} (h : c.invs = x :: xs) : c.runInv.tlb = c.tlb.filter fun e => !x.selects e := by
  simp only [Chip.runInv, h]
  exact Chip.tlb_setRegAt ..

theorem Chip.mem_of_mem_tlb_runInv {e : TlbEntry} (he : e ∈ c.runInv.tlb) : e ∈ c.tlb := by
  rcases h : c.invs with - | ⟨x, xs⟩
  · simpa only [Chip.runInv, h, Chip.put, Chip.setReg, Chip.tlb_setRegAt] using he
  · rw [c.tlb_runInv h] at he
    exact List.mem_of_mem_filter he

@[simp] theorem Chip.invs_runInv : c.runInv.invs = c.invs := by
  unfold Chip.runInv
  split
  · exact Chip.invs_setRegAt ..
  · exact Chip.invs_setRegAt ..

theorem Chip.busy_runInv : c.runInv.is pDXLT F.DXLT_INV_STATUS_BUSY = !c.invs.isEmpty := by
  rcases h : c.invs with - | ⟨x, xs⟩
  · simp only [Chip.runInv, h, Chip.is, Chip.get_put_same _ _ (p := pDXLT) rfl (f := F.DXLT_INV_STATUS_BUSY) rfl rfl]
    rfl
  · simp only [Chip.runInv, h, Chip.is, Chip.get_put_same _ _ (p := pDXLT) rfl (f := F.DXLT_INV_STATUS_BUSY) rfl rfl]
    rfl

theorem Chip.get_dropTlb (v : InvCmd) (p : Page) (f : Fld) : (c.dropTlb v).get p f = c.get p f := get_congr rfl ..

theorem Chip.seq_runInv : c.runInv.get pDXLT F.DXLT_INV_STATUS_SEQ = c.get pDXLT F.DXLT_INV_STATUS_SEQ := by
  unfold Chip.runInv
  split
  · exact (Chip.get_put_apart _ _ rfl rfl (by decide)).trans (c.get_dropTlb ..)
  · exact c.get_put_apart _ rfl rfl (by decide)

theorem Chip.latched_runInv (b : Nat) : c.runInv.latched pDXLT b = c.latched pDXLT b := by
  unfold Chip.runInv Chip.latched
  split
  · rw [Chip.put, Chip.reg_setReg_off _ _ (by decide), Chip.reg_dropTlb]
  · rw [Chip.put, Chip.reg_setReg_off _ _ (by decide)]

end

/-- The invalidation that a word written to INV_CMD asks for. -/
def Chip.invAsked (c : Chip) (w : Word) : InvCmd :=
  ⟨bitsAt w 0 2, bitsAt w 4 2, c.get pDXLT F.DXLT_INV_ADDR_LO_V * 2 ^ 12 + c.get pDXLT F.DXLT_INV_ADDR_HI_V * 2 ^ 32, c.get pDXLT F.DXLT_INV_PAGES_N⟩

/-- The chip with an invalidation at the end of those that wait. -/
def Chip.invQueued (c : Chip) (v : InvCmd) : Chip := { c with invs := c.invs ++ [v] }

theorem Chip.invCmd_shown (c : Chip) {w : Word} (hstart : bitsAt w 31 1 = 1) (hscope : (c.invAsked w).scope ≠ 0)
    (hpages : (c.invAsked w).scope = 3 → (c.invAsked w).pages ≠ 0 ∧ (c.invAsked w).pages ≤ 262144) : let d := c.invCmd w
    d.invs = c.invs ++ [c.invAsked w] ∧ (c.invs = [] → d.is pDXLT F.DXLT_INV_STATUS_BUSY = true
      ∧ d.tlb = c.tlb.filter fun e => !(c.invAsked w).selects e) := by
  intro d
  have hd : d = if c.invs.isEmpty then (c.invQueued (c.invAsked w)).runInv else c.invQueued (c.invAsked w) := by
    refine if_neg ?_
    rintro (h | h | ⟨h, hbad⟩)
    · omega
    · exact hscope h
    · have := hpages h
      change c.get pDXLT F.DXLT_INV_PAGES_N = 0 ∨ 262144 < c.get pDXLT F.DXLT_INV_PAGES_N at hbad
      change c.get pDXLT F.DXLT_INV_PAGES_N ≠ 0 ∧ c.get pDXLT F.DXLT_INV_PAGES_N ≤ 262144 at this
      omega
  refine ⟨?_, fun hnone => ?_⟩
  · rw [hd]
    split
    · exact Chip.invs_runInv _
    · rfl
  · have hinvs : (c.invQueued (c.invAsked w)).invs = [c.invAsked w] := by simp [Chip.invQueued, hnone]
    rw [hd, if_pos (by rw [hnone]; rfl)]
    exact ⟨by rw [Chip.busy_runInv, hinvs]; rfl, Chip.tlb_runInv _ hinvs⟩

/-- The oldest invalidation is over: its translations are gone, and DXLT says so. -/
def Chip.invEnded (c : Chip) (x : InvCmd) (xs : List InvCmd) : Chip :=
  let d := ({ c with invs := xs }.dropTlb x).put pDXLT F.DXLT_INV_STATUS_SEQ (c.get pDXLT F.DXLT_INV_STATUS_SEQ + 1)
  (d.count pDXLT K.DXLT_INVALIDATIONS).raise pDXLT E.DXLT_INV_DONE

section
variable (c : Chip) (x : InvCmd) (xs : List InvCmd)

theorem Chip.invs_invEnded : (c.invEnded x xs).invs = xs := by simp [Chip.invEnded, Chip.put, Chip.setReg, Chip.count, Chip.addCnt, Chip.dropTlb]

theorem Chip.tlb_invEnded : (c.invEnded x xs).tlb = c.tlb.filter fun e => !x.selects e := by
  simp [Chip.invEnded, Chip.put, Chip.setReg, Chip.count, Chip.addCnt, Chip.dropTlb]

theorem Chip.seq_invEnded : (c.invEnded x xs).get pDXLT F.DXLT_INV_STATUS_SEQ = (c.get pDXLT F.DXLT_INV_STATUS_SEQ + 1) % 65536 := by
  rw [Chip.invEnded, Chip.get_raise _ rfl rfl (by decide), Chip.get_count, Chip.get_put_same _ _ rfl rfl rfl]
  rfl

end

theorem Chip.invDone_shown (c : Chip) {x : InvCmd} {xs : List InvCmd} (h : c.invs = x :: xs) : let d := c.invDone
    d.invs = xs ∧ d.latched pDXLT E.DXLT_INV_DONE ∧ (∀ e ∈ d.tlb, e ∈ c.tlb ∧ x.selects e = false)
      ∧ d.is pDXLT F.DXLT_INV_STATUS_BUSY = !xs.isEmpty
      ∧ d.get pDXLT F.DXLT_INV_STATUS_SEQ = (c.get pDXLT F.DXLT_INV_STATUS_SEQ + 1) % 65536 := by
  intro d
  have hd : d = (c.invEnded x xs).runInv := by
    change c.invDone = _
    simp only [Chip.invDone, h, Chip.invEnded]
  rw [hd]
  refine ⟨?_, ?_, fun e he => ?_, ?_, ?_⟩
  · rw [Chip.invs_runInv, Chip.invs_invEnded]
  · rw [Chip.latched_runInv]
    exact Chip.latched_raise _ rfl (by decide)
  · have hkept := Chip.mem_of_mem_tlb_runInv _ he
    rw [Chip.tlb_invEnded, List.mem_filter] at hkept
    simpa using hkept
  · rw [Chip.busy_runInv, Chip.invs_invEnded]
  · rw [Chip.seq_runInv, Chip.seq_invEnded]

/-! ## The statement -/

@[simp] theorem Chip.invAsked_sequenced (c : Chip) (req : Requester) (w : Word) : (c.sequenced req).invAsked w = c.invAsked w := by
  simp [Chip.invAsked]

/-- Settles O30: the doorbell and the commands of a ring, the time limit of its interrupt, and invalidations as they start and end. -/
theorem ringsAndInvalidations : Obligations.RingsAndInvalidations := by
  refine ⟨fun s dt r v t req user discard mem => ?_, fun s dt req value x xs => ?_⟩
  · intro c st size hr
    refine ⟨fun htakes hl huser hv => ⟨fun hlt => .of_run rfl ?_, fun hge => .of_run rfl ?_⟩,
      fun htakes => ⟨fun hst hsize hready => .of_run rfl ?_, fun hst => .of_run rfl ?_, fun hst => .of_run rfl ?_, fun hst => .of_run rfl ?_⟩,
      fun hst hidle hdescs => .of_run rfl (c.ringState_stopComplete mem hr hst hidle hdescs), fun ht hus hdue => .of_run rfl ?_⟩
    case refine_1 =>
      rw [if_neg (by omega), c.posted_ok htakes rfl (Chip.doorbell_taken _ (by simpa using huser) (by simpa using hl) hv (by simpa using hlt))]
      exact (Chip.ringGet_ringPut_same hr rfl _ _ rfl).trans (Nat.mod_eq_of_lt hv)
    case refine_2 =>
      rw [if_neg (by omega), c.posted_ok htakes rfl (Chip.doorbell_bad _ (by simpa using huser) (by simpa using hl) hv (by simpa using hge))]
      exact ⟨((Loud.raise _ _ rfl).ringGet hr rfl).trans (c.rtail_sequenced ..), Chip.latched_raise _ rfl (by decide)⟩
    case refine_3 =>
      rw [c.rcmd_ok hr _ _ htakes]
      exact Chip.ringStart_shown _ hr (by simpa using hst) (by simpa using hsize) (by simpa using hready)
    case refine_4 =>
      rw [c.rcmd_ok hr _ _ htakes, Chip.ringStop_running _ hr (by simpa using hst)]
      exact Chip.ringState_ringTo _ hr (by decide)
    case refine_5 =>
      rw [c.rcmd_ok hr _ _ htakes]
      exact Chip.ringStop_halted _ hr (by simpa using hst)
    case refine_6 =>
      rw [c.rcmd_ok hr _ _ htakes]
      simpa using (c.sequenced req).ringResume_halted hr discard (by simpa using hst)
    case refine_7 =>
      rw [c.itrExpire_due hr ht hus hdue, Chip.ring_ringIrq]
      exact ⟨rfl, rfl⟩
  · intro c pages v
    refine ⟨fun htakes hstart hscope hpages => .of_run rfl ?_, fun hinvs => .of_run rfl (c.invDone_shown hinvs)⟩
    have hasked : (c.sequenced req).invAsked value = v := c.invAsked_sequenced ..
    have hshown := (c.sequenced req).invCmd_shown hstart (by rw [hasked]; exact hscope) (by rw [hasked]; exact hpages)
    rw [c.command_ok htakes rfl]
    simpa only [hasked, Chip.invs_sequenced, Chip.tlb_sequenced] using hshown

end Sys2Proof.Machine

/-! What a QSPI transaction notes of itself (R255 to R257), and that a read of another page sees nothing of it. -/

namespace Sys2Proof.Machine

open Sys2Proof

/-! ## The relation -/

/-- `c` with other registers, counters, QSPI read in progress and waiting fences. -/
def Chip.withQspi (c : Chip) (r : List (Nat × Word)) (n : List (Nat × W48)) (q : Option QsRead) (f : List (Nat × Nat)) : Chip :=
  { c with regs := r, cnt := n, qsRead := q, fences := f }

/-- From `c` to `d` a QSPI transaction has been counted and noted, and no more: of the registers at most `QS_STATUS` has changed. -/
structure QsNoted (c d : Chip) : Prop where
  same : ∃ r n q f, d = c.withQspi r n q f
  regs : ∀ dflt k, k ≠ regKey pQSPIS 0x144 → lookupD dflt d.regs k = lookupD dflt c.regs k

theorem QsNoted.refl (c : Chip) : QsNoted c c := ⟨⟨c.regs, c.cnt, c.qsRead, c.fences, rfl⟩, fun _ _ _ => rfl⟩

section
variable {c d : Chip} (h : QsNoted c d)
include h

theorem QsNoted.withQspi {e : Chip} {n : List (Nat × W48)} {q : Option QsRead} {f : List (Nat × Nat)} (he : e = d.withQspi d.regs n q f) :
    QsNoted c e := by
  obtain ⟨⟨_, _, _, _, rfl⟩, hregs⟩ := h
  subst he
  exact ⟨⟨_, _, _, _, rfl⟩, hregs⟩

theorem QsNoted.qsAbandon : QsNoted c d.qsAbandon := h.withQspi (n := d.cnt) rfl

theorem QsNoted.count (p : Page) (i : Nat) : QsNoted c (d.count p i) := h.withQspi (q := d.qsRead) (f := d.fences) rfl

theorem QsNoted.begin (q : QsRead) : QsNoted c { d with qsRead := some q } := h.withQspi (n := d.cnt) (f := d.fences) rfl

theorem QsNoted.qsCrc (failed : Bool) : QsNoted c (d.qsCrc failed) := by
  obtain ⟨⟨_, _, _, _, rfl⟩, hregs⟩ := h
  exact ⟨⟨_, _, _, _, rfl⟩, fun dflt k hk => (lookupD_store_other _ _ _ _ hk).trans (hregs dflt k hk)⟩

/-! ### What stays -/

theorem QsNoted.field {α : Type} (f : Chip → α) (hf : ∀ r n q x, f (c.withQspi r n q x) = f c) : f d = f c := by
  obtain ⟨⟨r, n, q, x, rfl⟩, -⟩ := h
  exact hf r n q x

theorem QsNoted.reg {p : Page} {off : Nat} (hne : off ≠ 0x144) (ho : off < 0x1000) : d.reg p off = c.reg p off :=
  h.regs _ _ fun hk => hne (by rw [← regKey_mod p ho, hk]; rfl)

theorem QsNoted.reg_page {p : Page} {off : Nat} (hp : pageValid p = true) (hne : p ≠ pQSPIS) (ho : off < 0x1000) : d.reg p off = c.reg p off :=
  h.regs _ _ (regKey_ne_page hp rfl ho (by decide) hne)

theorem QsNoted.regAt_side {p : Page} {off : Nat} (side : Nat) (hp : pageValid p = true) (hne : p ≠ pQSPIS) (ho : off < 0x1000) :
    d.regAt (sideKey p off side) = c.regAt (sideKey p off side) := by
  have hkey := regKey_ne_page (b := 0x144) hp rfl ho (by decide) hne
  have hlt : regKey pQSPIS 0x144 < 2 ^ 24 := regKey_lt rfl (by decide)
  refine h.regs _ _ fun hk => ?_
  unfold sideKey at hk
  rcases Nat.eq_zero_or_pos side with rfl | hpos
  · exact hkey (by simpa using hk)
  · omega

theorem QsNoted.get (p : Page) (f : Fld) (hf : f.actOff ≠ 0x144 ∧ f.actOff < 0x1000 := by decide) : d.get p f = c.get p f := by
  rw [Chip.get, h.reg hf.1 hf.2, Chip.get]

theorem QsNoted.get_page {p : Page} {f : Fld} (hp : pageValid p = true) (hne : p ≠ pQSPIS) (hf : f.actOff < 0x1000) : d.get p f = c.get p f := by
  rw [Chip.get, h.reg_page hp hne hf, Chip.get]

theorem QsNoted.is (p : Page) (f : Fld) (hf : f.actOff ≠ 0x144 ∧ f.actOff < 0x1000 := by decide) : d.is p f = c.is p f := by
  rw [Chip.is, h.get p f hf, Chip.is]

theorem QsNoted.cycles : d.cycles = c.cycles := h.field _ fun _ _ _ _ => rfl

theorem QsNoted.dormant : d.dormant = c.dormant := h.field _ fun _ _ _ _ => rfl

theorem QsNoted.mode : d.mode = c.mode := by simp only [Chip.mode, h.dormant, h.get pPWR F.PWR_MODE_STATUS_MODE]

theorem QsNoted.ready (p : Page) : d.ready p = c.ready p := by
  simp only [Chip.ready, Chip.enabled, Chip.live, h.is p F.CTRL_EN, h.mode]

/-! ### The header of a page (R36) -/

theorem QsNoted.ringState {r : Nat} (hr : r < 32) : d.ringState r = c.ringState r := by
  have hoff : (ringFld F.DMA_RSTATUS_STATE r).actOff = 0x218 + 0x20 * r := by simp [ringFld, Fld.actOff]
  exact h.get pDMA _ (by omega)

theorem QsNoted.hostUp : d.hostUp = c.hostUp := by
  have hring : ∀ r ∈ List.range 32, d.reg pDMA (0x218 + 0x20 * r) = c.reg pDMA (0x218 + 0x20 * r) := fun r hr => by
    have := List.mem_range.1 hr
    exact h.reg (by omega) (by omega)
  simp only [Chip.hostUp, h.is pHOST F.HOST_PCIE_STATUS_LINK_UP, h.is pHOST F.HOST_PCIE_STATUS_BME, h.ready]
  congr 1
  rw [Bool.eq_iff_iff, List.any_eq_true, List.any_eq_true]
  exact exists_congr fun r => and_congr_right fun hr => by rw [hring r hr]

theorem QsNoted.hostLinkState : d.hostLinkState = c.hostLinkState := by simp only [Chip.hostLinkState, h.hostUp, h.mode]

theorem QsNoted.tenonPortState (t : Nat) : d.tenonPortState t = c.tenonPortState t := by
  have hstate : d.tlState t = c.tlState t := h.get _ F.TENON_TL_STATUS_STATE
  rw [Chip.tenonPortState, hstate, Chip.tenonPortState]

theorem QsNoted.showsUp (n : Nat) : d.showsUp n = c.showsUp n := by
  simp only [Chip.showsUp, h.hostLinkState, h.tenonPortState, Chip.linkState, h.get _ F.PORT_LINK_STATUS_STATE]

theorem QsNoted.commitState (p : Page) : d.commitState p = c.commitState p := h.get p F.COMMIT_STATUS_STATE

theorem QsNoted.win : d.win = c.win := h.field Chip.win fun _ _ _ _ => rfl

theorem QsNoted.syncs : d.syncs = c.syncs := h.field Chip.syncs fun _ _ _ _ => rfl

theorem QsNoted.statusWord (p : Page) : d.statusWord p = c.statusWord p := by
  simp only [Chip.statusWord, h.win, h.syncs, h.get p F.ERR_CAUSE_CODE, h.commitState, h.ready, Chip.locked, h.is p F.LOCK_LOCK, Chip.snapBusy,
    h.reg (p := p) (off := 0x134) (by decide) (by decide), h.showsUp]

theorem QsNoted.evtEn (p : Page) : d.evtEn p = c.evtEn p := by rw [Chip.evtEn, h.reg (by decide) (by decide), Chip.evtEn]

theorem QsNoted.evtPend (p : Page) : d.evtPend p = c.evtPend p := by rw [Chip.evtPend, h.reg (by decide) (by decide), h.evtEn, Chip.evtPend]

theorem QsNoted.evtSum (n : Nat) : d.evtSum n = c.evtSum n := by simp only [Chip.evtSum, h.evtPend]

theorem QsNoted.tblStatusWord {p : Page} (side : Nat) (hp : pageValid p = true) (hne : p ≠ pQSPIS) :
    d.tblStatusWord p side = c.tblStatusWord p side := by
  simp only [Chip.tblStatusWord, h.regAt_side side hp hne (off := 0x128) (by decide), h.win, h.syncs]

/-! ### The data plane and time pages -/

theorem QsNoted.portStatusWord (n : Nat) (w : Word) : d.portStatusWord n w = c.portStatusWord n w := by
  simp only [Chip.portStatusWord, h.hostLinkState, h.tenonPortState]

theorem QsNoted.heldClass (cls : Nat) : d.heldClass cls = c.heldClass cls := by
  simp only [Chip.heldClass, h.get pFAB F.FAB_CLASS_REGIME_HELD]

theorem QsNoted.heldUnreserved : d.heldUnreserved = c.heldUnreserved := by
  simp only [Chip.heldUnreserved, Chip.unusedMin, h.heldClass, h.field Chip.heldFree fun _ _ _ _ => rfl, h.field Chip.tget fun _ _ _ _ => rfl,
    h.field Chip.queue fun _ _ _ _ => rfl]

theorem QsNoted.spillActive : d.spillActive = c.spillActive := by
  simp only [Chip.spillActive, h.is pSPILL F.SPILL_SPILL_CFG_EN, h.is pSPILL F.SPILL_SPILL_STATUS_TRAINED, h.mode]

theorem QsNoted.rateActive : d.rateActive = c.rateActive := by simp only [Chip.rateActive, h.get pTIME F.TIME_RATE_ACTIVE_RATE]

theorem QsNoted.rateTarget : d.rateTarget = c.rateTarget := by simp only [Chip.rateTarget, h.get pTIME F.TIME_RATE_ADJ_RATE]

theorem QsNoted.timeValid : d.timeValid = c.timeValid := by simp only [Chip.timeValid, h.get pTIME F.TIME_TIME_STATUS_STATE]

theorem QsNoted.storyRuns : d.storyRuns = c.storyRuns := by
  simp only [Chip.storyRuns, h.mode, h.field Chip.storyHalted fun _ _ _ _ => rfl]

theorem QsNoted.guardedCount : d.guardedCount = c.guardedCount := by
  simp only [Chip.guardedCount, Chip.guardedRanges, h.commitState, h.field Chip.lists fun _ _ _ _ => rfl, h.field Chip.tblS fun _ _ _ _ => rfl,
    h.field Chip.tgetS fun _ _ _ _ => rfl]

theorem QsNoted.uncontrolled (etype : Nat) : d.uncontrolled etype = c.uncontrolled etype := by
  have hreg : ∀ k ∈ List.range 4, d.reg pMACSEC (0x940 + 4 * k) = c.reg pMACSEC (0x940 + 4 * k) := fun k hk => by
    have := List.mem_range.1 hk
    exact h.reg (by omega) (by omega)
  simp only [Chip.uncontrolled]
  congr 1
  rw [Bool.eq_iff_iff, List.any_eq_true, List.any_eq_true]
  exact exists_congr fun k => and_congr_right fun hk => by rw [hreg k hk]

theorem QsNoted.macOverhead (port etype : Nat) : d.macOverhead port etype = c.macOverhead port etype := by
  simp only [Chip.macOverhead, Chip.secyAt, h.ready, h.uncontrolled, h.field Chip.sy fun _ _ _ _ => rfl]

theorem QsNoted.wireLen (k : Copy) : d.wireLen k = c.wireLen k := by
  simp only [Chip.wireLen, h.macOverhead, h.field Chip.rxOf fun _ _ _ _ => rfl, h.field Chip.editOf fun _ _ _ _ => rfl]

theorem QsNoted.creditWaiting (t : Nat) : d.creditWaiting t = c.creditWaiting t := by
  simp only [Chip.creditWaiting, Chip.creditLets, h.heldClass, h.wireLen, h.field Chip.headOf fun _ _ _ _ => rfl,
    h.field Chip.creditUsed fun _ _ _ _ => rfl]

theorem QsNoted.planeWord (p : Page) (off : Nat) (w : Word) : d.planeWord p off w = c.planeWord p off w := by
  unfold Chip.planeWord
  simp only [h.portStatusWord, h.heldUnreserved, h.spillActive, h.rateActive, h.rateTarget, h.timeValid, h.storyRuns, h.guardedCount,
    h.creditWaiting]
  obtain ⟨⟨r, n, q, f, rfl⟩, -⟩ := h
  rfl

/-! ### The gateway, host and system pages -/

theorem QsNoted.localNs : d.localNs = c.localNs := by
  simp only [Chip.localNs, Chip.localTime, Chip.incr, h.cycles, h.field Chip.tStopped fun _ _ _ _ => rfl, h.field Chip.tBase fun _ _ _ _ => rfl,
    h.field Chip.tAnchor fun _ _ _ _ => rfl, h.reg (p := pTIME) (off := 0x180) (by decide) (by decide),
    h.reg (p := pTIME) (off := 0x184) (by decide) (by decide)]

theorem QsNoted.uartBaud (n : Nat) : d.uartBaud n = c.uartBaud n := by
  simp only [Chip.uartBaud, h.get _ F.UART_UART_CFG_BAUD, h.is pCLK F.CLK_CLK_SEL_GCLK_HFRC]

theorem QsNoted.uartLead (n : Nat) : d.uartLead n = c.uartLead n := by
  simp only [Chip.uartLead, Chip.uartEighths, h.uartBaud, Chip.rs485, h.is _ F.UART_RS485_CFG_EN, h.get _ F.UART_RS485_CFG_DE_LEAD]

/-- The turn-around gap of a UART, in cycles (R237). -/
theorem QsNoted.uartGap (n : Nat) :
    d.uartBits n (d.rs485 n F.UART_RS485_CFG_TURN_GAP) = c.uartBits n (c.rs485 n F.UART_RS485_CFG_TURN_GAP) := by
  simp only [Chip.uartBits, h.uartBaud, Chip.rs485, h.is _ F.UART_RS485_CFG_EN, h.get _ F.UART_RS485_CFG_TURN_GAP]

theorem QsNoted.clkSafe : d.clkSafe = c.clkSafe := by simp only [Chip.clkSafe, h.is pGW F.GW_GW_STATUS_CLK_SAFE]

theorem QsNoted.uartRt : d.uartRt = c.uartRt := h.field Chip.uartRt fun _ _ _ _ => rfl

theorem QsNoted.uartFree (n : Nat) : d.uartFree n = c.uartFree n := by
  simp only [Chip.uartFree, h.uartRt, h.uartGap, h.ready, h.clkSafe, h.mode, h.cycles]

theorem QsNoted.uartLed (n : Nat) : d.uartLed n = c.uartLed n := by
  simp only [Chip.uartLed, h.uartRt, h.localNs, h.uartLead, h.uartFree, h.timeValid, h.uartGap, h.cycles, h.field Chip.relsOf fun _ _ _ _ => rfl]

theorem QsNoted.uartStatus (n : Nat) : d.uartStatus n = c.uartStatus n := by
  simp only [Chip.uartStatus, Chip.uartDe, Chip.uartDeSince, h.uartRt, h.uartLed, h.clkSafe, h.cycles, h.is _ F.UART_RS485_CFG_EN]

theorem QsNoted.haltedMap : d.haltedMap = c.haltedMap := by
  have hring : ∀ r ∈ List.range 32, (if d.ringState r = rgHALTED then 2 ^ r else 0) = if c.ringState r = rgHALTED then 2 ^ r else 0 :=
    fun r hr => by rw [h.ringState (List.mem_range.1 hr)]
  rw [Chip.haltedMap, List.map_congr_left hring, Chip.haltedMap]

theorem QsNoted.wdtMs : d.wdtMs = c.wdtMs := by
  have hon : d.wdtOn = c.wdtOn := by rw [Chip.wdtOn, h.is pRST F.RST_WDT_CFG_EN, h.dormant, Chip.wdtOn]
  have htimeout : d.wdtTimeout = c.wdtTimeout := by rw [Chip.wdtTimeout, h.get pRST F.RST_WDT_CFG_TIMEOUT, Chip.wdtTimeout]
  rw [Chip.wdtMs, hon, htimeout, h.cycles, h.field Chip.wdt fun _ _ _ _ => rfl, Chip.wdtMs]

theorem QsNoted.measWord (i : Nat) : d.measWord i = c.measWord i := by
  simp only [Chip.measWord, h.get pBOOT F.BOOT_MEAS_SEL_V, h.field Chip.boot fun _ _ _ _ => rfl]

theorem QsNoted.slotInfo : d.slotInfo = c.slotInfo := by
  simp only [Chip.slotInfo, h.get_page (p := pPRISIL) (f := F.PRISIL_SLOT_SEL_V) rfl (by decide) (by decide), h.field Chip.slot fun _ _ _ _ => rfl]

theorem QsNoted.burnPending : d.burnPending = c.burnPending := by
  simp only [Chip.burnPending, h.is pUPD F.UPD_UPD_STATUS_TRIAL, h.get pUPD F.UPD_UPD_STATUS_THERM_COUNT, h.get pBOOT F.BOOT_FW_SECVER_SEC_VER]

theorem QsNoted.systemWord {p : Page} (req : Requester) (off : Nat) (w : Word) (hp : p.kind ≠ .qspis) :
    d.systemWord req p off w = c.systemWord req p off w := by
  have hclk := h.is pCLK F.CLK_CLK_SEL_GCLK_HFRC
  have huart := h.uartStatus
  have hhalt := h.haltedMap
  have hwdt := h.wdtMs
  have hmeas := h.measWord
  have hslot := h.slotInfo
  have hburn := h.burnPending
  have hsum := h.evtSum
  unfold Chip.systemWord
  simp only [hclk, huart, hhalt, hwdt, hmeas, hslot, hburn, hsum]
  obtain ⟨⟨r, n, q, f, rfl⟩, -⟩ := h
  split
  case h_14 _ _ hk => exact absurd hk hp
  all_goals rfl

/-! ### The read -/

theorem QsNoted.readRow {p : Page} {off : Nat} (req : Requester) (r : RegRow) (hp : pageValid p = true) (hne : p ≠ pQSPIS) (ho : off < 0x1000) :
    d.readRow req p off r = c.readRow req p off r := by
  have hkind : p.kind ≠ .qspis := fun hk => hne (by
    obtain ⟨kind, inst⟩ := p
    obtain rfl : kind = .qspis := hk
    exact congrArg _ (of_decide_eq_true hp))
  simp only [Chip.readRow, h.regAt_side _ hp hne ho, h.statusWord, h.evtEn, h.evtPend, Chip.tblAddr, h.regAt_side _ hp hne (off := 0x100) (by decide),
    h.tblStatusWord _ hp hne, h.planeWord, h.systemWord req _ _ hkind, h.field Chip.bufWord fun _ _ _ _ => rfl,
    h.field Chip.snapHalf fun _ _ _ _ => rfl]

theorem QsNoted.read {p : Page} {off : Nat} (req : Requester) (hp : pageValid p = true) (hne : p ≠ pQSPIS) (ho : off < 0x1000) :
    d.read req p off = c.read req p off := by
  simp only [Chip.read, h.reg_page hp hne ho, h.readRow req _ hp hne ho]

end

end Sys2Proof.Machine

/-! QSPI transactions (R255 to R257): an address, `QS_STATUS.CRC_FAIL`, the words of a read, a read command and its end. -/

namespace Sys2Proof.Machine

open Sys2Proof

/-! ## The parts of a transaction (R255, R256) -/

theorem leAt_one_lt (bs : List Byte) (i : Nat) : leAt bs i 1 < 256 := by
  have hbyte : byteAt bs i < 2 ^ 8 := BitVec.isLt _
  simpa [leAt] using hbyte

theorem qsHead_addr_lt {bs : List Byte} {opcode dev addr n : Nat} (h : qsHead bs opcode = some (dev, addr, n)) : addr < 2 ^ 24 := by
  have h1 := leAt_one_lt bs 1
  have h2 := leAt_one_lt bs 2
  have h3 := leAt_one_lt bs 3
  simp only [qsHead, Option.ite_none_right_eq_some, Option.some.injEq, Prod.mk.injEq] at h
  omega

theorem Chip.is_qsCrc (c : Chip) (failed : Bool) : (c.qsCrc failed).is pQSPIS F.QSPIS_QS_STATUS_CRC_FAIL = failed :=
  c.is_put_one failed rfl rfl rfl rfl

theorem Chip.cntAt_qsAbandon_qsCrc (c : Chip) (failed : Bool) (k : Nat) : (c.qsAbandon.qsCrc failed).cntAt k = c.cntAt k := rfl

theorem Chip.is_count (c : Chip) (q : Page) (i : Nat) (p : Page) (f : Fld) : (c.count q i).is p f = c.is p f := rfl

/-- The read in progress ends with a response. -/
def Chip.qsAnswered (c : Chip) (body : List Byte) : Chip := { c.qsSend body with qsRead := none }

section
variable (c : Chip) (body : List Byte)

theorem Chip.outs_qsSend : (c.qsSend body).outs = c.outs ++ [.qspiAnswer (body ++ [crc8 body])] := rfl

theorem Chip.is_qsSend (p : Page) (f : Fld) : (c.qsSend body).is p f = c.is p f := rfl

theorem Chip.cntAt_qsSend (k : Nat) : (c.qsSend body).cntAt k = c.cntAt k := rfl

theorem Chip.outs_qsAnswered : (c.qsAnswered body).outs = c.outs ++ [.qspiAnswer (body ++ [crc8 body])] := rfl

theorem Chip.is_qsAnswered (p : Page) (f : Fld) : (c.qsAnswered body).is p f = c.is p f := rfl

theorem Chip.cntAt_qsAnswered (k : Nat) : (c.qsAnswered body).cntAt k = c.cntAt k := rfl

theorem Chip.qsRead_qsAnswered : (c.qsAnswered body).qsRead = none := rfl

end

/-! ## A write (R256) -/

section
variable {c : Chip} {x : Ext} {bs : List Byte} (hdark : c.dark = false)
include hdark

theorem Chip.qspiWrite_badCrc (hbs : bs ≠ []) (hcrc : qsCrcOk bs = false) : let d := (c.qspiWrite x bs).1
    (c.qspiWrite x bs).2 = x ∧ d.is pQSPIS F.QSPIS_QS_STATUS_CRC_FAIL = true ∧ d.latched pQSPIS E.QSPIS_CRC_ERR = true
      ∧ d.cntAt (cntKey pQSPIS K.QSPIS_WR_CRC_ERR) = c.cntAt (cntKey pQSPIS K.QSPIS_WR_CRC_ERR) + 1 := by
  have heq : c.qspiWrite x bs = (((c.qsAbandon.qsCrc true).count pQSPIS K.QSPIS_WR_CRC_ERR).raise pQSPIS E.QSPIS_CRC_ERR, x) := by
    simp [Chip.qspiWrite, hdark, hbs, hcrc]
  rw [heq]
  refine ⟨rfl, ?_, Chip.latched_raise _ rfl (by decide), ?_⟩
  · rw [Chip.is, Chip.get_raise _ rfl rfl rfl, ← Chip.is, Chip.is_count, Chip.is_qsCrc]
  · rw [Chip.cntAt_raise_uncounted _ (by decide), Chip.cntAt_count_same, Chip.cntAt_qsAbandon_qsCrc]

theorem Chip.qspiWrite_one {dev addr : Nat} (hcrc : qsCrcOk bs = true) (hhead : qsHead bs 1 = some (dev, addr, 1)) (hlen : bs.length = 10) :
    c.qspiWrite x bs = ((c.qsAbandon.qsCrc false).count pQSPIS K.QSPIS_QS_WRITES).busWrite x .qspi (dev * 2 ^ 24 + addr) .word (qsWord bs 0) 0 := by
  have haddr : addr % 16777216 = addr := Nat.mod_eq_of_lt (qsHead_addr_lt hhead)
  simp [Chip.qspiWrite, hdark, hcrc, hhead, hlen, haddr]

/-- Giving up abandons what still waits of a read, and takes back nothing that its command brought about. -/
theorem Chip.qspiRead_shows (giveUp : Bool) (hbs : bs ≠ []) : let d := c.qspiRead bs giveUp
    let e := c.qspiCommand bs
    d.outs = e.outs ∧ (∀ p f, d.is p f = e.is p f) ∧ (∀ k, d.cntAt k = e.cntAt k) ∧ (e.qsRead = none → d.qsRead = none) := by
  simp only [Chip.qspiRead, hdark, Bool.false_eq_true, if_false, if_neg hbs]
  split
  · exact ⟨rfl, fun _ _ => rfl, fun _ => rfl, fun _ => rfl⟩
  · exact ⟨rfl, fun _ _ => rfl, fun _ => rfl, id⟩

end

/-! ## The words of a read (R257) -/

theorem Chip.qsPush_of_read {c : Chip} {q : QsRead} (w : Word) (hread : c.qsRead = some q) :
    c.qsPush w = { c with qsRead := some { q with got := q.got ++ [w], asked := false, sent := none } } := by
  rw [Chip.qsPush, hread]

section
variable {c : Chip} {q : QsRead} (hread : c.qsRead = some q) (hasked : q.asked = false)
include hread hasked

theorem Chip.qsStep_word {p : Page} (hmore : q.got.length < q.n) (hdev : q.dev = 0) (hpage : pageOfAddr q.next = some p)
    (hfence : ¬ (p = pHOST ∧ q.next % 0x1000 = 0x148)) : c.qsStep = c.qsPush (c.read .qspi p (q.next % 0x1000)) := by
  simp only [Chip.qsStep, hread, hasked, Bool.false_eq_true, if_false, if_neg (Nat.not_le.2 hmore), if_pos hdev, hpage, if_neg hfence]

theorem Chip.qsStep_last (hall : q.n ≤ q.got.length) : c.qsStep = c.qsAnswered (1 :: (q.got.map qsBytes).flatten) := by
  simp only [Chip.qsAnswered, Chip.qsStep, hread, hasked, Bool.false_eq_true, if_false, if_pos hall]

end

theorem Chip.qsStep_idle {c : Chip} (h : c.qsRead = none) : c.qsStep = c := by rw [Chip.qsStep, h]

theorem Chip.foldl_qsStep_idle {α : Type} {c : Chip} (l : List α) (h : c.qsRead = none) : l.foldl (fun (d : Chip) _ => d.qsStep) c = c := by
  induction l with
  | nil => rfl
  | cons _ l ih => rw [List.foldl_cons, c.qsStep_idle h, ih]

/-- A read of one word of a register page is answered at once. -/
theorem Chip.qsAdvance_one {c : Chip} {q : QsRead} {p : Page} (hread : c.qsRead = some q) (hasked : q.asked = false) (hgot : q.got = [])
    (hn : q.n = 1) (hdev : q.dev = 0) (hpage : pageOfAddr q.next = some p) (hfence : ¬ (p = pHOST ∧ q.next % 0x1000 = 0x148)) :
    c.qsAdvance = c.qsAnswered (1 :: qsBytes (c.read .qspi p (q.next % 0x1000))) := by
  have hsteps : List.range 65 = 0 :: 1 :: List.range' 2 63 := by decide
  have hpushed : c.qsPush (c.read .qspi p (q.next % 0x1000))
      = { c with qsRead := some { q with got := [c.read .qspi p (q.next % 0x1000)], asked := false, sent := none } } := by
    rw [Chip.qsPush_of_read _ hread, hgot, List.nil_append]
  rw [Chip.qsAdvance, hsteps, List.foldl_cons, List.foldl_cons, Chip.qsStep_word hread hasked (by simp [hgot, hn]) hdev hpage hfence, hpushed,
    Chip.qsStep_last rfl rfl (by simp [hn]), Chip.foldl_qsStep_idle _ rfl]
  simp [Chip.qsAnswered, Chip.qsSend, Chip.emit]

/-! ## The command of a read (R256, R257) -/

/-- What a read command is counted and noted as before its words are read. -/
def Chip.qsOpened (c : Chip) (failed : Bool) : Chip := ((c.qsAbandon).count pQSPIS K.QSPIS_QS_READS).qsCrc failed

theorem QsNoted.qsOpened (c : Chip) (failed : Bool) : QsNoted c (c.qsOpened failed) := ((QsNoted.refl c).qsAbandon.count ..).qsCrc failed

theorem Chip.cntAt_qsOpened_other (c : Chip) (failed : Bool) {i : Nat} (hi : i ≠ K.QSPIS_QS_READS) :
    (c.qsOpened failed).cntAt (cntKey pQSPIS i) = c.cntAt (cntKey pQSPIS i) := c.qsAbandon.cntAt_addCnt_slot pQSPIS 1 hi

theorem Chip.cntAt_qsOpened_reads (c : Chip) (failed : Bool) :
    (c.qsOpened failed).cntAt (cntKey pQSPIS K.QSPIS_QS_READS) = c.cntAt (cntKey pQSPIS K.QSPIS_QS_READS) + 1 := c.qsAbandon.cntAt_count_same ..

theorem Chip.is_qsOpened (c : Chip) (failed : Bool) : (c.qsOpened failed).is pQSPIS F.QSPIS_QS_STATUS_CRC_FAIL = failed := Chip.is_qsCrc ..

section
variable {c : Chip} {bs : List Byte}

theorem Chip.qspiCommand_badCrc (hcrc : qsCrcOk bs = false) : let d := c.qspiCommand bs
    d.outs = c.outs ++ [.qspiAnswer ([3] ++ [crc8 [3]])] ∧ d.is pQSPIS F.QSPIS_QS_STATUS_CRC_FAIL = true
      ∧ d.cntAt (cntKey pQSPIS K.QSPIS_CMD_CRC_ERR) = c.cntAt (cntKey pQSPIS K.QSPIS_CMD_CRC_ERR) + 1 := by
  rw [Chip.qspiCommand, hcrc, if_pos Bool.false_ne_true, ← Chip.qsOpened]
  refine ⟨Chip.outs_qsSend .., ?_, ?_⟩
  · rw [Chip.is_qsSend, Chip.is_count, Chip.is_qsOpened]
  · rw [Chip.cntAt_qsSend, Chip.cntAt_count_same, c.cntAt_qsOpened_other true (by decide)]

/-- A read of one word answers OK with the word as the command found it. -/
theorem Chip.qspiCommand_one {addr : Nat} {p : Page} (hcrc : qsCrcOk bs = true) (hhead : qsHead bs 2 = some (0, addr, 1)) (hlen : bs.length = 6)
    (hpage : pageOfAddr addr = some p) (hne : p ≠ pQSPIS) (hfence : p = pHOST → addr % 0x1000 ≠ 0x148) : let d := c.qspiCommand bs
    let body := 1 :: qsBytes (c.read .qspi p (addr % 0x1000))
    d.outs = c.outs ++ [.qspiAnswer (body ++ [crc8 body])] ∧ d.is pQSPIS F.QSPIS_QS_STATUS_CRC_FAIL = false ∧ d.qsRead = none
      ∧ d.cntAt (cntKey pQSPIS K.QSPIS_QS_READS) = c.cntAt (cntKey pQSPIS K.QSPIS_QS_READS) + 1 := by
  have hnext : QsRead.next { dev := 0, addr := addr, n := 1, at' := (c.qsOpened false).cycles } = addr :=
    Nat.mod_eq_of_lt (qsHead_addr_lt hhead)
  have hword := ((QsNoted.qsOpened c false).begin { dev := 0, addr := addr, n := 1, at' := (c.qsOpened false).cycles }).read .qspi
    (pageValid_of_pageOfAddr hpage) hne (off := addr % 0x1000) (Nat.mod_lt _ (by decide))
  rw [Chip.qspiCommand, hcrc, if_neg (not_not_intro rfl), ← Chip.qsOpened, hhead]
  simp only
  rw [if_pos hlen, Chip.qsAdvance_one rfl rfl rfl rfl rfl (by rw [hnext, hpage]) (by rw [hnext]; exact fun ⟨hp, ho⟩ => hfence hp ho), hnext, hword]
  refine ⟨Chip.outs_qsAnswered .., ?_, Chip.qsRead_qsAnswered .., ?_⟩
  · rw [Chip.is_qsAnswered]
    exact c.is_qsOpened false
  · rw [Chip.cntAt_qsAnswered]
    exact c.cntAt_qsOpened_reads false

end

/-! ## A read that takes too long (R257) -/

theorem Chip.capture_kept {α : Type} (c : Chip) (kind : Nat) (ws : List Word) (f : Chip → α)
    (hf : ∀ (w : Word) ring, f { c.setReg pHOST 0x154 w with capRing := ring } = f c) : f (c.capture kind ws) = f c := by
  unfold Chip.capture
  split
  · exact hf ..
  · rfl

theorem Chip.qsUr_eq (c : Chip) : c.qsUr = (c.count pQSPIS K.QSPIS_UR_READS).qsAnswered [2] := rfl

theorem Chip.qsUr_capture (c : Chip) (kind : Nat) (ws : List Word) : let d := (c.capture kind ws).qsUr
    d.qsRead = none ∧ d.outs = c.outs ++ [.qspiAnswer ([2] ++ [crc8 [2]])]
      ∧ d.cntAt (cntKey pQSPIS K.QSPIS_UR_READS) = c.cntAt (cntKey pQSPIS K.QSPIS_UR_READS) + 1 := by
  have houts : (c.capture kind ws).outs = c.outs := c.capture_kept kind ws Chip.outs fun _ _ => rfl
  have hcnt : (c.capture kind ws).cntAt = c.cntAt := c.capture_kept kind ws Chip.cntAt fun _ _ => rfl
  rw [Chip.qsUr_eq]
  refine ⟨Chip.qsRead_qsAnswered .., ?_, ?_⟩
  · rw [Chip.outs_qsAnswered, ← houts]
    rfl
  · rw [Chip.cntAt_qsAnswered, Chip.cntAt_count_same, hcnt]

theorem Chip.qspiTimeout_due {c : Chip} {q : QsRead} (hread : c.qsRead = some q) (hdue : q.at' + usCycles 200 ≤ c.cycles) :
    c.qspiTimeout = ({ c with fences := c.qsFences } : Chip).qsFail q := by
  simp only [Chip.qspiTimeout, hread, if_pos hdue]

/-! ## The obligation -/

/-- Settles O29: each transaction by the lemma above that says what it comes to; the word read is the command's by `QsNoted.read`. -/
theorem qspiTransactions : Obligations.QspiTransactions := by
  intro s dt dev addr bs giveUp p q c answer cnt fails hdark
  refine ⟨fun hbs hcrc => ⟨DoesExt.of_runExt rfl ?_, Does.of_run rfl ?_⟩, fun hcrc hhead hlen => DoesExt.of_runExt rfl ?_,
    fun hcrc hhead hlen hpage hne hfence => Does.of_run rfl ?_, fun hread hdue => Does.of_run rfl ?_⟩
  case refine_1 => exact Chip.qspiWrite_badCrc hdark hbs hcrc
  case refine_2 =>
    obtain ⟨houts, his, hcnt, -⟩ := Chip.qspiRead_shows hdark giveUp hbs
    obtain ⟨hanswer, hfail, herr⟩ := Chip.qspiCommand_badCrc (c := c) hcrc
    exact ⟨houts.trans hanswer, (his ..).trans hfail, (hcnt _).trans herr⟩
  case refine_3 =>
    rw [Chip.qspiWrite_one hdark hcrc hhead hlen]
    have hcount := (c.qsAbandon.qsCrc false).cntAt_count_same pQSPIS K.QSPIS_QS_WRITES
    rw [Chip.cntAt_qsAbandon_qsCrc] at hcount
    exact ⟨_, rfl, (Chip.is_count ..).trans (Chip.is_qsCrc ..), rfl, hcount⟩
  case refine_4 =>
    have hbs : bs ≠ [] := List.ne_nil_of_length_pos (by omega)
    obtain ⟨houts, his, hcnt, hidle⟩ := Chip.qspiRead_shows hdark giveUp hbs
    obtain ⟨hanswer, hfail, hnone, hcount⟩ := Chip.qspiCommand_one (c := c) hcrc hhead hlen hpage hne hfence
    exact ⟨houts.trans hanswer, (his ..).trans hfail, hidle hnone, (hcnt _).trans hcount⟩
  case refine_5 =>
    rw [Chip.qspiTimeout_due hread hdue]
    exact Chip.qsUr_capture ..

end Sys2Proof.Machine

/-! Register requests to ring peers (R291): what their failure and their answers leave. -/

namespace Sys2Proof.Machine

open Sys2Proof

/-! ## The relation -/

/-- `d` with all that the failure of requests to ring peers writes as in `c`. -/
def Chip.withFailures (d c : Chip) : Chip :=
  { d with
    regs := c.regs, cnt := c.cnt, outs := c.outs, failed := c.failed, pel := c.pel, pelSeq := c.pelSeq, capRing := c.capRing, aer := c.aer
    undecided := c.undecided, fences := c.fences, qsRead := c.qsRead }

/-- The key of `REMOTE_FAIL`. -/
abbrev remoteFailKey : Nat := cntKey pTRING K.TRING_REMOTE_FAIL

/-- From `c` to `d` `n` requests have failed, which their requesters may have been told, and no more. -/
structure Fails (n : Nat) (c d : Chip) : Prop where
  same : d.withFailures c = c
  counted : d.cntAt remoteFailKey = c.cntAt remoteFailKey + BitVec.ofNat 48 n

theorem Fails.refl (c : Chip) : Fails 0 c c := ⟨rfl, (BitVec.add_zero _).symm⟩

/-! The lemmas below carry the relation through one operation: the chain `h.op₁.op₂` reads as the program does. -/

section
variable {n : Nat} {c d e : Chip} {P : Prop} [Decidable P]

theorem Fails.ite (hd : Fails n c d) (he : Fails n c e) : Fails n c (if P then d else e) := by
  split
  · exact hd
  · exact he

theorem Fails.when (h : Fails n c d) (g : Fails n c d → Fails n c e) : Fails n c (if P then e else d) := .ite (g h) h

theorem Fails.unless (h : Fails n c d) (g : Fails n c d → Fails n c e) : Fails n c (if P then d else e) := .ite h (g h)

end

section
variable {n : Nat} {c d : Chip} (h : Fails n c d)
include h

theorem Fails.record {e : Chip} (hs : e.withFailures d = d) (hn : e.cnt = d.cnt) : Fails n c e := by
  refine ⟨?_, ?_⟩
  · calc e.withFailures c = (e.withFailures d).withFailures c := rfl
      _ = c := by rw [hs, h.same]
  · rw [Chip.cntAt, hn]
    exact h.counted

theorem Fails.field {α : Type} (f : Chip → α) (hf : ∀ x y, f (Chip.withFailures x y) = f x) : f d = f c := by
  rw [← hf d c, h.same]

/-! ## Outputs, events, captures -/

theorem Fails.emit (o : Output) : Fails n c (d.emit o) := h.record rfl rfl

theorem Fails.count {p : Page} {i : Nat} (hne : remoteFailKey ≠ cntKey p i) : Fails n c (d.count p i) :=
  ⟨h.same, (d.cntAt_addCnt_other p i 1 hne).trans h.counted⟩

theorem Fails.countFail : Fails (n + 1) c (d.count pTRING K.TRING_REMOTE_FAIL) := by
  refine ⟨h.same, ?_⟩
  rw [d.cntAt_count_same, h.counted, BitVec.ofNat_add, BitVec.add_assoc]
  rfl

theorem Fails.raise {p : Page} (b : Nat) (hp : pageValid p = true) : Fails n c (d.raise p b) := by
  refine ⟨?_, (d.cntAt_raise_uncounted (by decide) p b).trans h.counted⟩
  obtain ⟨⟨r, m, o, hd⟩, -⟩ := Loud.raise d b hp
  rw [hd]
  exact h.same

theorem Fails.capture (kind : Nat) (ws : List Word) : Fails n c (d.capture kind ws) := by
  delta Chip.capture
  exact h.when fun h => h.record rfl rfl

/-! ## Who is told of a failure (R254, R257, R262, R263) -/

theorem Fails.postedFail (req : Requester) (addr : Nat) (data : Word) (cause wseq : Nat) : Fails n c (d.postedFail req addr data cause wseq) := by
  delta Chip.postedFail
  extract_lets e c₁ c₂
  have h₁ : Fails n c c₁ := h.record rfl rfl
  have h₂ : Fails n c c₂ := ((h₁.count (by decide)).raise _ rfl).capture ..
  exact .ite (h₂.record rfl rfl) ((h₂.count (by decide)).raise _ rfl)

theorem Fails.noteUr (addr : Nat) : Fails n c (d.noteUr addr) := by
  delta Chip.noteUr
  extract_lets e
  have g : Fails n c e := (h.count (by decide)).capture ..
  exact g.record rfl rfl

theorem Fails.qsUr : Fails n c d.qsUr := by
  delta Chip.qsUr
  extract_lets e
  have g : Fails n c e := (h.count (by decide)).emit _
  clear_value e
  exact g.record rfl rfl

theorem Fails.qsSettle : Fails n c d.qsSettle := by
  delta Chip.qsSettle
  split
  · split
    · exact h.unless fun h => (h.capture ..).qsUr
    · exact h
  · exact h

theorem Fails.qsPush (w : Word) : Fails n c (d.qsPush w) := by
  delta Chip.qsPush
  split
  · exact h.record rfl rfl
  · exact h

theorem Fails.answerFence (req : Nat) (timeout : Bool) : Fails n c (d.answerFence req timeout) := by
  have g : Fails n c { d with fences := d.fences.eraseP fun e => decide (e.1 = req) } := h.record rfl rfl
  exact .ite (g.qsPush _) (g.emit _)

theorem Fails.settleFences : Fails n c d.settleFences :=
  List.foldlRecOn (motive := Fails n c) d.fences _ h fun _ h _ _ => h.when fun h => h.answerFence ..

theorem Fails.decided (req : Requester) : Fails n c (d.decided req) :=
  (h.record (e := { d with undecided := store 0 d.undecided (reqCode req) (d.undecidedOf (reqCode req) - 1) }) rfl rfl).settleFences

/-! ## Requests fail (R291) -/

theorem Fails.remoteFail (req : Requester) (write : Bool) (dev addr : Nat) (data : Word) (wseq cause : Nat) :
    Fails (n + 1) c (d.remoteFail req write dev addr data wseq cause) := by
  have g := h.countFail
  exact .ite (g.when fun h => h.postedFail ..) (g.unless fun h => .ite ((h.emit _).noteUr _) (h.emit _))

end

/-- The chip with other requests on their way. -/
def Chip.withRemotes (c : Chip) (es : List RemoteReq) : Chip := { c with remotes := es }

/-- The chip without the requests that `p` selects. -/
def Chip.dropRemotes (c : Chip) (p : RemoteReq → Bool) : Chip := c.withRemotes (c.remotes.filter fun e => !p e)

section
variable (c : Chip) (p : RemoteReq → Bool) (cause : Nat)

/-- The requests selected are gone, each of them counted. -/
theorem Chip.failRemotes_fails : Fails (c.remotes.filter p).length (c.dropRemotes p) (c.failRemotes p cause) := by
  have hfold : ∀ (l : List RemoteReq) (n : Nat) (d : Chip), Fails n (c.dropRemotes p) d → Fails (n + l.length) (c.dropRemotes p)
      (l.foldl (fun d e =>
        if e.orphan then d.count pTRING K.TRING_REMOTE_FAIL
        else
          let d := d.remoteFail e.req e.write e.dev e.addr e.data e.wseq cause
          if e.write then d.decided e.req else d) d) := by
    intro l
    induction l with
    | nil => exact fun _ _ h => h
    | cons e l ih =>
      intro n d h
      rw [List.length_cons, Nat.add_comm l.length, ← Nat.add_assoc]
      exact ih _ _ (.ite h.countFail ((h.remoteFail ..).when fun h => h.decided _))
  have hall := hfold (c.remotes.filter p) 0 (c.dropRemotes p) (Fails.refl _)
  rw [Nat.zero_add] at hall
  exact hall.qsSettle

theorem Chip.remotes_failRemotes : (c.failRemotes p cause).remotes = c.remotes.filter fun e => !p e :=
  (c.failRemotes_fails p cause).field Chip.remotes fun _ _ => rfl

theorem Chip.tenon_failRemotes (t : Nat) : (c.failRemotes p cause).tenon t = c.tenon t :=
  (c.failRemotes_fails p cause).field (Chip.tenon · t) fun _ _ => rfl

end

/-- The oldest request to a peer is not confirmed within 100 µs. -/
theorem Chip.peerTimeout_due {c : Chip} {e : RemoteReq} {es : List RemoteReq} (hremotes : c.remotes = e :: es) (hnew : e ∉ es)
    (hdue : e.at' + usCycles 100 ≤ c.cycles) : (c.peerTimeout e.dev).remotes = es
      ∧ (c.peerTimeout e.dev).cntAt remoteFailKey = c.cntAt remoteFailKey + 1 := by
  have hthat : ∀ x ∈ es, x ≠ e := fun x hx he => hnew (he ▸ hx)
  have hkept : (c.remotes.filter fun x => !decide (x = e)) = es := by
    rw [hremotes, List.filter_cons_of_neg (by simp)]
    exact List.filter_eq_self.2 fun x hx => by simp [hthat x hx]
  have hgone : c.remotes.filter (fun x => decide (x = e)) = [e] := by
    rw [hremotes, List.filter_cons_of_pos (by simp), List.filter_eq_nil_iff.2 fun x hx => by simp [hthat x hx]]
  have heq : c.peerTimeout e.dev = c.failRemotes (fun x => decide (x = e)) pePEER_TIMEOUT := by
    simp only [Chip.peerTimeout, hremotes, List.find?_cons, decide_true, if_pos hdue]
  rw [heq]
  have hfails := (c.failRemotes_fails (fun x => decide (x = e)) pePEER_TIMEOUT).counted
  rw [hgone] at hfails
  exact ⟨(c.remotes_failRemotes ..).trans hkept, hfails⟩

/-! ## Requests are answered (R291) -/

section
variable {c : Chip}

theorem Chip.qsSettle_idle (h : c.qsRead = none) : c.qsSettle = c := by
  simp only [Chip.qsSettle, h]

theorem Chip.qsAdvance_idle (h : c.qsRead = none) : c.qsAdvance = c :=
  List.foldl_fixed' (fun _ => by simp only [Chip.qsStep, h]) _

/-- A write is decided that no read of `BRG_FENCE` waits for. -/
theorem Chip.decided_unfenced (req : Requester) (h : c.fences = []) :
    c.decided req = { c with undecided := store 0 c.undecided (reqCode req) (c.undecidedOf (reqCode req) - 1) } := by
  simp only [Chip.decided, Chip.settleFences, h, List.foldl_nil]

variable {e : RemoteReq} {es : List RemoteReq} (hremotes : c.remotes = e :: es) (hwaits : e.waits = false) (horphan : e.orphan = false)
include hremotes hwaits horphan

/-- An answer decides the oldest request to its device: a write is applied. -/
theorem Chip.remoteAnswer_write (data : Word) (hwrite : e.write = true) :
    c.remoteAnswer e.dev 0 data = ((c.withRemotes es).decided e.req).qsSettle := by
  simp [Chip.remoteAnswer, Chip.withRemotes, hremotes, hwaits, horphan, hwrite]

/-- An answer decides the oldest request to its device: a read of firmware or of PCI Express has its data. -/
theorem Chip.remoteAnswer_read (data : Word) (hwrite : e.write = false) (hreq : e.req ≠ .qspi) :
    c.remoteAnswer e.dev 0 data = ((c.withRemotes es).emit (.readData e.req (remoteAddr e.dev e.addr) data)).qsSettle := by
  simp [Chip.remoteAnswer, Chip.withRemotes, hremotes, hwaits, horphan, hwrite, hreq]

end

end Sys2Proof.Machine

/-! What RING_STATUS and ROUTE_STATUS show of the ring (R288, R289): showing it changes no other page but for events. -/

namespace Sys2Proof.Machine

open Sys2Proof

/-- From `c` to `d` only counters, outputs, TRING's page and the registers of events have changed. -/
structure RingShown (c d : Chip) : Prop where
  same : ∃ r n o, d = c.noise r n o
  regs : ∀ q a, pageValid q = true → q ≠ pTRING → a < 0x1000 → quiet q a = true → d.reg q a = c.reg q a

theorem RingShown.refl (c : Chip) : RingShown c c := ⟨⟨c.regs, c.cnt, c.outs, rfl⟩, fun _ _ _ _ _ _ => rfl⟩

section
variable {c d : Chip} (h : RingShown c d)
include h

theorem RingShown.loud {e : Chip} (g : Loud d e) : RingShown c e := by
  obtain ⟨⟨r, n, o, rfl⟩, hregs⟩ := h
  obtain ⟨⟨r', n', o', rfl⟩, gregs⟩ := g
  exact ⟨⟨r', n', o', rfl⟩, fun q a hq hne ha hquiet => (gregs q a hq ha hquiet).trans (hregs q a hq hne ha hquiet)⟩

theorem RingShown.setReg {off : Nat} (w : Word) (ho : off < 0x1000) : RingShown c (d.setReg pTRING off w) := by
  obtain ⟨⟨r, n, o, rfl⟩, hregs⟩ := h
  exact ⟨⟨_, n, o, rfl⟩, fun q a hq hne ha hquiet => (Chip.reg_setReg_page _ _ hq rfl ha ho hne).trans (hregs q a hq hne ha hquiet)⟩

theorem RingShown.put (f : Fld) (v : Nat) (ho : f.off < 0x1000 := by decide) : RingShown c (d.put pTRING f v) := h.setReg _ ho

theorem RingShown.showConflict : RingShown c d.showConflict := h.put ..

theorem RingShown.ringShow : RingShown c d.ringShow := (((h.put ..).put ..).put ..).setReg _ (by decide)

theorem RingShown.ringUpdate : RingShown c d.ringUpdate := by
  delta Chip.ringUpdate
  extract_lets f old v e
  have g : RingShown c e := h.ringShow
  split
  · exact g
  · exact (g.put ..).loud (Loud.raise _ _ rfl)

theorem RingShown.field {α : Type} (f : Chip → α) (hf : ∀ r n o, f (c.noise r n o) = f c) : f d = f c := by
  obtain ⟨⟨r, n, o, rfl⟩, -⟩ := h
  exact hf r n o

theorem RingShown.tenon (t : Nat) : d.tenon t = c.tenon t := h.field (Chip.tenon · t) fun _ _ _ => rfl

theorem RingShown.get {p : Page} {f : Fld} (hp : pageValid p = true) (hne : p ≠ pTRING) (hf : f.quietOn p = true) : d.get p f = c.get p f := by
  simp only [Fld.quietOn, Fld.fits, Bool.and_eq_true, decide_eq_true_eq] at hf
  have hoff : f.actOff < 0x1000 := by unfold Fld.actOff; split <;> omega
  rw [Chip.get, h.regs p _ hp hne hoff hf.2, Chip.get]

end

/-- `RING_STATUS.ID_CONFLICT` shows the conflict of a link (R288). -/
theorem Chip.is_showConflict_tenon {c : Chip} {t : Nat} (ht : t < 2) (h : (c.tenon t).conflict.isSome = true) :
    c.showConflict.is pTRING F.TRING_RING_STATUS_ID_CONFLICT = true := by
  refine (c.is_put_one _ rfl rfl rfl rfl).trans ?_
  obtain rfl | rfl : t = 0 ∨ t = 1 := by omega
  · simp [h]
  · simp [h]

/-- `RING_STATUS.ID_CONFLICT` shows the conflict that firmware has seen (R296). -/
theorem Chip.is_showConflict_ehruz {c : Chip} (h : c.ehruzConflict.isSome = true) :
    c.showConflict.is pTRING F.TRING_RING_STATUS_ID_CONFLICT = true := by
  refine (c.is_put_one _ rfl rfl rfl rfl).trans ?_
  simp [h]

end Sys2Proof.Machine

/-! Tenon links (R287, R288, R292, R293): the states of a link and its flits. -/

namespace Sys2Proof.Machine

open Sys2Proof

theorem pageValid_pTENON {t : Nat} (ht : t < 2) : pageValid (pTENON t) = true := decide_eq_true ht

theorem pTENON_ne_pTRING (t : Nat) : pTENON t ≠ pTRING := by simp

@[simp] theorem Chip.tenon_addCnt (c : Chip) (p : Page) (i n t : Nat) : (c.addCnt p i n).tenon t = c.tenon t := rfl

@[simp] theorem Chip.remotes_count (c : Chip) (p : Page) (i : Nat) : (c.count p i).remotes = c.remotes := rfl

@[simp] theorem Chip.remotes_setTenon (c : Chip) (t : Nat) (x : TenonRt) : (c.setTenon t x).remotes = c.remotes := rfl

@[simp] theorem Chip.tenon_setTenon_same (c : Chip) (t : Nat) (x : TenonRt) : (c.setTenon t x).tenon t = x := lookupD_store_same ..

/-- A field of a TENON page that an event of any page leaves alone. -/
theorem quietOn_pTENON {f : Fld} {t : Nat} (hf : f.fits = true) (hne : f.actOff ≠ 0x018) : f.quietOn (pTENON t) = true := by
  simp [Fld.quietOn, quiet, still, hf, hne]

section
variable {t : Nat} (ht : t < 2)
include ht

theorem RingShown.get_pTENON {c d : Chip} {f : Fld} (h : RingShown c d) (hf : f.fits = true) (hne : f.actOff ≠ 0x018) :
    d.get (pTENON t) f = c.get (pTENON t) f := h.get (pageValid_pTENON ht) (pTENON_ne_pTRING t) (quietOn_pTENON hf hne)

theorem RingShown.tlState {c d : Chip} (h : RingShown c d) : d.tlState t = c.tlState t := h.get_pTENON ht rfl (by decide)

theorem Chip.tlState_tlTo (c : Chip) {st : Nat} (hst : st < 4) : (c.tlTo t st).tlState t = st :=
  (c.get_put_same _ (pageValid_pTENON ht) rfl rfl).trans (Nat.mod_eq_of_lt hst)

theorem Chip.get_put_pTENON (c : Chip) {p : Page} {f g : Fld} (v : Nat) (hp : pageValid p = true) (h : f.apart g = true) :
    (c.put (pTENON t) g v).get p f = c.get p f := c.get_put_apart v hp (pageValid_pTENON ht) h

end

theorem Chip.regs_setTenon (c : Chip) (t : Nat) (x : TenonRt) : (c.setTenon t x).regs = c.regs := rfl

theorem Chip.tenonUp_of_up {c : Chip} {t : Nat} (h : c.tlState t = tlUP) : c.tenonUp t = true := by
  unfold Chip.tlState at h
  simp [Chip.tenonUp, h]

/-! ## A link goes down (R63, R288) -/

/-- The chip once the frames and requests of the link are lost, and nothing is left of the link but its new state. -/
def Chip.tenonCleared (c : Chip) (t st : Nat) (partnerReset : Bool) : Chip :=
  ((if c.tenonUp t then c.tenonLost t partnerReset else c).setTenon t {}).setReg (pTENON t) 0x148 (BitVec.ofNat 32 st)

section
variable (c : Chip) {t : Nat} (st : Nat) (partnerReset : Bool)

theorem Chip.tenonDown_shown : RingShown (c.tenonCleared t st partnerReset) (c.tenonDown t st partnerReset) :=
  (RingShown.refl _).showConflict.ringUpdate

theorem Chip.tlState_tenonDown (ht : t < 2) (hst : st < 4) : (c.tenonDown t st partnerReset).tlState t = st := by
  refine ((c.tenonDown_shown st partnerReset).tlState ht).trans ?_
  change bitsAt ((c.tenonCleared t st partnerReset).reg (pTENON t) 0x148) 0 2 = st
  rw [Chip.tenonCleared, Chip.reg_setReg_same _ _ (pageValid_pTENON ht) (by decide), bitsAt, BitVec.toNat_ofNat]
  omega

theorem Chip.tenonUp_tenonDown (ht : t < 2) : (c.tenonDown t tlTRAIN partnerReset).tenonUp t = false := by
  have hst : (c.tenonDown t tlTRAIN partnerReset).get (pTENON t) F.TENON_TL_STATUS_STATE = tlTRAIN :=
    c.tlState_tenonDown tlTRAIN partnerReset ht (by decide)
  simp [Chip.tenonUp, hst]

/-- A link that leaves UP latches LINK_DOWN. -/
theorem Chip.latched_tenonDown (ht : t < 2) (hup : c.tlState t = tlUP) :
    (c.tenonDown t st partnerReset).latched (pTENON t) E.TENON_LINK_DOWN = true := by
  have hraised : ((c.count (pTENON t) K.TENON_LINK_DOWN).raise (pTENON t) E.TENON_LINK_DOWN).latched (pTENON t) E.TENON_LINK_DOWN = true :=
    Chip.latched_raise _ (pageValid_pTENON ht) (by decide)
  have hlost : Steady ((c.count (pTENON t) K.TENON_LINK_DOWN).raise (pTENON t) E.TENON_LINK_DOWN) (c.tenonLost t partnerReset) := by
    delta Chip.tenonLost
    extract_lets p peer c₀ c₁ c₂ c₃ c₄
    have h₁ : Steady c₀ c₁ := by
      rw [show c₁ = _ from if_pos hup]
      exact ((Steady.refl _).count ..).raise ..
    have h₃ : Steady c₀ c₃ := ((h₁.flushPort _).rxAbandon _).same (by rfl) (by rfl)
    exact (h₃.when fun h => h.failRemotes ..).failRemotes ..
  refine Steady.latched ?_ hraised
  rw [Chip.tenonDown, if_pos (Chip.tenonUp_of_up hup)]
  exact (((hlost.setTenon ..).setReg (by rfl) _).showConflict).ringUpdate

end

/-! ## Flits (R287) -/

/-- The chip once a flit has been counted. -/
def Chip.flitCounted (c : Chip) (t : Nat) : Chip := c.count (pTENON t) K.TENON_FLITS_RX

@[simp] theorem Chip.get_flitCounted (c : Chip) (t : Nat) (p : Page) (f : Fld) : (c.flitCounted t).get p f = c.get p f := c.get_count ..

@[simp] theorem Chip.tenon_flitCounted (c : Chip) (t k : Nat) : (c.flitCounted t).tenon k = c.tenon k := rfl

@[simp] theorem Chip.remotes_flitCounted (c : Chip) (t : Nat) : (c.flitCounted t).remotes = c.remotes := rfl

theorem Chip.cntAt_flitCounted_rx (c : Chip) (t : Nat) : (c.flitCounted t).cntAt (cntKey (pTENON t) K.TENON_FLITS_RX)
    = c.cntAt (cntKey (pTENON t) K.TENON_FLITS_RX) + 1 := c.cntAt_count_same ..

theorem Chip.cntAt_flitCounted_slot (c : Chip) (t : Nat) {i : Nat} (hi : i ≠ K.TENON_FLITS_RX) :
    (c.flitCounted t).cntAt (cntKey (pTENON t) i) = c.cntAt (cntKey (pTENON t) i) := c.cntAt_count_slot _ hi

/-- The ring IDs that the partner says it reaches, the partner's own among them (R289). -/
def Chip.reachHeard (c : Chip) (t ids : Nat) : Nat := ids % 16 ||| 2 ^ c.get (pTENON t) F.TENON_TL_STATUS_PEER_RING_ID

theorem Chip.reachHeard_flitCounted (c : Chip) (t ids : Nat) : (c.flitCounted t).reachHeard t ids = c.reachHeard t ids := by
  rw [Chip.reachHeard, Chip.get_flitCounted, Chip.reachHeard]

/-- A flit with new ring IDs is acknowledged and noted. -/
def Chip.reachNoted (c : Chip) (t ids : Nat) : Chip :=
  (c.count (pTENON t) K.TENON_FLITS_TX).setTenon t { c.tenon t with reach := c.reachHeard t ids }

theorem Chip.reach_reachNoted (c : Chip) (t ids : Nat) : ((c.reachNoted t ids).tenon t).reach = c.reachHeard t ids := by
  rw [Chip.reachNoted, Chip.tenon_setTenon_same]

theorem Chip.remotes_reachNoted (c : Chip) (t ids : Nat) : (c.reachNoted t ids).remotes = c.remotes := by
  rw [Chip.reachNoted, Chip.remotes_setTenon, Chip.remotes_count]

/-- A replay of the flits after the first `good`. -/
def Chip.replayed (c : Chip) (t good : Nat) : Chip :=
  (c.count (pTENON t) K.TENON_REPLAYS).setTenon t { c.tenon t with tries := (c.tenon t).tries + 1, unacked := (c.tenon t).unacked - good }

theorem Chip.get_replayed (c : Chip) (t good : Nat) (p : Page) (f : Fld) : (c.replayed t good).get p f = c.get p f :=
  (get_congr (Chip.regs_setTenon ..) p f).trans (c.get_count ..)

theorem Chip.tries_replayed (c : Chip) (t good : Nat) : ((c.replayed t good).tenon t).tries = (c.tenon t).tries + 1 := by
  rw [Chip.replayed, Chip.tenon_setTenon_same]

theorem Chip.cntAt_replayed (c : Chip) (t good k : Nat) :
    (c.replayed t good).cntAt k = (c.count (pTENON t) K.TENON_REPLAYS).cntAt k := rfl

section
variable {c : Chip} {t : Nat} (ht : t < 2) (hst : c.tlState t = tlUP ∨ c.tlState t = tlCALIBRATE)
include ht hst

theorem Chip.flitRx_content : c.flitRx t .content = (c.flitCounted t).count (pTENON t) K.TENON_FLITS_TX :=
  if_neg (not_not_intro ⟨ht, hst⟩)

theorem Chip.flitRx_bad : c.flitRx t .bad = ((c.flitCounted t).count (pTENON t) K.TENON_CRC_ERR).count (pTENON t) K.TENON_FLITS_TX :=
  if_neg (not_not_intro ⟨ht, hst⟩)

theorem Chip.flitRx_ack (n : Nat) : c.flitRx t (.ack n) = (c.flitCounted t).setTenon t
    { (c.flitCounted t).tenon t with tries := 0, unacked := ((c.flitCounted t).tenon t).unacked - n } :=
  if_neg (not_not_intro ⟨ht, hst⟩)

theorem Chip.flitRx_peerReset (dev : Nat) : c.flitRx t (.peerReset dev)
    = ((c.flitCounted t).count (pTENON t) K.TENON_FLITS_TX).failRemotes (fun e => decide (e.dev = dev % 4)) pePEER_RESET :=
  if_neg (not_not_intro ⟨ht, hst⟩)

theorem Chip.flitRx_reach (ids : Nat) : c.flitRx t (.reach ids) = (((c.flitCounted t).reachNoted t ids).failRemotes
    (fun e => decide (e.link = t) && !((c.flitCounted t).reachHeard t ids).testBit e.dev) pePEER_DOWN).ringUpdate :=
  if_neg (not_not_intro ⟨ht, hst⟩)

theorem Chip.flitRx_replay (good : Nat) : c.flitRx t (.replay good)
    = if ((c.flitCounted t).replayed t good).get (pTENON t) F.TENON_TL_CFG_RETRY_LIMIT ≤ ((c.flitCounted t).tenon t).tries + 1 then
        ((((c.flitCounted t).replayed t good).count (pTENON t) K.TENON_RETRY_FAIL).raise (pTENON t) E.TENON_RETRY_FAIL).tenonDown t tlTRAIN false
      else ((c.flitCounted t).replayed t good).addCnt (pTENON t) K.TENON_FLITS_TX (((c.flitCounted t).tenon t).unacked - good) :=
  if_neg (not_not_intro ⟨ht, hst⟩)

/-! ### What each leaves -/

theorem Chip.content_counted {i : Nat} (hi : i = K.TENON_FLITS_RX ∨ i = K.TENON_FLITS_TX) :
    (c.flitRx t .content).cntAt (cntKey (pTENON t) i) = c.cntAt (cntKey (pTENON t) i) + 1 := by
  rw [Chip.flitRx_content ht hst]
  rcases hi with rfl | rfl
  · rw [Chip.cntAt_count_slot _ _ (by decide), Chip.cntAt_flitCounted_rx]
  · rw [Chip.cntAt_count_same, Chip.cntAt_flitCounted_slot _ _ (by decide)]

theorem Chip.bad_counted :
    (c.flitRx t .bad).cntAt (cntKey (pTENON t) K.TENON_CRC_ERR) = c.cntAt (cntKey (pTENON t) K.TENON_CRC_ERR) + 1 := by
  rw [Chip.flitRx_bad ht hst, Chip.cntAt_count_slot _ _ (by decide), Chip.cntAt_count_same, Chip.cntAt_flitCounted_slot _ _ (by decide)]

theorem Chip.ack_noted (n : Nat) : ((c.flitRx t (.ack n)).tenon t).tries = 0
    ∧ ((c.flitRx t (.ack n)).tenon t).unacked = (c.tenon t).unacked - n := by
  rw [Chip.flitRx_ack ht hst, Chip.tenon_setTenon_same, Chip.tenon_flitCounted]
  exact ⟨rfl, rfl⟩

theorem Chip.reach_noted (ids : Nat) : ((c.flitRx t (.reach ids)).tenon t).reach = c.reachHeard t ids
    ∧ (c.flitRx t (.reach ids)).remotes = c.remotes.filter fun e => !(decide (e.link = t) && !(c.reachHeard t ids).testBit e.dev) := by
  rw [Chip.flitRx_reach ht hst, Chip.reachHeard_flitCounted]
  have hshown := (RingShown.refl
    (((c.flitCounted t).reachNoted t ids).failRemotes (fun e => decide (e.link = t) && !(c.reachHeard t ids).testBit e.dev) pePEER_DOWN)).ringUpdate
  refine ⟨?_, ?_⟩
  · rw [hshown.tenon t, Chip.tenon_failRemotes, Chip.reach_reachNoted, Chip.reachHeard_flitCounted]
  · rw [hshown.field Chip.remotes fun _ _ _ => rfl, Chip.remotes_failRemotes, Chip.remotes_reachNoted, Chip.remotes_flitCounted]

theorem Chip.peerReset_fails (dev : Nat) : (c.flitRx t (.peerReset dev)).remotes = c.remotes.filter fun e => !decide (e.dev = dev % 4) := by
  rw [Chip.flitRx_peerReset ht hst, Chip.remotes_failRemotes, Chip.remotes_count, Chip.remotes_flitCounted]

theorem Chip.replay_again {good : Nat} (hlimit : (c.tenon t).tries + 1 < c.get (pTENON t) F.TENON_TL_CFG_RETRY_LIMIT) :
    let d := c.flitRx t (.replay good)
    (d.tenon t).tries = (c.tenon t).tries + 1 ∧ d.tlState t = c.tlState t
      ∧ d.cntAt (cntKey (pTENON t) K.TENON_REPLAYS) = c.cntAt (cntKey (pTENON t) K.TENON_REPLAYS) + 1
      ∧ d.cntAt (cntKey (pTENON t) K.TENON_FLITS_TX)
        = c.cntAt (cntKey (pTENON t) K.TENON_FLITS_TX) + BitVec.ofNat 48 ((c.tenon t).unacked - good) := by
  have hagain : ¬ c.get (pTENON t) F.TENON_TL_CFG_RETRY_LIMIT ≤ (c.tenon t).tries + 1 := by omega
  rw [Chip.flitRx_replay ht hst, Chip.get_replayed, Chip.get_flitCounted, Chip.tenon_flitCounted, if_neg hagain]
  refine ⟨?_, ?_, ?_, ?_⟩
  · rw [Chip.tenon_addCnt, Chip.tries_replayed, Chip.tenon_flitCounted]
  · rw [Chip.tlState, Chip.get_addCnt, Chip.get_replayed, Chip.get_flitCounted, Chip.tlState]
  · rw [Chip.cntAt_addCnt_slot _ _ _ (by decide), Chip.cntAt_replayed, Chip.cntAt_count_same, Chip.cntAt_flitCounted_slot _ _ (by decide)]
  · rw [Chip.cntAt_addCnt_same, Chip.cntAt_replayed, Chip.cntAt_count_slot _ _ (by decide), Chip.cntAt_flitCounted_slot _ _ (by decide)]

theorem Chip.replay_fails {good : Nat} (hlimit : c.get (pTENON t) F.TENON_TL_CFG_RETRY_LIMIT ≤ (c.tenon t).tries + 1) :
    let d := c.flitRx t (.replay good)
    d.tlState t = tlTRAIN ∧ d.latched (pTENON t) E.TENON_RETRY_FAIL = true := by
  rw [Chip.flitRx_replay ht hst, Chip.get_replayed, Chip.get_flitCounted, Chip.tenon_flitCounted, if_pos hlimit]
  exact ⟨Chip.tlState_tenonDown _ _ _ ht (by decide),
    ((Steady.refl _).tenonDown ..).latched (Chip.latched_raise _ (pageValid_pTENON ht) (by decide))⟩

theorem Chip.tenonLaneLoss_down (b : Bool) : let d := c.tenonLaneLoss t b
    d.tlState t = tlTRAIN ∧ d.tenonUp t = false ∧ (c.tlState t = tlUP → d.latched (pTENON t) E.TENON_LINK_DOWN = true) := by
  intro d
  have hd : d = c.tenonDown t tlTRAIN b := if_pos ⟨ht, hst⟩
  rw [hd]
  exact ⟨c.tlState_tenonDown _ b ht (by decide), c.tenonUp_tenonDown b ht, c.latched_tenonDown _ b ht⟩

end

/-! ## Training (R288) -/

/-- All lanes are locked; TL_STATUS shows the partner. -/
def Chip.partnerShown (c : Chip) (t peer : Nat) (reversed : Bool) : Chip :=
  (((c.put (pTENON t) F.TENON_TL_STATUS_LANES 15).put (pTENON t) F.TENON_TL_STATUS_LANE_REVERSED reversed.toNat).put (pTENON t)
    F.TENON_TL_STATUS_PEER_RING_ID peer).put (pTENON t) F.TENON_TL_STATUS_PEER_VALID 1

section
variable {c : Chip} {t : Nat} (ht : t < 2)
include ht

theorem Chip.get_partnerShown (peer : Nat) (reversed : Bool) {p : Page} {f : Fld} (hp : pageValid p = true)
    (hlanes : f.apart F.TENON_TL_STATUS_LANES = true) (hreversed : f.apart F.TENON_TL_STATUS_LANE_REVERSED = true)
    (hpeer : f.apart F.TENON_TL_STATUS_PEER_RING_ID = true) (hvalid : f.apart F.TENON_TL_STATUS_PEER_VALID = true) :
    (c.partnerShown t peer reversed).get p f = c.get p f := by
  rw [Chip.partnerShown, Chip.get_put_pTENON ht _ _ hp hvalid, Chip.get_put_pTENON ht _ _ hp hpeer, Chip.get_put_pTENON ht _ _ hp hreversed,
    Chip.get_put_pTENON ht _ _ hp hlanes]

theorem Chip.peer_partnerShown {peer : Nat} (reversed : Bool) (hpeer : peer < 4) :
    (c.partnerShown t peer reversed).get (pTENON t) F.TENON_TL_STATUS_PEER_RING_ID = peer := by
  rw [Chip.partnerShown, Chip.get_put_pTENON ht _ _ (pageValid_pTENON ht) (by decide), Chip.get_put_same _ _ (pageValid_pTENON ht) rfl rfl]
  exact Nat.mod_eq_of_lt hpeer

theorem Chip.reversed_partnerShown (peer : Nat) (reversed : Bool) :
    (c.partnerShown t peer reversed).is (pTENON t) F.TENON_TL_STATUS_LANE_REVERSED = reversed := by
  have hp := pageValid_pTENON ht
  rw [Chip.is, Chip.partnerShown, Chip.get_put_pTENON ht _ _ hp (by decide), Chip.get_put_pTENON ht _ _ hp (by decide), ← Chip.is]
  exact Chip.is_put_one _ reversed hp rfl rfl rfl

theorem Chip.ringId_partnerShown (peer : Nat) (reversed : Bool) : (c.partnerShown t peer reversed).ringId = c.ringId :=
  Chip.get_partnerShown ht peer reversed rfl (by decide) (by decide) (by decide) (by decide)

omit ht in
theorem Chip.cycles_partnerShown (peer : Nat) (reversed : Bool) : (c.partnerShown t peer reversed).cycles = c.cycles := by
  simp only [Chip.partnerShown, Chip.cycles_put]

end

/-- A chip on which the partner has the own ring ID. -/
def Chip.conflictNoted (c : Chip) (t : Nat) : Chip := c.setTenon t { c.tenon t with conflict := some c.cycles }

theorem Chip.conflict_conflictNoted (c : Chip) (t : Nat) : ((c.conflictNoted t).tenon t).conflict = some c.cycles := by
  rw [Chip.conflictNoted, Chip.tenon_setTenon_same]

section
variable {c : Chip} {t : Nat} (ht : t < 2) (hst : c.tlState t = tlTRAIN) (hidle : (c.tenon t).conflict = none)
include ht hst hidle

theorem Chip.tenonTrained_eq (peer : Nat) (reversed : Bool) : c.tenonTrained t peer reversed = let d := c.partnerShown t peer reversed
    if peer % 4 = d.ringId then
      ((d.conflictNoted t).showConflict.count pTRING K.TRING_ID_CONFLICT).raise pTRING E.TRING_ID_CONFLICT
    else (d.tlTo t tlCALIBRATE).setTenon t { d.tenon t with remeasure := false } :=
  if_neg (by simp [ht, hst, hidle])

/-- Another ring ID than the own: the link goes on to CALIBRATE. -/
theorem Chip.tenonTrained_calibrates {peer : Nat} (reversed : Bool) (hpeer : peer < 4) (hne : peer ≠ c.ringId) :
    let d := c.tenonTrained t peer reversed
    d.tlState t = tlCALIBRATE ∧ d.get (pTENON t) F.TENON_TL_STATUS_PEER_RING_ID = peer
      ∧ d.is (pTENON t) F.TENON_TL_STATUS_LANE_REVERSED = reversed := by
  have hp := pageValid_pTENON ht
  let d := c.partnerShown t peer reversed
  have hother : ¬ peer % 4 = d.ringId := by
    rw [Nat.mod_eq_of_lt hpeer]
    exact fun h => hne (h.trans (Chip.ringId_partnerShown ht peer reversed))
  have hget : ∀ x f, ((d.tlTo t tlCALIBRATE).setTenon t x).get (pTENON t) f = (d.tlTo t tlCALIBRATE).get (pTENON t) f :=
    fun _ f => get_congr (Chip.regs_setTenon ..) _ f
  rw [Chip.tenonTrained_eq ht hst hidle, if_neg hother]
  refine ⟨(hget _ _).trans (Chip.tlState_tlTo ht _ (by decide)), (hget _ _).trans ?_, ?_⟩
  · exact (Chip.get_put_pTENON ht _ _ hp (by decide)).trans (Chip.peer_partnerShown ht reversed hpeer)
  · rw [Chip.is, hget, Chip.tlTo, Chip.get_put_pTENON ht _ _ hp (by decide), ← Chip.is]
    exact Chip.reversed_partnerShown ht peer reversed

/-- The own ring ID: the link stays in TRAIN, and the conflict is shown and latched. -/
theorem Chip.tenonTrained_conflicts {peer : Nat} (reversed : Bool) (hpeer : peer < 4) (heq : peer = c.ringId) :
    let d := c.tenonTrained t peer reversed
    d.tlState t = tlTRAIN ∧ d.latched pTRING E.TRING_ID_CONFLICT = true
      ∧ d.is pTRING F.TRING_RING_STATUS_ID_CONFLICT = true ∧ (d.tenon t).conflict = some c.cycles := by
  let d := c.partnerShown t peer reversed
  let e := d.conflictNoted t
  have hown : peer % 4 = d.ringId := by
    rw [Nat.mod_eq_of_lt hpeer]
    exact heq.trans (Chip.ringId_partnerShown ht peer reversed).symm
  have hloud : Loud e.showConflict ((e.showConflict.count pTRING K.TRING_ID_CONFLICT).raise pTRING E.TRING_ID_CONFLICT) :=
    (Calm.count ..).loud.trans (Loud.raise _ _ rfl)
  have hshown := (RingShown.refl e).showConflict.loud hloud
  have hconflict : (e.tenon t).conflict = some c.cycles := by
    rw [d.conflict_conflictNoted t, Chip.cycles_partnerShown]
  have hstate : e.tlState t = tlTRAIN := by
    refine (get_congr (Chip.regs_setTenon ..) _ _).trans (Eq.trans ?_ hst)
    exact Chip.get_partnerShown ht peer reversed (pageValid_pTENON ht) (by decide) (by decide) (by decide) (by decide)
  rw [Chip.tenonTrained_eq ht hst hidle, if_pos hown]
  refine ⟨(hshown.tlState ht).trans hstate, Chip.latched_raise _ rfl (by decide), ?_, ?_⟩
  · rw [hloud.is rfl (by decide)]
    exact Chip.is_showConflict_tenon ht (by rw [hconflict]; rfl)
  · rw [hshown.tenon t, hconflict]

end

/-- 100 ms after a conflict. -/
theorem Chip.tenonRetry_due {c : Chip} {t since : Nat} (ht : t < 2) (hconflict : (c.tenon t).conflict = some since)
    (hdue : since + msCycles 100 ≤ c.cycles) : ((c.tenonRetry t).tenon t).conflict = none := by
  have heq : c.tenonRetry t = (c.setTenon t { c.tenon t with conflict := none }).showConflict := by
    rw [Chip.tenonRetry, hconflict]
    exact if_pos ⟨ht, hdue⟩
  rw [heq, ((RingShown.refl _).showConflict).tenon t, Chip.tenon_setTenon_same]

/-! ## Calibration (R292) -/

/-- LINK_LAT shows the measured latency with LAT_ASYM, and the link is UP. -/
def Chip.calibrated (c : Chip) (t lat : Nat) : Chip :=
  let d := (c.addCnt (pTENON t) K.TENON_FLITS_TX 32).addCnt (pTENON t) K.TENON_FLITS_RX 32
  (d.put (pTENON t) F.TENON_LINK_LAT_PS (unsignedOf (max 0 ((lat : Int) + signedOf (d.get (pTENON t) F.TENON_LAT_ASYM_PS) 16)) 20)).tlTo t tlUP

/-- LINK_UP is raised, for port 28 + `t` too unless the link has only been measured anew. -/
def Chip.upRaised (c : Chip) (t : Nat) (again : Bool) : Chip :=
  let d := c.raise (pTENON t) E.TENON_LINK_UP
  if again then d else d.raise (pPORT (28 + t)) E.PORT_LINK_UP

theorem Chip.regs_sendWaiting (c : Chip) (t : Nat) : (c.sendWaiting t).regs = c.regs := rfl

section
variable (c : Chip) {t : Nat} (ht : t < 2) (again : Bool)
include ht

theorem Chip.upRaised_loud : Loud c (c.upRaised t again) := by
  have hraised : Loud c (c.raise (pTENON t) E.TENON_LINK_UP) := Loud.raise c _ (pageValid_pTENON ht)
  unfold Chip.upRaised
  dsimp only
  split
  · exact hraised
  · exact hraised.trans (Loud.raise _ _ (decide_eq_true (show 28 + t < 31 by omega)))

theorem Chip.latched_upRaised : (c.upRaised t again).latched (pTENON t) E.TENON_LINK_UP = true := by
  have hlatched := c.latched_raise (b := E.TENON_LINK_UP) (pageValid_pTENON ht) (by decide)
  unfold Chip.upRaised
  dsimp only
  split
  · exact hlatched
  · exact ((Steady.refl _).raise ..).latched hlatched

theorem Chip.upRaised_shown : let d := ((c.upRaised t again).sendWaiting t).ringUpdate
    (∀ {f : Fld}, f.fits = true → f.actOff ≠ 0x018 → d.get (pTENON t) f = c.get (pTENON t) f)
      ∧ d.latched (pTENON t) E.TENON_LINK_UP = true := by
  have hregs := (c.upRaised t again).regs_sendWaiting t
  have hshown := (RingShown.refl ((c.upRaised t again).sendWaiting t)).ringUpdate
  have hsteady : Steady (c.upRaised t again) ((c.upRaised t again).sendWaiting t) := (Steady.refl _).same hregs rfl
  refine ⟨fun {f} hf hne => ?_, hsteady.ringUpdate.latched (c.latched_upRaised ht again)⟩
  have hquiet := quietOn_pTENON (t := t) hf hne
  simp only [Fld.quietOn, Bool.and_eq_true] at hquiet
  rw [hshown.get_pTENON ht hf hne, get_congr hregs]
  exact (c.upRaised_loud ht again).get (pageValid_pTENON ht) hf hquiet.2

end

section
variable {c : Chip} {t : Nat} (ht : t < 2)
include ht

theorem Chip.tlState_calibrated (lat : Nat) : (c.calibrated t lat).tlState t = tlUP := Chip.tlState_tlTo ht _ (by decide)

/-- Without LAT_ASYM the latency stands as it was measured, where it fits. -/
theorem Chip.lat_calibrated {lat : Nat} (hasym : c.get (pTENON t) F.TENON_LAT_ASYM_PS = 0) (hlat : lat < 2 ^ 20) :
    (c.calibrated t lat).get (pTENON t) F.TENON_LINK_LAT_PS = lat := by
  have hp := pageValid_pTENON ht
  have hsum : unsignedOf (max 0 ((lat : Int) + signedOf 0 16)) 20 = lat := by
    rw [show signedOf 0 16 = 0 from rfl, unsignedOf]
    omega
  rw [Chip.calibrated, Chip.tlTo, Chip.get_put_pTENON ht _ _ hp (by decide), Chip.get_put_same _ _ hp rfl rfl, Chip.get_addCnt, Chip.get_addCnt,
    hasym, hsum]
  exact Nat.mod_eq_of_lt hlat

variable (hst : c.tlState t = tlCALIBRATE)
include hst

/-- With 16 calibration flits the link is UP, which is raised; the requests that waited leave, and the ring is shown. -/
theorem Chip.tenonCalibrated_eq (flits : List (Nat × Nat)) (reach : Nat) (hlen : 16 ≤ flits.length) :
    ∃ x again, c.tenonCalibrated t flits reach
      = ((((c.calibrated t (latencyOf flits)).setTenon t x).upRaised t again).sendWaiting t).ringUpdate := by
  rw [Chip.tenonCalibrated, if_neg (by simp [ht, hst, hlen])]
  exact ⟨_, _, rfl⟩

theorem Chip.tenonCalibrated_up (flits : List (Nat × Nat)) (reach : Nat) (hlen : 16 ≤ flits.length) : let d := c.tenonCalibrated t flits reach
    d.tlState t = tlUP ∧ d.latched (pTENON t) E.TENON_LINK_UP = true
      ∧ d.get (pTENON t) F.TENON_LINK_LAT_PS = (c.calibrated t (latencyOf flits)).get (pTENON t) F.TENON_LINK_LAT_PS := by
  obtain ⟨x, again, hx⟩ := Chip.tenonCalibrated_eq ht hst flits reach hlen
  obtain ⟨hget, hlatched⟩ := Chip.upRaised_shown ((c.calibrated t (latencyOf flits)).setTenon t x) ht again
  have hlat := fun (f : Fld) (hf : f.fits = true) hne => (hget hf hne).trans (get_congr (Chip.regs_setTenon ..) _ _)
  rw [hx]
  exact ⟨(hlat _ rfl (by decide)).trans (Chip.tlState_calibrated ht _), hlatched, hlat _ rfl (by decide)⟩

omit ht hst in
theorem Chip.tenonCalibrated_few (t : Nat) {flits : List (Nat × Nat)} (reach : Nat) (hlen : flits.length < 16) : c.tenonCalibrated t flits reach = c :=
  if_pos (.inr hlen)

end

/-! ## TL_CMD (R288) and credit (R293) -/

section
variable {c : Chip} {t : Nat} {req : Requester} (ht : t < 2) (htakes : c.takes req = true) (hst : c.tlState t = tlUP)
include ht htakes hst

theorem Chip.tlCmd_retrain : c.tlCmd req t 1 (·.tenonRetrain t) = (c.sequenced req).tenonDown t tlTRAIN false := by
  rw [Chip.tlCmd, c.command_ok htakes (pageValid_pTENON ht)]
  exact if_pos ⟨ht, (c.get_sequenced ..).trans hst⟩

theorem Chip.tlCmd_remeasure : c.tlCmd req t 2 (·.tenonRemeasure t)
    = ((c.sequenced req).tlTo t tlCALIBRATE).setTenon t { (c.sequenced req).tenon t with remeasure := true } := by
  rw [Chip.tlCmd, c.command_ok htakes (pageValid_pTENON ht)]
  exact if_pos ⟨ht, (c.get_sequenced ..).trans hst⟩

theorem Chip.retrain_down : let d := c.tlCmd req t 1 (·.tenonRetrain t)
    d.tlState t = tlTRAIN ∧ d.latched (pTENON t) E.TENON_LINK_DOWN = true := by
  intro d
  have hd : d = (c.sequenced req).tenonDown t tlTRAIN false := Chip.tlCmd_retrain ht htakes hst
  rw [hd]
  exact ⟨Chip.tlState_tenonDown _ _ _ ht (by decide), Chip.latched_tenonDown _ _ _ ht ((c.get_sequenced ..).trans hst)⟩

/-- Frames wait while the latency is measured anew. -/
theorem Chip.remeasure_waits : let d := c.tlCmd req t 2 (·.tenonRemeasure t)
    d.tlState t = tlCALIBRATE ∧ d.tenonUp t = true ∧ d.queues = c.queues := by
  intro d
  have hd : d = ((c.sequenced req).tlTo t tlCALIBRATE).setTenon t { (c.sequenced req).tenon t with remeasure := true } :=
    Chip.tlCmd_remeasure ht htakes hst
  have hstate : d.tlState t = tlCALIBRATE := by
    rw [hd]
    exact Chip.tlState_tlTo ht (c.sequenced req) (by decide)
  have hanew : (d.tenon t).remeasure = true := by rw [hd, Chip.tenon_setTenon_same]
  have hget : d.get (pTENON t) F.TENON_TL_STATUS_STATE = 2 := hstate
  refine ⟨hstate, by simp [Chip.tenonUp, hget, hanew], ?_⟩
  rw [hd]
  exact c.queues_sequenced req

end

theorem Chip.creditReturn_given {c : Chip} {t cls : Nat} (bytes : Nat) (ht : t < 2) (hcls : cls < 8) (hup : c.tenonUp t = true) :
    (c.creditReturn t cls bytes).creditUsed t cls = c.creditUsed t cls - bytes := by
  have heq : c.creditReturn t cls bytes
      = c.setTenon t { c.tenon t with used := store 0 (c.tenon t).used cls (c.creditUsed t cls - bytes) } := if_pos ⟨ht, hcls, hup⟩
  rw [heq, Chip.creditUsed, Chip.tenon_setTenon_same]
  exact lookupD_store_same ..

/-! ## The statement -/

/-- Settles O32: flits, training, calibration, commands and credit by the lemmas above. -/
theorem tenonLinks : Obligations.TenonLinks := by
  intro s dt t peer reach since cls bytes ids n dev flits req b c p st x cnt ht
  refine ⟨fun hst => ⟨.of_run rfl ⟨Chip.content_counted ht hst (.inl rfl), Chip.content_counted ht hst (.inr rfl)⟩,
      .of_run rfl (Chip.bad_counted ht hst), .of_run rfl (Chip.ack_noted ht hst n), .of_run rfl (Chip.reach_noted ht hst ids),
      .of_run rfl (Chip.peerReset_fails ht hst dev), fun hlimit => .of_run rfl (Chip.replay_again ht hst hlimit),
      fun hlimit => .of_run rfl (Chip.replay_fails ht hst hlimit), .of_run rfl (Chip.tenonLaneLoss_down ht hst b)⟩,
    fun hst hidle hpeer => ⟨fun hne => .of_run rfl (Chip.tenonTrained_calibrates ht hst hidle b hpeer hne),
      fun heq => .of_run rfl (Chip.tenonTrained_conflicts ht hst hidle b hpeer heq)⟩,
    fun hconflict hdue => .of_run rfl (Chip.tenonRetry_due ht hconflict hdue),
    fun hst => ⟨fun hlen => .of_run rfl ?few, fun hlen => .of_run rfl ?up⟩,
    fun htakes hst => ⟨.of_run rfl (Chip.retrain_down ht htakes hst), .of_run rfl (Chip.remeasure_waits ht htakes hst)⟩,
    fun hcls hup => .of_run rfl (Chip.creditReturn_given bytes ht hcls hup)⟩
  case few =>
    rw [Chip.tenonCalibrated_few t reach hlen]
    exact hst
  case up =>
    obtain ⟨hup, hlatched, hlat⟩ := Chip.tenonCalibrated_up ht hst flits reach hlen
    exact ⟨hup, Chip.tenonUp_of_up hup, hlatched, fun hasym hfits => hlat.trans (Chip.lat_calibrated ht hasym hfits)⟩

end Sys2Proof.Machine

/-! Register requests of ring peers (R291) and Ehruz requests (R295, R296). -/

namespace Sys2Proof.Machine

open Sys2Proof

/-! ## Counting, as a read sees it (R56) -/

section
variable (c : Chip) (q : Page) (i : Nat)

theorem Chip.qsNoted_count : QsNoted c (c.count q i) := (QsNoted.refl c).count q i

theorem Chip.systemWord_count (req : Requester) (p : Page) (off : Nat) (w : Word) :
    (c.count q i).systemWord req p off w = c.systemWord req p off w := by
  obtain ⟨kind, n⟩ := p
  by_cases hk : kind = .qspis
  · subst hk
    rfl
  · exact (c.qsNoted_count q i).systemWord req off w hk

theorem Chip.readRow_count (req : Requester) (p : Page) (off : Nat) (r : RegRow) : (c.count q i).readRow req p off r = c.readRow req p off r := by
  have h := c.qsNoted_count q i
  have hreg : (c.count q i).regAt = c.regAt := rfl
  have htable : (c.count q i).tblStatusWord = c.tblStatusWord := rfl
  simp only [Chip.readRow, Chip.tblAddr, hreg, htable, h.statusWord, h.evtEn, h.evtPend, h.planeWord, c.systemWord_count,
    h.field Chip.bufWord fun _ _ _ _ => rfl, h.field Chip.snapHalf fun _ _ _ _ => rfl]

/-- Counting changes nothing that a read shows: a counter reads as its last snapshot holds it. -/
theorem Chip.read_count (req : Requester) (p : Page) (off : Nat) : (c.count q i).read req p off = c.read req p off := by
  simp only [Chip.read, Chip.reg_count, c.readRow_count]

theorem Chip.ehruzPort_count (port : Nat) : (c.count q i).ehruzPort port = c.ehruzPort port := rfl

end

/-- A command on chip and memories that leaves the memories alone. -/
theorem Does.of_runExt {i : Instr} {s : State} {dt : Nat} {f : Chip → Ext → Chip × Ext} {P : Chip → Prop} {d : Chip}
    (hi : exec i s = .next (s.runExt dt f)) (hd : f (s.chip.pass dt) s.ext = (d, s.ext)) (h : P d) : Does i s P := by
  refine ⟨_, hi, congrArg Prod.snd hd, State.runExt_pending .., ?_⟩
  rw [State.runExt_chip, hd]
  exact h

/-! ## Requests of ring peers (R291) -/

theorem Chip.cntAt_flitsOut (c : Chip) (t n k : Nat) : (c.flitsOut t n).cntAt k = (c.addCnt (pTENON t) K.TENON_FLITS_TX n).cntAt k := rfl

/-- A link's answer to a request of its partner. -/
def Chip.replyTo (c : Chip) (t addr err : Nat) (w : Word) : Chip := (c.flitsOut t 1).emit (.reply addr err w)

theorem Chip.outs_replyTo (c : Chip) (t addr err : Nat) (w : Word) : (c.replyTo t addr err w).outs = c.outs ++ [.reply addr err w] := rfl

section
variable {c : Chip} {x : Ext} {t addr : Nat} (ht : t < 2) (hup : c.tlState t = tlUP)
include ht hup

theorem Chip.remoteRequest_relay : c.remoteRequest x t .relay = ((c.count pTRING K.TRING_RELAYED).flitsOut (1 - t) 1, x) :=
  if_neg (not_not_intro ⟨ht, hup⟩)

theorem Chip.remoteRequest_confirm (dev cause : Nat) (data : Word) :
    c.remoteRequest x t (.confirm dev cause data) = ((c.remoteAnswer dev cause data).qsAdvance, x) :=
  if_neg (not_not_intro ⟨ht, hup⟩)

theorem Chip.remoteRequest_read {p : Page} (haddr : addr < 2 ^ 24) (hpage : pageOfAddr addr = some p) :
    c.remoteRequest x t (.read addr) = (c.replyTo t addr 0 (c.read .peer p (addr % 0x1000)), x) := by
  rw [Chip.remoteRequest, if_neg (not_not_intro ⟨ht, hup⟩)]
  simp only [Nat.mod_eq_of_lt haddr, hpage]
  rfl

/-- A peer's write acts as this device's own; it is answered unless it starts a software reset. -/
theorem Chip.remoteRequest_write {v : Word} {f : Chip} {y : Ext} {err : Nat} (haddr : addr < 2 ^ 24)
    (hwrite : c.localWrite x .peer addr v = (f, y, err)) : c.remoteRequest x t (.write addr v)
      = if addrIsDevRst addr && decide (v.toNat % 65536 = 0x9648 ∧ err = 0) then (f, y) else (f.replyTo t addr err 0, y) := by
  rw [Chip.remoteRequest, if_neg (not_not_intro ⟨ht, hup⟩)]
  simp only [Nat.mod_eq_of_lt haddr, hwrite]
  rfl

theorem Chip.remoteWrite_answered {v : Word} {f : Chip} {y : Ext} {err : Nat} (haddr : addr < 2 ^ 24)
    (hwrite : c.localWrite x .peer addr v = (f, y, err)) : let r := c.remoteRequest x t (.write addr v)
    r.2 = y ∧ r.1.outs
      = if addr = pageBase pRST + 0x144 ∧ v.toNat % 65536 = 0x9648 ∧ err = 0 then f.outs else f.outs ++ [.reply addr err 0] := by
  rw [Chip.remoteRequest_write ht hup haddr hwrite]
  simp only [addrIsDevRst, Bool.and_eq_true, decide_eq_true_eq]
  by_cases hreset : addr = pageBase pRST + 0x144 ∧ v.toNat % 65536 = 0x9648 ∧ err = 0
  · rw [if_pos hreset, if_pos hreset]
    exact ⟨rfl, rfl⟩
  · rw [if_neg hreset, if_neg hreset]
    exact ⟨rfl, f.outs_replyTo ..⟩

end

theorem Chip.relay_counted (c : Chip) {t : Nat} (ht : t < 2) : let d := (c.count pTRING K.TRING_RELAYED).flitsOut t 1
    d.cntAt (cntKey pTRING K.TRING_RELAYED) = c.cntAt (cntKey pTRING K.TRING_RELAYED) + 1
      ∧ d.cntAt (cntKey (pTENON t) K.TENON_FLITS_TX) = c.cntAt (cntKey (pTENON t) K.TENON_FLITS_TX) + 1 := by
  have hne : cntKey pTRING K.TRING_RELAYED ≠ cntKey (pTENON t) K.TENON_FLITS_TX := by
    show 125 * 1024 + 3 ≠ (123 + t) * 1024 + 0
    omega
  refine ⟨?_, ?_⟩
  · rw [Chip.cntAt_flitsOut, Chip.cntAt_addCnt_other _ _ _ _ hne, Chip.cntAt_count_same]
  · rw [Chip.cntAt_flitsOut, Chip.cntAt_addCnt_same, Chip.count, Chip.cntAt_addCnt_other _ _ _ _ hne.symm]
    rfl

/-- An answer to firmware's oldest request to a peer, which nothing of the QSPI slave or of the fence waits for. -/
theorem Chip.confirm_decides {c : Chip} {e : RemoteReq} {es : List RemoteReq} (data : Word) (hremotes : c.remotes = e :: es) (hreq : e.req = .trestle)
    (hwaits : e.waits = false) (horphan : e.orphan = false) (hfences : c.fences = []) (hread : c.qsRead = none) :
    let d := (c.remoteAnswer e.dev 0 data).qsAdvance
    d.remotes = es ∧ (e.write = false → d.outs = c.outs ++ [.readData .trestle (remoteAddr e.dev e.addr) data])
      ∧ (e.write = true → d.undecidedOf (reqCode .trestle) = c.undecidedOf (reqCode .trestle) - 1) := by
  cases hwrite : e.write
  case false =>
    let f := (c.withRemotes es).emit (.readData e.req (remoteAddr e.dev e.addr) data)
    have hidle : f.qsRead = none := hread
    have hanswer : (c.remoteAnswer e.dev 0 data).qsAdvance = f := by
      rw [Chip.remoteAnswer_read hremotes hwaits horphan data hwrite (by simp [hreq]), Chip.qsSettle_idle hidle, Chip.qsAdvance_idle hidle]
    rw [hanswer, ← hreq]
    exact ⟨rfl, fun _ => rfl, Bool.noConfusion⟩
  case true =>
    have hdecided := (c.withRemotes es).decided_unfenced e.req hfences
    have hidle : ((c.withRemotes es).decided e.req).qsRead = none := hdecided ▸ hread
    have hanswer : (c.remoteAnswer e.dev 0 data).qsAdvance = (c.withRemotes es).decided e.req := by
      rw [Chip.remoteAnswer_write hremotes hwaits horphan data hwrite, Chip.qsSettle_idle hidle, Chip.qsAdvance_idle hidle]
    rw [hanswer, hdecided, ← hreq]
    exact ⟨rfl, Bool.noConfusion, fun _ => lookupD_store_same ..⟩

/-! ## Ehruz (R295, R296) -/

theorem Chip.cntAt_raise_tring (c : Chip) (p : Page) (b : Nat) {i : Nat} (hi : i < 8) :
    (c.raise p b).cntAt (cntKey pTRING i) = c.cntAt (cntKey pTRING i) := by
  refine c.cntAt_raise_uncounted ?_ p b
  rw [uncounted, decide_eq_true_eq]
  show (125 * 1024 + i) / 1024 ≠ 10 ∧ 125 * 1024 + i ≠ 119 * 1024 + 4
  omega

theorem Chip.ehruzReject_latched (c : Chip) : c.ehruzReject.latched pTRING E.TRING_EHRUZ_REJECT = true := Chip.latched_raise _ rfl (by decide)

theorem Chip.cntAt_ehruzReject (c : Chip) {i : Nat} (hi : i < 8) :
    c.ehruzReject.cntAt (cntKey pTRING i) = (c.count pTRING K.TRING_EHRUZ_REJECT).cntAt (cntKey pTRING i) := Chip.cntAt_raise_tring _ _ _ hi

theorem Chip.outs_ehruzSend (c : Chip) (port seq : Nat) (ws : List Word) :
    (c.ehruzSend port seq ws).outs = c.outs ++ [.ehruzAnswer port (seq % 65536) ws] := rfl

theorem Chip.cntAt_ehruzSend (c : Chip) (port seq : Nat) (ws : List Word) (k : Nat) :
    (c.ehruzSend port seq ws).cntAt k = (c.count pTRING K.TRING_EHRUZ_TX).cntAt k := rfl

theorem Chip.ehruzSource_same (c : Chip) (src : Nat) : c.ehruzSource src false = c := by
  simp [Chip.ehruzSource]

section
variable {c : Chip} {x : Ext} {port : Nat} {src : EhruzSource} {dst : Nat} {bc : Bool} {op : EhruzOp} (hfw : c.fwRuns = true)
include hfw

theorem Chip.ehruzRequest_unserved {other : Bool}
    (hserved : (c.is pTRING F.TRING_EHRUZ_CFG_EN && c.is pTRING F.TRING_DOMAIN_CFG_ID_VALID) = false) :
    c.ehruzRequest x port src other dst bc op = (c.ehruzReject, x) := by
  rw [Chip.ehruzRequest, if_neg (not_not_intro hfw), if_pos (by simpa using hserved)]

variable (hserved : (c.is pTRING F.TRING_EHRUZ_CFG_EN && c.is pTRING F.TRING_DOMAIN_CFG_ID_VALID) = true)
include hserved

/-- A request that is served: counted, its source judged, then its port and its destination. -/
theorem Chip.ehruzRequest_served {other : Bool} : c.ehruzRequest x port src other dst bc op
    = let d := (c.count pTRING K.TRING_EHRUZ_RX).ehruzSource src.id other
      if ¬ d.ehruzPort port then (d.ehruzReject, x)
      else if bc ∨ dst = d.get pTRING F.TRING_DOMAIN_CFG_DEVICE_ID then d.ehruzPerform x port src op
      else (d, x) := by
  rw [Chip.ehruzRequest, if_neg (not_not_intro hfw), if_neg (not_not_intro (by simpa using hserved))]

theorem Chip.ehruzRequest_badPort (hport : c.ehruzPort port = false) :
    c.ehruzRequest x port src false dst bc op = ((c.count pTRING K.TRING_EHRUZ_RX).ehruzReject, x) := by
  rw [Chip.ehruzRequest_served hfw hserved]
  simp only [Chip.ehruzSource_same, Chip.ehruzPort_count, hport, Bool.false_eq_true, not_false_eq_true, if_true]

theorem Chip.ehruzRequest_broadcast (hport : c.ehruzPort port = true) :
    c.ehruzRequest x port src false dst true op = (c.count pTRING K.TRING_EHRUZ_RX).ehruzPerform x port src op := by
  rw [Chip.ehruzRequest_served hfw hserved]
  simp only [Chip.ehruzSource_same, Chip.ehruzPort_count, hport, not_true_eq_false, if_false, true_or, if_true]

end

/-- A word of the own device is read. -/
theorem Chip.ehruzRead_own (c : Chip) {addr : Nat} {p : Page} (hpage : pageOfAddr addr = some p) (haddr : addr < 2 ^ 24) :
    Chip.ehruzRead (c, []) (c.ringId * 2 ^ 24 + addr / 4 * 4) = (c, [c.read .trestle p (addr / 4 * 4 % 0x1000)]) := by
  have hring : c.ringId < 4 := c.get_lt pSYS F.SYS_STRAPS_RING_ID
  have hdev : (c.ringId * 2 ^ 24 + addr / 4 * 4) / 2 ^ 24 % 4 = c.ringId := by omega
  have hoff : (c.ringId * 2 ^ 24 + addr / 4 * 4) % 2 ^ 24 / 4 * 4 = addr / 4 * 4 := by omega
  have hsame : pageOfAddr (addr / 4 * 4) = some p := by
    rw [← hpage, pageOfAddr, pageOfAddr]
    congr 1
    omega
  simp only [Chip.ehruzRead, hdev, hoff, hsame, if_true, List.nil_append]

section
variable {c : Chip} {x : Ext} {port : Nat} {src : EhruzSource} {dst : Nat} (hfw : c.fwRuns = true)
  (hserved : (c.is pTRING F.TRING_EHRUZ_CFG_EN && c.is pTRING F.TRING_DOMAIN_CFG_ID_VALID) = true) (hport : c.ehruzPort port = true)
include hfw hserved hport

/-- Firmware reads a word of its own device and answers with it. -/
theorem Chip.ehruzRequest_read {addr : Nat} {p : Page} (hpage : pageOfAddr addr = some p) (haddr : addr < 2 ^ 24) :
    c.ehruzRequest x port src false dst true (.read [c.ringId * 2 ^ 24 + addr / 4 * 4])
      = ((c.count pTRING K.TRING_EHRUZ_RX).ehruzSend port src.seq [c.read .trestle p (addr / 4 * 4 % 0x1000)], x) := by
  have hread := (c.count pTRING K.TRING_EHRUZ_RX).ehruzRead_own hpage haddr
  have hring : (c.count pTRING K.TRING_EHRUZ_RX).ringId = c.ringId := c.get_count ..
  rw [hring, Chip.read_count] at hread
  rw [Chip.ehruzRequest_broadcast hfw hserved hport]
  simp only [Chip.ehruzPerform, List.take, List.foldl_cons, List.foldl_nil, hread]

/-- The source of EVENT_SUBSCRIBE is subscribed. -/
theorem Chip.ehruzRequest_subscribe : ∃ d : Chip, c.ehruzRequest x port src false dst true .subscribe = (d, x)
    ∧ (port, src.id) ∈ d.tr.subs ∧ d.outs = c.outs ++ [.ehruzAnswer port (src.seq % 65536) []] := by
  refine ⟨_, Chip.ehruzRequest_broadcast hfw hserved hport, ?_, rfl⟩
  change (port, src.id) ∈ if c.tr.subs.contains (port, src.id) then c.tr.subs else c.tr.subs ++ [(port, src.id)]
  split
  case isTrue h => exact List.contains_iff_mem.1 h
  case isFalse => simp

end

/-- The own device ID as the source of another sender is latched and shown. -/
theorem Chip.ehruzSource_conflict {c : Chip} {src : Nat} (hsrc : src = c.get pTRING F.TRING_DOMAIN_CFG_DEVICE_ID)
    (hvalid : c.is pTRING F.TRING_DOMAIN_CFG_ID_VALID = true) : let d := c.ehruzSource src true
    d.latched pTRING E.TRING_ID_CONFLICT = true ∧ d.is pTRING F.TRING_RING_STATUS_ID_CONFLICT = true
      ∧ d.ehruzConflict.isSome = true := by
  let e : Chip := { c with ehruzConflict := some src }
  have heq : c.ehruzSource src true = (e.showConflict.count pTRING K.TRING_ID_CONFLICT).raise pTRING E.TRING_ID_CONFLICT := by
    simp only [Chip.ehruzSource, ← hsrc, hvalid, and_self, if_true]
    rfl
  have hloud : Loud e.showConflict (c.ehruzSource src true) := heq ▸ (Calm.count ..).loud.trans (Loud.raise _ _ rfl)
  have hshown := (RingShown.refl e).showConflict.loud hloud
  refine ⟨?_, ?_, ?_⟩
  · rw [heq]
    exact Chip.latched_raise _ rfl (by decide)
  · rw [hloud.is rfl (by decide)]
    exact Chip.is_showConflict_ehruz rfl
  · exact congrArg Option.isSome (hshown.field Chip.ehruzConflict fun _ _ _ => rfl)

/-- A write request with the own device ID as its source is refused; where another device is addressed it is left alone. -/
theorem Chip.ehruzRequest_conflict {c : Chip} {x : Ext} {src : EhruzSource} {dst : Nat} {bc : Bool} (hfw : c.fwRuns = true)
    (hserved : (c.is pTRING F.TRING_EHRUZ_CFG_EN && c.is pTRING F.TRING_DOMAIN_CFG_ID_VALID) = true)
    (hsrc : src.id = c.get pTRING F.TRING_DOMAIN_CFG_DEVICE_ID) : ∃ d : Chip, c.ehruzRequest x 30 src true dst bc (.write []) = (d, x)
      ∧ d.latched pTRING E.TRING_ID_CONFLICT = true ∧ d.is pTRING F.TRING_RING_STATUS_ID_CONFLICT = true := by
  obtain ⟨-, hvalid⟩ := Bool.and_eq_true_iff.1 hserved
  let d := (c.count pTRING K.TRING_EHRUZ_RX).ehruzSource src.id true
  obtain ⟨hlatched, hshown, hconflict⟩ : d.latched pTRING E.TRING_ID_CONFLICT = true ∧ d.is pTRING F.TRING_RING_STATUS_ID_CONFLICT = true
      ∧ d.ehruzConflict.isSome = true := Chip.ehruzSource_conflict (hsrc.trans (c.get_count ..).symm) hvalid
  have hport : ¬ ¬ d.ehruzPort 30 = true := by simp [Chip.ehruzPort]
  rw [Chip.ehruzRequest_served hfw hserved]
  by_cases haddressed : bc = true ∨ dst = d.get pTRING F.TRING_DOMAIN_CFG_DEVICE_ID
  · have hloud : Loud d d.ehruzReject := (Calm.count ..).loud.trans (Loud.raise _ _ rfl)
    refine ⟨d.ehruzReject, ?_, (((Steady.refl d).count ..).raise ..).latched hlatched, (hloud.is rfl (by decide)).trans hshown⟩
    exact (if_neg hport).trans ((if_pos haddressed).trans (if_pos hconflict))
  · exact ⟨d, (if_neg hport).trans (if_neg haddressed), hlatched, hshown⟩

/-! ## The statement -/

/-- Settles O33: requests of peers and answers to the own, and Ehruz requests, by the lemmas above. -/
theorem ringRequests : Obligations.RingRequests := by
  intro s dt t addr port dst src other bc v data p e es f x err op c cnt served ht
  refine ⟨fun hup haddr => ⟨fun hwrite => .of_runExt rfl (Chip.remoteWrite_answered ht hup haddr hwrite),
      fun hpage => .of_runExt rfl (Chip.remoteRequest_read ht hup haddr hpage) (Chip.outs_replyTo ..),
      .of_runExt rfl (Chip.remoteRequest_relay ht hup) (c.relay_counted (by omega)),
      fun hremotes hreq hwaits horphan hfences hread => .of_runExt rfl (Chip.remoteRequest_confirm ht hup e.dev 0 data)
        (Chip.confirm_decides data hremotes hreq hwaits horphan hfences hread)⟩,
    fun hremotes hnew hdue => .of_run rfl (Chip.peerTimeout_due hremotes hnew hdue),
    fun hfw => ⟨fun hserved => .of_runExt rfl ?unserved, ?badPort, ?read, ?subscribe, ?conflict⟩⟩
  case unserved =>
    rw [Chip.ehruzRequest_unserved hfw hserved]
    exact ⟨rfl, c.ehruzReject_latched, (c.cntAt_ehruzReject (by decide)).trans (c.cntAt_count_same ..)⟩
  case badPort =>
    rintro hserved rfl - hport
    refine .of_runExt rfl ?_
    rw [Chip.ehruzRequest_badPort hfw hserved hport]
    refine ⟨rfl, Chip.ehruzReject_latched _, (Chip.cntAt_ehruzReject _ (by decide)).trans ?_⟩
    exact (Chip.cntAt_count_slot _ _ (by decide)).trans (c.cntAt_count_same ..)
  case read =>
    rintro hserved rfl rfl hport hpage haddr
    refine .of_runExt rfl (Chip.ehruzRequest_read hfw hserved hport hpage haddr) ⟨Chip.outs_ehruzSend .., ?_⟩
    exact (Chip.cntAt_ehruzSend ..).trans ((Chip.cntAt_count_same ..).trans (congrArg (· + 1) (c.cntAt_count_slot _ (by decide))))
  case subscribe =>
    rintro hserved rfl rfl hport
    obtain ⟨d, hd, hsubscribed, houts⟩ := Chip.ehruzRequest_subscribe (x := s.ext) (src := src) (dst := dst) hfw hserved hport
    exact .of_runExt rfl hd ⟨hsubscribed, houts⟩
  case conflict =>
    rintro hserved rfl hsrc
    obtain ⟨d, hd, hlatched, hshown⟩ := Chip.ehruzRequest_conflict (x := s.ext) (dst := dst) (bc := bc) hfw hserved hsrc
    exact .of_runExt rfl hd ⟨hlatched, hshown⟩

end Sys2Proof.Machine
